-- ==== Sys2Proof/Word.lean ====
section
/-!
DEFINITION. The word types of the model (spec chapter 0: bits, bytes, little-endian words) and the plainest
arithmetic on them. A value the manual treats as bits is a bit vector; counts, sizes, instance numbers and
times in nanoseconds are natural numbers.
-/
namespace Sys2Proof

/-- One byte. -/
abbrev Byte := BitVec 8
/-- A 16-bit word. -/
abbrev Word16 := BitVec 16
/-- A 32-bit word, one 4-byte register half. -/
abbrev Word32 := BitVec 32
/-- A 64-bit word: a 64-bit register, a host address, an engine register. -/
abbrev Word64 := BitVec 64

/-- A value cut to `w` bits. -/
def trunc (w v : Nat) : Nat := v % 2 ^ w

/-- Bits `lsb + width - 1` to `lsb` of a value. -/
def bitsOf (v lsb width : Nat) : Nat := (v / 2 ^ lsb) % 2 ^ width

/-- Bit `n` of a value. -/
def bitOf (v n : Nat) : Bool := bitsOf v n 1 == 1

/-- A value with bit `n` set. -/
def setBit (v n : Nat) : Nat := v ||| 2 ^ n

/-- A value with bit `n` clear. -/
def clearBit (v n : Nat) : Nat := if bitOf v n then v - 2 ^ n else v

/-- 1 for true, 0 for false: a flag as a register shows it. -/
def flag (b : Bool) : Nat := if b then 1 else 0

end Sys2Proof
end

