-- ==== Sys2Proof/Syntax.lean ====
section
/-!
DEFINITION. The commands of the block, one constructor per row of the opcode table, and the types of their operands.
A command carries what arrives from outside with it: what a host, a board, a peer, a bridge or a timer brings.
-/
namespace Sys2Proof

/-- A PCI Express function number, 0 to 1023; it is the tenant ID (R72). -/
abbrev Fn := Nat
/-- A string number, 0 to 15. -/
abbrev Str := Nat
/-- A bridge position on a string, 0 to 7. -/
abbrev Pos := Nat
/-- A shelf ID, 0 to 127. -/
abbrev Shelf := Nat
/-- A cohort number, 0 to 7. -/
abbrev Cohort := Nat
/-- A stream-engine cluster number, 0 to 23. -/
abbrev Cluster := Nat
/-- An engine of a cluster, 0 to 7. -/
abbrev Engine := Nat

/-- A chain channel of DMA, 0 to 31. -/
abbrev Chan := Nat

/-- An address space a register access names: the management window (R2), the blocks' registers as a control core reaches them, a function's controller registers and
doorbells (R75), a function's MSI-X table (R82), or a function's configuration space (Table 3-2). -/
inductive Space where
  | bar2
  | cores
  | bar0 (fn : Fn)
  | bar4 (fn : Fn)
  | cfg (fn : Fn)
  deriving DecidableEq, Repr

/-- The status a completion of a host read request carries (R89). -/
inductive CplStatus where
  | sc | ur | ca | rrs
  deriving DecidableEq, Repr

/-- Why a host read request failed (R89). -/
inductive ReadFail where
  | timeout | ur | ca | poisoned | length | rrs | ecrc
  deriving DecidableEq, Repr

/-- The errors of Table 3-7. -/
inductive LinkErr where
  | receiverError | badTlp | badDllp | replayTimeout | replayRollover
  | fecCorrected | correctedInternal | headerLogOverflow | advisoryNonFatal
  | poisonedTlp | ecrc | dataLinkProtocol | flowControlProtocol | malformedTlp | receiverOverflow
  | uncorrectableInternal
  deriving DecidableEq, Repr

/-- The requests of R94 that no served BAR or function answers. -/
inductive BadRequest where
  | memRead | memWrite | cfgRequest | ioRequest | lockedRead | atomicOp | msgType1 | msgType0
  deriving DecidableEq, Repr

/-- The load R26 is checked against: rates in MB/s, factors in thousandths. -/
structure Load where
  ingest : Nat
  peer : Nat
  retrieve : Nat
  d : Nat
  u : Nat
  c : Nat
  s : Nat
  deriving DecidableEq, Repr

/-- The name of a fetched NVMe command: its function, submission queue and command identifier. -/
structure CmdId where
  fn : Fn
  sq : Nat
  cid : Nat
  deriving DecidableEq, Repr

/-- A command's data pointer as its entry holds it, the low and the high 8 bytes: two PRP entries, or an SGL descriptor (R91, R120). -/
structure DPtr where
  lo : Nat
  hi : Nat
  deriving DecidableEq, Repr

/-- The fields of a Write, Read or Verify that R120 checks, and where its data and separate metadata lie (R128). -/
structure CmdForm where
  fuse : Nat
  psdt : Nat
  dptr : DPtr
  mptr : Nat
  deriving DecidableEq, Repr

/-- The protection fields of a Write, Read or Verify (Table 5-3). -/
structure PrInfo where
  pract : Bool
  prchk : Nat
  ilbrt : Nat
  lbat : Nat
  lbatm : Nat
  deriving DecidableEq, Repr

/-- A buffer in host memory: pieces, each a host address and a byte count. -/
abbrev HostBuf := List (Nat × Nat)

/-- The fields of a Namespace Management create (R124, Table 4-6). -/
structure NsSpec where
  nsze : Nat
  ncap : Nat
  lbaf : Nat
  ext : Bool
  dps : Nat
  anagrp : Nat
  owner : Fn
  cls : Nat
  keySlot : Nat
  deriving DecidableEq, Repr

/-- What a Namespace Management command asks. -/
inductive NsAction where
  | create
  | delete (nsid : Nat)
  deriving DecidableEq, Repr

/-- What the recorder's SRAM answers as a record is written (R586). -/
inductive SramCheck where
  | clean
  | corrected (slot syndrome : Nat)
  | uncorrectable (slot syndrome : Nat)
  | badWrite (syndrome : Nat)
  deriving DecidableEq, Repr

/-- What a compressor or decompressor core gives at a job's end: the frame a compressor made, or what a decompressor
found, byte for byte; a bus error. -/
inductive CmpOutcome where
  | frame (bytes : List Byte)
  | content (status : Nat) (bytes : List Byte) (consumed : Nat)
  | busError
  deriving DecidableEq, Repr

/-- What a digest core answers to a compare (R216): its two flags and its number. -/
structure FpCompare where
  ok : Bool
  okN : Bool
  core : Nat
  deriving DecidableEq, Repr

/-- The units that take accelerator jobs (R231, R259, R321). -/
inductive AccelUnit where
  | compressor | decompressor | cipher | digest | rde
  deriving DecidableEq, Repr

/-- The fields of a cipher job descriptor (Table 8-6) that its issuer sets, and where its result goes. -/
structure CipherDesc where
  slot : Nat
  tenant : Nat
  srcLen : Nat
  dstCap : Nat
  srcAddr : Nat
  dstAddr : Nat
  hdrAddr : Nat
  form : Nat
  resAddr : Nat
  deriving DecidableEq, Repr

/-- The fields of a digest job descriptor (Table 8-9) that its issuer sets, and where its result goes. -/
structure DigestDesc where
  alg : Nat
  flags : Nat
  fragCount : Nat
  domain : Nat
  srcAddr : Nat
  stateAddr : Nat
  cmpAddr : Nat
  resAddr : Nat
  deriving DecidableEq, Repr

/-- A page header (Table 9-3), without MAGIC and CHECK. -/
structure PageHdr where
  flags : Nat
  shelf : Nat
  arrayTag : Nat
  la : Nat
  seq : Nat
  band : Nat
  epoch : Nat
  check : Nat
  deriving DecidableEq, Repr

/-- A NAND geometry as GEOMETRY reports it (Table 9-8). -/
structure Geometry where
  dies : Nat := 0
  planes : Nat := 0
  blocks : Nat := 0
  pages : Nat := 0
  endurance : Nat := 0
  maxRetry : Nat := 0
  headersPerS : Nat := 0
  deriving DecidableEq, Repr

/-- What the NAND of a shelf does when a page is read (R307): how many bits were corrected, or that it did not decode. -/
inductive NandRead where
  | clean
  | corrected (bits : Nat)
  | uncorrectable
  deriving DecidableEq, Repr

/-- The media operations of Table 9-8 as a head asks for them. -/
inductive MediaReq where
  | read (ppa retry : Nat)
  | readHdr (ppa : Nat)
  | program (ppa : Nat) (hdr : PageHdr) (data : List Byte)
  | erase (ppa : Nat)
  | copy (src dst seq band epoch : Nat)
  | blockInfo (ppa : Nat)
  | retire (ppa : Nat)
  | geometry
  | rootGet
  | rootSet (slot ppa seq : Nat)
  deriving DecidableEq, Repr

/-- The fields of an RDE job descriptor (Table 10-4) that its issuer sets, and where its result goes. -/
structure RdeDesc where
  zeroInit : Bool
  k : Nat
  npar : Nat
  missA : Nat
  missB : Nat
  index : Nat
  len : Nat
  src : Nat
  dst : Nat
  resAddr : Nat
  deriving DecidableEq, Repr

/-- What a hub port brings in one codeword time (R347). -/
inductive HubIn where
  | idle
  | codeword (blocks : List Byte)
  | misaligned
  deriving DecidableEq, Repr

/-- What the hub sends to every port in one codeword time (R347). -/
inductive HubOut where
  | idle
  | codeword (blocks : List Byte)
  | collide (ports misaligned : Nat)
  deriving DecidableEq, Repr

/-- The payload of a string frame (Table 11-5, R372, R374). -/
inductive StrPayload where
  | req (op : MediaReq)
  | rsp (op status delivery level corr : Nat) (body : List Byte)
  | ack
  | park
  | sessionStart (opidNext : Nat) (keep : Bool)
  | keys (keygen key : Nat)
  | echo (data : List Byte)
  | echoReply (data : List Byte)
  | parkDone
  | badCtrl
  deriving DecidableEq, Repr

/-- A string frame (Table 11-4). -/
structure StrFrame where
  src : Nat
  dst : Nat
  session : Nat
  seqd : Bool
  ackValid : Bool
  retx : Bool
  seq : Nat
  ack : Nat
  opid : Nat
  txc : Nat
  payload : StrPayload
  deriving DecidableEq, Repr

/-- What the receiver of a frame with SESSION 0 finds beside the payload (R357): its DST, its TXC and its trailer. -/
structure CrcHdr where
  dst : Nat
  txc : Nat
  trailer : List Byte
  deriving DecidableEq, Repr

/-- A frame as a receiver finds it: its fields with its payload in clear, whether its blocks decoded, and its 16-byte trailer (R355, R357). -/
structure RxFrame where
  frame : StrFrame
  decoded : Bool
  trailer : List Byte
  deriving DecidableEq, Repr

/-- A beacon (Table 11-6) with the KEYGEN, TXC and SRC of its frame header. -/
structure Beacon where
  cycle : Nat
  ownerGen : Nat
  pf : Bool
  fence8 : Bool
  fence9 : Bool
  release : Bool
  wakeList : List Nat
  quarantine : List Nat
  cack1 : Nat
  cack2 : Nat
  grants : List Nat
  keygen : Nat
  txc : Nat
  src : Nat
  deriving DecidableEq, Repr

/-- The enrolment messages of Table 11-9, from the bridge unless their names say otherwise, with what each brings. -/
inductive SpdmMsg where
  | version
  | capabilities
  | algorithms (ok : Bool)
  | digests (digest : Nat)
  | certificate (rootTrusted : Bool) (fp digest : Nat)
  | keyExchangeRsp (sigOk : Bool)
  | encapsulatedRequest
  | finishRsp (headVerified : Bool) (reqKey rspKey : Nat)
  | endSession
  deriving DecidableEq, Repr

/-- What the receiver of a peer-link frame finds (Table 12-2, R389 to R391): corrected and uncorrectable codewords in it,
its 16-byte trailer, and the header fields the delivery rules use. -/
structure PeerHdr where
  session : Nat
  src : Nat
  seq : Nat
  ack : Option Nat
  opid : Nat
  txc : Nat
  retx : Bool
  replay : Bool
  corrected : Nat
  uncorrectable : Nat
  trailer : List Byte
  deriving DecidableEq, Repr

/-- A HELLO payload (Table 12-12). -/
structure HelloMsg where
  pos : Nat
  headId : Nat
  state : Nat
  hostUp : Bool
  holdupHigh : Bool
  epochUs : Nat
  arrayId : Nat
  epoch : Nat
  anchor : Nat
  wbSize : Nat
  writeGen : Nat
  awg : Nat
  secretGen : Nat
  fwSerial : Nat
  fwFloor : Nat
  tenants : Nat
  layout : Nat
  topology : Nat
  deriving DecidableEq, Repr

/-- The state word of a heartbeat (R412). -/
structure HbState where
  pos : Nat
  state : Nat
  hostUp : Bool
  holdupHigh : Bool
  awake : Nat
  strings : Nat
  mnDone : Nat
  deriving DecidableEq, Repr

/-- The body of a proposal (Table 12-5, Table 12-12). -/
inductive Proposal where
  | keyLoad (slot : Nat) (persist : Bool) (owner key : Nat)
  | keyErase (slot : Nat)
  | image (tenants layout topology switchEpoch : Nat)
  | cohort (target waitStamp : Nat)
  | reshape (arg : Nat)
  | owner (str newPos : Nat)
  deriving DecidableEq, Repr

/-- A LEASE frame (Table 12-12). -/
inductive LeaseMsg where
  | request (what count tenant shelf : Nat)
  | response (status : Nat) (granted : List Nat)
  deriving DecidableEq, Repr

/-- An entry of a MAPWALK response (Table 12-12). -/
structure WalkEntry where
  lba : Nat
  blocks : Nat
  source : Nat
  skip : Nat
  locator : Nat
  deriving DecidableEq, Repr

/-- A MAPWALK frame. -/
inductive WalkMsg where
  | request (nsid slba nlb : Nat)
  | response (status : Nat) (entries : List WalkEntry)
  deriving DecidableEq, Repr

/-- A journal record that changes the namespaces (R168), as a STATE item carries it: CLASS and KEY_SLOT as they are used, in `spec`, and
as Identify Namespace returns them (R124). `wiped` says that the change deallocates every block (R126). -/
structure NsRecord where
  nsid : Nat
  present : Bool
  attached : Bool
  spec : NsSpec
  clsGiven : Nat
  slotGiven : Nat
  wiped : Bool
  deriving DecidableEq, Repr

/-- An item of a STATE request (Table 12-12). -/
inductive StateItem where
  | keySlot (slot state : Nat) (persist erased : Bool) (eraseEpoch key : Nat)
  | stringKey (str keygen key : Nat)
  | schedule (anchor epoch admitEpoch : Nat)
  | cohorts (awake ingest : Nat)
  | record (r : NsRecord)
  | granules (first count : Nat) (leased : List Nat)
  | secrets (gen dedup vault : Nat)
  | generation (writeGen awg : Nat)
  deriving DecidableEq, Repr

/-- A STATE frame. -/
inductive StateMsg where
  | request (last : Bool) (items : List StateItem)
  | response (status : Nat)
  deriving DecidableEq, Repr

/-- The placement of some blocks of a piece, as a map record names it (R168, R283): first LBA, blocks, SKIP, ORIGIN and locator. -/
structure MapPlace where
  lba : Nat
  count : Nat
  skip : Nat
  origin : Nat
  locator : Nat
  deriving DecidableEq, Repr

/-- A tag run as a map record carries it (R166, Table 5-4). -/
structure MapTags where
  lba : Nat
  mode : Nat
  count : Nat
  refBase : Nat
  appTag : Nat
  deriving DecidableEq, Repr

/-- What a REC frame holds of the peer's journal record (R168, R409). A map record's `code` is 0 for placed blocks, 0xF for
deallocated ones and 0xE for zeroes; `stripe` and `extent` are the shelf-map changes of R287. -/
inductive RecBody where
  | map (wid piece nsid slba blocks code : Nat) (places : List MapPlace) (tags : List MapTags)
  | insert (fp dom cls blocks locator keySlot : Nat) (wid piece : Nat)
  | increment (fp dom cls locator : Nat) (wid piece : Nat)
  | decrement (fp dom cls locator : Nat)
  | relocate (fp dom cls old new : Nat)
  | erased (fp dom cls locator : Nat)
  | lost (fp dom cls locator : Nat)
  | answered (fps : List (Nat × Nat))
  | moved (old new : Nat)
  | rebuilt (cohort seid strip str : Nat)
  | stripe (cohort seid cls : Nat) (strings : List Nat)
  | extent (sh seid extLog2 band bpage tag : Nat)
  | ns (r : NsRecord)
  | lostEntry (kind cohort strip cause id firstPage count blocks firstLba : Nat)
  | agreement (slot : Nat)
  | other
  deriving DecidableEq, Repr

/-- The answers to an agreement (Table 12-12). -/
inductive AnswerRes where
  | accept
  | refuse (reason : Nat)
  | malformed
  | stale
  deriving DecidableEq, Repr

/-- What an error-correcting memory finds as it is read (R426, R491, R494). -/
inductive EccIn where
  | clean
  | corrected
  | uncorrectable
  deriving DecidableEq, Repr

/-- A window of a work item (R427). -/
structure Window where
  base : Nat
  len : Nat
  rd : Bool
  wr : Bool
  deriving DecidableEq, Repr

/-- A work item with its windows (Table 13-12). `pi` is the PI byte, `args` the 64 bytes of ARGS. -/
structure WorkItem where
  workId : Nat
  kind : Nat
  pi : Nat
  tenant : Nat
  nsid : Nat
  slba : Nat
  nlb : Nat
  cls : Nat
  opts : Nat
  keySlot : Nat
  lbat : Nat
  lbatm : Nat
  segment : Nat
  ilbrt : Nat
  stateAddr : Nat
  aux : Nat
  args : List Byte
  windows : List Window
  deriving DecidableEq, Repr

/-- Why a chain access failed (DMA_BERR.KIND of Table 14-6). -/
inductive BusErr where
  | hostRead (why : ReadFail)
  | dramUncorrectable | poisoned | timeout | lineFault
  deriving DecidableEq, Repr

/-- Who accesses memory through the system cache: a control core's data or instruction side, or another unit. -/
inductive MemAgent where
  | core (k : Nat)
  | fetch (k : Nat)
  | unit
  deriving DecidableEq, Repr

/-- An access of one 64-byte line or less: a read, or a write of the given bytes (R484). -/
inductive MemAccess where
  | read (len : Nat)
  | write (data : List Byte)
  deriving DecidableEq, Repr

/-- Where a token is submitted (R530): the BAR2 mailbox, or the bytes JTAG shifted in. -/
inductive TokenSrc where
  | mailbox
  | jtag (bytes : List Byte)
  deriving DecidableEq, Repr

/-- The transports of R539. -/
inductive Transport where
  | pcie | i3c
  deriving DecidableEq, Repr

/-- What an MCTP message carries (R539, R69). -/
inductive MctpBody where
  | nvmeMi (request : List Byte)
  | spdm (request : List Byte)
  deriving DecidableEq, Repr

/-- The identity of a channel's DIMM as it is read over the sideband bus (R476): capacity in GiB, ranks, and what else tells it from others. -/
structure DimmId where
  gib : Nat
  ranks : Nat
  serial : Nat
  deriving DecidableEq, Repr

/-- The commands. -/
inductive Instr where
  /-- REGISTER_WRITE (R3): A BAR2 write to a register field with no row of its own sets, clears or ignores fields according to their access codes. -/
  | registerWrite (sp : Space) (ofs size : Nat) (value : Word64)
  /-- LOW_HALF_READ (R9): A 4-byte read of the low half of a 64-bit register latches the high half into its shadow. -/
  | lowHalfRead (sp : Space) (ofs size : Nat)
  /-- LOW_HALF_WRITE (R10): A 4-byte write of the low half of a 64-bit register is held until the high half is written. -/
  | lowHalfWrite (sp : Space) (ofs : Nat) (value : Word32)
  /-- NIGHTWATCH_TICK (R28): Each 32.768 kHz tick in Night advances GLB_TIME by 30 517 or 30 518 ns. -/
  | nightwatchTick
  /-- POR_N_ASSERT (R606): POR_N held low for 10 us causes a cold reset of every block including the Nightwatch domain. -/
  | porNAssert
  /-- CRYSTAL_RUNNING (R602): When the crystal oscillator runs after POR_N rises, the head drives PWR_REQ high and Dawn begins. -/
  | crystalRunning
  /-- HEAD_SEL_SAMPLE (R607): One millisecond after POR_N rises, HEAD_SEL is sampled and held as the head's position. -/
  | headSelSample (pos : Bool)
  /-- SYS_RST_N_ASSERT (R606): SYS_RST_N held low causes a warm reset, preceded by a flush if data is exposed. -/
  | sysRstNAssert
  /-- PWRGD_RISE (R603): PWRGD rising tells the head that every switched rail is in range so Dawn may lock its PLLs. -/
  | pwrgdRise
  /-- PWRGD_FALL (R605): PWRGD falling while PWR_REQ is high is a head fault that holds the head in reset without self-refresh. -/
  | pwrgdFall
  /-- PLL_LOCK_TIMEOUT (R513): A core PLL not locked within 1 ms is reset and retried, and after three tries is recorded as failed. -/
  | pllLockTimeout (pll : Nat)
  /-- FIRMWARE_START (R554): The loader checks the firmware slot, measures it and starts the firmware, which loads microcode and applies the Kilip image. -/
  | firmwareStart (copy0 copy1 sramOk : Bool) (failedUnits : List (Nat × Nat))
  /-- VAULT_REPLAY (R172): Before any I/O queue is served the head reads its vault image, applies its records and re-ingests uncovered pieces. -/
  | vaultReplay (superseded : Bool) (sealMax : Nat) (failed : List Nat) (sealOk : Bool) (bad : List Nat)
  /-- DAY_REACHED (R507): The head enters Day, re-anchors its epoch schedule and starts peer-link bring-up and cohort selection. -/
  | dayReached
  /-- LOAD (R56): KCF command LOAD reads KCF_SRC_LEN bytes of image from host memory into a staging slot. -/
  | kcfLoad
  /-- KCF_LOAD_DONE (R56): The image read by LOAD ends, leaving KCF in LOADED or, on a failed read, FAILED with CODE 0x01. -/
  | kcfLoadDone
  /-- VALIDATE (R51): KCF command VALIDATE runs checks 1 to 10 of Table 2-13 on the staged image. -/
  | kcfValidate
  /-- KCF_VALIDATE_DONE (R51): Validation ends and posts KCF_RESULT with the first failing check or success. -/
  | kcfValidateDone
  /-- ACTIVATE (R57): KCF command ACTIVATE runs the live-state check and starts writing the image to the boot flash. -/
  | kcfActivate
  /-- KCF_PERSIST_DONE (R57): The boot-flash write and read-back of an activated image end and the image is armed for reset or live. -/
  | kcfPersistDone (ok : Bool)
  /-- ABORT (R58): KCF command ABORT stops the command in progress or disarms an armed image. -/
  | kcfAbort
  /-- RETRY (R55): KCF command RETRY quiesces again the clusters shown in KCF_CLUSTER_FAIL. -/
  | kcfRetry
  /-- KCF_ACT_TIMEOUT (R62): KCF_ACT_TMO passes without peer agreement and ACTIVATE ends with CODE 0x0F. -/
  | kcfActTimeout
  /-- CLUSTER_DRAINED (R65): A quiescing cluster's work in flight finishes, so it is halted, loaded and resumed under its new pool. -/
  | clusterDrained (n : Cluster) (ok : Bool)
  /-- KCF_QUIESCE_TIMEOUT (R65): KCF_QUIESCE_TMO ends for a draining cluster, whose remaining work is halted and later restarted. -/
  | kcfQuiesceTimeout (n : Cluster) (ok : Bool)
  /-- PERST_DEASSERT (R98): PERST# deassertion releases the endpoint from reset, starts link training and wakes a head in Night. -/
  | perstDeassert
  /-- PERST_ASSERT (R547): PERST# assertion resets the endpoint and all functions, and takes a drained head into Night. -/
  | perstAssert
  /-- LINK_L0_REACHED (R98): The PCI Express link reaches L0 and configuration space readiness begins. -/
  | linkL0Reached (rate width : Nat) (flit : Bool)
  /-- CONFIG_SPACE_READY (R98): Configuration space becomes ready and a Device Readiness Status message is sent. -/
  | configSpaceReady
  /-- DL_DOWN (R96): Loss of the host link resets every function, disposes of work per Table 3-9 and notifies the peer. -/
  | dlDown
  /-- HOT_RESET (R98): A hot reset resets the endpoint as a conventional reset and restarts link training. -/
  | hotReset
  /-- PME_TURN_OFF (R501): A PME_Turn_Off message is answered with PME_TO_Ack and the link enters L2. -/
  | pmeTurnOff
  /-- LINK_ERROR (R93): A link-level error is logged in AER and counted, and fatal protocol errors retrain the link. -/
  | linkError (err : LinkErr) (fn : Fn) (replayed : Bool)
  /-- DEVICE_CONTROL_WRITE (R70): A write of Device Control sets payload and read-request sizes, keeping unsupported encodings. -/
  | deviceControlWrite (fn : Fn) (value : Nat)
  /-- NUMVFS_WRITE (R73): A write of NumVFs is accepted only within the ARI and VF Enable limits. -/
  | numvfsWrite (value : Nat)
  /-- SYSTEM_PAGE_SIZE_WRITE (R77): A write of System Page Size is accepted only for one supported bit while VF Enable is 0. -/
  | systemPageSizeWrite (value : Nat)
  /-- VF_ENABLE_SET (R78): Setting VF Enable makes VFs 1 to NumVFs answer configuration requests within 10 ms. -/
  | vfEnableSet
  /-- VF_ENABLE_CLEAR (R78): Clearing VF Enable removes every VF as though each had received a Function Level Reset. -/
  | vfEnableClear
  /-- VF_FLR (R79): A Function Level Reset of a VF resets its controller, MSI-X table and configuration space. -/
  | vfFlr (fn : Fn)
  /-- PF_FLR (R80): A Function Level Reset of the PF resets the PF controller and removes every VF, leaving BAR2 state. -/
  | pfFlr
  /-- BUS_MASTER_ENABLE_WRITE (R81): Changing Bus Master Enable stops or resumes requests issued on behalf of the function. -/
  | busMasterEnableWrite (fn : Fn) (on : Bool)
  /-- MSIX_MASK_WRITE (R85): A write of a vector Mask bit or Function Mask masks or unmasks, sending a pending message on unmask. -/
  | msixMaskWrite (fn : Fn) (vec : Option Nat) (mask : Bool)
  /-- MSIX_ENABLE_WRITE (R83): Setting MSI-X Enable sends a message for every vector that is pending and unmasked. -/
  | msixEnableWrite (fn : Fn) (on : Bool)
  /-- MSIX_MESSAGE_WRITE (R86): A write to a Message Address or Data word of an unmasked entry changes it and records event 0x044. -/
  | msixMessageWrite (fn : Fn) (vec word : Nat) (value : Nat)
  /-- INBOUND_UNSUPPORTED_REQUEST (R94): A request that hits no served BAR or function is answered with UR or discarded. -/
  | inboundUnsupportedRequest (kind : BadRequest) (fn : Fn)
  /-- READ_COMPLETION (R88): A completion piece for a host read request is written into DRAM, completing the transfer when all arrive. -/
  | readCompletion (tag : Nat) (status : CplStatus) (poisoned badCount ecrcBad : Bool) (data : List Byte)
  /-- COMPLETION_TIMEOUT (R90): A host read request's completion timer runs out and the request fails. -/
  | completionTimeout (tag : Nat)
  /-- EPC_CLR_CNT (R99): EPC_CTRL.CLR_CNT clears all seven endpoint DVSEC counters together. -/
  | epcClrCnt
  /-- CC_EN_SET (R102): Setting CC.EN checks the controller configuration and makes the controller ready or sets CFS. -/
  | ccEnSet (fn : Fn)
  /-- CONTROLLER_READY (R103): CSTS.RDY becomes 1 once the head is in Day after CC.EN was set. -/
  | controllerReady (fn : Fn)
  /-- CC_EN_CLEAR (R104): Clearing CC.EN stops fetching, deletes I/O queues and disposes of commands in flight. -/
  | ccEnClear (fn : Fn)
  /-- NORMAL_SHUTDOWN (R105): CC.SHN 0b01 stops fetching and lets every fetched command complete before SHST becomes 0b10. -/
  | normalShutdown (fn : Fn)
  /-- ABRUPT_SHUTDOWN (R105): CC.SHN 0b10 disposes of commands in flight and sets SHST 0b10 within 10 ms. -/
  | abruptShutdown (fn : Fn)
  /-- SQ_TAIL_DOORBELL (R111): A submission queue tail doorbell write makes new entries available for fetching. -/
  | sqTailDoorbell (fn : Fn) (qid value : Nat)
  /-- CQ_HEAD_DOORBELL (R111): A completion queue head doorbell write releases entries and lets waiting completions post. -/
  | cqHeadDoorbell (fn : Fn) (qid value : Nat)
  /-- SQ_FETCH_ISSUE (R114): The fetch engine picks a queue by pool, deficit round robin and burst, and issues an entry fetch. -/
  | sqFetchIssue (load : Load) (busyPools : List Nat)
  /-- COALESCING_TIMER (R113): The interrupt coalescing time of a vector runs out and its message is sent. -/
  | coalescingTimer (fn : Fn) (vec : Nat)
  /-- DELETE_IO_SUBMISSION_QUEUE (R110): Stops fetching from the queue, aborts untransferred commands and completes after the last completion. -/
  | deleteIoSubmissionQueue (id : CmdId) (qid : Nat)
  /-- CREATE_IO_SUBMISSION_QUEUE (R109): Checks and creates an I/O submission queue bound to an existing completion queue. -/
  | createIoSubmissionQueue (id : CmdId) (qid qsize cqid : Nat) (pc : Bool) (prp1 : Nat)
  /-- GET_LOG_PAGE (R141): Returns a supported log page, clearing event masking when RAE is cleared. -/
  | getLogPage (id : CmdId) (lid ofs len : Nat) (rae : Bool) (dptr : DPtr)
  /-- DELETE_IO_COMPLETION_QUEUE (R110): Deletes an I/O completion queue unless a submission queue is bound to it. -/
  | deleteIoCompletionQueue (id : CmdId) (qid : Nat)
  /-- CREATE_IO_COMPLETION_QUEUE (R109): Checks and creates an I/O completion queue. -/
  | createIoCompletionQueue (id : CmdId) (qid qsize vec : Nat) (pc ien : Bool) (prp1 : Nat)
  /-- IDENTIFY (R141): Returns a supported Identify structure. -/
  | identify (id : CmdId) (cns csi nsid : Nat) (dptr : DPtr)
  /-- NVME_ABORT (R122): Abort completes with Success reporting the command not aborted. -/
  | nvmeAbort (id : CmdId) (target : CmdId)
  /-- SET_FEATURES (R108): Sets a supported feature, including Number of Queues which allocates MAX_QP queue pairs. -/
  | setFeatures (id : CmdId) (fid dw11 : Nat) (save : Bool)
  /-- GET_FEATURES (R141): Returns the current, default or supported value of a feature. -/
  | getFeatures (id : CmdId) (fid sel : Nat)
  /-- ASYNCHRONOUS_EVENT_REQUEST (R123): Registers an outstanding request that completes when an event is reported. -/
  | asynchronousEventRequest (id : CmdId)
  /-- NAMESPACE_MANAGEMENT (R124): Creates or deletes a namespace, recorded with the peer and completed after the second Midnight. -/
  | namespaceManagement (id : CmdId) (act : NsAction)
  /-- NAMESPACE_ATTACHMENT (R125): Attaches or detaches a namespace to its owner's controllers, completing after the second Midnight. -/
  | namespaceAttachment (id : CmdId) (nsid : Nat) (attach : Bool)
  /-- FORMAT_NVM (R126): Deallocates every block of one namespace and may change its LBA format. -/
  | formatNvm (id : CmdId) (nsid lbaf ses dps : Nat) (ext : Bool)
  /-- DEVICE_SELF_TEST (R136): Starts a short or extended self-test, or aborts the running one. -/
  | deviceSelfTest (id : CmdId) (stc : Nat)
  /-- SELF_TEST_STEP (R137): A self-test step runs on resources no host command waits for, at least every 50 ms for the short test. -/
  | selfTestStep (failedUnit : Option (Nat × Nat)) (last : Bool)
  /-- FIRMWARE_IMAGE_DOWNLOAD (R559): Places a 4 KiB-aligned piece of firmware image in the download buffer. -/
  | firmwareImageDownload (id : CmdId) (ofs len : Nat)
  /-- FIRMWARE_COMMIT (R560): Checks and writes the downloaded image to the slot, or selects the slot's image, for the next Dawn. -/
  | firmwareCommit (id : CmdId) (ca fs : Nat) (peerUnconfirmed : Bool)
  /-- FW_SLOT_WRITE_DONE (R561): The loader's program and read-back of the firmware slot end and FW_STATE becomes written or stays writing. -/
  | fwSlotWriteDone (ok : Bool)
  /-- LOAD_KEY (R239): Security Send LOAD_KEY unwraps a transport-wrapped key and loads it into a slot on both heads. -/
  | loadKey (id : CmdId) (nssf tl : Nat)
  /-- ERASE_KEY (R245): Security Send ERASE_KEY puts a slot in ERASING on both heads and begins the staged erase. -/
  | eraseKey (id : CmdId) (nssf tl : Nat)
  /-- ERASE_CHUNKS_ENCRYPTED (R245): The last chunk fetched before an erase is encrypted, so the key is zeroized and the Security Send completes. -/
  | eraseChunksEncrypted (slot : Nat)
  /-- TRANSPORT_KEY (R244): Security Receive TRANSPORT_KEY returns the head's transport public key and KT_SERIAL. -/
  | transportKey (id : CmdId) (nssf alloc : Nat) (dptr : DPtr)
  /-- SLOT_STATUS (R244): Security Receive SLOT_STATUS lists the state of every slot the function reaches. -/
  | slotStatus (id : CmdId) (nssf alloc : Nat) (dptr : DPtr)
  /-- LAST_RESULT (R244): Security Receive LAST_RESULT returns the outcome of the function's last key-transport Security Send. -/
  | lastResult (id : CmdId) (nssf alloc : Nat) (dptr : DPtr)
  /-- SECURITY_PROTOCOL_INFO (R238): Security Receive of protocol 0x00 lists the supported security protocols. -/
  | securityProtocolInfo (id : CmdId) (spsp nssf alloc : Nat) (dptr : DPtr)
  /-- WRITE (R145): A Write allocates buffer and mirror space, reads its data and completes once checked, mirrored and journalled. -/
  | write (id : CmdId) (nsid slba nlb : Nat) (form : CmdForm) (pr : PrInfo)
  /-- WRITE_DATA_ARRIVED (R88): The last byte of a write's data arrives, so the write is scanned and its mirror completes. -/
  | writeDataArrived (id : CmdId)
  /-- READ (R174): A Read resolves the source of every block and fetches, verifies and delivers the data. -/
  | read (id : CmdId) (nsid slba nlb : Nat) (form : CmdForm) (pr : PrInfo)
  /-- VERIFY (R174): A Verify reads and checks as a Read does without transferring data. -/
  | verify (id : CmdId) (nsid slba nlb : Nat) (form : CmdForm) (pr : PrInfo)
  /-- WRITE_ZEROES (R129): Write Zeroes records zeroed or deallocated blocks in a map record. -/
  | writeZeroes (id : CmdId) (nsid slba nlb : Nat) (deac : Bool) (pr : PrInfo)
  /-- DATASET_MANAGEMENT (R119): Dataset Management deallocates up to 256 ranges. -/
  | datasetManagement (id : CmdId) (nsid : Nat) (ad : Bool) (nr : Nat)
  /-- FLUSH (R132): Flush completes with Success as soon as it is fetched. -/
  | flush (id : CmdId) (nsid : Nat)
  /-- SEGMENT_IDLE_TIMEOUT (R157): A segment with no append for 1 ms closes and its open chunk is cut. -/
  | segmentIdleTimeout (seg : Nat)
  /-- STRIPE_AGE_TIMEOUT (R164): An open stripe 2 ms after its first record is sealed by age and sent for placement. -/
  | stripeAgeTimeout (cls : Nat)
  /-- JOURNAL_RECORD_VAULTED (R168): A journal record is held by both vault regions and counts as vaulted. -/
  | journalRecordVaulted (region : Nat) (rsn : Nat)
  /-- HOLDUP_N_FALL (R170): HOLDUP_N falling stops fetching and flushes exposed data and unvaulted records to the vault. -/
  | holdupNFall
  /-- FLUSH_SEAL (R170): The flush ends with a seal record in both vault regions and the head holds in reset. -/
  | flushSeal
  /-- HOLDUP_N_RISE (R171): HOLDUP_N rising during a flush lets the flush finish and arms the 1 ms return to Day. -/
  | holdupNRise
  /-- HOLDUP_STABLE (R171): HOLDUP_N high for 1 ms after a flush marks the vault image superseded and resumes fetching. -/
  | holdupStable
  /-- GATHER_END (R178): Gather ends and the heads agree on a target cohort, starting the Sleep of the awake cohort. -/
  | gatherEnd
  /-- DWELL_END (R178): The awake cohort has been awake 2 s so a waiting cohort switch may start. -/
  | dwellEnd
  /-- SHELF_PAGE_IN (R291): A woken shelf's root and maps are read, checked and rolled forward, and the shelf enters service. -/
  | shelfPageIn (sh : Shelf) (rootOk mapOk : Bool)
  /-- PARK_TIMEOUT (R509): A bridge that does not acknowledge PARK within 500 ms is treated as parked. -/
  | parkTimeout (sh : Shelf)
  /-- SHELF_WAKE_TIMEOUT (R510): A shelf that sends no WAKE READY within 2.5 s is treated as absent. -/
  | shelfWakeTimeout (sh : Shelf)
  /-- DECIDE (R205): A CAT DECIDE request is answered UNIQUE or DUPLICATE by filter, in-flight table and catalogue cache. -/
  | dedupDecide (eng : Nat) (chunk : Nat) (dom cls blocks : Nat) (fp : Nat) (compares : List FpCompare)
  /-- BUCKET_READ_DONE (R214): A catalogue bucket page read from a shelf arrives and completes the waiting dedup decision. -/
  | bucketReadDone (bucket : Nat) (copy0Ok copy1Ok : Bool) (compares : List FpCompare)
  /-- CMP_COMPRESS (R229): A CMP job of OP 1 compresses a chunk to DST_ADDR. -/
  | cmpCompress (eng : Nat) (pool : Nat) (noFallback : Bool) (srcLen srcAddr dstAddr dstCap resAddr : Nat)
  /-- CMP_COMPRESS_TO_CIPHER (R232): A CMP job of OP 2 compresses a chunk and streams the chosen form into a waiting cipher job. -/
  | cmpCompressToCipher (eng : Nat) (pool : Nat) (noFallback : Bool) (srcLen srcAddr cpeJob resAddr : Nat)
  /-- CMP_DECOMPRESS (R228): A CMP job of OP 3 decompresses one Zstandard frame. -/
  | cmpDecompress (eng : Nat) (pool : Nat) (srcLen srcAddr dstAddr dstCap resAddr : Nat)
  /-- ACCEL_JOB_START (R231): A free core or unit takes the next job of its pool or, by weighted round robin, of another pool. -/
  | accelJobStart (unit : AccelUnit) (core : Nat)
  /-- CMP_JOB_END (R230): A CMP job ends and writes its result with VALID last. -/
  | cmpJobEnd (handle : Nat) (out : CmpOutcome)
  /-- CMP_CNT_CLR (R233): A write to CMP_CNT_CLR clears every CMP counter together. -/
  | cmpCntClr
  /-- ENCRYPT (R253): A cipher job of OP 1 completes a header template and encrypts plaintext under a nonce. -/
  | encrypt (eng pool : Nat) (desc : CipherDesc)
  /-- ENCRYPT_STREAMED (R254): A cipher job of OP 2 is queued with a handle and encrypts what its CMP job streams. -/
  | encryptStreamed (eng pool : Nat) (desc : CipherDesc)
  /-- DECRYPT (R255): A cipher job of OP 3 checks the header, decrypts and verifies the tag. -/
  | decrypt (eng pool : Nat) (desc : CipherDesc)
  /-- DECRYPT_DECOMPRESS (R256): A cipher job of OP 4 decrypts, verifies and streams into a decompressor. -/
  | decryptDecompress (eng pool : Nat) (desc : CipherDesc)
  /-- CIPHER_JOB_END (R258): A cipher job ends and writes its output and result once released. -/
  | cipherJobEnd (handle : Nat) (busError : Bool) (dcmp : CmpOutcome)
  /-- INST_TAKE (R248): The head takes a new nonce incarnation and writes it to the sealed store and catalogue shelves. -/
  | instTake (shelfMax : Nat) (writable : Bool)
  /-- CPE_CNT_CLR (R269): A write to CPE_CNT_CLR clears the six CPE counters together. -/
  | cpeCntClr
  /-- HASH (R260): A digest job of OP 1 absorbs a fragment list, optionally from a prefix or saved state. -/
  | hash (eng pool : Nat) (desc : DigestDesc)
  /-- COMPARE (R265): A digest job of OP 2 compares two 32-byte values with two comparators. -/
  | compare (eng pool : Nat) (desc : DigestDesc)
  /-- DIGEST_JOB_END (R267): A digest job ends and writes its result, taking a core out of service on COMPARE_FAULT. -/
  | digestJobEnd (handle : Nat) (busError : Bool) (compareFault : Option Bool)
  /-- DGE_CNT_CLR (R269): A write to DGE_CNT_CLR clears the six DGE counters together. -/
  | dgeCntClr
  /-- MEDIA_READ (R307): A bridge reads a page at a retry level and replies with status, header and data. -/
  | mediaRead (sh : Shelf) (ppa retry : Nat) (nand : NandRead)
  /-- MEDIA_READ_HDR (R307): A bridge replies with the header of a page. -/
  | mediaReadHdr (sh : Shelf) (ppa : Nat) (nand : NandRead)
  /-- MEDIA_PROGRAM (R308): A bridge programs a page with its header, in ascending page order. -/
  | mediaProgram (sh : Shelf) (ppa : Nat) (hdr : PageHdr) (data : List Byte) (fails : Bool)
  /-- MEDIA_ERASE (R307): A bridge erases a block and returns its new erase count. -/
  | mediaErase (sh : Shelf) (ppa : Nat) (fails : Bool)
  /-- MEDIA_COPY (R308): A bridge copies a page with new SEQ, BAND and EPOCH without crossing the string. -/
  | mediaCopy (sh : Shelf) (src dst seq band epoch : Nat) (nand : NandRead) (fails : Bool)
  /-- MEDIA_BLOCK_INFO (R307): A bridge returns a block's erase count and state. -/
  | mediaBlockInfo (sh : Shelf) (ppa : Nat)
  /-- MEDIA_RETIRE (R305): A bridge retires a block so it is never erased or programmed again. -/
  | mediaRetire (sh : Shelf) (ppa : Nat)
  /-- MEDIA_GEOMETRY (R307): A bridge returns its NAND geometry, endurance and rates. -/
  | mediaGeometry (sh : Shelf)
  /-- MEDIA_ROOT_GET (R290): A bridge returns both root pointer slots and its last SEQ of each parity. -/
  | mediaRootGet (sh : Shelf)
  /-- MEDIA_ROOT_SET (R290): A bridge writes a root pointer slot to non-volatile storage. -/
  | mediaRootSet (sh : Shelf) (slot ppa seq : Nat)
  /-- MEDIA_RESPONSE (R305): A head takes a media reply, retrying, retiring or relocating on failure statuses. -/
  | mediaResponse (tag : Nat) (status : Nat) (corr : Nat) (hdr : Option PageHdr) (data : List Byte)
  /-- MEDIA_OP_TIMEOUT (R309): A media operation with no reply within FTM_OP_TMO is resent once, then fails. -/
  | mediaOpTimeout (tag : Nat)
  /-- WRITEBACK_DUE (R286): A dirty map page reaches FTM_WB_EPOCHS epochs and is written back. -/
  | writebackDue (sh : Shelf) (page : Nat)
  /-- FULL_SCAN_REBUILD (R294): A shelf whose roots or listed pages fail is rebuilt by scanning summaries and headers. -/
  | fullScanRebuild (sh : Shelf)
  /-- STRIPE_COMPACTION (R301): A sealed stripe below the live threshold has its live records copied out and is freed. -/
  | stripeCompaction (c : Cohort)
  /-- BAND_COMPACTION (R302): A closed band below the live threshold or named by wear levelling has its extents copied and is erased. -/
  | bandCompaction (sh : Shelf)
  /-- REBUILD_GRACE_TIMEOUT (R324): A shelf out of service for GRACE_S seconds starts its cohort's rebuild and sets MISSING bits. -/
  | rebuildGraceTimeout (sh : Shelf)
  /-- REBUILD_STRIPE (R327): A degraded stripe's missing strip is reconstructed onto its target and journalled. -/
  | rebuildStripe (c : Cohort) (seid : Nat)
  /-- REPAIR_PAGE (R334): A reported bad page is recovered, verified and rewritten to the relocation band. -/
  | repairPage (c : Cohort) (seid strip page : Nat)
  /-- SCRUB_STRIPE (R336): A sealed stripe is read whole, verified, and mismatches repaired per Table 10-10. -/
  | scrubStripe (c : Cohort)
  /-- SCRUB_AGE_REQUEST (R338): A cohort whose last scrub pass is older than MAX_DAYS is asked for at lowest switch priority. -/
  | scrubAgeRequest (c : Cohort)
  /-- ENCODE (R318): An RDE job of OP 1 writes P, and Q if NPAR is 2. -/
  | encode (eng pool : Nat) (desc : RdeDesc)
  /-- ACCUMULATE (R319): An RDE job of OP 2 adds one source extent into the parity. -/
  | accumulate (eng pool : Nat) (desc : RdeDesc)
  /-- RECONSTRUCT (R319): An RDE job of OP 3 recovers up to NPAR missing strips. -/
  | reconstruct (eng pool : Nat) (desc : RdeDesc)
  /-- RDE_VERIFY (R320): An RDE job of OP 4 compares parity or copies and locates a differing strip. -/
  | rdeVerify (eng pool : Nat) (desc : RdeDesc)
  /-- RDE_JOB_END (R320): An RDE job ends and writes its result. -/
  | rdeJobEnd (handle : Nat) (busError : Bool)
  /-- RESHAPE_START (R339): RDE_RESHAPE_CMD START agrees a reshape with the peer and begins it. -/
  | reshapeStart
  /-- RESHAPE_ABORT (R344): RDE_RESHAPE_CMD ABORT stops a reshape at its last checkpoint or frees its shadow stripes. -/
  | reshapeAbort
  /-- RESHAPE_BATCH_COPIED (R342): A moving-boundary batch is copied and journalled with its checkpoint. -/
  | reshapeBatchCopied
  /-- RESHAPE_COPY_DONE (R341): A beside reshape finishes copying and proposes its switch epoch. -/
  | reshapeCopyDone
  /-- RDE_CNT_CLR (R345): A write to RDE_CNT_CLR clears every RDE counter together. -/
  | rdeCntClr
  /-- HUB_CODEWORD (R347): The hub forwards one codeword, IDLE or COLLIDE blocks to every port each codeword time. -/
  | hubCodeword (str : Str) (ports : List HubIn)
  /-- ATTACHMENT_TRAINING (R351): An attachment trains its four lanes to the hub and measures its loop delay. -/
  | attachmentTraining (str : Str) (att lanes : Nat) (echoes : List Nat)
  /-- BEACON_TRANSMIT (R360): The owner sends a beacon in slot 0 with the grant map of the next cycle. -/
  | beaconTransmit (str : Str) (collides : Bool)
  /-- BEACON_RECEIVE (R359): An attachment accepts a beacon whose tag verifies, following its grants, fences and wake list. -/
  | beaconReceive (str : Str) (att : Nat) (b : Beacon) (trailer : List Byte)
  /-- DATA_SLOT_TRANSMIT (R354): An attachment granted a data slot sends SOS with DEMAND and its frames. -/
  | dataSlotTransmit (str : Str) (att slot : Nat)
  /-- SLOT_RECEIVE (R355): A receiver takes the frames of a slot, discarding those whose SOS or source is wrong. -/
  | slotReceive (str : Str) (att slot : Nat) (sos : Option (Nat × Nat × Nat)) (frames : List RxFrame) (corrected uncorrectable : Nat) (colliders : List Nat)
  /-- HOLDOVER_ENTRY (R364): A bridge that has accepted no beacon for 4 cycles enters holdover. -/
  | holdoverEntry (str : Str) (pos : Pos)
  /-- HOLDOVER_TIMEOUT (R364): After 10 s in holdover a bridge drops its sessions and treats the string as dark. -/
  | holdoverTimeout (str : Str) (pos : Pos)
  /-- STRING_DARK (R384): A string with no beacon for 1 s is dark, and a bridge may send a wake tone. -/
  | stringDark (str : Str)
  /-- CONTENTION_ATTEMPT (R366): A bridge sends ENROL or WAKE in a randomly chosen contention slot. -/
  | contentionAttempt (str : Str) (pos : Pos) (slot2 : Bool) (wakeReason : Option Nat)
  /-- BACKOFF_EXPIRY (R367): A bridge's random backoff after a failed contention attempt ends. -/
  | backoffExpiry (str : Str) (pos : Pos)
  /-- ENROL (R375): An ENROL frame from a stranger is acknowledged and queued for enrolment. -/
  | enrol (str : Str) (slot2 : Bool) (pos : Pos) (blank : Bool) (vendor model fwVersion arrayTag : Nat) (hdr : CrcHdr)
  /-- STRING_SPDM (R376): An SPDM frame carries an enrolment message between head and bridge. -/
  | stringSpdm (str : Str) (pos : Pos) (hdr : CrcHdr) (bytes : List Byte) (msg : SpdmMsg)
  /-- ENROLMENT_TIMEOUT (R376): An enrolment that has not finished within 300 ms is abandoned. -/
  | enrolmentTimeout (str : Str)
  /-- QUARANTINE_EXPIRY (R378): A position's quarantine bit clears after QUARANTINE_S seconds. -/
  | quarantineExpiry (str : Str) (pos : Pos)
  /-- ISF_ACK (R369): An ISF acknowledgement advances the sender's window when its value lies in range. -/
  | isfAck (str : Str) (pos : Pos) (byHead : Bool) (head value : Nat)
  /-- ISF_RETX_TIMEOUT (R369): No acknowledgement for RETX_CYC cycles resends every unacknowledged frame. -/
  | isfRetxTimeout (str : Str) (pos : Pos) (byHead : Bool) (head : Nat)
  /-- SESSION_START (R371): CTRL SESSION_START opens a head-bridge session and keeps or clears the reply table. -/
  | sessionStart (str : Str) (pos : Pos) (head session opidNext : Nat) (keep : Bool) (reqKey rspKey : Nat)
  /-- KEYS (R380): CTRL KEYS delivers a new string key to a bridge. -/
  | keys (str : Str) (pos : Pos) (keygen key : Nat)
  /-- PARK (R381): CTRL PARK makes a bridge finish its operations, save state and power off its NAND. -/
  | park (str : Str) (pos : Pos) (head : Nat)
  /-- PARK_DONE (R381): CTRL PARK_DONE from a bridge tells the head the shelf is asleep. -/
  | parkDone (str : Str) (pos : Pos)
  /-- ECHO (R373): CTRL ECHO asks a bridge to return its data within 1 ms. -/
  | echo (str : Str) (pos : Pos) (head : Nat) (data : List Byte)
  /-- ECHO_REPLY (R373): CTRL ECHO_REPLY returns the ECHO data to the head. -/
  | echoReply (str : Str) (pos : Pos) (data : List Byte)
  /-- BRIDGE_NAND_POWERED (R382): A woken bridge has powered its NAND and sends WAKE with REASON READY. -/
  | bridgeNandPowered (str : Str) (pos : Pos)
  /-- BRIDGE_WAKE (R383): A WAKE frame is recorded by the owner, which enrols the bridge for reasons 2 and 4. -/
  | bridgeWake (str : Str) (slot2 : Bool) (pos : Pos) (reason detail : Nat) (hdr : CrcHdr)
  /-- BRIDGE_WAKE_TONE (R384): A bridge with a report on a dark string sends a wake tone at most every 10 s. -/
  | bridgeWakeTone (str : Str) (pos : Pos)
  /-- BRIDGE_LOST (R386): A bridge with no sign of life for 64 cycles is lost and its shelf leaves service. -/
  | bridgeLost (str : Str) (pos : Pos)
  /-- STRING_OUT_OF_SERVICE (R386): A head that cannot train or exchange beacons for 1 s takes the string out of service. -/
  | stringOutOfService (str : Str)
  /-- STRING_RETRAIN_RETRY (R386): Every 10 s a head retries training a string out of service. -/
  | stringRetrainRetry (str : Str) (ok : Bool)
  /-- ISF_STR_CNT_CLR (R387): A write clears every counter of one string's window. -/
  | isfStrCntClr (str : Str)
  /-- LANE_FAILED (R389): A failed peer-link lane removes its quad and a REWIDTH block is sent. -/
  | laneFailed (lane : Nat)
  /-- REWIDTH (R389): A REWIDTH block makes the far end switch its transmission to the given quads. -/
  | rewidth (quads : Nat)
  /-- QUAD_RETRAIN (R389): Every 1 s a removed quad is trained again and restored if all lanes pass. -/
  | quadRetrain (quad : Nat) (ok : Bool)
  /-- ZBL_BRINGUP (R398): Peer-link training, SPDM mutual authentication and HELLO exchange bring up the link. -/
  | zblBringup (quads : Nat) (authOk : Bool) (session txKey rxKey : Nat)
  /-- ZBL_WAKE_TONE_SEND (R397): A head finding the link down sends the wake tone once every 1 ms. -/
  | zblWakeToneSend
  /-- HELLO (R399): A HELLO is checked for position, array, epoch, head ID and digests, forming a pair or starting readmission. -/
  | hello (h : PeerHdr) (msg : HelloMsg)
  /-- ALONE_TIMEOUT (R400): A head with no pair ALONE_S seconds after Day decides by the strings to go sole or yield. -/
  | aloneTimeout
  /-- HEARTBEAT_SEND (R412): Every 50 us a head with a fed watchdog sends HB. -/
  | heartbeatSend
  /-- HEARTBEAT_RECEIVE (R413): An HB updates GLB_PEER_TIME_OFS and the peer's state view. -/
  | heartbeatReceive (h : PeerHdr) (tx echoTx echoRx : Nat) (st : HbState)
  /-- WATCHDOG_LAPSE (R412): A lapsed link watchdog stops all transmission on the peer link and strings within 100 us. -/
  | watchdogLapse
  /-- ZBL_ACK (R393): A peer-link ACK advances channel windows and triggers retransmission on NAK. -/
  | zblAck (h : PeerHdr) (acks wins : List Nat) (nak : Nat)
  /-- ZBL_RETX_TIMEOUT (R394): No acknowledgement advance for RETX_US resends every unacknowledged frame of a channel. -/
  | zblRetxTimeout (ch : Nat)
  /-- OP_RETRY_TIMEOUT (R395): A request with no response after OP_TMO_US is sent again with the same OPID. -/
  | opRetryTimeout (opid : Nat)
  /-- HOST_DOWN (R415): A HOST_DOWN notice schedules the ANA change at the second Midnight. -/
  | hostDown (h : PeerHdr) (time : Nat)
  /-- HOST_UP (R415): A HOST_UP notice restores the paired ANA states at the second Midnight. -/
  | hostUp (h : PeerHdr) (time : Nat)
  /-- PFAIL (R415): A PFAIL notice runs the power-fail schedule and takes released strings. -/
  | pfail (h : PeerHdr) (strings time : Nat)
  /-- DEPART (R415): A DEPART notice makes the receiver take every released string and become sole. -/
  | depart (h : PeerHdr) (strings time : Nat)
  /-- YIELD (R415): A YIELD notice makes the receiver take every string at once. -/
  | peerYield (h : PeerHdr) (time : Nat)
  /-- MN_SYNC (R407): The follower moves a boundary as the timekeeper's MN_SYNC states. -/
  | mnSync (h : PeerHdr) (time epoch : Nat) (shift : Int)
  /-- REC (R409): A REC copy of a peer journal record is held for its epoch's Midnight. -/
  | recCopy (h : PeerHdr) (rsn epoch : Nat) (image : List Byte) (body : RecBody)
  /-- MN_CLOSE (R409): MN_CLOSE is checked against held records and answered with MN_CONFIRM. -/
  | mnClose (h : PeerHdr) (epoch count lastSeq digest effective : Nat)
  /-- MN_CONFIRM (R409): MN_CONFIRM of the peer lets the Midnight of that epoch complete. -/
  | mnConfirm (h : PeerHdr) (epoch digest : Nat)
  /-- PROPOSE (R401): A proposal of key, image, cohort, reshape or owner change is accepted or refused. -/
  | propose (h : PeerHdr) (p : Proposal) (stamp : Nat)
  /-- ANSWER (R401): An ANSWER to a proposal leads to COMMIT on ACCEPT or a retry or failure on REFUSE. -/
  | answer (h : PeerHdr) (res : AnswerRes)
  /-- COMMIT (R401): COMMIT applies an accepted agreement on the peer, which answers DONE. -/
  | commit (h : PeerHdr) (proposal kind : Nat)
  /-- DONE (R401): DONE completes the host operation that caused the agreement. -/
  | doneMsg (h : PeerHdr) (proposal status : Nat)
  /-- PROPOSAL_LAPSE (R401): A proposal not committed within 5 ms lapses and is proposed again where a rule says so. -/
  | proposalLapse (opid : Nat)
  /-- ACCEPTED_PROPOSAL_DISCARD (R401): An accepted proposal with no COMMIT 10 ms after ACCEPT is discarded. -/
  | acceptedProposalDiscard (opid : Nat)
  /-- LEASE (R402): A LEASE request grants granules, reserve granules or shelf bands. -/
  | lease (h : PeerHdr) (msg : LeaseMsg)
  /-- MAPWALK (R197): The home head answers a map lookup for a Non-Optimized path. -/
  | mapwalk (h : PeerHdr) (msg : WalkMsg)
  /-- STATE (R420): A STATE request passes keys, string keys, schedule, cohorts, records and granules to a rejoining head. -/
  | stateMsg (h : PeerHdr) (msg : StateMsg)
  /-- MIRROR_DATA (R404): MIRROR_DATA writes up to 4096 bytes of a write at OFS in the receiver's buffer. -/
  | mirrorData (h : PeerHdr) (wid ofs : Nat) (data : List Byte)
  /-- MIRROR_END (R404): MIRROR_END completes a mirror copy. -/
  | mirrorEnd (h : PeerHdr) (wid tenant nsid slba nlb len : Nat)
  /-- MIRROR_DROP (R405): MIRROR_DROP releases a mirror copy at once. -/
  | mirrorDrop (h : PeerHdr) (wid : Nat)
  /-- EPOCH_BOUNDARY (R406): A scheduled boundary opens the next epoch and applies epoch-tied state changes. -/
  | epochBoundary
  /-- MIDNIGHT_COMPLETE (R409): A Midnight completes, making its records durable, applying map and catalogue updates and releasing buffers. -/
  | midnightComplete (epoch : Nat)
  /-- MIDNIGHT_SYNC_EDGE (R407): A rising MIDNIGHT_SYNC_IN edge at the timekeeper moves a nearby boundary. -/
  | midnightSyncEdge
  /-- PEER_SILENT (R416): No HB for 200 us makes the peer silent, leading to takeover or yield. -/
  | peerSilent
  /-- FENCE_COMPLETE (R418): Two cycles after the last fencing beacon the head becomes sole and resumes fetching. -/
  | fenceComplete
  /-- BRINGUP_RETRY (R421): A yielded or refused head retries bring-up after its interval. -/
  | bringupRetry
  /-- ZBL_CNT_CLR (R422): A write to ZBL_CNT_CLR clears every ZBL counter together. -/
  | zblCntClr
  /-- ALU (R430): An ALU instruction computes the function FN selects on two registers and may set flags. -/
  | alu (n : Cluster) (e : Engine) (w : Word32)
  /-- ADDI (R429): Adds a sign-extended immediate to a register. -/
  | addi (n : Cluster) (e : Engine) (w : Word32)
  /-- ANDI (R429): ANDs a register with a zero-extended immediate. -/
  | andi (n : Cluster) (e : Engine) (w : Word32)
  /-- ORI (R429): ORs a register with a zero-extended immediate. -/
  | ori (n : Cluster) (e : Engine) (w : Word32)
  /-- XORI (R429): XORs a register with a zero-extended immediate. -/
  | xori (n : Cluster) (e : Engine) (w : Word32)
  /-- SLLI (R433): Shifts a register left by an immediate amount. -/
  | slli (n : Cluster) (e : Engine) (w : Word32)
  /-- SRLI (R433): Shifts a register right logically by an immediate amount. -/
  | srli (n : Cluster) (e : Engine) (w : Word32)
  /-- SRAI (R433): Shifts a register right arithmetically by an immediate amount. -/
  | srai (n : Cluster) (e : Engine) (w : Word32)
  /-- MULI (R429): Multiplies a register by a sign-extended immediate. -/
  | muli (n : Cluster) (e : Engine) (w : Word32)
  /-- CMPI (R431): Sets flags from a register minus a sign-extended immediate. -/
  | cmpi (n : Cluster) (e : Engine) (w : Word32)
  /-- MOVW (R429): Loads a sign-extended 21-bit immediate. -/
  | movw (n : Cluster) (e : Engine) (w : Word32)
  /-- SHOR (R429): Shifts a register left 21 bits and ORs in an immediate. -/
  | shor (n : Cluster) (e : Engine) (w : Word32)
  /-- LOAD_INSTRUCTION (R426): LDB to LDWS load 1 to 8 bytes, zero- or sign-extended, from engine memory or the DRAM aperture. -/
  | loadInstruction (n : Cluster) (e : Engine) (w : Word32) (ecc : EccIn)
  /-- STORE_INSTRUCTION (R439): STB to STD store 1 to 8 bytes to DMEM, IMEM or DRAM at commit. -/
  | storeInstruction (n : Cluster) (e : Engine) (w : Word32) (busError : Bool)
  /-- DRAM_LOAD_REPLY (R442): A DRAM load's reply arrives, delivering data or raising a precise exception. -/
  | dramLoadReply (n : Cluster) (e : Engine) (busError : Bool)
  /-- BC (R434): Branches when the condition holds on the flags. -/
  | bc (n : Cluster) (e : Engine) (w : Word32)
  /-- BRZ (R429): Branches when a register is zero. -/
  | brz (n : Cluster) (e : Engine) (w : Word32)
  /-- BRNZ (R429): Branches when a register is not zero. -/
  | brnz (n : Cluster) (e : Engine) (w : Word32)
  /-- JAL (R429): Jumps and writes the return address into X31. -/
  | jal (n : Cluster) (e : Engine) (w : Word32)
  /-- JALR (R429): Jumps to a register plus immediate and writes the return address. -/
  | jalr (n : Cluster) (e : Engine) (w : Word32)
  /-- SLD (R435): Copies DRAM to DMEM in 64-byte units, advancing its registers. -/
  | sld (n : Cluster) (e : Engine) (w : Word32) (busError : Bool)
  /-- SST (R435): Copies DMEM to DRAM in 64-byte units, advancing its registers. -/
  | sst (n : Cluster) (e : Engine) (w : Word32) (ecc : EccIn) (busError : Bool)
  /-- SCRC16 (R435): Folds DMEM units into a 16-bit guard CRC. -/
  | scrc16 (n : Cluster) (e : Engine) (w : Word32) (ecc : EccIn)
  /-- SCRC64 (R435): Folds DMEM units into a 64-bit guard CRC. -/
  | scrc64 (n : Cluster) (e : Engine) (w : Word32) (ecc : EccIn)
  /-- SHCUT (R435): Computes the chunk-cut hash of 64 bytes of DMEM. -/
  | shcut (n : Cluster) (e : Engine) (w : Word32) (ecc : EccIn)
  /-- NOP (R436): Does nothing. -/
  | engNop (n : Cluster) (e : Engine) (w : Word32)
  /-- FENCE (R436): Waits until every older DRAM store is acknowledged. -/
  | fence (n : Cluster) (e : Engine) (w : Word32)
  /-- IFENCE (R441): Waits for older commits and refetches so IMEM stores take effect. -/
  | ifence (n : Cluster) (e : Engine) (w : Word32)
  /-- WFW (R445): Ends the current work item, closes windows and waits for the next item. -/
  | wfw (n : Cluster) (e : Engine) (w : Word32)
  /-- BRK (R436): Raises BREAK. -/
  | brk (n : Cluster) (e : Engine) (w : Word32)
  /-- ERET (R443): Returns to EPC and clears IN_HANDLER. -/
  | eret (n : Cluster) (e : Engine) (w : Word32)
  /-- MFS (R437): Reads a system register. -/
  | mfs (n : Cluster) (e : Engine) (w : Word32)
  /-- MTS (R437): Writes a system register. -/
  | mts (n : Cluster) (e : Engine) (w : Word32)
  /-- AISS (R449): Sends an accelerator job held until the instruction commits, returning a ticket. -/
  | aiss (n : Cluster) (e : Engine) (w : Word32)
  /-- AWAIT (R448): Waits for a ticket's job to end and returns its status. -/
  | await (n : Cluster) (e : Engine) (w : Word32)
  /-- ACAN (R451): Cancels a committed job that has not ended. -/
  | acan (n : Cluster) (e : Engine) (w : Word32)
  /-- AFENCE (R448): Waits until every committed job of the engine has ended. -/
  | afence (n : Cluster) (e : Engine) (w : Word32)
  /-- WORK_ITEM_DELIVERY (R445): The control cores deliver a work item and its windows to a waiting engine. -/
  | workItemDelivery (n : Cluster) (e : Engine) (item : WorkItem)
  /-- WORK_ITEM_TIMEOUT (R445): An item not taken within 1 ms by a busy engine moves to a free engine. -/
  | workItemTimeout (n : Cluster) (e : Engine) (toN : Cluster) (toE : Engine)
  /-- ENGINE_FAULT_RECOVERY (R444): The control cores record, cancel, reload and resume a faulted engine and dispose of its item. -/
  | engineFaultRecovery (n : Cluster) (e : Engine) (toN : Cluster) (toE : Engine)
  /-- CTL_DONE (R446): CTL DONE reports an item's NVMe status to the control cores. -/
  | ctlDone (n : Cluster) (e : Engine) (work sct sc failing : Nat)
  /-- CTL_CHUNK (R446): CTL CHUNK reports a chunk's cut and dedup answer. -/
  | ctlChunk (n : Cluster) (e : Engine) (work lba blocks : Nat) (duplicate : Bool) (locator : Nat)
  /-- CTL_PACKED (R446): CTL PACKED reports a record written into an extent buffer. -/
  | ctlPacked (n : Cluster) (e : Engine) (work lba blocks locator : Nat)
  /-- CTL_OPEN (R446): CTL OPEN opens a stripe and returns its SEID and extent buffers. -/
  | ctlOpen (n : Cluster) (e : Engine) (work cls : Nat)
  /-- CTL_SEALED (R446): CTL SEALED reports a sealed stripe for placement. -/
  | ctlSealed (n : Cluster) (e : Engine) (work seid strips : Nat)
  /-- CTL_EVENT (R446): CTL EVENT asks the control cores to record an event. -/
  | ctlEvent (n : Cluster) (e : Engine) (work code a0 a1 a2 a3 : Nat)
  /-- HALT (R452): Engine command HALT stops an engine at the next instruction boundary. -/
  | engHalt (n : Cluster) (e : Engine)
  /-- RESUME (R453): Engine command RESUME continues a halted engine at PC. -/
  | engResume (n : Cluster) (e : Engine)
  /-- ENGINE_LOAD (R454): Engine command LOAD places a program in a halted engine. -/
  | engineLoad (n : Cluster) (e : Engine) (prog : Nat)
  /-- CANCEL_ALL (R454): Engine command CANCEL_ALL cancels every committed job of a halted or faulted engine. -/
  | cancelAll (n : Cluster) (e : Engine)
  /-- OFFLINE (R455): Cluster command OFFLINE drains and halts a cluster for host diagnosis. -/
  | clusterOffline (n : Cluster)
  /-- ONLINE (R455): Cluster command ONLINE reloads every engine and returns the cluster to its pool. -/
  | clusterOnline (n : Cluster)
  /-- CANCEL_LOG_RELEASE (R456): A write of SEC_CL_CLOG.HEAD releases cancel-log entries before it. -/
  | cancelLogRelease (n : Cluster) (head : Nat)
  /-- SEC_CL_CNT_CLR (R456): A write clears the four cluster counters together. -/
  | secClCntClr (n : Cluster)
  /-- SEC_ENG_CNT_CLR (R456): A write clears an engine's twelve counters together. -/
  | secEngCntClr (n : Cluster) (e : Engine)
  /-- DMA_START (R469): START makes a chain channel begin at DMA_CH_HEAD. -/
  | dmaStart (ch : Chan) (byHost : Bool)
  /-- DMA_PAUSE (R469): PAUSE stops a channel and keeps its place. -/
  | dmaPause (ch : Chan) (byHost : Bool)
  /-- DMA_RESUME (R469): RESUME returns a channel to the state it left. -/
  | dmaResume (ch : Chan) (byHost : Bool)
  /-- DMA_ABORT (R469): ABORT ends a channel and marks its descriptor ABORTED. -/
  | dmaAbort (ch : Chan) (byHost : Bool)
  /-- DMA_DOORBELL (R462): A channel doorbell sets DB_PENDING or causes a re-read in WAIT_LINK or WAIT_DESC. -/
  | dmaDoorbell (ch : Chan) (byHost : Bool)
  /-- DESCRIPTOR_READ_REPLY (R460): A fetched descriptor is checked and performed, or the channel waits if it is unreleased. -/
  | descriptorReadReply (ch : Chan)
  /-- LINK_READ_REPLY (R462): A re-read LINK word is followed, re-read under DB_PENDING, or the channel waits. -/
  | linkReadReply (ch : Chan)
  /-- DMA_COPY (R459): A COPY descriptor moves LEN bytes between spaces. -/
  | dmaCopy (ch : Chan)
  /-- DMA_FILL (R463): A FILL descriptor writes the 8-byte pattern over LEN bytes. -/
  | dmaFill (ch : Chan)
  /-- DMA_COMPARE (R464): A COMPARE descriptor compares two ranges and may stop the chain at a difference. -/
  | dmaCompare (ch : Chan)
  /-- PACED_BURST (R467): A request present at a burst boundary starts one whole burst of a paced descriptor. -/
  | pacedBurst (ch : Chan) (srcBytes : List Byte)
  /-- PACE_TICK (R466): Every DMA_PACE_TICK ns line 8 requests one burst. -/
  | paceTick
  /-- DMA_BUS_ERROR (R471): A chain access fails, setting BUS_STOP and stopping every running channel. -/
  | dmaBusError (ch : Chan) (kind : BusErr) (space addr done : Nat)
  /-- BUS_STOP_CLEAR (R472): Writing 1 to DMA_STATUS.BUS_STOP resumes firmware-owned channels. -/
  | busStopClear
  /-- BUS_STOP_TIMEOUT (R472): BUS_STOP still set 10 ms after it was set is cleared by the control cores. -/
  | busStopTimeout
  /-- HWIN_LEN_WRITE (R473): Writing the high half of DMA_HWIN_LEN checks the window against the type 6 region. -/
  | hwinLenWrite (low : Option Word32) (high : Word32)
  /-- DMA_CNT_CLR (R473): A write to DMA_CNT_CLR clears the four DMA counters. -/
  | dmaCntClr
  /-- CACHE_ACCESS (R484): An access to a cached region hits or allocates in the system cache, snooping L1 holders. -/
  | cacheAccess (who : MemAgent) (acc : MemAccess) (addr : Nat) (snooped : List (Nat × List Byte)) (crosses : Bool) (queued : Nat) (dram sram prefetch : EccIn)
  /-- CORE_WRITEBACK_ARRIVE (R487): A core's writeback that crosses an outstanding snoop is taken as the snoop's response. -/
  | coreWritebackArrive (core line : Nat) (data : List Byte)
  /-- SNOOP_WB (R487): A SNOOP_WB response that follows a crossing writeback is discarded. -/
  | snoopWb (core line : Nat)
  /-- EVICTION_WRITE_ACCEPTED (R488): DRAM accepts an evicted line and its eviction buffer entry is freed. -/
  | evictionWriteAccepted (line : Nat)
  /-- PATROL_SCRUB (R493): Patrol scrub reads and corrects DRAM in idle cycles. -/
  | patrolScrub (found : EccIn)
  /-- DIMM_TEMPERATURE_READING (R477): A DIMM reading of 85 C or more doubles the channel's refresh rate. -/
  | dimmTemperatureReading (ch temp : Nat)
  /-- POWER_DOWN (R490): MEM_WAY_CMD POWER_DOWN stops allocation in a way and starts its sweep. -/
  | wayPowerDown (way : Nat) (byHost : Bool)
  /-- WAY_SWEEP_DONE (R490): A way's sweep ends and the way is power-gated. -/
  | waySweepDone (way : Nat) (snooped : List (Nat × List Byte))
  /-- POWER_UP (R490): MEM_WAY_CMD POWER_UP invalidates a way and makes it available. -/
  | wayPowerUp (way : Nat) (byHost : Bool)
  /-- MEM_CNT_CLR (R495): A write to MEM_CNT_CLR clears every cache and channel counter. -/
  | memCntClr
  /-- DUSK (R501): PWR_CMD DUSK begins draining toward Night. -/
  | pwrDusk
  /-- CANCEL (R505): PWR_CMD CANCEL returns a head in Dusk phase 1 or 5 to Day. -/
  | pwrCancel
  /-- HOSTLESS_TIMEOUT (R501): The host link lost for HOSTLESS_S seconds begins Dusk. -/
  | hostlessTimeout
  /-- DUSK_DRAINED (R503): Every fetched command has completed, so Dusk phase 2 flushing begins. -/
  | duskDrained
  /-- DUSK_FLUSHED (R503): No data is exposed and the open epoch's Midnight has completed, so handover begins. -/
  | duskFlushed
  /-- DUSK_HANDED_OVER (R503): Strings are handed over and DEPART sent, or cohorts put to sleep, so closing begins. -/
  | duskHandedOver
  /-- DUSK_CLOSED (R503): The closed seal record is vaulted and the head reaches phase 5 with PWR_RESULT valid. -/
  | duskClosed
  /-- WAKE_N_LOW (R498): WAKE_N held low 10 us by another agent wakes a head in Night. -/
  | wakeNLow
  /-- ZBL_WAKE_TONE (R397): The peer's wake tone detected in Night begins Dawn. -/
  | zblWakeTone
  /-- ISF_WAKE_TONE (R384): A wake tone on any string detected in Night begins Dawn. -/
  | isfWakeTone (str : Str)
  /-- NIGHT_WAKE_TIMER (R498): NIGHT_WAKE_S seconds of Night pass and Dawn begins. -/
  | nightWakeTimer
  /-- I3C_PRIVATE_WRITE (R498): A private I3C write to the head's address in Night is NACKed and begins Dawn. -/
  | i3cPrivateWrite
  /-- NIGHTWATCH_SENSOR_CHECK (R508): Once a second the Nightwatch checks the die sensors and begins a held Dawn at -40 C. -/
  | nightwatchSensorCheck (highest : Int)
  /-- CLUSTER_GATE_IDLE (R515): A cluster or accelerator domain idle for GATE_US has its clock stopped. -/
  | clusterGateIdle (domain : Nat)
  /-- THERMAL_SAMPLE (R516): Every 100 us the die sensors are read and the cluster cap lowered, held or raised. -/
  | thermalSample (temps : List Int)
  /-- THERMAL_TRIP (R517): A reading above 150 C for 10 ms flushes, stops the watchdog and holds the head in reset. -/
  | thermalTrip
  /-- POWER_ESTIMATE (R518): Every 1 ms the estimated power is compared with PCAP_W and the cap adjusted. -/
  | powerEstimate (watts : Nat)
  /-- PLL_LOSS_OF_LOCK (R593): A PLL losing lock in Day fails its clusters, retrains its port or causes a head fault. -/
  | pllLossOfLock (pll : Nat)
  /-- PWR_CNT_CLR (R519): A write to PWR_CNT_CLR clears every PWR counter. -/
  | pwrCntClr
  /-- GET_CHALLENGE (R529): SEC_ROOT_CMD GET_CHALLENGE makes a new 32-byte challenge. -/
  | getChallenge
  /-- CHALLENGE_EXPIRY (R529): A challenge becomes invalid 60 s after it was made. -/
  | challengeExpiry
  /-- CLEAR_MAILBOX (R546): SEC_ROOT_CMD CLEAR_MAILBOX zeroes the token mailbox. -/
  | clearMailbox
  /-- DEBUG_OPEN (R542): A DEBUG_OPEN token zeroizes every secret and DRAM, restarts firmware and opens debug. -/
  | debugOpen (src : TokenSrc)
  /-- PROVISION (R525): A PROVISION token blows lifecycle row 0 and warm-resets. -/
  | provision (src : TokenSrc) (readBackOk : Bool)
  /-- DEPLOY (R525): A DEPLOY token empties key slots, generates a transport key and enters Deployed. -/
  | deploy (src : TokenSrc) (readBackOk : Bool)
  /-- SERVICE (R525): A SERVICE token departs from the peer and enters Service. -/
  | service (src : TokenSrc) (readBackOk : Bool)
  /-- RETURN (R525): A RETURN token takes the head from Service back to Deployed. -/
  | returnToken (src : TokenSrc) (readBackOk : Bool)
  /-- RETIRE (R525): A RETIRE token zeroizes secrets and enters Retired permanently. -/
  | retire (src : TokenSrc) (readBackOk : Bool)
  /-- FUSE_OWNER (R531): A FUSE_OWNER token blows an owner key slot's hash and reads it back. -/
  | fuseOwner (src : TokenSrc) (readBackOk : Bool)
  /-- REVOKE_OWNER (R523): A REVOKE_OWNER token revokes an owner key slot. -/
  | revokeOwner (src : TokenSrc) (readBackOk : Bool)
  /-- TRUST_ADD (R536): A TRUST_ADD token adds a root to the head or bridge trust list. -/
  | trustAdd (src : TokenSrc)
  /-- TRUST_REMOVE (R536): A TRUST_REMOVE token removes a root from a trust list. -/
  | trustRemove (src : TokenSrc)
  /-- REVOKE_FW_KEY (R532): A REVOKE_FW_KEY token blows a Colris firmware key revocation bit. -/
  | revokeFwKey (src : TokenSrc) (readBackOk : Bool)
  /-- SEC_ROOT_CNT_CLR (R546): A write clears TOKENS_OK and TOKENS_BAD. -/
  | secRootCntClr
  /-- GET_VERSION (R539): SPDM GET_VERSION returns version 1.2. -/
  | getVersion (tr : Transport)
  /-- GET_CAPABILITIES (R539): SPDM GET_CAPABILITIES returns the responder's capabilities. -/
  | getCapabilities (tr : Transport)
  /-- NEGOTIATE_ALGORITHMS (R539): SPDM NEGOTIATE_ALGORITHMS selects P-384 and SHA-384. -/
  | negotiateAlgorithms (tr : Transport) (p384 sha384 : Bool)
  /-- GET_DIGESTS (R539): SPDM GET_DIGESTS returns certificate chain digests. -/
  | getDigests (tr : Transport)
  /-- GET_CERTIFICATE (R539): SPDM GET_CERTIFICATE returns a certificate chain of slot 0 or 1. -/
  | getCertificate (tr : Transport) (slot ofs len : Nat)
  /-- CHALLENGE (R539): SPDM CHALLENGE returns a DevID-signed response. -/
  | spdmChallenge (tr : Transport) (slot summary nonce : Nat)
  /-- GET_MEASUREMENTS (R539): SPDM GET_MEASUREMENTS returns signed measurement blocks and the log. -/
  | getMeasurements (tr : Transport) (index : Nat) (signed raw : Bool) (nonce : Nat)
  /-- BYPASS (R541): JTAG BYPASS selects the bypass register. -/
  | jtagBypass (tdi : List Bool)
  /-- IDCODE (R541): JTAG IDCODE shifts out 0x2096_0B37. -/
  | jtagIdcode
  /-- SAMPLE_PRELOAD (R541): JTAG SAMPLE/PRELOAD samples the boundary-scan cells. -/
  | jtagSamplePreload (cells preload : List Bool)
  /-- EXTEST (R541): JTAG EXTEST drives pins from boundary scan where allowed. -/
  | jtagExtest (cells preload : List Bool)
  /-- CLAMP (R541): JTAG CLAMP holds pins from boundary scan where allowed. -/
  | jtagClamp (tdi : List Bool)
  /-- HIGHZ (R541): JTAG HIGHZ floats outputs where allowed. -/
  | jtagHighz (tdi : List Bool)
  /-- DBG_CHALLENGE (R541): JTAG DBG_CHALLENGE makes and shifts out a challenge. -/
  | dbgChallenge
  /-- DBG_TOKEN (R541): JTAG DBG_TOKEN shifts in a token and submits it at Update-DR. -/
  | dbgToken (bytes : List Byte) (readBackOk : Bool)
  /-- DBG_STATUS (R541): JTAG DBG_STATUS shifts out the result and status words. -/
  | dbgStatus
  /-- DBG_ACCESS (R541): JTAG DBG_ACCESS reaches the debug access port while debug is open. -/
  | dbgAccess (addr size : Nat) (write : Option Nat)
  /-- CONFIRM (R565): BOOT_CMD CONFIRM confirms the running firmware and raises the rollback floor. -/
  | bootConfirm
  /-- CONFIRM_TIMEOUT (R565): CONFIRM_S seconds in Day confirm the running firmware. -/
  | confirmTimeout
  /-- RESET_WARM (R548): BOOT_CMD RESET_WARM warm-resets a drained head. -/
  | resetWarm
  /-- SAVE_BOARD (R551): BOOT_CMD SAVE_BOARD writes the board record. -/
  | saveBoard (ok : Bool)
  /-- FW_REQ (R567): FW_REQ from a loader-only peer starts a heal with the slot image. -/
  | fwReq (h : PeerHdr) (floor awg : Nat) (empty : Bool)
  /-- FW_DATA (R567): FW_DATA carries up to 4096 bytes of the heal image. -/
  | fwData (h : PeerHdr) (ofs : Nat) (data : List Byte)
  /-- FW_END (R568): FW_END ends a heal image, which the loader checks, writes and resets onto. -/
  | fwEnd (h : PeerHdr) (length serial : Nat)
  /-- BOOT_CNT_CLR (R570): A write to BOOT_CNT_CLR clears the four BOOT counters. -/
  | bootCntClr
  /-- EVENT_RECORD_ARRIVE (R580): An event record reaching the recorder is admitted by its token bucket or suppressed. -/
  | eventRecordArrive (sram : SramCheck)
  /-- SUPPRESSION_PERIOD_END (R581): A 1 s period of a suppression stretch ends with a summary or ends the stretch. -/
  | suppressionPeriodEnd (code : Nat)
  /-- FREEZE (R578): EVR_CMD FREEZE stops writing to both areas and holds records in a queue. -/
  | evrFreeze
  /-- THAW (R578): EVR_CMD THAW ends a freeze and writes the held records. -/
  | evrThaw
  /-- FREEZE_LAPSE (R578): FREEZE_MS after FREEZE the freeze ends with CODE 1. -/
  | freezeLapse
  /-- CLEAR_FB (R587): EVR_CMD CLEAR_FB clears the fallback store. -/
  | clearFb
  /-- EVR_C_PTR_WRITE (R575): A write of EVR_C_PTR.HEAD releases area C slots if reachable. -/
  | evrCPtrWrite (value : Nat)
  /-- EVR_CNT_CLR (R594): A write to EVR_CNT_CLR clears every EVR counter. -/
  | evrCntClr
  /-- HEAD_FAULT (R590): A head fault records itself, stops the watchdog, logs AER and begins a recovery reset. -/
  | headFault (cause : Nat) (endpointAlive : Bool)
  /-- I3C_ENTDAA (R614): ENTDAA assigns the I3C target's dynamic address. -/
  | i3cEntdaa (addr : Nat)
  /-- MCTP_MESSAGE (R539): An MCTP message over PCIe VDM or I3C carries an NVMe-MI or SPDM request. -/
  | mctpMessage (tr : Transport) (body : MctpBody)
  /-- NIGHTWATCH_SUPPLY_LOSS (R547): Loss of the Nightwatch supply causes a cold reset of every block, restarting GLB_TIME at 0. -/
  | nightwatchSupplyLoss
  /-- DIMM_SUPPLY_LOSS (R479): Loss of the DIMM supply, in Night or otherwise, destroys DRAM content, which the next Dawn then treats as lost. -/
  | dimmSupplyLoss
  /-- PLL_LOCKED (R513): A core PLL locks within 200 us, letting Dawn go on to memory, or relocks to the image's clock plan before step 5. -/
  | pllLocked (pll : Nat)
  /-- DRAM_TRAINING_DONE (R476): Channel training, the canary check and the cold DRAM initialisation end, opening memory or sending the head loader-only. -/
  | dramTrainingDone (trained : List Nat) (dimms : List DimmId) (canaryBad : List Nat)
  /-- CE_HOUR_WINDOW (R491): A channel's corrected errors in the last hour fall below CE_LIMIT as time passes, and MEM_CH_STATUS_n.CE_HIGH clears. -/
  | ceHourWindow (ch : Nat)
  /-- STANDALONE_ACK (R393): When a peer-link channel's E has changed and nothing has carried it within 1 us, the receiver sends an ACK frame. -/
  | standaloneAck (ch : Nat)
  /-- ILLEGAL_INSTRUCTION (R429): An engine executes a word with an undefined OP or FN, a non-zero reserved field or COND 15, and raises ILLEGAL. -/
  | illegalInstruction (n : Cluster) (e : Engine) (w : Word32)
  /-- FETCH_FAULT (R442): An engine fetches at a PC outside IMEM or not a multiple of 4 and faults with FETCH. -/
  | fetchFault (n : Cluster) (e : Engine)
  /-- ZBL_TRAINING_RESTART (R398): When no quad has joined the active set, peer-link training restarts after 1 s. -/
  | zblTrainingRestart
  deriving DecidableEq, Repr

end Sys2Proof
end

