-- ==== Sys2Proof/Decode.lean ====
section
/-!
DEFINITION. The command that a word spells by the table's bits. spec/opcode_table.json gives no row any bits: the head takes
commands, not instruction words, so no word spells one. (The instruction words of the stream engines are operands of the
engine rows; their fields and legality are in Machine/Operands.lean.)
-/
namespace Sys2Proof

/-- No row of the table gives bits: no word spells a command. -/
def decodeTableWord (_nbits _w : Nat) : Option Instr := none

end Sys2Proof
end

