-- ==== Sys2Proof/Machine/Sparse.lean ====
section
/-!
DEFINITION. Sparse tables: lists of key and value pairs in one canonical form (keys strictly rising, no entry
equal to what an unlisted key reads as). DRAM, the engines' memories and every large table of the spec are held so,
and every read and write of one goes through `Sparse.get` and `Sparse.set`.
-/
namespace Sys2Proof.Machine

/-- The value at key `k`, the default where none is listed. -/
def Sparse.get {α : Type} (dflt : α) : List (Nat × α) → Nat → α
  | [], _ => dflt
  | e :: l, k => if e.1 = k then e.2 else Sparse.get dflt l k

/-- The list without key `k`. -/
def Sparse.erase {α : Type} (l : List (Nat × α)) (k : Nat) : List (Nat × α) :=
  l.filter (fun e => e.1 != k)

/-- The entry put before the first larger key. -/
def Sparse.place {α : Type} (k : Nat) (v : α) : List (Nat × α) → List (Nat × α)
  | [] => [(k, v)]
  | e :: l => if k < e.1 then (k, v) :: e :: l else e :: Sparse.place k v l

/-- The list with key `k` at value `v`; writing the default removes the entry. -/
def Sparse.set {α : Type} [DecidableEq α] (dflt : α) (l : List (Nat × α)) (k : Nat) (v : α) : List (Nat × α) :=
  if v = dflt then Sparse.erase l k else Sparse.place k v (Sparse.erase l k)

/-- The list with the value at key `k` changed by `f`. -/
def Sparse.modify {α : Type} [DecidableEq α] (dflt : α) (l : List (Nat × α)) (k : Nat) (f : α → α) :
    List (Nat × α) :=
  Sparse.set dflt l k (f (Sparse.get dflt l k))

/-- The canonical form: keys strictly rising and no value equal to the default. -/
def Sparse.wf {α : Type} [DecidableEq α] (dflt : α) : List (Nat × α) → Bool
  | [] => true
  | [e] => decide (e.2 ≠ dflt)
  | e :: f :: l => decide (e.2 ≠ dflt) && decide (e.1 < f.1) && Sparse.wf dflt (f :: l)

/-- One byte of a byte memory; a byte that nothing has written reads 0 (log entry 5). -/
def Mem.byte (m : List Host.Cell) (a : Nat) : Byte := Sparse.get 0#8 m a

/-- Store one byte. -/
def Mem.putByte (m : List Host.Cell) (a : Nat) (b : Byte) : List Host.Cell := Sparse.set 0#8 m a b

/-- `n` bytes from address `a` upward. -/
def Mem.read (m : List Host.Cell) (a : Nat) : Nat → List Byte
  | 0 => []
  | n + 1 => Mem.byte m a :: Mem.read m (a + 1) n

/-- Store bytes from address `a` upward. -/
def Mem.write (m : List Host.Cell) (a : Nat) : List Byte → List Host.Cell
  | [] => m
  | b :: bs => Mem.write (Mem.putByte m a b) (a + 1) bs

/-- A little-endian number of bytes (R1): byte 0 holds bits 7:0. -/
def leNat : List Byte → Nat
  | [] => 0
  | b :: bs => b.toNat + 256 * leNat bs

/-- The `n` little-endian bytes of a number (R1). -/
def natLe (v : Nat) : Nat → List Byte
  | 0 => []
  | n + 1 => BitVec.ofNat 8 v :: natLe (v / 256) n

/-- A little-endian number of `n` bytes in memory. -/
def Mem.readNat (m : List Host.Cell) (a n : Nat) : Nat := leNat (Mem.read m a n)

/-- Store a number as `n` little-endian bytes. -/
def Mem.writeNat (m : List Host.Cell) (a n v : Nat) : List Host.Cell := Mem.write m a (natLe v n)

/-- The canonical form of a byte memory. -/
def Mem.wf (m : List Host.Cell) : Bool := Sparse.wf 0#8 m

/-- The canonical form of DRAM, as Mem.wf says it. -/
abbrev Memory.wf (m : List Host.Cell) : Bool := Mem.wf m

end Sys2Proof.Machine
end

