-- ==== Sys2Proof/Machine/Hash.lean ====
section
/-!
DEFINITION. The digests and checks that the spec names by their standards: SHA-256, SHA-384, SHA-512 and SHA-512/256 (FIPS
180-4), HMAC and HKDF, CRC-32C, and the 16-bit and 64-bit guard CRCs of the NVM Command Set (log entry 15).
-/
namespace Sys2Proof.Machine

/-- Round constants and starting values of SHA-256 and SHA-512 (FIPS 180-4). -/
def k256 : List Nat :=
  [0x428a2f98, 0x71374491, 0xb5c0fbcf, 0xe9b5dba5, 0x3956c25b, 0x59f111f1, 0x923f82a4, 0xab1c5ed5] ++
  [0xd807aa98, 0x12835b01, 0x243185be, 0x550c7dc3, 0x72be5d74, 0x80deb1fe, 0x9bdc06a7, 0xc19bf174] ++
  [0xe49b69c1, 0xefbe4786, 0x0fc19dc6, 0x240ca1cc, 0x2de92c6f, 0x4a7484aa, 0x5cb0a9dc, 0x76f988da] ++
  [0x983e5152, 0xa831c66d, 0xb00327c8, 0xbf597fc7, 0xc6e00bf3, 0xd5a79147, 0x06ca6351, 0x14292967] ++
  [0x27b70a85, 0x2e1b2138, 0x4d2c6dfc, 0x53380d13, 0x650a7354, 0x766a0abb, 0x81c2c92e, 0x92722c85] ++
  [0xa2bfe8a1, 0xa81a664b, 0xc24b8b70, 0xc76c51a3, 0xd192e819, 0xd6990624, 0xf40e3585, 0x106aa070] ++
  [0x19a4c116, 0x1e376c08, 0x2748774c, 0x34b0bcb5, 0x391c0cb3, 0x4ed8aa4a, 0x5b9cca4f, 0x682e6ff3] ++
  [0x748f82ee, 0x78a5636f, 0x84c87814, 0x8cc70208, 0x90befffa, 0xa4506ceb, 0xbef9a3f7, 0xc67178f2]

/-- Round constants of SHA-512. -/
def k512 : List Nat :=
  [0x428a2f98d728ae22, 0x7137449123ef65cd, 0xb5c0fbcfec4d3b2f, 0xe9b5dba58189dbbc, 0x3956c25bf348b538, 0x59f111f1b605d019, 0x923f82a4af194f9b, 0xab1c5ed5da6d8118] ++
  [0xd807aa98a3030242, 0x12835b0145706fbe, 0x243185be4ee4b28c, 0x550c7dc3d5ffb4e2, 0x72be5d74f27b896f, 0x80deb1fe3b1696b1, 0x9bdc06a725c71235, 0xc19bf174cf692694] ++
  [0xe49b69c19ef14ad2, 0xefbe4786384f25e3, 0x0fc19dc68b8cd5b5, 0x240ca1cc77ac9c65, 0x2de92c6f592b0275, 0x4a7484aa6ea6e483, 0x5cb0a9dcbd41fbd4, 0x76f988da831153b5] ++
  [0x983e5152ee66dfab, 0xa831c66d2db43210, 0xb00327c898fb213f, 0xbf597fc7beef0ee4, 0xc6e00bf33da88fc2, 0xd5a79147930aa725, 0x06ca6351e003826f, 0x142929670a0e6e70] ++
  [0x27b70a8546d22ffc, 0x2e1b21385c26c926, 0x4d2c6dfc5ac42aed, 0x53380d139d95b3df, 0x650a73548baf63de, 0x766a0abb3c77b2a8, 0x81c2c92e47edaee6, 0x92722c851482353b] ++
  [0xa2bfe8a14cf10364, 0xa81a664bbc423001, 0xc24b8b70d0f89791, 0xc76c51a30654be30, 0xd192e819d6ef5218, 0xd69906245565a910, 0xf40e35855771202a, 0x106aa07032bbd1b8] ++
  [0x19a4c116b8d2d0c8, 0x1e376c085141ab53, 0x2748774cdf8eeb99, 0x34b0bcb5e19b48a8, 0x391c0cb3c5c95a63, 0x4ed8aa4ae3418acb, 0x5b9cca4f7763e373, 0x682e6ff3d6b2b8a3] ++
  [0x748f82ee5defb2fc, 0x78a5636f43172f60, 0x84c87814a1f0ab72, 0x8cc702081a6439ec, 0x90befffa23631e28, 0xa4506cebde82bde9, 0xbef9a3f7b2c67915, 0xc67178f2e372532b] ++
  [0xca273eceea26619c, 0xd186b8c721c0c207, 0xeada7dd6cde0eb1e, 0xf57d4f7fee6ed178, 0x06f067aa72176fba, 0x0a637dc5a2c898a6, 0x113f9804bef90dae, 0x1b710b35131c471b] ++
  [0x28db77f523047d84, 0x32caab7b40c72493, 0x3c9ebe0a15c9bebc, 0x431d67c49c100d4c, 0x4cc5d4becb3e42b6, 0x597f299cfc657e2a, 0x5fcb6fab3ad6faec, 0x6c44198c4a475817]

/-- Start of SHA-256. -/
def h256 : List Nat :=
  [0x6a09e667, 0xbb67ae85, 0x3c6ef372, 0xa54ff53a, 0x510e527f, 0x9b05688c, 0x1f83d9ab, 0x5be0cd19]

/-- Start of SHA-512. -/
def h512 : List Nat :=
  [0x6a09e667f3bcc908, 0xbb67ae8584caa73b, 0x3c6ef372fe94f82b, 0xa54ff53a5f1d36f1, 0x510e527fade682d1, 0x9b05688c2b3e6c1f, 0x1f83d9abfb41bd6b, 0x5be0cd19137e2179]

/-- Start of SHA-384. -/
def h384 : List Nat :=
  [0xcbbb9d5dc1059ed8, 0x629a292a367cd507, 0x9159015a3070dd17, 0x152fecd8f70e5939, 0x67332667ffc00b31, 0x8eb44a8768581511, 0xdb0c2e0d64f98fa7, 0x47b5481dbefa4fa4]

/-- Start of SHA-512/256. -/
def h512256 : List Nat :=
  [0x22312194fc2bf72c, 0x9f555fa3c84c64c2, 0x2393b86b6f53b151, 0x963877195940eabd, 0x96283ee2a88effe3, 0xbe5e1e2553863992, 0x2b0199fc2c85b8aa, 0x0eb72ddc81c52ca2]

/-- The shape of a SHA-2 function: word bits, rotations of the four sums, and rounds. -/
structure Sha2 where
  w : Nat
  k : List Nat
  s0 : Nat × Nat × Nat
  s1 : Nat × Nat × Nat
  e0 : Nat × Nat × Nat
  e1 : Nat × Nat × Nat

/-- The 32-bit family. -/
def sha2x32 : Sha2 := ⟨32, k256, (7, 18, 3), (17, 19, 10), (2, 13, 22), (6, 11, 25)⟩

/-- The 64-bit family. -/
def sha2x64 : Sha2 := ⟨64, k512, (1, 8, 7), (19, 61, 6), (28, 34, 39), (14, 18, 41)⟩

/-- A word rotated right. -/
def rotr (w x n : Nat) : Nat := x / 2 ^ n + x % 2 ^ n * 2 ^ (w - n)

/-- The XOR of two rotations and a shift. -/
def Sha2.small (h : Sha2) (t : Nat × Nat × Nat) (x : Nat) : Nat := rotr h.w x t.1 ^^^ rotr h.w x t.2.1 ^^^ x / 2 ^ t.2.2

/-- The XOR of three rotations. -/
def Sha2.big (h : Sha2) (t : Nat × Nat × Nat) (x : Nat) : Nat :=
  rotr h.w x t.1 ^^^ rotr h.w x t.2.1 ^^^ rotr h.w x t.2.2

/-- One round on the eight working words with the next schedule word; the schedule's last 16 words are carried newest last. -/
def Sha2.round (h : Sha2) (st : List Nat × List Nat) (k : Nat) : List Nat × List Nat :=
  let v := st.1
  let g := fun i => v.getD i 0
  let w0 := st.2.getD 0 0
  let m := 2 ^ h.w
  let ch := (g 4 &&& g 5) ^^^ ((m - 1 - g 4) &&& g 6)
  let mj := (g 0 &&& g 1) ^^^ (g 0 &&& g 2) ^^^ (g 1 &&& g 2)
  let t1 := (g 7 + h.big h.e1 (g 4) + ch + k + w0) % m
  let t2 := (h.big h.e0 (g 0) + mj) % m
  let next := (h.small h.s1 (st.2.getD 14 0) + st.2.getD 9 0 + h.small h.s0 (st.2.getD 1 0) + w0) % m
  ([(t1 + t2) % m, g 0, g 1, g 2, (g 3 + t1) % m, g 4, g 5, g 6], st.2.drop 1 ++ [next])

/-- Big-endian number of bytes. -/
def beNat (bs : List Byte) : Nat := bs.foldl (fun a b => a * 256 + b.toNat) 0

/-- The `n` big-endian bytes of a number. -/
def natBe (v n : Nat) : List Byte := (natLe v n).reverse

/-- A list cut into groups of `k`, in at most `fuel` groups. -/
def groups {α : Type} (k : Nat) : Nat → List α → List (List α)
  | 0, _ => []
  | fuel + 1, l => if l.isEmpty then [] else l.take k :: groups k fuel (l.drop k)

/-- The compression function. -/
def Sha2.block (h : Sha2) (v : List Nat) (blk : List Byte) : List Nat :=
  let ws := (groups (h.w / 8) 16 blk).map beNat
  let r := (h.k.foldl h.round (v, ws)).1
  (v.zip r).map (fun p => (p.1 + p.2) % 2 ^ h.w)

/-- A message padded as FIPS 180-4 lays down. -/
def Sha2.pad (h : Sha2) (msg : List Byte) : List Byte :=
  let blk := h.w * 2
  let len := h.w / 4
  let z := (blk - (msg.length + 1 + len) % blk) % blk
  msg ++ 0x80#8 :: List.replicate z 0#8 ++ natBe (msg.length * 8) len

/-- A digest of `n` bytes from a starting value. -/
def Sha2.digest (h : Sha2) (iv : List Nat) (n : Nat) (msg : List Byte) : List Byte :=
  let p := h.pad msg
  let v := (groups (h.w * 2) (p.length / (h.w * 2) + 1) p).foldl h.block iv
  (v.flatMap (fun x => natBe x (h.w / 8))).take n

/-- SHA-256. -/
def sha256 (msg : List Byte) : List Byte := sha2x32.digest h256 32 msg

/-- SHA-384. -/
def sha384 (msg : List Byte) : List Byte := sha2x64.digest h384 48 msg

/-- SHA-512. -/
def sha512 (msg : List Byte) : List Byte := sha2x64.digest h512 64 msg

/-- SHA-512/256. -/
def sha512x256 (msg : List Byte) : List Byte := sha2x64.digest h512256 32 msg

/-- HMAC-SHA-384. -/
def hmac384 (key msg : List Byte) : List Byte :=
  let k := if key.length > 128 then sha384 key else key
  let k := k ++ List.replicate (128 - k.length) 0#8
  sha384 (k.map (· ^^^ 0x5C#8) ++ sha384 (k.map (· ^^^ 0x36#8) ++ msg))

/-- HKDF-SHA-384 with an output of at most 48 bytes. -/
def hkdf384 (ikm salt info : List Byte) (n : Nat) : List Byte :=
  (hmac384 (hmac384 salt ikm) (info ++ [1#8])).take n

/-- One bit shifted through a reflected CRC register. -/
def crcStepRefl (poly crc : Nat) : Nat := if crc % 2 = 1 then crc / 2 ^^^ poly else crc / 2

/-- One byte folded into a reflected CRC register. -/
def crcByteRefl (poly crc : Nat) (b : Byte) : Nat :=
  (List.range 8).foldl (fun c _ => crcStepRefl poly c) (crc ^^^ b.toNat)

/-- One byte folded into the 16-bit guard's register (polynomial 0x8BB7, most significant bit first). -/
def crc16Byte (crc : Nat) (b : Byte) : Nat :=
  (List.range 8).foldl (fun c _ => if c ≥ 0x8000 then (c * 2 % 0x10000) ^^^ 0x8BB7 else c * 2) (crc ^^^ b.toNat * 256)

/-- The 16-bit guard register after more bytes. -/
def crc16From (crc : Nat) (bs : List Byte) : Nat := bs.foldl crc16Byte crc

/-- The 64-bit guard register after more bytes, before its final inversion. -/
def crc64From (crc : Nat) (bs : List Byte) : Nat := bs.foldl (crcByteRefl 0x9A6C9329AC4BC9B5) crc

/-- The 16-bit guard of a block (R150). -/
def guard16 (bs : List Byte) : Nat := crc16From 0 bs

/-- The 64-bit guard of a block (R150). -/
def guard64 (bs : List Byte) : Nat := crc64From 0xFFFFFFFFFFFFFFFF bs ^^^ 0xFFFFFFFFFFFFFFFF

/-- CRC-32C. -/
def crc32c (bs : List Byte) : Nat := bs.foldl (crcByteRefl 0x82F63B78) 0xFFFFFFFF ^^^ 0xFFFFFFFF

/-- The chunk-cut hash of R156 over 64 bytes. -/
def cutHash (bs : List Byte) : Nat :=
  ((groups 8 8 bs).map leNat).foldl (fun h w =>
    let h := (h ^^^ w) * 0xA3C59E176B2DF04B % 2 ^ 64
    h ^^^ h / 2 ^ 29) 0

end Sys2Proof.Machine
end

