-- ==== Sys2Proof/Config.lean ====
section
/-!
DEFINITION. What one part fixes and what the spec leaves open. An opaque constant has no body: no proof can see its value, so a
claim holds for every value.
-/
namespace Sys2Proof

/-- Free values: the value taken with ordinal `n`. Every value the spec leaves open is one of these, numbered by the counter
that State holds (log entry 4). -/
opaque Config.freeValue : Nat → Nat

/-- Random bits of the die's generator: challenges (R529), transport keys and array secrets (R533, R535), nonces of SPDM. -/
opaque Config.random : Nat → Nat

/-- ECDSA P-384 verification (FIPS 186-5): public key X and Y, SHA-384 of the message, r and s. -/
opaque Config.ecdsaVerify : (x y digest r s : Nat) → Bool

/-- ECDH on P-384 (R240): private key, the peer's public X and Y; the shared secret, or none where the point is not on the curve. -/
opaque Config.ecdh : (priv x y : Nat) → Option Nat

/-- The P-384 public key of a private key: X and Y. -/
opaque Config.publicKey : Nat → Nat × Nat

/-- The DER bytes of a certificate chain of this head: slot 0, or slot 1 with its transport key serial (Table 17-8). -/
opaque Config.certChain : (slot serial : Nat) → List Byte

/-- Whether a loader section's own header and signature verify under a firmware key that the given FW_KEY_REVOKE leaves usable (check 7 of
Table 18-4); the spec does not lay out that header. -/
opaque Config.loaderVerify : (sec : List Byte) → (revoked : Nat) → Bool

/-- The Colris firmware key under which the loader copy with a LOADER_SERIAL is signed (R532). -/
opaque Config.loaderKey : Nat → Nat

/-- The SHA-384 of the loader copy with a LOADER_SERIAL (R537); the spec gives no loader. -/
opaque Config.loaderHash : Nat → Nat

/-- The salt of a dedup domain, derived from the array's dedup secret (R203); the spec does not state the derivation. -/
opaque Config.domainSalt : (secret dom : Nat) → Nat

/-- The keyed check of a saved digest state (R264): the key of that reset, and the bytes under it. -/
opaque Config.stateCheck : (key : Nat) → List Byte → Nat

/-- The SHA-384 hashes that the boot ROM holds: Colris firmware keys 0 and 1, the manufacturing key, and of the ROM and the
root certificate (R521). -/
opaque Config.romHash : Nat → Nat

/-- The bytes of a journal record of each kind (R168); the spec states no record layout. -/
opaque Config.recordBytes : Nat → Nat

/-- What a journal record holds as bytes, from its record number, its epoch and its kind (R169); the spec states no record layout. -/
opaque Config.recordImage : (rsn epoch kind : Nat) → List Byte

/-- What a namespace or attachment journal record holds as bytes (R168, Table 12-12 item 5), from its fields; the spec states no record layout. -/
opaque Config.nsRecordImage : (fields : List Nat) → List Byte

/-- The bytes of the shelf maps, grain tables, stripe tables and band tables of a cohort with so many entries of each (R279). -/
opaque Config.residentBytes : (extents grains stripes bands : Nat) → Nat

/-- The pages of a catalogue shelf's metadata region when it is formatted (R211), for a shelf of so many pages; the spec states no size. -/
opaque Config.catalogueMeta : Nat → Nat

/-- The NGUID of a namespace (Identify CNS 0x03); the spec states none. -/
opaque Config.nguid : Nat → Nat

/-- A byte of Identify Controller's serial number and model number, which the spec does not state. -/
opaque Config.idText : Nat → Byte

end Sys2Proof
end

