-- ==== Sys2Proof/Machine/Fields.lean ====
section
/-!
DEFINITION. What a register field is (chapter 0, Table 0-3). Registers are held field by field: a reserved bit has
no field, so it reads 0 and ignores writes (R4).
-/
namespace Sys2Proof.Machine

/-- The access codes of Table 0-3. -/
inductive Acc where
  | ro | rw | w1c | w1s | wo | rc
  deriving DecidableEq, Repr

/-- One register field. `addr` is the BAR2 address of its register (R2); the controller registers, MSI-X tables and
configuration spaces of the functions follow the BAR2 window at 0x8000_0000, 0xC000_0000 and 0x4000_0000
(log entry 6). `kept` fields keep their value through a warm reset and Night; `own` fields are written by a
command of their own; `view` fields are computed from state held elsewhere; `legal` lists the encodings R5 admits (all of them
where it is empty). -/
structure Fld where
  addr : Nat
  lsb : Nat
  width : Nat
  acc : Acc
  reset : Nat
  kept : Bool
  own : Bool
  view : Bool
  legal : List (Nat × Nat)
  deriving DecidableEq, Repr

/-- The key under which a field's value is held. -/
def Fld.key (f : Fld) : Nat := f.addr * 64 + f.lsb

/-- R5: whether a value is an encoding the field's table defines. -/
def Fld.admits (f : Fld) (v : Nat) : Bool :=
  f.legal.isEmpty || f.legal.any (fun p => decide (p.1 ≤ v) && decide (v ≤ p.2))

/-- One row of the register map: first address, bytes, two instance counts with their strides, and the fields of
instance `i`, `j`. -/
structure RegDesc where
  base : Nat
  bytes : Nat
  n : Nat
  stride : Nat
  m : Nat
  stride2 : Nat
  fields : Nat → Nat → List Fld

end Sys2Proof.Machine
end

