-- ==== Sys2Proof/Machine/Blocks/Kcf.lean ====
section
/-!
DEFINITION. What a Kilip image says (chapter 2), and the state of KCF.
-/
namespace Sys2Proof.Machine

/-- A PARTITION cluster entry (Table 2-5). -/
structure ClusterEnt where
  pool : Nat := 15
  prog : Nat := 0
  deriving DecidableEq, Repr

/-- A PARTITION pool entry (Table 2-5). -/
structure PoolEnt where
  minDge : Nat := 0
  minCpe : Nat := 0
  minCmp : Nat := 0
  minDcmp : Nat := 0
  weight : Nat := 0
  deriving DecidableEq, Repr

/-- A TENANTS entry (Table 2-6). -/
structure Tenant where
  valid : Bool := false
  priv : Bool := false
  pool : Nat := 0
  maxQp : Nat := 0
  maxNs : Nat := 0
  defCls : Nat := 0
  clsMask : Nat := 0
  dom : Nat := 0
  keyBase : Nat := 0
  keyCount : Nat := 0
  weight : Nat := 0
  wrbufMib : Nat := 0
  deriving DecidableEq, Repr

/-- A LAYOUT entry (Table 2-7). -/
structure LayoutEnt where
  kind : Nat := 0
  k : Nat := 0
  extLog2 : Nat := 22
  opts : Nat := 0
  deriving DecidableEq, Repr

/-- A CARVEOUT entry (Table 2-8). -/
structure Region where
  typ : Nat := 0
  base : Nat := 0
  size : Nat := 0
  param : Nat := 0
  deriving DecidableEq, Repr

/-- The CLOCKS body (Table 2-9). -/
structure Clocks where
  ddr : Nat := 4800
  cluster : Nat := 1000
  accel : Nat := 800
  msync : Nat := 0
  nightWake : Nat := 0
  deriving DecidableEq, Repr

/-- A TOPOLOGY shelf entry (Table 2-10). -/
structure ShelfEnt where
  present : Bool := false
  str : Nat := 0
  pos : Nat := 0
  cohort : Nat := 255
  fp : Nat := 0
  deriving DecidableEq, Repr

/-- A program of PROGRAMS (Table 2-11) with its instruction and data images. -/
structure Program where
  id : Nat
  ports : Nat
  entry : Nat
  imem : List (BitVec 8)
  dmem : List (BitVec 8)
  deriving DecidableEq, Repr

/-- A Kilip image as the head applies it: the header fields it keeps, its sections, the digest of each section by
type, and the SHA-384 of the whole image (R54). -/
structure ImageData where
  serial : Nat := 0
  floor : Nat := 0
  arrayId : Nat := 0
  headId : Nat := 0
  pos : Nat := 255
  epochUs : Nat := 8000
  clusters : List ClusterEnt := []
  pools : List PoolEnt := []
  tenants : List (Nat × Tenant) := []
  layout : List LayoutEnt := []
  carve : List Region := []
  clocks : Clocks := {}
  shelves : List ShelfEnt := []
  owners : List Nat := []
  programs : List Program := []
  sections : List (Nat × Nat) := []
  digest : Nat := 0
  deriving DecidableEq, Repr

/-- KCF: which staging slot holds an image and its length, the validated image, the active image and its staging slot,
the boot-flash slot a persist writes, the moment of arming and the KCF_ACT_TMO that runs from it (R62, R67), a pending ABORT (R58), and the
cluster pass (R65): the clusters still to take and the one draining. `switches` counts the switches of the Midnight sections, and `prevs`
holds, by that count, the sections that commands fetched before a switch finish under (R63). -/
structure Kcf where
  staged : Option Nat := none
  stagedLen : Nat := 0
  loadXfer : Nat := 0
  valid : Option ImageData := none
  active : Option ImageData := none
  next : Option ImageData := none
  activeStaging : Option Nat := none
  persistSlot : Nat := 0
  abortPending : Bool := false
  armedAt : Nat := 0
  opid : Nat := 0
  passLeft : List Nat := []
  draining : Option Nat := none
  isRetry : Bool := false
  actTmo : Nat := 0
  switches : Nat := 0
  prevs : List (Nat × ImageData) := []
  deriving DecidableEq, Repr

end Sys2Proof.Machine
end

