-- ==== Sys2Proof/Machine/Blocks/Boot.lean ====
section
/-!
DEFINITION. The boot flash, the firmware slots and the update state (chapter 18).
-/
namespace Sys2Proof.Machine

/-- A Kilip slot of the boot flash (Table 18-2): its bytes, the write count of its valid mark (R58), and whether a
Dawn marked it invalid (R61). -/
structure KilipSlot where
  bytes : List Host.Cell := []
  length : Nat := 0
  mark : Option Nat := none
  bad : Bool := false
  serial : Nat := 0
  deriving DecidableEq, Repr

/-- A firmware image header (Table 18-3). -/
structure FwHeader where
  length : Nat := 0
  serial : Nat := 0
  floor : Nat := 0
  writeGen : Nat := 0
  readMinGen : Nat := 0
  revision : Nat := 0
  hasLoader : Bool := false
  loaderSerial : Nat := 0
  deriving DecidableEq, Repr

/-- The board record (R551). -/
structure BoardRecord where
  ssvid : Nat
  ssid : Nat
  serial : Nat
  deriving DecidableEq, Repr

/-- Why the firmware slot is being written. -/
inductive FwWriter where
  | commit (id : CmdId)
  | heal
  deriving DecidableEq, Repr

/-- The boot flash with its slot state table (R550), the download buffer (R559), the commit or heal in progress, the
running firmware, and the heal's conversation (R567 to R569). `started` says that this Dawn's ROM has run, `failedUnits` the units that its
tests will find failing, `candidate` the Kilip slot and image whose clock plan the PLLs are locking to, and `lastImage` the image last active,
to which Table 2-14 compares the next; `boardUsed` is the board record as this Dawn found it (R551). -/
structure Boot where
  loader0 : Nat := 1
  loader1 : Nat := 1
  boardRec : Option BoardRecord := none
  boardUsed : Option BoardRecord := none
  writeCount : Nat := 0
  fwState : Nat := 0
  fwSerial : Nat := 0
  attempts : Nat := 0
  confirmed : Bool := false
  fwSlot : List Host.Cell := []
  fwHeader : FwHeader := {}
  k0 : KilipSlot := {}
  k1 : KilipSlot := {}
  running : Option FwHeader := none
  download : List Host.Cell := []
  pieces : List (Nat × Nat) := []
  writer : Option FwWriter := none
  newHeader : FwHeader := {}
  newBytes : List Host.Cell := []
  healBuf : List Host.Cell := []
  healPieces : List (Nat × Nat) := []
  healBad : Option Nat := none
  healOff : Bool := false
  commitWaiting : Option CmdId := none
  started : Bool := false
  failedUnits : List (Nat × Nat) := []
  candidate : Option (Nat × ImageData) := none
  lastImage : Option ImageData := none
  deriving DecidableEq, Repr

end Sys2Proof.Machine
end

