-- ==== Sys2Proof/Machine/Blocks/Dedup.lean ====
section
/-!
DEFINITION. The state of the dedup service and of the CMP block (chapter 7).
-/
namespace Sys2Proof.Machine

/-- A catalogue entry (Table 7-3). `incr` says that it received an increment in the epoch being closed (R223). -/
structure CatEntry where
  fp : Nat
  dom : Nat
  cls : Nat
  blocks : Nat
  state : Nat
  locator : Nat
  refs : Nat
  keySlot : Nat
  epoch : Nat
  incr : Bool := false
  deriving DecidableEq, Repr

/-- An entry of the in-flight table (R217): the chunk being stored, and its locator once its stripe is programmed. -/
structure InFlight where
  fp : Nat
  dom : Nat
  cls : Nat
  blocks : Nat
  keySlot : Nat
  chunk : Nat
  epoch : Nat
  programmed : Bool
  loc : Nat := 0
  deriving DecidableEq, Repr

/-- A catalogue change of R213. It names its record by fingerprint, domain, class and locator. -/
inductive CatChange where
  | insert (e : CatEntry)
  | increment (fp dom cls locator : Nat)
  | decrement (fp dom cls locator : Nat)
  | relocate (fp dom cls old new : Nat)
  | erased (fp dom cls locator : Nat)
  | lost (fp dom cls locator : Nat)
  deriving DecidableEq, Repr

/-- A catalogue update waiting for the Midnight that closes its epoch. -/
structure CatUpdate where
  epoch : Nat
  wid : Nat
  piece : Nat
  fromPeer : Bool
  change : CatChange
  deriving DecidableEq, Repr

/-- A decision that waits for a bucket page (step 5 of Table 7-1), or for room in the in-flight table (R214, R217) once `step` has found it
unique. -/
structure DdWait where
  chunk : Nat
  dom : Nat
  cls : Nat
  blocks : Nat
  fp : Nat
  bucket : Nat
  engine : Nat
  step : Nat := 5
  deriving DecidableEq, Repr

/-- The dedup service: the filter's set bits per generation (block × 512 + bit), whether the open generation's overfill was
recorded, the logarithm of NB that the catalogue shelves were formatted with, buckets as the catalogue shelves hold them with their overflow chains, those in the cache and those to be written back,
pending updates, the in-flight table, waiting decisions (a bucket of 2^64: for room in the in-flight table), and the fingerprints
answered in the open epoch, with their domains (R208). -/
structure Dedup where
  filterBlocks : Nat := 0
  gens : List (List Nat) := []
  overfillDone : Bool := false
  nbLog2 : Nat := 0
  buckets : List (Nat × List CatEntry) := []
  cached : List Nat := []
  dirty : List Nat := []
  inflight : List InFlight := []
  updates : List CatUpdate := []
  waiting : List DdWait := []
  answered : List (Nat × Nat) := []
  warned : Bool := false
  deriving DecidableEq, Repr

/-- A CMP job (Table 7-6) with its issuer: the engine (cluster × 8 + engine, or none for the control cores) and ticket. -/
structure CmpJob where
  handle : Nat
  op : Nat
  noFallback : Bool
  pool : Nat
  srcLen : Nat
  srcAddr : Nat
  dstAddr : Nat
  dstCap : Nat
  cpeJob : Nat
  engine : Option Nat
  ticket : Nat
  resAddr : Nat
  core : Option Nat := none
  held : Bool := false
  cancelled : Bool := false
  deriving DecidableEq, Repr

/-- A job result (R230, R258, R267, R320), unreleased until its reader releases it (R15). -/
structure JobResult where
  handle : Nat
  valid : Bool
  status : Nat
  fields : List Nat
  deriving DecidableEq, Repr

/-- The CMP block: cores in service, jobs queued or running, results, and the deficits of R231 by pool. -/
structure Cmp where
  compUp : List Nat := []
  dcmpUp : List Nat := []
  compFailing : List Nat := []
  dcmpFailing : List Nat := []
  jobs : List CmpJob := []
  results : List JobResult := []
  nextHandle : Nat := 1
  cDeficit : List (Nat × Nat) := []
  dDeficit : List (Nat × Nat) := []
  shortRecorded : Bool := false
  deriving DecidableEq, Repr

end Sys2Proof.Machine
end

