-- ==== Sys2Proof/Machine/Blocks/Crypto.lean ====
section
/-!
DEFINITION. The state of the cipher and digest engines: key slots, nonces, cores and jobs (chapter 8).
-/
namespace Sys2Proof.Machine

/-- The states of a key slot (R234). -/
inductive SlotState where
  | empty | loaded | erasing
  deriving DecidableEq, Repr

/-- A key slot. `key` is the 256-bit key; `gen` counts the keys the slot has held (R161). -/
structure KeySlot where
  state : SlotState := .empty
  key : Nat := 0
  persist : Bool := false
  erased : Bool := false
  eraseEpoch : Nat := 0
  gen : Nat := 0
  deriving DecidableEq, Repr

/-- A key-transport operation in progress on a slot (R241, R245): who asked, and whether the key is zeroized and the
slot waits for its Midnight (step 4). `remote` says that the peer began it. -/
structure KeyOp where
  slot : Nat
  id : CmdId
  load : Bool
  key : Nat
  persist : Bool
  opid : Nat
  remote : Bool
  agreed : Bool := false
  chunksLeft : Bool := true
  zeroized : Bool := false
  deriving DecidableEq, Repr

/-- A function's LAST_RESULT (Table 8-4). -/
structure KtResult where
  spsp : Nat := 0
  slot : Nat := 0
  reason : Nat := 0
  epoch : Nat := 0
  deriving DecidableEq, Repr

/-- A cipher job (Table 8-6) with its issuer; `stream` is the form and bytes a CMP job streams into an OP 2 job. -/
structure CipherJob where
  handle : Nat
  op : Nat
  pool : Nat
  slot : Nat
  tenant : Nat
  srcLen : Nat
  dstCap : Nat
  srcAddr : Nat
  dstAddr : Nat
  hdrAddr : Nat
  form : Nat
  engine : Option Nat
  ticket : Nat
  resAddr : Nat
  core : Option Nat := none
  nonce : Option Nat := none
  nonceEpoch : Nat := 0
  stream : Option (Nat × List Byte) := none
  claimed : Bool := false
  early : Option Nat := none
  held : Bool := false
  cancelled : Bool := false
  deriving DecidableEq, Repr

/-- The cipher block: slots, internal slots, operations on slots, LAST_RESULT by function, cores in service, each
core's nonce counter (R249), INST as the catalogue shelves hold it (R248), jobs and results. -/
structure Cpe where
  slots : List (Nat × KeySlot) := []
  internal : List (Nat × Nat) := []
  ops : List KeyOp := []
  lastResult : List (Nat × KtResult) := []
  up : List Nat := []
  failing : List Nat := []
  counters : List (Nat × Nat) := []
  shelfInst : Nat := 0
  instPending : Bool := false
  jobs : List CipherJob := []
  results : List JobResult := []
  entrySeqs : List (Nat × Nat) := []
  deficit : List (Nat × Nat) := []
  deriving DecidableEq, Repr

/-- A digest job (Table 8-9) with its issuer. -/
structure DigestJob where
  handle : Nat
  op : Nat
  alg : Nat
  pool : Nat
  flags : Nat
  fragCount : Nat
  domain : Nat
  srcAddr : Nat
  stateAddr : Nat
  cmpAddr : Nat
  engine : Option Nat
  ticket : Nat
  resAddr : Nat
  core : Option Nat := none
  held : Bool := false
  cancelled : Bool := false
  deriving DecidableEq, Repr

/-- The digest block: cores in service and out of service since a fault, jobs and results, and the number of the reset
whose key the saved states of R264 carry. -/
structure Dge where
  up : List Nat := []
  failing : List Nat := []
  jobs : List DigestJob := []
  results : List JobResult := []
  nextHandle : Nat := 1
  stateKey : Nat := 0
  deficit : List (Nat × Nat) := []
  deriving DecidableEq, Repr

end Sys2Proof.Machine
end

