-- ==== Sys2Proof/Machine/Blocks/Host.lean ====
section
/-!
DEFINITION. The state of the PCI Express endpoint and of the NVMe controllers (chapters 3 and 4).
-/
namespace Sys2Proof.Machine

/-- What a chain channel reads (R459, R460): its descriptor, a LINK word, the source or the second operand of a burst. -/
inductive ChRead where
  | descriptor | link | source | second
  deriving DecidableEq, Repr

/-- What a host read transfer is for (Table 3-6, EPC_LAST_ERR.PURPOSE). A fetch of submission entries names the queue, the first entry's place in
the ring, the number of entries and how often it has failed; `cmdData` is the data of a command other than a Write. -/
inductive Purpose where
  | entryFetch (fn sq head count tries : Nat)
  | list (id : CmdId)
  | writeData (id : CmdId)
  | cmdData (id : CmdId)
  | readList (id : CmdId)
  | kcfLoad
  | dmaChannel (ch : Nat) (what : ChRead)
  deriving DecidableEq, Repr

/-- A host read transfer (R87, R88): its destination in DRAM, and the bytes still to arrive. -/
structure Xfer where
  id : Nat
  fn : Nat
  purpose : Purpose
  dest : Nat
  total : Nat
  left : Nat
  deriving DecidableEq, Repr

/-- One host read request of a transfer; `sent` is none while it waits for a tag or for Bus Master Enable (R70, R81). -/
structure ReadReq where
  xfer : Nat
  fn : Nat
  addr : Nat
  len : Nat
  dest : Nat
  got : Nat
  tag : Option Nat
  sentAt : Nat
  deriving DecidableEq, Repr

/-- The host link (R98, R501). -/
inductive LinkState where
  | down | training | l0 | l2
  deriving DecidableEq, Repr

/-- The endpoint: link, whether a link has been up whose loss is not yet reported, readiness, transfers and requests, the tags of abandoned
requests, each with the time until which its completion may still come (R92), the MSI-X Pending bits (function × 4096 + vector), and PME Status (R69). -/
structure Epc where
  link : LinkState := .down
  perstLow : Bool := true
  perstAt : Nat := 0
  cfgReady : Bool := false
  hadLink : Bool := false
  xfers : List Xfer := []
  reqs : List ReadReq := []
  nextXfer : Nat := 1
  abandoned : List (Nat × Nat) := []
  pending : List (Nat × Bool) := []
  pme : Bool := false
  deriving DecidableEq, Repr

/-- An NVMe status (Table 4-10). -/
structure Status where
  sct : Nat
  sc : Nat
  dnr : Bool
  deriving DecidableEq, Repr

/-- A completion waiting for room or written (R112). -/
structure Cqe where
  sq : Nat
  cid : Nat
  dw0 : Nat
  sqhd : Nat
  status : Status
  deriving DecidableEq, Repr

/-- A submission queue: host ring, head, tail; `fetch` is the place from which the next entry is read, ahead of `head` by the entries whose
fetches are out; `deleting` names the Delete command in progress (R110). -/
structure Sq where
  qid : Nat
  size : Nat
  base : Nat
  cq : Nat
  head : Nat
  tail : Nat
  fetch : Nat
  deleting : Option Nat
  deriving DecidableEq, Repr

/-- A completion queue: host ring, head, tail, phase, vector, and completions waiting while it is full (R112). -/
structure Cq where
  qid : Nat
  size : Nat
  base : Nat
  vec : Nat
  ien : Bool
  head : Nat
  tail : Nat
  phase : Nat
  waiting : List Cqe
  deriving DecidableEq, Repr

/-- A fetched command that has not completed: `started` once its data transfer has begun (R110), `running`
once it has begun to execute; `sect` counts the switches of the Midnight sections before its fetch (R63); `input` is the buffer that its
data is read into and whether all of it has arrived (R88). -/
structure Inflight where
  id : CmdId
  admin : Bool
  opc : Nat
  nsid : Nat
  bytes : Nat
  started : Bool
  abandoned : Bool
  entry : List Byte
  running : Bool := false
  sect : Nat := 0
  input : Option (Nat × Bool) := none
  deriving DecidableEq, Repr

/-- One NVMe controller. -/
structure Ctrl where
  sqs : List Sq := []
  cqs : List Cq := []
  createdIo : Bool := false
  stopped : Bool := false
  shutting : Bool := false
  enAt : Option Nat := none
  arb : Nat := 3
  tempOver : Nat := 0xFFFF
  tempUnder : Nat := 0
  coal : Nat := 0
  coalOff : List Nat := []
  coalCount : List (Nat × Nat) := []
  coalAt : List (Nat × Nat) := []
  aeCfg : Nat := 0
  aers : List Nat := []
  aerWaiting : List (Nat × Nat × Nat) := []
  aerMasked : List Nat := []
  deficit : Nat := 0
  nextSq : Nat := 0
  deriving DecidableEq, Repr

/-- A namespace (R124). `clsGiven` and `slotGiven` are CLASS and KEY_SLOT as Identify Namespace returns them; `cls` and `keySlot` are what they
stand for. -/
structure Namespace where
  present : Bool := false
  attached : Bool := false
  nsze : Nat := 0
  lbaf : Nat := 0
  ext : Bool := false
  dps : Nat := 0
  anagrp : Nat := 1
  owner : Nat := 0
  cls : Nat := 0
  keySlot : Nat := 0
  clsGiven : Nat := 0
  slotGiven : Nat := 0
  deriving DecidableEq, Repr

/-- A change of the namespaces that a Midnight records (R124 to R126); `become` is one that the peer accepted, with the namespace as it then is and
whether every block of it is deallocated. -/
inductive NsChange where
  | create (n : Namespace)
  | delete
  | attach
  | detach
  | format (lbaf dps : Nat) (ext : Bool)
  | become (n : Namespace) (wiped : Bool)
  deriving DecidableEq, Repr

/-- A namespace change accepted and not yet in effect: it is recorded at the Midnight that closes epoch `epoch` and
completes after the Midnight that closes epoch `epoch + 1`. -/
structure PendingNs where
  id : CmdId
  nsid : Nat
  change : NsChange
  epoch : Nat
  deriving DecidableEq, Repr

/-- An entry of the Error Information log (R194). -/
structure ErrEntry where
  count : Nat
  id : CmdId
  status : Status
  lba : Nat
  nsid : Nat
  deriving DecidableEq, Repr

/-- A running self-test (R136): its code, the segment reached, the segments not run, and the first failure. -/
structure SelfTest where
  code : Nat
  step : Nat
  segment : Nat
  notRun : List Nat
  firstFail : Option Nat
  shelf : Nat
  deriving DecidableEq, Repr

/-- An entry of the Device Self-test log: the test's code and result, the first failing segment, the shelf of a failure of segment 8 or 9, and
the segments that did not run (R136, R139). -/
structure TestLog where
  code : Nat
  result : Nat
  segment : Nat
  shelf : Nat
  notRun : List Nat
  deriving DecidableEq, Repr

/-- What R195 withholds while the load breaks a bound of R26. -/
inductive Hold where
  | nothing | writes | reads
  deriving DecidableEq, Repr

/-- The NVMe side of the head: controllers by function, namespaces, commands between fetch and completion, the fetch
engine's place (R114), pending namespace changes, the self-test and its log, and the ANA states being reported. -/
structure Nvm where
  ctrls : List (Nat × Ctrl) := []
  ns : List (Nat × Namespace) := []
  inflight : List Inflight := []
  pendingNs : List PendingNs := []
  hold : Hold := .nothing
  fetchPool : Nat := 0
  fetchFn : Nat := 0
  selfTest : Option SelfTest := none
  selfTestLog : List TestLog := []
  errorLog : List ErrEntry := []
  changedNs : List (Nat × Nat) := []
  ana : List (Nat × Nat) := []
  anaCount : Nat := 0
  anaDue : Option (Nat × List (Nat × Nat)) := none
  suspended : Bool := false
  deriving DecidableEq, Repr

end Sys2Proof.Machine
end

