-- ==== Sys2Proof/Machine/Blocks/Dma.lean ====
section
/-!
DEFINITION. The state of the chain channels of DMA (chapter 14).
-/
namespace Sys2Proof.Machine

/-- The channel states of DMA_CH_STATUS (Table 14-7). -/
inductive ChState where
  | idle | running | waitReq | waitLink | waitDesc | paused | stopped | error
  deriving DecidableEq, Repr

/-- A descriptor as the engine reads it (Table 14-1). -/
structure DmaDesc where
  op : Nat
  flags : Nat
  srcSpace : Nat
  dstSpace : Nat
  line : Nat
  burst : Nat
  paced : Bool
  len : Nat
  src : Nat
  dst : Nat
  reservedBits : Bool
  deriving DecidableEq, Repr

/-- What a running channel is doing: reading a descriptor, performing it, or reading its LINK word again (R460). -/
inductive ChPhase where
  | fetching | moving | linking
  deriving DecidableEq, Repr

/-- A chain channel. `left` is the state PAUSE or a bus stop took it from; `moved` counts the bytes of the descriptor done, `half` that HALF was
raised; `out` are its reads of host memory that have not arrived, `got` those that have and are not used yet; `later` are the codes of the commands
that came while a burst ran (R469). -/
structure DmaChan where
  state : ChState := .idle
  phase : ChPhase := .fetching
  left : ChState := .idle
  dbPending : Bool := false
  diffStop : Bool := false
  space : Nat := 0
  cur : Nat := 0
  remain : Nat := 0
  desc : Option DmaDesc := none
  moved : Nat := 0
  half : Bool := false
  out : List ChRead := []
  got : List ChRead := []
  later : List Nat := []
  deriving DecidableEq, Repr

/-- DMA: the channels, whether a pace tick is held (R466), and when BUS_STOP was set, the host window in force (R458), and the channel that was
served last (R468). -/
structure Dma where
  chans : List (Nat × DmaChan) := []
  tickHeld : Bool := false
  stopAt : Nat := 0
  hwBase : Nat := 0
  hwLen : Nat := 0
  last : Nat := 31
  deriving DecidableEq, Repr

end Sys2Proof.Machine
end

