-- ==== Sys2Proof/Machine/Blocks/Engine.lean ====
section
/-!
DEFINITION. The state of the stream engines and their clusters (chapter 13).
-/
namespace Sys2Proof.Machine

/-- The engine states of SEC_ENG_STATUS (Table 13-20). -/
inductive EngState where
  | notLoaded | running | stalled | waiting | halting | halted | faulted | gated
  deriving DecidableEq, Repr

/-- FLAGS (Table 13-9). -/
structure EFlags where
  z : Bool := false
  m : Bool := false
  k : Bool := false
  v : Bool := false
  dz : Bool := false
  dze : Bool := false
  deriving DecidableEq, Repr

/-- One architectural effect of an instruction; it takes place at its commit (R438). -/
inductive Effect where
  | reg (r : Nat) (v : Word64)
  | flags (f : EFlags)
  | mem (addr : Nat) (bytes : List Byte)
  | dram (addr : Nat) (bytes : List Byte)
  | sys (num : Nat) (v : Word64)
  | leaveHandler
  | release (port entry : Nat)
  deriving DecidableEq, Repr

/-- An outstanding load through the DRAM aperture (R439): destination, DRAM address, size and sign extension. -/
structure DramLoad where
  dest : Nat
  addr : Nat
  size : Nat
  signed : Bool
  deriving DecidableEq, Repr

/-- An entry of the commit queue (R438): its PC and the next PC, the load it waits for, its exception if it raises one, and its
effects. -/
structure QEntry where
  pc : Nat
  next : Nat
  load : Option DramLoad
  exc : Option (Nat × Nat)
  effects : List Effect
  deriving DecidableEq, Repr

/-- The counts in cycles (Table 13-23, CYCLE of Table 13-9). The model holds them with free amounts added (log entry 12). -/
structure Cycles where
  sinceLoad : Nat := 0
  cycles : Nat := 0
  stallDep : Nat := 0
  stallDram : Nat := 0
  stallPort : Nat := 0
  stallAwait : Nat := 0
  idle : Nat := 0
  mispredict : Nat := 0
  deriving DecidableEq, Repr

/-- A stream engine (R424): registers, PC, system registers, memories, the work item in its ECR and the one delivered while it is
busy, the commit queue, the words that stores to IMEM have replaced since the last IFENCE, and the words of which one was fetched
before such a store (R441). -/
structure Eng where
  state : EngState := .gated
  stall : Nat := 0
  pc : Nat := 0
  regs : List (Nat × Word64) := []
  flags : EFlags := {}
  epc : Nat := 0
  ecause : Nat := 0
  eaddr : Nat := 0
  faultCause : Nat := 0
  faultEpc : Nat := 0
  faultAddr : Nat := 0
  etvec : Nat := 0
  inHandler : Bool := false
  instret : Nat := 0
  progId : Nat := 0
  ports : Nat := 0
  entry : Nat := 0
  imem : List Host.Cell := []
  dmem : List Host.Cell := []
  item : Option WorkItem := none
  doneSent : Bool := false
  queued : Option WorkItem := none
  queuedAt : Nat := 0
  queue : List QEntry := []
  stream : Bool := false
  wfwDest : Nat := 0
  stale : List (Nat × Word32) := []
  latched : Option (Nat × List Word32) := none
  cyc : Cycles := {}
  deriving DecidableEq, Repr

/-- How far a job of a port has come (R449 to R451). -/
inductive JobState where
  | held | committed | ended
  deriving DecidableEq, Repr

/-- A job of an accelerator port: ticket fields, engine, class, the unit's handle, the result area in DMEM, WORK_ID, and its
STATUS once it has ended; `windows` are those open at its commit (R427); `body` is what a CAT or CTL job holds until then. -/
structure PortJob where
  port : Nat
  entry : Nat
  seq : Nat
  eng : Nat
  cls : Nat
  handle : Nat
  resAddr : Nat
  workId : Nat
  state : JobState
  status : Nat := 0
  windows : List Window := []
  body : List Byte := []
  deriving DecidableEq, Repr

/-- An entry of the cancel log (Table 13-22). -/
structure CLogEntry where
  phase : Nat
  engine : Nat
  cls : Nat
  ticket : Nat
  workId : Nat
  nonce : Nat
  deriving DecidableEq, Repr

/-- The cluster states of SEC_CL_STATUS (Table 13-19). -/
inductive ClState where
  | spare | inService | quiescing | offline | failed
  deriving DecidableEq, Repr

/-- A cluster: state, jobs of its ports, the ticket sequence of each port entry, the cancel log, and the times of its
engines' faults (R444); `hostDrain` says that an OFFLINE command drains it, `drainAt` when its draining began, and `drainTmo` the
KCF_QUIESCE_TMO of that drain (R67). -/
structure Clus where
  state : ClState := .spare
  jobs : List PortJob := []
  seqs : List (Nat × Nat) := []
  clog : List (Nat × CLogEntry) := []
  clogTail : Nat := 0
  clogPhase : Nat := 1
  clogFull : Bool := false
  faultTimes : List Nat := []
  hostDrain : Bool := false
  drainAt : Nat := 0
  drainTmo : Nat := 0
  deriving DecidableEq, Repr

/-- The stream engines: clusters by number, engines by cluster × 8 + engine, and the items that wait for an engine. -/
structure Sec where
  clusters : List (Nat × Clus) := []
  engs : List (Nat × Eng) := []
  waiting : List WorkItem := []
  deriving DecidableEq, Repr

end Sys2Proof.Machine
end

