-- ==== Sys2Proof/Machine/Blocks/Evr.lean ====
section
/-!
DEFINITION. The state of the event recorder (chapter 19).
-/
namespace Sys2Proof.Machine

/-- An event record (Table 19-1). `source` is the block whose event it is, for R579. -/
structure EvRecord where
  kind : Nat := 0
  overflow : Bool := false
  severity : Nat := 0
  code : Nat := 0
  index : Nat := 0
  coalesced : Nat := 0
  seq : Nat := 0
  phase : Nat := 0
  time : Nat := 0
  epoch : Nat := 0
  arg0 : Nat := 0
  arg1 : Nat := 0
  arg2 : Nat := 0
  arg3 : Nat := 0
  deriving DecidableEq, Repr

/-- The token bucket and suppression stretch of one event code (R580 to R582). `spent` is what is missing from a full bucket, in tokens times 10^9, so that
a rate of RATE tokens per second adds RATE for each ns. `set` says that software has written RATE or BURST; until then both
are the defaults of Table 19-3. -/
structure Bucket where
  set : Bool := false
  rate : Nat := 0
  burst : Nat := 0
  spent : Nat := 0
  stamp : Nat := 0
  stretch : Bool := false
  periodStart : Nat := 0
  suppressed : Nat := 0
  firstTime : Nat := 0
  lastTime : Nat := 0
  lastIndex : Nat := 0
  deriving DecidableEq, Repr

/-- The event recorder: its SRAM slots, the damaged ones, the records in transit (R579), the hold queue of a freeze
(R578), the export FIFO (R583), the fallback store (R587), the buckets, and the counts behind its interrupts. -/
structure Evr where
  slots : List (Nat × Option EvRecord) := []
  damaged : List Nat := []
  cUsed : Nat := 0
  cPhase : Nat := 1
  transit : List EvRecord := []
  hold : List EvRecord := []
  holdLost : Nat := 0
  freezeAt : Nat := 0
  exportFifo : List EvRecord := []
  fallback : List (Nat × Option EvRecord) := []
  buckets : List (Nat × Bucket) := []
  newCount : Nat := 0
  ceTimes : List Nat := []
  deriving DecidableEq, Repr

end Sys2Proof.Machine
end

