-- ==== Sys2Proof/Machine/Blocks/Fabric.lean ====
section
/-!
DEFINITION. The state of the shelf fabric: each string, its hub, and the attachments at both ends (chapter 11).
-/
namespace Sys2Proof.Machine

/-- One end of a head-bridge session (R357, R368 to R370): the keys that it sends and receives under, sending window, expected SEQ, transmit
counts, the next OPID, what waits to be sent (OPID and payload), and the media operations under way (OPID and tag). -/
structure LinkEnd where
  session : Nat := 0
  txKey : Nat := 0
  rxKey : Nat := 0
  nextSeq : Nat := 0
  unacked : List (Nat × Nat × StrFrame) := []
  sentAt : Nat := 0
  expect : Nat := 0
  ackOwed : Bool := false
  txc : Nat := 1
  rxTxc : Nat := 0
  nextOpid : Nat := 0
  keepOpid : Bool := false
  queue : List (Nat × StrPayload) := []
  ops : List (Nat × Nat) := []
  deriving DecidableEq, Repr

/-- A reply a bridge keeps for a head (R370): `reply` is none while the operation is in progress. -/
structure ReplySlot where
  opid : Nat
  req : MediaReq
  reply : Option StrPayload
  deriving DecidableEq, Repr

/-- A bridge (R308, R354, R358, R361 to R384): whether it is there, its ends towards heads 8 and 9, reply tables, string keys by generation, the
highest TXC of the beacons accepted under each key (by keygen × 2 and the head's position), the ownership generation it follows, fences, parking,
holdover, when a beacon was last accepted, contention with the time up to which it waits (R367), and the grant maps of this cycle and the next. -/
structure Bridge where
  present : Bool := false
  arrayTag : Nat := 0
  fp : Nat := 0
  end8 : LinkEnd := {}
  end9 : LinkEnd := {}
  table8 : List ReplySlot := []
  table9 : List ReplySlot := []
  keygen : Nat := 0
  key : Nat := 0
  prevKeygen : Nat := 0
  prevKey : Nat := 0
  prevUntil : Nat := 0
  beaconSeen : List (Nat × Nat) := []
  ownerGen : Nat := 0
  fence8 : Bool := false
  fence9 : Bool := false
  badTags : Nat := 0
  missed : Nat := 0
  beaconAt : Nat := 0
  holdover : Bool := false
  holdAt : Nat := 0
  parked : Bool := false
  nandOff : Bool := false
  parkBy : Nat := 0
  wakeSeen : Nat := 0
  quarantined : Bool := false
  tries : Nat := 0
  backoff : Option Nat := none
  slotUsed : Nat := 0
  contending : Option (Nat × Nat) := none
  toneAt : Option Nat := none
  grants : List Nat := []
  nextGrants : List Nat := []
  gotBeacon : Bool := false
  deriving DecidableEq, Repr

/-- An enrolment in progress (R375, R376): since when, and since when a response is awaited. -/
structure Enrolling where
  pos : Nat
  since : Nat
  askedAt : Nat
  step : Nat
  rootOk : Bool := false
  fp : Nat := 0
  deriving DecidableEq, Repr

/-- What a head knows of the bridge at a position: the state ISF_STR_BINFO shows, its end of the session, the cached
certificate digest, and when it last gave a sign of life. -/
structure BridgeView where
  state : Nat := 0
  lend : LinkEnd := {}
  fp : Nat := 0
  cachedDigest : Nat := 0
  quarantineAt : Nat := 0
  lastSession : Nat := 0
  silentCycles : Nat := 0
  demand : Nat := 0
  deficit : Nat := 0
  keysPending : Bool := false
  collisions : List Nat := []
  deriving DecidableEq, Repr

/-- A string (R353 to R364): the grant maps in force and next, beacon flags, quarantine and wake lists, the enrolment
queue, the hub's output, both sides' views, when the peer's SOS or beacon was last seen (R416), and the background operations put into frames in the present cycle, by their use (R303, R328, R335). -/
structure Strg where
  slot : Nat := 0
  grants : List Nat := []
  nextGrants : List Nat := []
  views : List (Nat × BridgeView) := []
  bridges : List (Nat × Bridge) := []
  pf : Bool := false
  fence8 : Bool := false
  fence9 : Bool := false
  release : Bool := false
  releaseIn : Nat := 0
  wakeList : List Nat := []
  quarantine : List Nat := []
  cack1 : Nat := 15
  cack2 : Nat := 15
  peerDemand : Nat := 0
  peerEnd : LinkEnd := {}
  enrolQueue : List Nat := []
  enrolling : Option Enrolling := none
  key : Nat := 0
  nextKey : Option (Nat × Nat) := none
  beaconTxc : Nat := 0
  rxBeaconTxc : Nat := 0
  beacons : Nat := 0
  lastBeaconAt : Nat := 0
  beaconing : Bool := false
  missedBeacons : Nat := 0
  uncorrWindow : Nat := 0
  uncorrSecond : Nat := 0
  trained : List Nat := []
  hubOut : HubOut := .idle
  loopPs : Nat := 0
  outAt : Option Nat := none
  fenceCycles : Nat := 0
  peerSeen : Option Nat := none
  spent : List (Nat × Nat) := []
  deriving DecidableEq, Repr

/-- The shelf fabric: the strings by number. -/
structure Isf where
  strings : List (Nat × Strg) := []
  deriving DecidableEq, Repr

end Sys2Proof.Machine
end

