-- ==== Sys2Proof/Machine/Blocks/Ingest.lean ====
section
/-!
DEFINITION. The state of the ingest and retrieval paths: write buffer, segments, chunks, open stripes, the power-fail
journal and its vault regions, reads in progress and the cohort switch (chapters 5 and 6).
-/
namespace Sys2Proof.Machine

/-- A 64-block piece of a write (R130): the blocks of it that are placed, the journal record of its map record once appended, and
whether an uncorrectable error lost its data (R492). -/
structure Piece where
  index : Nat
  slba : Nat
  blocks : Nat
  placed : Nat := 0
  mapRsn : Option Nat := none
  durable : Bool := false
  lost : Bool := false
  deriving DecidableEq, Repr

/-- A buffered write (R142): whose it is (`own` false: a mirror of the peer's, R143), where its bytes lie, and how far
it has come: arrived, checked, mirrored, covered by the journal, completed, and exposed until programmed (R146, R166); `gone` says that its
namespace has been deleted or formatted since, so that its blocks are deallocated (R126). -/
structure WrBuf where
  wid : Nat
  id : CmdId
  own : Bool
  fn : Nat
  nsid : Nat
  slba : Nat
  nlb : Nat
  base : Nat
  bytes : Nat
  mbase : Nat
  ext : Bool
  metaBytes : Nat
  pr : PrInfo
  cls : Nat
  keyGen : Nat
  zeroes : Bool
  deac : Bool := false
  arrived : Bool := false
  passed : Bool := false
  mirrored : Bool := false
  journalled : Bool := false
  completed : Option Nat := none
  exposed : Bool := false
  gone : Bool := false
  pieces : List Piece := []
  deriving DecidableEq, Repr

/-- A tag run (Table 5-4). -/
structure TagRun where
  lba : Nat
  mode : Nat
  count : Nat
  refBase : Nat
  appTag : Nat
  deriving DecidableEq, Repr

/-- An open segment (R155): its namespace, the next LBA, the first LBA and blocks of its open chunk, when it was last appended to, the place of
that append among all appends, and that of the first block of its open chunk (R157). -/
structure Segment where
  id : Nat
  nsid : Nat
  next : Nat
  chunkLba : Nat
  chunkBlocks : Nat
  lastAppend : Nat
  wids : List Nat
  order : Nat := 0
  since : Nat := 0
  deriving DecidableEq, Repr

/-- What the dedup decision gave for a chunk (R159, R205). -/
inductive ChunkAnswer where
  | undecided
  | unique
  | duplicate (locator : Nat) (provisional : Bool)
  deriving DecidableEq, Repr

/-- A cut chunk on its way to flash; `asked` is the epoch of its lookup (R219). -/
structure Chunk where
  id : Nat
  nsid : Nat
  slba : Nat
  blocks : Nat
  cls : Nat
  dom : Nat
  fp : Nat
  wids : List Nat
  answer : ChunkAnswer := .undecided
  cipherJob : Option Nat := none
  packed : Option (Nat × Nat) := none
  programmed : Bool := false
  asked : Nat := 0
  deriving DecidableEq, Repr

/-- An open stripe (R163): its SEID, class, extents with the bytes used in each, when its first record was packed, its cohort, and
whether a reshape writes it beside the old layout (R341). -/
structure OpenStripe where
  seid : Nat
  cls : Nat
  extent : Nat
  used : Nat
  extents : Nat
  firstAt : Option Nat
  bufs : List Nat
  cohort : Nat
  shadow : Bool
  deriving DecidableEq, Repr

/-- What a journal record holds (R168). -/
inductive JKind where
  | map (wid piece : Nat)
  | catalogue (wid piece : Nat)
  | nsChange (nsid : Nat)
  | agreement
  | data (wid : Nat)
  | cursor
  | answered (fps : List (Nat × Nat))
  | other
  deriving DecidableEq, Repr

/-- A journal record: its 32-bit record number, the epoch it carries and its SHA-256 (R169), and which vault regions hold it. -/
structure JRec where
  rsn : Nat
  epoch : Nat
  kind : JKind
  bytes : Nat
  sha : Nat := 0
  vault0 : Bool := false
  vault1 : Bool := false
  durable : Bool := false
  deriving DecidableEq, Repr

/-- What a vault image is marked with (R149, R171, R172, R503). -/
inductive VaultMark where
  | live | sealed | superseded | closed
  deriving DecidableEq, Repr

/-- A data record of the vault (R169): the write it covers, its data and separate metadata, and the vault region that holds it (Table 5-6). -/
structure VaultWrite where
  write : WrBuf
  data : List Byte
  mdata : List Byte
  region : Nat := 0
  deriving DecidableEq, Repr

/-- The vault image of this head on the catalogue shelves, as its key opens it (R169); its seal: the epoch, the count of the flushed records and
their SHA-256 (Table 5-6); `withPeer` says that the peer was in service when it was sealed, and may since have superseded it (R149). -/
structure Vault where
  mark : VaultMark := .superseded
  recs : List JRec := []
  writes : List VaultWrite := []
  sealEpoch : Nat := 0
  count : Nat := 0
  sha : Nat := 0
  key : Option Nat := none
  withPeer : Bool := false
  deriving DecidableEq, Repr

/-- The source of one block of a read (Table 6-1); `zeroed` blocks were written by Write Zeroes with DEAC 0. A stored block names its record and the
block's place in the record's chunk. -/
inductive BlockSrc where
  | buffer (wid : Nat)
  | deallocated
  | zeroed
  | lost
  | stored (locator skip : Nat)
  deriving DecidableEq, Repr

/-- A page that a read has asked for (R182, R186): the strip and page of it, where it lies, and what it gave: 0 not yet answered, 1 good, 2 bad, 3 not
to be had for the moment only (R330). -/
structure FetchPage where
  strip : Nat
  page : Nat
  shelf : Nat := 0
  ppa : Nat := 0
  state : Nat := 0
  data : List Byte := []
  deriving DecidableEq, Repr

/-- How far the fetch of a record has come: pages are read; its tag verifies; its plaintext is there; or it failed with a status (R185 to R190). -/
inductive RecState where
  | reading | verified | ready
  | failed (sct sc : Nat)
  deriving DecidableEq, Repr

/-- A record that reads wait for (R176, R185): its place, what its header must say (R188), the attempt of Table 6-4, the order of a mirror's copies,
whether attempt 1 met a bad page, whether some attempt obtained its pages and whether a page is not to be had for the moment only; its pages; and,
as far as it has come, its bytes, the frame they decrypt to and the plaintext. -/
structure RecFetch where
  locator : Nat
  dom : Nat
  strip : Nat
  ofs : Nat
  bytes : Nat
  blocks : Nat
  order : List Nat := []
  attempt : Nat := 0
  mixed : Bool := false
  obtained : Bool := false
  absent : Bool := false
  pages : List FetchPage := []
  state : RecState := .reading
  record : List Byte := []
  frame : List Byte := []
  plain : List Byte := []
  deriving DecidableEq, Repr

/-- A Read or Verify in progress: the source of each block, the cohort it waits for, and whether its strips were fetched again (R492). -/
structure ReadCmd where
  id : CmdId
  nsid : Nat
  slba : Nat
  nlb : Nat
  pr : PrInfo
  verify : Bool
  form : CmdForm
  srcs : List BlockSrc
  waits : Option Nat
  stamp : Nat
  failed : List (Nat × Nat × Nat) := []
  refetched : Bool := false
  deriving DecidableEq, Repr

/-- What a command's buffer is looked up for: the data of a write, the data of another command (R120), or bytes to send, each span with its offset in the buffer, with the status
that then ends the command, the log page that has been read, and whether the command is a Read (Table 3-6). -/
inductive WalkGoal where
  | write
  | input
  | send (spans : List (Nat × List Byte)) (st : Status) (page : Option Nat) (rd : Bool)
  deriving DecidableEq, Repr

/-- A PRP list or an SGL being read (R91): the memory page, the pieces found and how many bytes they must come to, the metadata that follows; where
the list goes on, the bytes left of a segment and whether it is the last one; the buffer its bytes arrive in; the pieces once all are found. -/
structure ListWalk where
  id : CmdId
  goal : WalkGoal
  form : CmdForm
  page : Nat
  found : HostBuf := []
  want : Nat
  mlen : Nat
  sgl : Bool := false
  addr : Nat := 0
  rest : Nat := 0
  last : Bool := false
  slot : Nat := 0
  ready : Bool := false
  deriving DecidableEq, Repr

/-- The parts of a cohort switch (Table 6-3). -/
inductive SwitchPart where
  | none | gather | sleep | wake
  deriving DecidableEq, Repr

/-- The data path's state: buffered writes, segments, chunks, stripes, the journal and the vault, the reads, the flush,
the records that reads fetch, and the cohort switch: its part, target, moments, the cohorts in Sleep, and those of them that no longer show in the
heartbeat (R509). -/
structure Ingest where
  nextWid : Nat := 1
  writes : List WrBuf := []
  ownUsed : Nat := 0
  peerUsed : Nat := 0
  segs : List Segment := []
  nextSeg : Nat := 1
  appends : Nat := 0
  chunks : List Chunk := []
  nextChunk : Nat := 1
  stripes : List OpenStripe := []
  blocked : List Nat := []
  nextRsn : Nat := 1
  journal : List JRec := []
  vault : Vault := {}
  peerVaultSuperseded : Bool := false
  cat0Up : Bool := true
  cat1Up : Bool := true
  fetchStopped : Bool := false
  noCompletions : Bool := false
  flushStart : Option Nat := none
  flushSealed : Bool := false
  reads : List ReadCmd := []
  fetches : List RecFetch := []
  walks : List ListWalk := []
  tagRuns : List (Nat × TagRun) := []
  part : SwitchPart := .none
  target : Nat := 0
  awakeSince : Nat := 0
  gatherAt : Nat := 0
  sleeping : List Nat := []
  closing : List Nat := []
  postSeq : Nat := 0
  deriving DecidableEq, Repr

end Sys2Proof.Machine
end

