-- ==== Sys2Proof/Machine/Blocks/Flash.lean ====
section
/-!
DEFINITION. The state of flash translation and redundancy, and of the shelves' NAND behind their bridges (chapters 9
and 10).
-/
namespace Sys2Proof.Machine

/-- A page as the NAND holds it: its header and its data; `bad` pages no longer decode, `corr` is the corrected-bit count a read
reports. -/
structure NandPage where
  hdr : PageHdr
  data : List Byte
  bad : Bool := false
  corr : Nat := 0
  deriving DecidableEq, Repr

/-- An erase block: erase count, next page to program, and state (0 good, 1 retired, 2 factory bad). -/
structure NandBlock where
  erases : Nat := 0
  next : Nat := 0
  state : Nat := 0
  suspect : Bool := false
  fails : Nat := 0
  deriving DecidableEq, Repr

/-- A root pointer slot (Table 9-8). -/
structure RootSlot where
  ppa : Nat := 0
  seq : Nat := 0
  valid : Bool := false
  deriving DecidableEq, Repr

/-- A reply of Table 9-8 as a bridge gives it: operation, status, corrected bits, header, data, and its numbers in the table's order. -/
structure NandReply where
  op : Nat
  status : Nat
  corr : Nat := 0
  hdr : Option PageHdr := none
  data : List Byte := []
  vals : List Nat := []
  deriving DecidableEq, Repr

/-- A shelf's NAND as its bridge serves it (R307, R308), and its last reply. Pages and blocks are keyed by PPA. -/
structure Nand where
  geo : Geometry := {}
  pages : List (Nat × Option NandPage) := []
  blocks : List (Nat × NandBlock) := []
  root0 : RootSlot := {}
  root1 : RootSlot := {}
  lastSeq0 : Nat := 0
  lastSeq1 : Nat := 0
  reply : Option NandReply := none
  deriving DecidableEq, Repr

/-- A shelf-map entry (Table 9-4). -/
inductive MapEnt where
  | free
  | coarse (extLog2 band bpage seqTag : Nat)
  | grained (extLog2 : Nat) (grains : List (Nat × Nat × Nat × Nat))
  | zero (extLog2 : Nat)
  deriving DecidableEq, Repr

/-- A band (R272): state 0 free, 1 open, 2 closed, 3 reclaiming; its blocks, next page, live pages, the head that fills it, what it takes: 0 data,
1 relocated pages, 2 metadata; and what its summary will say of the pages programmed (R273): band page, LA, FLAGS, SEQ. -/
structure Band where
  state : Nat := 0
  blocks : List Nat := []
  next : Nat := 0
  live : Nat := 0
  head : Nat := 0
  kind : Nat := 0
  eraseAt : Option Nat := none
  log : List (Nat × Nat × Nat × Nat) := []
  deriving DecidableEq, Repr

/-- What FTM knows of a shelf: its state (FTM_SHELF_INFO), maps, bands, counters, when it left service (R324), and the times of
its first WAKE_LIST bit and of its PARK. -/
structure ShelfInfo where
  state : Nat := 0
  spareLow : Bool := false
  retired : Nat := 0
  wearPct : Nat := 0
  maxSeq : Nat := 0
  seqCtr : Nat := 0
  map : List (Nat × MapEnt) := []
  bands : List (Nat × Band) := []
  dirty : List (Nat × Nat) := []
  scanDone : Nat := 0
  scanTotal : Nat := 0
  absentSince : Option Nat := none
  rebuilding : Bool := false
  rootSeq : Nat := 0
  wakeAt : Option Nat := none
  parkAt : Option Nat := none
  geo : Geometry := {}
  deriving DecidableEq, Repr

/-- A record of a stripe (R300) with its place: live flag as the record table codes it, offset and bytes, and its fingerprint. -/
structure RecEnt where
  strip : Nat
  ofs : Nat
  bytes : Nat
  live : Nat
  fp : Nat
  dom : Nat := 0
  blocks : Nat := 0
  lost : Bool := false
  deriving DecidableEq, Repr

/-- A stripe-table entry (Table 10-2), with its record table, and the extent buffers that are kept until every strip is programmed (R315). -/
structure StripeEnt where
  cohort : Nat
  seid : Nat
  cls : Nat
  state : Nat
  missing : Nat := 0
  live : Nat := 0
  map : List Nat := []
  sealEpoch : Nat := 0
  lost : Bool := false
  shadow : Bool := false
  recs : List RecEnt := []
  stripsLeft : Nat := 0
  freeAt : Option Nat := none
  compacting : Bool := false
  bufs : List Nat := []
  deriving DecidableEq, Repr

/-- A placement entry (Table 9-5), with its namespace and window. -/
structure PlaceEnt where
  nsid : Nat
  window : Nat
  start : Nat
  count : Nat
  skip : Nat
  origin : Nat
  locator : Nat
  deriving DecidableEq, Repr

/-- What a deferred log holds for a sleeping cohort (R284). -/
inductive Deferred where
  | trim (nsid lba : Nat)
  | insert (e : PlaceEnt)
  deriving DecidableEq, Repr

/-- A lost-table entry (Table 10-8). -/
structure LostEnt where
  kind : Nat
  cohort : Nat := 0
  strip : Nat := 0
  cause : Nat
  id : Nat
  firstPage : Nat := 0
  count : Nat := 0
  blocks : Nat := 0
  firstLba : Nat := 0
  epoch : Nat := 0
  deriving DecidableEq, Repr

/-- A media operation queued or in flight on a string (R307, R309). -/
structure MediaOp where
  tag : Nat
  shelf : Nat
  op : MediaReq
  sentAt : Nat
  resent : Bool := false
  retry : Nat := 0
  use : Nat := 0
  deriving DecidableEq, Repr

/-- A map record waiting for its Midnight (R283): a piece's placements and tag runs; records moved from one locator to another (R301,
R342); a strip rebuilt (R327: cohort, SEID, strip, string). -/
structure MapRec where
  rsn : Nat
  epoch : Nat
  fromPeer : Bool
  nsid : Nat
  slba : Nat
  blocks : Nat
  places : List PlaceEnt
  codes : Nat
  tags : List TagRun
  gone : Bool := false
  moves : List (Nat × Nat) := []
  rebuilt : Option (Nat × Nat × Nat × Nat) := none
  deriving DecidableEq, Repr

/-- FTM: the control fields in force since the last Midnight (R310), the shelves, stripes, placement maps, cohort index
(namespace × 2^44 + LBA), deferred logs, map records, media operations, cohorts asked for with the moment and rank of asking,
and records copied whose new stripe is not yet programmed (old locator, new locator, and what moves them: 0 compaction, 1 a
reshape with a moving boundary, 2 one beside). `deferShut` lists the cohorts whose deferred log has reached its cap and not fallen below 90 % of it
since (R622), `promoted` the extents promoted, oldest first, and `shedding` says that the grain tables have reached their limit and not fallen below
90 % of it since (R278). -/
structure Ftm where
  inForce : List (Nat × Nat) := []
  nand : List (Nat × Nand) := []
  shelves : List (Nat × ShelfInfo) := []
  stripes : List StripeEnt := []
  places : List PlaceEnt := []
  index : List (Nat × Nat) := []
  deferred : List (Nat × List Deferred) := []
  mapRecs : List MapRec := []
  ops : List MediaOp := []
  nextOp : Nat := 1
  ingestRecorded : Option Nat := none
  switchWanted : List (Nat × Nat × Nat) := []
  copies : List (Nat × Nat × Nat) := []
  deferShut : List Nat := []
  promoted : List (Nat × Nat) := []
  shedding : Bool := false
  deriving DecidableEq, Repr

/-- An RDE job (Table 10-4) with its issuer. -/
structure RdeJob where
  handle : Nat
  op : Nat
  desc : RdeDesc
  pool : Nat
  engine : Option Nat
  ticket : Nat
  unit : Option Nat := none
  held : Bool := false
  cancelled : Bool := false
  deriving DecidableEq, Repr

/-- A reshape in progress (R339): its arguments, mode, the highest SEID and the stripes of the batch being moved, the
shadow placements of the beside mode, and its switch epoch. -/
structure Reshape where
  scope : Nat
  mode : Nat
  src : Nat
  dst : Nat
  cls : Nat
  shelf : Nat
  nsid : Nat
  batch : Nat
  opid : Nat
  running : Bool := false
  top : Option Nat := none
  count : Nat := 0
  shadow : List (PlaceEnt × Nat) := []
  lostLeft : Bool := false
  switchAt : Option Nat := none
  deriving DecidableEq, Repr

/-- RDE: units in service, the control fields in force since the last Midnight (R345), jobs and results, the lost table,
repairs reported, scrub cursors and last passes, reshape, and the cohorts between which a rebuild evacuates stripes (R325). -/
structure Rde where
  inForce : List (Nat × Nat) := []
  up : List Nat := []
  failing : List Nat := []
  jobs : List RdeJob := []
  results : List JobResult := []
  nextHandle : Nat := 1
  deficit : List (Nat × Nat) := []
  lost : List LostEnt := []
  repairs : List (Nat × Nat × Nat) := []
  scrub : List (Nat × Nat × Nat) := []
  scrubActive : List Nat := []
  lostWarned : Bool := false
  reshape : Option Reshape := none
  evac : Option (Nat × Nat) := none
  deriving DecidableEq, Repr

end Sys2Proof.Machine
end

