-- ==== Sys2Proof/Machine/Blocks/Memory.lean ====
section
/-!
DEFINITION. The state of the DRAM channels and the system cache (chapter 15). DRAM's bytes themselves are the chip's field `dram`.
-/
namespace Sys2Proof.Machine

/-- A line of the system cache (R484, R486): line number (address / 64), way, dirty and poison bits, presence bits as the list
of cores, the core that may hold it dirty, whether it was prefetched and not yet hit, and its data. -/
structure CLine where
  line : Nat
  way : Nat
  dirty : Bool := false
  poison : Bool := false
  cores : List Nat := []
  owner : Option Nat := none
  prefetched : Bool := false
  data : List Byte := []
  deriving DecidableEq, Repr

/-- A snoop outstanding to a core, with the request that waits for it (R487). -/
structure Snoop where
  line : Nat
  core : Nat
  who : MemAgent
  acc : MemAccess
  ofs : Nat
  answered : Bool := false
  deriving DecidableEq, Repr

/-- An entry of the eviction buffer (R488). -/
structure Evicted where
  line : Nat
  poison : Bool
  data : List Byte
  deriving DecidableEq, Repr

/-- Memory: installed GiB, whether memory is open (Table 15-1), poisoned DRAM lines, corrected errors by channel and time, the
cache sets (each most recently used line first), the eviction buffer, outstanding snoops, uncorrectable cache errors by way
and time, the way being swept and whether a command of MEM_WAY_CMD sweeps it, the time from which the canaries are made (R480), the line that patrol scrub
reads next (R493), the DIMM identities recorded before Night, and the last data given to a requester with its poison mark. -/
structure MemB where
  gib : Nat := 0
  opened : Bool := false
  contentKept : Bool := false
  poisoned : List Nat := []
  ceTimes : List (Nat × Nat) := []
  sets : List (Nat × List CLine) := []
  evict : List Evicted := []
  snoops : List Snoop := []
  ueTimes : List (Nat × Nat) := []
  sweeping : Option Nat := none
  sweepCmd : Bool := false
  dimms : List DimmId := []
  canary : Nat := 0
  scrubAt : Nat := 0
  selfRefresh : Bool := false
  reply : Option (Bool × List Byte) := none
  deriving DecidableEq, Repr

end Sys2Proof.Machine
end

