-- ==== Sys2Proof/Machine/Blocks/Peer.lean ====
section
/-!
DEFINITION. The state of the peer link (chapter 12): delivery, agreements, granules, epochs, and the loss and return of the peer.
-/
namespace Sys2Proof.Machine

/-- The payload of a peer-link frame, as the delivery rules keep it for retransmission (R394); `recImage` is a REC as it is received. -/
inductive PeerMsg where
  | hello (m : HelloMsg)
  | notice (kind strings time : Nat)
  | mnSync (time epoch : Nat) (shift : Int)
  | record (rsn epoch : Nat) (kind : JKind)
  | mnClose (epoch count lastSeq digest effective : Nat)
  | mnConfirm (epoch digest : Nat)
  | propose (p : Proposal) (stamp : Nat)
  | answer (res : AnswerRes)
  | commit (proposal kind : Nat)
  | done (proposal status : Nat)
  | lease (m : LeaseMsg)
  | walk (m : WalkMsg)
  | state (m : StateMsg)
  | mirrorData (wid ofs : Nat) (data : List Byte)
  | mirrorEnd (wid tenant nsid slba nlb len : Nat)
  | mirrorDrop (wid : Nat)
  | hb (tx echoTx echoRx : Nat) (st : HbState)
  | ack (acks wins : List Nat) (nak : Nat)
  | recImage (image : List Byte)
  | fwReq (floor awg : Nat) (empty : Bool)
  | fwData (ofs : Nat) (data : List Byte)
  | fwEnd (length serial : Nat)
  deriving DecidableEq, Repr

/-- A sequenced frame not yet acknowledged: its SEQ, how often it has been sent, its OPID and payload. -/
structure SentFrame where
  seq : Nat
  sends : Nat
  opid : Nat
  msg : PeerMsg
  deriving DecidableEq, Repr

/-- One channel of the link (R392 to R394): next SEQ, unacknowledged frames oldest first, when an acknowledgement last
advanced or the oldest frame was sent, the peer's last WIN, the next SEQ expected, whether E waits to be carried, and the E a NAK was sent for. -/
structure Channel where
  nextSeq : Nat := 0
  unacked : List SentFrame := []
  waiting : List (Nat × PeerMsg) := []
  sentAt : Nat := 0
  win : Nat := 4096
  expect : Nat := 0
  ackOwed : Bool := false
  nakSent : Option Nat := none
  deriving DecidableEq, Repr

/-- A request sent and not answered (R395). -/
structure OpenReq where
  opid : Nat
  msg : PeerMsg
  sentAt : Nat
  deriving DecidableEq, Repr

/-- A response kept for the peer (R395); `reply` is none while the request is in progress. -/
structure KeptReply where
  opid : Nat
  reply : Option PeerMsg
  deriving DecidableEq, Repr

/-- A proposal: whose OPID, its body and stamp, when it was sent or accepted, whether accepted, and whether COMMIT was sent. -/
structure Agreement where
  opid : Nat
  body : Proposal
  stamp : Nat
  at_ : Nat
  accepted : Bool := false
  committed : Bool := false
  deriving DecidableEq, Repr

/-- A granule of the write buffer (R402, R403): whether this head holds it, the bytes allocated in it, and the tenant a reserve
granule was granted for. -/
structure Granule where
  mine : Bool := false
  used : Nat := 0
  live : Nat := 0
  deriving DecidableEq, Repr

/-- One epoch's exchange (R409): the peer's records held, with their bytes in order, MN_CLOSE received, MN_CONFIRM sent and received, and
whether its own MN_CLOSE was sent, with which digest; `mismatches` counts failed checks, and `opened` says that the peer was in service
when the epoch opened, so that the Midnight that closes it needs the peer. -/
structure EpochEx where
  epoch : Nat
  recs : List (Nat × RecBody) := []
  image : List Byte := []
  closeSent : Bool := false
  sentDigest : Nat := 0
  effective : Nat := 0
  confirmSent : Bool := false
  confirmed : Bool := false
  mismatches : Nat := 0
  completed : Bool := false
  opened : Bool := false
  late : Bool := false
  deriving DecidableEq, Repr

/-- The states of HELLO and HB (Table 12-12). -/
inductive PeerState where
  | alone | inService | sole | yielded | joining | loader
  deriving DecidableEq, Repr

/-- How far a readmission has come (Table 12-8), on either side: the admission epoch, STATE sent or adopted, and served. -/
structure Rejoin where
  survivor : Bool
  stateDone : Bool := false
  admitAt : Option Nat := none
  admitted : Bool := false
  deriving DecidableEq, Repr

/-- The peer link, with the keys of its session for either direction (R391). `anchorPeer` says that the schedule's anchor lies on the peer's GLB_TIME axis (R406), and `awgDue` is the epoch whose
Midnight raises AWG, and to what (R566). -/
structure Zbl where
  session : Nat := 0
  txKey : Nat := 0
  rxKey : Nat := 0
  txc : Nat := 0
  rxTxc : Nat := 0
  chC : Channel := {}
  chM : Channel := {}
  chB : Channel := {}
  nextOpid : Nat := 1
  requests : List OpenReq := []
  kept : List KeptReply := []
  rxOpid : Nat := 0
  proposals : List Agreement := []
  accepted : List Agreement := []
  withdrawn : List Agreement := []
  helloSent : Bool := false
  helloDone : Bool := false
  peer : Option HelloMsg := none
  state : PeerState := .alone
  pairEpoch : Option Nat := none
  hbTxAt : Nat := 0
  lastHbTx : Nat := 0
  lastHbRx : Nat := 0
  peerHb : Option HbState := none
  lapsed : Bool := false
  pfailSeen : Bool := false
  departed : Bool := false
  anchorTime : Nat := 0
  anchorEpoch : Nat := 0
  movedAt : Option (Nat × Nat) := none
  msyncUsedEpoch : Option Nat := none
  epochs : List EpochEx := []
  granules : List (Nat × Granule) := []
  total : Nat := 0
  reserve : Nat := 0
  keeper : Bool := false
  leaseOut : Bool := false
  widCount : Nat := 1
  fencing : Bool := false
  rejoin : Option Rejoin := none
  lastTone : Nat := 0
  retryAt : Nat := 0
  training : Bool := false
  failedQuads : List Nat := []
  bandLeases : List (Nat × Nat × Nat) := []
  anchorPeer : Bool := false
  awgDue : Option (Nat × Nat) := none
  deriving DecidableEq, Repr

end Sys2Proof.Machine
end

