-- ==== Sys2Proof/Machine/Blocks/Pwr.lean ====
section
/-!
DEFINITION. The power states, the pins and the Nightwatch domain (chapters 16 and 20).
-/
namespace Sys2Proof.Machine

/-- The head's states (Table 16-1), with the two in which no state of the table runs: cold reset before the crystal
runs (R602), and a head that holds itself in reset (R517, R592, R605, R554, step 8 of Table 5-6). -/
inductive PMode where
  | coldReset | dawn | day | dusk | night | held
  deriving DecidableEq, Repr

/-- Why a head holds itself in reset. -/
inductive HoldCause where
  | none | trip | faults | pwrgd | rom | flushed
  deriving DecidableEq, Repr

/-- The power manager, its pins and the Nightwatch domain. Pins are true when high. `sampled` says that HEAD_SEL has been sampled since the cold
reset, `nightTicks` and `nightExtra` count the ticks of a group of 64 and those that added 1 (R28), `wokeAt` is when a wake source began the Dawn (R498), `reqFell` when PWR_REQ fell at the entry
into Night, until it rises again (R604),
`nwClocks` is the CLOCKS section held with
its slot and write count (R512), `flushHalted` the engines that a flush halted, `duskEpoch` the epoch whose Midnight phase 2 awaits, and `idleAt`
the clock domains found idle with the time since when (R515). -/
structure Pwr where
  mode : PMode := .coldReset
  hold : HoldCause := .none
  dawnStep : Nat := 0
  coldDawn : Bool := true
  porN : Bool := true
  sysRstN : Bool := true
  holdupN : Bool := true
  pwrgd : Bool := false
  pwrReq : Bool := false
  reqFell : Option Nat := none
  sampled : Bool := false
  alertHeld : Bool := false
  nightAt : Nat := 0
  nightTicks : Nat := 0
  nightExtra : Nat := 0
  wakeHeld : Bool := false
  wokeAt : Option Nat := none
  highest : Int := 25
  hostLostAt : Option Nat := none
  dayAt : Nat := 0
  pllTries : List (Nat × Nat) := []
  pllAt : List (Nat × Nat) := []
  faultTimes : List Nat := []
  faultCause : Nat := 0
  thermalCap : Nat := 2000
  powerCap : Nat := 2000
  capAt : Nat := 0
  powerAt : Nat := 0
  capSince : Option Nat := none
  warned : Bool := false
  hotSince : Option Nat := none
  tripped : Bool := false
  gated : List Nat := []
  idleAt : List (Nat × Nat) := []
  nwClocks : Option (Clocks × Nat × Nat) := none
  plan : Clocks := {}
  i3c : Option Nat := none
  holdupAt : Option Nat := none
  flushing : Bool := false
  afterFlush : Nat := 0
  flushHalted : List Nat := []
  duskHeld : Bool := false
  duskEpoch : Nat := 0
  cancelled : Bool := false
  deriving DecidableEq, Repr

end Sys2Proof.Machine
end

