-- ==== Sys2Proof/Machine/Blocks/Root.lean ====
section
/-!
DEFINITION. The state of SEC_ROOT: OTP, sealed store, measurements, debug gate, tokens, SPDM responder and JTAG port (chapter 17).
-/
namespace Sys2Proof.Machine

/-- The debug states of R542. -/
inductive DebugState where
  | closed | requested | opened
  deriving DecidableEq, Repr

/-- The OTP fields (Table 17-1). `rows` lists the LIFECYCLE rows with a bit blown; a fuse is never cleared. -/
structure Otp where
  uds : Nat := 0
  dsn : Nat := 0
  fwKeyRevoke : Nat := 0
  rows : List Nat := []
  ownerHash : List (Nat × Nat) := []
  ownerFused : Nat := 0
  ownerRevoked : Nat := 0
  serviceBits : Nat := 0
  deriving DecidableEq, Repr

/-- The secret part of the sealed store (Table 17-6): transport key, dedup secret, vault key, persistent tenant keys by slot. -/
structure SecretPart where
  transport : Option Nat := none
  dedup : Option Nat := none
  vault : Option Nat := none
  keys : List (Nat × Nat) := []
  deriving DecidableEq, Repr

/-- What the monotonic part keeps of a key slot: PERSIST, ERASED, ERASE_EPOCH and an erase under way. -/
structure SlotRec where
  persist : Bool := false
  erased : Bool := false
  eraseEpoch : Nat := 0
  erasing : Bool := false
  deriving DecidableEq, Repr

/-- The monotonic part of the sealed store (Table 17-6). -/
structure MonoPart where
  kilipFloor : Nat := 0
  fwFloor : Nat := 0
  awg : Nat := 0
  inst : List (Nat × Nat) := []
  maxEpoch : Nat := 0
  slots : List (Nat × SlotRec) := []
  ktSerial : Nat := 0
  secretGen : Nat := 0
  opens : Nat := 0
  headTrust : List Nat := []
  bridgeTrust : List Nat := []
  zeroizePending : Bool := false
  deriving DecidableEq, Repr

/-- An entry of the measurement log (R538). -/
structure MeasEntry where
  index : Nat
  event : Nat
  epoch : Nat
  time : Nat
  serial : Nat
  digest : Nat
  deriving DecidableEq, Repr

/-- The JTAG instructions of Table 17-9. -/
inductive JtagInstr where
  | bypass | idcode | samplePreload | extest | clamp | highz | dbgChallenge | dbgToken | dbgStatus | dbgAccess
  deriving DecidableEq, Repr

/-- How boundary scan has the pins (R541). -/
inductive PinMode where
  | functional | driven | floating
  deriving DecidableEq, Repr

/-- An SPDM connection (Table 17-8): version and algorithms agreed, and the request being served. -/
structure SpdmConn where
  version : Bool := false
  caps : Bool := false
  algs : Bool := false
  busy : Bool := false
  deriving DecidableEq, Repr

/-- SEC_ROOT. `writes` counts sealed-store copy writes (R533). -/
structure Root where
  otp : Otp := {}
  secret : SecretPart := {}
  mono : MonoPart := {}
  writes : Nat := 0
  debug : DebugState := .closed
  challenge : Option Nat := none
  challengeAt : Nat := 0
  meas : List (Nat × Nat) := []
  log : List MeasEntry := []
  logCount : Nat := 0
  logDropped : Nat := 0
  logBase : List (Nat × Nat) := []
  pcie : SpdmConn := {}
  i3c : SpdmConn := {}
  jtag : JtagInstr := .idcode
  pins : PinMode := .functional
  boundary : List Bool := []
  bypassBit : Bool := false
  deriving DecidableEq, Repr

end Sys2Proof.Machine
end

