-- ==== Sys2Proof/Machine/RegMap.lean ====
section
/-!
DEFINITION. Every register field the spec's register tables give (one definition per field: address, least
significant bit, width, access code, reset value, whether a warm reset keeps it, whether writing it has a command of its own,
whether its value is computed from state held elsewhere, and its legal encodings), and the map of every register
(address, width in bytes, instances) that R7 calls occupied.
-/
namespace Sys2Proof.Machine

namespace R
def GLB_ID_PART : Fld := ⟨0x0, 0, 16, .ro, 2400, false, false, false, []⟩
def GLB_ID_FAMILY : Fld := ⟨0x0, 16, 16, .ro, 49173, false, false, false, []⟩
def GLB_REV_MINOR : Fld := ⟨0x4, 0, 8, .ro, 1, false, false, false, []⟩
def GLB_REV_MAJOR : Fld := ⟨0x4, 8, 8, .ro, 2, false, false, false, []⟩
def GLB_HEAD_POS : Fld := ⟨0x8, 0, 1, .ro, 0, true, false, false, []⟩
def GLB_HEAD_HEAD_ID : Fld := ⟨0x8, 8, 8, .ro, 0, false, false, false, []⟩
def GLB_STATUS_PSTATE : Fld := ⟨0x10, 0, 2, .ro, 1, false, false, true, []⟩
def GLB_STATUS_IMAGE_ACTIVE : Fld := ⟨0x10, 2, 1, .ro, 0, false, false, false, []⟩
def GLB_STATUS_LOADER_ONLY : Fld := ⟨0x10, 3, 1, .ro, 0, false, false, false, []⟩
def GLB_STATUS_PEER_UP : Fld := ⟨0x10, 4, 1, .ro, 0, false, false, false, []⟩
def GLB_STATUS_SOLE : Fld := ⟨0x10, 5, 1, .ro, 0, false, false, false, []⟩
def GLB_STATUS_DEGRADED : Fld := ⟨0x10, 6, 1, .ro, 0, false, false, false, []⟩
def GLB_STATUS_THERMAL_CAP : Fld := ⟨0x10, 7, 1, .ro, 0, false, false, false, []⟩
def GLB_STATUS_ALERT : Fld := ⟨0x10, 8, 1, .ro, 0, false, false, true, []⟩
def GLB_STATUS_DEBUG_OPEN : Fld := ⟨0x10, 9, 1, .ro, 0, false, false, false, []⟩
def GLB_STATUS_LIFECYCLE : Fld := ⟨0x10, 12, 3, .ro, 0, false, false, true, []⟩
def GLB_TIME_TIME : Fld := ⟨0x18, 0, 64, .ro, 0, true, false, false, []⟩
def GLB_PEER_TIME_OFS_OFS : Fld := ⟨0x20, 0, 64, .ro, 0, true, false, false, []⟩
def GLB_EPOCH_EPOCH : Fld := ⟨0x28, 0, 48, .ro, 0, true, false, false, []⟩
def GLB_SCRATCH_SCRATCH : Fld := ⟨0x30, 0, 64, .rw, 0, true, false, false, []⟩
def KCF_STATUS_STATE : Fld := ⟨0x100000, 0, 4, .ro, 0, false, false, false, []⟩
def KCF_STATUS_AGREED : Fld := ⟨0x100000, 4, 1, .ro, 0, false, false, false, []⟩
def KCF_STATUS_NEEDS_RESET : Fld := ⟨0x100000, 5, 1, .ro, 0, false, false, false, []⟩
def KCF_STATUS_FELL_BACK : Fld := ⟨0x100000, 6, 1, .ro, 0, true, false, false, []⟩
def KCF_STATUS_NO_IMAGE : Fld := ⟨0x100000, 7, 1, .ro, 0, true, false, false, []⟩
def KCF_STATUS_PARTIAL : Fld := ⟨0x100000, 8, 1, .ro, 0, false, false, false, []⟩
def KCF_STATUS_REFUSED : Fld := ⟨0x100000, 9, 1, .w1c, 0, false, false, false, []⟩
def KCF_CMD_CMD : Fld := ⟨0x100004, 0, 4, .wo, 0, false, true, false, []⟩
def KCF_CTRL_IRQ_EN : Fld := ⟨0x10000c, 0, 1, .rw, 0, false, false, false, []⟩
def KCF_CTRL_VECTOR : Fld := ⟨0x10000c, 1, 11, .rw, 0, false, false, false, []⟩
def KCF_SRC_ADDR_ADDR : Fld := ⟨0x100010, 0, 64, .rw, 0, false, false, false, []⟩
def KCF_SRC_LEN_LEN : Fld := ⟨0x100018, 0, 25, .rw, 0, false, false, false, [(0, 16777216)]⟩
def KCF_RESULT_VALID : Fld := ⟨0x100020, 0, 1, .ro, 0, false, false, false, []⟩
def KCF_RESULT_CODE : Fld := ⟨0x100020, 8, 8, .ro, 0, false, false, false, []⟩
def KCF_RESULT_SECTION : Fld := ⟨0x100020, 16, 8, .ro, 0, false, false, false, []⟩
def KCF_RESULT_OFS_OFS : Fld := ⟨0x100024, 0, 32, .ro, 0, false, false, false, []⟩
def KCF_ACT_EPOCH_EPOCH : Fld := ⟨0x100028, 0, 48, .ro, 0, false, false, false, []⟩
def KCF_ACT_TMO_ACT_TMO : Fld := ⟨0x100030, 0, 32, .rw, 1000000, false, false, false, [(1000, 10000000)]⟩
def KCF_QUIESCE_TMO_QUIESCE_TMO : Fld := ⟨0x100034, 0, 32, .rw, 4000, false, false, false, [(100, 100000)]⟩
def KCF_CLUSTER_DONE_DONE : Fld := ⟨0x100038, 0, 24, .ro, 0, false, false, false, []⟩
def KCF_CLUSTER_FAIL_FAIL : Fld := ⟨0x10003c, 0, 24, .ro, 0, false, false, false, []⟩
def KCF_SERIAL_ACTIVE_SERIAL : Fld := ⟨0x100040, 0, 64, .ro, 0, false, false, false, []⟩
def KCF_SERIAL_STAGED_SERIAL : Fld := ⟨0x100048, 0, 64, .ro, 0, false, false, false, []⟩
def KCF_FLOOR_FLOOR : Fld := ⟨0x100050, 0, 64, .ro, 0, false, false, true, []⟩
def KCF_ACTIVE_DIGEST_DIGEST (i : Nat) : Fld := ⟨0x100060 + 8 * i, 0, 64, .ro, 0, false, false, true, []⟩
def EVR_STATUS_FROZEN : Fld := ⟨0x200000, 0, 1, .ro, 0, false, false, false, []⟩
def EVR_STATUS_FALLBACK : Fld := ⟨0x200000, 1, 1, .ro, 0, true, false, false, []⟩
def EVR_STATUS_C_FULL : Fld := ⟨0x200000, 2, 1, .ro, 0, false, false, false, []⟩
def EVR_STATUS_REFUSED : Fld := ⟨0x200000, 3, 1, .w1c, 0, false, false, false, []⟩
def EVR_CMD_CMD : Fld := ⟨0x200004, 0, 2, .wo, 0, false, true, false, [(1, 3)]⟩
def EVR_RESULT_VALID : Fld := ⟨0x200008, 0, 1, .ro, 0, false, false, false, []⟩
def EVR_RESULT_CODE : Fld := ⟨0x200008, 8, 8, .ro, 0, false, false, false, []⟩
def EVR_CTRL_EXPORT : Fld := ⟨0x20000c, 0, 1, .rw, 0, false, false, false, []⟩
def EVR_CTRL_EXPORT_BURST : Fld := ⟨0x20000c, 1, 1, .rw, 0, false, false, false, []⟩
def EVR_CTRL_FREEZE_MS : Fld := ⟨0x20000c, 8, 10, .rw, 50, false, false, false, [(1, 1000)]⟩
def EVR_SEQ_SEQ : Fld := ⟨0x200010, 0, 40, .ro, 0, true, false, false, []⟩
def EVR_G_PTR_TAIL : Fld := ⟨0x200018, 0, 16, .ro, 0, true, false, false, []⟩
def EVR_G_PTR_PHASE : Fld := ⟨0x200018, 16, 1, .ro, 1, true, false, false, []⟩
def EVR_C_PTR_HEAD : Fld := ⟨0x20001c, 0, 16, .rw, 58982, true, true, false, []⟩
def EVR_C_PTR_TAIL : Fld := ⟨0x20001c, 16, 16, .ro, 58982, true, false, false, []⟩
def EVR_CURSOR_CURSOR : Fld := ⟨0x200020, 0, 16, .rw, 0, true, false, false, []⟩
def EVR_ALERT_PENDING : Fld := ⟨0x200024, 0, 1, .w1c, 0, true, false, false, []⟩
def EVR_IRQ_IRQ_EN : Fld := ⟨0x200028, 0, 1, .rw, 0, false, false, false, []⟩
def EVR_IRQ_VECTOR : Fld := ⟨0x200028, 1, 11, .rw, 0, false, false, false, []⟩
def EVR_IRQ_THRESH : Fld := ⟨0x200028, 13, 13, .rw, 64, false, false, false, [(1, 4096)]⟩
def EVR_IRQ_STATUS_CAUSES : Fld := ⟨0x20002c, 0, 5, .w1c, 0, false, false, false, []⟩
def EVR_RL_SEL_CODE : Fld := ⟨0x200030, 0, 10, .rw, 0, false, false, false, []⟩
def EVR_RL_CFG_RATE : Fld := ⟨0x200034, 0, 16, .rw, 100, false, false, true, []⟩
def EVR_RL_CFG_BURST : Fld := ⟨0x200034, 16, 16, .rw, 1000, false, false, true, []⟩
def EVR_RL_INFO_TOKENS : Fld := ⟨0x200038, 0, 16, .ro, 1000, false, false, true, []⟩
def EVR_RL_INFO_SEVERITY : Fld := ⟨0x200038, 16, 2, .ro, 0, false, false, true, []⟩
def EVR_RL_INFO_SUPPRESSED : Fld := ⟨0x200038, 32, 32, .ro, 0, false, false, true, []⟩
def EVR_FB_STATUS_COUNT : Fld := ⟨0x200040, 0, 7, .ro, 0, true, false, false, []⟩
def EVR_FB_STATUS_NEXT : Fld := ⟨0x200040, 8, 6, .ro, 1, true, false, false, []⟩
def EVR_FB_STATUS_DROPPED : Fld := ⟨0x200040, 16, 16, .ro, 0, true, false, false, []⟩
def EVR_CNT_WRITTEN_WRITTEN : Fld := ⟨0x200100, 0, 64, .ro, 0, true, false, false, []⟩
def EVR_CNT_SUPPRESSED_SUPPRESSED : Fld := ⟨0x200108, 0, 64, .ro, 0, true, false, false, []⟩
def EVR_CNT_OVERFLOW_OVERFLOW : Fld := ⟨0x200110, 0, 64, .ro, 0, true, false, false, []⟩
def EVR_CNT_HOLD_LOST_HOLD_LOST : Fld := ⟨0x200118, 0, 64, .ro, 0, true, false, false, []⟩
def EVR_CNT_EXPORT_LOST_EXPORT_LOST : Fld := ⟨0x200120, 0, 64, .ro, 0, true, false, false, []⟩
def EVR_CNT_SRAM_CE_SRAM_CE : Fld := ⟨0x200128, 0, 64, .ro, 0, true, false, false, []⟩
def EVR_CNT_CLR_CLR : Fld := ⟨0x200130, 0, 64, .wo, 0, false, true, false, []⟩
def EVR_WINDOW_WORD (i : Nat) : Fld := ⟨0x210000 + 8 * i, 0, 64, .ro, 0, false, false, true, []⟩
def EVR_FALLBACK_WORD (i : Nat) : Fld := ⟨0x220000 + 8 * i, 0, 64, .ro, 0, false, false, true, []⟩
def DMA_STATUS_BUS_STOP : Fld := ⟨0x300000, 0, 1, .w1c, 0, false, true, false, []⟩
def DMA_ACTIVE_ACTIVE : Fld := ⟨0x300004, 0, 32, .ro, 0, false, false, true, []⟩
def DMA_CTRL_LIMIT : Fld := ⟨0x300008, 0, 6, .rw, 8, false, false, false, [(1, 32)]⟩
def DMA_CTRL_ERR_IRQ_EN : Fld := ⟨0x300008, 8, 1, .rw, 0, false, false, false, []⟩
def DMA_CTRL_ERR_VECTOR : Fld := ⟨0x300008, 9, 11, .rw, 0, false, false, false, []⟩
def DMA_BERR_CH : Fld := ⟨0x300010, 0, 5, .ro, 0, false, false, false, []⟩
def DMA_BERR_KIND : Fld := ⟨0x300010, 8, 3, .ro, 0, false, false, false, []⟩
def DMA_BERR_SPACE : Fld := ⟨0x300010, 12, 2, .ro, 0, false, false, false, []⟩
def DMA_BERR_ADDR_ADDR : Fld := ⟨0x300018, 0, 64, .ro, 0, false, false, false, []⟩
def DMA_HWIN_BASE_BASE : Fld := ⟨0x300020, 0, 64, .rw, 0, false, false, false, []⟩
def DMA_HWIN_LEN_LEN : Fld := ⟨0x300028, 0, 64, .rw, 0, false, true, false, []⟩
def DMA_PACE_TICK_TICK : Fld := ⟨0x300030, 0, 32, .rw, 0, false, false, false, [(0, 0), (64, 4294967295)]⟩
def DMA_CH_STATUS_STATE (i : Nat) : Fld := ⟨0x301000 + 256 * i, 0, 3, .ro, 0, false, false, true, []⟩
def DMA_CH_STATUS_HALF (i : Nat) : Fld := ⟨0x301000 + 256 * i, 4, 1, .w1c, 0, false, false, false, []⟩
def DMA_CH_STATUS_FULL (i : Nat) : Fld := ⟨0x301000 + 256 * i, 5, 1, .w1c, 0, false, false, false, []⟩
def DMA_CH_STATUS_ERR (i : Nat) : Fld := ⟨0x301000 + 256 * i, 6, 1, .w1c, 0, false, false, false, []⟩
def DMA_CH_STATUS_OVERRUN (i : Nat) : Fld := ⟨0x301000 + 256 * i, 7, 1, .w1c, 0, false, false, false, []⟩
def DMA_CH_STATUS_DIFF_STOP (i : Nat) : Fld := ⟨0x301000 + 256 * i, 8, 1, .ro, 0, false, false, true, []⟩
def DMA_CH_STATUS_DB_PENDING (i : Nat) : Fld := ⟨0x301000 + 256 * i, 9, 1, .ro, 0, false, false, true, []⟩
def DMA_CH_STATUS_REFUSED (i : Nat) : Fld := ⟨0x301000 + 256 * i, 10, 1, .w1c, 0, false, false, false, []⟩
def DMA_CH_STATUS_RESULT (i : Nat) : Fld := ⟨0x301000 + 256 * i, 16, 8, .ro, 0, false, false, false, []⟩
def DMA_CH_CTRL_CHAIN_SPACE (i : Nat) : Fld := ⟨0x301008 + 256 * i, 0, 2, .rw, 0, false, false, false, [(0, 1)]⟩
def DMA_CH_CTRL_PRIO (i : Nat) : Fld := ⟨0x301008 + 256 * i, 2, 1, .rw, 0, false, false, false, []⟩
def DMA_CH_CTRL_IRQ_EN (i : Nat) : Fld := ⟨0x301008 + 256 * i, 3, 1, .rw, 0, false, false, false, []⟩
def DMA_CH_CTRL_VECTOR (i : Nat) : Fld := ⟨0x301008 + 256 * i, 4, 11, .rw, 0, false, false, false, []⟩
def DMA_CH_HEAD_HEAD (i : Nat) : Fld := ⟨0x301010 + 256 * i, 0, 64, .rw, 0, false, false, false, []⟩
def DMA_CH_CMD_CMD (i : Nat) : Fld := ⟨0x301018 + 256 * i, 0, 3, .wo, 0, false, true, false, [(1, 4)]⟩
def DMA_CH_DOORBELL_RING (i : Nat) : Fld := ⟨0x30101c + 256 * i, 0, 32, .wo, 0, false, true, false, []⟩
def DMA_CH_CUR_CUR (i : Nat) : Fld := ⟨0x301020 + 256 * i, 0, 64, .ro, 0, false, false, true, []⟩
def DMA_CH_REMAIN_REMAIN (i : Nat) : Fld := ⟨0x301028 + 256 * i, 0, 25, .ro, 0, false, false, true, []⟩
def DMA_CNT_BYTES_BYTES : Fld := ⟨0x300100, 0, 64, .ro, 0, true, false, false, []⟩
def DMA_CNT_DESC_DESC : Fld := ⟨0x300108, 0, 64, .ro, 0, true, false, false, []⟩
def DMA_CNT_BERR_BERR : Fld := ⟨0x300110, 0, 64, .ro, 0, true, false, false, []⟩
def DMA_CNT_REREAD_REREAD : Fld := ⟨0x300118, 0, 64, .ro, 0, true, false, false, []⟩
def DMA_CNT_CLR_CLR : Fld := ⟨0x300120, 0, 64, .wo, 0, false, true, false, []⟩
def SEC_CL_STATUS_STATE (i : Nat) : Fld := ⟨0x400000 + 0x10000 * i, 0, 3, .ro, 0, false, false, true, []⟩
def SEC_CL_STATUS_POOL (i : Nat) : Fld := ⟨0x400000 + 0x10000 * i, 4, 4, .ro, 0, false, false, true, []⟩
def SEC_CL_STATUS_PROG_ID (i : Nat) : Fld := ⟨0x400000 + 0x10000 * i, 8, 6, .ro, 0, false, false, true, []⟩
def SEC_CL_STATUS_HALTED (i : Nat) : Fld := ⟨0x400000 + 0x10000 * i, 16, 8, .ro, 0, false, false, true, []⟩
def SEC_CL_CMD_CMD (i : Nat) : Fld := ⟨0x400008 + 0x10000 * i, 0, 2, .wo, 0, false, true, false, [(1, 2)]⟩
def SEC_CL_RESULT_VALID (i : Nat) : Fld := ⟨0x400010 + 0x10000 * i, 0, 1, .ro, 0, false, false, false, []⟩
def SEC_CL_RESULT_REFUSED (i : Nat) : Fld := ⟨0x400010 + 0x10000 * i, 1, 1, .w1c, 0, false, false, false, []⟩
def SEC_CL_RESULT_CODE (i : Nat) : Fld := ⟨0x400010 + 0x10000 * i, 8, 8, .ro, 0, false, false, false, []⟩
def SEC_CL_RESULT_REFUSE_CODE (i : Nat) : Fld := ⟨0x400010 + 0x10000 * i, 16, 8, .ro, 0, false, false, false, []⟩
def SEC_CL_PORTS_INFLIGHT (i : Nat) : Fld := ⟨0x400018 + 0x10000 * i, 0, 32, .ro, 0, false, false, true, []⟩
def SEC_CL_CLOG_HEAD (i : Nat) : Fld := ⟨0x400020 + 0x10000 * i, 0, 8, .rw, 0, false, true, false, []⟩
def SEC_CL_CLOG_TAIL (i : Nat) : Fld := ⟨0x400020 + 0x10000 * i, 8, 8, .ro, 0, false, false, true, []⟩
def SEC_CL_CNT_FAULTS_FAULTS (i : Nat) : Fld := ⟨0x400100 + 0x10000 * i, 0, 64, .ro, 0, true, false, false, []⟩
def SEC_CL_CNT_CANCEL_CANCELLED (i : Nat) : Fld := ⟨0x400108 + 0x10000 * i, 0, 64, .ro, 0, true, false, false, []⟩
def SEC_CL_CNT_BURNED_BURNED (i : Nat) : Fld := ⟨0x400110 + 0x10000 * i, 0, 64, .ro, 0, true, false, false, []⟩
def SEC_CL_CNT_CLOG_LOST_CLOG_LOST (i : Nat) : Fld := ⟨0x400118 + 0x10000 * i, 0, 64, .ro, 0, true, false, false, []⟩
def SEC_CL_CNT_CLR_CLR (i : Nat) : Fld := ⟨0x400120 + 0x10000 * i, 0, 64, .wo, 0, false, true, false, []⟩
def SEC_CL_CLOG_ENTRY_WORD (i j : Nat) : Fld := ⟨0x408000 + 0x10000 * i + 8 * j, 0, 64, .ro, 0, false, false, true, []⟩
def SEC_ENG_STATUS_STATE (i j : Nat) : Fld := ⟨0x401000 + 0x10000 * i + 2048 * j, 0, 3, .ro, 7, false, false, true, []⟩
def SEC_ENG_STATUS_STALL (i j : Nat) : Fld := ⟨0x401000 + 0x10000 * i + 2048 * j, 3, 4, .ro, 0, false, false, true, []⟩
def SEC_ENG_STATUS_IN_HANDLER (i j : Nat) : Fld := ⟨0x401000 + 0x10000 * i + 2048 * j, 7, 1, .ro, 0, false, false, true, []⟩
def SEC_ENG_STATUS_JOBS (i j : Nat) : Fld := ⟨0x401000 + 0x10000 * i + 2048 * j, 8, 6, .ro, 0, false, false, true, []⟩
def SEC_ENG_STATUS_STREAM (i j : Nat) : Fld := ⟨0x401000 + 0x10000 * i + 2048 * j, 14, 1, .ro, 0, false, false, true, []⟩
def SEC_ENG_PC_PC (i j : Nat) : Fld := ⟨0x401008 + 0x10000 * i + 2048 * j, 0, 64, .ro, 0, false, false, true, []⟩
def SEC_ENG_FAULT_ECAUSE (i j : Nat) : Fld := ⟨0x401010 + 0x10000 * i + 2048 * j, 0, 8, .ro, 0, false, false, true, []⟩
def SEC_ENG_FADDR_EADDR (i j : Nat) : Fld := ⟨0x401018 + 0x10000 * i + 2048 * j, 0, 64, .ro, 0, false, false, true, []⟩
def SEC_ENG_CMD_CMD (i j : Nat) : Fld := ⟨0x401020 + 0x10000 * i + 2048 * j, 0, 3, .wo, 0, false, true, false, [(1, 4)]⟩
def SEC_ENG_CMD_PROG_ID (i j : Nat) : Fld := ⟨0x401020 + 0x10000 * i + 2048 * j, 8, 6, .wo, 0, false, true, false, []⟩
def SEC_ENG_RESULT_VALID (i j : Nat) : Fld := ⟨0x401028 + 0x10000 * i + 2048 * j, 0, 1, .ro, 0, false, false, false, []⟩
def SEC_ENG_RESULT_REFUSED (i j : Nat) : Fld := ⟨0x401028 + 0x10000 * i + 2048 * j, 1, 1, .w1c, 0, false, false, false, []⟩
def SEC_ENG_RESULT_CODE (i j : Nat) : Fld := ⟨0x401028 + 0x10000 * i + 2048 * j, 8, 8, .ro, 0, false, false, false, []⟩
def SEC_ENG_RESULT_REFUSE_CODE (i j : Nat) : Fld := ⟨0x401028 + 0x10000 * i + 2048 * j, 16, 8, .ro, 0, false, false, false, []⟩
def SEC_ENG_WORK_WORK_ID (i j : Nat) : Fld := ⟨0x401030 + 0x10000 * i + 2048 * j, 0, 64, .ro, 0, false, false, true, []⟩
def SEC_ENG_EPC_EPC (i j : Nat) : Fld := ⟨0x401038 + 0x10000 * i + 2048 * j, 0, 64, .ro, 0, false, false, true, []⟩
def SEC_ENG_CNT_CYCLES_CYCLES (i j : Nat) : Fld := ⟨0x401100 + 0x10000 * i + 2048 * j, 0, 64, .ro, 0, true, false, true, []⟩
def SEC_ENG_CNT_INSTRET_INSTRET (i j : Nat) : Fld := ⟨0x401108 + 0x10000 * i + 2048 * j, 0, 64, .ro, 0, true, false, false, []⟩
def SEC_ENG_CNT_STALL_DEP_STALL_DEP (i j : Nat) : Fld := ⟨0x401110 + 0x10000 * i + 2048 * j, 0, 64, .ro, 0, true, false, true, []⟩
def SEC_ENG_CNT_STALL_DRAM_STALL_DRAM (i j : Nat) : Fld := ⟨0x401118 + 0x10000 * i + 2048 * j, 0, 64, .ro, 0, true, false, true, []⟩
def SEC_ENG_CNT_STALL_PORT_STALL_PORT (i j : Nat) : Fld := ⟨0x401120 + 0x10000 * i + 2048 * j, 0, 64, .ro, 0, true, false, true, []⟩
def SEC_ENG_CNT_STALL_AWAIT_STALL_AWAIT (i j : Nat) : Fld := ⟨0x401128 + 0x10000 * i + 2048 * j, 0, 64, .ro, 0, true, false, true, []⟩
def SEC_ENG_CNT_IDLE_WFW_IDLE_WFW (i j : Nat) : Fld := ⟨0x401130 + 0x10000 * i + 2048 * j, 0, 64, .ro, 0, true, false, true, []⟩
def SEC_ENG_CNT_MISPREDICT_MISPREDICT (i j : Nat) : Fld := ⟨0x401138 + 0x10000 * i + 2048 * j, 0, 64, .ro, 0, true, false, true, []⟩
def SEC_ENG_CNT_SQUASHED_SQUASHED (i j : Nat) : Fld := ⟨0x401140 + 0x10000 * i + 2048 * j, 0, 64, .ro, 0, true, false, false, []⟩
def SEC_ENG_CNT_JOBS_JOBS (i j : Nat) : Fld := ⟨0x401148 + 0x10000 * i + 2048 * j, 0, 64, .ro, 0, true, false, false, []⟩
def SEC_ENG_CNT_STREAM_STREAM_BYTES (i j : Nat) : Fld := ⟨0x401150 + 0x10000 * i + 2048 * j, 0, 64, .ro, 0, true, false, false, []⟩
def SEC_ENG_CNT_ECC_ECC (i j : Nat) : Fld := ⟨0x401158 + 0x10000 * i + 2048 * j, 0, 64, .ro, 0, true, false, false, []⟩
def SEC_ENG_CNT_CLR_CLR (i j : Nat) : Fld := ⟨0x401160 + 0x10000 * i + 2048 * j, 0, 64, .wo, 0, false, true, false, []⟩
def DGE_STATUS_CORES_UP : Fld := ⟨0x600000, 0, 6, .ro, 0, false, false, true, []⟩
def DGE_STATUS_PREFIX_READY : Fld := ⟨0x600000, 8, 1, .ro, 0, false, false, true, []⟩
def DGE_CORE_FAIL_FAIL : Fld := ⟨0x600008, 0, 32, .ro, 0, false, false, true, []⟩
def DGE_CNT_JOBS_JOBS : Fld := ⟨0x600100, 0, 64, .ro, 0, true, false, false, []⟩
def DGE_CNT_BYTES_BYTES : Fld := ⟨0x600108, 0, 64, .ro, 0, true, false, false, []⟩
def DGE_CNT_CMP_CMP : Fld := ⟨0x600110, 0, 64, .ro, 0, true, false, false, []⟩
def DGE_CNT_CMP_FAULT_CMP_FAULT : Fld := ⟨0x600118, 0, 64, .ro, 0, true, false, false, []⟩
def DGE_CNT_STATE_BAD_STATE_BAD : Fld := ⟨0x600120, 0, 64, .ro, 0, true, false, false, []⟩
def DGE_CNT_BOUNDARY_BOUNDARY : Fld := ⟨0x600128, 0, 64, .ro, 0, true, false, false, []⟩
def DGE_CNT_CLR_CLR : Fld := ⟨0x600130, 0, 64, .wo, 0, false, true, false, []⟩
def CPE_STATUS_CORES_UP : Fld := ⟨0x700000, 0, 7, .ro, 0, false, false, true, []⟩
def CPE_STATUS_NONCE_READY : Fld := ⟨0x700000, 8, 1, .ro, 0, false, false, false, []⟩
def CPE_STATUS_INST_WARN : Fld := ⟨0x700000, 9, 1, .ro, 0, true, false, false, []⟩
def CPE_STATUS_INST_EXHAUSTED : Fld := ⟨0x700000, 10, 1, .ro, 0, true, false, false, []⟩
def CPE_STATUS_SLOTS_LOADED : Fld := ⟨0x700000, 16, 13, .ro, 0, false, false, true, []⟩
def CPE_CORE_FAIL_FAIL : Fld := ⟨0x700008, 0, 64, .ro, 0, false, false, true, []⟩
def CPE_NONCE_INST_INST : Fld := ⟨0x700010, 0, 18, .ro, 0, true, false, false, []⟩
def CPE_SLOT_CTRL_SLOT : Fld := ⟨0x700018, 0, 12, .rw, 0, false, false, false, []⟩
def CPE_SLOT_INFO_STATE : Fld := ⟨0x700020, 0, 2, .ro, 0, false, false, true, []⟩
def CPE_SLOT_INFO_PERSIST : Fld := ⟨0x700020, 2, 1, .ro, 0, false, false, true, []⟩
def CPE_SLOT_INFO_ERASED : Fld := ⟨0x700020, 3, 1, .ro, 0, false, false, true, []⟩
def CPE_SLOT_INFO_OWNER : Fld := ⟨0x700020, 4, 10, .ro, 0, false, false, true, []⟩
def CPE_SLOT_INFO_OWNED : Fld := ⟨0x700020, 14, 1, .ro, 0, false, false, true, []⟩
def CPE_SLOT_INFO_ERASE_EPOCH : Fld := ⟨0x700020, 16, 48, .ro, 0, false, false, true, []⟩
def CPE_CNT_ENC_ENC : Fld := ⟨0x700100, 0, 64, .ro, 0, true, false, false, []⟩
def CPE_CNT_DEC_DEC : Fld := ⟨0x700108, 0, 64, .ro, 0, true, false, false, []⟩
def CPE_CNT_TAG_FAIL_TAG_FAIL : Fld := ⟨0x700110, 0, 64, .ro, 0, true, false, false, []⟩
def CPE_CNT_NONCE_NONCE : Fld := ⟨0x700118, 0, 64, .ro, 0, true, false, false, []⟩
def CPE_CNT_BURNED_BURNED : Fld := ⟨0x700120, 0, 64, .ro, 0, true, false, false, []⟩
def CPE_CNT_DENIED_DENIED : Fld := ⟨0x700128, 0, 64, .ro, 0, true, false, false, []⟩
def CPE_CNT_CLR_CLR : Fld := ⟨0x700130, 0, 64, .wo, 0, false, true, false, []⟩
def CMP_STATUS_COMP_UP : Fld := ⟨0x800000, 0, 6, .ro, 0, false, false, true, []⟩
def CMP_STATUS_DCMP_UP : Fld := ⟨0x800000, 8, 6, .ro, 0, false, false, true, []⟩
def CMP_STATUS_FILTER_READY : Fld := ⟨0x800000, 16, 1, .ro, 0, false, false, false, []⟩
def CMP_STATUS_CAT_DEGRADED : Fld := ⟨0x800000, 17, 1, .ro, 0, false, false, false, []⟩
def CMP_STATUS_CAT_FULL : Fld := ⟨0x800000, 18, 1, .ro, 0, false, false, false, []⟩
def CMP_COMP_FAIL_FAIL : Fld := ⟨0x800008, 0, 48, .ro, 0, false, false, true, []⟩
def CMP_DCMP_FAIL_FAIL : Fld := ⟨0x800010, 0, 48, .ro, 0, false, false, true, []⟩
def CMP_EFFORT_EFFORT : Fld := ⟨0x800020, 0, 32, .rw, 2863311530, false, false, false, []⟩
def CMP_DD_FILTER_GEN_EPOCHS : Fld := ⟨0x800028, 0, 16, .ro, 0, false, false, false, []⟩
def CMP_DD_FILTER_OPEN_GEN : Fld := ⟨0x800028, 16, 4, .ro, 0, false, false, false, []⟩
def CMP_DD_GEN_CAP_CAP : Fld := ⟨0x800030, 0, 64, .ro, 0, false, false, false, []⟩
def CMP_DD_GEN_FILL_FILL : Fld := ⟨0x800038, 0, 64, .ro, 0, false, false, false, []⟩
def CMP_DD_CAT_NB_LOG2 : Fld := ⟨0x800040, 0, 6, .ro, 0, false, false, false, []⟩
def CMP_DD_ENTRIES_ENTRIES : Fld := ⟨0x800048, 0, 64, .ro, 0, false, false, false, []⟩
def CMP_CNT_IN_IN : Fld := ⟨0x800100, 0, 64, .ro, 0, true, false, false, []⟩
def CMP_CNT_OUT_OUT : Fld := ⟨0x800108, 0, 64, .ro, 0, true, false, false, []⟩
def CMP_CNT_RAW_RAW : Fld := ⟨0x800110, 0, 64, .ro, 0, true, false, false, []⟩
def CMP_CNT_REJECT_REJECT : Fld := ⟨0x800118, 0, 64, .ro, 0, true, false, false, []⟩
def CMP_DD_CHUNKS_CHUNKS : Fld := ⟨0x800120, 0, 64, .ro, 0, true, false, false, []⟩
def CMP_DD_RULED_OUT_RULED_OUT : Fld := ⟨0x800128, 0, 64, .ro, 0, true, false, false, []⟩
def CMP_DD_SHELF_READS_SHELF_READS : Fld := ⟨0x800130, 0, 64, .ro, 0, true, false, false, []⟩
def CMP_DD_DUPS_DUPS : Fld := ⟨0x800138, 0, 64, .ro, 0, true, false, false, []⟩
def CMP_DD_FALSE_POS_FALSE_POS : Fld := ⟨0x800140, 0, 64, .ro, 0, true, false, false, []⟩
def CMP_DD_PEER_REFUSED_PEER_REFUSED : Fld := ⟨0x800148, 0, 64, .ro, 0, true, false, false, []⟩
def CMP_DD_CMP_FAULT_CMP_FAULT : Fld := ⟨0x800150, 0, 64, .ro, 0, true, false, false, []⟩
def CMP_DD_UNSHARED_UNSHARED : Fld := ⟨0x800158, 0, 64, .ro, 0, true, false, false, []⟩
def CMP_DD_LOST_LOST : Fld := ⟨0x800160, 0, 64, .ro, 0, true, false, false, []⟩
def CMP_CNT_CLR_CLR : Fld := ⟨0x800168, 0, 64, .wo, 0, false, true, false, []⟩
def FTM_STATUS_AWAKE : Fld := ⟨0x900000, 0, 8, .ro, 0, false, false, false, []⟩
def FTM_STATUS_INGEST : Fld := ⟨0x900000, 8, 3, .ro, 0, false, false, false, []⟩
def FTM_STATUS_INGEST_VALID : Fld := ⟨0x900000, 11, 1, .ro, 0, false, false, false, []⟩
def FTM_STATUS_CACHE_SHORT : Fld := ⟨0x900000, 12, 1, .ro, 0, false, false, true, []⟩
def FTM_STATUS_SCANNING : Fld := ⟨0x900000, 13, 1, .ro, 0, false, false, false, []⟩
def FTM_STATUS_DEFER_WARN : Fld := ⟨0x900000, 14, 1, .ro, 0, false, false, false, []⟩
def FTM_STATUS_SPARE_LOW : Fld := ⟨0x900000, 15, 1, .ro, 0, true, false, false, []⟩
def FTM_STATUS_SPACE_LOW : Fld := ⟨0x900000, 16, 1, .ro, 0, false, false, true, []⟩
def FTM_SHELF_SEL_SHELF : Fld := ⟨0x900008, 0, 7, .rw, 0, false, false, false, []⟩
def FTM_SHELF_INFO_STATE : Fld := ⟨0x900010, 0, 3, .ro, 0, false, false, true, []⟩
def FTM_SHELF_INFO_SPARE_LOW : Fld := ⟨0x900010, 3, 1, .ro, 0, false, false, true, []⟩
def FTM_SHELF_INFO_FREE_BANDS : Fld := ⟨0x900010, 8, 24, .ro, 0, false, false, true, []⟩
def FTM_SHELF_INFO_WEAR_PCT : Fld := ⟨0x900010, 32, 8, .ro, 0, false, false, true, []⟩
def FTM_SHELF_INFO_RETIRED : Fld := ⟨0x900010, 40, 24, .ro, 0, false, false, true, []⟩
def FTM_SHELF_SEQ_SEQ : Fld := ⟨0x900018, 0, 64, .ro, 0, false, false, true, []⟩
def FTM_SCAN_PROG_DONE : Fld := ⟨0x900020, 0, 32, .ro, 0, false, false, true, []⟩
def FTM_SCAN_PROG_TOTAL : Fld := ⟨0x900020, 32, 32, .ro, 0, false, false, true, []⟩
def FTM_GC_CTRL_GC_LIVE_PCT : Fld := ⟨0x900028, 0, 8, .rw, 50, false, false, false, [(10, 90)]⟩
def FTM_GC_CTRL_BAND_LIVE_PCT : Fld := ⟨0x900028, 8, 8, .rw, 25, false, false, false, [(5, 90)]⟩
def FTM_GC_CTRL_GC_SHARE : Fld := ⟨0x900028, 16, 8, .rw, 20, false, false, false, [(5, 80)]⟩
def FTM_GC_CTRL_SCAN_SHARE : Fld := ⟨0x900028, 24, 8, .rw, 50, false, false, false, [(10, 100)]⟩
def FTM_WL_CTRL_WL_DELTA : Fld := ⟨0x90002c, 0, 16, .rw, 500, false, false, false, [(50, 10000)]⟩
def FTM_WL_CTRL_WL_WARN : Fld := ⟨0x90002c, 16, 8, .rw, 90, false, false, false, [(50, 100)]⟩
def FTM_MEDIA_CTRL_RETRY_MAX : Fld := ⟨0x900030, 0, 4, .rw, 7, false, false, false, []⟩
def FTM_MEDIA_CTRL_OP_TMO : Fld := ⟨0x900030, 8, 8, .rw, 20, false, false, false, [(5, 200)]⟩
def FTM_MEDIA_CTRL_RESERVE : Fld := ⟨0x900030, 16, 8, .rw, 8, false, false, false, [(4, 64)]⟩
def FTM_MEDIA_CTRL_SPACE_LOW : Fld := ⟨0x900030, 24, 8, .rw, 3, false, false, false, [(1, 20)]⟩
def FTM_MAP_CTRL_WB_EPOCHS : Fld := ⟨0x900034, 0, 16, .rw, 64, false, false, false, [(4, 4096)]⟩
def FTM_MAP_CTRL_GRAIN_LIMIT : Fld := ⟨0x900034, 16, 8, .rw, 25, false, false, false, [(0, 50)]⟩
def FTM_CACHE_NEED_NEED : Fld := ⟨0x900038, 0, 64, .ro, 0, false, false, true, []⟩
def FTM_DEFER_CAP_CAP : Fld := ⟨0x900040, 0, 64, .rw, 68719476736, false, false, false, [(1073741824, 274877906944)]⟩
def FTM_SEQ_STATUS_QUEUED (i : Nat) : Fld := ⟨0x900080 + 8 * i, 0, 20, .ro, 0, false, false, true, []⟩
def FTM_SEQ_STATUS_BUSY (i : Nat) : Fld := ⟨0x900080 + 8 * i, 20, 1, .ro, 0, false, false, true, []⟩
def FTM_CNT_READS_READS : Fld := ⟨0x900100, 0, 64, .ro, 0, true, false, false, []⟩
def FTM_CNT_PROGRAMS_PROGRAMS : Fld := ⟨0x900108, 0, 64, .ro, 0, true, false, false, []⟩
def FTM_CNT_ERASES_ERASES : Fld := ⟨0x900110, 0, 64, .ro, 0, true, false, false, []⟩
def FTM_CNT_RETRIES_RETRIES : Fld := ⟨0x900118, 0, 64, .ro, 0, true, false, false, []⟩
def FTM_CNT_UNCORR_UNCORR : Fld := ⟨0x900120, 0, 64, .ro, 0, true, false, false, []⟩
def FTM_CNT_RETIRED_RETIRED : Fld := ⟨0x900128, 0, 64, .ro, 0, true, false, false, []⟩
def FTM_CNT_PROMOTE_PROMOTE : Fld := ⟨0x900130, 0, 64, .ro, 0, true, false, false, []⟩
def FTM_CNT_DEMOTE_DEMOTE : Fld := ⟨0x900138, 0, 64, .ro, 0, true, false, false, []⟩
def FTM_CNT_GC_RECORDS_GC_RECORDS : Fld := ⟨0x900140, 0, 64, .ro, 0, true, false, false, []⟩
def FTM_CNT_GC_BANDS_GC_BANDS : Fld := ⟨0x900148, 0, 64, .ro, 0, true, false, false, []⟩
def FTM_CNT_SCANS_SCANS : Fld := ⟨0x900150, 0, 64, .ro, 0, true, false, false, []⟩
def FTM_CNT_TIMEOUTS_TIMEOUTS : Fld := ⟨0x900158, 0, 64, .ro, 0, true, false, false, []⟩
def FTM_CNT_DEFERRED_DEFERRED : Fld := ⟨0x900160, 0, 64, .ro, 0, true, false, false, []⟩
def FTM_CNT_CLR_CLR : Fld := ⟨0x900168, 0, 64, .wo, 0, false, true, false, []⟩
def RDE_STATUS_UNITS_UP : Fld := ⟨0xa00000, 0, 4, .ro, 0, false, false, true, []⟩
def RDE_STATUS_REBUILDING : Fld := ⟨0xa00000, 4, 1, .ro, 0, false, false, true, []⟩
def RDE_STATUS_SCRUBBING : Fld := ⟨0xa00000, 5, 1, .ro, 0, false, false, false, []⟩
def RDE_STATUS_LOST_PRESENT : Fld := ⟨0xa00000, 6, 1, .ro, 0, false, false, true, []⟩
def RDE_STATUS_LOST_WARN : Fld := ⟨0xa00000, 7, 1, .ro, 0, false, false, true, []⟩
def RDE_STATUS_LOST_FULL : Fld := ⟨0xa00000, 8, 1, .ro, 0, false, false, false, []⟩
def RDE_STATUS_WAITING : Fld := ⟨0xa00000, 9, 1, .ro, 0, false, false, false, []⟩
def RDE_UNIT_FAIL_FAIL : Fld := ⟨0xa00008, 0, 8, .ro, 0, false, false, true, []⟩
def RDE_REBUILD_CTRL_GRACE_S : Fld := ⟨0xa00010, 0, 16, .rw, 60, false, false, false, [(0, 3600)]⟩
def RDE_REBUILD_CTRL_SHARE : Fld := ⟨0xa00010, 16, 8, .rw, 40, false, false, false, [(5, 90)]⟩
def RDE_REBUILD_CTRL_URGENT_SHARE : Fld := ⟨0xa00010, 24, 8, .rw, 60, false, false, false, [(5, 95)]⟩
def RDE_MAINT_CTRL_UNITS : Fld := ⟨0xa00014, 0, 4, .rw, 4, false, false, false, [(1, 8)]⟩
def RDE_MAINT_CTRL_EVACUATE : Fld := ⟨0xa00014, 4, 1, .rw, 0, false, false, false, []⟩
def RDE_REBUILD_PROG_DONE : Fld := ⟨0xa00018, 0, 32, .ro, 0, false, false, false, []⟩
def RDE_REBUILD_PROG_TOTAL : Fld := ⟨0xa00018, 32, 32, .ro, 0, false, false, false, []⟩
def RDE_SCRUB_CTRL_SHARE : Fld := ⟨0xa00020, 0, 8, .rw, 10, false, false, false, [(1, 50)]⟩
def RDE_SCRUB_CTRL_IDLE_SHARE : Fld := ⟨0xa00020, 8, 8, .rw, 50, false, false, false, [(10, 100)]⟩
def RDE_SCRUB_CTRL_DAYS : Fld := ⟨0xa00020, 16, 16, .rw, 30, false, false, false, [(1, 365)]⟩
def RDE_SCRUB_CTRL_MAX_DAYS : Fld := ⟨0xa00020, 32, 16, .rw, 180, false, false, false, [(0, 0), (30, 3650)]⟩
def RDE_SCRUB_CTRL_REFRESH_BITS : Fld := ⟨0xa00020, 48, 16, .rw, 120, false, false, false, [(1, 65535)]⟩
def RDE_SCRUB_SEL_COHORT : Fld := ⟨0xa00028, 0, 3, .rw, 0, false, false, false, []⟩
def RDE_SCRUB_INFO_CURSOR : Fld := ⟨0xa00030, 0, 31, .ro, 0, false, false, true, []⟩
def RDE_SCRUB_INFO_ACTIVE : Fld := ⟨0xa00030, 31, 1, .ro, 0, false, false, true, []⟩
def RDE_SCRUB_INFO_AGE_H : Fld := ⟨0xa00030, 32, 32, .ro, 0, false, false, true, []⟩
def RDE_RESHAPE_CMD_CMD : Fld := ⟨0xa00040, 0, 4, .wo, 0, false, true, false, [(1, 2)]⟩
def RDE_RESHAPE_ARG_SCOPE : Fld := ⟨0xa00048, 0, 2, .rw, 0, false, false, false, [(1, 3)]⟩
def RDE_RESHAPE_ARG_MODE : Fld := ⟨0xa00048, 2, 2, .rw, 0, false, false, false, [(0, 2)]⟩
def RDE_RESHAPE_ARG_SRC_COHORT : Fld := ⟨0xa00048, 4, 3, .rw, 0, false, false, false, []⟩
def RDE_RESHAPE_ARG_DST_COHORT : Fld := ⟨0xa00048, 8, 3, .rw, 0, false, false, false, []⟩
def RDE_RESHAPE_ARG_DST_CLASS : Fld := ⟨0xa00048, 16, 5, .rw, 0, false, false, false, []⟩
def RDE_RESHAPE_ARG_SHELF : Fld := ⟨0xa00048, 24, 7, .rw, 0, false, false, false, []⟩
def RDE_RESHAPE_ARG_NSID : Fld := ⟨0xa00048, 32, 13, .rw, 0, false, false, false, [(1, 4096)]⟩
def RDE_RESHAPE_ARG_BATCH : Fld := ⟨0xa00048, 48, 16, .rw, 64, false, false, false, [(1, 65535)]⟩
def RDE_RESHAPE_STATUS_STATE : Fld := ⟨0xa00050, 0, 3, .ro, 0, false, false, false, []⟩
def RDE_RESHAPE_STATUS_VALID : Fld := ⟨0xa00050, 8, 1, .ro, 0, false, false, false, []⟩
def RDE_RESHAPE_STATUS_REFUSED : Fld := ⟨0xa00050, 9, 1, .w1c, 0, false, false, false, []⟩
def RDE_RESHAPE_STATUS_CODE : Fld := ⟨0xa00050, 16, 8, .ro, 0, false, false, false, []⟩
def RDE_RESHAPE_STATUS_REFUSE_CODE : Fld := ⟨0xa00050, 24, 8, .ro, 0, false, false, false, []⟩
def RDE_RESHAPE_PROG_CHECKPOINT : Fld := ⟨0xa00058, 0, 31, .ro, 0, true, false, false, []⟩
def RDE_RESHAPE_PROG_DONE : Fld := ⟨0xa00058, 32, 32, .ro, 0, true, false, false, []⟩
def RDE_LOST_COUNT_COUNT : Fld := ⟨0xa00060, 0, 21, .ro, 0, false, false, true, []⟩
def RDE_LOST_IDX_IDX : Fld := ⟨0xa00068, 0, 20, .rw, 0, false, false, false, []⟩
def RDE_LOST_ENTRY_WORD (i : Nat) : Fld := ⟨0xa00070 + 8 * i, 0, 64, .ro, 0, false, false, true, []⟩
def RDE_CNT_REBUILT_STRIPES : Fld := ⟨0xa00100, 0, 64, .ro, 0, true, false, false, []⟩
def RDE_CNT_REPAIRED_PAGES : Fld := ⟨0xa00108, 0, 64, .ro, 0, true, false, false, []⟩
def RDE_CNT_LOST_LOST : Fld := ⟨0xa00110, 0, 64, .ro, 0, true, false, false, []⟩
def RDE_CNT_SCRUBBED_SCRUBBED : Fld := ⟨0xa00118, 0, 64, .ro, 0, true, false, false, []⟩
def RDE_CNT_SCRUB_MISMATCH_MISMATCH : Fld := ⟨0xa00120, 0, 64, .ro, 0, true, false, false, []⟩
def RDE_CNT_PARITY_REWRITTEN_REWRITTEN : Fld := ⟨0xa00128, 0, 64, .ro, 0, true, false, false, []⟩
def RDE_CNT_RESHAPED_MOVED : Fld := ⟨0xa00130, 0, 64, .ro, 0, true, false, false, []⟩
def RDE_CNT_CLR_CLR : Fld := ⟨0xa00138, 0, 64, .wo, 0, false, true, false, []⟩
def ISF_STR_STATUS_STATE (i : Nat) : Fld := ⟨0xb00000 + 0x1000 * i, 0, 3, .ro, 0, false, false, false, []⟩
def ISF_STR_STATUS_PF (i : Nat) : Fld := ⟨0xb00000 + 0x1000 * i, 3, 1, .ro, 0, false, false, false, []⟩
def ISF_STR_STATUS_LANES (i : Nat) : Fld := ⟨0xb00000 + 0x1000 * i, 4, 4, .ro, 0, false, false, false, []⟩
def ISF_STR_STATUS_OWNER_GEN (i : Nat) : Fld := ⟨0xb00000 + 0x1000 * i, 8, 8, .ro, 0, false, false, false, []⟩
def ISF_STR_STATUS_KEYGEN (i : Nat) : Fld := ⟨0xb00000 + 0x1000 * i, 16, 8, .ro, 0, false, false, false, []⟩
def ISF_STR_STATUS_CONFLICT (i : Nat) : Fld := ⟨0xb00000 + 0x1000 * i, 24, 1, .w1c, 0, false, false, false, []⟩
def ISF_STR_STATUS_JAM (i : Nat) : Fld := ⟨0xb00000 + 0x1000 * i, 25, 1, .w1c, 0, false, false, false, []⟩
def ISF_STR_CYCLE_CYCLE (i : Nat) : Fld := ⟨0xb00008 + 0x1000 * i, 0, 32, .ro, 0, false, false, false, []⟩
def ISF_STR_BSEL_POS (i : Nat) : Fld := ⟨0xb00010 + 0x1000 * i, 0, 3, .rw, 0, false, false, false, []⟩
def ISF_STR_BINFO_STATE (i : Nat) : Fld := ⟨0xb00018 + 0x1000 * i, 0, 3, .ro, 0, false, false, true, []⟩
def ISF_STR_BINFO_SHELF (i : Nat) : Fld := ⟨0xb00018 + 0x1000 * i, 3, 7, .ro, 0, false, false, true, []⟩
def ISF_STR_BINFO_SESSION (i : Nat) : Fld := ⟨0xb00018 + 0x1000 * i, 10, 8, .ro, 0, false, false, true, []⟩
def ISF_STR_BINFO_FP_LOW (i : Nat) : Fld := ⟨0xb00018 + 0x1000 * i, 32, 32, .ro, 0, false, false, true, []⟩
def ISF_STR_LOOP_ROUND (i : Nat) : Fld := ⟨0xb00020 + 0x1000 * i, 0, 64, .ro, 0, false, false, false, []⟩
def ISF_STR_CNT_CORR_CORR (i : Nat) : Fld := ⟨0xb00100 + 0x1000 * i, 0, 64, .ro, 0, true, false, false, []⟩
def ISF_STR_CNT_UNCORR_UNCORR (i : Nat) : Fld := ⟨0xb00108 + 0x1000 * i, 0, 64, .ro, 0, true, false, false, []⟩
def ISF_STR_CNT_TAG_TAG (i : Nat) : Fld := ⟨0xb00110 + 0x1000 * i, 0, 64, .ro, 0, true, false, false, []⟩
def ISF_STR_CNT_RETX_RETX (i : Nat) : Fld := ⟨0xb00118 + 0x1000 * i, 0, 64, .ro, 0, true, false, false, []⟩
def ISF_STR_CNT_DUP_DUP (i : Nat) : Fld := ⟨0xb00120 + 0x1000 * i, 0, 64, .ro, 0, true, false, false, []⟩
def ISF_STR_CNT_ACKBAD_ACKBAD (i : Nat) : Fld := ⟨0xb00128 + 0x1000 * i, 0, 64, .ro, 0, true, false, false, []⟩
def ISF_STR_CNT_REPLAY_REPLAY (i : Nat) : Fld := ⟨0xb00130 + 0x1000 * i, 0, 64, .ro, 0, true, false, false, []⟩
def ISF_STR_CNT_CCOLL_CCOLL (i : Nat) : Fld := ⟨0xb00138 + 0x1000 * i, 0, 64, .ro, 0, true, false, false, []⟩
def ISF_STR_CNT_DCOLL_DCOLL (i : Nat) : Fld := ⟨0xb00140 + 0x1000 * i, 0, 64, .ro, 0, true, false, false, []⟩
def ISF_STR_CNT_BMISS_BEACON_MISS (i : Nat) : Fld := ⟨0xb00148 + 0x1000 * i, 0, 64, .ro, 0, true, false, false, []⟩
def ISF_STR_CNT_ENROK_ENROL_OK (i : Nat) : Fld := ⟨0xb00150 + 0x1000 * i, 0, 64, .ro, 0, true, false, false, []⟩
def ISF_STR_CNT_ENRFAIL_ENROL_FAIL (i : Nat) : Fld := ⟨0xb00158 + 0x1000 * i, 0, 64, .ro, 0, true, false, false, []⟩
def ISF_STR_CNT_CLR_CLR (i : Nat) : Fld := ⟨0xb00160 + 0x1000 * i, 0, 64, .wo, 0, false, true, false, []⟩
def ISF_STATUS_UP : Fld := ⟨0xb10000, 0, 16, .ro, 0, false, false, true, []⟩
def ISF_STATUS_OWNED : Fld := ⟨0xb10000, 16, 16, .ro, 0, false, false, true, []⟩
def ISF_TIMERS_RETX_CYC : Fld := ⟨0xb10008, 0, 8, .rw, 4, false, false, false, [(1, 64)]⟩
def ISF_TIMERS_UNCORR_LIMIT : Fld := ⟨0xb10008, 16, 16, .rw, 1000, false, false, false, [(10, 65535)]⟩
def ISF_TIMERS_QUARANTINE_S : Fld := ⟨0xb10008, 32, 16, .rw, 60, false, false, false, [(1, 3600)]⟩
def ISF_ENROL_SLOTS : Fld := ⟨0xb10010, 0, 4, .rw, 4, false, false, false, [(1, 8)]⟩
def ISF_ENROL_PEER_MIN : Fld := ⟨0xb10010, 8, 8, .rw, 25, false, false, false, [(0, 50)]⟩
def ZBL_STATUS_STATE : Fld := ⟨0xc00000, 0, 4, .ro, 0, false, false, false, []⟩
def ZBL_STATUS_QUADS : Fld := ⟨0xc00000, 4, 4, .ro, 0, false, false, false, []⟩
def ZBL_STATUS_TIMEKEEPER : Fld := ⟨0xc00000, 8, 1, .ro, 0, false, false, true, []⟩
def ZBL_STATUS_MSYNC_USED : Fld := ⟨0xc00000, 9, 1, .ro, 0, false, false, true, []⟩
def ZBL_STATUS_LOST : Fld := ⟨0xc00000, 10, 1, .w1c, 0, false, false, false, []⟩
def ZBL_STATUS_YIELD : Fld := ⟨0xc00000, 11, 1, .w1c, 0, false, false, false, []⟩
def ZBL_STATUS_REFUSED : Fld := ⟨0xc00000, 12, 1, .w1c, 0, false, false, false, []⟩
def ZBL_PEER_HEAD_ID : Fld := ⟨0xc00008, 0, 8, .ro, 0, false, false, false, []⟩
def ZBL_PEER_POS : Fld := ⟨0xc00008, 8, 1, .ro, 0, false, false, false, []⟩
def ZBL_PEER_REASON : Fld := ⟨0xc00008, 16, 8, .ro, 0, false, false, false, []⟩
def ZBL_TIMERS_RETX_US : Fld := ⟨0xc00010, 0, 16, .rw, 20, false, false, false, [(2, 1000)]⟩
def ZBL_TIMERS_OP_TMO_US : Fld := ⟨0xc00010, 16, 16, .rw, 1000, false, false, false, [(100, 10000)]⟩
def ZBL_CTRL_REJOIN_HOLD : Fld := ⟨0xc00014, 0, 1, .rw, 0, false, false, false, []⟩
def ZBL_CTRL_MSYNC_OUT : Fld := ⟨0xc00014, 1, 1, .rw, 0, false, false, false, []⟩
def ZBL_CTRL_ALONE_S : Fld := ⟨0xc00014, 8, 8, .rw, 30, false, false, false, [(1, 255)]⟩
def ZBL_MN_DONE : Fld := ⟨0xc00018, 0, 48, .ro, 0, true, false, false, []⟩
def ZBL_ANCHOR_TIME : Fld := ⟨0xc00020, 0, 64, .ro, 0, true, false, false, []⟩
def ZBL_MSYNC_LAST_SHIFT : Fld := ⟨0xc00028, 0, 64, .ro, 0, false, false, false, []⟩
def ZBL_WB_TOTAL : Fld := ⟨0xc00030, 0, 16, .ro, 0, false, false, true, []⟩
def ZBL_WB_HELD : Fld := ⟨0xc00030, 16, 16, .ro, 0, false, false, true, []⟩
def ZBL_WB_RESERVE : Fld := ⟨0xc00030, 32, 16, .ro, 0, false, false, true, []⟩
def ZBL_CNT_TX_TX : Fld := ⟨0xc00100, 0, 64, .ro, 0, true, false, false, []⟩
def ZBL_CNT_RX_RX : Fld := ⟨0xc00108, 0, 64, .ro, 0, true, false, false, []⟩
def ZBL_CNT_RETX_RETX : Fld := ⟨0xc00110, 0, 64, .ro, 0, true, false, false, []⟩
def ZBL_CNT_DUP_DUP : Fld := ⟨0xc00118, 0, 64, .ro, 0, true, false, false, []⟩
def ZBL_CNT_ACKBAD_ACKBAD : Fld := ⟨0xc00120, 0, 64, .ro, 0, true, false, false, []⟩
def ZBL_CNT_NAK_NAK : Fld := ⟨0xc00128, 0, 64, .ro, 0, true, false, false, []⟩
def ZBL_CNT_TAG_TAG : Fld := ⟨0xc00130, 0, 64, .ro, 0, true, false, false, []⟩
def ZBL_CNT_CORR_CORR : Fld := ⟨0xc00138, 0, 64, .ro, 0, true, false, false, []⟩
def ZBL_CNT_UNCORR_UNCORR : Fld := ⟨0xc00140, 0, 64, .ro, 0, true, false, false, []⟩
def ZBL_CNT_REWIDTH_REWIDTH : Fld := ⟨0xc00148, 0, 64, .ro, 0, true, false, false, []⟩
def ZBL_CNT_REPLAY_REPLAY : Fld := ⟨0xc00150, 0, 64, .ro, 0, true, false, false, []⟩
def ZBL_CNT_MSYNC_IGN_MSYNC_IGN : Fld := ⟨0xc00158, 0, 64, .ro, 0, true, false, false, []⟩
def ZBL_CNT_TAKEOVER_TAKEOVER : Fld := ⟨0xc00160, 0, 64, .ro, 0, true, false, false, []⟩
def ZBL_CNT_CLR_CLR : Fld := ⟨0xc00168, 0, 64, .wo, 0, false, true, false, []⟩
def MEM_STATUS_CH_UP : Fld := ⟨0xd00000, 0, 12, .ro, 0, false, false, false, []⟩
def MEM_STATUS_CONTENT_LOST : Fld := ⟨0xd00000, 12, 1, .ro, 0, false, false, false, []⟩
def MEM_STATUS_TRAIN_FAIL : Fld := ⟨0xd00000, 13, 1, .ro, 0, false, false, false, []⟩
def MEM_STATUS_CE_HIGH : Fld := ⟨0xd00000, 14, 1, .ro, 0, false, false, true, []⟩
def MEM_STATUS_UE_SEEN : Fld := ⟨0xd00000, 15, 1, .w1c, 0, false, false, false, []⟩
def MEM_STATUS_WAYS_ON : Fld := ⟨0xd00000, 16, 16, .ro, 65535, false, false, false, []⟩
def MEM_INFO_CH_GIB : Fld := ⟨0xd00008, 0, 8, .ro, 0, false, false, false, []⟩
def MEM_INFO_RANKS : Fld := ⟨0xd00008, 8, 4, .ro, 0, false, false, false, []⟩
def MEM_INFO_MTS : Fld := ⟨0xd00008, 16, 13, .ro, 0, false, false, false, []⟩
def MEM_INFO_TOTAL_GIB : Fld := ⟨0xd00008, 32, 12, .ro, 0, false, false, false, []⟩
def MEM_CTRL_PREFETCH : Fld := ⟨0xd00010, 0, 1, .rw, 1, false, false, false, []⟩
def MEM_CTRL_SCRUB_H : Fld := ⟨0xd00010, 8, 8, .rw, 24, false, false, false, [(1, 168)]⟩
def MEM_CTRL_CE_LIMIT : Fld := ⟨0xd00010, 16, 16, .rw, 1000, false, false, false, [(1, 65535)]⟩
def MEM_WAY_CMD_CMD : Fld := ⟨0xd00018, 0, 2, .wo, 0, false, true, false, [(1, 2)]⟩
def MEM_WAY_CMD_WAY : Fld := ⟨0xd00018, 4, 4, .wo, 0, false, true, false, []⟩
def MEM_WAY_RESULT_VALID : Fld := ⟨0xd0001c, 0, 1, .ro, 0, false, false, false, []⟩
def MEM_WAY_RESULT_CODE : Fld := ⟨0xd0001c, 8, 8, .ro, 0, false, false, false, []⟩
def MEM_WAY_RESULT_WAY : Fld := ⟨0xd0001c, 16, 4, .ro, 0, false, false, false, []⟩
def MEM_WAY_STATUS_DRAINING : Fld := ⟨0xd00020, 0, 4, .ro, 0, false, false, false, []⟩
def MEM_WAY_STATUS_ACTIVE : Fld := ⟨0xd00020, 4, 1, .ro, 0, false, false, false, []⟩
def MEM_WAY_STATUS_REFUSED : Fld := ⟨0xd00020, 5, 1, .w1c, 0, false, false, false, []⟩
def MEM_WAY_STATUS_FAULTY : Fld := ⟨0xd00020, 16, 16, .ro, 0, false, false, false, []⟩
def MEM_UE_LOG_CH : Fld := ⟨0xd00028, 0, 4, .ro, 0, false, false, false, []⟩
def MEM_UE_LOG_REGION : Fld := ⟨0xd00028, 4, 4, .ro, 0, false, false, false, []⟩
def MEM_UE_LOG_SCRUB : Fld := ⟨0xd00028, 8, 1, .ro, 0, false, false, false, []⟩
def MEM_UE_ADDR_ADDR : Fld := ⟨0xd00030, 0, 64, .ro, 0, false, false, false, []⟩
def MEM_CH_STATUS_HOT (i : Nat) : Fld := ⟨0xd00040 + 4 * i, 0, 1, .ro, 0, false, false, false, []⟩
def MEM_CH_STATUS_CE_HIGH (i : Nat) : Fld := ⟨0xd00040 + 4 * i, 1, 1, .ro, 0, false, false, false, []⟩
def MEM_CH_STATUS_TEMP (i : Nat) : Fld := ⟨0xd00040 + 4 * i, 2, 8, .ro, 0, false, false, false, []⟩
def MEM_CH_CNT_CE_CE (i : Nat) : Fld := ⟨0xd00100 + 16 * i, 0, 64, .ro, 0, true, false, false, []⟩
def MEM_CH_CNT_UE_UE (i : Nat) : Fld := ⟨0xd00108 + 16 * i, 0, 64, .ro, 0, true, false, false, []⟩
def MEM_CNT_HIT_HIT : Fld := ⟨0xd00200, 0, 64, .ro, 0, true, false, false, []⟩
def MEM_CNT_MISS_MISS : Fld := ⟨0xd00208, 0, 64, .ro, 0, true, false, false, []⟩
def MEM_CNT_PF_PF : Fld := ⟨0xd00210, 0, 64, .ro, 0, true, false, false, []⟩
def MEM_CNT_PF_USED_PF_USED : Fld := ⟨0xd00218, 0, 64, .ro, 0, true, false, false, []⟩
def MEM_CNT_WB_WB : Fld := ⟨0xd00220, 0, 64, .ro, 0, true, false, false, []⟩
def MEM_CNT_SNOOP_SNOOP : Fld := ⟨0xd00228, 0, 64, .ro, 0, true, false, false, []⟩
def MEM_CNT_XWB_XWB : Fld := ⟨0xd00230, 0, 64, .ro, 0, true, false, false, []⟩
def MEM_CNT_SRAM_CE_SRAM_CE : Fld := ⟨0xd00238, 0, 64, .ro, 0, true, false, false, []⟩
def MEM_CNT_SRAM_UE_SRAM_UE : Fld := ⟨0xd00240, 0, 64, .ro, 0, true, false, false, []⟩
def MEM_CNT_CLR_CLR : Fld := ⟨0xd00248, 0, 64, .wo, 0, false, true, false, []⟩
def PWR_STATUS_STATE : Fld := ⟨0xe00000, 0, 2, .ro, 1, false, false, true, []⟩
def PWR_STATUS_PHASE : Fld := ⟨0xe00000, 2, 3, .ro, 0, false, false, false, []⟩
def PWR_STATUS_HELD_TEST : Fld := ⟨0xe00000, 5, 1, .ro, 0, false, false, false, []⟩
def PWR_STATUS_HELD_KCF : Fld := ⟨0xe00000, 6, 1, .ro, 0, false, false, false, []⟩
def PWR_STATUS_REFUSED : Fld := ⟨0xe00000, 7, 1, .w1c, 0, false, false, false, []⟩
def PWR_STATUS_COLD : Fld := ⟨0xe00000, 8, 1, .ro, 0, false, false, false, []⟩
def PWR_CMD_CMD : Fld := ⟨0xe00004, 0, 2, .wo, 0, false, true, false, [(1, 2)]⟩
def PWR_RESULT_VALID : Fld := ⟨0xe00008, 0, 1, .ro, 0, false, false, false, []⟩
def PWR_RESULT_CODE : Fld := ⟨0xe00008, 8, 8, .ro, 0, false, false, false, []⟩
def PWR_CTRL_HOSTLESS_S : Fld := ⟨0xe0000c, 0, 16, .rw, 60, true, false, false, []⟩
def PWR_CTRL_GATE_US : Fld := ⟨0xe0000c, 16, 8, .rw, 20, true, false, false, [(1, 255)]⟩
def PWR_CTRL_PCAP_W : Fld := ⟨0xe0000c, 24, 8, .rw, 240, true, false, false, [(100, 240)]⟩
def PWR_WAKE_EN_EN : Fld := ⟨0xe00010, 0, 6, .rw, 63, true, false, false, []⟩
def PWR_WAKE_CAUSE_CAUSE : Fld := ⟨0xe00014, 0, 6, .ro, 0, true, false, false, []⟩
def PWR_WAKE_CAUSE_TRIP : Fld := ⟨0xe00014, 6, 1, .ro, 0, true, false, false, []⟩
def PWR_WAKE_CAUSE_COLD : Fld := ⟨0xe00014, 7, 1, .ro, 0, true, false, false, []⟩
def PWR_WAKE_CAUSE_STRING : Fld := ⟨0xe00014, 8, 4, .ro, 0, true, false, false, []⟩
def PWR_IRQ_IRQ_EN : Fld := ⟨0xe00018, 0, 1, .rw, 0, false, false, false, []⟩
def PWR_IRQ_VECTOR : Fld := ⟨0xe00018, 1, 11, .rw, 0, false, false, false, []⟩
def PWR_SHELF_CTRL_STAGGER_N : Fld := ⟨0xe0001c, 0, 5, .rw, 8, true, false, false, [(1, 16)]⟩
def PWR_SHELF_CTRL_STAGGER_MS : Fld := ⟨0xe0001c, 8, 8, .rw, 100, true, false, false, [(10, 250)]⟩
def PWR_THERM_TEMP : Fld := ⟨0xe00020, 0, 9, .ro, 0, false, false, false, []⟩
def PWR_THERM_SENSOR : Fld := ⟨0xe00020, 12, 4, .ro, 0, false, false, false, []⟩
def PWR_THERM_CAP_MHZ : Fld := ⟨0xe00020, 16, 16, .ro, 2000, false, false, false, []⟩
def PWR_THERM_CTRL_WARN : Fld := ⟨0xe00024, 0, 9, .rw, 125, true, false, false, [(85, 134)]⟩
def PWR_PLL_LOCK : Fld := ⟨0xe00028, 0, 10, .ro, 0, false, false, false, []⟩
def PWR_PLL_FAIL : Fld := ⟨0xe00028, 16, 10, .ro, 0, false, false, false, []⟩
def PWR_CL_FREQ_FREQ (i : Nat) : Fld := ⟨0xe00040 + 8 * i, 0, 64, .ro, 0, false, false, true, []⟩
def PWR_CNT_NIGHTS_NIGHTS : Fld := ⟨0xe00100, 0, 64, .ro, 0, true, false, false, []⟩
def PWR_CNT_NIGHT_MS_NIGHT_MS : Fld := ⟨0xe00108, 0, 64, .ro, 0, true, false, false, []⟩
def PWR_CNT_CAP_MS_CAP_MS : Fld := ⟨0xe00110, 0, 64, .ro, 0, true, false, false, []⟩
def PWR_CNT_COHORT_WAKES_COHORT_WAKES : Fld := ⟨0xe00118, 0, 64, .ro, 0, true, false, false, []⟩
def PWR_CNT_SHELF_TMO_SHELF_TMO : Fld := ⟨0xe00120, 0, 64, .ro, 0, true, false, false, []⟩
def PWR_CNT_TRIPS_TRIPS : Fld := ⟨0xe00128, 0, 64, .ro, 0, true, false, false, []⟩
def PWR_CNT_CLR_CLR : Fld := ⟨0xe00130, 0, 64, .wo, 0, false, true, false, []⟩
def SEC_ROOT_STATUS_LIFECYCLE : Fld := ⟨0xf00000, 0, 3, .ro, 0, false, false, true, []⟩
def SEC_ROOT_STATUS_DEBUG : Fld := ⟨0xf00000, 4, 2, .ro, 0, false, false, true, []⟩
def SEC_ROOT_STATUS_BUSY : Fld := ⟨0xf00000, 8, 1, .ro, 0, false, false, false, []⟩
def SEC_ROOT_STATUS_CHAL_VALID : Fld := ⟨0xf00000, 9, 1, .ro, 0, false, false, true, []⟩
def SEC_ROOT_STATUS_REFUSED : Fld := ⟨0xf00000, 10, 1, .w1c, 0, false, false, false, []⟩
def SEC_ROOT_STATUS_ZEROIZE_PENDING : Fld := ⟨0xf00000, 11, 1, .ro, 0, false, false, true, []⟩
def SEC_ROOT_STATUS_SECRETS : Fld := ⟨0xf00000, 12, 1, .ro, 0, false, false, true, []⟩
def SEC_ROOT_CMD_CMD : Fld := ⟨0xf00004, 0, 2, .wo, 0, false, true, false, [(1, 3)]⟩
def SEC_ROOT_RESULT_VALID : Fld := ⟨0xf00008, 0, 1, .ro, 0, false, false, false, []⟩
def SEC_ROOT_RESULT_CODE : Fld := ⟨0xf00008, 8, 8, .ro, 0, false, false, false, []⟩
def SEC_ROOT_RESULT_COMMAND : Fld := ⟨0xf00008, 16, 8, .ro, 0, false, false, false, []⟩
def SEC_ROOT_OTP_OWNER_FUSED : Fld := ⟨0xf00010, 0, 4, .ro, 0, false, false, true, []⟩
def SEC_ROOT_OTP_OWNER_REVOKED : Fld := ⟨0xf00010, 4, 4, .ro, 0, false, false, true, []⟩
def SEC_ROOT_OTP_FW_KEY_REVOKE : Fld := ⟨0xf00010, 8, 2, .ro, 0, false, false, true, []⟩
def SEC_ROOT_OTP_SERVICE_LEFT : Fld := ⟨0xf00010, 16, 5, .ro, 16, false, false, true, []⟩
def SEC_ROOT_DSN_DSN : Fld := ⟨0xf00018, 0, 64, .ro, 0, false, false, true, []⟩
def SEC_ROOT_KT_SERIAL_KT_SERIAL : Fld := ⟨0xf00020, 0, 64, .ro, 0, false, false, true, []⟩
def SEC_ROOT_MEAS_SEL_INDEX : Fld := ⟨0xf00028, 0, 3, .rw, 1, false, false, false, [(1, 6)]⟩
def SEC_ROOT_MEAS_VALUE (i : Nat) : Fld := ⟨0xf00030 + 8 * i, 0, 64, .ro, 0, false, false, true, []⟩
def SEC_ROOT_CHAL_CHALLENGE (i : Nat) : Fld := ⟨0xf00060 + 8 * i, 0, 64, .ro, 0, false, false, true, []⟩
def SEC_ROOT_MAILBOX_WORD (i : Nat) : Fld := ⟨0xf00400 + 8 * i, 0, 64, .rw, 0, false, false, false, []⟩
def SEC_ROOT_CNT_OPENS_OPENS : Fld := ⟨0xf00100, 0, 64, .ro, 0, false, false, true, []⟩
def SEC_ROOT_CNT_TOKENS_OK_TOKENS_OK : Fld := ⟨0xf00108, 0, 64, .ro, 0, true, false, false, []⟩
def SEC_ROOT_CNT_TOKENS_BAD_TOKENS_BAD : Fld := ⟨0xf00110, 0, 64, .ro, 0, true, false, false, []⟩
def SEC_ROOT_CNT_STORE_STORE_WRITES : Fld := ⟨0xf00118, 0, 64, .ro, 0, false, false, true, []⟩
def SEC_ROOT_CNT_CLR_CLR : Fld := ⟨0xf00120, 0, 64, .wo, 0, false, true, false, []⟩
def BOOT_STATUS_STAGE : Fld := ⟨0x1000000, 0, 2, .ro, 0, false, false, false, []⟩
def BOOT_STATUS_LOADER_COPY : Fld := ⟨0x1000000, 2, 1, .ro, 0, false, false, false, []⟩
def BOOT_STATUS_FW_PENDING : Fld := ⟨0x1000000, 3, 1, .ro, 0, false, false, false, []⟩
def BOOT_STATUS_COMMIT_PENDING : Fld := ⟨0x1000000, 4, 1, .ro, 0, false, false, false, []⟩
def BOOT_STATUS_WRITING : Fld := ⟨0x1000000, 5, 1, .ro, 0, false, false, false, []⟩
def BOOT_STATUS_HEALING : Fld := ⟨0x1000000, 6, 1, .ro, 0, false, false, false, []⟩
def BOOT_STATUS_REFUSED : Fld := ⟨0x1000000, 7, 1, .w1c, 0, false, false, false, []⟩
def BOOT_CMD_CMD : Fld := ⟨0x1000004, 0, 2, .wo, 0, false, true, false, [(1, 3)]⟩
def BOOT_RESULT_VALID : Fld := ⟨0x1000008, 0, 1, .ro, 0, false, false, false, []⟩
def BOOT_RESULT_CODE : Fld := ⟨0x1000008, 8, 8, .ro, 0, false, false, false, []⟩
def BOOT_CTRL_CONFIRM_S : Fld := ⟨0x100000c, 0, 16, .rw, 3600, true, false, false, []⟩
def BOOT_CTRL_HEAL_PEER : Fld := ⟨0x100000c, 16, 1, .rw, 1, true, false, false, []⟩
def BOOT_FW_RUNNING_SERIAL : Fld := ⟨0x1000010, 0, 64, .ro, 0, false, false, false, []⟩
def BOOT_FW_SLOT_SERIAL : Fld := ⟨0x1000018, 0, 64, .ro, 0, false, false, true, []⟩
def BOOT_FW_FLOOR_FLOOR : Fld := ⟨0x1000020, 0, 64, .ro, 0, false, false, true, []⟩
def BOOT_GEN_AWG : Fld := ⟨0x1000028, 0, 16, .ro, 0, false, false, true, []⟩
def BOOT_GEN_WRITE_GEN : Fld := ⟨0x1000028, 16, 16, .ro, 0, false, false, false, []⟩
def BOOT_GEN_READ_MIN_GEN : Fld := ⟨0x1000028, 32, 16, .ro, 0, false, false, false, []⟩
def BOOT_VERIFY_CHECK : Fld := ⟨0x1000030, 0, 3, .ro, 0, false, false, false, []⟩
def BOOT_VERIFY_SOURCE : Fld := ⟨0x1000030, 4, 2, .ro, 0, false, false, false, []⟩
def BOOT_LO_CAUSE : Fld := ⟨0x1000034, 0, 3, .ro, 0, true, false, false, []⟩
def BOOT_LO_ATTEMPTS : Fld := ⟨0x1000034, 8, 8, .ro, 0, false, false, true, []⟩
def BOOT_BOARD_SSVID : Fld := ⟨0x1000038, 0, 16, .rw, 0, false, false, false, []⟩
def BOOT_BOARD_SSID : Fld := ⟨0x1000038, 16, 16, .rw, 0, false, false, false, []⟩
def BOOT_BOARD_SERIAL_SERIAL : Fld := ⟨0x1000040, 0, 64, .rw, 0, false, false, false, []⟩
def BOOT_CNT_DAWNS_DAWNS : Fld := ⟨0x1000100, 0, 64, .ro, 0, true, false, false, []⟩
def BOOT_CNT_LO_LOADER_ONLY : Fld := ⟨0x1000108, 0, 64, .ro, 0, true, false, false, []⟩
def BOOT_CNT_COMMITS_COMMITS : Fld := ⟨0x1000110, 0, 64, .ro, 0, true, false, false, []⟩
def BOOT_CNT_HEALS_HEALS : Fld := ⟨0x1000118, 0, 64, .ro, 0, true, false, false, []⟩
def BOOT_CNT_CLR_CLR : Fld := ⟨0x1000120, 0, 64, .wo, 0, false, true, false, []⟩
def CFG_ID_WORD (i : Nat) : Fld := ⟨0x40000000 + 0x1000 * i, 0, 32, .ro, 0, false, false, true, []⟩
def CFG_COMMAND_MSE (i : Nat) : Fld := ⟨0x40000004 + 0x1000 * i, 1, 1, .rw, 0, false, false, false, []⟩
def CFG_COMMAND_BME (i : Nat) : Fld := ⟨0x40000004 + 0x1000 * i, 2, 1, .rw, 0, false, true, false, []⟩
def CFG_COMMAND_PERR (i : Nat) : Fld := ⟨0x40000004 + 0x1000 * i, 6, 1, .rw, 0, false, false, false, []⟩
def CFG_COMMAND_SERR (i : Nat) : Fld := ⟨0x40000004 + 0x1000 * i, 8, 1, .rw, 0, false, false, false, []⟩
def CFG_COMMAND_CAPLIST (i : Nat) : Fld := ⟨0x40000004 + 0x1000 * i, 20, 1, .ro, 1, false, false, false, []⟩
def CFG_COMMAND_MDPE (i : Nat) : Fld := ⟨0x40000004 + 0x1000 * i, 24, 1, .w1c, 0, false, false, false, []⟩
def CFG_COMMAND_RTA (i : Nat) : Fld := ⟨0x40000004 + 0x1000 * i, 28, 1, .w1c, 0, false, false, false, []⟩
def CFG_COMMAND_RMA (i : Nat) : Fld := ⟨0x40000004 + 0x1000 * i, 29, 1, .w1c, 0, false, false, false, []⟩
def CFG_COMMAND_SSE (i : Nat) : Fld := ⟨0x40000004 + 0x1000 * i, 30, 1, .w1c, 0, false, false, false, []⟩
def CFG_COMMAND_DPE (i : Nat) : Fld := ⟨0x40000004 + 0x1000 * i, 31, 1, .w1c, 0, false, false, false, []⟩
def CFG_REVCLASS_WORD (i : Nat) : Fld := ⟨0x40000008 + 0x1000 * i, 0, 32, .ro, 0, false, false, true, []⟩
def CFG_BAR0_TYPE : Fld := ⟨0x40000010, 0, 4, .ro, 4, false, false, false, []⟩
def CFG_BAR0_ADDR : Fld := ⟨0x40000010, 14, 18, .rw, 0, false, false, false, []⟩
def CFG_BAR1_ADDR : Fld := ⟨0x40000014, 0, 32, .rw, 0, false, false, false, []⟩
def CFG_BAR2_TYPE : Fld := ⟨0x40000018, 0, 4, .ro, 4, false, false, false, []⟩
def CFG_BAR2_ADDR : Fld := ⟨0x40000018, 28, 4, .rw, 0, false, false, false, []⟩
def CFG_BAR3_ADDR : Fld := ⟨0x4000001c, 0, 32, .rw, 0, false, false, false, []⟩
def CFG_BAR4_TYPE : Fld := ⟨0x40000020, 0, 4, .ro, 4, false, false, false, []⟩
def CFG_BAR4_ADDR : Fld := ⟨0x40000020, 16, 16, .rw, 0, false, false, false, []⟩
def CFG_BAR5_ADDR : Fld := ⟨0x40000024, 0, 32, .rw, 0, false, false, false, []⟩
def CFG_SUBSYS_WORD (i : Nat) : Fld := ⟨0x4000002c + 0x1000 * i, 0, 32, .ro, 0, false, false, true, []⟩
def CFG_CAPPTR_PF (i : Nat) : Fld := ⟨0x40000034 + 0x1000 * i, 0, 8, .ro, 64, false, false, false, []⟩
def CFG_CAPPTR_VF (i : Nat) : Fld := ⟨0x40000034 + 0x1000 * i, 0, 8, .ro, 80, false, false, false, []⟩
def CFG_INT_LINE (i : Nat) : Fld := ⟨0x4000003c + 0x1000 * i, 0, 8, .rw, 0, false, false, false, []⟩
def CFG_INT_PIN (i : Nat) : Fld := ⟨0x4000003c + 0x1000 * i, 8, 8, .ro, 0, false, false, false, []⟩
def CFG_PMC_ID : Fld := ⟨0x40000040, 0, 8, .ro, 1, false, false, false, []⟩
def CFG_PMC_NEXT : Fld := ⟨0x40000040, 8, 8, .ro, 80, false, false, false, []⟩
def CFG_PMC_VERSION : Fld := ⟨0x40000040, 16, 3, .ro, 3, false, false, false, []⟩
def CFG_PMC_PME_SUPPORT : Fld := ⟨0x40000040, 27, 5, .ro, 8, false, false, false, []⟩
def CFG_PMCSR_POWER_STATE : Fld := ⟨0x40000044, 0, 2, .rw, 0, false, false, false, [(0, 0), (3, 3)]⟩
def CFG_PMCSR_NO_SOFT_RESET : Fld := ⟨0x40000044, 3, 1, .ro, 1, false, false, false, []⟩
def CFG_PMCSR_PME_EN : Fld := ⟨0x40000044, 8, 1, .rw, 0, false, false, false, []⟩
def CFG_PMCSR_PME_STATUS : Fld := ⟨0x40000044, 15, 1, .w1c, 0, false, false, true, []⟩
def CFG_PCIE_ID (i : Nat) : Fld := ⟨0x40000050 + 0x1000 * i, 0, 8, .ro, 16, false, false, false, []⟩
def CFG_PCIE_NEXT (i : Nat) : Fld := ⟨0x40000050 + 0x1000 * i, 8, 8, .ro, 176, false, false, false, []⟩
def CFG_PCIE_VERSION (i : Nat) : Fld := ⟨0x40000050 + 0x1000 * i, 16, 4, .ro, 2, false, false, false, []⟩
def CFG_PCIE_TYPE (i : Nat) : Fld := ⟨0x40000050 + 0x1000 * i, 20, 4, .ro, 0, false, false, false, []⟩
def CFG_PCIE_FLIT_MODE (i : Nat) : Fld := ⟨0x40000050 + 0x1000 * i, 31, 1, .ro, 1, false, false, false, []⟩
def CFG_DEVCAP_MPS (i : Nat) : Fld := ⟨0x40000054 + 0x1000 * i, 0, 3, .ro, 2, false, false, false, []⟩
def CFG_DEVCAP_EXT_TAG (i : Nat) : Fld := ⟨0x40000054 + 0x1000 * i, 5, 1, .ro, 1, false, false, false, []⟩
def CFG_DEVCAP_ROLE_ERR (i : Nat) : Fld := ⟨0x40000054 + 0x1000 * i, 15, 1, .ro, 1, false, false, false, []⟩
def CFG_DEVCAP_FLR (i : Nat) : Fld := ⟨0x40000054 + 0x1000 * i, 28, 1, .ro, 1, false, false, false, []⟩
def CFG_DEVCTL_CERE (i : Nat) : Fld := ⟨0x40000058 + 0x1000 * i, 0, 1, .rw, 0, false, true, false, []⟩
def CFG_DEVCTL_NFERE (i : Nat) : Fld := ⟨0x40000058 + 0x1000 * i, 1, 1, .rw, 0, false, true, false, []⟩
def CFG_DEVCTL_FERE (i : Nat) : Fld := ⟨0x40000058 + 0x1000 * i, 2, 1, .rw, 0, false, true, false, []⟩
def CFG_DEVCTL_URRE (i : Nat) : Fld := ⟨0x40000058 + 0x1000 * i, 3, 1, .rw, 0, false, true, false, []⟩
def CFG_DEVCTL_RELAX (i : Nat) : Fld := ⟨0x40000058 + 0x1000 * i, 4, 1, .rw, 1, false, true, false, []⟩
def CFG_DEVCTL_MPS (i : Nat) : Fld := ⟨0x40000058 + 0x1000 * i, 5, 3, .rw, 0, false, true, false, []⟩
def CFG_DEVCTL_MRRS (i : Nat) : Fld := ⟨0x40000058 + 0x1000 * i, 12, 3, .rw, 2, false, true, false, []⟩
def CFG_DEVCTL_CED (i : Nat) : Fld := ⟨0x40000058 + 0x1000 * i, 16, 1, .w1c, 0, false, false, false, []⟩
def CFG_DEVCTL_NFED (i : Nat) : Fld := ⟨0x40000058 + 0x1000 * i, 17, 1, .w1c, 0, false, false, false, []⟩
def CFG_DEVCTL_FED (i : Nat) : Fld := ⟨0x40000058 + 0x1000 * i, 18, 1, .w1c, 0, false, false, false, []⟩
def CFG_DEVCTL_URD (i : Nat) : Fld := ⟨0x40000058 + 0x1000 * i, 19, 1, .w1c, 0, false, false, false, []⟩
def CFG_DEVCTL_TRANS (i : Nat) : Fld := ⟨0x40000058 + 0x1000 * i, 21, 1, .ro, 0, false, false, true, []⟩
def CFG_LINKCAP_SPEED (i : Nat) : Fld := ⟨0x4000005c + 0x1000 * i, 0, 4, .ro, 6, false, false, false, []⟩
def CFG_LINKCAP_WIDTH (i : Nat) : Fld := ⟨0x4000005c + 0x1000 * i, 4, 6, .ro, 16, false, false, false, []⟩
def CFG_LINKCAP_ASPM (i : Nat) : Fld := ⟨0x4000005c + 0x1000 * i, 10, 2, .ro, 2, false, false, false, []⟩
def CFG_LINKCTL_ASPM : Fld := ⟨0x40000060, 0, 2, .rw, 0, false, false, false, []⟩
def CFG_LINKCTL_SPEED : Fld := ⟨0x40000060, 16, 4, .ro, 0, false, false, true, []⟩
def CFG_LINKCTL_WIDTH : Fld := ⟨0x40000060, 20, 6, .ro, 0, false, false, true, []⟩
def CFG_DEVCAP2_CTO_RANGES (i : Nat) : Fld := ⟨0x40000074 + 0x1000 * i, 0, 4, .ro, 15, false, false, false, []⟩
def CFG_DEVCAP2_CTO_DISABLE (i : Nat) : Fld := ⟨0x40000074 + 0x1000 * i, 4, 1, .ro, 0, false, false, false, []⟩
def CFG_DEVCAP2_TAG10_COMPLETER (i : Nat) : Fld := ⟨0x40000074 + 0x1000 * i, 16, 1, .ro, 1, false, false, false, []⟩
def CFG_DEVCAP2_TAG10_REQUESTER (i : Nat) : Fld := ⟨0x40000074 + 0x1000 * i, 17, 1, .ro, 1, false, false, false, []⟩
def CFG_DEVCTL2_CTO (i : Nat) : Fld := ⟨0x40000078 + 0x1000 * i, 0, 4, .rw, 0, false, false, false, []⟩
def CFG_DEVCTL2_TAG10 (i : Nat) : Fld := ⟨0x40000078 + 0x1000 * i, 12, 1, .rw, 0, false, false, false, []⟩
def CFG_LINKCAP2_SPEEDS (i : Nat) : Fld := ⟨0x4000007c + 0x1000 * i, 1, 7, .ro, 63, false, false, false, []⟩
def CFG_LINKCAP2_DRS (i : Nat) : Fld := ⟨0x4000007c + 0x1000 * i, 31, 1, .ro, 1, false, false, false, []⟩
def CFG_LINKCTL2_TARGET : Fld := ⟨0x40000080, 0, 4, .rw, 6, false, false, false, []⟩
def CFG_LINKCTL2_FLIT : Fld := ⟨0x40000080, 26, 1, .ro, 0, false, false, true, []⟩
def CFG_MSIX_CTRL_ID (i : Nat) : Fld := ⟨0x400000b0 + 0x1000 * i, 0, 8, .ro, 17, false, false, false, []⟩
def CFG_MSIX_CTRL_NEXT (i : Nat) : Fld := ⟨0x400000b0 + 0x1000 * i, 8, 8, .ro, 0, false, false, false, []⟩
def CFG_MSIX_CTRL_TSIZE (i : Nat) : Fld := ⟨0x400000b0 + 0x1000 * i, 16, 11, .ro, 0, false, false, true, []⟩
def CFG_MSIX_CTRL_FMASK (i : Nat) : Fld := ⟨0x400000b0 + 0x1000 * i, 30, 1, .rw, 0, false, true, false, []⟩
def CFG_MSIX_CTRL_ENABLE (i : Nat) : Fld := ⟨0x400000b0 + 0x1000 * i, 31, 1, .rw, 0, false, true, false, []⟩
def CFG_MSIX_TABLE_BIR (i : Nat) : Fld := ⟨0x400000b4 + 0x1000 * i, 0, 3, .ro, 4, false, false, false, []⟩
def CFG_MSIX_TABLE_OFFSET (i : Nat) : Fld := ⟨0x400000b4 + 0x1000 * i, 3, 29, .ro, 0, false, false, false, []⟩
def CFG_MSIX_PBA_BIR (i : Nat) : Fld := ⟨0x400000b8 + 0x1000 * i, 0, 3, .ro, 4, false, false, false, []⟩
def CFG_MSIX_PBA_OFFSET_PF (i : Nat) : Fld := ⟨0x400000b8 + 0x1000 * i, 3, 29, .ro, 4096, false, false, false, []⟩
def CFG_MSIX_PBA_OFFSET_VF (i : Nat) : Fld := ⟨0x400000b8 + 0x1000 * i, 3, 29, .ro, 3072, false, false, false, []⟩
def CFG_AER_HEADER (i : Nat) : Fld := ⟨0x40000100 + 0x1000 * i, 0, 32, .ro, 344064001, false, false, false, []⟩
def CFG_AER_UNCOR_STATUS (i : Nat) : Fld := ⟨0x40000104 + 0x1000 * i, 0, 32, .w1c, 0, false, false, false, []⟩
def CFG_AER_UNCOR_MASK_MASK : Fld := ⟨0x40000108, 0, 32, .rw, 4194304, false, false, false, []⟩
def CFG_AER_UNCOR_SEV_SEVERITY : Fld := ⟨0x4000010c, 0, 32, .rw, 4595760, false, false, false, []⟩
def CFG_AER_COR_STATUS (i : Nat) : Fld := ⟨0x40000110 + 0x1000 * i, 0, 32, .w1c, 0, false, false, false, []⟩
def CFG_AER_COR_MASK_MASK : Fld := ⟨0x40000114, 0, 32, .rw, 57344, false, false, false, []⟩
def CFG_AER_CTRL_FIRST (i : Nat) : Fld := ⟨0x40000118 + 0x1000 * i, 0, 5, .ro, 0, false, false, false, []⟩
def CFG_AER_CTRL_GEN_CAPABLE (i : Nat) : Fld := ⟨0x40000118 + 0x1000 * i, 5, 1, .ro, 1, false, false, false, []⟩
def CFG_AER_CTRL_GEN_ENABLE (i : Nat) : Fld := ⟨0x40000118 + 0x1000 * i, 6, 1, .rw, 0, false, false, false, []⟩
def CFG_AER_CTRL_CHECK_CAPABLE (i : Nat) : Fld := ⟨0x40000118 + 0x1000 * i, 7, 1, .ro, 1, false, false, false, []⟩
def CFG_AER_CTRL_CHECK_ENABLE (i : Nat) : Fld := ⟨0x40000118 + 0x1000 * i, 8, 1, .rw, 0, false, false, false, []⟩
def CFG_ARI_HEADER_PF (i : Nat) : Fld := ⟨0x40000148 + 0x1000 * i, 0, 32, .ro, 360775694, false, false, false, []⟩
def CFG_ARI_HEADER_VF (i : Nat) : Fld := ⟨0x40000148 + 0x1000 * i, 0, 32, .ro, 65550, false, false, false, []⟩
def CFG_SRIOV_HEADER : Fld := ⟨0x40000158, 0, 32, .ro, 436273168, false, false, false, []⟩
def CFG_SRIOV_CAP_MIGRATION : Fld := ⟨0x4000015c, 0, 1, .ro, 0, false, false, false, []⟩
def CFG_SRIOV_CAP_TAG10 : Fld := ⟨0x4000015c, 2, 1, .ro, 1, false, false, false, []⟩
def CFG_SRIOV_CAP_TAG14 : Fld := ⟨0x4000015c, 3, 1, .ro, 1, false, false, false, []⟩
def CFG_SRIOV_CTRL_VF_ENABLE : Fld := ⟨0x40000160, 0, 1, .rw, 0, false, true, false, []⟩
def CFG_SRIOV_CTRL_VF_MSE : Fld := ⟨0x40000160, 3, 1, .rw, 0, false, false, false, []⟩
def CFG_SRIOV_CTRL_ARI : Fld := ⟨0x40000160, 4, 1, .rw, 0, false, false, false, []⟩
def CFG_SRIOV_CTRL_VF_TAG10 : Fld := ⟨0x40000160, 5, 1, .rw, 0, false, false, false, []⟩
def CFG_SRIOV_CTRL_VF_TAG14 : Fld := ⟨0x40000160, 6, 1, .rw, 0, false, false, false, []⟩
def CFG_SRIOV_VFS_INITIAL : Fld := ⟨0x40000164, 0, 16, .ro, 1023, false, false, false, []⟩
def CFG_SRIOV_VFS_TOTAL : Fld := ⟨0x40000164, 16, 16, .ro, 1023, false, false, false, []⟩
def CFG_SRIOV_NUMVFS_NUMVFS : Fld := ⟨0x40000168, 0, 16, .rw, 0, false, true, false, []⟩
def CFG_SRIOV_OFS_OFFSET : Fld := ⟨0x4000016c, 0, 16, .ro, 1, false, false, false, []⟩
def CFG_SRIOV_OFS_STRIDE : Fld := ⟨0x4000016c, 16, 16, .ro, 1, false, false, false, []⟩
def CFG_SRIOV_DID_DEVICE_ID : Fld := ⟨0x40000170, 16, 16, .ro, 2401, false, false, false, []⟩
def CFG_SRIOV_SUPPAGE_PAGES : Fld := ⟨0x40000174, 0, 32, .ro, 31, false, false, false, []⟩
def CFG_SRIOV_SYSPAGE_PAGE : Fld := ⟨0x40000178, 0, 32, .rw, 1, false, true, false, []⟩
def CFG_VFBAR0_TYPE : Fld := ⟨0x4000017c, 0, 4, .ro, 4, false, false, false, []⟩
def CFG_VFBAR0_ADDR : Fld := ⟨0x4000017c, 14, 18, .rw, 0, false, false, false, []⟩
def CFG_VFBAR1_ADDR : Fld := ⟨0x40000180, 0, 32, .rw, 0, false, false, false, []⟩
def CFG_VFBAR4_TYPE : Fld := ⟨0x4000018c, 0, 4, .ro, 4, false, false, false, []⟩
def CFG_VFBAR4_ADDR : Fld := ⟨0x4000018c, 15, 17, .rw, 0, false, false, false, []⟩
def CFG_VFBAR5_ADDR : Fld := ⟨0x40000190, 0, 32, .rw, 0, false, false, false, []⟩
def CFG_SECPCIE_HEADER : Fld := ⟨0x400001a0, 0, 32, .ro, 486604825, false, false, false, []⟩
def CFG_DLF_HEADER : Fld := ⟨0x400001d0, 0, 32, .ro, 503382053, false, false, false, []⟩
def CFG_PL16_HEADER : Fld := ⟨0x400001e0, 0, 32, .ro, 553713702, false, false, false, []⟩
def CFG_PL32_HEADER : Fld := ⟨0x40000210, 0, 32, .ro, 604045354, false, false, false, []⟩
def CFG_PL64_HEADER : Fld := ⟨0x40000240, 0, 32, .ro, 637599793, false, false, false, []⟩
def CFG_L1PM_HEADER : Fld := ⟨0x40000260, 0, 32, .ro, 671154206, false, false, false, []⟩
def CFG_L1PM_CAP_SUBSTATES : Fld := ⟨0x40000264, 0, 5, .ro, 31, false, false, false, []⟩
def CFG_L1PM_CTL_ENABLES : Fld := ⟨0x40000268, 0, 4, .rw, 0, false, false, false, []⟩
def CFG_DSN_CAP_HEADER : Fld := ⟨0x40000280, 0, 32, .ro, 687931395, false, false, false, []⟩
def CFG_DSN_DSN : Fld := ⟨0x40000284, 0, 64, .ro, 0, false, false, true, []⟩
def CFG_DEV3_HEADER : Fld := ⟨0x40000290, 0, 32, .ro, 805371951, false, false, false, []⟩
def CFG_DEV3CAP_TAG14_COMPLETER : Fld := ⟨0x40000294, 1, 1, .ro, 1, false, false, false, []⟩
def CFG_DEV3CAP_TAG14_REQUESTER : Fld := ⟨0x40000294, 2, 1, .ro, 1, false, false, false, []⟩
def CFG_DEV3CTL_TAG14 : Fld := ⟨0x40000298, 2, 1, .rw, 0, false, false, false, []⟩
def EPC_DVSEC_HEADER : Fld := ⟨0x40000300, 0, 32, .ro, 65571, false, false, false, []⟩
def EPC_DVSEC1_VENDOR : Fld := ⟨0x40000304, 0, 16, .ro, 7834, false, false, false, []⟩
def EPC_DVSEC1_REV : Fld := ⟨0x40000304, 16, 4, .ro, 1, false, false, false, []⟩
def EPC_DVSEC1_LENGTH : Fld := ⟨0x40000304, 20, 12, .ro, 52, false, false, false, []⟩
def EPC_DVSEC2_ID : Fld := ⟨0x40000308, 0, 16, .ro, 1, false, false, false, []⟩
def EPC_STATUS_RATE : Fld := ⟨0x4000030c, 0, 4, .ro, 0, false, false, false, []⟩
def EPC_STATUS_WIDTH : Fld := ⟨0x4000030c, 4, 5, .ro, 0, false, false, false, []⟩
def EPC_STATUS_FLIT : Fld := ⟨0x4000030c, 9, 1, .ro, 0, false, false, false, []⟩
def EPC_STATUS_HOST_LOST : Fld := ⟨0x4000030c, 10, 1, .w1c, 0, true, false, false, []⟩
def EPC_STATUS_CTO_SEEN : Fld := ⟨0x4000030c, 11, 1, .w1c, 0, true, false, false, []⟩
def EPC_CTRL_CLR_CNT : Fld := ⟨0x40000310, 0, 1, .wo, 0, false, true, false, []⟩
def EPC_CNT_FEC_FEC : Fld := ⟨0x40000314, 0, 32, .ro, 0, true, false, false, []⟩
def EPC_CNT_REPLAY_REPLAY : Fld := ⟨0x40000318, 0, 32, .ro, 0, true, false, false, []⟩
def EPC_CNT_CTO_CTO : Fld := ⟨0x4000031c, 0, 32, .ro, 0, true, false, false, []⟩
def EPC_CNT_POISON_POISON : Fld := ⟨0x40000320, 0, 32, .ro, 0, true, false, false, []⟩
def EPC_CNT_CA_UR_CA_UR : Fld := ⟨0x40000324, 0, 32, .ro, 0, true, false, false, []⟩
def EPC_CNT_UC_UC : Fld := ⟨0x40000328, 0, 32, .ro, 0, true, false, false, []⟩
def EPC_CNT_LINKLOSS_LINKLOSS : Fld := ⟨0x4000032c, 0, 32, .ro, 0, true, false, false, []⟩
def EPC_LAST_ERR_FUNC : Fld := ⟨0x40000330, 0, 10, .ro, 0, true, false, false, []⟩
def EPC_LAST_ERR_KIND : Fld := ⟨0x40000330, 10, 3, .ro, 0, true, false, false, []⟩
def EPC_LAST_ERR_PURPOSE : Fld := ⟨0x40000330, 13, 3, .ro, 0, true, false, false, []⟩
def NVM_CAP_MQES (i : Nat) : Fld := ⟨0x80000000 + 0x4000 * i, 0, 16, .ro, 65535, false, false, false, []⟩
def NVM_CAP_CQR (i : Nat) : Fld := ⟨0x80000000 + 0x4000 * i, 16, 1, .ro, 1, false, false, false, []⟩
def NVM_CAP_AMS (i : Nat) : Fld := ⟨0x80000000 + 0x4000 * i, 17, 2, .ro, 0, false, false, false, []⟩
def NVM_CAP_TO (i : Nat) : Fld := ⟨0x80000000 + 0x4000 * i, 24, 8, .ro, 40, false, false, false, []⟩
def NVM_CAP_DSTRD (i : Nat) : Fld := ⟨0x80000000 + 0x4000 * i, 32, 4, .ro, 0, false, false, false, []⟩
def NVM_CAP_NSSRS (i : Nat) : Fld := ⟨0x80000000 + 0x4000 * i, 36, 1, .ro, 0, false, false, false, []⟩
def NVM_CAP_CSS (i : Nat) : Fld := ⟨0x80000000 + 0x4000 * i, 37, 8, .ro, 1, false, false, false, []⟩
def NVM_CAP_BPS (i : Nat) : Fld := ⟨0x80000000 + 0x4000 * i, 45, 1, .ro, 0, false, false, false, []⟩
def NVM_CAP_MPSMIN (i : Nat) : Fld := ⟨0x80000000 + 0x4000 * i, 48, 4, .ro, 0, false, false, false, []⟩
def NVM_CAP_MPSMAX (i : Nat) : Fld := ⟨0x80000000 + 0x4000 * i, 52, 4, .ro, 4, false, false, false, []⟩
def NVM_CAP_PMRS (i : Nat) : Fld := ⟨0x80000000 + 0x4000 * i, 56, 1, .ro, 0, false, false, false, []⟩
def NVM_CAP_CMBS (i : Nat) : Fld := ⟨0x80000000 + 0x4000 * i, 57, 1, .ro, 0, false, false, false, []⟩
def NVM_CAP_CRWMS (i : Nat) : Fld := ⟨0x80000000 + 0x4000 * i, 59, 1, .ro, 1, false, false, false, []⟩
def NVM_CAP_CRIMS (i : Nat) : Fld := ⟨0x80000000 + 0x4000 * i, 60, 1, .ro, 0, false, false, false, []⟩
def NVM_VS_VS (i : Nat) : Fld := ⟨0x80000008 + 0x4000 * i, 0, 32, .ro, 131072, false, false, false, []⟩
def NVM_CC_EN (i : Nat) : Fld := ⟨0x80000014 + 0x4000 * i, 0, 1, .rw, 0, false, true, false, []⟩
def NVM_CC_CSS (i : Nat) : Fld := ⟨0x80000014 + 0x4000 * i, 4, 3, .rw, 0, false, false, false, []⟩
def NVM_CC_MPS (i : Nat) : Fld := ⟨0x80000014 + 0x4000 * i, 7, 4, .rw, 0, false, false, false, []⟩
def NVM_CC_AMS (i : Nat) : Fld := ⟨0x80000014 + 0x4000 * i, 11, 3, .rw, 0, false, false, false, []⟩
def NVM_CC_SHN (i : Nat) : Fld := ⟨0x80000014 + 0x4000 * i, 14, 2, .rw, 0, false, true, false, []⟩
def NVM_CC_IOSQES (i : Nat) : Fld := ⟨0x80000014 + 0x4000 * i, 16, 4, .rw, 0, false, false, false, []⟩
def NVM_CC_IOCQES (i : Nat) : Fld := ⟨0x80000014 + 0x4000 * i, 20, 4, .rw, 0, false, false, false, []⟩
def NVM_CSTS_RDY (i : Nat) : Fld := ⟨0x8000001c + 0x4000 * i, 0, 1, .ro, 0, false, false, false, []⟩
def NVM_CSTS_CFS (i : Nat) : Fld := ⟨0x8000001c + 0x4000 * i, 1, 1, .ro, 0, false, false, false, []⟩
def NVM_CSTS_SHST (i : Nat) : Fld := ⟨0x8000001c + 0x4000 * i, 2, 2, .ro, 0, false, false, false, []⟩
def NVM_AQA_ASQS (i : Nat) : Fld := ⟨0x80000024 + 0x4000 * i, 0, 12, .rw, 0, false, false, false, []⟩
def NVM_AQA_ACQS (i : Nat) : Fld := ⟨0x80000024 + 0x4000 * i, 16, 12, .rw, 0, false, false, false, []⟩
def NVM_ASQ_ASQB (i : Nat) : Fld := ⟨0x80000028 + 0x4000 * i, 0, 64, .rw, 0, false, false, false, []⟩
def NVM_ACQ_ACQB (i : Nat) : Fld := ⟨0x80000030 + 0x4000 * i, 0, 64, .rw, 0, false, false, false, []⟩
def MSX_ADDR_ADDR (i j : Nat) : Fld := ⟨0xc0000000 + 0x10000 * i + 16 * j, 0, 32, .rw, 0, false, true, false, []⟩
def MSX_UPPER_ADDR (i j : Nat) : Fld := ⟨0xc0000004 + 0x10000 * i + 16 * j, 0, 32, .rw, 0, false, true, false, []⟩
def MSX_DATA_DATA (i j : Nat) : Fld := ⟨0xc0000008 + 0x10000 * i + 16 * j, 0, 32, .rw, 0, false, true, false, []⟩
def MSX_CTRL_MASK (i j : Nat) : Fld := ⟨0xc000000c + 0x10000 * i + 16 * j, 0, 1, .rw, 1, false, true, false, []⟩

end R

/-- The GLB registers (R38). -/
def regsGLB : List RegDesc :=
  [⟨0x0, 4, 1, 0x0, 1, 0x0, fun _ _ => [R.GLB_ID_PART, R.GLB_ID_FAMILY]⟩,
   ⟨0x4, 4, 1, 0x0, 1, 0x0, fun _ _ => [R.GLB_REV_MINOR, R.GLB_REV_MAJOR]⟩,
   ⟨0x8, 4, 1, 0x0, 1, 0x0, fun _ _ => [R.GLB_HEAD_POS, R.GLB_HEAD_HEAD_ID]⟩,
   ⟨0x10, 4, 1, 0x0, 1, 0x0, fun _ _ => [R.GLB_STATUS_PSTATE, R.GLB_STATUS_IMAGE_ACTIVE, R.GLB_STATUS_LOADER_ONLY, R.GLB_STATUS_PEER_UP, R.GLB_STATUS_SOLE, R.GLB_STATUS_DEGRADED, R.GLB_STATUS_THERMAL_CAP, R.GLB_STATUS_ALERT, R.GLB_STATUS_DEBUG_OPEN, R.GLB_STATUS_LIFECYCLE]⟩,
   ⟨0x18, 8, 1, 0x0, 1, 0x0, fun _ _ => [R.GLB_TIME_TIME]⟩,
   ⟨0x20, 8, 1, 0x0, 1, 0x0, fun _ _ => [R.GLB_PEER_TIME_OFS_OFS]⟩,
   ⟨0x28, 8, 1, 0x0, 1, 0x0, fun _ _ => [R.GLB_EPOCH_EPOCH]⟩,
   ⟨0x30, 8, 1, 0x0, 1, 0x0, fun _ _ => [R.GLB_SCRATCH_SCRATCH]⟩]

/-- The KCF registers (R67). -/
def regsKCF : List RegDesc :=
  [⟨0x100000, 4, 1, 0x0, 1, 0x0, fun _ _ => [R.KCF_STATUS_STATE, R.KCF_STATUS_AGREED, R.KCF_STATUS_NEEDS_RESET, R.KCF_STATUS_FELL_BACK, R.KCF_STATUS_NO_IMAGE, R.KCF_STATUS_PARTIAL, R.KCF_STATUS_REFUSED]⟩,
   ⟨0x100004, 4, 1, 0x0, 1, 0x0, fun _ _ => [R.KCF_CMD_CMD]⟩,
   ⟨0x10000c, 4, 1, 0x0, 1, 0x0, fun _ _ => [R.KCF_CTRL_IRQ_EN, R.KCF_CTRL_VECTOR]⟩,
   ⟨0x100010, 8, 1, 0x0, 1, 0x0, fun _ _ => [R.KCF_SRC_ADDR_ADDR]⟩,
   ⟨0x100018, 4, 1, 0x0, 1, 0x0, fun _ _ => [R.KCF_SRC_LEN_LEN]⟩,
   ⟨0x100020, 4, 1, 0x0, 1, 0x0, fun _ _ => [R.KCF_RESULT_VALID, R.KCF_RESULT_CODE, R.KCF_RESULT_SECTION]⟩,
   ⟨0x100024, 4, 1, 0x0, 1, 0x0, fun _ _ => [R.KCF_RESULT_OFS_OFS]⟩,
   ⟨0x100028, 8, 1, 0x0, 1, 0x0, fun _ _ => [R.KCF_ACT_EPOCH_EPOCH]⟩,
   ⟨0x100030, 4, 1, 0x0, 1, 0x0, fun _ _ => [R.KCF_ACT_TMO_ACT_TMO]⟩,
   ⟨0x100034, 4, 1, 0x0, 1, 0x0, fun _ _ => [R.KCF_QUIESCE_TMO_QUIESCE_TMO]⟩,
   ⟨0x100038, 4, 1, 0x0, 1, 0x0, fun _ _ => [R.KCF_CLUSTER_DONE_DONE]⟩,
   ⟨0x10003c, 4, 1, 0x0, 1, 0x0, fun _ _ => [R.KCF_CLUSTER_FAIL_FAIL]⟩,
   ⟨0x100040, 8, 1, 0x0, 1, 0x0, fun _ _ => [R.KCF_SERIAL_ACTIVE_SERIAL]⟩,
   ⟨0x100048, 8, 1, 0x0, 1, 0x0, fun _ _ => [R.KCF_SERIAL_STAGED_SERIAL]⟩,
   ⟨0x100050, 8, 1, 0x0, 1, 0x0, fun _ _ => [R.KCF_FLOOR_FLOOR]⟩,
   ⟨0x100060, 8, 6, 0x8, 1, 0x0, fun i _ => [R.KCF_ACTIVE_DIGEST_DIGEST i]⟩]

/-- The EVR registers (R594). -/
def regsEVR : List RegDesc :=
  [⟨0x200000, 4, 1, 0x0, 1, 0x0, fun _ _ => [R.EVR_STATUS_FROZEN, R.EVR_STATUS_FALLBACK, R.EVR_STATUS_C_FULL, R.EVR_STATUS_REFUSED]⟩,
   ⟨0x200004, 4, 1, 0x0, 1, 0x0, fun _ _ => [R.EVR_CMD_CMD]⟩,
   ⟨0x200008, 4, 1, 0x0, 1, 0x0, fun _ _ => [R.EVR_RESULT_VALID, R.EVR_RESULT_CODE]⟩,
   ⟨0x20000c, 4, 1, 0x0, 1, 0x0, fun _ _ => [R.EVR_CTRL_EXPORT, R.EVR_CTRL_EXPORT_BURST, R.EVR_CTRL_FREEZE_MS]⟩,
   ⟨0x200010, 8, 1, 0x0, 1, 0x0, fun _ _ => [R.EVR_SEQ_SEQ]⟩,
   ⟨0x200018, 4, 1, 0x0, 1, 0x0, fun _ _ => [R.EVR_G_PTR_TAIL, R.EVR_G_PTR_PHASE]⟩,
   ⟨0x20001c, 4, 1, 0x0, 1, 0x0, fun _ _ => [R.EVR_C_PTR_HEAD, R.EVR_C_PTR_TAIL]⟩,
   ⟨0x200020, 4, 1, 0x0, 1, 0x0, fun _ _ => [R.EVR_CURSOR_CURSOR]⟩,
   ⟨0x200024, 4, 1, 0x0, 1, 0x0, fun _ _ => [R.EVR_ALERT_PENDING]⟩,
   ⟨0x200028, 4, 1, 0x0, 1, 0x0, fun _ _ => [R.EVR_IRQ_IRQ_EN, R.EVR_IRQ_VECTOR, R.EVR_IRQ_THRESH]⟩,
   ⟨0x20002c, 4, 1, 0x0, 1, 0x0, fun _ _ => [R.EVR_IRQ_STATUS_CAUSES]⟩,
   ⟨0x200030, 4, 1, 0x0, 1, 0x0, fun _ _ => [R.EVR_RL_SEL_CODE]⟩,
   ⟨0x200034, 4, 1, 0x0, 1, 0x0, fun _ _ => [R.EVR_RL_CFG_RATE, R.EVR_RL_CFG_BURST]⟩,
   ⟨0x200038, 8, 1, 0x0, 1, 0x0, fun _ _ => [R.EVR_RL_INFO_TOKENS, R.EVR_RL_INFO_SEVERITY, R.EVR_RL_INFO_SUPPRESSED]⟩,
   ⟨0x200040, 4, 1, 0x0, 1, 0x0, fun _ _ => [R.EVR_FB_STATUS_COUNT, R.EVR_FB_STATUS_NEXT, R.EVR_FB_STATUS_DROPPED]⟩,
   ⟨0x200100, 8, 1, 0x0, 1, 0x0, fun _ _ => [R.EVR_CNT_WRITTEN_WRITTEN]⟩,
   ⟨0x200108, 8, 1, 0x0, 1, 0x0, fun _ _ => [R.EVR_CNT_SUPPRESSED_SUPPRESSED]⟩,
   ⟨0x200110, 8, 1, 0x0, 1, 0x0, fun _ _ => [R.EVR_CNT_OVERFLOW_OVERFLOW]⟩,
   ⟨0x200118, 8, 1, 0x0, 1, 0x0, fun _ _ => [R.EVR_CNT_HOLD_LOST_HOLD_LOST]⟩,
   ⟨0x200120, 8, 1, 0x0, 1, 0x0, fun _ _ => [R.EVR_CNT_EXPORT_LOST_EXPORT_LOST]⟩,
   ⟨0x200128, 8, 1, 0x0, 1, 0x0, fun _ _ => [R.EVR_CNT_SRAM_CE_SRAM_CE]⟩,
   ⟨0x200130, 8, 1, 0x0, 1, 0x0, fun _ _ => [R.EVR_CNT_CLR_CLR]⟩,
   ⟨0x210000, 8, 512, 0x8, 1, 0x0, fun i _ => [R.EVR_WINDOW_WORD i]⟩,
   ⟨0x220000, 8, 512, 0x8, 1, 0x0, fun i _ => [R.EVR_FALLBACK_WORD i]⟩]

/-- The DMA registers (R473). -/
def regsDMA : List RegDesc :=
  [⟨0x300000, 4, 1, 0x0, 1, 0x0, fun _ _ => [R.DMA_STATUS_BUS_STOP]⟩,
   ⟨0x300004, 4, 1, 0x0, 1, 0x0, fun _ _ => [R.DMA_ACTIVE_ACTIVE]⟩,
   ⟨0x300008, 4, 1, 0x0, 1, 0x0, fun _ _ => [R.DMA_CTRL_LIMIT, R.DMA_CTRL_ERR_IRQ_EN, R.DMA_CTRL_ERR_VECTOR]⟩,
   ⟨0x300010, 4, 1, 0x0, 1, 0x0, fun _ _ => [R.DMA_BERR_CH, R.DMA_BERR_KIND, R.DMA_BERR_SPACE]⟩,
   ⟨0x300018, 8, 1, 0x0, 1, 0x0, fun _ _ => [R.DMA_BERR_ADDR_ADDR]⟩,
   ⟨0x300020, 8, 1, 0x0, 1, 0x0, fun _ _ => [R.DMA_HWIN_BASE_BASE]⟩,
   ⟨0x300028, 8, 1, 0x0, 1, 0x0, fun _ _ => [R.DMA_HWIN_LEN_LEN]⟩,
   ⟨0x300030, 4, 1, 0x0, 1, 0x0, fun _ _ => [R.DMA_PACE_TICK_TICK]⟩,
   ⟨0x301000, 4, 32, 0x100, 1, 0x0, fun i _ => [R.DMA_CH_STATUS_STATE i, R.DMA_CH_STATUS_HALF i, R.DMA_CH_STATUS_FULL i, R.DMA_CH_STATUS_ERR i, R.DMA_CH_STATUS_OVERRUN i, R.DMA_CH_STATUS_DIFF_STOP i, R.DMA_CH_STATUS_DB_PENDING i, R.DMA_CH_STATUS_REFUSED i, R.DMA_CH_STATUS_RESULT i]⟩,
   ⟨0x301008, 4, 32, 0x100, 1, 0x0, fun i _ => [R.DMA_CH_CTRL_CHAIN_SPACE i, R.DMA_CH_CTRL_PRIO i, R.DMA_CH_CTRL_IRQ_EN i, R.DMA_CH_CTRL_VECTOR i]⟩,
   ⟨0x301010, 8, 32, 0x100, 1, 0x0, fun i _ => [R.DMA_CH_HEAD_HEAD i]⟩,
   ⟨0x301018, 4, 32, 0x100, 1, 0x0, fun i _ => [R.DMA_CH_CMD_CMD i]⟩,
   ⟨0x30101c, 4, 32, 0x100, 1, 0x0, fun i _ => [R.DMA_CH_DOORBELL_RING i]⟩,
   ⟨0x301020, 8, 32, 0x100, 1, 0x0, fun i _ => [R.DMA_CH_CUR_CUR i]⟩,
   ⟨0x301028, 4, 32, 0x100, 1, 0x0, fun i _ => [R.DMA_CH_REMAIN_REMAIN i]⟩,
   ⟨0x300100, 8, 1, 0x0, 1, 0x0, fun _ _ => [R.DMA_CNT_BYTES_BYTES]⟩,
   ⟨0x300108, 8, 1, 0x0, 1, 0x0, fun _ _ => [R.DMA_CNT_DESC_DESC]⟩,
   ⟨0x300110, 8, 1, 0x0, 1, 0x0, fun _ _ => [R.DMA_CNT_BERR_BERR]⟩,
   ⟨0x300118, 8, 1, 0x0, 1, 0x0, fun _ _ => [R.DMA_CNT_REREAD_REREAD]⟩,
   ⟨0x300120, 8, 1, 0x0, 1, 0x0, fun _ _ => [R.DMA_CNT_CLR_CLR]⟩]

/-- The SEC registers (R456). -/
def regsSEC : List RegDesc :=
  [⟨0x400000, 4, 24, 0x10000, 1, 0x0, fun i _ => [R.SEC_CL_STATUS_STATE i, R.SEC_CL_STATUS_POOL i, R.SEC_CL_STATUS_PROG_ID i, R.SEC_CL_STATUS_HALTED i]⟩,
   ⟨0x400008, 4, 24, 0x10000, 1, 0x0, fun i _ => [R.SEC_CL_CMD_CMD i]⟩,
   ⟨0x400010, 4, 24, 0x10000, 1, 0x0, fun i _ => [R.SEC_CL_RESULT_VALID i, R.SEC_CL_RESULT_REFUSED i, R.SEC_CL_RESULT_CODE i, R.SEC_CL_RESULT_REFUSE_CODE i]⟩,
   ⟨0x400018, 4, 24, 0x10000, 1, 0x0, fun i _ => [R.SEC_CL_PORTS_INFLIGHT i]⟩,
   ⟨0x400020, 4, 24, 0x10000, 1, 0x0, fun i _ => [R.SEC_CL_CLOG_HEAD i, R.SEC_CL_CLOG_TAIL i]⟩,
   ⟨0x400100, 8, 24, 0x10000, 1, 0x0, fun i _ => [R.SEC_CL_CNT_FAULTS_FAULTS i]⟩,
   ⟨0x400108, 8, 24, 0x10000, 1, 0x0, fun i _ => [R.SEC_CL_CNT_CANCEL_CANCELLED i]⟩,
   ⟨0x400110, 8, 24, 0x10000, 1, 0x0, fun i _ => [R.SEC_CL_CNT_BURNED_BURNED i]⟩,
   ⟨0x400118, 8, 24, 0x10000, 1, 0x0, fun i _ => [R.SEC_CL_CNT_CLOG_LOST_CLOG_LOST i]⟩,
   ⟨0x400120, 8, 24, 0x10000, 1, 0x0, fun i _ => [R.SEC_CL_CNT_CLR_CLR i]⟩,
   ⟨0x408000, 8, 24, 0x10000, 1024, 0x8, fun i j => [R.SEC_CL_CLOG_ENTRY_WORD i j]⟩,
   ⟨0x401000, 4, 24, 0x10000, 8, 0x800, fun i j => [R.SEC_ENG_STATUS_STATE i j, R.SEC_ENG_STATUS_STALL i j, R.SEC_ENG_STATUS_IN_HANDLER i j, R.SEC_ENG_STATUS_JOBS i j, R.SEC_ENG_STATUS_STREAM i j]⟩,
   ⟨0x401008, 8, 24, 0x10000, 8, 0x800, fun i j => [R.SEC_ENG_PC_PC i j]⟩,
   ⟨0x401010, 8, 24, 0x10000, 8, 0x800, fun i j => [R.SEC_ENG_FAULT_ECAUSE i j]⟩,
   ⟨0x401018, 8, 24, 0x10000, 8, 0x800, fun i j => [R.SEC_ENG_FADDR_EADDR i j]⟩,
   ⟨0x401020, 4, 24, 0x10000, 8, 0x800, fun i j => [R.SEC_ENG_CMD_CMD i j, R.SEC_ENG_CMD_PROG_ID i j]⟩,
   ⟨0x401028, 4, 24, 0x10000, 8, 0x800, fun i j => [R.SEC_ENG_RESULT_VALID i j, R.SEC_ENG_RESULT_REFUSED i j, R.SEC_ENG_RESULT_CODE i j, R.SEC_ENG_RESULT_REFUSE_CODE i j]⟩,
   ⟨0x401030, 8, 24, 0x10000, 8, 0x800, fun i j => [R.SEC_ENG_WORK_WORK_ID i j]⟩,
   ⟨0x401038, 8, 24, 0x10000, 8, 0x800, fun i j => [R.SEC_ENG_EPC_EPC i j]⟩,
   ⟨0x401100, 8, 24, 0x10000, 8, 0x800, fun i j => [R.SEC_ENG_CNT_CYCLES_CYCLES i j]⟩,
   ⟨0x401108, 8, 24, 0x10000, 8, 0x800, fun i j => [R.SEC_ENG_CNT_INSTRET_INSTRET i j]⟩,
   ⟨0x401110, 8, 24, 0x10000, 8, 0x800, fun i j => [R.SEC_ENG_CNT_STALL_DEP_STALL_DEP i j]⟩,
   ⟨0x401118, 8, 24, 0x10000, 8, 0x800, fun i j => [R.SEC_ENG_CNT_STALL_DRAM_STALL_DRAM i j]⟩,
   ⟨0x401120, 8, 24, 0x10000, 8, 0x800, fun i j => [R.SEC_ENG_CNT_STALL_PORT_STALL_PORT i j]⟩,
   ⟨0x401128, 8, 24, 0x10000, 8, 0x800, fun i j => [R.SEC_ENG_CNT_STALL_AWAIT_STALL_AWAIT i j]⟩,
   ⟨0x401130, 8, 24, 0x10000, 8, 0x800, fun i j => [R.SEC_ENG_CNT_IDLE_WFW_IDLE_WFW i j]⟩,
   ⟨0x401138, 8, 24, 0x10000, 8, 0x800, fun i j => [R.SEC_ENG_CNT_MISPREDICT_MISPREDICT i j]⟩,
   ⟨0x401140, 8, 24, 0x10000, 8, 0x800, fun i j => [R.SEC_ENG_CNT_SQUASHED_SQUASHED i j]⟩,
   ⟨0x401148, 8, 24, 0x10000, 8, 0x800, fun i j => [R.SEC_ENG_CNT_JOBS_JOBS i j]⟩,
   ⟨0x401150, 8, 24, 0x10000, 8, 0x800, fun i j => [R.SEC_ENG_CNT_STREAM_STREAM_BYTES i j]⟩] ++
  [⟨0x401158, 8, 24, 0x10000, 8, 0x800, fun i j => [R.SEC_ENG_CNT_ECC_ECC i j]⟩,
   ⟨0x401160, 8, 24, 0x10000, 8, 0x800, fun i j => [R.SEC_ENG_CNT_CLR_CLR i j]⟩]

/-- The DGE registers (R269). -/
def regsDGE : List RegDesc :=
  [⟨0x600000, 4, 1, 0x0, 1, 0x0, fun _ _ => [R.DGE_STATUS_CORES_UP, R.DGE_STATUS_PREFIX_READY]⟩,
   ⟨0x600008, 4, 1, 0x0, 1, 0x0, fun _ _ => [R.DGE_CORE_FAIL_FAIL]⟩,
   ⟨0x600100, 8, 1, 0x0, 1, 0x0, fun _ _ => [R.DGE_CNT_JOBS_JOBS]⟩,
   ⟨0x600108, 8, 1, 0x0, 1, 0x0, fun _ _ => [R.DGE_CNT_BYTES_BYTES]⟩,
   ⟨0x600110, 8, 1, 0x0, 1, 0x0, fun _ _ => [R.DGE_CNT_CMP_CMP]⟩,
   ⟨0x600118, 8, 1, 0x0, 1, 0x0, fun _ _ => [R.DGE_CNT_CMP_FAULT_CMP_FAULT]⟩,
   ⟨0x600120, 8, 1, 0x0, 1, 0x0, fun _ _ => [R.DGE_CNT_STATE_BAD_STATE_BAD]⟩,
   ⟨0x600128, 8, 1, 0x0, 1, 0x0, fun _ _ => [R.DGE_CNT_BOUNDARY_BOUNDARY]⟩,
   ⟨0x600130, 8, 1, 0x0, 1, 0x0, fun _ _ => [R.DGE_CNT_CLR_CLR]⟩]

/-- The CPE registers (R269). -/
def regsCPE : List RegDesc :=
  [⟨0x700000, 4, 1, 0x0, 1, 0x0, fun _ _ => [R.CPE_STATUS_CORES_UP, R.CPE_STATUS_NONCE_READY, R.CPE_STATUS_INST_WARN, R.CPE_STATUS_INST_EXHAUSTED, R.CPE_STATUS_SLOTS_LOADED]⟩,
   ⟨0x700008, 8, 1, 0x0, 1, 0x0, fun _ _ => [R.CPE_CORE_FAIL_FAIL]⟩,
   ⟨0x700010, 4, 1, 0x0, 1, 0x0, fun _ _ => [R.CPE_NONCE_INST_INST]⟩,
   ⟨0x700018, 4, 1, 0x0, 1, 0x0, fun _ _ => [R.CPE_SLOT_CTRL_SLOT]⟩,
   ⟨0x700020, 8, 1, 0x0, 1, 0x0, fun _ _ => [R.CPE_SLOT_INFO_STATE, R.CPE_SLOT_INFO_PERSIST, R.CPE_SLOT_INFO_ERASED, R.CPE_SLOT_INFO_OWNER, R.CPE_SLOT_INFO_OWNED, R.CPE_SLOT_INFO_ERASE_EPOCH]⟩,
   ⟨0x700100, 8, 1, 0x0, 1, 0x0, fun _ _ => [R.CPE_CNT_ENC_ENC]⟩,
   ⟨0x700108, 8, 1, 0x0, 1, 0x0, fun _ _ => [R.CPE_CNT_DEC_DEC]⟩,
   ⟨0x700110, 8, 1, 0x0, 1, 0x0, fun _ _ => [R.CPE_CNT_TAG_FAIL_TAG_FAIL]⟩,
   ⟨0x700118, 8, 1, 0x0, 1, 0x0, fun _ _ => [R.CPE_CNT_NONCE_NONCE]⟩,
   ⟨0x700120, 8, 1, 0x0, 1, 0x0, fun _ _ => [R.CPE_CNT_BURNED_BURNED]⟩,
   ⟨0x700128, 8, 1, 0x0, 1, 0x0, fun _ _ => [R.CPE_CNT_DENIED_DENIED]⟩,
   ⟨0x700130, 8, 1, 0x0, 1, 0x0, fun _ _ => [R.CPE_CNT_CLR_CLR]⟩]

/-- The CMP registers (R233). -/
def regsCMP : List RegDesc :=
  [⟨0x800000, 4, 1, 0x0, 1, 0x0, fun _ _ => [R.CMP_STATUS_COMP_UP, R.CMP_STATUS_DCMP_UP, R.CMP_STATUS_FILTER_READY, R.CMP_STATUS_CAT_DEGRADED, R.CMP_STATUS_CAT_FULL]⟩,
   ⟨0x800008, 8, 1, 0x0, 1, 0x0, fun _ _ => [R.CMP_COMP_FAIL_FAIL]⟩,
   ⟨0x800010, 8, 1, 0x0, 1, 0x0, fun _ _ => [R.CMP_DCMP_FAIL_FAIL]⟩,
   ⟨0x800020, 4, 1, 0x0, 1, 0x0, fun _ _ => [R.CMP_EFFORT_EFFORT]⟩,
   ⟨0x800028, 8, 1, 0x0, 1, 0x0, fun _ _ => [R.CMP_DD_FILTER_GEN_EPOCHS, R.CMP_DD_FILTER_OPEN_GEN]⟩,
   ⟨0x800030, 8, 1, 0x0, 1, 0x0, fun _ _ => [R.CMP_DD_GEN_CAP_CAP]⟩,
   ⟨0x800038, 8, 1, 0x0, 1, 0x0, fun _ _ => [R.CMP_DD_GEN_FILL_FILL]⟩,
   ⟨0x800040, 8, 1, 0x0, 1, 0x0, fun _ _ => [R.CMP_DD_CAT_NB_LOG2]⟩,
   ⟨0x800048, 8, 1, 0x0, 1, 0x0, fun _ _ => [R.CMP_DD_ENTRIES_ENTRIES]⟩,
   ⟨0x800100, 8, 1, 0x0, 1, 0x0, fun _ _ => [R.CMP_CNT_IN_IN]⟩,
   ⟨0x800108, 8, 1, 0x0, 1, 0x0, fun _ _ => [R.CMP_CNT_OUT_OUT]⟩,
   ⟨0x800110, 8, 1, 0x0, 1, 0x0, fun _ _ => [R.CMP_CNT_RAW_RAW]⟩,
   ⟨0x800118, 8, 1, 0x0, 1, 0x0, fun _ _ => [R.CMP_CNT_REJECT_REJECT]⟩,
   ⟨0x800120, 8, 1, 0x0, 1, 0x0, fun _ _ => [R.CMP_DD_CHUNKS_CHUNKS]⟩,
   ⟨0x800128, 8, 1, 0x0, 1, 0x0, fun _ _ => [R.CMP_DD_RULED_OUT_RULED_OUT]⟩,
   ⟨0x800130, 8, 1, 0x0, 1, 0x0, fun _ _ => [R.CMP_DD_SHELF_READS_SHELF_READS]⟩,
   ⟨0x800138, 8, 1, 0x0, 1, 0x0, fun _ _ => [R.CMP_DD_DUPS_DUPS]⟩,
   ⟨0x800140, 8, 1, 0x0, 1, 0x0, fun _ _ => [R.CMP_DD_FALSE_POS_FALSE_POS]⟩,
   ⟨0x800148, 8, 1, 0x0, 1, 0x0, fun _ _ => [R.CMP_DD_PEER_REFUSED_PEER_REFUSED]⟩,
   ⟨0x800150, 8, 1, 0x0, 1, 0x0, fun _ _ => [R.CMP_DD_CMP_FAULT_CMP_FAULT]⟩,
   ⟨0x800158, 8, 1, 0x0, 1, 0x0, fun _ _ => [R.CMP_DD_UNSHARED_UNSHARED]⟩,
   ⟨0x800160, 8, 1, 0x0, 1, 0x0, fun _ _ => [R.CMP_DD_LOST_LOST]⟩,
   ⟨0x800168, 8, 1, 0x0, 1, 0x0, fun _ _ => [R.CMP_CNT_CLR_CLR]⟩]

/-- The FTM registers (R310). -/
def regsFTM : List RegDesc :=
  [⟨0x900000, 4, 1, 0x0, 1, 0x0, fun _ _ => [R.FTM_STATUS_AWAKE, R.FTM_STATUS_INGEST, R.FTM_STATUS_INGEST_VALID, R.FTM_STATUS_CACHE_SHORT, R.FTM_STATUS_SCANNING, R.FTM_STATUS_DEFER_WARN, R.FTM_STATUS_SPARE_LOW, R.FTM_STATUS_SPACE_LOW]⟩,
   ⟨0x900008, 4, 1, 0x0, 1, 0x0, fun _ _ => [R.FTM_SHELF_SEL_SHELF]⟩,
   ⟨0x900010, 8, 1, 0x0, 1, 0x0, fun _ _ => [R.FTM_SHELF_INFO_STATE, R.FTM_SHELF_INFO_SPARE_LOW, R.FTM_SHELF_INFO_FREE_BANDS, R.FTM_SHELF_INFO_WEAR_PCT, R.FTM_SHELF_INFO_RETIRED]⟩,
   ⟨0x900018, 8, 1, 0x0, 1, 0x0, fun _ _ => [R.FTM_SHELF_SEQ_SEQ]⟩,
   ⟨0x900020, 8, 1, 0x0, 1, 0x0, fun _ _ => [R.FTM_SCAN_PROG_DONE, R.FTM_SCAN_PROG_TOTAL]⟩,
   ⟨0x900028, 4, 1, 0x0, 1, 0x0, fun _ _ => [R.FTM_GC_CTRL_GC_LIVE_PCT, R.FTM_GC_CTRL_BAND_LIVE_PCT, R.FTM_GC_CTRL_GC_SHARE, R.FTM_GC_CTRL_SCAN_SHARE]⟩,
   ⟨0x90002c, 4, 1, 0x0, 1, 0x0, fun _ _ => [R.FTM_WL_CTRL_WL_DELTA, R.FTM_WL_CTRL_WL_WARN]⟩,
   ⟨0x900030, 4, 1, 0x0, 1, 0x0, fun _ _ => [R.FTM_MEDIA_CTRL_RETRY_MAX, R.FTM_MEDIA_CTRL_OP_TMO, R.FTM_MEDIA_CTRL_RESERVE, R.FTM_MEDIA_CTRL_SPACE_LOW]⟩,
   ⟨0x900034, 4, 1, 0x0, 1, 0x0, fun _ _ => [R.FTM_MAP_CTRL_WB_EPOCHS, R.FTM_MAP_CTRL_GRAIN_LIMIT]⟩,
   ⟨0x900038, 8, 1, 0x0, 1, 0x0, fun _ _ => [R.FTM_CACHE_NEED_NEED]⟩,
   ⟨0x900040, 8, 1, 0x0, 1, 0x0, fun _ _ => [R.FTM_DEFER_CAP_CAP]⟩,
   ⟨0x900080, 8, 16, 0x8, 1, 0x0, fun i _ => [R.FTM_SEQ_STATUS_QUEUED i, R.FTM_SEQ_STATUS_BUSY i]⟩,
   ⟨0x900100, 8, 1, 0x0, 1, 0x0, fun _ _ => [R.FTM_CNT_READS_READS]⟩,
   ⟨0x900108, 8, 1, 0x0, 1, 0x0, fun _ _ => [R.FTM_CNT_PROGRAMS_PROGRAMS]⟩,
   ⟨0x900110, 8, 1, 0x0, 1, 0x0, fun _ _ => [R.FTM_CNT_ERASES_ERASES]⟩,
   ⟨0x900118, 8, 1, 0x0, 1, 0x0, fun _ _ => [R.FTM_CNT_RETRIES_RETRIES]⟩,
   ⟨0x900120, 8, 1, 0x0, 1, 0x0, fun _ _ => [R.FTM_CNT_UNCORR_UNCORR]⟩,
   ⟨0x900128, 8, 1, 0x0, 1, 0x0, fun _ _ => [R.FTM_CNT_RETIRED_RETIRED]⟩,
   ⟨0x900130, 8, 1, 0x0, 1, 0x0, fun _ _ => [R.FTM_CNT_PROMOTE_PROMOTE]⟩,
   ⟨0x900138, 8, 1, 0x0, 1, 0x0, fun _ _ => [R.FTM_CNT_DEMOTE_DEMOTE]⟩,
   ⟨0x900140, 8, 1, 0x0, 1, 0x0, fun _ _ => [R.FTM_CNT_GC_RECORDS_GC_RECORDS]⟩,
   ⟨0x900148, 8, 1, 0x0, 1, 0x0, fun _ _ => [R.FTM_CNT_GC_BANDS_GC_BANDS]⟩,
   ⟨0x900150, 8, 1, 0x0, 1, 0x0, fun _ _ => [R.FTM_CNT_SCANS_SCANS]⟩,
   ⟨0x900158, 8, 1, 0x0, 1, 0x0, fun _ _ => [R.FTM_CNT_TIMEOUTS_TIMEOUTS]⟩,
   ⟨0x900160, 8, 1, 0x0, 1, 0x0, fun _ _ => [R.FTM_CNT_DEFERRED_DEFERRED]⟩,
   ⟨0x900168, 8, 1, 0x0, 1, 0x0, fun _ _ => [R.FTM_CNT_CLR_CLR]⟩]

/-- The RDE registers (R345). -/
def regsRDE : List RegDesc :=
  [⟨0xa00000, 4, 1, 0x0, 1, 0x0, fun _ _ => [R.RDE_STATUS_UNITS_UP, R.RDE_STATUS_REBUILDING, R.RDE_STATUS_SCRUBBING, R.RDE_STATUS_LOST_PRESENT, R.RDE_STATUS_LOST_WARN, R.RDE_STATUS_LOST_FULL, R.RDE_STATUS_WAITING]⟩,
   ⟨0xa00008, 4, 1, 0x0, 1, 0x0, fun _ _ => [R.RDE_UNIT_FAIL_FAIL]⟩,
   ⟨0xa00010, 4, 1, 0x0, 1, 0x0, fun _ _ => [R.RDE_REBUILD_CTRL_GRACE_S, R.RDE_REBUILD_CTRL_SHARE, R.RDE_REBUILD_CTRL_URGENT_SHARE]⟩,
   ⟨0xa00014, 4, 1, 0x0, 1, 0x0, fun _ _ => [R.RDE_MAINT_CTRL_UNITS, R.RDE_MAINT_CTRL_EVACUATE]⟩,
   ⟨0xa00018, 8, 1, 0x0, 1, 0x0, fun _ _ => [R.RDE_REBUILD_PROG_DONE, R.RDE_REBUILD_PROG_TOTAL]⟩,
   ⟨0xa00020, 8, 1, 0x0, 1, 0x0, fun _ _ => [R.RDE_SCRUB_CTRL_SHARE, R.RDE_SCRUB_CTRL_IDLE_SHARE, R.RDE_SCRUB_CTRL_DAYS, R.RDE_SCRUB_CTRL_MAX_DAYS, R.RDE_SCRUB_CTRL_REFRESH_BITS]⟩,
   ⟨0xa00028, 4, 1, 0x0, 1, 0x0, fun _ _ => [R.RDE_SCRUB_SEL_COHORT]⟩,
   ⟨0xa00030, 8, 1, 0x0, 1, 0x0, fun _ _ => [R.RDE_SCRUB_INFO_CURSOR, R.RDE_SCRUB_INFO_ACTIVE, R.RDE_SCRUB_INFO_AGE_H]⟩,
   ⟨0xa00040, 4, 1, 0x0, 1, 0x0, fun _ _ => [R.RDE_RESHAPE_CMD_CMD]⟩,
   ⟨0xa00048, 8, 1, 0x0, 1, 0x0, fun _ _ => [R.RDE_RESHAPE_ARG_SCOPE, R.RDE_RESHAPE_ARG_MODE, R.RDE_RESHAPE_ARG_SRC_COHORT, R.RDE_RESHAPE_ARG_DST_COHORT, R.RDE_RESHAPE_ARG_DST_CLASS, R.RDE_RESHAPE_ARG_SHELF, R.RDE_RESHAPE_ARG_NSID, R.RDE_RESHAPE_ARG_BATCH]⟩,
   ⟨0xa00050, 4, 1, 0x0, 1, 0x0, fun _ _ => [R.RDE_RESHAPE_STATUS_STATE, R.RDE_RESHAPE_STATUS_VALID, R.RDE_RESHAPE_STATUS_REFUSED, R.RDE_RESHAPE_STATUS_CODE, R.RDE_RESHAPE_STATUS_REFUSE_CODE]⟩,
   ⟨0xa00058, 8, 1, 0x0, 1, 0x0, fun _ _ => [R.RDE_RESHAPE_PROG_CHECKPOINT, R.RDE_RESHAPE_PROG_DONE]⟩,
   ⟨0xa00060, 4, 1, 0x0, 1, 0x0, fun _ _ => [R.RDE_LOST_COUNT_COUNT]⟩,
   ⟨0xa00068, 4, 1, 0x0, 1, 0x0, fun _ _ => [R.RDE_LOST_IDX_IDX]⟩,
   ⟨0xa00070, 8, 4, 0x8, 1, 0x0, fun i _ => [R.RDE_LOST_ENTRY_WORD i]⟩,
   ⟨0xa00100, 8, 1, 0x0, 1, 0x0, fun _ _ => [R.RDE_CNT_REBUILT_STRIPES]⟩,
   ⟨0xa00108, 8, 1, 0x0, 1, 0x0, fun _ _ => [R.RDE_CNT_REPAIRED_PAGES]⟩,
   ⟨0xa00110, 8, 1, 0x0, 1, 0x0, fun _ _ => [R.RDE_CNT_LOST_LOST]⟩,
   ⟨0xa00118, 8, 1, 0x0, 1, 0x0, fun _ _ => [R.RDE_CNT_SCRUBBED_SCRUBBED]⟩,
   ⟨0xa00120, 8, 1, 0x0, 1, 0x0, fun _ _ => [R.RDE_CNT_SCRUB_MISMATCH_MISMATCH]⟩,
   ⟨0xa00128, 8, 1, 0x0, 1, 0x0, fun _ _ => [R.RDE_CNT_PARITY_REWRITTEN_REWRITTEN]⟩,
   ⟨0xa00130, 8, 1, 0x0, 1, 0x0, fun _ _ => [R.RDE_CNT_RESHAPED_MOVED]⟩,
   ⟨0xa00138, 8, 1, 0x0, 1, 0x0, fun _ _ => [R.RDE_CNT_CLR_CLR]⟩]

/-- The ISF registers (R387). -/
def regsISF : List RegDesc :=
  [⟨0xb00000, 4, 16, 0x1000, 1, 0x0, fun i _ => [R.ISF_STR_STATUS_STATE i, R.ISF_STR_STATUS_PF i, R.ISF_STR_STATUS_LANES i, R.ISF_STR_STATUS_OWNER_GEN i, R.ISF_STR_STATUS_KEYGEN i, R.ISF_STR_STATUS_CONFLICT i, R.ISF_STR_STATUS_JAM i]⟩,
   ⟨0xb00008, 4, 16, 0x1000, 1, 0x0, fun i _ => [R.ISF_STR_CYCLE_CYCLE i]⟩,
   ⟨0xb00010, 4, 16, 0x1000, 1, 0x0, fun i _ => [R.ISF_STR_BSEL_POS i]⟩,
   ⟨0xb00018, 8, 16, 0x1000, 1, 0x0, fun i _ => [R.ISF_STR_BINFO_STATE i, R.ISF_STR_BINFO_SHELF i, R.ISF_STR_BINFO_SESSION i, R.ISF_STR_BINFO_FP_LOW i]⟩,
   ⟨0xb00020, 8, 16, 0x1000, 1, 0x0, fun i _ => [R.ISF_STR_LOOP_ROUND i]⟩,
   ⟨0xb00100, 8, 16, 0x1000, 1, 0x0, fun i _ => [R.ISF_STR_CNT_CORR_CORR i]⟩,
   ⟨0xb00108, 8, 16, 0x1000, 1, 0x0, fun i _ => [R.ISF_STR_CNT_UNCORR_UNCORR i]⟩,
   ⟨0xb00110, 8, 16, 0x1000, 1, 0x0, fun i _ => [R.ISF_STR_CNT_TAG_TAG i]⟩,
   ⟨0xb00118, 8, 16, 0x1000, 1, 0x0, fun i _ => [R.ISF_STR_CNT_RETX_RETX i]⟩,
   ⟨0xb00120, 8, 16, 0x1000, 1, 0x0, fun i _ => [R.ISF_STR_CNT_DUP_DUP i]⟩,
   ⟨0xb00128, 8, 16, 0x1000, 1, 0x0, fun i _ => [R.ISF_STR_CNT_ACKBAD_ACKBAD i]⟩,
   ⟨0xb00130, 8, 16, 0x1000, 1, 0x0, fun i _ => [R.ISF_STR_CNT_REPLAY_REPLAY i]⟩,
   ⟨0xb00138, 8, 16, 0x1000, 1, 0x0, fun i _ => [R.ISF_STR_CNT_CCOLL_CCOLL i]⟩,
   ⟨0xb00140, 8, 16, 0x1000, 1, 0x0, fun i _ => [R.ISF_STR_CNT_DCOLL_DCOLL i]⟩,
   ⟨0xb00148, 8, 16, 0x1000, 1, 0x0, fun i _ => [R.ISF_STR_CNT_BMISS_BEACON_MISS i]⟩,
   ⟨0xb00150, 8, 16, 0x1000, 1, 0x0, fun i _ => [R.ISF_STR_CNT_ENROK_ENROL_OK i]⟩,
   ⟨0xb00158, 8, 16, 0x1000, 1, 0x0, fun i _ => [R.ISF_STR_CNT_ENRFAIL_ENROL_FAIL i]⟩,
   ⟨0xb00160, 8, 16, 0x1000, 1, 0x0, fun i _ => [R.ISF_STR_CNT_CLR_CLR i]⟩,
   ⟨0xb10000, 4, 1, 0x0, 1, 0x0, fun _ _ => [R.ISF_STATUS_UP, R.ISF_STATUS_OWNED]⟩,
   ⟨0xb10008, 8, 1, 0x0, 1, 0x0, fun _ _ => [R.ISF_TIMERS_RETX_CYC, R.ISF_TIMERS_UNCORR_LIMIT, R.ISF_TIMERS_QUARANTINE_S]⟩,
   ⟨0xb10010, 4, 1, 0x0, 1, 0x0, fun _ _ => [R.ISF_ENROL_SLOTS, R.ISF_ENROL_PEER_MIN]⟩]

/-- The ZBL registers (R422). -/
def regsZBL : List RegDesc :=
  [⟨0xc00000, 4, 1, 0x0, 1, 0x0, fun _ _ => [R.ZBL_STATUS_STATE, R.ZBL_STATUS_QUADS, R.ZBL_STATUS_TIMEKEEPER, R.ZBL_STATUS_MSYNC_USED, R.ZBL_STATUS_LOST, R.ZBL_STATUS_YIELD, R.ZBL_STATUS_REFUSED]⟩,
   ⟨0xc00008, 8, 1, 0x0, 1, 0x0, fun _ _ => [R.ZBL_PEER_HEAD_ID, R.ZBL_PEER_POS, R.ZBL_PEER_REASON]⟩,
   ⟨0xc00010, 4, 1, 0x0, 1, 0x0, fun _ _ => [R.ZBL_TIMERS_RETX_US, R.ZBL_TIMERS_OP_TMO_US]⟩,
   ⟨0xc00014, 4, 1, 0x0, 1, 0x0, fun _ _ => [R.ZBL_CTRL_REJOIN_HOLD, R.ZBL_CTRL_MSYNC_OUT, R.ZBL_CTRL_ALONE_S]⟩,
   ⟨0xc00018, 8, 1, 0x0, 1, 0x0, fun _ _ => [R.ZBL_MN_DONE]⟩,
   ⟨0xc00020, 8, 1, 0x0, 1, 0x0, fun _ _ => [R.ZBL_ANCHOR_TIME]⟩,
   ⟨0xc00028, 8, 1, 0x0, 1, 0x0, fun _ _ => [R.ZBL_MSYNC_LAST_SHIFT]⟩,
   ⟨0xc00030, 8, 1, 0x0, 1, 0x0, fun _ _ => [R.ZBL_WB_TOTAL, R.ZBL_WB_HELD, R.ZBL_WB_RESERVE]⟩,
   ⟨0xc00100, 8, 1, 0x0, 1, 0x0, fun _ _ => [R.ZBL_CNT_TX_TX]⟩,
   ⟨0xc00108, 8, 1, 0x0, 1, 0x0, fun _ _ => [R.ZBL_CNT_RX_RX]⟩,
   ⟨0xc00110, 8, 1, 0x0, 1, 0x0, fun _ _ => [R.ZBL_CNT_RETX_RETX]⟩,
   ⟨0xc00118, 8, 1, 0x0, 1, 0x0, fun _ _ => [R.ZBL_CNT_DUP_DUP]⟩,
   ⟨0xc00120, 8, 1, 0x0, 1, 0x0, fun _ _ => [R.ZBL_CNT_ACKBAD_ACKBAD]⟩,
   ⟨0xc00128, 8, 1, 0x0, 1, 0x0, fun _ _ => [R.ZBL_CNT_NAK_NAK]⟩,
   ⟨0xc00130, 8, 1, 0x0, 1, 0x0, fun _ _ => [R.ZBL_CNT_TAG_TAG]⟩,
   ⟨0xc00138, 8, 1, 0x0, 1, 0x0, fun _ _ => [R.ZBL_CNT_CORR_CORR]⟩,
   ⟨0xc00140, 8, 1, 0x0, 1, 0x0, fun _ _ => [R.ZBL_CNT_UNCORR_UNCORR]⟩,
   ⟨0xc00148, 8, 1, 0x0, 1, 0x0, fun _ _ => [R.ZBL_CNT_REWIDTH_REWIDTH]⟩,
   ⟨0xc00150, 8, 1, 0x0, 1, 0x0, fun _ _ => [R.ZBL_CNT_REPLAY_REPLAY]⟩,
   ⟨0xc00158, 8, 1, 0x0, 1, 0x0, fun _ _ => [R.ZBL_CNT_MSYNC_IGN_MSYNC_IGN]⟩,
   ⟨0xc00160, 8, 1, 0x0, 1, 0x0, fun _ _ => [R.ZBL_CNT_TAKEOVER_TAKEOVER]⟩,
   ⟨0xc00168, 8, 1, 0x0, 1, 0x0, fun _ _ => [R.ZBL_CNT_CLR_CLR]⟩]

/-- The MEM registers (R495). -/
def regsMEM : List RegDesc :=
  [⟨0xd00000, 4, 1, 0x0, 1, 0x0, fun _ _ => [R.MEM_STATUS_CH_UP, R.MEM_STATUS_CONTENT_LOST, R.MEM_STATUS_TRAIN_FAIL, R.MEM_STATUS_CE_HIGH, R.MEM_STATUS_UE_SEEN, R.MEM_STATUS_WAYS_ON]⟩,
   ⟨0xd00008, 8, 1, 0x0, 1, 0x0, fun _ _ => [R.MEM_INFO_CH_GIB, R.MEM_INFO_RANKS, R.MEM_INFO_MTS, R.MEM_INFO_TOTAL_GIB]⟩,
   ⟨0xd00010, 4, 1, 0x0, 1, 0x0, fun _ _ => [R.MEM_CTRL_PREFETCH, R.MEM_CTRL_SCRUB_H, R.MEM_CTRL_CE_LIMIT]⟩,
   ⟨0xd00018, 4, 1, 0x0, 1, 0x0, fun _ _ => [R.MEM_WAY_CMD_CMD, R.MEM_WAY_CMD_WAY]⟩,
   ⟨0xd0001c, 4, 1, 0x0, 1, 0x0, fun _ _ => [R.MEM_WAY_RESULT_VALID, R.MEM_WAY_RESULT_CODE, R.MEM_WAY_RESULT_WAY]⟩,
   ⟨0xd00020, 4, 1, 0x0, 1, 0x0, fun _ _ => [R.MEM_WAY_STATUS_DRAINING, R.MEM_WAY_STATUS_ACTIVE, R.MEM_WAY_STATUS_REFUSED, R.MEM_WAY_STATUS_FAULTY]⟩,
   ⟨0xd00028, 4, 1, 0x0, 1, 0x0, fun _ _ => [R.MEM_UE_LOG_CH, R.MEM_UE_LOG_REGION, R.MEM_UE_LOG_SCRUB]⟩,
   ⟨0xd00030, 8, 1, 0x0, 1, 0x0, fun _ _ => [R.MEM_UE_ADDR_ADDR]⟩,
   ⟨0xd00040, 4, 12, 0x4, 1, 0x0, fun i _ => [R.MEM_CH_STATUS_HOT i, R.MEM_CH_STATUS_CE_HIGH i, R.MEM_CH_STATUS_TEMP i]⟩,
   ⟨0xd00100, 8, 12, 0x10, 1, 0x0, fun i _ => [R.MEM_CH_CNT_CE_CE i]⟩,
   ⟨0xd00108, 8, 12, 0x10, 1, 0x0, fun i _ => [R.MEM_CH_CNT_UE_UE i]⟩,
   ⟨0xd00200, 8, 1, 0x0, 1, 0x0, fun _ _ => [R.MEM_CNT_HIT_HIT]⟩,
   ⟨0xd00208, 8, 1, 0x0, 1, 0x0, fun _ _ => [R.MEM_CNT_MISS_MISS]⟩,
   ⟨0xd00210, 8, 1, 0x0, 1, 0x0, fun _ _ => [R.MEM_CNT_PF_PF]⟩,
   ⟨0xd00218, 8, 1, 0x0, 1, 0x0, fun _ _ => [R.MEM_CNT_PF_USED_PF_USED]⟩,
   ⟨0xd00220, 8, 1, 0x0, 1, 0x0, fun _ _ => [R.MEM_CNT_WB_WB]⟩,
   ⟨0xd00228, 8, 1, 0x0, 1, 0x0, fun _ _ => [R.MEM_CNT_SNOOP_SNOOP]⟩,
   ⟨0xd00230, 8, 1, 0x0, 1, 0x0, fun _ _ => [R.MEM_CNT_XWB_XWB]⟩,
   ⟨0xd00238, 8, 1, 0x0, 1, 0x0, fun _ _ => [R.MEM_CNT_SRAM_CE_SRAM_CE]⟩,
   ⟨0xd00240, 8, 1, 0x0, 1, 0x0, fun _ _ => [R.MEM_CNT_SRAM_UE_SRAM_UE]⟩,
   ⟨0xd00248, 8, 1, 0x0, 1, 0x0, fun _ _ => [R.MEM_CNT_CLR_CLR]⟩]

/-- The PWR registers (R519). -/
def regsPWR : List RegDesc :=
  [⟨0xe00000, 4, 1, 0x0, 1, 0x0, fun _ _ => [R.PWR_STATUS_STATE, R.PWR_STATUS_PHASE, R.PWR_STATUS_HELD_TEST, R.PWR_STATUS_HELD_KCF, R.PWR_STATUS_REFUSED, R.PWR_STATUS_COLD]⟩,
   ⟨0xe00004, 4, 1, 0x0, 1, 0x0, fun _ _ => [R.PWR_CMD_CMD]⟩,
   ⟨0xe00008, 4, 1, 0x0, 1, 0x0, fun _ _ => [R.PWR_RESULT_VALID, R.PWR_RESULT_CODE]⟩,
   ⟨0xe0000c, 4, 1, 0x0, 1, 0x0, fun _ _ => [R.PWR_CTRL_HOSTLESS_S, R.PWR_CTRL_GATE_US, R.PWR_CTRL_PCAP_W]⟩,
   ⟨0xe00010, 4, 1, 0x0, 1, 0x0, fun _ _ => [R.PWR_WAKE_EN_EN]⟩,
   ⟨0xe00014, 4, 1, 0x0, 1, 0x0, fun _ _ => [R.PWR_WAKE_CAUSE_CAUSE, R.PWR_WAKE_CAUSE_TRIP, R.PWR_WAKE_CAUSE_COLD, R.PWR_WAKE_CAUSE_STRING]⟩,
   ⟨0xe00018, 4, 1, 0x0, 1, 0x0, fun _ _ => [R.PWR_IRQ_IRQ_EN, R.PWR_IRQ_VECTOR]⟩,
   ⟨0xe0001c, 4, 1, 0x0, 1, 0x0, fun _ _ => [R.PWR_SHELF_CTRL_STAGGER_N, R.PWR_SHELF_CTRL_STAGGER_MS]⟩,
   ⟨0xe00020, 4, 1, 0x0, 1, 0x0, fun _ _ => [R.PWR_THERM_TEMP, R.PWR_THERM_SENSOR, R.PWR_THERM_CAP_MHZ]⟩,
   ⟨0xe00024, 4, 1, 0x0, 1, 0x0, fun _ _ => [R.PWR_THERM_CTRL_WARN]⟩,
   ⟨0xe00028, 4, 1, 0x0, 1, 0x0, fun _ _ => [R.PWR_PLL_LOCK, R.PWR_PLL_FAIL]⟩,
   ⟨0xe00040, 8, 3, 0x8, 1, 0x0, fun i _ => [R.PWR_CL_FREQ_FREQ i]⟩,
   ⟨0xe00100, 8, 1, 0x0, 1, 0x0, fun _ _ => [R.PWR_CNT_NIGHTS_NIGHTS]⟩,
   ⟨0xe00108, 8, 1, 0x0, 1, 0x0, fun _ _ => [R.PWR_CNT_NIGHT_MS_NIGHT_MS]⟩,
   ⟨0xe00110, 8, 1, 0x0, 1, 0x0, fun _ _ => [R.PWR_CNT_CAP_MS_CAP_MS]⟩,
   ⟨0xe00118, 8, 1, 0x0, 1, 0x0, fun _ _ => [R.PWR_CNT_COHORT_WAKES_COHORT_WAKES]⟩,
   ⟨0xe00120, 8, 1, 0x0, 1, 0x0, fun _ _ => [R.PWR_CNT_SHELF_TMO_SHELF_TMO]⟩,
   ⟨0xe00128, 8, 1, 0x0, 1, 0x0, fun _ _ => [R.PWR_CNT_TRIPS_TRIPS]⟩,
   ⟨0xe00130, 8, 1, 0x0, 1, 0x0, fun _ _ => [R.PWR_CNT_CLR_CLR]⟩]

/-- The ROOT registers (R546). -/
def regsROOT : List RegDesc :=
  [⟨0xf00000, 4, 1, 0x0, 1, 0x0, fun _ _ => [R.SEC_ROOT_STATUS_LIFECYCLE, R.SEC_ROOT_STATUS_DEBUG, R.SEC_ROOT_STATUS_BUSY, R.SEC_ROOT_STATUS_CHAL_VALID, R.SEC_ROOT_STATUS_REFUSED, R.SEC_ROOT_STATUS_ZEROIZE_PENDING, R.SEC_ROOT_STATUS_SECRETS]⟩,
   ⟨0xf00004, 4, 1, 0x0, 1, 0x0, fun _ _ => [R.SEC_ROOT_CMD_CMD]⟩,
   ⟨0xf00008, 4, 1, 0x0, 1, 0x0, fun _ _ => [R.SEC_ROOT_RESULT_VALID, R.SEC_ROOT_RESULT_CODE, R.SEC_ROOT_RESULT_COMMAND]⟩,
   ⟨0xf00010, 4, 1, 0x0, 1, 0x0, fun _ _ => [R.SEC_ROOT_OTP_OWNER_FUSED, R.SEC_ROOT_OTP_OWNER_REVOKED, R.SEC_ROOT_OTP_FW_KEY_REVOKE, R.SEC_ROOT_OTP_SERVICE_LEFT]⟩,
   ⟨0xf00018, 8, 1, 0x0, 1, 0x0, fun _ _ => [R.SEC_ROOT_DSN_DSN]⟩,
   ⟨0xf00020, 8, 1, 0x0, 1, 0x0, fun _ _ => [R.SEC_ROOT_KT_SERIAL_KT_SERIAL]⟩,
   ⟨0xf00028, 4, 1, 0x0, 1, 0x0, fun _ _ => [R.SEC_ROOT_MEAS_SEL_INDEX]⟩,
   ⟨0xf00030, 8, 6, 0x8, 1, 0x0, fun i _ => [R.SEC_ROOT_MEAS_VALUE i]⟩,
   ⟨0xf00060, 8, 4, 0x8, 1, 0x0, fun i _ => [R.SEC_ROOT_CHAL_CHALLENGE i]⟩,
   ⟨0xf00400, 8, 40, 0x8, 1, 0x0, fun i _ => [R.SEC_ROOT_MAILBOX_WORD i]⟩,
   ⟨0xf00100, 8, 1, 0x0, 1, 0x0, fun _ _ => [R.SEC_ROOT_CNT_OPENS_OPENS]⟩,
   ⟨0xf00108, 8, 1, 0x0, 1, 0x0, fun _ _ => [R.SEC_ROOT_CNT_TOKENS_OK_TOKENS_OK]⟩,
   ⟨0xf00110, 8, 1, 0x0, 1, 0x0, fun _ _ => [R.SEC_ROOT_CNT_TOKENS_BAD_TOKENS_BAD]⟩,
   ⟨0xf00118, 8, 1, 0x0, 1, 0x0, fun _ _ => [R.SEC_ROOT_CNT_STORE_STORE_WRITES]⟩,
   ⟨0xf00120, 8, 1, 0x0, 1, 0x0, fun _ _ => [R.SEC_ROOT_CNT_CLR_CLR]⟩]

/-- The BOOT registers (R570). -/
def regsBOOT : List RegDesc :=
  [⟨0x1000000, 4, 1, 0x0, 1, 0x0, fun _ _ => [R.BOOT_STATUS_STAGE, R.BOOT_STATUS_LOADER_COPY, R.BOOT_STATUS_FW_PENDING, R.BOOT_STATUS_COMMIT_PENDING, R.BOOT_STATUS_WRITING, R.BOOT_STATUS_HEALING, R.BOOT_STATUS_REFUSED]⟩,
   ⟨0x1000004, 4, 1, 0x0, 1, 0x0, fun _ _ => [R.BOOT_CMD_CMD]⟩,
   ⟨0x1000008, 4, 1, 0x0, 1, 0x0, fun _ _ => [R.BOOT_RESULT_VALID, R.BOOT_RESULT_CODE]⟩,
   ⟨0x100000c, 4, 1, 0x0, 1, 0x0, fun _ _ => [R.BOOT_CTRL_CONFIRM_S, R.BOOT_CTRL_HEAL_PEER]⟩,
   ⟨0x1000010, 8, 1, 0x0, 1, 0x0, fun _ _ => [R.BOOT_FW_RUNNING_SERIAL]⟩,
   ⟨0x1000018, 8, 1, 0x0, 1, 0x0, fun _ _ => [R.BOOT_FW_SLOT_SERIAL]⟩,
   ⟨0x1000020, 8, 1, 0x0, 1, 0x0, fun _ _ => [R.BOOT_FW_FLOOR_FLOOR]⟩,
   ⟨0x1000028, 8, 1, 0x0, 1, 0x0, fun _ _ => [R.BOOT_GEN_AWG, R.BOOT_GEN_WRITE_GEN, R.BOOT_GEN_READ_MIN_GEN]⟩,
   ⟨0x1000030, 4, 1, 0x0, 1, 0x0, fun _ _ => [R.BOOT_VERIFY_CHECK, R.BOOT_VERIFY_SOURCE]⟩,
   ⟨0x1000034, 4, 1, 0x0, 1, 0x0, fun _ _ => [R.BOOT_LO_CAUSE, R.BOOT_LO_ATTEMPTS]⟩,
   ⟨0x1000038, 4, 1, 0x0, 1, 0x0, fun _ _ => [R.BOOT_BOARD_SSVID, R.BOOT_BOARD_SSID]⟩,
   ⟨0x1000040, 8, 1, 0x0, 1, 0x0, fun _ _ => [R.BOOT_BOARD_SERIAL_SERIAL]⟩,
   ⟨0x1000100, 8, 1, 0x0, 1, 0x0, fun _ _ => [R.BOOT_CNT_DAWNS_DAWNS]⟩,
   ⟨0x1000108, 8, 1, 0x0, 1, 0x0, fun _ _ => [R.BOOT_CNT_LO_LOADER_ONLY]⟩,
   ⟨0x1000110, 8, 1, 0x0, 1, 0x0, fun _ _ => [R.BOOT_CNT_COMMITS_COMMITS]⟩,
   ⟨0x1000118, 8, 1, 0x0, 1, 0x0, fun _ _ => [R.BOOT_CNT_HEALS_HEALS]⟩,
   ⟨0x1000120, 8, 1, 0x0, 1, 0x0, fun _ _ => [R.BOOT_CNT_CLR_CLR]⟩]

/-- The CFG registers (R69-R99). -/
def regsCFG : List RegDesc :=
  [⟨0x40000000, 4, 1024, 0x1000, 1, 0x0, fun i _ => [R.CFG_ID_WORD i]⟩,
   ⟨0x40000004, 4, 1024, 0x1000, 1, 0x0, fun i _ => (if i = 0 then [R.CFG_COMMAND_MSE i] else []) ++ [R.CFG_COMMAND_BME i] ++ (if i = 0 then [R.CFG_COMMAND_PERR i, R.CFG_COMMAND_SERR i] else []) ++ [R.CFG_COMMAND_CAPLIST i, R.CFG_COMMAND_MDPE i, R.CFG_COMMAND_RTA i, R.CFG_COMMAND_RMA i, R.CFG_COMMAND_SSE i, R.CFG_COMMAND_DPE i]⟩,
   ⟨0x40000008, 4, 1024, 0x1000, 1, 0x0, fun i _ => [R.CFG_REVCLASS_WORD i]⟩,
   ⟨0x40000010, 4, 1, 0x0, 1, 0x0, fun _ _ => [R.CFG_BAR0_TYPE, R.CFG_BAR0_ADDR]⟩,
   ⟨0x40000014, 4, 1, 0x0, 1, 0x0, fun _ _ => [R.CFG_BAR1_ADDR]⟩,
   ⟨0x40000018, 4, 1, 0x0, 1, 0x0, fun _ _ => [R.CFG_BAR2_TYPE, R.CFG_BAR2_ADDR]⟩,
   ⟨0x4000001c, 4, 1, 0x0, 1, 0x0, fun _ _ => [R.CFG_BAR3_ADDR]⟩,
   ⟨0x40000020, 4, 1, 0x0, 1, 0x0, fun _ _ => [R.CFG_BAR4_TYPE, R.CFG_BAR4_ADDR]⟩,
   ⟨0x40000024, 4, 1, 0x0, 1, 0x0, fun _ _ => [R.CFG_BAR5_ADDR]⟩,
   ⟨0x4000002c, 4, 1024, 0x1000, 1, 0x0, fun i _ => [R.CFG_SUBSYS_WORD i]⟩,
   ⟨0x40000034, 4, 1024, 0x1000, 1, 0x0, fun i _ => (if i = 0 then [R.CFG_CAPPTR_PF i] else []) ++ (if i ≠ 0 then [R.CFG_CAPPTR_VF i] else [])⟩,
   ⟨0x4000003c, 4, 1024, 0x1000, 1, 0x0, fun i _ => (if i = 0 then [R.CFG_INT_LINE i] else []) ++ [R.CFG_INT_PIN i]⟩,
   ⟨0x40000040, 4, 1, 0x0, 1, 0x0, fun _ _ => [R.CFG_PMC_ID, R.CFG_PMC_NEXT, R.CFG_PMC_VERSION, R.CFG_PMC_PME_SUPPORT]⟩,
   ⟨0x40000044, 4, 1, 0x0, 1, 0x0, fun _ _ => [R.CFG_PMCSR_POWER_STATE, R.CFG_PMCSR_NO_SOFT_RESET, R.CFG_PMCSR_PME_EN, R.CFG_PMCSR_PME_STATUS]⟩,
   ⟨0x40000050, 4, 1024, 0x1000, 1, 0x0, fun i _ => [R.CFG_PCIE_ID i, R.CFG_PCIE_NEXT i, R.CFG_PCIE_VERSION i, R.CFG_PCIE_TYPE i, R.CFG_PCIE_FLIT_MODE i]⟩,
   ⟨0x40000054, 4, 1024, 0x1000, 1, 0x0, fun i _ => [R.CFG_DEVCAP_MPS i, R.CFG_DEVCAP_EXT_TAG i, R.CFG_DEVCAP_ROLE_ERR i, R.CFG_DEVCAP_FLR i]⟩,
   ⟨0x40000058, 4, 1024, 0x1000, 1, 0x0, fun i _ => [R.CFG_DEVCTL_CERE i, R.CFG_DEVCTL_NFERE i, R.CFG_DEVCTL_FERE i, R.CFG_DEVCTL_URRE i, R.CFG_DEVCTL_RELAX i, R.CFG_DEVCTL_MPS i, R.CFG_DEVCTL_MRRS i, R.CFG_DEVCTL_CED i, R.CFG_DEVCTL_NFED i, R.CFG_DEVCTL_FED i, R.CFG_DEVCTL_URD i, R.CFG_DEVCTL_TRANS i]⟩,
   ⟨0x4000005c, 4, 1024, 0x1000, 1, 0x0, fun i _ => [R.CFG_LINKCAP_SPEED i, R.CFG_LINKCAP_WIDTH i, R.CFG_LINKCAP_ASPM i]⟩,
   ⟨0x40000060, 4, 1, 0x0, 1, 0x0, fun _ _ => [R.CFG_LINKCTL_ASPM, R.CFG_LINKCTL_SPEED, R.CFG_LINKCTL_WIDTH]⟩,
   ⟨0x40000074, 4, 1024, 0x1000, 1, 0x0, fun i _ => [R.CFG_DEVCAP2_CTO_RANGES i, R.CFG_DEVCAP2_CTO_DISABLE i, R.CFG_DEVCAP2_TAG10_COMPLETER i, R.CFG_DEVCAP2_TAG10_REQUESTER i]⟩,
   ⟨0x40000078, 4, 1024, 0x1000, 1, 0x0, fun i _ => [R.CFG_DEVCTL2_CTO i] ++ (if i = 0 then [R.CFG_DEVCTL2_TAG10 i] else [])⟩,
   ⟨0x4000007c, 4, 1024, 0x1000, 1, 0x0, fun i _ => [R.CFG_LINKCAP2_SPEEDS i, R.CFG_LINKCAP2_DRS i]⟩,
   ⟨0x40000080, 4, 1, 0x0, 1, 0x0, fun _ _ => [R.CFG_LINKCTL2_TARGET, R.CFG_LINKCTL2_FLIT]⟩,
   ⟨0x400000b0, 4, 1024, 0x1000, 1, 0x0, fun i _ => [R.CFG_MSIX_CTRL_ID i, R.CFG_MSIX_CTRL_NEXT i, R.CFG_MSIX_CTRL_TSIZE i, R.CFG_MSIX_CTRL_FMASK i, R.CFG_MSIX_CTRL_ENABLE i]⟩,
   ⟨0x400000b4, 4, 1024, 0x1000, 1, 0x0, fun i _ => [R.CFG_MSIX_TABLE_BIR i, R.CFG_MSIX_TABLE_OFFSET i]⟩,
   ⟨0x400000b8, 4, 1024, 0x1000, 1, 0x0, fun i _ => [R.CFG_MSIX_PBA_BIR i] ++ (if i = 0 then [R.CFG_MSIX_PBA_OFFSET_PF i] else []) ++ (if i ≠ 0 then [R.CFG_MSIX_PBA_OFFSET_VF i] else [])⟩,
   ⟨0x40000100, 4, 1024, 0x1000, 1, 0x0, fun i _ => [R.CFG_AER_HEADER i]⟩,
   ⟨0x40000104, 4, 1024, 0x1000, 1, 0x0, fun i _ => [R.CFG_AER_UNCOR_STATUS i]⟩,
   ⟨0x40000108, 4, 1, 0x0, 1, 0x0, fun _ _ => [R.CFG_AER_UNCOR_MASK_MASK]⟩,
   ⟨0x4000010c, 4, 1, 0x0, 1, 0x0, fun _ _ => [R.CFG_AER_UNCOR_SEV_SEVERITY]⟩] ++
  [⟨0x40000110, 4, 1024, 0x1000, 1, 0x0, fun i _ => [R.CFG_AER_COR_STATUS i]⟩,
   ⟨0x40000114, 4, 1, 0x0, 1, 0x0, fun _ _ => [R.CFG_AER_COR_MASK_MASK]⟩,
   ⟨0x40000118, 4, 1024, 0x1000, 1, 0x0, fun i _ => [R.CFG_AER_CTRL_FIRST i, R.CFG_AER_CTRL_GEN_CAPABLE i] ++ (if i = 0 then [R.CFG_AER_CTRL_GEN_ENABLE i] else []) ++ [R.CFG_AER_CTRL_CHECK_CAPABLE i] ++ (if i = 0 then [R.CFG_AER_CTRL_CHECK_ENABLE i] else [])⟩,
   ⟨0x40000148, 4, 1024, 0x1000, 1, 0x0, fun i _ => (if i = 0 then [R.CFG_ARI_HEADER_PF i] else []) ++ (if i ≠ 0 then [R.CFG_ARI_HEADER_VF i] else [])⟩,
   ⟨0x40000158, 4, 1, 0x0, 1, 0x0, fun _ _ => [R.CFG_SRIOV_HEADER]⟩,
   ⟨0x4000015c, 4, 1, 0x0, 1, 0x0, fun _ _ => [R.CFG_SRIOV_CAP_MIGRATION, R.CFG_SRIOV_CAP_TAG10, R.CFG_SRIOV_CAP_TAG14]⟩,
   ⟨0x40000160, 4, 1, 0x0, 1, 0x0, fun _ _ => [R.CFG_SRIOV_CTRL_VF_ENABLE, R.CFG_SRIOV_CTRL_VF_MSE, R.CFG_SRIOV_CTRL_ARI, R.CFG_SRIOV_CTRL_VF_TAG10, R.CFG_SRIOV_CTRL_VF_TAG14]⟩,
   ⟨0x40000164, 4, 1, 0x0, 1, 0x0, fun _ _ => [R.CFG_SRIOV_VFS_INITIAL, R.CFG_SRIOV_VFS_TOTAL]⟩,
   ⟨0x40000168, 4, 1, 0x0, 1, 0x0, fun _ _ => [R.CFG_SRIOV_NUMVFS_NUMVFS]⟩,
   ⟨0x4000016c, 4, 1, 0x0, 1, 0x0, fun _ _ => [R.CFG_SRIOV_OFS_OFFSET, R.CFG_SRIOV_OFS_STRIDE]⟩,
   ⟨0x40000170, 4, 1, 0x0, 1, 0x0, fun _ _ => [R.CFG_SRIOV_DID_DEVICE_ID]⟩,
   ⟨0x40000174, 4, 1, 0x0, 1, 0x0, fun _ _ => [R.CFG_SRIOV_SUPPAGE_PAGES]⟩,
   ⟨0x40000178, 4, 1, 0x0, 1, 0x0, fun _ _ => [R.CFG_SRIOV_SYSPAGE_PAGE]⟩,
   ⟨0x4000017c, 4, 1, 0x0, 1, 0x0, fun _ _ => [R.CFG_VFBAR0_TYPE, R.CFG_VFBAR0_ADDR]⟩,
   ⟨0x40000180, 4, 1, 0x0, 1, 0x0, fun _ _ => [R.CFG_VFBAR1_ADDR]⟩,
   ⟨0x4000018c, 4, 1, 0x0, 1, 0x0, fun _ _ => [R.CFG_VFBAR4_TYPE, R.CFG_VFBAR4_ADDR]⟩,
   ⟨0x40000190, 4, 1, 0x0, 1, 0x0, fun _ _ => [R.CFG_VFBAR5_ADDR]⟩,
   ⟨0x400001a0, 4, 1, 0x0, 1, 0x0, fun _ _ => [R.CFG_SECPCIE_HEADER]⟩,
   ⟨0x400001d0, 4, 1, 0x0, 1, 0x0, fun _ _ => [R.CFG_DLF_HEADER]⟩,
   ⟨0x400001e0, 4, 1, 0x0, 1, 0x0, fun _ _ => [R.CFG_PL16_HEADER]⟩,
   ⟨0x40000210, 4, 1, 0x0, 1, 0x0, fun _ _ => [R.CFG_PL32_HEADER]⟩,
   ⟨0x40000240, 4, 1, 0x0, 1, 0x0, fun _ _ => [R.CFG_PL64_HEADER]⟩,
   ⟨0x40000260, 4, 1, 0x0, 1, 0x0, fun _ _ => [R.CFG_L1PM_HEADER]⟩,
   ⟨0x40000264, 4, 1, 0x0, 1, 0x0, fun _ _ => [R.CFG_L1PM_CAP_SUBSTATES]⟩,
   ⟨0x40000268, 4, 1, 0x0, 1, 0x0, fun _ _ => [R.CFG_L1PM_CTL_ENABLES]⟩,
   ⟨0x40000280, 4, 1, 0x0, 1, 0x0, fun _ _ => [R.CFG_DSN_CAP_HEADER]⟩,
   ⟨0x40000284, 8, 1, 0x0, 1, 0x0, fun _ _ => [R.CFG_DSN_DSN]⟩,
   ⟨0x40000290, 4, 1, 0x0, 1, 0x0, fun _ _ => [R.CFG_DEV3_HEADER]⟩,
   ⟨0x40000294, 4, 1, 0x0, 1, 0x0, fun _ _ => [R.CFG_DEV3CAP_TAG14_COMPLETER, R.CFG_DEV3CAP_TAG14_REQUESTER]⟩,
   ⟨0x40000298, 4, 1, 0x0, 1, 0x0, fun _ _ => [R.CFG_DEV3CTL_TAG14]⟩] ++
  [⟨0x40000300, 4, 1, 0x0, 1, 0x0, fun _ _ => [R.EPC_DVSEC_HEADER]⟩,
   ⟨0x40000304, 4, 1, 0x0, 1, 0x0, fun _ _ => [R.EPC_DVSEC1_VENDOR, R.EPC_DVSEC1_REV, R.EPC_DVSEC1_LENGTH]⟩,
   ⟨0x40000308, 4, 1, 0x0, 1, 0x0, fun _ _ => [R.EPC_DVSEC2_ID]⟩,
   ⟨0x4000030c, 4, 1, 0x0, 1, 0x0, fun _ _ => [R.EPC_STATUS_RATE, R.EPC_STATUS_WIDTH, R.EPC_STATUS_FLIT, R.EPC_STATUS_HOST_LOST, R.EPC_STATUS_CTO_SEEN]⟩,
   ⟨0x40000310, 4, 1, 0x0, 1, 0x0, fun _ _ => [R.EPC_CTRL_CLR_CNT]⟩,
   ⟨0x40000314, 4, 1, 0x0, 1, 0x0, fun _ _ => [R.EPC_CNT_FEC_FEC]⟩,
   ⟨0x40000318, 4, 1, 0x0, 1, 0x0, fun _ _ => [R.EPC_CNT_REPLAY_REPLAY]⟩,
   ⟨0x4000031c, 4, 1, 0x0, 1, 0x0, fun _ _ => [R.EPC_CNT_CTO_CTO]⟩,
   ⟨0x40000320, 4, 1, 0x0, 1, 0x0, fun _ _ => [R.EPC_CNT_POISON_POISON]⟩,
   ⟨0x40000324, 4, 1, 0x0, 1, 0x0, fun _ _ => [R.EPC_CNT_CA_UR_CA_UR]⟩,
   ⟨0x40000328, 4, 1, 0x0, 1, 0x0, fun _ _ => [R.EPC_CNT_UC_UC]⟩,
   ⟨0x4000032c, 4, 1, 0x0, 1, 0x0, fun _ _ => [R.EPC_CNT_LINKLOSS_LINKLOSS]⟩,
   ⟨0x40000330, 4, 1, 0x0, 1, 0x0, fun _ _ => [R.EPC_LAST_ERR_FUNC, R.EPC_LAST_ERR_KIND, R.EPC_LAST_ERR_PURPOSE]⟩]

/-- The NVM registers (R101). -/
def regsNVM : List RegDesc :=
  [⟨0x80000000, 8, 1024, 0x4000, 1, 0x0, fun i _ => [R.NVM_CAP_MQES i, R.NVM_CAP_CQR i, R.NVM_CAP_AMS i, R.NVM_CAP_TO i, R.NVM_CAP_DSTRD i, R.NVM_CAP_NSSRS i, R.NVM_CAP_CSS i, R.NVM_CAP_BPS i, R.NVM_CAP_MPSMIN i, R.NVM_CAP_MPSMAX i, R.NVM_CAP_PMRS i, R.NVM_CAP_CMBS i, R.NVM_CAP_CRWMS i, R.NVM_CAP_CRIMS i]⟩,
   ⟨0x80000008, 4, 1024, 0x4000, 1, 0x0, fun i _ => [R.NVM_VS_VS i]⟩,
   ⟨0x80000014, 4, 1024, 0x4000, 1, 0x0, fun i _ => [R.NVM_CC_EN i, R.NVM_CC_CSS i, R.NVM_CC_MPS i, R.NVM_CC_AMS i, R.NVM_CC_SHN i, R.NVM_CC_IOSQES i, R.NVM_CC_IOCQES i]⟩,
   ⟨0x8000001c, 4, 1024, 0x4000, 1, 0x0, fun i _ => [R.NVM_CSTS_RDY i, R.NVM_CSTS_CFS i, R.NVM_CSTS_SHST i]⟩,
   ⟨0x80000024, 4, 1024, 0x4000, 1, 0x0, fun i _ => [R.NVM_AQA_ASQS i, R.NVM_AQA_ACQS i]⟩,
   ⟨0x80000028, 8, 1024, 0x4000, 1, 0x0, fun i _ => [R.NVM_ASQ_ASQB i]⟩,
   ⟨0x80000030, 8, 1024, 0x4000, 1, 0x0, fun i _ => [R.NVM_ACQ_ACQB i]⟩]

/-- The MSX registers (R82). -/
def regsMSX : List RegDesc :=
  [⟨0xc0000000, 4, 1024, 0x10000, 2048, 0x10, fun i j => [R.MSX_ADDR_ADDR i j]⟩,
   ⟨0xc0000004, 4, 1024, 0x10000, 2048, 0x10, fun i j => [R.MSX_UPPER_ADDR i j]⟩,
   ⟨0xc0000008, 4, 1024, 0x10000, 2048, 0x10, fun i j => [R.MSX_DATA_DATA i j]⟩,
   ⟨0xc000000c, 4, 1024, 0x10000, 2048, 0x10, fun i j => [R.MSX_CTRL_MASK i j]⟩]

/-- Every register of the machine. -/
def regMap : List RegDesc :=
  regsGLB ++ regsKCF ++ regsEVR ++ regsDMA ++ regsSEC ++ regsDGE ++ regsCPE ++ regsCMP ++ regsFTM ++ regsRDE ++ regsISF ++ regsZBL ++ regsMEM ++ regsPWR ++ regsROOT ++ regsBOOT ++ regsCFG ++ regsNVM ++ regsMSX

end Sys2Proof.Machine
end

