-- ==== Sys2Proof/WellFormed.lean ====
section
/-!
DEFINITION. Well-formed commands: every instance number lies in the range the spec gives it (Table 0-4, Table 1-1).
-/
namespace Sys2Proof

/-- A command name whose function number the endpoint has. -/
def CmdId.wf (i : CmdId) : Bool := decide (i.fn < 1024)

/-- An access space whose function number the endpoint has. -/
def Space.wf : Space → Bool
  | .bar2 => true
  | .cores => true
  | .bar0 f => decide (f < 1024)
  | .bar4 f => decide (f < 1024)
  | .cfg f => decide (f < 1024)

/-- Whether every operand of a command lies in its range. -/
def Instr.wf (i : Instr) : Bool :=
  match i with
  | .registerWrite sp _ _ _ => sp.wf
  | .lowHalfRead sp _ _ => sp.wf
  | .lowHalfWrite sp _ _ => sp.wf
  | .nightwatchTick => true
  | .porNAssert => true
  | .crystalRunning => true
  | .headSelSample _ => true
  | .sysRstNAssert => true
  | .pwrgdRise => true
  | .pwrgdFall => true
  | .pllLockTimeout _ => true
  | .firmwareStart _ _ _ _ => true
  | .vaultReplay _ _ _ _ _ => true
  | .dayReached => true
  | .kcfLoad => true
  | .kcfLoadDone => true
  | .kcfValidate => true
  | .kcfValidateDone => true
  | .kcfActivate => true
  | .kcfPersistDone _ => true
  | .kcfAbort => true
  | .kcfRetry => true
  | .kcfActTimeout => true
  | .clusterDrained n _ => decide (n < 24)
  | .kcfQuiesceTimeout n _ => decide (n < 24)
  | .perstDeassert => true
  | .perstAssert => true
  | .linkL0Reached _ _ _ => true
  | .configSpaceReady => true
  | .dlDown => true
  | .hotReset => true
  | .pmeTurnOff => true
  | .linkError _ fn _ => decide (fn < 1024)
  | .deviceControlWrite fn _ => decide (fn < 1024)
  | .numvfsWrite _ => true
  | .systemPageSizeWrite _ => true
  | .vfEnableSet => true
  | .vfEnableClear => true
  | .vfFlr fn => decide (fn < 1024)
  | .pfFlr => true
  | .busMasterEnableWrite fn _ => decide (fn < 1024)
  | .msixMaskWrite fn _ _ => decide (fn < 1024)
  | .msixEnableWrite fn _ => decide (fn < 1024)
  | .msixMessageWrite fn _ _ _ => decide (fn < 1024)
  | .inboundUnsupportedRequest _ fn => decide (fn < 1024)
  | .readCompletion _ _ _ _ _ _ => true
  | .completionTimeout _ => true
  | .epcClrCnt => true
  | .ccEnSet fn => decide (fn < 1024)
  | .controllerReady fn => decide (fn < 1024)
  | .ccEnClear fn => decide (fn < 1024)
  | .normalShutdown fn => decide (fn < 1024)
  | .abruptShutdown fn => decide (fn < 1024)
  | .sqTailDoorbell fn _ _ => decide (fn < 1024)
  | .cqHeadDoorbell fn _ _ => decide (fn < 1024)
  | .sqFetchIssue _ _ => true
  | .coalescingTimer fn _ => decide (fn < 1024)
  | .deleteIoSubmissionQueue id _ => id.wf
  | .createIoSubmissionQueue id _ _ _ _ _ => id.wf
  | .getLogPage id _ _ _ _ _ => id.wf
  | .deleteIoCompletionQueue id _ => id.wf
  | .createIoCompletionQueue id _ _ _ _ _ _ => id.wf
  | .identify id _ _ _ _ => id.wf
  | .nvmeAbort id target => id.wf && target.wf
  | .setFeatures id _ _ _ => id.wf
  | .getFeatures id _ _ => id.wf
  | .asynchronousEventRequest id => id.wf
  | .namespaceManagement id _ => id.wf
  | .namespaceAttachment id _ _ => id.wf
  | .formatNvm id _ _ _ _ _ => id.wf
  | .deviceSelfTest id _ => id.wf
  | .selfTestStep _ _ => true
  | .firmwareImageDownload id _ _ => id.wf
  | .firmwareCommit id _ _ _ => id.wf
  | .fwSlotWriteDone _ => true
  | .loadKey id _ _ => id.wf
  | .eraseKey id _ _ => id.wf
  | .eraseChunksEncrypted _ => true
  | .transportKey id _ _ _ => id.wf
  | .slotStatus id _ _ _ => id.wf
  | .lastResult id _ _ _ => id.wf
  | .securityProtocolInfo id _ _ _ _ => id.wf
  | .write id _ _ _ _ _ => id.wf
  | .writeDataArrived id => id.wf
  | .read id _ _ _ _ _ => id.wf
  | .verify id _ _ _ _ _ => id.wf
  | .writeZeroes id _ _ _ _ _ => id.wf
  | .datasetManagement id _ _ _ => id.wf
  | .flush id _ => id.wf
  | .segmentIdleTimeout _ => true
  | .stripeAgeTimeout _ => true
  | .journalRecordVaulted _ _ => true
  | .holdupNFall => true
  | .flushSeal => true
  | .holdupNRise => true
  | .holdupStable => true
  | .gatherEnd => true
  | .dwellEnd => true
  | .shelfPageIn sh _ _ => decide (sh < 128)
  | .parkTimeout sh => decide (sh < 128)
  | .shelfWakeTimeout sh => decide (sh < 128)
  | .dedupDecide _ _ _ _ _ _ _ => true
  | .bucketReadDone _ _ _ _ => true
  | .cmpCompress _ _ _ _ _ _ _ _ => true
  | .cmpCompressToCipher _ _ _ _ _ _ _ => true
  | .cmpDecompress _ _ _ _ _ _ _ => true
  | .accelJobStart _ _ => true
  | .cmpJobEnd _ _ => true
  | .cmpCntClr => true
  | .encrypt _ _ _ => true
  | .encryptStreamed _ _ _ => true
  | .decrypt _ _ _ => true
  | .decryptDecompress _ _ _ => true
  | .cipherJobEnd _ _ _ => true
  | .instTake _ _ => true
  | .cpeCntClr => true
  | .hash _ _ _ => true
  | .compare _ _ _ => true
  | .digestJobEnd _ _ _ => true
  | .dgeCntClr => true
  | .mediaRead sh _ _ _ => decide (sh < 128)
  | .mediaReadHdr sh _ _ => decide (sh < 128)
  | .mediaProgram sh _ _ _ _ => decide (sh < 128)
  | .mediaErase sh _ _ => decide (sh < 128)
  | .mediaCopy sh _ _ _ _ _ _ _ => decide (sh < 128)
  | .mediaBlockInfo sh _ => decide (sh < 128)
  | .mediaRetire sh _ => decide (sh < 128)
  | .mediaGeometry sh => decide (sh < 128)
  | .mediaRootGet sh => decide (sh < 128)
  | .mediaRootSet sh _ _ _ => decide (sh < 128)
  | .mediaResponse _ _ _ _ _ => true
  | .mediaOpTimeout _ => true
  | .writebackDue sh _ => decide (sh < 128)
  | .fullScanRebuild sh => decide (sh < 128)
  | .stripeCompaction c => decide (c < 8)
  | .bandCompaction sh => decide (sh < 128)
  | .rebuildGraceTimeout sh => decide (sh < 128)
  | .rebuildStripe c _ => decide (c < 8)
  | .repairPage c _ _ _ => decide (c < 8)
  | .scrubStripe c => decide (c < 8)
  | .scrubAgeRequest c => decide (c < 8)
  | .encode _ _ _ => true
  | .accumulate _ _ _ => true
  | .reconstruct _ _ _ => true
  | .rdeVerify _ _ _ => true
  | .rdeJobEnd _ _ => true
  | .reshapeStart => true
  | .reshapeAbort => true
  | .reshapeBatchCopied => true
  | .reshapeCopyDone => true
  | .rdeCntClr => true
  | .hubCodeword str _ => decide (str < 16)
  | .attachmentTraining str _ _ _ => decide (str < 16)
  | .beaconTransmit str _ => decide (str < 16)
  | .beaconReceive str _ _ _ => decide (str < 16)
  | .dataSlotTransmit str _ _ => decide (str < 16)
  | .slotReceive str _ _ _ _ _ _ _ => decide (str < 16)
  | .holdoverEntry str pos => decide (str < 16) && decide (pos < 8)
  | .holdoverTimeout str pos => decide (str < 16) && decide (pos < 8)
  | .stringDark str => decide (str < 16)
  | .contentionAttempt str pos _ _ => decide (str < 16) && decide (pos < 8)
  | .backoffExpiry str pos => decide (str < 16) && decide (pos < 8)
  | .enrol str _ pos _ _ _ _ _ _ => decide (str < 16) && decide (pos < 8)
  | .stringSpdm str pos _ _ _ => decide (str < 16) && decide (pos < 8)
  | .enrolmentTimeout str => decide (str < 16)
  | .quarantineExpiry str pos => decide (str < 16) && decide (pos < 8)
  | .isfAck str pos _ _ _ => decide (str < 16) && decide (pos < 8)
  | .isfRetxTimeout str pos _ _ => decide (str < 16) && decide (pos < 8)
  | .sessionStart str pos _ _ _ _ _ _ => decide (str < 16) && decide (pos < 8)
  | .keys str pos _ _ => decide (str < 16) && decide (pos < 8)
  | .park str pos _ => decide (str < 16) && decide (pos < 8)
  | .parkDone str pos => decide (str < 16) && decide (pos < 8)
  | .echo str pos _ _ => decide (str < 16) && decide (pos < 8)
  | .echoReply str pos _ => decide (str < 16) && decide (pos < 8)
  | .bridgeNandPowered str pos => decide (str < 16) && decide (pos < 8)
  | .bridgeWake str _ pos _ _ _ => decide (str < 16) && decide (pos < 8)
  | .bridgeWakeTone str pos => decide (str < 16) && decide (pos < 8)
  | .bridgeLost str pos => decide (str < 16) && decide (pos < 8)
  | .stringOutOfService str => decide (str < 16)
  | .stringRetrainRetry str _ => decide (str < 16)
  | .isfStrCntClr str => decide (str < 16)
  | .laneFailed _ => true
  | .rewidth _ => true
  | .quadRetrain _ _ => true
  | .zblBringup _ _ _ _ _ => true
  | .zblWakeToneSend => true
  | .hello _ _ => true
  | .aloneTimeout => true
  | .heartbeatSend => true
  | .heartbeatReceive _ _ _ _ _ => true
  | .watchdogLapse => true
  | .zblAck _ _ _ _ => true
  | .zblRetxTimeout _ => true
  | .opRetryTimeout _ => true
  | .hostDown _ _ => true
  | .hostUp _ _ => true
  | .pfail _ _ _ => true
  | .depart _ _ _ => true
  | .peerYield _ _ => true
  | .mnSync _ _ _ _ => true
  | .recCopy _ _ _ _ _ => true
  | .mnClose _ _ _ _ _ _ => true
  | .mnConfirm _ _ _ => true
  | .propose _ _ _ => true
  | .answer _ _ => true
  | .commit _ _ _ => true
  | .doneMsg _ _ _ => true
  | .proposalLapse _ => true
  | .acceptedProposalDiscard _ => true
  | .lease _ _ => true
  | .mapwalk _ _ => true
  | .stateMsg _ _ => true
  | .mirrorData _ _ _ _ => true
  | .mirrorEnd _ _ _ _ _ _ _ => true
  | .mirrorDrop _ _ => true
  | .epochBoundary => true
  | .midnightComplete _ => true
  | .midnightSyncEdge => true
  | .peerSilent => true
  | .fenceComplete => true
  | .bringupRetry => true
  | .zblCntClr => true
  | .alu n e _ => decide (n < 24) && decide (e < 8)
  | .addi n e _ => decide (n < 24) && decide (e < 8)
  | .andi n e _ => decide (n < 24) && decide (e < 8)
  | .ori n e _ => decide (n < 24) && decide (e < 8)
  | .xori n e _ => decide (n < 24) && decide (e < 8)
  | .slli n e _ => decide (n < 24) && decide (e < 8)
  | .srli n e _ => decide (n < 24) && decide (e < 8)
  | .srai n e _ => decide (n < 24) && decide (e < 8)
  | .muli n e _ => decide (n < 24) && decide (e < 8)
  | .cmpi n e _ => decide (n < 24) && decide (e < 8)
  | .movw n e _ => decide (n < 24) && decide (e < 8)
  | .shor n e _ => decide (n < 24) && decide (e < 8)
  | .loadInstruction n e _ _ => decide (n < 24) && decide (e < 8)
  | .storeInstruction n e _ _ => decide (n < 24) && decide (e < 8)
  | .dramLoadReply n e _ => decide (n < 24) && decide (e < 8)
  | .bc n e _ => decide (n < 24) && decide (e < 8)
  | .brz n e _ => decide (n < 24) && decide (e < 8)
  | .brnz n e _ => decide (n < 24) && decide (e < 8)
  | .jal n e _ => decide (n < 24) && decide (e < 8)
  | .jalr n e _ => decide (n < 24) && decide (e < 8)
  | .sld n e _ _ => decide (n < 24) && decide (e < 8)
  | .sst n e _ _ _ => decide (n < 24) && decide (e < 8)
  | .scrc16 n e _ _ => decide (n < 24) && decide (e < 8)
  | .scrc64 n e _ _ => decide (n < 24) && decide (e < 8)
  | .shcut n e _ _ => decide (n < 24) && decide (e < 8)
  | .engNop n e _ => decide (n < 24) && decide (e < 8)
  | .fence n e _ => decide (n < 24) && decide (e < 8)
  | .ifence n e _ => decide (n < 24) && decide (e < 8)
  | .wfw n e _ => decide (n < 24) && decide (e < 8)
  | .brk n e _ => decide (n < 24) && decide (e < 8)
  | .eret n e _ => decide (n < 24) && decide (e < 8)
  | .mfs n e _ => decide (n < 24) && decide (e < 8)
  | .mts n e _ => decide (n < 24) && decide (e < 8)
  | .aiss n e _ => decide (n < 24) && decide (e < 8)
  | .await n e _ => decide (n < 24) && decide (e < 8)
  | .acan n e _ => decide (n < 24) && decide (e < 8)
  | .afence n e _ => decide (n < 24) && decide (e < 8)
  | .workItemDelivery n e _ => decide (n < 24) && decide (e < 8)
  | .workItemTimeout n e toN toE => decide (n < 24) && decide (e < 8) && decide (toN < 24) && decide (toE < 8)
  | .engineFaultRecovery n e toN toE => decide (n < 24) && decide (e < 8) && decide (toN < 24) && decide (toE < 8)
  | .ctlDone n e _ _ _ _ => decide (n < 24) && decide (e < 8)
  | .ctlChunk n e _ _ _ _ _ => decide (n < 24) && decide (e < 8)
  | .ctlPacked n e _ _ _ _ => decide (n < 24) && decide (e < 8)
  | .ctlOpen n e _ _ => decide (n < 24) && decide (e < 8)
  | .ctlSealed n e _ _ _ => decide (n < 24) && decide (e < 8)
  | .ctlEvent n e _ _ _ _ _ _ => decide (n < 24) && decide (e < 8)
  | .engHalt n e => decide (n < 24) && decide (e < 8)
  | .engResume n e => decide (n < 24) && decide (e < 8)
  | .engineLoad n e _ => decide (n < 24) && decide (e < 8)
  | .cancelAll n e => decide (n < 24) && decide (e < 8)
  | .clusterOffline n => decide (n < 24)
  | .clusterOnline n => decide (n < 24)
  | .cancelLogRelease n _ => decide (n < 24)
  | .secClCntClr n => decide (n < 24)
  | .secEngCntClr n e => decide (n < 24) && decide (e < 8)
  | .dmaStart ch _ => decide (ch < 32)
  | .dmaPause ch _ => decide (ch < 32)
  | .dmaResume ch _ => decide (ch < 32)
  | .dmaAbort ch _ => decide (ch < 32)
  | .dmaDoorbell ch _ => decide (ch < 32)
  | .descriptorReadReply ch => decide (ch < 32)
  | .linkReadReply ch => decide (ch < 32)
  | .dmaCopy ch => decide (ch < 32)
  | .dmaFill ch => decide (ch < 32)
  | .dmaCompare ch => decide (ch < 32)
  | .pacedBurst ch _ => decide (ch < 32)
  | .paceTick => true
  | .dmaBusError ch _ _ _ _ => decide (ch < 32)
  | .busStopClear => true
  | .busStopTimeout => true
  | .hwinLenWrite _ _ => true
  | .dmaCntClr => true
  | .cacheAccess _ _ _ _ _ _ _ _ _ => true
  | .coreWritebackArrive _ _ _ => true
  | .snoopWb _ _ => true
  | .evictionWriteAccepted _ => true
  | .patrolScrub _ => true
  | .dimmTemperatureReading _ _ => true
  | .wayPowerDown _ _ => true
  | .waySweepDone _ _ => true
  | .wayPowerUp _ _ => true
  | .memCntClr => true
  | .pwrDusk => true
  | .pwrCancel => true
  | .hostlessTimeout => true
  | .duskDrained => true
  | .duskFlushed => true
  | .duskHandedOver => true
  | .duskClosed => true
  | .wakeNLow => true
  | .zblWakeTone => true
  | .isfWakeTone str => decide (str < 16)
  | .nightWakeTimer => true
  | .i3cPrivateWrite => true
  | .nightwatchSensorCheck _ => true
  | .clusterGateIdle _ => true
  | .thermalSample _ => true
  | .thermalTrip => true
  | .powerEstimate _ => true
  | .pllLossOfLock _ => true
  | .pwrCntClr => true
  | .getChallenge => true
  | .challengeExpiry => true
  | .clearMailbox => true
  | .debugOpen _ => true
  | .provision _ _ => true
  | .deploy _ _ => true
  | .service _ _ => true
  | .returnToken _ _ => true
  | .retire _ _ => true
  | .fuseOwner _ _ => true
  | .revokeOwner _ _ => true
  | .trustAdd _ => true
  | .trustRemove _ => true
  | .revokeFwKey _ _ => true
  | .secRootCntClr => true
  | .getVersion _ => true
  | .getCapabilities _ => true
  | .negotiateAlgorithms _ _ _ => true
  | .getDigests _ => true
  | .getCertificate _ _ _ _ => true
  | .spdmChallenge _ _ _ _ => true
  | .getMeasurements _ _ _ _ _ => true
  | .jtagBypass _ => true
  | .jtagIdcode => true
  | .jtagSamplePreload _ _ => true
  | .jtagExtest _ _ => true
  | .jtagClamp _ => true
  | .jtagHighz _ => true
  | .dbgChallenge => true
  | .dbgToken _ _ => true
  | .dbgStatus => true
  | .dbgAccess _ _ _ => true
  | .bootConfirm => true
  | .confirmTimeout => true
  | .resetWarm => true
  | .saveBoard _ => true
  | .fwReq _ _ _ _ => true
  | .fwData _ _ _ => true
  | .fwEnd _ _ _ => true
  | .bootCntClr => true
  | .eventRecordArrive _ => true
  | .suppressionPeriodEnd _ => true
  | .evrFreeze => true
  | .evrThaw => true
  | .freezeLapse => true
  | .clearFb => true
  | .evrCPtrWrite _ => true
  | .evrCntClr => true
  | .headFault _ _ => true
  | .i3cEntdaa _ => true
  | .mctpMessage _ _ => true
  | .nightwatchSupplyLoss => true
  | .dimmSupplyLoss => true
  | .pllLocked _ => true
  | .dramTrainingDone _ _ _ => true
  | .ceHourWindow _ => true
  | .standaloneAck _ => true
  | .illegalInstruction n e _ => decide (n < 24) && decide (e < 8)
  | .fetchFault n e => decide (n < 24) && decide (e < 8)
  | .zblTrainingRestart => true

end Sys2Proof
end

