-- ==== Sys2Proof/Machine/State.lean ====
section
/-!
DEFINITION. The state of the head: its registers field by field, its blocks, its DRAM, what it has sent, and the queue of
commands that wait.
-/
namespace Sys2Proof.Machine

/-- The SPDM responses of Table 17-8 as the head sends them. -/
inductive SpdmRsp where
  | version
  | capabilities
  | algorithms (p384 sha384 : Bool)
  | digests (slot0 slot1 : Option Nat)
  | certificate (slot : Nat) (part : List Byte) (remainder : Nat)
  | challengeAuth (slot measHash signature : Nat)
  | measurements (blocks : List (Nat × List Byte)) (signature : Option Nat)
  | error (code : Nat)
  deriving DecidableEq, Repr

/-- What the head sends or drives: to the host, to the peer, to the strings, on its pins and ports. -/
inductive OutMsg where
  | hostWrite (fn addr : Nat) (relaxed : Bool) (data : List Byte)
  | hostRead (fn addr len tag : Nat)
  | msix (fn addr data : Nat)
  | errMsg (fn severity : Nat)
  | unsupportedRequest (kind : BadRequest) (fn : Nat)
  | retryStatus (fn : Nat)
  | deviceReady
  | pmeAck
  | pme
  | media (tag shelf : Nat) (req : MediaReq)
  | strFrame (str : Nat) (f : StrFrame) (wire : List Byte)
  | beacon (str : Nat) (b : Beacon) (wire : List Byte)
  | sos (str att slot demand : Nat)
  | strWake (str slot pos reason : Nat)
  | strEnrol (str slot pos : Nat)
  | strTone (str : Nat)
  | strTrain (str att : Nat)
  | hubSend (str : Nat) (h : HubOut)
  | spdmString (str pos : Nat) (request : Nat)
  | peer (ch : Nat) (seq : Option Nat) (opid txc : Nat) (retx replay : Bool) (msg : PeerMsg) (wire : List Byte)
  | peerHb (txc tx echoTx echoRx : Nat) (st : HbState) (wire : List Byte)
  | peerAck (txc : Nat) (acks wins : List Nat) (nak : Nat) (wire : List Byte)
  | peerRewidth (quads : Nat)
  | peerTrain (quads : Nat)
  | peerTone
  | spdm (tr : Transport) (rsp : SpdmRsp)
  | nvmeMi (tr : Transport) (request : List Byte)
  | jtag (bits : List Bool)
  | debugData (value : Nat)
  | lineWrite (line : Nat) (data : List Byte)
  | midnightPulse
  | pwrReq (level : Bool)
  | wakeN
  deriving DecidableEq, Repr

/-- The register fields' values (fields at their reset value are not listed), the low halves held by R10, the shadows of R9,
the results that wait for the release of an earlier one, by their VALID bit, oldest first (R15), and what the last register read returned. Fields that keep their value through a warm reset and Night are in `kept`. -/
structure RegFile where
  vol : List (Nat × Nat) := []
  kept : List (Nat × Nat) := []
  held : List (Nat × Option Nat) := []
  shadow : List (Nat × Option Nat) := []
  later : List (Fld × List (Fld × Nat)) := []
  readData : Nat := 0
  deriving DecidableEq, Repr

/-- The head. `freeCount` numbers the free values taken (log entry 4); it is the model's own. -/
structure Chip where
  regs : RegFile := {}
  evr : Evr := {}
  kcf : Kcf := {}
  epc : Epc := {}
  nvm : Nvm := {}
  boot : Boot := {}
  pwr : Pwr := {}
  ing : Ingest := {}
  dd : Dedup := {}
  cmp : Cmp := {}
  cpe : Cpe := { instPending := true }
  dge : Dge := {}
  ftm : Ftm := {}
  rde : Rde := {}
  isf : Isf := {}
  zbl : Zbl := {}
  sec : Sec := {}
  dma : Dma := {}
  mem : MemB := {}
  root : Root := {}
  dram : List Host.Cell := []
  out : List OutMsg := []
  freeCount : Nat := 0
  deriving DecidableEq, Repr

/-- The machine's state: the head, and the commands that wait, first in, first out. -/
structure State where
  chip : Chip := {}
  pending : List Instr := []
  deriving DecidableEq, Repr

/-- Why a step stops. -/
inductive Fault where
  /-- Raised by a command one of whose operands numbers a function, string, shelf, cluster, engine or channel that the head
  does not have (Instr.wf). Safe: no such command can reach the hardware. -/
  | noSuchUnit
  deriving DecidableEq, Repr

/-- Why a command is turned away. -/
inductive Refusal where
  /-- Raised by an arm of exec whose command has no meaning yet. Safe. -/
  | notModelled (mnemonic : String)
  deriving DecidableEq, Repr

/-- The head right after cold reset: every register field at its reset value, every block empty, DRAM with nothing listed and no
command waiting. -/
def State.reset : State := {}

end Sys2Proof.Machine
end

