-- ==== Sys2Proof/Machine/Ops.lean ====
section
/-!
DEFINITION. The named operations that every meaning is built from: reading and writing register fields, counting, taking a
free value, sending, interrupts (R82 to R86) and event records on their way to the recorder (R573, R579).
-/
namespace Sys2Proof.Machine

/-- Run a command's effect on the chip. `known` says that the head has every unit the command names (Instr.wf); otherwise the
command faults. The queue is not touched. -/
def State.run (s : State) (known : Bool) (f : Chip → Chip) : Host.Outcome State Fault Refusal :=
  if known then .next { s with chip := f s.chip } else .fault .noSuchUnit

/-- Run a command's effect where the head's logic is clocked: in Dawn, Day and Dusk (Table 16-1). In the other states it has none. -/
def State.runAwake (s : State) (known : Bool) (f : Chip → Chip) : Host.Outcome State Fault Refusal :=
  s.run known (fun c => if c.pwr.mode == .dawn || c.pwr.mode == .day || c.pwr.mode == .dusk then f c else c)

/-- A register field's value. -/
def Chip.get (c : Chip) (f : Fld) : Nat :=
  if f.kept then Sparse.get f.reset c.regs.kept f.key else Sparse.get f.reset c.regs.vol f.key

/-- A register field set to a value, cut to the field's width. -/
def Chip.set (c : Chip) (f : Fld) (v : Nat) : Chip :=
  if f.kept then { c with regs := { c.regs with kept := Sparse.set f.reset c.regs.kept f.key (trunc f.width v) } }
  else { c with regs := { c.regs with vol := Sparse.set f.reset c.regs.vol f.key (trunc f.width v) } }

/-- Whether a one-bit field is 1. -/
def Chip.on (c : Chip) (f : Fld) : Bool := c.get f == 1

/-- A one-bit field set from a truth value. -/
def Chip.setFlag (c : Chip) (f : Fld) (b : Bool) : Chip := c.set f (flag b)

/-- Fields set one after another. -/
def Chip.setAll (c : Chip) (l : List (Fld × Nat)) : Chip := l.foldl (fun d p => d.set p.1 p.2) c

/-- Fields cleared to 0 together. -/
def Chip.clearAll (c : Chip) (l : List Fld) : Chip := l.foldl (fun d f => d.set f 0) c

/-- A counter stepped; it wraps at its width. -/
def Chip.bump (c : Chip) (f : Fld) (n : Nat) : Chip := c.set f (c.get f + n)

/-- A counter stepped and held at its maximum (R99). -/
def Chip.bumpHold (c : Chip) (f : Fld) (n : Nat) : Chip := c.set f (min (c.get f + n) (2 ^ f.width - 1))

/-- Bit `n` of a field. -/
def Chip.bit (c : Chip) (f : Fld) (n : Nat) : Bool := bitOf (c.get f) n

/-- Bit `n` of a field set. -/
def Chip.raise (c : Chip) (f : Fld) (n : Nat) : Chip := c.set f (setBit (c.get f) n)

/-- Bit `n` of a field cleared. -/
def Chip.lower (c : Chip) (f : Fld) (n : Nat) : Chip := c.set f (clearBit (c.get f) n)

/-- GLB_TIME (R27). -/
def Chip.now (c : Chip) : Nat := c.get R.GLB_TIME_TIME

/-- GLB_EPOCH. -/
def Chip.epoch (c : Chip) : Nat := c.get R.GLB_EPOCH_EPOCH

/-- This head's position (R17). -/
def Chip.pos (c : Chip) : Nat := c.get R.GLB_HEAD_POS

/-- Whether a power state is one in which the head runs. -/
def Chip.isDay (c : Chip) : Bool := c.pwr.mode == .day

/-- Day or Dusk. -/
def Chip.inService (c : Chip) : Bool := c.pwr.mode == .day || c.pwr.mode == .dusk

/-- Dawn, Day or Dusk: the states in which the head's logic is clocked. -/
def Chip.awake (c : Chip) : Bool := c.pwr.mode == .dawn || c.inService

/-- R604: whether PWR_REQ may rise: it has been low for 2 ms since it fell at the entry into Night. -/
def Chip.reqDue (c : Chip) : Bool := c.pwr.reqFell.all (fun t => decide (t + 2000000 ≤ c.now))

/-- PWRGD high in a Dawn that asks for the rails: the PLLs lock (R603, Table 16-4). -/
def Chip.startPlls (c : Chip) : Chip :=
  { c with pwr := { c.pwr with dawnStep := 2, pllAt := (List.range 10).map (fun p => (p, c.now)) } }

/-- Installed DRAM in bytes. -/
def Chip.dramSize (c : Chip) : Nat := c.mem.gib * 1073741824

/-- A value sent to the outside. -/
def Chip.emit (c : Chip) (m : OutMsg) : Chip := { c with out := m :: c.out }

/-- PWR_REQ raised in a Dawn (R603). -/
def Chip.raiseReq (c : Chip) : Chip :=
  let c := ({ c with pwr := { c.pwr with pwrReq := true, reqFell := none } } : Chip).emit (.pwrReq true)
  if c.pwr.pwrgd then c.startPlls else c

/-- The passing of time with no command waiting: one nanosecond of GLB_TIME in Dawn, Day and Dusk (R27, log entry 1); a Dawn that may not yet
ask for the switched rails asks once it may (R604). -/
def Chip.tick (c : Chip) : Chip :=
  let d := if c.awake then c.bump R.GLB_TIME_TIME 1 else c
  if d.pwr.mode = .dawn && !d.pwr.pwrReq && d.reqDue then d.raiseReq else d

/-- The free value the next use takes. -/
def Chip.freeNow (c : Chip) : Nat := Config.freeValue c.freeCount

/-- A free value used up (log entry 4). -/
def Chip.useFree (c : Chip) : Chip := { c with freeCount := c.freeCount + 1 }

/-- The severity of an event code (Table 19-2): 0 Info, 1 Notice, 2 Error, 3 Critical; none for a reserved code. -/
def eventSeverity (code : Nat) : Option Nat :=
  if [0x240, 0x2C0].contains code then some 0
  else if [0x001, 0x013, 0x042, 0x044, 0x143, 0x180, 0x183, 0x184, 0x1C0, 0x1C2, 0x200, 0x203, 0x241, 0x245, 0x247,
    0x249, 0x24A, 0x340, 0x341].contains code then some 1
  else if [0x003, 0x004, 0x010, 0x011, 0x012, 0x014, 0x040, 0x041, 0x043, 0x080, 0x081, 0x082, 0x0C0, 0x100, 0x140,
    0x141, 0x144, 0x181, 0x182, 0x1C1, 0x202, 0x242, 0x243, 0x246, 0x248, 0x280, 0x281, 0x283, 0x2C1, 0x2C3, 0x2C4,
    0x300, 0x302, 0x303, 0x381].contains code then some 2
  else if [0x000, 0x002, 0x083, 0x142, 0x1C3, 0x201, 0x244, 0x282, 0x2C2, 0x301, 0x304, 0x380].contains code then some 3
  else none

/-- A record as its source makes it (Table 19-1), stamped with GLB_TIME and GLB_EPOCH (R29). -/
def Chip.record (c : Chip) (code index a0 a1 a2 a3 : Nat) : EvRecord :=
  { severity := (eventSeverity code).getD 0, code := code, index := index, time := c.now, epoch := c.epoch,
    arg0 := a0, arg1 := a1, arg2 := a2, arg3 := a3 }

/-- Whether a record in transit has this code from this source (R579; the source is the instance, log entry 13). -/
def sameSource (code index : Nat) (r : EvRecord) : Bool := r.code == code && r.index == index

/-- R579: an event goes into transit, or steps COALESCED of the event of the same code and source that is in transit. -/
def Chip.event (c : Chip) (code index a0 a1 a2 a3 : Nat) : Chip :=
  if c.evr.transit.any (sameSource code index) then
    { c with evr := { c.evr with transit := c.evr.transit.map (fun r =>
        if sameSource code index r then { r with coalesced := min (r.coalesced + 1) 0xFFFF } else r) } }
  else { c with evr := { c.evr with transit := c.evr.transit ++ [c.record code index a0 a1 a2 a3] } }

/-- The INDEX of a BAR2 address for events of group 0x010 (R573): its block, or 16 outside the blocks. -/
def blockIndex (addr : Nat) : Nat :=
  let w := addr / 0x100000
  if w < 5 then w
  else if w = 5 then 4
  else if w ≤ 16 then w - 1
  else 16

/-- The invalid-encoding event of R5: the register's address and the value written. -/
def Chip.invalidEncoding (c : Chip) (f : Fld) (v : Nat) : Chip := c.event 0x012 (blockIndex f.addr) f.addr v 0 0

/-- The refused-command event of R55 and R489. -/
def Chip.refusedCommand (c : Chip) (reg : Fld) : Chip := c.event 0x013 (blockIndex reg.addr) reg.addr 0 0 0

/-- The key of a vector's Pending bit. -/
def vecKey (fn vec : Nat) : Nat := fn * 4096 + vec

/-- Entries in a function's MSI-X table (R82). -/
def msixEntries (fn : Nat) : Nat := if fn = 0 then 2048 else 1025

/-- Whether a vector is unmasked (R86). -/
def Chip.vecOpen (c : Chip) (fn vec : Nat) : Bool :=
  c.on (R.CFG_MSIX_CTRL_ENABLE fn) && !c.on (R.CFG_MSIX_CTRL_FMASK fn) && !c.on (R.MSX_CTRL_MASK fn vec)

/-- A vector's Pending bit. -/
def Chip.vecPending (c : Chip) (fn vec : Nat) : Bool := Sparse.get false c.epc.pending (vecKey fn vec)

/-- A vector's Pending bit set. -/
def Chip.setPending (c : Chip) (fn vec : Nat) (b : Bool) : Chip :=
  { c with epc := { c.epc with pending := Sparse.set false c.epc.pending (vecKey fn vec) b } }

/-- The message an MSI-X entry spells (R86). -/
def Chip.sendVector (c : Chip) (fn vec : Nat) : Chip :=
  c.emit (.msix fn (c.get (R.MSX_ADDR_ADDR fn vec) + 0x100000000 * c.get (R.MSX_UPPER_ADDR fn vec))
    (c.get (R.MSX_DATA_DATA fn vec)))

/-- Whether the head may issue a request on a function's behalf: Bus Master Enable is set (R81), the link carries requests, and the PF, if it is
the function, is in D0 (R69, log entry 92). -/
def Chip.mayRequest (c : Chip) (fn : Nat) : Bool :=
  c.on (R.CFG_COMMAND_BME fn) && c.epc.link == .l0 && (fn != 0 || c.get R.CFG_PMCSR_POWER_STATE == 0)

/-- PME from D3hot (R69): a cause of the PF that cannot be signalled there sets PME Status, and with PME Enable one PM_PME message leaves
(log entry 92). -/
def Chip.powerEvent (c : Chip) (fn : Nat) : Chip :=
  if fn = 0 && c.get R.CFG_PMCSR_POWER_STATE == 3 && !c.epc.pme then
    let c : Chip := { c with epc := { c.epc with pme := true } }
    if c.on R.CFG_PMCSR_PME_EN && c.epc.link == .l0 then c.emit .pme else c
  else c

/-- R83: a cause for a vector sends one message, or sets the Pending bit while the vector is masked; while no request may leave (R81), the bit is
set as well. -/
def Chip.cause (c : Chip) (fn vec : Nat) : Chip :=
  if c.vecOpen fn vec && c.mayRequest fn then c.sendVector fn vec else (c.setPending fn vec true).powerEvent fn

/-- R83: a pending vector that has become unmasked sends its one message. -/
def Chip.flushVector (c : Chip) (fn vec : Nat) : Chip :=
  if c.vecPending fn vec && c.vecOpen fn vec && c.mayRequest fn then
    (c.setPending fn vec false).sendVector fn vec
  else c

/-- The pending vectors of a function. -/
def Chip.pendingOf (c : Chip) (fn : Nat) : List Nat :=
  (c.epc.pending.filter (fun e => e.1 / 4096 == fn && e.2)).map (fun e => e.1 % 4096)

/-- Every pending vector of a function that is now unmasked sends its message. -/
def Chip.flushVectors (c : Chip) (fn : Nat) : Chip := (c.pendingOf fn).foldl (fun d v => d.flushVector fn v) c

/-- An interrupt of a BAR2 block: an enable field and a vector field of the physical function. -/
def Chip.blockCause (c : Chip) (enable vector : Fld) : Chip :=
  if c.on enable then c.cause 0 (c.get vector) else c

/-- The functions with a pending vector, each once. -/
def Chip.pendingFns (c : Chip) : List Nat := (c.epc.pending.filter (·.2)).foldl (fun l e => if l.contains (e.1 / 4096) then l else l ++ [e.1 / 4096]) []

/-- Every pending vector that may be sent is sent. -/
def Chip.flushAll (c : Chip) : Chip := c.pendingFns.foldl (fun d fn => d.flushVectors fn) c

/-! ### Results (R11 to R15) -/

/-- A result made visible: its fields, then its VALID bit, and the message that VALID causes (R12, Table 2-20, Table 16-9). -/
def Chip.showResult (c : Chip) (valid : Fld) (fields : List (Fld × Nat)) : Chip :=
  let c := (c.setAll fields).set valid 1
  if valid = R.KCF_RESULT_VALID then c.blockCause R.KCF_CTRL_IRQ_EN R.KCF_CTRL_VECTOR
  else if valid = R.PWR_RESULT_VALID then c.blockCause R.PWR_IRQ_IRQ_EN R.PWR_IRQ_VECTOR
  else c

/-- R15: a result posted; while an earlier one is unreleased it waits inside the unit. -/
def Chip.postResult (c : Chip) (valid : Fld) (fields : List (Fld × Nat)) : Chip :=
  if c.on valid then { c with regs := { c.regs with later := c.regs.later ++ [(valid, fields)] } }
  else c.showResult valid fields

/-- R15: the reader starts the next operation on a unit: its result is released, and one that waited is shown (log entry 88). -/
def Chip.startOp (c : Chip) (valid : Fld) : Chip :=
  let c := c.set valid 0
  match c.regs.later.find? (fun p => p.1 == valid) with
  | none => c
  | some p => ({ c with regs := { c.regs with later := c.regs.later.erase p } } : Chip).showResult valid p.2

/-- The volatile fields whose registers lie in an address range go back to their reset values. -/
def Chip.resetRange (c : Chip) (lo hi : Nat) : Chip :=
  { c with regs := { c.regs with
      vol := c.regs.vol.filter (fun e => decide (e.1 < lo * 64) || decide (hi * 64 ≤ e.1)),
      held := c.regs.held.filter (fun e => decide (e.1 < lo) || decide (hi ≤ e.1)),
      shadow := c.regs.shadow.filter (fun e => decide (e.1 < lo) || decide (hi ≤ e.1)) } }

/-- Kept and volatile fields of a range dropped alike: the fields of BAR2 blocks, not of the endpoint. -/
def Chip.dropVolatile (c : Chip) : Chip :=
  { c with regs := { c.regs with vol := [], held := [], shadow := [], later := [], readData := 0 } }

/-- The regions of the active image of a type (Table 2-8). -/
def Chip.carve (c : Chip) (typ : Nat) : List Region :=
  match c.kcf.active with
  | some i => i.carve.filter (fun r => r.typ == typ)
  | none => []

/-- The low half that a write of a 64-bit register's high half completes (R10): the half held, or the register's own. -/
def Chip.lowHalf (c : Chip) (f : Fld) : Nat :=
  (Sparse.get none c.regs.held f.addr).getD (c.get f % 0x100000000)

/-- The first element of a list that satisfies a test changed by `f`. -/
def modifyFirst {α : Type} (p : α → Bool) (f : α → α) : List α → List α
  | [] => []
  | x :: l => if p x then f x :: l else x :: modifyFirst p f l

/-- The line of the system cache that holds a line number (R484). -/
def Chip.lineAt (c : Chip) (line : Nat) : Option CLine := (Sparse.get [] c.mem.sets (line % 98304)).find? (fun l => l.line == line)

/-- The lines of a cache set changed. -/
def Chip.putSet (c : Chip) (line : Nat) (l : List CLine) : Chip :=
  { c with mem := { c.mem with sets := Sparse.set [] c.mem.sets (line % 98304) l } }

/-- One byte of memory as every agent sees it (R483, R488): from the system cache, from its eviction buffer, or from DRAM. -/
def Chip.byteAt (c : Chip) (a : Nat) : Byte :=
  match c.lineAt (a / 64) with
  | some l => l.data.getD (a % 64) 0#8
  | none => match c.mem.evict.find? (fun e => e.line == a / 64) with
    | some e => e.data.getD (a % 64) 0#8
    | none => Mem.byte c.dram a

/-- Bytes of memory. -/
def Chip.load (c : Chip) (a n : Nat) : List Byte := (List.range n).map (fun i => c.byteAt (a + i))

/-- A little-endian number in memory. -/
def Chip.loadNat (c : Chip) (a n : Nat) : Nat := leNat (c.load a n)

/-- One byte stored: into the line that the system cache holds, or into the newest copy that waits in its eviction buffer (R488), or into DRAM. -/
def Chip.putByte (c : Chip) (a : Nat) (b : Byte) : Chip :=
  match c.lineAt (a / 64) with
  | some l => c.putSet l.line (modifyFirst (fun x => x.line == l.line) (fun x => { x with dirty := true, data := x.data.set (a % 64) b })
      (Sparse.get [] c.mem.sets (l.line % 98304)))
  | none =>
    if c.mem.evict.any (fun e => e.line == a / 64) then
      { c with mem := { c.mem with
          evict := modifyFirst (fun e => e.line == a / 64) (fun e => { e with data := e.data.set (a % 64) b }) c.mem.evict } }
    else { c with dram := Mem.putByte c.dram a b }

/-- Bytes put into memory from an address upward. -/
def Chip.putBytes (c : Chip) (a : Nat) : List Byte → Chip
  | [] => c
  | b :: bs => (c.putByte a b).putBytes (a + 1) bs

/-- Whether a range holds a line whole. -/
def wholeLine (a n line : Nat) : Bool := decide (a ≤ line * 64) && decide (line * 64 + 64 ≤ a + n)

/-- R491: lines that a write has covered whole are poisoned no more; a partial write leaves a line as it was. -/
def Chip.cleanse (c : Chip) (a n : Nat) : Chip :=
  { c with mem := { c.mem with
      poisoned := c.mem.poisoned.filter (fun l => !wholeLine a n l)
      evict := c.mem.evict.map (fun e => { e with poison := e.poison && !wholeLine a n e.line })
      sets := c.mem.sets.map (fun s => (s.1, s.2.map (fun l => { l with poison := l.poison && !wholeLine a n l.line }))) } }

/-- Bytes stored in memory from an address upward. -/
def Chip.store (c : Chip) (a : Nat) (bs : List Byte) : Chip := (c.putBytes a bs).cleanse a bs.length

/-- Whether a line comes poisoned when it is read: as the system cache holds it, or its eviction buffer, or DRAM (R483, R488, R491). -/
def Chip.linePoison (c : Chip) (line : Nat) : Bool :=
  match c.lineAt line with
  | some l => l.poison
  | none => match c.mem.evict.find? (fun e => e.line == line) with
    | some e => e.poison
    | none => c.mem.poisoned.contains line

/-- Whether a range of memory holds a poisoned line (R491). -/
def Chip.poisonedAt (c : Chip) (addr n : Nat) : Bool :=
  n != 0 && (c.mem.poisoned ++ c.mem.evict.map (·.line) ++ c.mem.sets.flatMap (fun s => s.2.map (·.line))).any (fun l =>
    decide (addr / 64 ≤ l) && decide (l ≤ (addr + n - 1) / 64) && c.linePoison l)

/-- Every element that satisfies a test changed by `f`. -/
def modifyAll {α : Type} (p : α → Bool) (f : α → α) (l : List α) : List α := l.map (fun x => if p x then f x else x)

/-- The sum of a list. -/
def sumOf (l : List Nat) : Nat := l.foldl (· + ·) 0

/-- The largest element of a list, 0 for none. -/
def maxOf (l : List Nat) : Nat := l.foldl max 0

/-- The numbers from `a`, `n` of them. -/
def upFrom (a n : Nat) : List Nat := (List.range n).map (· + a)

/-- The positions of the bits set in the low `n` bits of a value. -/
def bitsSet (v n : Nat) : List Nat := (List.range n).filter (bitOf v)

/-- The value whose set bits are those listed. -/
def maskOf (l : List Nat) : Nat := l.foldl setBit 0

/-- Round up a division. -/
def ceilDiv (a b : Nat) : Nat := (a + b - 1) / b

/-! ### Errors (R93) -/

/-- The classes of Table 3-7. -/
inductive ErrClass where
  | correctable | nonFatal | fatal
  deriving DecidableEq, Repr

/-- Whether the PF's AER masks suppress the message of an error (log entry 14). -/
def Chip.aerMasked (c : Chip) (mask : Fld) (bit : Nat) : Bool := bitOf (c.get mask) bit

/-- An error message leaves where it is wanted; with SERR# Enable set an uncorrectable one also sets Signaled System Error. -/
def Chip.sendErr (c : Chip) (fn kind : Nat) (wanted : Bool) : Chip :=
  if wanted then (if kind != 0 && c.on (R.CFG_COMMAND_SERR 0) then c.set (R.CFG_COMMAND_SSE fn) 1 else c).emit (.errMsg fn kind) else c

/-- An uncorrectable error's status bit; the First Error Pointer names it where no unmasked error stood before it. -/
def Chip.raiseUncor (c : Chip) (fn bit : Nat) : Chip :=
  let mask := c.get R.CFG_AER_UNCOR_MASK_MASK
  let stood := c.get (R.CFG_AER_UNCOR_STATUS fn)
  let c := if !bitOf mask bit && stood == stood &&& mask then c.set (R.CFG_AER_CTRL_FIRST fn) bit else c
  c.raise (R.CFG_AER_UNCOR_STATUS fn) bit

/-- R93: a correctable error: status, event (code 0x040), and the message that the PF's Device Control enables. -/
def Chip.logCor (c : Chip) (fn bit : Nat) : Chip :=
  let c := ((c.raise (R.CFG_AER_COR_STATUS fn) bit).set (R.CFG_DEVCTL_CED fn) 1).event 0x040 fn 0 bit 0 0
  c.sendErr fn 0 (c.on (R.CFG_DEVCTL_CERE 0) && !c.aerMasked R.CFG_AER_COR_MASK_MASK bit)

/-- R93: an uncorrectable error of the severity that the PF's AER register gives it, by default that of Table 3-7. -/
def Chip.logUncor (c : Chip) (fn bit : Nat) (allowed : Bool) : Chip :=
  let fatal := bitOf (c.get R.CFG_AER_UNCOR_SEV_SEVERITY) bit
  let kind := if fatal then 2 else 1
  let c := ((c.raiseUncor fn bit).set (if fatal then R.CFG_DEVCTL_FED fn else R.CFG_DEVCTL_NFED fn) 1).event 0x040 fn kind bit 0 0
  c.sendErr fn kind (allowed && c.on (if fatal then R.CFG_DEVCTL_FERE 0 else R.CFG_DEVCTL_NFERE 0) &&
    !c.aerMasked R.CFG_AER_UNCOR_MASK_MASK bit)

/-- R93: an error set in the AER registers of a function, reported by a message where the PF's Device Control enables it, and
recorded. `bit` is the status bit of the PCI Express specification (log entry 14). -/
def Chip.logAer (c : Chip) (fn : Nat) (cls : ErrClass) (bit : Nat) : Chip :=
  match cls with
  | .correctable => c.logCor fn bit
  | .nonFatal => c.logUncor fn bit true
  | .fatal => c.logUncor fn bit true

/-- An error of the non-fatal class that the PCI Express specification has handled as Advisory Non-Fatal while its severity is non-fatal (R93):
its own status bit, and a correctable error. `wanted` is what beside the PF's enables and masks lets a message leave. -/
def Chip.logAdvisory (c : Chip) (fn bit : Nat) (wanted : Bool) : Chip :=
  if bitOf (c.get R.CFG_AER_UNCOR_SEV_SEVERITY) bit then c.logUncor fn bit wanted
  else
    let c := (((c.raiseUncor fn bit).raise (R.CFG_AER_COR_STATUS fn) 13).set (R.CFG_DEVCTL_CED fn) 1).event 0x040 fn 0 13 0 0
    c.sendErr fn 0 (wanted && c.on (R.CFG_DEVCTL_CERE 0) && !c.aerMasked R.CFG_AER_COR_MASK_MASK 13 && !c.aerMasked R.CFG_AER_UNCOR_MASK_MASK bit)

/-- An Unsupported Request received (R93, R94): one that is answered with UR may be an Advisory Non-Fatal error. -/
def Chip.logUnsupported (c : Chip) (fn : Nat) (answered : Bool) : Chip :=
  let c := c.set (R.CFG_DEVCTL_URD fn) 1
  if answered then c.logAdvisory fn 20 (c.on (R.CFG_DEVCTL_URRE 0)) else c.logUncor fn 20 (c.on (R.CFG_DEVCTL_URRE 0))

/-! ### Requests from the host -/

/-- Whether a function is present: the PF, or a VF within NumVFs while VF Enable is 1 (R94). -/
def Chip.present (c : Chip) (fn : Nat) : Bool :=
  fn == 0 || (c.on R.CFG_SRIOV_CTRL_VF_ENABLE && decide (fn ≤ c.get R.CFG_SRIOV_NUMVFS_NUMVFS))

/-- Whether requests to a function's BARs are served (R94): it is present, its Memory Space Enable is set, and the PF is in D0. A VF's Memory
Space Enable is the one of the PF's SR-IOV capability (log entry 15). -/
def Chip.barOpen (c : Chip) (fn : Nat) : Bool :=
  c.present fn && (if fn = 0 then c.on (R.CFG_COMMAND_MSE 0) && c.get R.CFG_PMCSR_POWER_STATE == 0 else c.on R.CFG_SRIOV_CTRL_VF_MSE)

/-- Bytes that a VF BAR spans (Table 3-3): its own size, or System Page Size where that is larger. -/
def Chip.vfBarSize (c : Chip) (own : Nat) : Nat := max own (4096 * c.get R.CFG_SRIOV_SYSPAGE_PAGE)

/-- The address bits of a VF BAR that its size leaves writable. -/
def Chip.vfBarBase (c : Chip) (f : Fld) (v : Nat) : Nat :=
  let unit := c.vfBarSize (2 ^ f.lsb) / 2 ^ f.lsb
  v - v % unit

/-- Whether configuration requests to a function are served (R94, R98). -/
def Chip.cfgOpen (c : Chip) (fn : Nat) : Bool := c.present fn && c.epc.cfgReady

/-- R558: the block windows that BAR2 serves: a loader-only head serves GLB, EVR, PWR, SEC_ROOT and BOOT. -/
def Chip.windowOpen (c : Chip) (addr : Nat) : Bool :=
  !c.on R.GLB_STATUS_LOADER_ONLY || [0, 2, 13, 14, 15].contains (blockIndex addr)

/-- The unmapped-access event of R7. -/
def Chip.unmapped (c : Chip) (addr : Nat) : Chip := c.event 0x011 (blockIndex addr) addr 0 0 0

/-- INBOUND_UNSUPPORTED_REQUEST (R93, R94): writes and Type 1 messages are discarded, the others are answered with UR. All but Type 1 messages are
Unsupported Requests, logged in the function addressed, else in the PF. -/
def inboundUnsupportedRequest (kind : BadRequest) (fn : Nat) (c : Chip) : Chip :=
  let at_ := if c.present fn then fn else 0
  match kind with
  | .msgType1 => c
  | .memWrite => c.logUnsupported at_ false
  | .msgType0 => (c.logUnsupported at_ false).emit (.unsupportedRequest kind fn)
  | _ => (c.logUnsupported at_ true).emit (.unsupportedRequest kind fn)

/-- A configuration request that is not served: before configuration space is ready it is answered with Request Retry Status (R98), then with UR
(R94). Without a link none arrives. -/
def Chip.cfgRefused (c : Chip) (fn : Nat) : Chip :=
  if c.epc.link != .l0 then c
  else if !c.epc.cfgReady then c.emit (.retryStatus fn)
  else inboundUnsupportedRequest .cfgRequest fn c

/-- A write of a BAR that is not served (R94). Without a link none arrives. -/
def Chip.barRefused (c : Chip) (fn : Nat) : Chip := if c.epc.link != .l0 then c else inboundUnsupportedRequest .memWrite fn c

/-- A command that the host gives by a write of a BAR of a function: an Unsupported Request where R94 does not serve it. -/
def State.runBar (s : State) (known : Bool) (fn : Nat) (f : Chip → Chip) : Host.Outcome State Fault Refusal :=
  s.runAwake known (fun c => if c.barOpen fn then f c else c.barRefused fn)

/-- A command that the host gives by a configuration request to a function (R94, R98). -/
def State.runCfg (s : State) (known : Bool) (fn : Nat) (f : Chip → Chip) : Host.Outcome State Fault Refusal :=
  s.runAwake known (fun c => if c.cfgOpen fn then f c else c.cfgRefused fn)

/-- A command given by a write of a BAR2 register, by the host where `host` holds (R94, R7, R558); otherwise by a control core. -/
def State.runBar2 (s : State) (known : Bool) (host : Bool) (reg : Fld) (f : Chip → Chip) : Host.Outcome State Fault Refusal :=
  s.runAwake known (fun c => if !host then f c else if !c.barOpen 0 then c.barRefused 0 else if c.windowOpen reg.addr then f c else c.unmapped reg.addr)

end Sys2Proof.Machine
end

