-- ==== Sys2Proof/Machine/Aes.lean ====
section
/-!
DEFINITION. The algorithms that the cipher and digest engines name (chapter 8): AES-256 (FIPS 197), GCM (SP 800-38D), the KW unwrap
(SP 800-38F), SHA3-256 (FIPS 202), HKDF-SHA-256 (RFC 5869). The spec names them by standard (log entry 15).
-/
namespace Sys2Proof.Machine

/-- A byte of AES's field times x. -/
def aesX (a : Nat) : Nat := if a < 128 then a * 2 else a * 2 ^^^ 0x11B

/-- A product in a field of bytes, given multiplication by x. -/
def mulWith (x : Nat → Nat) (a b : Nat) : Nat :=
  ((List.range 8).foldl (fun (p : Nat × Nat) i => (if bitOf b i then p.1 ^^^ p.2 else p.1, x p.2)) (0, a)).1

/-- A product in AES's field. -/
def aesMul (a b : Nat) : Nat := mulWith aesX a b

/-- The inverse in AES's field, 0 for 0. -/
def aesInv (a : Nat) : Nat := (List.range 253).foldl (fun r _ => aesMul r a) a

/-- A byte rotated left. -/
def rotByte (a n : Nat) : Nat := (a * 2 ^ n ||| a / 2 ^ (8 - n)) % 256

/-- The substitution box. -/
def aesSbox : List Nat := (List.range 256).map (fun a =>
  let b := aesInv a
  b ^^^ rotByte b 1 ^^^ rotByte b 2 ^^^ rotByte b 3 ^^^ rotByte b 4 ^^^ 0x63)

/-- The inverse substitution box. -/
def aesInvBox : List Nat := (List.range 256).map (fun a => (aesSbox.idxOf? a).getD 0)

/-- A byte substituted. -/
def aesSub (a : Nat) : Nat := aesSbox.getD a 0

/-- Bytes combined by exclusive or. -/
def xorBytes (a b : List Nat) : List Nat := (a.zip b).map (fun p => p.1 ^^^ p.2)

/-- The key schedule's words after the first eight, newest first. -/
def aesExpand : Nat → Nat → Nat → List (List Nat) → List (List Nat)
  | 0, _, _, ws => ws
  | fuel + 1, i, rcon, ws =>
    let t := ws.headD []
    let t := if i % 8 = 0 then xorBytes ((t.drop 1 ++ t.take 1).map aesSub) [rcon, 0, 0, 0]
      else if i % 8 = 4 then t.map aesSub else t
    aesExpand fuel (i + 1) (if i % 8 = 0 then aesX rcon else rcon) (xorBytes (ws.getD 7 []) t :: ws)

/-- The 15 round keys of a 256-bit key given as 32 bytes. -/
def aesKeys (key : List Byte) : List (List Nat) :=
  let ws := (groups 4 8 (key.map (·.toNat))).reverse
  groups 16 15 ((aesExpand 52 8 1 ws).reverse.flatten)

/-- The rows of the state shifted by `s` places for each row. -/
def aesShift (s : Nat) (b : List Nat) : List Nat :=
  (List.range 16).map (fun i => b.getD ((i + s * 4 * (i % 4)) % 16) 0)

/-- The columns of the state multiplied by a circulant row. -/
def aesMix (row b : List Nat) : List Nat :=
  (List.range 16).map (fun i =>
    (List.range 4).foldl (fun a j => a ^^^ aesMul (b.getD (i / 4 * 4 + j) 0) (row.getD ((j + 4 - i % 4) % 4) 0)) 0)

/-- AES-256 of one block. -/
def aesEncrypt (ks : List (List Nat)) (b : List Nat) : List Nat :=
  let st := (upFrom 1 13).foldl (fun s r => xorBytes (aesMix [2, 3, 1, 1] (aesShift 1 (s.map aesSub))) (ks.getD r []))
    (xorBytes b (ks.getD 0 []))
  xorBytes (aesShift 1 (st.map aesSub)) (ks.getD 14 [])

/-- The inverse cipher of one block. -/
def aesDecrypt (ks : List (List Nat)) (b : List Nat) : List Nat :=
  let inv := fun (s : List Nat) => (aesShift 3 s).map (fun a => aesInvBox.getD a 0)
  let st := (upFrom 1 13).foldl (fun s r => aesMix [14, 11, 13, 9] (xorBytes (inv s) (ks.getD (14 - r) [])))
    (xorBytes b (ks.getD 14 []))
  xorBytes (inv st) (ks.getD 0 [])

/-- A product in GCM's field; the most significant bit is the coefficient of 1. -/
def gcmMul (a b : Nat) : Nat :=
  ((List.range 128).foldl (fun (p : Nat × Nat) i =>
    (if bitOf a (127 - i) then p.1 ^^^ p.2 else p.1,
      if p.2 % 2 = 1 then p.2 / 2 ^^^ 0xE1000000000000000000000000000000 else p.2 / 2)) (0, b)).1

/-- Bytes padded with zeros to a multiple of 16. -/
def pad16 (bs : List Byte) : List Byte := bs ++ List.replicate ((16 - bs.length % 16) % 16) 0#8

/-- GHASH over bytes of whole blocks. -/
def ghash (h : Nat) (bs : List Byte) : Nat :=
  (groups 16 (bs.length / 16 + 1) bs).foldl (fun y b => gcmMul (y ^^^ beNat b) h) 0

/-- One block of the counter mode's key stream. -/
def gcmStream (ks : List (List Nat)) (iv : List Byte) (ctr : Nat) : List Nat :=
  aesEncrypt ks ((iv ++ natBe ctr 4).map (·.toNat))

/-- Bytes enciphered, or deciphered, by counter mode from counter 2. -/
def gcmCrypt (ks : List (List Nat)) (iv bs : List Byte) : List Byte :=
  let gs := groups 16 (bs.length / 16 + 1) bs
  ((List.range gs.length).zip gs).flatMap (fun p =>
    (xorBytes (p.2.map (·.toNat)) (gcmStream ks iv (p.1 + 2))).map (BitVec.ofNat 8 ·))

/-- The GCM tag over additional data and ciphertext. -/
def gcmTag (ks : List (List Nat)) (iv aad ct : List Byte) : List Byte :=
  let h := beNat ((aesEncrypt ks (List.replicate 16 0)).map (BitVec.ofNat 8 ·))
  let s := ghash h (pad16 aad ++ pad16 ct ++ natBe (aad.length * 8) 8 ++ natBe (ct.length * 8) 8)
  natBe (s ^^^ beNat ((gcmStream ks iv 1).map (BitVec.ofNat 8 ·))) 16

/-- The 32 bytes of a key held as a number. -/
def keyBytes (key : Nat) : List Byte := natLe key 32

/-- One step of KW unwrapping: the integrity register and the remaining words, the one for step `t` last. -/
def kwStep (ks : List (List Nat)) (t : Nat) (p : Nat × List Nat) : Nat × List Nat :=
  let r := p.2.getLastD 0
  let b := beNat ((aesDecrypt ks ((natBe (p.1 ^^^ t) 8 ++ natBe r 8).map (·.toNat))).map (BitVec.ofNat 8 ·))
  (b / 2 ^ 64, b % 2 ^ 64 :: p.2.dropLast)

/-- KW unwrapping of a 40-byte text: the 32 bytes, or none where the integrity check fails. -/
def kwUnwrap (kek wrapped : List Byte) : Option (List Byte) :=
  let ks := aesKeys kek
  let ws := (groups 8 5 wrapped).map beNat
  let r := (List.range 24).foldl (fun p i => kwStep ks (24 - i) p) (ws.headD 0, ws.drop 1)
  if r.1 = 0xA6A6A6A6A6A6A6A6 then some (r.2.flatMap (fun w => natBe w 8)) else none

/-- HMAC-SHA-256. -/
def hmac256 (key msg : List Byte) : List Byte :=
  let k := if key.length > 64 then sha256 key else key
  let k := k ++ List.replicate (64 - k.length) 0#8
  sha256 (k.map (· ^^^ 0x5C#8) ++ sha256 (k.map (· ^^^ 0x36#8) ++ msg))

/-- HKDF-SHA-256 with an output of 32 bytes. -/
def hkdf256 (ikm salt info : List Byte) : List Byte := hmac256 (hmac256 salt ikm) (info ++ [1#8])

/-! ### SHA3-256 and digest states -/

/-- The round constants of Keccak-f[1600]. -/
def keccakRc : List Nat :=
  [0x1, 0x8082, 0x800000000000808A, 0x8000000080008000, 0x808B, 0x80000001, 0x8000000080008081, 0x8000000000008009] ++
  [0x8A, 0x88, 0x80008009, 0x8000000A, 0x8000808B, 0x800000000000008B, 0x8000000000008089, 0x8000000000008003] ++
  [0x8000000000008002, 0x8000000000000080, 0x800A, 0x800000008000000A, 0x8000000080008081, 0x8000000000008080, 0x80000001,
   0x8000000080008008]

/-- The rotations of Keccak by lane number x + 5 y. -/
def keccakRot : List Nat :=
  [0, 1, 62, 28, 27, 36, 44, 6, 55, 20, 3, 10, 43, 25, 39, 41, 45, 15, 21, 8, 18, 2, 61, 56, 14]

/-- A 64-bit word rotated left. -/
def rol64 (x n : Nat) : Nat := x * 2 ^ n % 2 ^ 64 ||| x / 2 ^ (64 - n)

/-- One round of Keccak-f[1600]. -/
def keccakRound (a : List Nat) (rc : Nat) : List Nat :=
  let g := fun (l : List Nat) i => l.getD i 0
  let col := (List.range 5).map (fun x => g a x ^^^ g a (x + 5) ^^^ g a (x + 10) ^^^ g a (x + 15) ^^^ g a (x + 20))
  let d := (List.range 5).map (fun x => g col ((x + 4) % 5) ^^^ rol64 (g col ((x + 1) % 5)) 1)
  let t := (List.range 25).map (fun i => rol64 (g a i ^^^ g d (i % 5)) (g keccakRot i))
  let b := (List.range 25).map (fun i => let x := i % 5; let y := i / 5; g t ((x + 3 * y) % 5 + 5 * x))
  let r := (List.range 25).map (fun i =>
    let y := i / 5 * 5
    g b i ^^^ ((2 ^ 64 - 1 - g b ((i + 1) % 5 + y)) &&& g b ((i + 2) % 5 + y)))
  (r.headD 0 ^^^ rc) :: r.drop 1

/-- One 136-byte block absorbed by SHA3-256. -/
def sha3Block (st : List Nat) (blk : List Byte) : List Nat :=
  let ws := (groups 8 17 blk).map leNat
  keccakRc.foldl keccakRound ((List.range 25).map (fun i => st.getD i 0 ^^^ ws.getD i 0))

/-- The block size of a digest algorithm (Table 8-10). -/
def digestBlock (alg : Nat) : Nat := if alg = 1 then 64 else if alg = 2 then 128 else 136

/-- The starting state of a digest algorithm. -/
def digestInit (alg : Nat) : List Nat := if alg = 1 then h256 else if alg = 2 then h512256 else List.replicate 25 0

/-- Whole blocks absorbed into a state. -/
def digestAbsorb (alg : Nat) (st : List Nat) (bs : List Byte) : List Nat :=
  let bl := digestBlock alg
  (groups bl (bs.length / bl + 1) bs).foldl
    (fun v b => if alg = 1 then sha2x32.block v b else if alg = 2 then sha2x64.block v b else sha3Block v b) st

/-- The padding that ends a message of `total` bytes. -/
def digestPad (alg total : Nat) : List Byte :=
  let bl := digestBlock alg
  if alg = 3 then
    let z := bl - total % bl
    if z = 1 then [0x86#8] else 0x06#8 :: List.replicate (z - 2) 0#8 ++ [0x80#8]
  else
    let len := if alg = 1 then 8 else 16
    0x80#8 :: List.replicate ((bl - (total + 1 + len) % bl) % bl) 0#8 ++ natBe (total * 8) len

/-- The digest of a state after the last bytes of a message of `total` bytes. -/
def digestFinal (alg total : Nat) (st : List Nat) (tail : List Byte) : List Byte :=
  let v := digestAbsorb alg st (tail ++ digestPad alg total)
  (if alg = 1 then v.flatMap (fun x => natBe x 4) else if alg = 2 then v.flatMap (fun x => natBe x 8)
   else v.flatMap (fun x => natLe x 8)).take 32

/-- A state's words as Table 8-11 lays them out: 200 bytes, little-endian. -/
def stateBytes (alg : Nat) (st : List Nat) : List Byte :=
  let bs := st.flatMap (fun x => natLe x (if alg = 1 then 4 else 8))
  bs ++ List.replicate (200 - bs.length) 0#8

/-- The words of a saved state. -/
def stateOf (alg : Nat) (bs : List Byte) : List Nat :=
  (groups (if alg = 1 then 4 else 8) (if alg = 3 then 25 else 8) bs).map leNat

/-! ### The arithmetic of parity (R316) -/

/-- A byte multiplied by g in GF(2^8) (R316). -/
def gfX (a : Nat) : Nat := if a < 128 then a * 2 else a * 2 ^^^ 0x11D

/-- The product of two bytes. -/
def gfMul (a b : Nat) : Nat := mulWith gfX a b

/-- g^n. -/
def gfPow (n : Nat) : Nat := (List.range (n % 255)).foldl (fun a _ => gfX a) 1

/-- The inverse of a byte other than 0: its 254th power. -/
def gfInv (a : Nat) : Nat := (List.range 253).foldl (fun r _ => gfMul r a) a

/-- Two strips added. -/
def addStrip (a b : List Nat) : List Nat := xorBytes a b

/-- A strip multiplied by a constant. -/
def scaleStrip (k : Nat) (a : List Nat) : List Nat := a.map (gfMul k)

/-- P over data strips (R316). -/
def parityP (n : Nat) (data : List (List Nat)) : List Nat := data.foldl addStrip (List.replicate n 0)

/-- Q over data strips (R316). -/
def parityQ (n : Nat) (data : List (List Nat)) : List Nat :=
  (List.range data.length).foldl (fun a j => addStrip a (scaleStrip (gfPow j) (data.getD j []))) (List.replicate n 0)

/-- A strip as bytes. -/
def stripOut (s : List Nat) : List Byte := s.map (BitVec.ofNat 8)

end Sys2Proof.Machine
end

