-- ==== Sys2Proof/Machine/HostRead.lean ====
section
/-!
DEFINITION. Requests to host memory: splitting a transfer (R87), tags (R70), writes (R70, R71), and logging of failures (R91, R93).
-/
namespace Sys2Proof.Machine

/-- Max_Read_Request_Size of a function in bytes (R70). -/
def Chip.mrrs (c : Chip) (fn : Nat) : Nat := 128 * 2 ^ c.get (R.CFG_DEVCTL_MRRS fn)

/-- Max_Payload_Size of a function in bytes (R70). -/
def Chip.mps (c : Chip) (fn : Nat) : Nat := 128 * 2 ^ c.get (R.CFG_DEVCTL_MPS fn)

/-- A range cut at every multiple of `unit`, in at most `fuel` parts: the requests of R87. -/
def splitRange (unit : Nat) : Nat → Nat → Nat → List (Nat × Nat)
  | 0, _, _ => []
  | fuel + 1, addr, len =>
    if len = 0 then []
    else
      let n := min len (unit - addr % unit)
      (addr, n) :: splitRange unit fuel (addr + n) (len - n)

/-- A buffer's pieces cut into requests. -/
def splitBuf (unit : Nat) (buf : HostBuf) : List (Nat × Nat) :=
  buf.flatMap (fun p => splitRange unit (p.2 / unit + 2) p.1 p.2)

/-- Bytes in a buffer. -/
def bufLen (buf : HostBuf) : Nat := sumOf (buf.map (·.2))

/-- How many read requests the head keeps outstanding (R70). -/
def Chip.tagLimit (c : Chip) : Nat :=
  if c.on (R.CFG_DEV3CTL_TAG14) && c.on R.EPC_STATUS_FLIT then 4096
  else if c.on (R.CFG_DEVCTL2_TAG10 0) then 768
  else 256

/-- Requests outstanding. -/
def Chip.outstanding (c : Chip) : List ReadReq := c.epc.reqs.filter (fun r => r.tag.isSome)

/-- How many a virtual function may have outstanding: 14-bit and 10-bit tags only where the VF controls of the SR-IOV capability allow them as
well, else 256 (R70). -/
def Chip.vfTagLimit (c : Chip) : Nat :=
  if c.on R.CFG_SRIOV_CTRL_VF_TAG14 && c.on R.CFG_DEV3CTL_TAG14 && c.on R.EPC_STATUS_FLIT then 4096
  else if c.on R.CFG_SRIOV_CTRL_VF_TAG10 && (c.on (R.CFG_DEVCTL2_TAG10 0) || (c.on R.CFG_DEV3CTL_TAG14 && c.on R.EPC_STATUS_FLIT)) then 768
  else 256

/-- How many tags a function's requests may use (R70). -/
def Chip.tagsOf (c : Chip) (fn : Nat) : Nat := if fn = 0 then c.tagLimit else c.vfTagLimit

/-- Whether a function may send one more request: R81 lets it, and the requests outstanding are within the limits of R70. -/
def Chip.maySend (c : Chip) (fn : Nat) : Bool :=
  c.mayRequest fn && decide (c.outstanding.length < c.tagLimit) &&
  (fn == 0 || decide ((c.outstanding.filter (fun r => r.fn == fn)).length < c.vfTagLimit))

/-- Whether a tag names no request outstanding, and no abandoned one whose completion may still come (R92, log entry 93). -/
def Chip.tagFree (c : Chip) (t : Nat) : Bool :=
  !(c.epc.reqs.any (fun r => r.tag == some t)) && !(c.epc.abandoned.any (fun a => a.1 == t && decide (c.now < a.2)))

/-- The tag of a function's next request: the lowest free one of those it may use. DESIGN CHOICE (log entry 93): the spec does not say which free
tag a request takes. -/
def Chip.freeTag (c : Chip) (fn : Nat) : Option Nat := (List.range (c.tagsOf fn)).find? c.tagFree

/-- One waiting request sent if it may be. -/
def Chip.trySend (c : Chip) (r : ReadReq) : Chip :=
  if !r.tag.isNone || !c.maySend r.fn then c
  else match c.freeTag r.fn with
  | none => c
  | some t =>
    ({ c with epc := { c.epc with
        reqs := modifyFirst (fun q => q.xfer == r.xfer && q.addr == r.addr && q.dest == r.dest && q.tag.isNone)
          (fun q => { q with tag := some t, sentAt := c.now }) c.epc.reqs } } : Chip).emit (.hostRead r.fn r.addr r.len t)

/-- Every waiting request that may be sent is sent, oldest first. -/
def Chip.sendReads (c : Chip) : Chip := c.epc.reqs.foldl (fun d r => d.trySend r) c

/-- A transfer from host memory begins (R87): the buffer's bytes go to DRAM from `dest` upward. -/
def Chip.startRead (c : Chip) (fn : Nat) (purpose : Purpose) (buf : HostBuf) (dest : Nat) : Chip :=
  let id := c.epc.nextXfer
  let reqs := (splitBuf (c.mrrs fn) buf).foldl (fun (p : List ReadReq × Nat) q =>
    (p.1 ++ [⟨id, fn, q.1, q.2, dest + p.2, 0, none, 0⟩], p.2 + q.2)) ([], 0)
  ({ c with epc := { c.epc with
      nextXfer := id + 1
      xfers := c.epc.xfers ++ [⟨id, fn, purpose, dest, bufLen buf, bufLen buf⟩]
      reqs := c.epc.reqs ++ reqs.1 } } : Chip).sendReads

/-- The Completion Timeout of a function in ns (R90). -/
def Chip.ctoNs (c : Chip) (fn : Nat) : Nat :=
  match c.get (R.CFG_DEVCTL2_CTO fn) with
  | 1 => 100000
  | 2 => 10000000
  | 5 => 55000000
  | 6 => 210000000
  | 9 => 900000000
  | 10 => 3500000000
  | 13 => 13000000000
  | 14 => 64000000000
  | _ => 50000000

/-- A transfer dropped with all its requests; completions that still come for them are unexpected, and their tags stay unused until none can come
(R92, log entry 93). -/
def Chip.dropXfer (c : Chip) (id : Nat) : Chip :=
  let old := c.epc.abandoned.filter (fun a => decide (c.now < a.2))
  let left := c.epc.reqs.filterMap (fun r => if r.xfer = id then r.tag.map (fun t => (t, r.sentAt + c.ctoNs r.fn)) else none)
  { c with epc := { c.epc with
      xfers := c.epc.xfers.filter (fun x => x.id != id)
      reqs := c.epc.reqs.filter (fun r => r.xfer != id)
      abandoned := old ++ left } }

/-- Transfers of a kind dropped. -/
def Chip.dropXfers (c : Chip) (p : Xfer → Bool) : Chip :=
  (c.epc.xfers.filter p).foldl (fun d x => d.dropXfer x.id) c

/-- A data buffer written to the host: pieces of at most Max_Payload_Size that cross no 4 KiB boundary (R70); the data of a read command with
Relaxed Ordering where Enable Relaxed Ordering is set (R71). -/
def Chip.hostData (c : Chip) (fn : Nat) (read : Bool) (buf : HostBuf) (data : List Byte) : Chip :=
  ((splitBuf (c.mps fn) buf).foldl (fun (p : Chip × List Byte) q =>
    (p.1.emit (.hostWrite fn q.1 (read && c.on (R.CFG_DEVCTL_RELAX fn)) (p.2.take q.2)), p.2.drop q.2)) (c, data)).1

/-- A write to the host with strict ordering (R71). -/
def Chip.hostPost (c : Chip) (fn addr : Nat) (data : List Byte) : Chip := c.emit (.hostWrite fn addr false data)

/-- EPC_LAST_ERR.KIND of a failure (Table 3-13). -/
def failCode : ReadFail → Nat
  | .timeout => 1 | .ur => 2 | .ca => 3 | .poisoned => 4 | .length => 5 | .rrs => 6 | .ecrc => 4

/-- EPC_LAST_ERR.PURPOSE of a transfer (Table 3-13); the data of a command other than a Write counts as write data (log entry 94). -/
def Purpose.code : Purpose → Nat
  | .entryFetch .. => 1 | .list _ => 2 | .writeData _ => 3 | .cmdData _ => 3 | .readList _ => 4 | .kcfLoad => 5 | .dmaChannel .. => 6

/-- Detected Parity Error, and for a poisoned completion Master Data Parity Error where Parity Error Response is set (log entry 14). -/
def Chip.poisonSeen (c : Chip) (fn : Nat) (completion : Bool) : Chip :=
  let c := c.set (R.CFG_COMMAND_DPE fn) 1
  if completion && c.on (R.CFG_COMMAND_PERR 0) then c.set (R.CFG_COMMAND_MDPE fn) 1 else c

/-- R89, R91, R93: a failed request counted, logged in AER for the function it served, and shown in EPC_LAST_ERR. -/
def Chip.logReadFail (c : Chip) (fn : Nat) (p : Purpose) (k : ReadFail) : Chip :=
  let c := match k with
    | .timeout => ((c.bumpHold R.EPC_CNT_CTO_CTO 1).set R.EPC_STATUS_CTO_SEEN 1).logAer fn .nonFatal 14
    | .ur => ((c.bumpHold R.EPC_CNT_CA_UR_CA_UR 1).set (R.CFG_COMMAND_RMA fn) 1).logAer fn .nonFatal 20
    | .ca => ((c.bumpHold R.EPC_CNT_CA_UR_CA_UR 1).set (R.CFG_COMMAND_RTA fn) 1).logAer fn .nonFatal 15
    | .poisoned => ((c.bumpHold R.EPC_CNT_POISON_POISON 1).poisonSeen fn true).logAer fn .nonFatal 12
    | .ecrc => ((c.bumpHold R.EPC_CNT_POISON_POISON 1).poisonSeen fn true).logAer fn .nonFatal 19
    | .length => c.logAer fn .nonFatal 16
    | .rrs => c.logAer fn .nonFatal 20
  ((c.set R.EPC_LAST_ERR_FUNC fn).set R.EPC_LAST_ERR_KIND (failCode k)).set R.EPC_LAST_ERR_PURPOSE p.code

end Sys2Proof.Machine
end

