-- ==== Sys2Proof/Machine/Nvme.lean ====
section
/-!
DEFINITION. The NVMe controllers (chapter 4): queues, completions, interrupts of completion queues, asynchronous events, and the
checks that commands share.
-/
namespace Sys2Proof.Machine

/-- A status of Table 4-10. -/
def stat (sct sc : Nat) (dnr : Bool) : Status := ⟨sct, sc, dnr⟩
/-- Success. -/
def stOk : Status := ⟨0, 0, false⟩
/-- The DNR bit of each status of Table 4-10; none for a status that the head does not post. -/
def tableDnr (sct sc : Nat) : Option Bool :=
  match sct with
  | 0 =>
    if [0x00, 0x04, 0x06].contains sc then some false
    else if [0x01, 0x02, 0x08, 0x0B, 0x0C, 0x0D, 0x0F, 0x11, 0x13, 0x80, 0x81].contains sc then some true else none
  | 1 =>
    if sc = 0x1D then some false
    else if [0x00, 0x01, 0x02, 0x03, 0x05, 0x08, 0x09, 0x0C, 0x0D, 0x16, 0x18, 0x1A, 0x1C, 0x27].contains sc then some true else none
  | 2 => if [0x81, 0x82, 0x83, 0x84, 0x86].contains sc then some true else none
  | 3 => if sc = 0x01 then some true else if sc = 0x02 then some false else none
  | 7 => if [0xC0, 0xC1, 0xC2].contains sc then some true else none
  | _ => none

/-- A status of Table 4-10 with its DNR. -/
def tableStatus (sct sc : Nat) : Option Status := (tableDnr sct sc).map (fun d => stat sct sc d)

/-- Invalid Field in Command. -/
def stField : Status := ⟨0, 0x02, true⟩
/-- Data Transfer Error. -/
def stXfer : Status := ⟨0, 0x04, false⟩
/-- Command Sequence Error. -/
def stSequence : Status := ⟨0, 0x0C, true⟩

/-- A function's controller. -/
def Chip.ctrl (c : Chip) (fn : Nat) : Ctrl := Sparse.get {} c.nvm.ctrls fn

/-- A function's controller changed. -/
def Chip.modCtrl (c : Chip) (fn : Nat) (f : Ctrl → Ctrl) : Chip :=
  { c with nvm := { c.nvm with ctrls := Sparse.set {} c.nvm.ctrls fn (f (c.ctrl fn)) } }

/-- A submission queue of a function. -/
def Chip.sqOf (c : Chip) (fn qid : Nat) : Option Sq := (c.ctrl fn).sqs.find? (·.qid == qid)

/-- A completion queue of a function. -/
def Chip.cqOf (c : Chip) (fn qid : Nat) : Option Cq := (c.ctrl fn).cqs.find? (·.qid == qid)

/-- A submission queue changed. -/
def Chip.modSq (c : Chip) (fn qid : Nat) (f : Sq → Sq) : Chip :=
  c.modCtrl fn (fun k => { k with sqs := modifyFirst (·.qid == qid) f k.sqs })

/-- A completion queue changed. -/
def Chip.modCq (c : Chip) (fn qid : Nat) (f : Cq → Cq) : Chip :=
  c.modCtrl fn (fun k => { k with cqs := modifyFirst (·.qid == qid) f k.cqs })

/-- A function's TENANTS entry in the active image; one that is not VALID where there is none. -/
def Chip.tenantOf (c : Chip) (fn : Nat) : Tenant :=
  match c.kcf.active with
  | some i => Sparse.get {} i.tenants fn
  | none => {}

/-- A namespace. -/
def Chip.nsOf (c : Chip) (nsid : Nat) : Namespace := Sparse.get {} c.nvm.ns nsid

/-- A namespace changed. -/
def Chip.setNs (c : Chip) (nsid : Nat) (n : Namespace) : Chip :=
  { c with nvm := { c.nvm with ns := Sparse.set {} c.nvm.ns nsid n } }

/-- Whether a namespace is attached to a function's controllers (R125) and active there: a function whose tenant entry is not VALID, and every
function of a head with no active image, has no active namespaces (R107). -/
def Chip.attached (c : Chip) (fn nsid : Nat) : Bool :=
  let n := c.nsOf nsid
  (c.tenantOf fn).valid && n.present && n.attached && n.owner == fn

/-- The active namespaces of a function. -/
def Chip.nsList (c : Chip) (fn : Nat) : List Nat :=
  if (c.tenantOf fn).valid then (c.nvm.ns.filter (fun e => e.2.present && e.2.attached && e.2.owner == fn)).map (·.1) else []

/-- Admin commands that a function offers in every state of Table 4-2, among them the queue commands, which R109 and R110 answer. -/
def alwaysOffered : List Nat := [0x00, 0x01, 0x02, 0x04, 0x05, 0x06, 0x08, 0x09, 0x0A, 0x0C, 0x81, 0x82]

/-- R107, R558: whether a function offers an admin command: all where its tenant entry is VALID in an active image, else those of Table 4-2; a
loader-only head takes firmware as well. -/
def Chip.offers (c : Chip) (fn opc : Nat) : Bool :=
  (c.tenantOf fn).valid || alwaysOffered.contains opc || (c.on R.GLB_STATUS_LOADER_ONLY && fn == 0 && (opc == 0x10 || opc == 0x11))

/-- R524: the lifecycle state: 0 Manufacturing, 1 Provisioned, 2 Deployed, 3 Service, 4 Retired. -/
def Chip.lifecycle (c : Chip) : Nat :=
  if c.root.otp.rows.contains 2 then 4
  else if c.root.otp.rows.contains 1 then (if c.root.otp.serviceBits % 2 = 1 then 3 else 2)
  else if c.root.otp.rows.contains 0 then 1
  else 0

/-- Whether the head's lifecycle is Retired (Table 17-1). -/
def Chip.retired (c : Chip) : Bool := c.lifecycle == 4

/-- Whether the lifecycle lets this head use its strings and the peer link: Provisioned or Deployed (R527, Table 17-11). -/
def Chip.usesLinks (c : Chip) : Bool := c.lifecycle == 1 || c.lifecycle == 2

/-- The ANA state this head reports for a group: 1 Optimized, 2 Non-Optimized, 3 Inaccessible, 4 Persistent Loss (R134). A Retired head reports
Persistent Loss, and one with no active image Inaccessible. -/
def Chip.anaOf (c : Chip) (group : Nat) : Nat :=
  if c.retired then 4 else if c.kcf.active.isNone then 3 else Sparse.get 3 c.nvm.ana group

/-- A completion entry's bytes (R112, R140). -/
def cqeBytes (sqhd phase : Nat) (q : Cqe) : List Byte :=
  natLe q.dw0 4 ++ natLe 0 4 ++ natLe sqhd 2 ++ natLe q.sq 2 ++ natLe q.cid 2 ++
  natLe (phase % 2 + 2 * q.status.sc + 512 * q.status.sct + 32768 * flag q.status.dnr) 2

/-- The interrupt of a completion queue after an entry (R113): an I/O queue's waits for the aggregation threshold of Feature 0x08, unless Feature
0x09 disabled coalescing for its vector. The aggregation time runs from the first entry not signalled. -/
def Chip.cqCause (c : Chip) (fn : Nat) (q : Cq) : Chip :=
  let k := c.ctrl fn
  let thr := bitsOf k.coal 0 8
  if !q.ien then c
  else if q.qid = 0 || bitsOf k.coal 8 8 == 0 || thr == 0 || k.coalOff.contains q.vec then c.cause fn q.vec
  else
    let n := Sparse.get 0 k.coalCount q.vec + 1
    if thr < n then
      (c.modCtrl fn (fun k => { k with coalCount := Sparse.set 0 k.coalCount q.vec 0 })).cause fn q.vec
    else c.modCtrl fn (fun k => { k with
      coalCount := Sparse.set 0 k.coalCount q.vec n, coalAt := if n = 1 then Sparse.set 0 k.coalAt q.vec c.now else k.coalAt })

/-- Whether a completion queue takes an entry now: it is not full (R112), the function may write (R81), its controller has not
failed (R106), and no flush or suspension withholds completions (R135, R170). -/
def Chip.cqOpen (c : Chip) (fn : Nat) (q : Cq) : Bool :=
  (q.tail + 1) % q.size != q.head && c.mayRequest fn && !c.on (R.NVM_CSTS_CFS fn) &&
  !c.ing.noCompletions && !c.nvm.suspended

/-- One completion entry written with its phase tag, and its interrupt. -/
def Chip.writeCqe (c : Chip) (fn : Nat) (q : Cq) (e : Cqe) : Chip :=
  let sqhd := match c.sqOf fn e.sq with
    | some s => s.head
    | none => e.sqhd
  let c := c.hostPost fn (q.base + 16 * q.tail) (cqeBytes sqhd q.phase e)
  let wrap := q.tail + 1 == q.size
  (c.modCq fn q.qid (fun q => { q with
    tail := if wrap then 0 else q.tail + 1
    phase := if wrap then 1 - q.phase else q.phase })).cqCause fn q

/-- Waiting completions of a queue written while it has room, oldest first. -/
def Chip.drainCq (c : Chip) (fn qid : Nat) : Nat → Chip
  | 0 => c
  | fuel + 1 =>
    match c.cqOf fn qid with
    | none => c
    | some q =>
      match q.waiting with
      | [] => c
      | e :: rest =>
        if c.cqOpen fn q then
          Chip.drainCq ((c.modCq fn qid (fun q => { q with waiting := rest })).writeCqe fn { q with waiting := rest } e) fn qid fuel
        else c

/-- Every completion queue of a function drained. -/
def Chip.drainFn (c : Chip) (fn : Nat) : Chip :=
  (c.ctrl fn).cqs.foldl (fun d q => d.drainCq fn q.qid q.waiting.length) c

/-- Every completion queue of the head drained. -/
def Chip.drainAll (c : Chip) : Chip := c.nvm.ctrls.foldl (fun d e => d.drainFn e.1) c

/-- A completion put behind those that wait in its queue, and written if it can be. -/
def Chip.postCqe (c : Chip) (fn sq cid dw0 : Nat) (st : Status) : Chip :=
  match c.sqOf fn sq with
  | none => c
  | some s =>
    (c.modCq fn s.cq (fun q => { q with waiting := q.waiting ++ [⟨sq, cid, dw0, s.head, st⟩] })).drainCq fn s.cq
      (((c.cqOf fn s.cq).map (·.waiting.length)).getD 0 + 1)

/-- Commands of a function between fetch and completion. -/
def Chip.flights (c : Chip) (fn : Nat) : List Inflight := c.nvm.inflight.filter (fun i => i.id.fn == fn && !i.abandoned)

/-- A command between fetch and completion. -/
def Chip.flight (c : Chip) (id : CmdId) : Option Inflight := c.nvm.inflight.find? (fun i => i.id == id && !i.abandoned)

/-- A command in flight changed. -/
def Chip.modFlight (c : Chip) (id : CmdId) (f : Inflight → Inflight) : Chip :=
  { c with nvm := { c.nvm with inflight := modifyFirst (fun i => i.id == id) f c.nvm.inflight } }

/-- A command's context freed. -/
def Chip.dropFlight (c : Chip) (id : CmdId) : Chip :=
  { c with nvm := { c.nvm with inflight := c.nvm.inflight.filter (fun i => i.id != id) } }

/-- R110: a queue being deleted whose last completion has been posted is gone, and its Delete completes. -/
def Chip.endDeletes (c : Chip) (fn : Nat) : Chip :=
  (c.ctrl fn).sqs.foldl (fun d s =>
    match s.deleting with
    | none => d
    | some cid =>
      if (d.flights fn).any (fun i => i.id.sq == s.qid) || (d.ctrl fn).cqs.any (fun q => q.waiting.any (fun e => e.sq == s.qid)) then d
      else
        let d := d.modCtrl fn (fun k => { k with sqs := k.sqs.filter (·.qid != s.qid) })
        (d.dropFlight ⟨fn, 0, cid⟩).postCqe fn 0 cid 0 stOk) c

/-- The fetches of a function that are out are dropped: what they would bring is not fetched (R105, R106). -/
def Chip.dropFetches (c : Chip) (fn : Nat) : Chip :=
  c.dropXfers (fun x => match x.purpose with
    | .entryFetch f .. => f == fn
    | _ => false)

/-- The controller of a function fails (R106): it fetches and posts nothing more. -/
def Chip.ctrlFails (c : Chip) (fn : Nat) : Chip := (c.set (R.NVM_CSTS_CFS fn) 1).dropFetches fn

/-- R105: SHST becomes 0b10 when the last completion of a function that shuts down has been posted. -/
def Chip.endShutdown (c : Chip) (fn : Nat) : Chip :=
  let k := c.ctrl fn
  if k.shutting && (c.flights fn).isEmpty && k.cqs.all (·.waiting.isEmpty) then
    (c.modCtrl fn (fun k => { k with shutting := false })).set (R.NVM_CSTS_SHST fn) 2
  else c

/-- What waits for a function's last completions: Deletes (R110) and a shutdown (R105). -/
def Chip.postsDone (c : Chip) (fn : Nat) : Chip := (c.endDeletes fn).endShutdown fn

/-- A command completed with a status and a Dword 0 (R112, R140); an abandoned command posts nothing. -/
def Chip.finishWith (c : Chip) (id : CmdId) (dw0 : Nat) (st : Status) : Chip :=
  match c.flight id with
  | none => c.dropFlight id
  | some _ => ((c.dropFlight id).postCqe id.fn id.sq id.cid dw0 st).postsDone id.fn

/-- A command completed with a status. -/
def Chip.finish (c : Chip) (id : CmdId) (st : Status) : Chip := c.finishWith id 0 st

/-- Waiting completions written as they can be, with what hangs on the last of them. -/
def Chip.resumePosts (c : Chip) : Chip :=
  let c := c.drainAll
  c.nvm.ctrls.foldl (fun d e => d.postsDone e.1) c

/-- A fetched command that has not begun to execute, of the given queue kind and opcode. -/
def Chip.fetched (c : Chip) (id : CmdId) (admin : Bool) (opc : Nat) : Option Inflight :=
  match c.flight id with
  | some i => if i.admin == admin && i.opc == opc && !i.running then some i else none
  | none => none

/-- R63: an image with the Midnight sections of another. -/
def ImageData.withSections (i s : ImageData) : ImageData :=
  { i with tenants := s.tenants, layout := s.layout, shelves := s.shelves, owners := s.owners }

/-- R63: what a command fetched before a switch of the Midnight sections does, it does under the sections of its fetch. -/
def Chip.underSections (c : Chip) (sect : Nat) (f : Chip → Chip) : Chip :=
  match c.kcf.prevs.find? (fun p => p.1 == sect), c.kcf.active with
  | some (_, old), some now =>
    let d := f { c with kcf := { c.kcf with active := some (now.withSections old) } }
    { d with kcf := { d.kcf with active := some now } }
  | _, _ => f c

/-- A fetched command begins to execute. Without one the step has no effect: nothing was fetched (R114, R117). An admin command that the function
does not offer gives Invalid Field in Command (R107, R140). -/
def Chip.execute (c : Chip) (id : CmdId) (admin : Bool) (opc : Nat) (f : Inflight → Chip → Chip) : Chip :=
  match c.fetched id admin opc with
  | none => c
  | some i => if admin && !c.offers id.fn opc then c.finish id stField else c.underSections i.sect (fun c => f i (c.modFlight id (fun i => { i with running := true })))

/-- A Dword of a fetched entry. -/
def Inflight.dw (i : Inflight) (n : Nat) : Nat := leNat ((i.entry.drop (4 * n)).take 4)

/-- The data pointer and its kind in a fetched entry (R120). -/
def Inflight.form (i : Inflight) : CmdForm :=
  ⟨i.dw 0 / 256 % 4, i.dw 0 / 16384 % 4, ⟨i.dw 6 + 0x100000000 * i.dw 7, i.dw 8 + 0x100000000 * i.dw 9⟩, i.dw 4 + 0x100000000 * i.dw 5⟩

/-- The bit of Feature 0x0B, or 32 for events that it does not govern. -/
def asyncEnabled (cfg typ info : Nat) : Bool :=
  match typ, info with
  | 0, _ => true
  | 1, i => bitOf cfg i
  | 2, 0 => bitOf cfg 8
  | 2, 1 => bitOf cfg 9
  | 2, 3 => bitOf cfg 11
  | _, _ => false

/-- R123: an asynchronous event. It completes an outstanding request, or waits for one; while its type is reported and not yet read it is
masked and waits as well (log entry 42). -/
def Chip.asyncEvent (c : Chip) (fn typ info lid : Nat) : Chip :=
  let k := c.ctrl fn
  let w := if k.aerWaiting.contains (typ, info, lid) then k.aerWaiting else k.aerWaiting ++ [(typ, info, lid)]
  let waits := c.modCtrl fn (fun k => { k with aerWaiting := w })
  if !asyncEnabled k.aeCfg typ info then c
  else if k.aerMasked.any (fun m => m / 256 == typ) then waits
  else
    match k.aers with
    | [] => waits
    | cid :: rest =>
      (c.modCtrl fn (fun k => { k with aers := rest, aerMasked := (typ * 256 + lid) :: k.aerMasked })).postCqe fn 0 cid
        (typ + 256 * info + 65536 * lid) stOk

/-- Waiting events reported as requests come and masks go. -/
def Chip.flushAsync (c : Chip) (fn : Nat) : Chip :=
  let w := (c.ctrl fn).aerWaiting
  w.foldl (fun d e => d.asyncEvent fn e.1 e.2.1 e.2.2) (c.modCtrl fn (fun k => { k with aerWaiting := [] }))

/-- R111: an invalid doorbell write posts its event: information 0 an unknown queue, 1 a bad value. -/
def Chip.badDoorbell (c : Chip) (fn info : Nat) : Chip := c.asyncEvent fn 0 info 1

/-- A function's entries of the Error Information log, newest first. -/
def Chip.errorsOf (c : Chip) (fn : Nat) : List ErrEntry := c.nvm.errorLog.filter (fun e => e.id.fn == fn)

/-- An entry added to a function's Error Information log, which keeps 64 (R141). -/
def Chip.logError (c : Chip) (id : CmdId) (nsid lba : Nat) (st : Status) : Chip :=
  let mine := c.errorsOf id.fn
  let e : ErrEntry := ⟨(mine.head?.map (·.count)).getD 0 + 1, id, st, lba, nsid⟩
  { c with nvm := { c.nvm with errorLog := (e :: mine).take 64 ++ c.nvm.errorLog.filter (fun x => x.id.fn != id.fn) } }

/-- The controllers that are enabled. -/
def Chip.enabledFns (c : Chip) : List Nat := (c.nvm.ctrls.map (·.1)).filter (fun fn => c.on (R.NVM_CC_EN fn))

/-- Namespace Attribute Changed posted to a function (R123). -/
def Chip.nsNotice (c : Chip) (fn nsid : Nat) : Chip :=
  ({ c with nvm := { c.nvm with changedNs := (c.nvm.changedNs.filter (· != (fn, nsid))) ++ [(fn, nsid)] } } : Chip).asyncEvent fn 2 0 4

/-- R134, R135: new ANA states take effect: the change count steps and every controller with a namespace in a changed group is
told. -/
def Chip.setAna (c : Chip) (states : List (Nat × Nat)) : Chip :=
  let ana := states.foldl (fun (l : List (Nat × Nat)) (p : Nat × Nat) => Sparse.set 3 l p.1 p.2) c.nvm.ana
  let d := { c with nvm := { c.nvm with ana := ana } }
  let changed := states.filter (fun p => c.anaOf p.1 != d.anaOf p.1)
  if changed.isEmpty then d
  else
    let c := { d with nvm := { d.nvm with anaCount := d.nvm.anaCount + 1 } }
    c.enabledFns.foldl (fun d fn =>
      if (d.nsList fn).any (fun n => changed.any (fun p => p.1 == (d.nsOf n).anagrp)) then d.asyncEvent fn 2 3 0x0C else d) c

/-- This head's home group (R133) and the other. -/
def Chip.homeGroup (c : Chip) : Nat := c.pos + 1

/-- Both groups' states set: the home group's and the other's. -/
def Chip.setAnaBoth (c : Chip) (home other : Nat) : Chip := c.setAna [(c.homeGroup, home), (3 - c.homeGroup, other)]

/-- R133: the ANA group of a namespace created with ANAGRPID `g`. -/
def groupOf (nsid g : Nat) : Nat := if g = 0 then (if nsid % 2 = 1 then 1 else 2) else g

/-- Bytes with the patches given over `n` zeros. -/
def patched (n : Nat) (l : List (Nat × List Byte)) : List Byte :=
  Mem.read (l.foldl (fun (m : List Host.Cell) (p : Nat × List Byte) => Mem.write m p.1 p.2) []) 0 n

/-- A self-test that a reset of the PF's controller or of the head ends, logged with result 0x2 (R139); the newest of 20 entries comes first. -/
def Nvm.logTest (n : Nvm) (t : SelfTest) (result : Nat) : Nvm :=
  { n with selfTest := none, selfTestLog := (⟨t.code, result, t.firstFail.getD 0, t.shelf, t.notRun⟩ :: n.selfTestLog).take 20 }

/-- The bytes of ASCII text. -/
def ascii (s : String) : List Byte := s.toList.map (fun ch => BitVec.ofNat 8 ch.toNat)

/-- A digit of a hexadecimal number; lower case (DESIGN CHOICE, log entry 96). -/
def hexDigit (v : Nat) : Byte := BitVec.ofNat 8 (if v % 16 < 10 then 48 + v % 16 else 87 + v % 16)

/-- A number as `n` hexadecimal digits. -/
def hexText (v : Nat) : Nat → List Byte
  | 0 => []
  | n + 1 => hexText (v / 16) n ++ [hexDigit v]

end Sys2Proof.Machine
end

