-- ==== Sys2Proof/Machine/Capacity.lean ====
section
/-!
DEFINITION. Layout classes, shelves, cohorts and free capacity (R19, R47, R297, R298, R313, R617 to R619).
-/
namespace Sys2Proof.Machine

/-- The shelves that the active image's TOPOLOGY names, with their IDs. -/
def Chip.topology (c : Chip) : List (Nat × ShelfEnt) :=
  match c.kcf.active with
  | some i => (List.range i.shelves.length).filterMap (fun n =>
      match i.shelves[n]? with
      | some s => if s.present then some (n, s) else none
      | none => none)
  | none => []

/-- A shelf's entry of TOPOLOGY. -/
def Chip.shelfEnt (c : Chip) (sh : Nat) : ShelfEnt :=
  match c.kcf.active with
  | some i => i.shelves.getD sh {}
  | none => {}

/-- The cohort number that marks a catalogue shelf (Table 2-10). -/
def catalogueCohort : Nat := 254

/-- Shelves of a cohort in ascending string order. -/
def Chip.cohortShelves (c : Chip) (k : Nat) : List Nat :=
  (List.range 16).flatMap (fun s => (c.topology.filter (fun e => e.2.cohort == k && e.2.str == s)).map (·.1))

/-- What FTM knows of a shelf. -/
def Chip.shelf (c : Chip) (sh : Nat) : ShelfInfo := Sparse.get {} c.ftm.shelves sh

/-- A shelf's knowledge changed. -/
def Chip.modShelf (c : Chip) (sh : Nat) (f : ShelfInfo → ShelfInfo) : Chip :=
  { c with ftm := { c.ftm with shelves := Sparse.set {} c.ftm.shelves sh (f (c.shelf sh)) } }

/-- A control field of FTM as it is in force: written values apply from the next Midnight (R310). -/
def Chip.ftmCtl (c : Chip) (f : Fld) : Nat := Sparse.get f.reset c.ftm.inForce f.key

/-- Whether a cohort is awake; from the start of its Sleep it is not (R179). -/
def Chip.cohortAwake (c : Chip) (k : Nat) : Bool := bitOf (c.get R.FTM_STATUS_AWAKE) k && !c.ing.sleeping.contains k

/-- The cohorts awake. -/
def Chip.awakeCohorts (c : Chip) : List Nat := (bitsSet (c.get R.FTM_STATUS_AWAKE) 8).filter (fun k => !c.ing.sleeping.contains k)

/-- A layout class of the active image. -/
def Chip.layoutOf (c : Chip) (cls : Nat) : LayoutEnt :=
  match c.kcf.active with
  | some i => i.layout.getD cls {}
  | none => {}

/-- The width of a class (Table 10-1). -/
def LayoutEnt.width (l : LayoutEnt) : Nat :=
  match l.kind with
  | 1 => 2
  | 2 => 3
  | 3 => l.k + 1
  | 4 => l.k + 2
  | _ => 0

/-- The data strips of a class (Table 10-1). -/
def LayoutEnt.dataStrips (l : LayoutEnt) : Nat := if l.kind = 3 || l.kind = 4 then l.k else 1

/-- The tolerance of a class (Table 10-1). -/
def LayoutEnt.tolerance (l : LayoutEnt) : Nat :=
  match l.kind with
  | 1 => 1
  | 2 => 2
  | 3 => 1
  | 4 => 2
  | _ => 0

/-- Bytes of an extent of a class. -/
def LayoutEnt.extent (l : LayoutEnt) : Nat := 2 ^ l.extLog2

/-- Pages of an extent of a class (R270). -/
def LayoutEnt.pages (l : LayoutEnt) : Nat := 2 ^ (l.extLog2 - 14)

/-- Whether a cohort has enough shelves for a class (R19). -/
def Chip.cohortHolds (c : Chip) (k cls : Nat) : Bool :=
  let w := (c.layoutOf cls).width
  decide (0 < w) && decide (w ≤ (c.cohortShelves k).length)

/-- Whether a shelf takes new strips (R298, R306): in service and not out of spare blocks. -/
def Chip.eligible (c : Chip) (sh : Nat) : Bool :=
  let s := c.shelf sh
  (s.state == 3 || s.state == 1) && !s.spareLow

/-- R165: whether some awake cohort has enough eligible shelves for a class. -/
def Chip.classOpen (c : Chip) (cls : Nat) : Bool :=
  c.awakeCohorts.any (fun k =>
    let w := (c.layoutOf cls).width
    decide (0 < w) && decide (w ≤ ((c.cohortShelves k).filter (fun sh => c.eligible sh && (c.shelf sh).state == 3)).length))

/-- Data pages of a band (R272): a sixteenth of one block's pages are summary pages. -/
def bandPages (g : Geometry) : Nat := 64 * g.pages - g.pages / 16

/-- Extents of `2 ^ extLog2` bytes that fit in a shelf's bands beyond FTM_RESERVE. -/
def Chip.freeExtents (c : Chip) (all : Bool) (extLog2 sh : Nat) : Nat :=
  let s := c.shelf sh
  let free := if all then s.bands.length else (s.bands.filter (fun b => b.2.state == 0)).length
  (free - c.ftmCtl R.FTM_MEDIA_CTRL_RESERVE) * (bandPages s.geo / 2 ^ (extLog2 - 14))

/-- The largest number below `hi` for which a falling test holds, by halving. -/
def largest (p : Nat → Bool) : Nat → Nat → Nat → Nat
  | 0, lo, _ => lo
  | fuel + 1, lo, hi =>
    if hi ≤ lo + 1 then lo
    else
      let m := (lo + hi) / 2
      if p m then largest p fuel m hi else largest p fuel lo m

/-- How many stripes of width `w` extents of these numbers make (R617). -/
def stripesOf (es : List Nat) (w : Nat) : Nat :=
  largest (fun s => decide (s * w ≤ sumOf (es.map (min · s)))) 64 0 (sumOf es + 1)

/-- R621: whether a cohort has a SEID of this head's parity left; one without counts as full for the head. -/
def Chip.seidLeft (c : Chip) (k : Nat) : Bool :=
  decide ((c.ftm.stripes.filter (fun s => s.cohort == k && s.state != 0 && s.seid % 2 == c.pos)).length < 2 ^ 30)

/-- Bytes of a class that a cohort takes (R617, R621). -/
def Chip.cohortCapacity (c : Chip) (all : Bool) (cls k : Nat) : Nat :=
  let l := c.layoutOf cls
  let es := ((c.cohortShelves k).filter (fun sh => all || c.eligible sh)).map (c.freeExtents all l.extLog2)
  if c.cohortHolds k cls && (all || c.seidLeft k) then stripesOf es l.width * l.dataStrips * l.extent else 0

/-- F_c, or C_c where every band counts as free (R617, R620). -/
def Chip.classCapacity (c : Chip) (all : Bool) (cls : Nat) : Nat :=
  sumOf ((List.range 8).map (c.cohortCapacity all cls))

/-- B_c: the bytes of fetched writes of a class not yet placed, of both heads (R618). -/
def Chip.classBuffered (c : Chip) (cls : Nat) : Nat :=
  sumOf ((c.ing.writes.filter (fun w => w.cls == cls && !w.zeroes && w.pieces.any (·.mapRsn.isNone))).map (fun w => w.nlb * 4096))

/-- Pages of the index area (R619). -/
def Chip.indexArea (c : Chip) : Nat :=
  let sizes := (c.topology.filter (fun e => e.2.cohort == catalogueCohort)).map (fun e =>
    let g := (c.shelf e.1).geo
    g.dies * g.planes * g.blocks * g.pages / 2)
  (sizes.min?).getD 0

/-- The windows of 16 384 blocks that the cohort index has entries in (R281). -/
def Chip.indexWindows (c : Chip) : List Nat := (c.ftm.index.map (fun e => e.1 / 16384)).eraseDups

/-- Pages of the index area and pages of the cohort index in use, 8 KiB a window (R619). -/
def Chip.indexPages (c : Chip) : Nat × Nat := (c.indexArea, (c.indexWindows.length + 1) / 2)

/-- R617 to R619: whether a write of `bytes` to a class finds space. -/
def Chip.hasSpace (c : Chip) (cls bytes : Nat) : Bool := decide (bytes + c.classBuffered cls ≤ c.classCapacity false cls)

/-- R619: whether the cohort index of a range of blocks finds room: it needs no page beyond those in use, or one is free. -/
def Chip.indexHasSpace (c : Chip) (nsid lba nlb : Nat) : Bool :=
  let first := (nsid * 2 ^ 44 + lba) / 16384
  let last := (nsid * 2 ^ 44 + lba + (nlb - 1)) / 16384
  let new := ((List.range (last + 1 - first)).map (first + ·)).filter (fun w => !c.indexWindows.contains w)
  new.isEmpty || decide ((c.indexWindows.length + new.length + 1) / 2 ≤ c.indexArea)

/-- A locator: cohort and position (R271, Table 7-3). -/
def mkLocator (cohort shelf seid ofs : Nat) : Nat := cohort * 2 ^ 61 + shelf * 2 ^ 49 + seid * 2 ^ 18 + ofs

/-- COHORT of a locator. -/
def locCohort (l : Nat) : Nat := bitsOf l 61 3
/-- SHELF of a locator. -/
def locShelf (l : Nat) : Nat := bitsOf l 49 7
/-- SEID of a locator. -/
def locSeid (l : Nat) : Nat := bitsOf l 18 31
/-- OFS of a locator, in units of 64 bytes. -/
def locOfs (l : Nat) : Nat := bitsOf l 0 18

/-- A stripe-table entry. -/
def Chip.stripe (c : Chip) (cohort seid : Nat) : Option StripeEnt :=
  c.ftm.stripes.find? (fun s => s.cohort == cohort && s.seid == seid)

/-- A stripe-table entry changed. -/
def Chip.modStripe (c : Chip) (cohort seid : Nat) (f : StripeEnt → StripeEnt) : Chip :=
  { c with ftm := { c.ftm with stripes := modifyFirst (fun s => s.cohort == cohort && s.seid == seid) f c.ftm.stripes } }

/-- The ingest cohort, if there is one (R297). -/
def Chip.ingestCohort (c : Chip) : Option Nat :=
  if c.on R.FTM_STATUS_INGEST_VALID then some (c.get R.FTM_STATUS_INGEST) else none

/-- The extents of 4 MiB free in a cohort, or in all its bands (R299). -/
def Chip.cohortExtents (c : Chip) (all : Bool) (k : Nat) : Nat :=
  sumOf (((c.cohortShelves k).filter (fun sh => all || c.eligible sh)).map (c.freeExtents all 22))

/-- Whether a cohort's free extents are below FTM_SPACE_LOW of its capacity (R299). -/
def Chip.cohortLow (c : Chip) (k : Nat) : Bool :=
  decide (c.cohortExtents false k * 100 < c.ftmCtl R.FTM_MEDIA_CTRL_SPACE_LOW * c.cohortExtents true k)

/-- FTM_STATUS.SPACE_LOW. -/
def Chip.spaceLow (c : Chip) : Bool := c.ingestCohort.any c.cohortLow

/-- The cohort with the most free space among those that are not low (R299). -/
def Chip.roomiest (c : Chip) : Option Nat :=
  ((List.range 8).filter (fun k => decide (0 < c.cohortExtents true k) && !c.cohortLow k)).foldl (fun (o : Option Nat) k => match o with
    | none => some k
    | some b => if c.cohortExtents false b < c.cohortExtents false k then some k else some b) none

/-- R297, R299: with the ingest cohort low on space, another awake cohort takes its place, or a switch to the cohort with the most free space
is asked for, ranked as a read that has just arrived. -/
def Chip.askSpace (c : Chip) : Chip :=
  if !c.spaceLow then c
  else match c.awakeCohorts.find? (fun k => !c.cohortLow k) with
    | some k => (c.set R.FTM_STATUS_INGEST k).set R.FTM_STATUS_INGEST_VALID 1
    | none => match c.roomiest with
      | none => c
      | some k => if c.ftm.switchWanted.any (·.1 == k) then c
        else { c with ftm := { c.ftm with switchWanted := c.ftm.switchWanted ++ [(k, c.now, 0)] } }

/-- The resident part of a cohort's maps in bytes (R279); the spec does not state the size of the tables' entries. -/
def Chip.residentBytes (c : Chip) (k : Nat) : Nat :=
  let shelves := c.cohortShelves k
  Config.residentBytes (sumOf (shelves.map (fun sh => (c.shelf sh).map.length)))
    (sumOf (shelves.map (fun sh => sumOf ((c.shelf sh).map.map (fun e => match e.2 with
      | .grained _ gs => gs.length
      | _ => 0)))))
    (c.ftm.stripes.filter (fun s => s.cohort == k)).length (sumOf (shelves.map (fun sh => (c.shelf sh).bands.length)))

/-- FTM_CACHE_NEED: the resident part of the two cohorts that need the most (R279). -/
def Chip.cacheNeed (c : Chip) : Nat :=
  let l := (List.range 8).map c.residentBytes
  let a := maxOf l
  a + maxOf (l.erase a)

/-- FTM_STATUS.CACHE_SHORT (R279). -/
def Chip.cacheShort (c : Chip) : Bool :=
  match (c.carve 3).head? with
  | some r => decide (r.size - 0x20000000 < sumOf (c.awakeCohorts.map c.residentBytes))
  | none => false

/-- The two catalogue shelves, in ascending shelf ID. -/
def Chip.catShelves (c : Chip) : List Nat := (c.topology.filter (fun e => e.2.cohort == catalogueCohort)).map (·.1)

end Sys2Proof.Machine
end

