-- ==== Sys2Proof/Machine/Wire.lean ====
section
/-!
DEFINITION. The bytes of frames on the strings and on the peer link: headers, payloads, encryption and trailers (Tables 11-4 to 11-8, 12-2, 12-3
and 12-12; R356, R357, R390, R391, R396, R567).
-/
namespace Sys2Proof.Machine

/-- Reserved bytes. -/
def zeros (n : Nat) : List Byte := List.replicate n 0#8

/-- The 12-byte initialisation vector of a frame: SESSION, ADDR or SRC, two zero bytes, TXC (R357, R391). -/
def frameIv (session src txc : Nat) : List Byte := natLe session 1 ++ natLe src 1 ++ zeros 2 ++ natLe txc 8

/-- The trailer of a frame with SESSION 0: the CRC-32C of header and payload, then zeros (R357). -/
def crcTrailer (bs : List Byte) : List Byte := natLe (crc32c bs) 4 ++ zeros 12

/-- What stands on the wire for a frame under a session: its header, its payload, encrypted where `hidden`, and the tag. -/
def sealFrame (key : Nat) (iv head payload : List Byte) (hidden : Bool) : List Byte :=
  let ks := aesKeys (keyBytes key)
  if hidden then
    let ct := gcmCrypt ks iv payload
    head ++ ct ++ gcmTag ks iv head ct
  else head ++ payload ++ gcmTag ks iv (head ++ payload) []

/-- The trailer of a frame's bytes. -/
def trailerOf (wire : List Byte) : List Byte := wire.drop (wire.length - 16)

/-! ### String frames -/

/-- The header bytes of a page up to CHECK (Table 9-3). -/
def headerBytes (h : PageHdr) : List Byte :=
  natLe 0x4750 2 ++ natLe h.flags 1 ++ natLe h.shelf 1 ++ natLe h.arrayTag 4 ++ natLe h.la 6 ++ natLe 0 2 ++ natLe h.seq 8 ++
  natLe h.band 3 ++ natLe 0 1 ++ natLe h.epoch 6 ++ zeros 26

/-- The 64 bytes of a page header. -/
def hdrBytes (h : PageHdr) : List Byte := headerBytes h ++ natLe h.check 4

/-- A REQ payload's fixed part (Table 11-8). -/
def reqFields (op level ppa dst seq band epoch : Nat) : List Byte :=
  natLe op 1 ++ natLe level 1 ++ zeros 6 ++ natLe ppa 6 ++ zeros 2 ++ natLe dst 6 ++ zeros 2 ++ natLe seq 8 ++ natLe band 3 ++ zeros 1 ++
  natLe epoch 6 ++ zeros 6

/-- A REQ payload (Table 11-8). -/
def reqBytes : MediaReq → List Byte
  | .read ppa retry => reqFields 1 retry ppa 0 0 0 0
  | .readHdr ppa => reqFields 2 0 ppa 0 0 0 0
  | .program ppa h data => reqFields 3 0 ppa 0 0 0 0 ++ hdrBytes h ++ data
  | .erase ppa => reqFields 4 0 ppa 0 0 0 0
  | .copy src dst seq band epoch => reqFields 5 0 src dst seq band epoch
  | .blockInfo ppa => reqFields 6 0 ppa 0 0 0 0
  | .retire ppa => reqFields 7 0 ppa 0 0 0 0
  | .geometry => reqFields 8 0 0 0 0 0 0
  | .rootGet => reqFields 9 0 0 0 0 0 0
  | .rootSet slot ppa seq => reqFields 10 slot ppa 0 seq 0 0

/-- Whether an operation's answer stands in the fixed part of its RSP: ERASE and BLOCK_INFO (Table 11-8). -/
def rspFixed (op : Nat) : Bool := op == 4 || op == 6

/-- The bytes of a payload of type RSP: 32, with the erase count and the block's state of ERASE and BLOCK_INFO at 0x08, then the body. -/
def rspBytes (op status delivery level corr : Nat) (body : List Byte) : List Byte :=
  let inner := if rspFixed op then body.take 9 else []
  natLe op 1 ++ natLe status 1 ++ natLe delivery 1 ++ natLe level 1 ++ natLe corr 2 ++ zeros 2 ++ inner ++ zeros (24 - inner.length) ++
    (if rspFixed op then [] else body)

/-- A CTRL payload (R374): SUB, then the body that it names. -/
def ctrlBytes (sub : Nat) (body : List Byte) : List Byte := natLe sub 1 ++ zeros 7 ++ body

end Sys2Proof.Machine

namespace Sys2Proof
open Sys2Proof.Machine

/-- A frame's payload in clear (R372, R374). A CTRL frame whose SUB is not listed is shown with SUB 0. -/
def StrPayload.bytes : StrPayload → List Byte
  | .req op => reqBytes op
  | .rsp op st d lv n body => rspBytes op st d lv n body
  | .ack => []
  | .park => ctrlBytes 1 []
  | .sessionStart n keep => ctrlBytes 2 (natLe n 4 ++ natLe (flag keep) 1 ++ zeros 3)
  | .keys gen key => ctrlBytes 3 (natLe gen 1 ++ zeros 7 ++ keyBytes key)
  | .echo d => ctrlBytes 4 d
  | .echoReply d => ctrlBytes 5 d
  | .parkDone => ctrlBytes 6 (zeros 8)
  | .badCtrl => ctrlBytes 0 []

/-- A frame's TYPE (Table 11-5). -/
def StrPayload.type : StrPayload → Nat
  | .req _ => 1
  | .rsp .. => 2
  | .ack => 3
  | _ => 4

/-- Whether a frame carries a stored reply (REPLAY, R370). -/
def StrPayload.replayed : StrPayload → Bool
  | .rsp _ _ d .. => d == 1
  | _ => false

/-- Whether a payload is encrypted: CTRL KEYS alone (R357). -/
def StrPayload.hidden : StrPayload → Bool
  | .keys .. => true
  | _ => false

end Sys2Proof

namespace Sys2Proof.Machine

/-- A frame header (Table 11-4). -/
def strHead (src dst type len session flags seq ack opid txc : Nat) : List Byte :=
  natLe (src + 16 * dst) 1 ++ natLe type 1 ++ natLe len 2 ++ natLe session 1 ++ natLe flags 1 ++ natLe seq 2 ++ natLe ack 2 ++ zeros 2 ++
  natLe opid 4 ++ natLe txc 8

end Sys2Proof.Machine

namespace Sys2Proof
open Sys2Proof.Machine

/-- The header of a frame. -/
def StrFrame.head (f : StrFrame) : List Byte :=
  strHead f.src f.dst f.payload.type (40 + f.payload.bytes.length) f.session
    (flag f.seqd + 2 * flag f.ackValid + 4 * flag f.retx + 8 * flag f.payload.replayed) f.seq f.ack f.opid f.txc

/-- A frame as it stands on the wire under the key of its sender's direction (R356, R357). -/
def StrFrame.wire (key : Nat) (f : StrFrame) : List Byte :=
  if f.session = 0 then f.head ++ f.payload.bytes ++ crcTrailer (f.head ++ f.payload.bytes)
  else sealFrame key (frameIv f.session (f.src + 16 * f.dst) f.txc) f.head f.payload.bytes f.payload.hidden

/-- The payload of a beacon (Table 11-6). -/
def Beacon.bytes (b : Beacon) : List Byte :=
  let nib := fun (i : Nat) => natLe (b.grants.getD (2 * i) 15 + 16 * (if i = 30 then 0 else b.grants.getD (2 * i + 1) 15)) 1
  natLe b.cycle 4 ++ natLe b.ownerGen 1 ++ natLe (flag b.pf + 2 * flag b.fence8 + 4 * flag b.fence9 + 8 * flag b.release) 1 ++
  natLe (maskOf b.wakeList) 1 ++ natLe (maskOf b.quarantine) 1 ++ natLe b.cack1 1 ++ natLe b.cack2 1 ++ zeros 6 ++
  (List.range 31).flatMap nib ++ zeros 17

/-- A beacon on the wire under the string key (R357, R359). -/
def Beacon.wire (key : Nat) (b : Beacon) : List Byte :=
  sealFrame key (frameIv b.keygen (b.src + 0xF0) b.txc) (strHead b.src 15 0x0A 104 b.keygen 0 0 0 0 b.txc) b.bytes false

/-- Whether a frame with SESSION 0 that an attachment sends verifies: its DST, TXC and trailer as they were received. -/
def CrcHdr.verifies (h : CrcHdr) (src type : Nat) (payload : List Byte) : Bool :=
  let bs := strHead src h.dst type (40 + payload.length) 0 0 0 0 0 h.txc ++ payload
  h.trailer == crcTrailer bs

end Sys2Proof

namespace Sys2Proof.Machine

/-- The payload of an ENROL frame (R375). -/
def enrolBytes (pos : Nat) (blank : Bool) (vendor model fwVersion arrayTag : Nat) : List Byte :=
  natLe pos 1 ++ natLe (flag blank) 1 ++ zeros 2 ++ natLe vendor 2 ++ natLe model 2 ++ natLe fwVersion 4 ++ natLe arrayTag 4

/-- The payload of a WAKE frame (R383). -/
def wakeBytes (pos reason detail : Nat) : List Byte := natLe pos 1 ++ natLe reason 1 ++ natLe detail 6

/-! ### Peer-link frames -/

/-- The code of a journal record's kind, for its size. -/
def JKind.code : JKind → Nat
  | .map .. => 0 | .catalogue .. => 1 | .nsChange _ => 2 | .agreement => 3 | .data _ => 4 | .cursor => 5 | .other => 6 | .answered _ => 1

/-- A number in 64-bit two's complement. -/
def ofInt64 (i : Int) : Nat := (i % 2 ^ 64).toNat

/-- The KIND of a proposal (Table 12-5). -/
def kindOf : Proposal → Nat
  | .keyLoad .. => 1
  | .keyErase _ => 2
  | .image .. => 3
  | .cohort .. => 4
  | .reshape _ => 5
  | .owner .. => 6

end Sys2Proof.Machine

namespace Sys2Proof
open Sys2Proof.Machine

/-- A proposal's body (Table 12-12). -/
def Proposal.bytes : Proposal → List Byte
  | .keyLoad slot persist own key => natLe slot 2 ++ natLe (flag persist) 1 ++ zeros 1 ++ natLe own 2 ++ zeros 2 ++ keyBytes key
  | .keyErase slot => natLe slot 2 ++ zeros 6
  | .image t l p e => natLe t 32 ++ natLe l 32 ++ natLe p 32 ++ natLe e 6 ++ zeros 2
  | .cohort k stamp => natLe k 1 ++ zeros 7 ++ natLe stamp 8
  | .reshape arg => natLe arg 8
  | .owner s p => natLe s 1 ++ natLe p 1 ++ zeros 6

/-- An item of a STATE request: ITYPE, ILEN and the body padded to a multiple of 8 bytes. -/
def itemBytes (type : Nat) (body : List Byte) : List Byte :=
  natLe type 2 ++ natLe body.length 2 ++ zeros 4 ++ body ++ zeros ((8 - body.length % 8) % 8)

/-- An item of a STATE request (Table 12-12). -/
def StateItem.bytes : StateItem → List Byte
  | .keySlot s st p er ep key => itemBytes 1 (natLe s 2 ++ natLe st 1 ++ natLe (flag p + 2 * flag er) 1 ++ natLe ep 6 ++ zeros 6 ++ keyBytes key)
  | .stringKey s gen key => itemBytes 2 (natLe s 1 ++ natLe gen 1 ++ zeros 6 ++ keyBytes key)
  | .schedule a e ad => itemBytes 3 (natLe a 8 ++ natLe e 6 ++ zeros 2 ++ natLe ad 6 ++ zeros 2)
  | .cohorts aw i => itemBytes 4 (natLe aw 1 ++ natLe i 1 ++ zeros 6)
  | .record r => itemBytes 5 (Config.nsRecordImage [r.nsid, flag r.present, flag r.attached, r.spec.nsze, r.spec.lbaf, flag r.spec.ext, r.spec.dps,
      r.spec.anagrp, r.spec.owner, r.spec.cls, r.spec.keySlot, r.clsGiven, r.slotGiven, flag r.wiped])
  | .granules first n l => itemBytes 6 (natLe first 2 ++ natLe n 2 ++ zeros 4 ++ natLe (maskOf (l.filterMap (fun g => if first ≤ g then some (g - first) else none)))
      ((n + 7) / 8))
  | .secrets g d v => itemBytes 7 (natLe g 4 ++ zeros 4 ++ keyBytes d ++ keyBytes v)
  | .generation w a => itemBytes 8 (natLe w 2 ++ natLe a 2 ++ zeros 4)

/-- The STATE word of a heartbeat (R412). -/
def HbState.word (s : HbState) : Nat :=
  s.pos % 2 + 2 * (s.state % 8) + 16 * flag s.hostUp + 32 * flag s.holdupHigh + 2 ^ 8 * (s.awake % 256) + 2 ^ 16 * (s.strings % 0x10000) +
    2 ^ 32 * (s.mnDone % 2 ^ 32)

/-- A HELLO payload (Table 12-12). -/
def HelloMsg.bytes (m : HelloMsg) : List Byte :=
  natLe m.pos 1 ++ natLe m.headId 1 ++ natLe m.state 1 ++ natLe (flag m.hostUp + 2 * flag m.holdupHigh) 1 ++ natLe m.epochUs 4 ++ natLe m.arrayId 8 ++
  natLe m.epoch 6 ++ zeros 2 ++ natLe m.anchor 8 ++ natLe m.wbSize 8 ++ natLe m.writeGen 2 ++ natLe m.awg 2 ++ natLe m.secretGen 4 ++
  natLe m.fwSerial 8 ++ natLe m.fwFloor 8 ++ natLe m.tenants 32 ++ natLe m.layout 32 ++ natLe m.topology 32

/-- An ANSWER payload (Table 12-12). -/
def AnswerRes.bytes : AnswerRes → List Byte
  | .accept => zeros 8
  | .refuse r => natLe 1 1 ++ natLe r 1 ++ zeros 6
  | .malformed => natLe 0xFE 1 ++ zeros 7
  | .stale => natLe 0xFF 1 ++ zeros 7

/-- An entry of a MAPWALK response (Table 12-12). -/
def WalkEntry.bytes (e : WalkEntry) : List Byte :=
  natLe e.lba 8 ++ natLe e.blocks 2 ++ natLe e.source 1 ++ natLe e.skip 1 ++ zeros 4 ++ natLe e.locator 8

end Sys2Proof

namespace Sys2Proof.Machine

/-- The payload of a peer-link frame (Table 12-12, R393, R404, R409, R412, R567). -/
def PeerMsg.bytes : PeerMsg → List Byte
  | .hello m => m.bytes
  | .hb tx etx erx st => natLe tx 8 ++ natLe etx 8 ++ natLe erx 8 ++ natLe st.word 8
  | .ack acks wins nak => acks.flatMap (fun a => natLe a 4) ++ wins.flatMap (fun w => natLe w 2) ++ natLe nak 1
  | .notice kind strings time => natLe kind 1 ++ zeros 1 ++ natLe strings 2 ++ zeros 4 ++ natLe time 8
  | .mnSync time epoch shift => natLe time 8 ++ natLe epoch 6 ++ zeros 2 ++ natLe (ofInt64 shift) 8
  | .record rsn epoch kind => Config.recordImage rsn epoch kind.code
  | .recImage image => image
  | .mnClose epoch count last digest eff => natLe epoch 6 ++ natLe count 4 ++ natLe last 4 ++ natBe digest 32 ++ natLe eff 4
  | .mnConfirm epoch digest => natLe epoch 6 ++ zeros 2 ++ natBe digest 32
  | .propose p stamp => natLe (kindOf p) 1 ++ zeros 7 ++ natLe stamp 8 ++ p.bytes
  | .answer r => r.bytes
  | .commit p kind => natLe p 8 ++ natLe kind 1 ++ zeros 7
  | .done p status => natLe p 8 ++ natLe status 1 ++ zeros 7
  | .lease (.request what n tenant sh) => zeros 1 ++ natLe what 1 ++ natLe n 2 ++ natLe tenant 2 ++ natLe sh 1 ++ zeros 1
  | .lease (.response st l) => natLe 1 1 ++ natLe st 1 ++ natLe l.length 2 ++ zeros 4 ++ l.flatMap (fun g => natLe g 4)
  | .walk (.request nsid slba nlb) => zeros 4 ++ natLe nsid 4 ++ natLe slba 8 ++ natLe nlb 4 ++ zeros 4
  | .walk (.response st es) => natLe 1 1 ++ natLe st 1 ++ natLe es.length 2 ++ zeros 4 ++ es.flatMap WalkEntry.bytes
  | .state (.request last items) => zeros 1 ++ natLe (flag last) 1 ++ zeros 2 ++ natLe items.length 4 ++ items.flatMap StateItem.bytes
  | .state (.response st) => natLe 1 1 ++ natLe st 1 ++ zeros 6
  | .mirrorData wid ofs data => natLe wid 8 ++ natLe ofs 8 ++ data
  | .mirrorEnd wid tenant nsid slba nlb len => natLe wid 8 ++ natLe tenant 2 ++ natLe nsid 4 ++ natLe slba 8 ++ natLe nlb 2 ++ natLe len 4
  | .mirrorDrop wid => natLe wid 8
  | .fwReq floor awg empty => if empty then [] else natLe floor 8 ++ natLe awg 2
  | .fwData ofs data => natLe ofs 4 ++ data
  | .fwEnd length serial => natLe length 4 ++ natLe serial 8

/-- A peer-link frame's TYPE (Table 12-3, R567). -/
def PeerMsg.type : PeerMsg → Nat
  | .hello _ => 0x01
  | .hb .. => 0x02
  | .ack .. => 0x03
  | .notice .. => 0x04
  | .mnSync .. => 0x06
  | .record .. => 0x10
  | .recImage _ => 0x10
  | .mnClose .. => 0x11
  | .mnConfirm .. => 0x12
  | .propose .. => 0x13
  | .answer _ => 0x14
  | .commit .. => 0x15
  | .done .. => 0x16
  | .lease _ => 0x17
  | .walk _ => 0x18
  | .state _ => 0x19
  | .mirrorData .. => 0x20
  | .mirrorEnd .. => 0x21
  | .mirrorDrop _ => 0x22
  | .fwReq .. => 0x30
  | .fwData .. => 0x31
  | .fwEnd .. => 0x32

/-- The channel of a frame (Table 12-3): 0 C, 1 M, 2 B. -/
def PeerMsg.ch (m : PeerMsg) : Nat := if m.type < 0x10 then 0 else if m.type = 0x20 || m.type = 0x21 || m.type = 0x22 then 2 else 1

/-- Whether a frame is sequenced (Table 12-3): all but heartbeats and acknowledgements. -/
def PeerMsg.seqd (m : PeerMsg) : Bool := m.type != 0x02 && m.type != 0x03

/-- A frame header (Table 12-2). -/
def peerHead (session src type ch len seq : Nat) (ack : Option Nat) (opid txc : Nat) (retx replay : Bool) : List Byte :=
  natLe type 1 ++ natLe (ch + 4 * flag retx + 8 * flag replay + 16 * flag ack.isSome) 1 ++ natLe len 2 ++ natLe session 1 ++ natLe src 1 ++ zeros 2 ++
  natLe seq 4 ++ natLe (ack.getD 0) 4 ++ natLe opid 8 ++ natLe txc 8

/-- A peer-link frame on the wire under the key of its sender's direction (R390, R391): the payload is encrypted, the header additional data. -/
def PeerMsg.wire (m : PeerMsg) (key session src seq : Nat) (ack : Option Nat) (opid txc : Nat) (retx replay : Bool) : List Byte :=
  let body := m.bytes
  sealFrame key (frameIv session src txc) (peerHead session src m.type m.ch (48 + body.length) seq ack opid txc retx replay) body true

end Sys2Proof.Machine
end

