-- ==== Sys2Proof/Machine/Link.lean ====
section
/-!
DEFINITION. Sending on the peer link: channels, windows, retransmission, requests and kept replies (R391 to R395).
-/
namespace Sys2Proof.Machine

/-- A channel: 0 C, 1 M, 2 B (R392). -/
def Chip.zch (c : Chip) (ch : Nat) : Channel :=
  match ch with
  | 0 => c.zbl.chC
  | 1 => c.zbl.chM
  | _ => c.zbl.chB

/-- A channel changed. -/
def Chip.modZch (c : Chip) (ch : Nat) (f : Channel → Channel) : Chip :=
  match ch with
  | 0 => { c with zbl := { c.zbl with chC := f c.zbl.chC } }
  | 1 => { c with zbl := { c.zbl with chM := f c.zbl.chM } }
  | _ => { c with zbl := { c.zbl with chB := f c.zbl.chB } }

/-- Whether a session runs on the link. -/
def Chip.linkUp (c : Chip) : Bool := c.zbl.session != 0 && c.get R.ZBL_STATUS_QUADS != 0

/-- Whether the peer is in service for this head (R400). -/
def Chip.peerIn (c : Chip) : Bool := c.zbl.state == .inService && c.linkUp

/-- R391: a frame takes the next TXC and is counted. -/
def Chip.stepTxc (c : Chip) : Chip :=
  ({ c with zbl := { c.zbl with txc := c.zbl.txc + 1 } } : Chip).bump R.ZBL_CNT_TX_TX 1

/-- A frame of this head as it stands on the wire (R390, R391, R393): encrypted under the session's key, with E of its channel carried. -/
def Chip.peerWire (c : Chip) (seq : Option Nat) (opid : Nat) (retx replay : Bool) (msg : PeerMsg) : List Byte :=
  msg.wire c.zbl.txKey c.zbl.session c.pos (seq.getD 0) (some (c.zch msg.ch).expect) opid c.zbl.txc retx replay

/-- One frame put on the link. -/
def Chip.peerFrame (c : Chip) (ch : Nat) (seq : Option Nat) (opid : Nat) (retx replay : Bool) (msg : PeerMsg) : Chip :=
  let c := c.stepTxc
  let c := if retx then c.bump R.ZBL_CNT_RETX_RETX 1 else c
  let c := if replay then c.bump R.ZBL_CNT_REPLAY_REPLAY 1 else c
  c.emit (.peer ch seq opid c.zbl.txc retx replay msg (c.peerWire seq opid retx replay msg))

/-- How many frames a channel may keep unacknowledged (R394). -/
def Channel.window (x : Channel) : Nat := min 4096 x.win

/-- A sequenced frame sent now. -/
def Chip.peerNow (c : Chip) (ch opid : Nat) (replay : Bool) (msg : PeerMsg) : Chip :=
  let x := c.zch ch
  (c.modZch ch (fun x => { x with
    nextSeq := (x.nextSeq + 1) % 0x100000000
    ackOwed := false
    sentAt := if x.unacked.isEmpty then c.now else x.sentAt
    unacked := x.unacked ++ [⟨x.nextSeq, 1, opid, msg⟩] })).peerFrame ch (some x.nextSeq) opid false replay msg

/-- A sequenced frame sent, or kept until the window admits it; nothing is sent while no session runs. -/
def Chip.peerSendR (c : Chip) (ch opid : Nat) (replay : Bool) (msg : PeerMsg) : Chip :=
  if !c.linkUp then c
  else
    let x := c.zch ch
    if x.waiting.isEmpty && decide (x.unacked.length < x.window) then c.peerNow ch opid replay msg
    else c.modZch ch (fun x => { x with waiting := x.waiting ++ [(opid, msg)] })

/-- A sequenced frame sent with no REPLAY bit. -/
def Chip.peerSend (c : Chip) (ch opid : Nat) (msg : PeerMsg) : Chip := c.peerSendR ch opid false msg

/-- Waiting frames sent while the window admits them. -/
def Chip.pump (c : Chip) (ch : Nat) : Nat → Chip
  | 0 => c
  | fuel + 1 =>
    let x := c.zch ch
    match x.waiting with
    | [] => c
    | w :: rest =>
      if x.unacked.length < x.window then
        Chip.pump ((c.modZch ch (fun x => { x with waiting := rest })).peerNow ch w.1 false w.2) ch fuel
      else c

/-- R394: every unacknowledged frame of a channel sent again, in order, with RETX. -/
def Chip.resend (c : Chip) (ch : Nat) : Chip :=
  let frames := (c.zch ch).unacked
  let c := c.modZch ch (fun x => { x with sentAt := c.now, unacked := x.unacked.map (fun f => { f with sends := f.sends + 1 }) })
  frames.foldl (fun d f => d.peerFrame ch (some f.seq) f.opid true false f.msg) c

/-- The OPID of the next request (R395). -/
def Chip.nextReq (c : Chip) : Nat := c.pos * 2 ^ 63 + c.zbl.nextOpid

/-- A request on M, kept until its response (R395). -/
def Chip.peerAsk (c : Chip) (msg : PeerMsg) : Chip :=
  let opid := c.nextReq
  ({ c with zbl := { c.zbl with
      nextOpid := c.zbl.nextOpid + 1
      requests := c.zbl.requests ++ [⟨opid, msg, c.now⟩] } } : Chip).peerSend 1 opid msg

/-- R401: a change proposed to the peer; the proposal's OPID. -/
def Chip.propose (c : Chip) (body : Proposal) : Chip × Nat :=
  let opid := c.nextReq
  let a : Agreement := { opid := opid, body := body, stamp := c.now, at_ := c.now }
  (({ c with zbl := { c.zbl with proposals := c.zbl.proposals ++ [a] } } : Chip).peerAsk (.propose body c.now), opid)

/-- A request answered: it is asked no more. -/
def Chip.dropRequest (c : Chip) (opid : Nat) : Chip :=
  { c with zbl := { c.zbl with requests := c.zbl.requests.filter (·.opid != opid) } }

/-- A response sent and kept with the last 1024 (R395). -/
def Chip.peerReply (c : Chip) (opid : Nat) (msg : PeerMsg) : Chip :=
  let others := c.zbl.kept.filter (fun r => r.opid != opid)
  ({ c with zbl := { c.zbl with kept := (others ++ [(⟨opid, some msg⟩ : KeptReply)]).drop (others.length + 1 - 1024) } } : Chip).peerSend
    1 opid msg

/-- E has been carried on a channel. -/
def Channel.carried (x : Channel) : Channel := { x with ackOwed := false }

/-- The ACK frame of R393: E and WIN of every channel. -/
def Chip.sendAck (c : Chip) (nak : Nat) : Chip :=
  let c := (((c.modZch 0 Channel.carried).modZch 1 Channel.carried).modZch 2 Channel.carried).stepTxc
  let acks := [c.zbl.chC.expect, c.zbl.chM.expect, c.zbl.chB.expect]
  let wins := [4096, 4096, 4096]
  c.emit (.peerAck c.zbl.txc acks wins nak (c.peerWire none 0 false false (.ack acks wins nak)))

/-- A NOTICE frame (Table 12-6): 1 HOST_DOWN, 2 HOST_UP, 3 PFAIL, 4 DEPART, 5 YIELD. -/
def Chip.notice (c : Chip) (kind strings : Nat) : Chip := c.peerSend 0 0 (.notice kind strings c.now)

end Sys2Proof.Machine
end

