-- ==== Sys2Proof/Machine/FtmOps.lean ====
section
/-!
DEFINITION. What flash translation shares: the journal, media operations, bands, stripes and page headers (chapters 5, 9 and 10).
-/
namespace Sys2Proof.Machine

/-- Whether a record is a data record (R146): it refers to bytes in the write buffer, and no copy of it goes to the peer (R409). -/
def JRec.isData (r : JRec) : Bool := r.kind.code == 4

/-- A journal record's bytes: what it holds, and its SHA-256 (R169). -/
def JRec.image (r : JRec) : List Byte := Config.recordImage r.rsn r.epoch r.kind.code

/-- The SHA-256 over journal records in order. -/
def recordsSha (l : List JRec) : Nat := beNat (sha256 (l.flatMap JRec.image))

/-- R168, R169: a record appended to the journal with the next RSN, the epoch and its SHA-256; R409: a copy goes to a peer in service. -/
def Chip.append (c : Chip) (kind : JKind) : Chip :=
  let r : JRec := { rsn := c.ing.nextRsn, epoch := c.epoch, kind := kind, bytes := Config.recordBytes kind.code }
  let r := { r with sha := recordsSha [r] }
  let c := { c with ing := { c.ing with nextRsn := (c.ing.nextRsn + 1) % 0x100000000, journal := c.ing.journal ++ [r] } }
  if c.peerIn && !r.isData then c.peerSend 1 0 (.record r.rsn r.epoch kind) else c

/-- R168: both vault regions hold a record; with one catalogue shelf out of service, the other does. -/
def Chip.isVaulted (c : Chip) (r : JRec) : Bool :=
  (c.ing.cat0Up || c.ing.cat1Up) && (r.vault0 || !c.ing.cat0Up) && (r.vault1 || !c.ing.cat1Up)

/-- Bytes of the records not yet vaulted. -/
def Chip.unvaulted (c : Chip) : Nat :=
  sumOf ((c.ing.journal.filter (fun r => !c.isVaulted r)).map (·.bytes))

/-- Whether a survivor readmits its peer, from the moment it sends STATE (R420). -/
def Chip.readmitting (c : Chip) : Bool :=
  match c.zbl.rejoin with
  | some r => r.survivor
  | none => false

/-- The caps of Table 5-2: the flush load, and the unvaulted records of it. -/
def Chip.flushCaps (c : Chip) : Nat × Nat :=
  let load := if c.on R.GLB_STATUS_SOLE && !c.readmitting then 0x40000000 else 0x20000000
  if c.ing.cat0Up && c.ing.cat1Up then (load, 0x4000000) else (load / 2, 0x2000000)

/-- The journal ring's bytes in use: a record's space is released once it is durable and written back (R168, R286). -/
def Chip.ringUsed (c : Chip) : Nat := sumOf (c.ing.journal.map (·.bytes))

/-- Whether another record may be appended now: the ring has room (R168), the records not yet vaulted are within their cap (R146), and no flush
is under way (Table 5-6). -/
def Chip.ringOpen (c : Chip) : Bool :=
  decide (c.ringUsed < 0x80000000) && decide (c.unvaulted ≤ c.flushCaps.2) && c.ing.flushStart.isNone

/-- A string. -/
def Chip.strg (c : Chip) (str : Nat) : Strg := Sparse.get {} c.isf.strings str

/-- A string changed. -/
def Chip.modStrg (c : Chip) (str : Nat) (f : Strg → Strg) : Chip :=
  { c with isf := { c.isf with strings := Sparse.set {} c.isf.strings str (f (c.strg str)) } }

/-- What this head knows of the bridge at a position. -/
def Chip.view (c : Chip) (str pos : Nat) : BridgeView := Sparse.get {} (c.strg str).views pos

/-- That knowledge changed. -/
def Chip.modView (c : Chip) (str pos : Nat) (f : BridgeView → BridgeView) : Chip :=
  c.modStrg str (fun s => { s with views := Sparse.set {} s.views pos (f (Sparse.get {} s.views pos)) })

/-- A CTRL payload put in line for a bridge with which this head has a session. -/
def Chip.ctrlTo (c : Chip) (str pos : Nat) (p : StrPayload) : Chip :=
  c.modView str pos (fun v => if v.lend.session = 0 then v else { v with lend := { v.lend with queue := v.lend.queue ++ [(0, p)] } })

/-- OP of a media operation (Table 9-8). -/
def opCode : MediaReq → Nat
  | .read .. => 1
  | .readHdr _ => 2
  | .program .. => 3
  | .erase _ => 4
  | .copy .. => 5
  | .blockInfo _ => 6
  | .retire _ => 7
  | .geometry => 8
  | .rootGet => 9
  | .rootSet .. => 10

/-- The retry level of a READ, 0 for others (Table 11-8). -/
def opLevel : MediaReq → Nat
  | .read _ lv => lv
  | _ => 0

/-- The die that an operation keeps busy: of a program, an erase or a copy's destination (R184). -/
def busyDie : MediaReq → Option Nat
  | .program p .. => some (p / 2 ^ 35)
  | .erase p => some (p / 2 ^ 35)
  | .copy _ d .. => some (d / 2 ^ 35)
  | _ => none

/-- The die that a page read goes to. -/
def readDie : MediaReq → Option Nat
  | .read p _ => some (p / 2 ^ 35)
  | _ => none

/-- R184: a request put in line for a bridge: a page read goes before the programs and erases of its die that have not begun. -/
def inLine (q : List (Nat × StrPayload)) (opid : Nat) (op : MediaReq) : List (Nat × StrPayload) :=
  let later := fun (e : Nat × StrPayload) => match e.2 with
    | .req o => (readDie op).isSome && busyDie o == readDie op
    | _ => false
  q.takeWhile (fun e => !later e) ++ [(opid, .req op)] ++ q.dropWhile (fun e => !later e)

/-- R370: a media operation put in line as a REQ with the next OPID, where this head has a session with the shelf's bridge. -/
def Chip.frameOp (c : Chip) (sh tag : Nat) (op : MediaReq) : Chip :=
  let e := c.shelfEnt sh
  c.modView e.str e.pos (fun v =>
    let l := v.lend
    if !e.present || l.session = 0 then v
    else
      let opid := l.nextOpid
      { v with lend := { l with nextOpid := (opid + 1) % 0x100000000, queue := inLine l.queue opid op, ops := l.ops ++ [(opid, tag)] } })

/-- What the summary of a band will say of a page programmed into it (R273). -/
def Chip.notePage (c : Chip) (sh band ppa la flags seq : Nat) : Chip :=
  c.modShelf sh (fun s =>
    let b := Sparse.get {} s.bands band
    let bpage := ppa % 8192 * 64 + (b.blocks.idxOf? (ppa / 8192 * 8192)).getD 0
    { s with bands := Sparse.set {} s.bands band { b with log := b.log ++ [(bpage, la, flags, seq)] } })

/-- The grains of a shelf-map entry: page, band, band page and SEQ_TAG (R276). -/
def MapEnt.grains : MapEnt → List (Nat × Nat × Nat × Nat)
  | .coarse e band bpage tag => (List.range (2 ^ (e - 14))).map (fun i => (i, band, bpage + i, (tag + i) % 0x10000))
  | .grained _ g => g
  | _ => []

/-- The LA of the page that a shelf's map has at a PPA. -/
def ShelfInfo.laAt (s : ShelfInfo) (ppa : Nat) : Nat :=
  (s.map.findSome? (fun e => (e.2.grains.find? (fun g =>
    let b := Sparse.get {} s.bands g.2.1
    b.blocks.getD (g.2.2.1 % 64) 0 + g.2.2.1 / 64 == ppa)).map (fun g => e.1 * 1024 + g.1))).getD 0

/-- The page that an operation programs, noted for its band's summary. -/
def Chip.noteOp (c : Chip) (sh : Nat) (op : MediaReq) : Chip :=
  match op with
  | .program p h _ => if bitOf h.flags 1 then c else c.notePage sh h.band p h.la h.flags h.seq
  | .copy src dst seq band _ => c.notePage sh band dst ((c.shelf sh).laAt src) 0 seq
  | _ => c

/-- A media operation sent to a shelf's bridge (R307). -/
def Chip.media (c : Chip) (sh : Nat) (op : MediaReq) : Chip :=
  let c := c.noteOp sh op
  let tag := c.ftm.nextOp
  let c := match op with
    | .read .. => c.bump R.FTM_CNT_READS_READS 1
    | _ => c
  (({ c with ftm := { c.ftm with nextOp := tag + 1, ops := c.ftm.ops ++ [⟨tag, sh, op, c.now, false, 0, 0⟩] } } : Chip).emit
    (.media tag sh op)).frameOp sh tag op

/-- What is done for a background use: the operations it sends carry that use (R303, R328, R335). 1 is compaction, 3 the rebuild, 4 the rebuild of a
stripe of margin 0, 5 the scrub. -/
def Chip.usedFor (c : Chip) (use : Nat) (f : Chip → Chip) : Chip :=
  let d := f c
  { d with ftm := { d.ftm with ops := modifyAll (fun (o : MediaOp) => decide (c.ftm.nextOp ≤ o.tag)) (fun o => { o with use := use }) d.ftm.ops } }

/-- A band of a shelf. -/
def ShelfInfo.band (s : ShelfInfo) (b : Nat) : Band := Sparse.get {} s.bands b

/-- A band changed. -/
def Chip.modBand (c : Chip) (sh b : Nat) (f : Band → Band) : Chip :=
  c.modShelf sh (fun s => { s with bands := Sparse.set {} s.bands b (f (s.band b)) })

/-- The PPA of a band page (R272). -/
def Band.ppa (b : Band) (bpage : Nat) : Nat := b.blocks.getD (bpage % 64) 0 + bpage / 64

/-- Whether this head owns a string: it is the head that beacons there (R21, R361). -/
def Chip.ownsStr (c : Chip) (str : Nat) : Bool := (c.strg str).beaconing

/-- Whether this head may open a free band: it holds the band by lease, or owns the shelf's string and has not leased it out (R287). -/
def Chip.mayOpen (c : Chip) (sh b : Nat) : Bool :=
  match c.zbl.bandLeases.find? (fun l => l.1 == sh && l.2.1 == b) with
  | some l => l.2.2 == c.pos
  | none => c.ownsStr (c.shelfEnt sh).str

/-- `n` SEQ values reserved on a shelf (R274): the first; the rest follow in steps of 2. -/
def Chip.takeSeq (c : Chip) (sh n : Nat) : Chip × Nat :=
  let s := c.shelf sh
  let base := if s.seqCtr % 2 = c.pos then s.seqCtr else s.seqCtr + 1
  (c.modShelf sh (fun s => { s with seqCtr := base + 2 * n, maxSeq := max s.maxSeq (base + 2 * (n - 1)) }), base)

/-- The CHECK of a page (Table 9-3). -/
def pageCheck (h : PageHdr) (data : List Byte) : Nat := crc32c (headerBytes h ++ data)

/-- A header with its CHECK. -/
def sealHdr (h : PageHdr) (data : List Byte) : PageHdr := { h with check := pageCheck h data }

/-- The array's ARRAY_TAG (R273). -/
def Chip.arrayTag (c : Chip) : Nat :=
  match c.kcf.active with
  | some i => i.arrayId % 0x100000000
  | none => 0

/-- A shelf's NAND. -/
def Chip.nandOf (c : Chip) (sh : Nat) : Nand := Sparse.get {} c.ftm.nand sh

/-- A block put in its place among those ranked by erase count. -/
def Chip.putByErases (c : Chip) (sh p : Nat) : List Nat → List Nat
  | [] => [p]
  | x :: l =>
    let e := fun (y : Nat) => (Sparse.get {} (c.nandOf sh).blocks y).erases
    if e p < e x then p :: x :: l else x :: c.putByErases sh p l

/-- Of blocks in order, the first of each die-plane. -/
def firstOfPlanes (l : List Nat) : List Nat :=
  l.foldl (fun a p => if a.any (fun q => q / 2 ^ 32 == p / 2 ^ 32) then a else a ++ [p]) []

/-- R272, R304: the free bands formed anew, the first of the 64 free blocks with the lowest erase counts, of different die-planes where the geometry
allows it. -/
def Chip.formBands (c : Chip) (sh : Nat) (free : List (Nat × Band)) : Chip :=
  let pool := (free.flatMap (fun b => b.2.blocks)).foldl (fun a p => c.putByErases sh p a) []
  let low := pool.take 64
  let first := firstOfPlanes pool
  let picked := if first.length < 64 then low else first.take 64
  let all := picked ++ pool.filter (fun p => !picked.contains p)
  (List.range free.length).foldl (fun d i => match free[i]? with
    | some b => d.modBand sh b.1 (fun x => { x with blocks := (all.drop (64 * i)).take 64 })
    | none => d) c

/-- LA of a page that only fills a band up (log entry 108). -/
def fillerLa : Nat := 0xFFFFFFFFFFFF

/-- The 1024 entries of a summary page (R273). -/
def Band.summary (b : Band) (j : Nat) : List Byte :=
  (List.range 1024).flatMap (fun i => match b.log.find? (fun e => e.1 == j * 1024 + i) with
    | some (_, la, flags, seq) => natLe la 6 ++ natLe flags 1 ++ [0#8] ++ natLe seq 8
    | none => List.replicate 16 0#8)

/-- R272, R273: a band closed: its last P / 16 pages are programmed as its summary; pages before them that no extent fits into are filled with zeros,
since a block is programmed in page order (log entry 108). -/
def Chip.closeBand (c : Chip) (sh b : Nat) : Chip :=
  let x := (c.shelf sh).band b
  let room := bandPages (c.shelf sh).geo
  let n := 64 * (c.shelf sh).geo.pages - x.next
  let c := c.modBand sh b (fun y => { y with state := 2, next := y.next + n })
  let (c, seq) := c.takeSeq sh n
  (List.range n).foldl (fun d i =>
    let at_ := x.next + i
    let fills := decide (at_ < room)
    let data := if fills then List.replicate 16384 0#8 else x.summary (at_ - room)
    let h : PageHdr := ⟨if fills then 1 else 2, sh, d.arrayTag, if fills then fillerLa else 0, seq + 2 * i, b, d.epoch, 0⟩
    d.media sh (.program (x.ppa at_) (sealHdr h data) data)) c

/-- The open band of this head on a shelf with room for `n` pages; a full one is closed and a free one opened, ingest leaving FTM_RESERVE free bands
(R298, R299). `kind` names data, relocation or metadata bands. -/
def Chip.bandFor (c : Chip) (sh n kind : Nat) : Option (Chip × Nat) :=
  let s := c.shelf sh
  let room := bandPages s.geo
  let mine := fun (b : Nat × Band) => b.2.state == 1 && b.2.head == c.pos && b.2.kind == kind
  match s.bands.find? (fun b => mine b && decide (b.2.next + n ≤ room)) with
  | some b => some (c, b.1)
  | none =>
    let free := s.bands.filter (fun b => b.2.state == 0 && b.2.blocks.length == 64 && c.mayOpen sh b.1)
    let spare := (s.bands.filter (fun b => b.2.state == 0)).length
    if decide (spare ≤ c.ftmCtl R.FTM_MEDIA_CTRL_RESERVE) && kind == 0 then none
    else
      match free with
      | [] => none
      | b :: _ =>
        if n ≤ room then
          let c := (s.bands.filter mine).foldl (fun d e => d.closeBand sh e.1) c
          some ((c.formBands sh free).modBand sh b.1 (fun x => { x with state := 1, next := 0, head := c.pos, kind := kind, log := [] }), b.1)
        else none

/-- The programs of an extent's pages sent, from the bytes at `src` in DRAM. -/
def Chip.programExtent (c : Chip) (sh seid band bpage seq src n : Nat) : Chip :=
  (List.range n).foldl (fun d i =>
    let data := d.load (src + i * 16384) 16384
    let h : PageHdr := ⟨0, sh, d.arrayTag, seid * 1024 + i, seq + 2 * i, band, d.epoch, 0⟩
    d.media sh (.program (((d.shelf sh).band band).ppa (bpage + i)) (sealHdr h data) data)) c

/-- A shelf-map entry set. -/
def Chip.setMap (c : Chip) (sh seid : Nat) (e : MapEnt) : Chip :=
  c.modShelf sh (fun s => { s with map := Sparse.set MapEnt.free s.map seid e })

/-- The shelf of a cohort on a string. -/
def Chip.shelfOn (c : Chip) (cohort str : Nat) : Option Nat :=
  (c.topology.find? (fun e => e.2.cohort == cohort && e.2.str == str)).map (·.1)

/-- One strip of a stripe placed (R298): its extent taken in an open band, mapped coarse, and programmed. None where its shelf takes
no extent. -/
def Chip.placeStrip (c : Chip) (cohort seid str src : Nat) (l : LayoutEnt) : Option Chip :=
  match c.shelfOn cohort str with
  | none => none
  | some sh =>
    match c.bandFor sh l.pages 0 with
    | none => none
    | some (c, b) =>
      let bpage := ((c.shelf sh).band b).next
      let (c, seq) := c.takeSeq sh l.pages
      let c := c.modBand sh b (fun x => { x with next := x.next + l.pages, live := x.live + l.pages })
      let c := c.setMap sh seid (.coarse l.extLog2 b bpage (seq / 2 % 0x10000))
      some (c.programExtent sh seid b bpage seq src l.pages)

/-- The cohort that a new stripe of a class goes to (R297). -/
def Chip.stripeCohort (c : Chip) (cls : Nat) : Option Nat :=
  let fits := fun k =>
    let w := (c.layoutOf cls).width
    c.seidLeft k && decide (0 < w) && decide (w ≤ ((c.cohortShelves k).filter (fun sh => c.eligible sh && (c.shelf sh).state == 3)).length)
  match c.ingestCohort with
  | some k => if fits k then some k else (c.awakeCohorts.filter fits).head?
  | none => none

/-- A cohort asked for: the moment of asking and the rank (0 a read just arrived, 2 the lowest). -/
def Chip.askCohort (c : Chip) (k rank : Nat) : Chip :=
  if c.ftm.switchWanted.any (·.1 == k) then c
  else { c with ftm := { c.ftm with switchWanted := c.ftm.switchWanted ++ [(k, c.now, rank)] } }

/-- R622: bytes of a deferred log, 16 an entry (log entry 18). -/
def Chip.deferBytes (c : Chip) (k : Nat) : Nat := 16 * (Sparse.get [] c.ftm.deferred k).length

/-- R622: the cohorts whose deferred log is at its cap, or has been and is not yet below 90 % of it. -/
def Chip.shutDefers (c : Chip) : List Nat :=
  let cap := c.ftmCtl R.FTM_DEFER_CAP_CAP
  (List.range 8).filter (fun k => decide (cap ≤ c.deferBytes k) || (c.ftm.deferShut.contains k && decide (cap * 9 ≤ c.deferBytes k * 10)))

/-- The lowest SEID of this head's parity that is free in a cohort's stripe table (R621). -/
def Chip.freeSeid (c : Chip) (cohort : Nat) : Nat :=
  let used := (c.ftm.stripes.filter (fun s => s.cohort == cohort && s.state != 0)).map (·.seid)
  (((List.range (used.length + 1)).map (fun i => 2 * i + c.pos)).find? (fun n => !used.contains n)).getD c.pos

/-- R313: the strings of a stripe's strips. -/
def rotation (seid w : Nat) (strings : List Nat) : List Nat :=
  let n := strings.length
  (List.range w).map (fun j => strings.getD ((seid / 2 % n + j) % n) 0)

/-- The extent buffers of the open stripe in slot `i` (Table 2-8, type 7). -/
def Chip.extentBufs (c : Chip) (i w extent : Nat) : List Nat :=
  let base := (((c.carve 7).head?).map (·.base)).getD 0
  (List.range w).map (fun j => base + (i * 16 + j) * extent)

/-- R298: a stripe opened for a class in a cohort: its SEID, its strings by R313, its extent buffers. None where the cohort does not
take it. -/
def Chip.openStripeIn (c : Chip) (k cls : Nat) (shadow : Bool) : Option (Chip × OpenStripe) :=
  let w := (c.layoutOf cls).width
  let n := ((c.cohortShelves k).filter (fun sh => c.eligible sh && (c.shelf sh).state == 3)).length
  if !c.cohortAwake k || w = 0 || decide (n < w) then none
  else
    let l := c.layoutOf cls
    let seid := c.freeSeid k
    let strings := ((c.cohortShelves k).filter (fun sh => c.eligible sh && (c.shelf sh).state == 3)).map
      (fun sh => (c.shelfEnt sh).str)
    let slot := ((List.range (c.ing.stripes.length + (c.ftm.stripes.filter (·.stripsLeft != 0)).length + 1)).find? (fun i =>
      !(c.ing.stripes.any (fun s => s.bufs.head? == (c.extentBufs i l.width l.extent).head?)) &&
      !(c.ftm.stripes.any (fun s => s.stripsLeft != 0 && s.bufs.head? == (c.extentBufs i l.width l.extent).head?)))).getD 0
    let os : OpenStripe := ⟨seid, cls, 0, 0, l.dataStrips, none, c.extentBufs slot l.width l.extent, k, shadow⟩
    let ent : StripeEnt := { cohort := k, seid := seid, cls := cls, state := 1, map := rotation seid l.width strings, shadow := shadow }
    let others := c.ftm.stripes.filter (fun s => !(s.cohort == k && s.seid == seid))
    some ({ c with
      ing := { c.ing with stripes := c.ing.stripes ++ [os] }
      ftm := { c.ftm with stripes := others ++ [ent] } }, os)

/-- A stripe opened for a class in the cohort that R297 names. -/
def Chip.openStripe (c : Chip) (cls : Nat) : Option (Chip × OpenStripe) :=
  match c.stripeCohort cls with
  | none => none
  | some k => (c.openStripeIn k cls false).map (fun p => (p.1.askSpace, p.2))

/-- The entry of an open stripe. -/
def Chip.openEnt (c : Chip) (os : OpenStripe) : Option StripeEnt :=
  c.ftm.stripes.find? (fun s => s.cohort == os.cohort && s.seid == os.seid && s.state == 1)

/-- The data extents of an open stripe that hold records. -/
def OpenStripe.strips (os : OpenStripe) : Nat := if os.used = 0 then os.extent else os.extent + 1

/-- R163: what is left of the open extent of a stripe filled with zeros. -/
def Chip.fillExtent (c : Chip) (os : OpenStripe) : Chip :=
  c.store (os.bufs.getD os.extent 0 + os.used) (List.replicate ((c.layoutOf os.cls).extent - os.used) 0#8)

/-- R316: the parity over the first `strips` data extents of an open stripe in its parity buffers; the others count as zeros (R164). -/
def Chip.encodeStripe (c : Chip) (os : OpenStripe) (strips : Nat) : Chip :=
  let l := c.layoutOf os.cls
  let data := (List.range (min strips l.dataStrips)).map (fun j => (c.load (os.bufs.getD j 0) l.extent).map (·.toNat))
  let p := stripOut (parityP l.extent data)
  let q := stripOut (parityQ l.extent data)
  match l.kind with
  | 3 => c.store (os.bufs.getD l.dataStrips 0) p
  | 4 => (c.store (os.bufs.getD l.dataStrips 0) p).store (os.bufs.getD (l.dataStrips + 1) 0) q
  | _ => c

/-- R164: a stripe sealed with data in its first `strips` data extents: strips with data and the parity strips are placed and
programmed, the rest become zero strips (R298), and a map record is journalled (R287). Where a strip finds no extent the stripe stays open, as a
stripe is programmed whole or not at all; its buffers are kept until every strip is programmed (R315). -/
def Chip.sealStripe (c : Chip) (os : OpenStripe) (strips : Nat) : Chip :=
  match c.openEnt os with
  | none => { c with ing := { c.ing with stripes := c.ing.stripes.filter (fun s => !(s.seid == os.seid && s.cohort == os.cohort)) } }
  | some ent =>
    let l := c.layoutOf os.cls
    let mirror := l.kind == 1 || l.kind == 2
    let whole := c
    let c := (c.fillExtent os).encodeStripe os strips
    let c := { c with ing := { c.ing with stripes := c.ing.stripes.filter (fun s => !(s.seid == os.seid && s.cohort == os.cohort)) } }
    let placed := (List.range l.width).foldl (fun (p : Option (Chip × Nat)) j =>
      match p with
      | none => none
      | some (c, left) =>
        let str := ent.map.getD j 0
        if mirror || decide (j < strips) || decide (l.dataStrips ≤ j) then
          (c.placeStrip ent.cohort os.seid str (os.bufs.getD (if mirror then 0 else j) 0) l).map (fun c => (c, left + l.pages))
        else (c.shelfOn ent.cohort str).map (fun sh => (c.setMap sh os.seid (.zero l.extLog2), left))) (some (c, 0))
    match placed with
    | none => whole
    | some (c, left) => (c.append .other).modStripe ent.cohort os.seid (fun s =>
        { s with state := 2, sealEpoch := c.epoch, stripsLeft := left, bufs := os.bufs })

/-- A metadata page to be written back again. -/
def Chip.markDirty (c : Chip) (sh page : Nat) : Chip :=
  c.modShelf sh (fun s => if s.dirty.any (·.1 == page) then s else { s with dirty := s.dirty ++ [(page, c.epoch)] })

/-- The first page number of the index area (the model's own page numbers; log entry 23): windows' pages, then deferred logs, then the lost table. -/
def indexBase : Nat := 2 ^ 44
/-- The index-area page of a window of a namespace: its cohort index and tag runs (R281, R282). -/
def indexPageNo (nsid window : Nat) : Nat := indexBase + nsid * 2 ^ 24 + window
/-- The page of a cohort's deferred log (R284). -/
def deferPageNo (cohort : Nat) : Nat := 2 * indexBase + cohort
/-- The page of the lost table (R331). -/
def lostPageNo : Nat := 4 * indexBase

/-- An index-area page marked dirty; both catalogue shelves hold a copy, so one of them stands for it (R290). -/
def Chip.dirtyIndex (c : Chip) (page : Nat) : Chip :=
  match c.catShelves.find? (fun sh => (c.shelf sh).state == 3) with
  | some sh => c.markDirty sh page
  | none => c

/-- The cohort index's value for a block: 0xF where it has none (R281). -/
def Chip.indexOf (c : Chip) (nsid lba : Nat) : Nat := Sparse.get 0xF c.ftm.index (nsid * 2 ^ 44 + lba)

/-- The placement entry of a block (R280). -/
def Chip.placeOf (c : Chip) (nsid lba : Nat) : Option PlaceEnt :=
  c.ftm.places.find? (fun e => e.nsid == nsid && e.window == lba / 16384 && decide (e.start ≤ lba % 16384) &&
    decide (lba % 16384 < e.start + e.count))

/-- Whether a block lies in an LBA range recorded lost (KIND 3, R333). -/
def Chip.lostBlock (c : Chip) (nsid lba : Nat) : Bool :=
  c.rde.lost.any (fun e => e.kind == 3 && e.id == nsid && decide (e.firstLba ≤ lba) && decide (lba < e.firstLba + e.blocks))

end Sys2Proof.Machine
end

