-- ==== Sys2Proof/Machine/Lists.lean ====
section
/-!
DEFINITION. Where a command's data lies in host memory (R91, R120, R128): PRP entries and lists, SGL descriptors and segments, and the reads
that follow them.
-/
namespace Sys2Proof.Machine

/-- Invalid SGL Segment Descriptor (Table 4-10). -/
def stSegment : Status := ⟨0, 0x0D, true⟩
/-- Data SGL Length Invalid. -/
def stSglLength : Status := ⟨0, 0x0F, true⟩
/-- SGL Descriptor Type Invalid. -/
def stSglType : Status := ⟨0, 0x11, true⟩
/-- PRP Offset Invalid. -/
def stPrp : Status := ⟨0, 0x13, true⟩

/-- An SGL descriptor: 0 a Data Block, 2 a Segment, 3 the Last Segment (log entry 86). -/
structure Sgl where
  addr : Nat
  len : Nat
  typ : Nat
  deriving DecidableEq, Repr

/-- The descriptor that 16 bytes spell. -/
def sglOf (d : DPtr) : Sgl := ⟨d.lo % 2 ^ 64, d.hi % 2 ^ 32, d.hi / 2 ^ 60 % 16⟩

/-- Whether an address or a length of a descriptor breaks R120. -/
def Sgl.unaligned (x : Sgl) : Bool := x.addr % 4 != 0 || x.len % 4 != 0

/-- R120: the form of a command that moves the given bytes of data. -/
def badForm (f : CmdForm) (bytes : Nat) : Bool :=
  f.fuse != 0 || f.psdt == 3 || decide (0x200000 < bytes) ||
  (f.psdt != 0 && bytes != 0 && (!([0, 2, 3].contains (sglOf f.dptr).typ) || (sglOf f.dptr).unaligned))

/-- Entries of a PRP list from an address on: each is a page of the data, and the last of a page of entries names the page of entries that follows
where more than one page of data is left. -/
def prpTake (page want : Nat) : List Nat → Nat → HostBuf → Except Status (Nat × HostBuf)
  | [], addr, buf => .ok (addr, buf)
  | e :: es, addr, buf =>
    let left := want - bufLen buf
    if left = 0 then .ok (addr, buf)
    else if (addr + 8) % page = 0 && decide (page < left) then (if e % 8 = 0 then .ok (e, buf) else .error stPrp)
    else if e % 4096 ≠ 0 then .error stPrp
    else prpTake page want es (addr + 8) (buf ++ [(e, min page left)])

/-- Where a segment starts, its length, and whether it is the last. -/
def segStart (d : Sgl) : Except Status (Nat × Nat × Bool) :=
  if d.addr % 4 ≠ 0 then .error stField
  else if d.len = 0 || d.len % 16 ≠ 0 then .error stSegment
  else .ok (d.addr, d.len, d.typ == 3)

/-- Descriptors of a segment, `rest` its bytes from them on: only the last descriptor of a segment that is not the last one names another. -/
def sglTake : List Sgl → Nat → Nat → Bool → HostBuf → Except Status ((Nat × Nat × Bool) × HostBuf)
  | [], addr, rest, last, buf => .ok ((addr, rest, last), buf)
  | d :: ds, addr, rest, last, buf =>
    if d.typ = 0 then
      if d.unaligned then .error stField
      else sglTake ds (addr + 16) (rest - 16) last (if d.len = 0 then buf else buf ++ [(d.addr, d.len)])
    else if d.typ = 2 || d.typ = 3 then
      if last || decide (rest ≠ 16) then .error stSegment else (segStart d).map (fun p => (p, buf))
    else .error stSglType

/-- The end of the data's or the metadata's description: the pieces must come to the length wanted. Separate metadata is one buffer at MPTR, or, with
PSDT 0b10, what the descriptor there names (R128, log entry 86). -/
def ListWalk.endPart (w : ListWalk) : Except Status (ListWalk ⊕ HostBuf) :=
  if bufLen w.found ≠ w.want then .error stSglLength
  else if w.mlen = 0 then .ok (.inr w.found)
  else if w.form.psdt = 2 then .ok (.inl { w with sgl := true, addr := w.form.mptr, rest := 16, last := false, want := w.want + w.mlen, mlen := 0 })
  else .ok (.inr (w.found ++ [(w.form.mptr, w.mlen)]))

/-- What a command's own fields say of its buffer: all of it, or where a list begins. -/
def ListWalk.begin (w : ListWalk) : Except Status (ListWalk ⊕ HostBuf) :=
  let d := w.form.dptr
  if w.want = 0 then w.endPart
  else if w.form.psdt = 0 then
    let first := min w.want (w.page - d.lo % w.page)
    let w := { w with found := [(d.lo, first)] }
    if w.want = first then w.endPart
    else if w.want - first ≤ w.page then
      if d.hi % 4096 ≠ 0 then .error stPrp else { w with found := w.found ++ [(d.hi, w.want - first)] }.endPart
    else if d.hi % 8 ≠ 0 then .error stPrp
    else .ok (.inl { w with addr := d.hi })
  else if (sglOf d).typ = 0 then { w with found := [((sglOf d).addr, (sglOf d).len)] }.endPart
  else (segStart (sglOf d)).map (fun p => .inl { w with sgl := true, addr := p.1, rest := p.2.1, last := p.2.2 })

/-- Bytes of the next read of a list: up to 512, to the segment's end or the page's. -/
def ListWalk.bytes (w : ListWalk) : Nat :=
  if w.sgl then min 512 w.rest
  else 8 * min 64 (min (ceilDiv (w.want - bufLen w.found) w.page) ((w.page - w.addr % w.page) / 8))

/-- Bytes of a list taken up. -/
def ListWalk.take (w : ListWalk) (bs : List Byte) : Except Status (ListWalk ⊕ HostBuf) :=
  let at_ := fun (k n : Nat) => leNat ((bs.drop k).take n)
  if w.sgl then
    let ds := (List.range (bs.length / 16)).map (fun i => sglOf ⟨at_ (16 * i) 8, at_ (16 * i + 8) 8⟩)
    match sglTake ds w.addr w.rest w.last w.found with
    | .error st => .error st
    | .ok (p, buf) =>
      let w := { w with addr := p.1, rest := p.2.1, last := p.2.2, found := buf }
      if w.rest = 0 then w.endPart else .ok (.inl w)
  else
    match prpTake w.page w.want ((List.range (bs.length / 8)).map (fun i => at_ (8 * i) 8)) w.addr w.found with
    | .error st => .error st
    | .ok (a, buf) =>
      let w := { w with addr := a, found := buf }
      if bufLen buf = w.want then w.endPart else .ok (.inl w)

/-- The buffer of the firmware region that the bytes of a list arrive in (log entry 19). -/
def Chip.listBuf (c : Chip) (slot : Nat) : Nat := c.dramSize - 0xC400000 + 512 * slot

/-- The first such buffer not in use. -/
def Chip.listSlot (c : Chip) : Nat :=
  ((List.range (c.ing.walks.length + 1)).find? (fun k => !c.ing.walks.any (fun w => w.slot == k))).getD 0

/-- What a read of a list is for (Table 3-6). -/
def ListWalk.purpose (w : ListWalk) : Purpose :=
  match w.goal with
  | .write => .list w.id
  | .input => .list w.id
  | .send _ _ _ rd => if rd then .readList w.id else .list w.id

/-- A walk kept until its next event. -/
def Chip.keepWalk (c : Chip) (w : ListWalk) : Chip := { c with ing := { c.ing with walks := c.ing.walks ++ [w] } }

/-- A walk over. -/
def Chip.dropWalk (c : Chip) (id : CmdId) : Chip := { c with ing := { c.ing with walks := c.ing.walks.filter (fun w => w.id != id) } }

/-- A walk goes on: it reads more of its list, or gives its pieces or a status. Bytes to send wait until the function may issue requests (R81). -/
def Chip.walk (c : Chip) (w : ListWalk) (r : Except Status (ListWalk ⊕ HostBuf)) : Chip × Option (Except Status HostBuf) :=
  match r with
  | .error st => (c, some (.error st))
  | .ok (.inr buf) =>
    if w.goal == .write || w.goal == .input || c.mayRequest w.id.fn then (c, some (.ok buf)) else (c.keepWalk { w with found := buf, ready := true }, none)
  | .ok (.inl w) =>
    let w := { w with slot := c.listSlot }
    ((c.keepWalk w).startRead w.id.fn w.purpose [(w.addr, w.bytes)] (c.listBuf w.slot), none)

/-- A function's memory page size in bytes (CC.MPS). -/
def Chip.pageSize (c : Chip) (fn : Nat) : Nat := 4096 * 2 ^ c.get (R.NVM_CC_MPS fn)

/-- A command's buffer looked up: `bytes` of data and `meta` of separate metadata. -/
def Chip.lookup (c : Chip) (id : CmdId) (form : CmdForm) (bytes meta_ : Nat) (goal : WalkGoal) : Chip × Option (Except Status HostBuf) :=
  let w : ListWalk := { id := id, goal := goal, form := form, page := c.pageSize id.fn, want := bytes, mlen := meta_ }
  c.walk w w.begin

/-- Bytes `ofs` to `ofs + len` of a host buffer. -/
def sliceBuf : HostBuf → Nat → Nat → HostBuf
  | [], _, _ => []
  | (a, n) :: rest, ofs, len =>
    if len = 0 then []
    else if n ≤ ofs then sliceBuf rest (ofs - n) len
    else
      let k := min len (n - ofs)
      (a + ofs, k) :: sliceBuf rest 0 (len - k)

/-- With RAE 0, reading a log page ends the masking of its events (R123); the list of changed namespaces starts afresh. -/
def Chip.pageRead (c : Chip) (fn lid : Nat) : Chip :=
  let c := if lid = 0x04 then { c with nvm := { c.nvm with changedNs := c.nvm.changedNs.filter (fun p => p.1 != fn) } } else c
  (c.modCtrl fn (fun k => { k with aerMasked := k.aerMasked.filter (fun m => m % 256 != lid) })).flushAsync fn

/-- Bytes written to a command's buffer and the command completed; nothing is written where the buffer's description failed. -/
def Chip.sendSpans (c : Chip) (id : CmdId) (spans : List (Nat × List Byte)) (st : Status) (page : Option Nat) (rd : Bool)
    (res : Except Status HostBuf) : Chip :=
  match res with
  | .error e => c.finish id e
  | .ok buf =>
    let c := spans.foldl (fun d p => d.hostData id.fn rd (sliceBuf buf p.1 p.2.length) p.2) c
    (match page with
      | some lid => c.pageRead id.fn lid
      | none => c).finish id st

/-- Bytes sent to a command's buffer once it is known. -/
def Chip.send (c : Chip) (id : CmdId) (form : CmdForm) (bytes meta_ : Nat) (spans : List (Nat × List Byte)) (st : Status) (page : Option Nat)
    (rd : Bool) : Chip :=
  let p := c.lookup id form bytes meta_ (.send spans st page rd)
  match p.2 with
  | none => p.1
  | some res => p.1.sendSpans id spans st page rd res

/-- A command whose data pointer the entry gives begins to execute: a form that R120 refuses ends it before any other check of its fields. -/
def Chip.executeOut (c : Chip) (id : CmdId) (opc : Nat) (dptr : DPtr) (bytes : Nat) (f : Inflight → Chip → Chip) : Chip :=
  c.execute id true opc (fun i c => if badForm { i.form with dptr := dptr } bytes then c.finish id stField else f i c)

/-- The data of an admin command returned to the host: `bs`, in a buffer that the command describes for `bytes`. -/
def Chip.returnData (c : Chip) (id : CmdId) (i : Inflight) (dptr : DPtr) (bytes : Nat) (bs : List Byte) (page : Option Nat) : Chip :=
  c.send id { i.form with dptr := dptr } bytes 0 [(0, bs)] stOk page false

/-! ### Commands that bring data -/

/-- The buffers of the firmware region that the data of commands other than Writes is read into (log entry 94). -/
def Chip.inputBuf (c : Chip) (slot : Nat) : Nat := c.dramSize - 0x10000000 + 0x200000 * slot

/-- The first such buffer not in use. -/
def Chip.inputSlot (c : Chip) : Option Nat := (List.range 30).find? (fun k => !c.nvm.inflight.any (fun i => i.input.any (fun p => p.1 == k)))

/-- The data of a command is read into its buffer, once its place in host memory is known (R87). -/
def Chip.readInput (c : Chip) (id : CmdId) (res : Except Status HostBuf) : Chip :=
  match res with
  | .error st => c.finish id st
  | .ok buf =>
    match c.flight id with
    | none => c
    | some i => match i.input with
      | none => c
      | some (slot, _) => (c.modFlight id (fun i => { i with started := true })).startRead id.fn (.cmdData id) buf (c.inputBuf slot)

/-- The data of a command has arrived (R88). -/
def Chip.inputArrived (c : Chip) (id : CmdId) : Chip := c.modFlight id (fun i => { i with input := i.input.map (fun p => (p.1, true)) })

/-- The reading of a command's data begins, into buffer `slot`: its place in host memory is looked up first. -/
def Chip.beginInput (c : Chip) (id : CmdId) (i : Inflight) (bytes slot : Nat) : Chip :=
  let p := (c.modFlight id (fun i => { i with input := some (slot, false) })).lookup id i.form bytes 0 .input
  match p.2 with
  | none => p.1
  | some res => p.1.readInput id res

/-- A fetched command that brings `bytes` of data from the host. `early` ends it where its fields alone refuse it (R121); then its data is read
(R87, R91), for which the command waits while every buffer is taken; when all of it has arrived the command executes with it (R88). -/
def Chip.executeWith (c : Chip) (id : CmdId) (admin : Bool) (opc bytes : Nat) (early : Chip → Option Chip) (f : List Byte → Chip → Chip) : Chip :=
  match c.fetched id admin opc with
  | none => c
  | some i =>
    match i.input with
    | some (_, false) => c
    | some (slot, true) =>
      c.underSections i.sect (fun c => f (c.load (c.inputBuf slot) bytes) (c.modFlight id (fun i => { i with running := true, input := none })))
    | none =>
      if admin && !c.offers id.fn opc then c.finish id stField
      else c.underSections i.sect (fun c =>
        if badForm i.form bytes then c.finish id stField
        else match early c with
        | some d => d
        | none =>
          if bytes = 0 then f [] (c.modFlight id (fun i => { i with running := true }))
          else match c.inputSlot with
          | none => c
          | some slot => c.beginInput id i bytes slot)

end Sys2Proof.Machine
end

