-- ==== Sys2Proof/Machine/Ingest.lean ====
section
/-!
DEFINITION. The ingest path (chapter 5): the write buffer, protection information, segments and chunks, completion, the journal.
-/
namespace Sys2Proof.Machine

/-- Metadata bytes of a block of an LBA format (Table 4-7). -/
def metaOf (lbaf : Nat) : Nat :=
  match lbaf with
  | 1 => 8
  | 2 => 16
  | _ => 0

/-- Bytes from one block to the next in a command's data: the metadata lies between where it is interleaved and the host supplies
it. -/
def blockStride (n : Namespace) (pract : Bool) : Nat := if n.ext && !pract then 4096 + metaOf n.lbaf else 4096

/-- Bytes of a command's separate metadata. -/
def sepMeta (n : Namespace) (pract : Bool) (nlb : Nat) : Nat := if n.ext || pract then 0 else nlb * metaOf n.lbaf

/-- Reference-tag bits of an LBA format (Table 5-3). -/
def refBits (lbaf : Nat) : Nat := if lbaf = 1 then 32 else 48

/-- A block's protection information: guard, application tag, reference tag. -/
structure BlockTags where
  guard : Nat
  app : Nat
  ref : Nat

/-- Protection information read from its bytes (Table 4-7; most significant byte first, log entry 17). -/
def parseTags (lbaf : Nat) (bs : List Byte) : BlockTags :=
  if lbaf = 1 then ⟨beNat (bs.take 2), beNat ((bs.drop 2).take 2), beNat ((bs.drop 4).take 4)⟩
  else ⟨beNat (bs.take 8), beNat ((bs.drop 8).take 2), beNat ((bs.drop 10).take 6)⟩

/-- Protection information as bytes. -/
def tagBytes (lbaf : Nat) (t : BlockTags) : List Byte :=
  if lbaf = 1 then natBe t.guard 2 ++ natBe t.app 2 ++ natBe t.ref 4
  else if lbaf = 2 then natBe t.guard 8 ++ natBe t.app 2 ++ natBe t.ref 6
  else []

/-- The guard of a block's data (R150). -/
def guardOf (lbaf : Nat) (data : List Byte) : Nat := if lbaf = 1 then guard16 data else guard64 data

/-- The protection type of a namespace: bits 2:0 of DPS. -/
def Namespace.piType (n : Namespace) : Nat := n.dps % 8

/-- The checks of Table 5-3 on one block: the status code of the first that fails. `ref0` is what a type 1 reference tag must equal. -/
def tagCheck (n : Namespace) (pr : PrInfo) (ref0 : Nat) (data : List Byte) (t : BlockTags) : Option Nat :=
  let bits := refBits n.lbaf
  let escape := t.app == 0xFFFF && (n.piType == 1 || t.ref == 2 ^ bits - 1)
  if escape then none
  else if bitOf pr.prchk 2 && t.guard != guardOf n.lbaf data then some 0x82
  else if bitOf pr.prchk 1 && (t.app &&& pr.lbatm) != (pr.lbat &&& pr.lbatm) then some 0x83
  else if bitOf pr.prchk 0 && n.piType == 1 && t.ref != ref0 % 2 ^ bits then some 0x84
  else none

/-- Whether a namespace carries protection information. -/
def Namespace.hasPi (n : Namespace) : Bool := n.lbaf != 0 && n.piType != 0

/-- A buffered write by its WID. -/
def Chip.wr (c : Chip) (wid : Nat) : Option WrBuf := c.ing.writes.find? (fun w => w.wid == wid)

/-- A buffered write changed. -/
def Chip.modWr (c : Chip) (wid : Nat) (f : WrBuf → WrBuf) : Chip :=
  { c with ing := { c.ing with writes := modifyFirst (fun w => w.wid == wid) f c.ing.writes } }

/-- Data of block `i` of a buffered write. -/
def Chip.wrData (c : Chip) (n : Namespace) (w : WrBuf) (i : Nat) : List Byte :=
  if w.zeroes then List.replicate 4096 0#8 else c.load (w.base + i * blockStride n w.pr.pract) 4096

/-- Tags of block `i` of a buffered write: its own, or those generated under R151 (and by R129 for a deallocating one). -/
def Chip.wrTags (c : Chip) (n : Namespace) (w : WrBuf) (i : Nat) : BlockTags :=
  let data := c.wrData n w i
  if w.zeroes && w.deac then ⟨guardOf n.lbaf data, 0xFFFF, 2 ^ refBits n.lbaf - 1⟩
  else if w.zeroes || w.pr.pract then
    ⟨guardOf n.lbaf data, w.pr.lbat, (w.pr.ilbrt + i) % 2 ^ refBits n.lbaf⟩
  else
    let at_ := if n.ext then w.base + i * blockStride n false + 4096 else w.mbase + i * metaOf n.lbaf
    parseTags n.lbaf (c.load at_ (metaOf n.lbaf))

/-- R150, R152: the status of a write's data: the lowest-numbered failing block's, with its index. -/
def Chip.scanWrite (c : Chip) (n : Namespace) (w : WrBuf) : Option (Nat × Nat) :=
  if !n.hasPi || w.pr.pract then none
  else (List.range w.nlb).findSome? (fun i =>
    (tagCheck n w.pr (w.slba + i) (c.wrData n w i) (c.wrTags n w i)).map (fun sc => (i, sc)))

/-- How many blocks from the head of a list a tag run of a MODE covers (Table 5-4). -/
def runLength (bits mode : Nat) (lba ref app : Nat) : List (Nat × Nat) → Nat → Nat
  | [], k => k
  | t :: rest, k =>
    let fits := match mode with
      | 0 => t.1 == (lba + k) % 2 ^ bits
      | 1 => t.1 == ref
      | _ => t.1 == (ref + k) % 2 ^ bits
    if fits && t.2 == app && decide (k < 512) then runLength bits mode lba ref app rest (k + 1) else k

/-- R154: the tag runs of consecutive blocks' reference and application tags: from each block on, the longest run that a MODE allows. DESIGN
CHOICE (log entry 100): the spec states no division into runs; where several MODEs give the longest run, MODE 0 is taken before MODE 2, and MODE 2
before MODE 1. -/
def tagRunsOf (bits : Nat) : Nat → Nat → List (Nat × Nat) → List TagRun
  | 0, _, _ => []
  | _, _, [] => []
  | fuel + 1, lba, t :: rest =>
    let len := fun mode => runLength bits mode lba t.1 t.2 (t :: rest) 0
    let mode := if 0 < len 0 && len 1 ≤ len 0 && len 2 ≤ len 0 then 0 else if len 2 ≤ len 1 then 1 else 2
    let n := max 1 (len mode)
    ⟨lba, mode, n, if mode = 0 then 0 else t.1, t.2⟩ :: tagRunsOf bits fuel (lba + n) ((t :: rest).drop n)

/-- A tag run's 16 bytes (Table 5-4), as FTM receives and stores it. -/
def TagRun.bytes (r : TagRun) : List Byte := natLe (r.lba % 2 ^ 44 + r.mode % 16 * 2 ^ 44) 6 ++ natLe r.count 2 ++ natLe r.refBase 6 ++ natLe r.appTag 2

/-- The tag runs of a passing write. -/
def Chip.wrRuns (c : Chip) (n : Namespace) (w : WrBuf) : List TagRun :=
  if n.lbaf = 0 then []
  else tagRunsOf (refBits n.lbaf) w.nlb w.slba ((List.range w.nlb).map (fun i => ((c.wrTags n w i).ref, (c.wrTags n w i).app)))

/-- R130: the pieces of a range: one of up to 64 blocks, else cut at the multiples of 64. -/
def piecesOf (slba nlb : Nat) : List Piece :=
  let cuts := if nlb ≤ 64 then [(slba, nlb)] else splitRange 64 (nlb / 64 + 2) slba nlb
  (List.range cuts.length).map (fun i => let p := cuts.getD i (0, 0); { index := i, slba := p.1, blocks := p.2 })

/-! ### Completion -/

/-- Exposed bytes (R146). -/
def Chip.exposedBytes (c : Chip) : Nat := sumOf ((c.ing.writes.filter (·.exposed)).map (fun w => w.bytes + w.metaBytes))

/-- The flush load (R146). -/
def Chip.flushLoad (c : Chip) : Nat := c.exposedBytes + c.unvaulted

/-- Conditions 1 to 3 of R145 for a buffered write of this head. -/
def Chip.mayComplete (c : Chip) (w : WrBuf) : Bool :=
  w.own && w.arrived && w.passed && w.completed.isNone && (w.mirrored || (c.on R.GLB_STATUS_SOLE && !c.peerIn))

/-- R147: whether the flush load stays within its cap when a write completes. -/
def Chip.capAdmits (c : Chip) (w : WrBuf) : Bool :=
  decide (c.flushLoad + (if w.zeroes || w.pieces.all (·.mapRsn.isSome) then 0 else w.bytes + w.metaBytes) ≤ c.flushCaps.1)

/-- R145, R147: one write completed if its conditions hold and the caps and the ring admit it: its data record is appended, its
bytes are exposed unless every piece has its map record already (R166), and Success is posted. -/
def Chip.completeWrite (c : Chip) (w : WrBuf) : Chip :=
  let bare := w.zeroes || w.pieces.all (·.mapRsn.isSome)
  if c.mayComplete w && !c.ing.noCompletions && !c.nvm.suspended && c.ringOpen && c.capAdmits w then
    let seq := c.ing.postSeq + 1
    let c := { c with ing := { c.ing with postSeq := seq } }
    let c := if bare then c else c.append (.data w.wid)
    (c.modWr w.wid (fun w => { w with completed := some seq, journalled := true, exposed := !bare })).finish w.id stOk
  else c

/-- Every write that may complete is completed, oldest first. -/
def Chip.completeAll (c : Chip) : Chip := c.ing.writes.foldl (fun d w => d.completeWrite w) c

/-! ### Space -/

/-- The base of the write buffer (Table 2-8, type 1). -/
def Chip.wbBase (c : Chip) : Nat := (((c.carve 1).head?).map (·.base)).getD 0

/-- A granule. -/
def Chip.granule (c : Chip) (g : Nat) : Granule := Sparse.get {} c.zbl.granules g

/-- A granule changed. -/
def Chip.modGranule (c : Chip) (g : Nat) (f : Granule → Granule) : Chip :=
  { c with zbl := { c.zbl with granules := Sparse.set {} c.zbl.granules g (f (c.granule g)) } }

/-- Bytes that a tenant has buffered, of both heads' writes (R143, R403). -/
def Chip.tenantBytes (c : Chip) (fn : Nat) : Nat :=
  sumOf ((c.ing.writes.filter (fun w => w.fn == fn)).map (fun w => w.bytes + w.metaBytes))

/-- Whether a tenant's share admits `n` more bytes (R403). -/
def Chip.shareAdmits (c : Chip) (fn n : Nat) : Bool :=
  decide (c.tenantBytes fn + n ≤ (c.tenantOf fn).wrbufMib * 0x100000)

/-- R402, R403: a granule this head holds with `n` bytes of room; a reserve granule only within the tenant's share. -/
def Chip.findGranule (c : Chip) (fn n : Nat) : Option Nat :=
  let fits := fun g => (c.granule g).mine && decide ((c.granule g).used + n ≤ 0x400000)
  match (upFrom c.zbl.reserve (c.zbl.total - c.zbl.reserve)).find? fits with
  | some g => some g
  | none => if c.shareAdmits fn n then (List.range c.zbl.reserve).find? fits else none

/-- Free bytes in the granules this head holds. -/
def Chip.freeHeld (c : Chip) : Nat :=
  sumOf ((c.zbl.granules.filter (·.2.mine)).map (fun g => 0x400000 - g.2.used))

/-- R402: a head short of space asks the peer for granules, once at a time. -/
def Chip.askGranules (c : Chip) : Chip :=
  if c.peerIn && decide (c.freeHeld < 0x10000000) && !c.zbl.leaseOut then
    ({ c with zbl := { c.zbl with leaseOut := true } } : Chip).peerAsk (.lease (.request 0 64 0 0))
  else c

/-- R143, R403: a head that is not the keeper asks it for a reserve granule for a tenant whose share admits `n` more bytes, once at a time for each
tenant. -/
def Chip.askReserve (c : Chip) (fn n : Nat) : Chip :=
  let asked := c.zbl.requests.any (fun r => match r.msg with
    | .lease (.request 1 _ t _) => t == fn
    | _ => false)
  if c.peerIn && !c.zbl.keeper && !asked && c.shareAdmits fn n then c.peerAsk (.lease (.request 1 1 fn 0)) else c

/-- R167, R405: a write's space given back in this head's buffer; a reserve granule that empties returns to the keeper (R403). -/
def Chip.releaseWrite (c : Chip) (wid : Nat) : Chip :=
  match c.wr wid with
  | none => c
  | some w =>
    let n := w.bytes + w.metaBytes
    let c := { c with ing := { c.ing with
      writes := c.ing.writes.filter (fun x => x.wid != wid)
      journal := c.ing.journal.filter (fun r => r.kind != .data wid)
      ownUsed := if w.own then c.ing.ownUsed - n else c.ing.ownUsed
      peerUsed := if w.own then c.ing.peerUsed else c.ing.peerUsed - n } }
    if n = 0 then c
    else
      let i := (w.base - c.wbBase) / 0x400000
      c.modGranule i (fun g =>
        if g.live ≤ n then { g with live := 0, used := 0, mine := if i < c.zbl.reserve then c.zbl.keeper else g.mine }
        else { g with live := g.live - n })

/-- R153, R405: a write that is not to be stored: its space and its mirror are released. -/
def Chip.discardWrite (c : Chip) (wid : Nat) : Chip :=
  let sent := (c.wr wid).any (fun w => w.own && !w.zeroes)
  let c := (c.releaseWrite wid).dropXfers (fun x => match x.purpose with
    | .writeData id => (c.wr wid).any (fun w => w.id == id)
    | _ => false)
  if sent && c.peerIn then c.peerSend 2 0 (.mirrorDrop wid) else c

/-! ### Segments and chunks -/

/-- A segment by its number. -/
def Chip.seg (c : Chip) (id : Nat) : Option Segment := c.ing.segs.find? (fun s => s.id == id)

/-- A segment changed. -/
def Chip.modSeg (c : Chip) (id : Nat) (f : Segment → Segment) : Chip :=
  { c with ing := { c.ing with segs := modifyFirst (fun s => s.id == id) f c.ing.segs } }

/-- The open chunk of a segment cut after its last block: it goes on to the dedup decision (R156, R158). A class that does not
deduplicate makes every chunk unique (R159). -/
def Chip.cutChunk (c : Chip) (id : Nat) : Chip :=
  match c.seg id with
  | none => c
  | some s =>
    if s.chunkBlocks = 0 then c
    else
      let n := c.nsOf s.nsid
      let dedup := bitOf (c.layoutOf n.cls).opts 1
      let ch : Chunk := ⟨c.ing.nextChunk, s.nsid, s.chunkLba, s.chunkBlocks, n.cls, (c.tenantOf n.owner).dom, 0, s.wids,
        if dedup then .undecided else .unique, none, none, false, 0⟩
      ({ c with ing := { c.ing with nextChunk := c.ing.nextChunk + 1, chunks := c.ing.chunks ++ [ch] } } : Chip).modSeg id
        (fun s => { s with chunkLba := s.next, chunkBlocks := 0, wids := [] })

/-- R157: a segment closed: its open chunk is cut. -/
def Chip.closeSeg (c : Chip) (id : Nat) : Chip :=
  let c := c.cutChunk id
  { c with ing := { c.ing with segs := c.ing.segs.filter (fun s => s.id != id) } }

/-- The segment of a list least recently appended to. -/
def oldestSeg (l : List Segment) : Option Segment :=
  l.foldl (fun o s => match o with
    | none => some s
    | some b => if s.order < b.order then some s else some b) none

/-- The segment that holds the oldest data of any open chunk. -/
def Chip.oldestOpen (c : Chip) : Option Segment :=
  (c.ing.segs.filter (fun s => decide (0 < s.chunkBlocks))).foldl (fun o s => match o with
    | none => some s
    | some b => if s.since < b.since then some s else some b) none

/-- R147, R157: every write that may complete is completed; where the flush load has reached its cap, so that one waits, the segment that holds the
oldest data of any open chunk closes. -/
def Chip.completeWrites (c : Chip) : Chip :=
  let c := c.completeAll
  if c.ing.writes.any (fun w => c.mayComplete w && !c.capAdmits w) then (c.oldestOpen.map (fun s => c.closeSeg s.id)).getD c else c

/-- R155: a new segment at an LBA; the least recently appended within a limit closes first. -/
def Chip.openSeg (c : Chip) (nsid lba : Nat) : Chip × Nat :=
  let mine := c.ing.segs.filter (fun s => s.nsid == nsid)
  let c := if 8 ≤ mine.length then ((oldestSeg mine).map (fun s => c.closeSeg s.id)).getD c else c
  let c := if 8192 ≤ c.ing.segs.length then ((oldestSeg c.ing.segs).map (fun s => c.closeSeg s.id)).getD c else c
  let id := c.ing.nextSeg
  ({ c with ing := { c.ing with nextSeg := id + 1, segs := c.ing.segs ++ [⟨id, nsid, lba, lba, 0, c.now, [], c.ing.appends, c.ing.appends⟩] } }, id)

/-- Whether R156 cuts after a block: `n` blocks are in the open chunk, counting it. -/
def cutsAfter (n : Nat) (data : List Byte) : Bool :=
  n == 64 || (decide (4 ≤ n) && decide (cutHash (data.drop 4032) < 0x13B13B13B13B13B1))

/-- One block of a passing write appended to a segment (R155, R156). -/
def Chip.scanBlock (c : Chip) (n : Namespace) (w : WrBuf) (id i : Nat) : Chip :=
  let lba := w.slba + i
  let place := c.ing.appends
  let c := ({ c with ing := { c.ing with appends := place + 1 } } : Chip).modSeg id (fun s => { s with
    next := lba + 1
    chunkBlocks := s.chunkBlocks + 1
    lastAppend := c.now
    order := place
    since := if s.chunkBlocks = 0 then place else s.since
    wids := if s.wids.contains w.wid then s.wids else s.wids ++ [w.wid] })
  let k := ((c.seg id).map (·.chunkBlocks)).getD 0
  let c := if cutsAfter k (c.wrData n w i) then c.cutChunk id else c
  if (lba + 1) % 16384 = 0 then c.closeSeg id else c

/-- The segment that a write's part at an LBA joins: the open one whose next LBA it is, or a new one (R155). DESIGN CHOICE (log entry 101): of two
open segments with that next LBA, the one opened first. -/
def Chip.segFor (c : Chip) (nsid lba : Nat) : Chip × Nat :=
  match c.ing.segs.find? (fun s => s.nsid == nsid && s.next == lba) with
  | some s => (c, s.id)
  | none => c.openSeg nsid lba

/-- Consecutive blocks of a write that lie in one window, from block `i` on, scanned into one segment. -/
def Chip.scanPart (c : Chip) (n : Namespace) (w : WrBuf) (i count : Nat) : Chip :=
  let p := c.segFor w.nsid (w.slba + i)
  (upFrom i count).foldl (fun d b => d.scanBlock n w p.2 b) p.1

/-- A list of rising numbers as runs of consecutive ones, of which none crosses a window's boundary when block 0 is at `slba`. -/
def windowRuns (slba : Nat) : List Nat → List (Nat × Nat)
  | [] => []
  | i :: l =>
    match windowRuns slba l with
    | (j, k) :: r => if j = i + 1 && (slba + j) % 16384 != 0 then (i, k + 1) :: r else (i, 1) :: (j, k) :: r
    | [] => [(i, 1)]

/-- R155 to R158: blocks of a passing write scanned into segments, in parts split at the windows' boundaries. -/
def Chip.scanSome (c : Chip) (n : Namespace) (w : WrBuf) (blocks : List Nat) : Chip :=
  (windowRuns w.slba blocks).foldl (fun d p => d.scanPart n w p.1 p.2) c

/-- R155 to R158: a passing write's blocks scanned into segments. -/
def Chip.scanBlocks (c : Chip) (n : Namespace) (w : WrBuf) : Chip := c.scanSome n w (List.range w.nlb)

/-- What is left of a chunk before a range of blocks and after it (R158): chunks to be decided anew. -/
def Chunk.without (k : Chunk) (wid slba stop id : Nat) (first : ChunkAnswer) : List Chunk :=
  let keep := fun (n a b : Nat) =>
    (if a < b then [{ k with id := n, slba := a, blocks := b - a, fp := 0, wids := k.wids.filter (· != wid), answer := first,
                             cipherJob := none, packed := none, programmed := false }] else [] : List Chunk)
  keep id k.slba (min slba (k.slba + k.blocks)) ++ keep (id + 1) (max stop k.slba) (k.slba + k.blocks)

/-- The place of a duplicate of an in-flight record, until that record's locator is known (R218). -/
def inflightPlace (chunk : Nat) : Nat := 2 ^ 64 + chunk

/-- The chunk a place of an in-flight record names. -/
def inflightChunk (l : Nat) : Option Nat := if 2 ^ 64 ≤ l then some (l - 2 ^ 64) else none

/-- The in-flight records of chunks that are undone are given up, and their duplicates are decided anew. -/
def Chip.dropInflight (c : Chip) (ids : List Nat) : Chip :=
  let dup := fun (k : Chunk) => ids.any (fun id => k.answer == .duplicate (inflightPlace id) true)
  { c with
    dd := { c.dd with inflight := c.dd.inflight.filter (fun f => !ids.contains f.chunk), waiting := c.dd.waiting.filter (fun w => !ids.contains w.chunk) }
    ing := { c.ing with chunks := modifyAll dup (fun k => { k with answer := .undecided }) c.ing.chunks } }

/-- R158: one segment without the blocks of a command that has failed after its scan: its open chunk is cut before them, and the segment closes unless
blocks of later commands follow. -/
def Chip.unscanSeg (c : Chip) (w : WrBuf) (s : Segment) : Chip :=
  let stop := w.slba + w.nlb
  let before := w.slba - s.chunkLba
  let cut := ((c.modSeg s.id (fun x => { x with next := w.slba, chunkBlocks := before, wids := x.wids.filter (· != w.wid) })).cutChunk s.id)
  if s.next ≤ stop then cut.closeSeg s.id
  else cut.modSeg s.id (fun x => { x with next := s.next, chunkLba := stop, chunkBlocks := s.next - stop, wids := s.wids.filter (· != w.wid) })

/-- R158: the segments and chunks as they are without a command that fails: the segment that it joined, or would have joined, is closed at the
command's first LBA. -/
def Chip.unscan (c : Chip) (w : WrBuf) : Chip :=
  let stop := w.slba + w.nlb
  let hit := fun (k : Chunk) => k.nsid == w.nsid && k.wids.contains w.wid && decide (k.slba < stop) && decide (w.slba < k.slba + k.blocks)
  let first := if bitOf (c.layoutOf w.cls).opts 1 then ChunkAnswer.undecided else .unique
  let gone := c.ing.chunks.filter hit
  let c := gone.foldl (fun (d : Chip) k => { d with ing := { d.ing with
    nextChunk := d.ing.nextChunk + 2
    chunks := d.ing.chunks.flatMap (fun x => if x.id = k.id then k.without w.wid w.slba stop d.ing.nextChunk first else [x]) } }) c
  let c := c.dropInflight (gone.map (·.id))
  let c := (c.ing.segs.filter (fun s => s.nsid == w.nsid && s.wids.contains w.wid)).foldl (fun d s => d.unscanSeg w s) c
  if w.passed then c
  else match c.ing.segs.find? (fun s => s.nsid == w.nsid && s.next == w.slba) with
    | some s => c.closeSeg s.id
    | none => c

/-- Every segment of a namespace closed (R157). -/
def Chip.closeNsSegs (c : Chip) (nsid : Nat) : Chip :=
  (c.ing.segs.filter (fun s => s.nsid == nsid)).foldl (fun d s => d.closeSeg s.id) c

/-! ### Placement -/

/-- Where a chunk lies once that is known and settled: a duplicate's record, or its own once its stripe is programmed (R166). -/
def Chunk.settled (k : Chunk) : Option Nat :=
  match k.answer with
  | .duplicate l false => some l
  | _ => if k.programmed then k.packed.map (·.1) else none

/-- The chunks of a write that cover a piece. -/
def Chip.pieceChunks (c : Chip) (wid nsid : Nat) (p : Piece) : List Chunk :=
  c.ing.chunks.filter (fun k => k.nsid == nsid && k.wids.contains wid && decide (k.slba < p.slba + p.blocks) &&
    decide (p.slba < k.slba + k.blocks))

/-- Blocks of a piece that lie in a chunk. -/
def overlap (p : Piece) (k : Chunk) : Nat := min (p.slba + p.blocks) (k.slba + k.blocks) - max p.slba k.slba

/-- The placement entry of a piece's part in a settled chunk (R280, Table 9-5). -/
def placeEnt (p : Piece) (k : Chunk) (locator : Nat) : PlaceEnt :=
  let a := max p.slba k.slba
  ⟨k.nsid, a / 16384, a % 16384, overlap p k, a - k.slba, k.slba % 16384, locator⟩

/-- The map record of a piece appended (R166, R168). -/
def Chip.appendMap (c : Chip) (w : WrBuf) (p : Piece) (places : List PlaceEnt) (code : Nat) (tags : List TagRun) : Chip :=
  let rsn := c.ing.nextRsn
  let c := c.append (.map w.wid p.index)
  let r : MapRec := { rsn := rsn, epoch := c.epoch, fromPeer := false, nsid := w.nsid, slba := p.slba, blocks := p.blocks,
                      places := places, codes := code, tags := tags, gone := w.gone }
  let c := { c with ftm := { c.ftm with mapRecs := c.ftm.mapRecs ++ [r] } }
  c.modWr w.wid (fun w => { w with pieces := w.pieces.map (fun q => if q.index == p.index then { q with mapRsn := some rsn, placed := q.blocks } else q) })

/-- Tag runs cut to a piece. -/
def runsIn (slba blocks : Nat) (l : List TagRun) : List TagRun :=
  l.filterMap (fun r =>
    let a := max r.lba slba
    let b := min (r.lba + r.count) (slba + blocks)
    if a < b then some { r with lba := a, count := b - a, refBase := if r.mode = 2 then r.refBase + (a - r.lba) else r.refBase }
    else none)

/-- R166: a piece whose every block is settled gets its map record, once a record may be appended. -/
def Chip.settlePiece (c : Chip) (w : WrBuf) (p : Piece) : Chip :=
  if p.mapRsn.isSome || !w.passed || !c.ringOpen then c
  else
    let ks := c.pieceChunks w.wid w.nsid p
    let settled := ks.filterMap (fun k => k.settled.map (fun l => (k, l)))
    if sumOf (settled.map (fun e => overlap p e.1)) = p.blocks then
      c.appendMap w p (settled.map (fun e => placeEnt p e.1 e.2)) 0 (runsIn p.slba p.blocks (c.wrRuns (c.nsOf w.nsid) w))
    else c

/-- R166: a write is exposed no more once every piece has its map record. -/
def Chip.unexpose (c : Chip) (wid : Nat) : Chip :=
  c.modWr wid (fun w => if w.pieces.all (·.mapRsn.isSome) then { w with exposed := false } else w)

/-- Chunks whose every write has all its map records are done with. -/
def Chip.dropChunks (c : Chip) : Chip :=
  { c with ing := { c.ing with chunks := c.ing.chunks.filter (fun k =>
      k.settled.isNone || k.wids.any (fun wid => match c.wr wid with
        | some w => w.pieces.any (·.mapRsn.isNone)
        | none => false)) } }

/-- R166, R147: pieces settled after a change of placement, exposed bytes counted anew, and completions that the cap held back
posted. -/
def Chip.settle (c : Chip) : Chip :=
  let c := c.ing.writes.foldl (fun d w => (w.pieces.foldl (fun e p => e.settlePiece w p) d).unexpose w.wid) c
  c.dropChunks.completeWrites

/-! ### The commands -/

/-- The state of a key slot. -/
def Chip.slot (c : Chip) (k : Nat) : KeySlot := Sparse.get {} c.cpe.slots k

/-- R121: the checks of an I/O command up to the LBA range and the key slot, in order. `field` is the result of its own field checks. DESIGN CHOICE
(log entry 97): the ANA path is checked with the namespace, before the LBA range; that of a Retired head, whose every path is Persistent Loss, before
the namespace. -/
def Chip.ioCheck (c : Chip) (id : CmdId) (nsid slba nlb : Nat) (field : Bool) (keyed : Bool) : Option Status :=
  let n := c.nsOf nsid
  if field then some stField
  else if c.retired then some (stat 3 0x01 true)
  else if !c.attached id.fn nsid then some (stat 0 0x0B true)
  else if c.anaOf n.anagrp = 3 then some (stat 3 0x02 false)
  else if n.nsze < slba + nlb then some (stat 0 0x80 true)
  else if keyed && (c.slot n.keySlot).state != .loaded then some (stat 2 0x86 true)
  else none

/-- Whether Write, Write Zeroes and Dataset Management are withheld: fetch is stopped, I/O is suspended, or a deferred log has reached
its cap and not fallen below 90 % of it since (R170, R135, R622). -/
def Chip.withheld (c : Chip) : Bool :=
  c.ing.fetchStopped || c.nvm.suspended || !c.shutDefers.isEmpty

/-- Whether fetches of Write and Write Zeroes are withheld besides: an R26 bound broken by ingest (R195), or no nonce incarnation to be had (R250). -/
def Chip.writesHeld (c : Chip) : Bool := c.nvm.hold == .writes || c.on R.CPE_STATUS_INST_EXHAUSTED || c.cpe.instPending

/-- R165: a write to a class that no awake cohort holds is not fetched; the event is recorded once a stretch. -/
def Chip.classBlocked (c : Chip) (cls : Nat) : Chip :=
  if c.ing.blocked.contains cls then c
  else ({ c with ing := { c.ing with blocked := cls :: c.ing.blocked } } : Chip).event 0x184 cls 0 0 0 0

/-- R165: whether a write to a namespace of a function is not fetched since no awake cohort holds its class. -/
def Chip.classShut (c : Chip) (fn nsid : Nat) : Bool := c.attached fn nsid && !c.classOpen (c.nsOf nsid).cls

/-- R165: classes that have found room again end their stretches. -/
def Chip.unblockClasses (c : Chip) : Chip :=
  { c with ing := { c.ing with blocked := c.ing.blocked.filter (fun k => !c.classOpen k) } }

/-- R150: for type 1 with PRCHK bit 0 set, ILBRT must equal SLBA. -/
def badIlbrt (n : Namespace) (pr : PrInfo) (slba : Nat) : Bool :=
  n.hasPi && n.piType == 1 && !pr.pract && bitOf pr.prchk 0 &&
  pr.ilbrt % 2 ^ refBits n.lbaf != slba % 2 ^ refBits n.lbaf

/-- A new WID of this head (R404). -/
def Chip.newWid (c : Chip) : Chip × Nat :=
  ({ c with zbl := { c.zbl with widCount := c.zbl.widCount + 1 } }, c.pos * 2 ^ 63 + c.zbl.widCount)

/-- A buffered write's record. -/
def mkWrite (wid : Nat) (id : CmdId) (nsid slba nlb base bytes metaBytes : Nat) (n : Namespace) (pr : PrInfo) (gen : Nat)
    (zeroes deac : Bool) : WrBuf :=
  { wid := wid, id := id, own := true, fn := id.fn, nsid := nsid, slba := slba, nlb := nlb, base := base, bytes := bytes,
    mbase := base + bytes, ext := n.ext, metaBytes := metaBytes, pr := pr, cls := n.cls, keyGen := gen, zeroes := zeroes,
    deac := deac, pieces := piecesOf slba nlb }

/-- A write's buffer is known: its data is read, to be used only when all of it has arrived (R88); one whose description failed is discarded with
the space it held. -/
def Chip.fetchData (c : Chip) (id : CmdId) (res : Except Status HostBuf) : Chip :=
  match res with
  | .error st => ((c.ing.writes.filter (fun w => w.own && w.id == id)).foldl (fun d w => d.discardWrite w.wid) c).finish id st
  | .ok buf =>
    match c.ing.writes.find? (fun w => w.own && w.id == id) with
    | none => c
    | some w => c.startRead id.fn (.writeData id) buf w.base

/-- WRITE (R119 to R121, R142, R144, R145, R150, R165, R618). A write that finds no space, no cohort or a withheld fetch stays
unfetched and may be tried again (R173). -/
def write (id : CmdId) (nsid slba nlb : Nat) (form : CmdForm) (pr : PrInfo) (c : Chip) : Chip :=
  match c.fetched id false 0x01 with
  | none => c
  | some i => c.underSections i.sect (fun c =>
    let n := c.nsOf nsid
    let bytes := nlb * blockStride n pr.pract
    let metaBytes := sepMeta n pr.pract nlb
    let c := c.unblockClasses
    if c.withheld || c.writesHeld then c
    else if c.classShut id.fn nsid then c.classBlocked n.cls
    else
      match c.ioCheck id nsid slba nlb (badForm form bytes || badIlbrt n pr slba) true with
      | some st => c.finish id st
      | none =>
        if !c.hasSpace n.cls (nlb * 4096) || !c.indexHasSpace nsid slba nlb then c.finish id (stat 0 0x81 true)
        else
          match c.findGranule id.fn (bytes + metaBytes) with
          | none => (c.askReserve id.fn (bytes + metaBytes)).askGranules
          | some g =>
            let (c, wid) := c.newWid
            let base := c.wbBase + g * 0x400000 + (c.granule g).used
            let w := mkWrite wid id nsid slba nlb base bytes metaBytes n pr (c.slot n.keySlot).gen false false
            let w := { w with mirrored := !c.peerIn && c.on R.GLB_STATUS_SOLE }
            let c := c.modGranule g (fun x => { x with used := x.used + bytes + metaBytes, live := x.live + bytes + metaBytes })
            let c := { c with ing := { c.ing with writes := c.ing.writes ++ [w], ownUsed := c.ing.ownUsed + bytes + metaBytes } }
            let c := c.modFlight id (fun i => { i with running := true, started := true, bytes := nlb * 4096 })
            let p := c.lookup id form bytes metaBytes .write
            (match p.2 with
              | none => p.1
              | some res => p.1.fetchData id res).askGranules)

/-- A write ended with a failing status: nothing of it is stored (R121, R153), and its segment is as R158 says. -/
def Chip.failWrite (c : Chip) (w : WrBuf) (st : Status) : Chip := ((c.unscan w).discardWrite w.wid).finish w.id st

/-- WRITE_DATA_ARRIVED: the data has arrived whole (R88): it is scanned (R150 to R158). A failing write stores nothing and closes the
segment it would have joined; a passing one is mirrored and completed as soon as R145 allows. -/
def writeDataArrived (id : CmdId) (c : Chip) : Chip :=
  match c.ing.writes.find? (fun w => w.id == id && w.own && w.arrived && !w.passed && !w.zeroes) with
  | none => c
  | some w =>
    let n := c.nsOf w.nsid
    match c.scanWrite n w with
    | some (_, sc) => c.failWrite w (stat 2 sc true)
    | none =>
      let c := (c.modWr w.wid (fun w => { w with passed := true })).scanBlocks n w
      let c := if w.mirrored then c
        else c.peerSend 2 0 (.mirrorEnd w.wid w.fn w.nsid w.slba w.nlb (w.bytes + w.metaBytes))
      c.completeWrites

/-- A range without data recorded: its map records are appended at once (R145, R129). -/
def Chip.recordRange (c : Chip) (id : CmdId) (nsid slba nlb : Nat) (pr : PrInfo) (deac : Bool) : Chip :=
  let n := c.nsOf nsid
  let (c, wid) := c.newWid
  let w := mkWrite wid id nsid slba nlb 0 0 0 n pr 0 true deac
  let w := { w with arrived := true, passed := true, mirrored := true }
  let c := { c with ing := { c.ing with writes := c.ing.writes ++ [w] } }
  let runs := if deac then [] else c.wrRuns n w
  w.pieces.foldl (fun d p => d.appendMap w p [] (if deac then 0xF else 0xE) (runsIn p.slba p.blocks runs)) c

/-- WRITE_ZEROES (R119, R129, R145). -/
def writeZeroes (id : CmdId) (nsid slba nlb : Nat) (deac : Bool) (pr : PrInfo) (c : Chip) : Chip :=
  match c.fetched id false 0x08 with
  | none => c
  | some i => c.underSections i.sect (fun c =>
    let n := c.nsOf nsid
    let c := c.unblockClasses
    if c.withheld || c.writesHeld || !c.ringOpen then c
    else if c.classShut id.fn nsid then c.classBlocked n.cls
    else
      match c.ioCheck id nsid slba nlb (decide (65536 < nlb) || badIlbrt n pr slba) true with
      | some st => c.finish id st
      | none =>
        if !c.indexHasSpace nsid slba nlb then c.finish id (stat 0 0x81 true)
        else
          ((c.modFlight id (fun i => { i with running := true, started := true })).recordRange id nsid slba nlb pr deac).completeWrites)

/-- A range deallocated by Dataset Management counts as completed with its command, so that reads find it (R175). -/
def showRange (seq nsid : Nat) (w : WrBuf) : WrBuf :=
  if w.zeroes && w.completed.isNone && w.nsid == nsid && w.id.cid == 0x10000 then { w with completed := some seq } else w

/-- Every range of the command just recorded. -/
def Chip.showRanges (c : Chip) (nsid : Nat) : Chip :=
  let seq := c.ing.postSeq + 1
  { c with ing := { c.ing with postSeq := seq, writes := c.ing.writes.map (showRange seq nsid) } }

/-- The ranges of a Dataset Management: context attributes, length in blocks, first block (16 bytes each, by the NVMe specification). -/
def rangesOf (n : Nat) (bs : List Byte) : List (Nat × Nat) :=
  (List.range n).map (fun i => (leNat ((bs.drop (16 * i + 8)).take 8), leNat ((bs.drop (16 * i + 4)).take 4)))

/-- DATASET_MANAGEMENT: deallocation of up to 256 ranges, `nr` + 1 of them; other attributes are ignored (R119, R129). -/
def datasetManagement (id : CmdId) (nsid : Nat) (ad : Bool) (nr : Nat) (c : Chip) : Chip :=
  if c.withheld || !c.ringOpen then c
  else
    let check := fun (c : Chip) last => c.ioCheck id nsid 0 last (decide (256 ≤ nr)) true
    c.executeWith id false 0x09 (16 * (nr + 1)) (fun c => (check c 0).map (fun st => c.finish id st)) (fun bs c =>
      let ranges := rangesOf (nr + 1) bs
      match check c (maxOf (ranges.map (fun r => r.1 + r.2))) with
      | some st => c.finish id st
      | none =>
        let c := if ad then (ranges.filter (fun r => decide (0 < r.2))).foldl (fun d r =>
          d.recordRange ⟨id.fn, id.sq, 0x10000⟩ nsid r.1 r.2 ⟨true, 0, 0, 0, 0⟩ true) c else c
        (c.showRanges nsid).finish id stOk)

/-- FLUSH (R132). -/
def flush (id : CmdId) (nsid : Nat) (c : Chip) : Chip :=
  match c.fetched id false 0x00 with
  | none => c
  | some i => c.underSections i.sect (fun c => c.finish id ((c.ioCheck id nsid 0 0 false false).getD stOk))

/-- SEGMENT_IDLE_TIMEOUT (R157). -/
def segmentIdleTimeout (seg : Nat) (c : Chip) : Chip :=
  match c.seg seg with
  | some s => if s.lastAppend + 1000000 ≤ c.now then c.closeSeg seg else c
  | none => c

/-- STRIPE_AGE_TIMEOUT (R164): a stripe open 2 ms since its first record is sealed with the extents it has used. -/
def stripeAgeTimeout (cls : Nat) (c : Chip) : Chip :=
  match c.ing.stripes.find? (fun s => s.cls == cls && !s.shadow && s.firstAt.any (fun t => decide (t + 2000000 ≤ c.now))) with
  | some s => c.sealStripe s s.strips
  | none => c

-- EXEC write writeDataArrived writeZeroes datasetManagement flush segmentIdleTimeout stripeAgeTimeout

/-- WRITE (R145). -/
def execWrite (id : CmdId) (nsid : Nat) (slba : Nat) (nlb : Nat) (form : CmdForm) (pr : PrInfo) (s : State) : Host.Outcome State Fault Refusal :=
  s.runAwake (id.wf) (write id nsid slba nlb form pr)

/-- WRITE_DATA_ARRIVED (R88). -/
def execWriteDataArrived (id : CmdId) (s : State) : Host.Outcome State Fault Refusal :=
  s.runAwake (id.wf) (writeDataArrived id)

/-- WRITE_ZEROES (R129). -/
def execWriteZeroes (id : CmdId) (nsid : Nat) (slba : Nat) (nlb : Nat) (deac : Bool) (pr : PrInfo) (s : State) : Host.Outcome State Fault Refusal :=
  s.runAwake (id.wf) (writeZeroes id nsid slba nlb deac pr)

/-- DATASET_MANAGEMENT (R119). -/
def execDatasetManagement (id : CmdId) (nsid : Nat) (ad : Bool) (nr : Nat) (s : State) : Host.Outcome State Fault Refusal :=
  s.runAwake (id.wf) (datasetManagement id nsid ad nr)

/-- FLUSH (R132). -/
def execFlush (id : CmdId) (nsid : Nat) (s : State) : Host.Outcome State Fault Refusal :=
  s.runAwake (id.wf) (flush id nsid)

/-- SEGMENT_IDLE_TIMEOUT (R157). -/
def execSegmentIdleTimeout (seg : Nat) (s : State) : Host.Outcome State Fault Refusal :=
  s.runAwake true (segmentIdleTimeout seg)

/-- STRIPE_AGE_TIMEOUT (R164). -/
def execStripeAgeTimeout (cls : Nat) (s : State) : Host.Outcome State Fault Refusal :=
  s.runAwake true (stripeAgeTimeout cls)

-- END EXEC

end Sys2Proof.Machine
end

