-- ==== Sys2Proof/Machine/Deliver.lean ====
section
/-!
DEFINITION. The retrieval path (chapter 6): where each block of a read comes from, the plaintext of its records, and what it delivers.
-/
namespace Sys2Proof.Machine

/-- What a deferred log says of a block: the last trim or insert that covers it (R284). -/
def deferredFor (nsid lba : Nat) (l : List Deferred) : Option (Option PlaceEnt) :=
  l.foldl (fun o d => match d with
    | .trim ns b => if ns = nsid && b = lba then some none else o
    | .insert e =>
      if e.nsid = nsid && e.window = lba / 16384 && e.start ≤ lba % 16384 && lba % 16384 < e.start + e.count then some (some e) else o)
    none

/-- The placement entry of a block in the cohort that the index names, the deferred log first (R284). -/
def Chip.entryOf (c : Chip) (nsid lba cohort : Nat) : Option PlaceEnt :=
  match deferredFor nsid lba (Sparse.get [] c.ftm.deferred cohort) with
  | some e => e
  | none => c.placeOf nsid lba

/-- Whether a record lies in a stripe, or among records, that the lost table names (R332, R333). -/
def Chip.recordLost (c : Chip) (locator : Nat) : Bool :=
  match c.stripe (locCohort locator) (locSeid locator) with
  | some s => s.recs.any (fun r => r.ofs == locOfs locator && r.lost && c.shelfOn s.cohort (s.map.getD r.strip 0) == some (locShelf locator))
  | none => false

/-- The buffered write that a read of a block sees: of those completed, the one completed last (R174, R175). -/
def Chip.bufferFor (c : Chip) (nsid lba : Nat) : Option WrBuf :=
  (c.ing.writes.filter (fun w => w.nsid == nsid && !w.gone && w.completed.isSome && decide (w.slba ≤ lba) && decide (lba < w.slba + w.nlb))).foldl
    (fun o w => match o with
      | none => some w
      | some b => if b.completed.getD 0 ≤ w.completed.getD 0 then some w else o) none

/-- R174: the source of a block, the first that applies in Table 6-1. -/
def Chip.sourceOf (c : Chip) (nsid lba : Nat) : BlockSrc :=
  match c.bufferFor nsid lba with
  | some w => if w.pieces.any (fun p => p.lost && decide (p.slba ≤ lba) && decide (lba < p.slba + p.blocks)) then .lost else .buffer w.wid
  | none =>
    if c.lostBlock nsid lba then .lost
    else
      let k := c.indexOf nsid lba
      if k = 0xE then .zeroed
      else if k = 0xF then .deallocated
      else match c.entryOf nsid lba k with
        | none => .deallocated
        | some e => if c.recordLost e.locator then .lost else .stored e.locator (e.skip + (lba % 16384 - e.start))

/-- The stored tags of a block (R282). -/
def Chip.storedTags (c : Chip) (n : Namespace) (nsid lba : Nat) (data : List Byte) : BlockTags :=
  let g := guardOf n.lbaf data
  match c.ing.tagRuns.find? (fun r => r.1 == nsid && decide (r.2.lba ≤ lba) && decide (lba < r.2.lba + r.2.count)) with
  | some (_, r) => ⟨g, r.appTag, match r.mode with
      | 0 => lba % 2 ^ refBits n.lbaf
      | 1 => r.refBase
      | _ => r.refBase + (lba - r.lba)⟩
  | none => ⟨g, 0xFFFF, 2 ^ refBits n.lbaf - 1⟩

/-- A deallocated block's data and protection information (R129). -/
def emptyBlock (n : Namespace) : List Byte × BlockTags :=
  let data := List.replicate 4096 0#8
  (data, ⟨guardOf n.lbaf data, 0xFFFF, 2 ^ refBits n.lbaf - 1⟩)

/-- Whether a read waits for the peer's map walk (R197). -/
def ReadCmd.walking (r : ReadCmd) : Bool := decide (r.srcs.length < r.nlb)

/-! ### Records fetched -/

/-- The dedup domain of a read's tenant (R188). -/
def Chip.readerDom (c : Chip) (r : ReadCmd) : Nat := (c.tenantOf r.id.fn).dom

/-- The fetch of a record for a read: reads of one domain share it (R176). -/
def Chip.fetchOf (c : Chip) (r : ReadCmd) (locator : Nat) : Option RecFetch :=
  c.ing.fetches.find? (fun f => f.locator == locator && f.dom == c.readerDom r)

/-- Whether a read waits for a fetch. -/
def Chip.wantsFetch (c : Chip) (r : ReadCmd) (f : RecFetch) : Bool :=
  f.dom == c.readerDom r && r.srcs.any (fun s => match s with
    | .stored l _ => l == f.locator
    | _ => false)

/-- R176: what has been fetched is kept while some command waits for it, and no longer. -/
def Chip.keepWanted (c : Chip) : Chip :=
  { c with ing := { c.ing with fetches := c.ing.fetches.filter (fun f => c.ing.reads.any (fun r => c.wantsFetch r f)) } }

/-- Where a status stands in the order of R193. -/
def statusRank (s : Nat × Nat) : Nat :=
  if s = (7, 0xC0) then 0 else if s = (0, 0x06) then 1 else if s = (2, 0x86) then 2 else if s = (2, 0x81) then 3 else if s = (7, 0xC1) then 4 else 5

/-- The first of some statuses in the order of R193. -/
def firstStatus : List (Nat × Nat) → Option (Nat × Nat)
  | [] => none
  | s :: l => match firstStatus l with
    | some t => if statusRank t < statusRank s then some t else some s
    | none => some s

/-- The status with which a block of a read fails before its protection information is looked at: of what its record's fetch and its engine's report
say, the first in the order of R193. -/
def Chip.blockFails (c : Chip) (r : ReadCmd) (i : Nat) : Option (Nat × Nat) :=
  let fetched := match r.srcs.getD i .deallocated with
    | .lost => [(7, 0xC0)]
    | .stored l _ => match c.fetchOf r l with
      | some f => match f.state with
        | .failed sct sc => [(sct, sc)]
        | _ => []
      | none => []
    | _ => []
  firstStatus (fetched ++ (r.failed.filter (fun f => f.1 == i)).map (·.2))

/-- Whether a stored block of a read has its plaintext, or has failed (R176). -/
def Chip.blockSettled (c : Chip) (r : ReadCmd) (i : Nat) : Bool :=
  (c.blockFails r i).isSome || (match r.srcs.getD i .deallocated with
    | .stored l _ => ((c.fetchOf r l).map (·.state)) == some .ready
    | _ => true)

/-- Whether every block of a read can be delivered or has failed. -/
def Chip.readReady (c : Chip) (r : ReadCmd) : Bool := !r.walking && (List.range r.nlb).all (c.blockSettled r)

/-- Whether every stored block of a read has failed, so that nothing is left to decrypt for it. -/
def Chip.allFailed (c : Chip) (r : ReadCmd) : Bool :=
  !r.walking && (List.range r.nlb).all (fun i => (c.blockFails r i).isSome || (match r.srcs.getD i .deallocated with
    | .stored .. => false
    | _ => true))

/-- The plaintext of a stored block as it leaves the decompressor. -/
def Chip.plainBlock (c : Chip) (r : ReadCmd) (locator skip : Nat) : List Byte :=
  (((c.fetchOf r locator).map (·.plain)).getD []).drop (skip * 4096) |>.take 4096

/-! ### What a read delivers -/

/-- What block `i` of a read gives: its data and tags, or its failing status (R191 to R193). Plaintext of stored records lies in the staging area,
block by block; the guard regenerated from the decompressor's output, or from the write buffer, is compared with that of the bytes that leave. -/
def Chip.blockResult (c : Chip) (n : Namespace) (r : ReadCmd) (staged : Nat) (i : Nat) : Except (Nat × Nat) (List Byte × BlockTags) :=
  let lba := r.slba + i
  let check := fun (p : List Byte × BlockTags) =>
    if n.hasPi then
      if !r.verify && p.2.guard != guardOf n.lbaf p.1 then Except.error (2, 0x82)
      else match tagCheck n { r.pr with prchk := r.pr.prchk % 4 } (r.pr.ilbrt + i) p.1 p.2 with
        | some sc => Except.error (2, sc)
        | none => Except.ok p
    else Except.ok p
  match c.blockFails r i with
  | some f => .error f
  | none =>
    match r.srcs.getD i .deallocated with
    | .lost => .error (7, 0xC0)
    | .deallocated => check (emptyBlock n)
    | .zeroed =>
      let data := List.replicate 4096 0#8
      check (data, c.storedTags n r.nsid lba data)
    | .buffer wid =>
      match c.wr wid with
      | some w =>
        let data := c.wrData n w (lba - w.slba)
        check (data, { c.wrTags n w (lba - w.slba) with guard := guardOf n.lbaf data })
      | none => check (emptyBlock n)
    | .stored l skip => check (c.load (staged + i * 4096) 4096, c.storedTags n r.nsid lba (c.plainBlock r l skip))

/-- Where a block that passed goes in the command's buffer, with its protection information where PRACT is 0 (R192, R194). Separate metadata
follows the data (MPTR). -/
def blockSpans (n : Namespace) (r : ReadCmd) (i : Nat) (p : List Byte × BlockTags) : List (Nat × List Byte) :=
  let m := if r.pr.pract then 0 else metaOf n.lbaf
  let tags := (tagBytes n.lbaf p.2).take m
  if n.ext then [(i * (4096 + m), p.1 ++ tags)]
  else if m = 0 then [(i * 4096, p.1)]
  else [(i * 4096, p.1), (r.nlb * 4096 + i * m, tags)]

/-- Whether a status of a read carries DNR (Table 4-10). -/
def readDnr (sct sc : Nat) : Bool := !(sct == 0 && sc == 0x06)

/-- The first failure of each status, in the order of the blocks. -/
def firstFails : List (Nat × Nat × Nat) → List (Nat × Nat × Nat)
  | [] => []
  | f :: l => f :: (firstFails l).filter (fun g => g.2 != f.2)

/-- A failing read's entry in the Error Information log, for its lowest failing block, and an event for each status that a block fails with
(R194 and its example). -/
def Chip.logReadErrors (c : Chip) (r : ReadCmd) (fails : List (Nat × Nat × Nat)) (st : Status) : Chip :=
  match fails with
  | [] => c
  | f :: _ =>
    (firstFails fails).foldl (fun d g => d.event 0x042 r.id.fn (r.slba + g.1) (256 * g.2.1 + g.2.2) r.nsid 0) (c.logError r.id r.nsid (r.slba + f.1) st)

/-- R193, R194: a read's or verify's blocks delivered and its status posted: Success, or that of the lowest failing block. -/
def Chip.deliver (c : Chip) (r : ReadCmd) (staged : Nat) : Chip :=
  let n := c.nsOf r.nsid
  let results := (List.range r.nlb).map (fun i => (i, c.blockResult n r staged i))
  let fails := results.filterMap (fun p => match p.2 with
    | .error e => some (p.1, e)
    | .ok _ => none)
  let spans := results.flatMap (fun p => match p.2 with
    | .error _ => []
    | .ok b => blockSpans n r p.1 b)
  let st := match fails with
    | [] => stOk
    | f :: _ => stat f.2.1 f.2.2 (readDnr f.2.1 f.2.2)
  let c := ({ c with ing := { c.ing with reads := c.ing.reads.filter (fun x => x.id != r.id) } } : Chip).keepWanted.logReadErrors r fails st
  if r.verify then c.finish r.id st
  else (c.modFlight r.id (fun i => { i with started := true })).send r.id r.form (r.nlb * blockStride n r.pr.pract) (sepMeta n r.pr.pract r.nlb) spans st
    none true

/-- Reads all of whose stored blocks have failed are answered; the others wait for an engine. -/
def Chip.settleReads (c : Chip) : Chip :=
  (c.ing.reads.filter (fun r => c.allFailed r && r.srcs.any (fun s => match s with
    | .stored .. => true
    | _ => false))).foldl (fun d r => d.deliver r 0) c

/-- R190: what a decompressor, or a cipher core for FORM 0, gives of verified records: the plaintext, which must be BLOCKS × 4096 bytes, or none where
the frame is rejected. A failure is an event with the core and the record. -/
def Chip.opened (c : Chip) (hit : RecFetch → Bool) (core : Nat) (content : Option (List Byte)) : Chip :=
  let hits := c.ing.fetches.filter (fun f => f.state == .verified && hit f)
  let good := fun (f : RecFetch) => content.any (fun bs => bs.length == f.blocks * 4096)
  let next := fun (f : RecFetch) => if good f then { f with state := .ready, plain := content.getD [] } else { f with state := .failed 2 0x81 }
  let c : Chip := { c with ing := { c.ing with fetches := modifyAll (fun (f : RecFetch) => f.state == .verified && hit f) next c.ing.fetches } }
  ((hits.filter (fun f => !good f)).foldl (fun d f => d.event 0x144 core f.locator 0 0 0) c).settleReads

/-- A verified record decrypted on its own: the frame that a decompressor takes next, or the plaintext of a record of FORM 0 (R190). -/
def Chip.decrypted (c : Chip) (h : List Byte) (core : Nat) (bs : List Byte) : Chip :=
  if leNat ((h.drop 2).take 1) = 0 then c.opened (fun f => f.record.take 64 == h) core (some bs)
  else { c with ing := { c.ing with
    fetches := modifyAll (fun (f : RecFetch) => f.state == .verified && f.record.take 64 == h) (fun f => { f with frame := bs }) c.ing.fetches } }

end Sys2Proof.Machine
end

