-- ==== Sys2Proof/Machine/Frame.lean ====
section
/-!
DEFINITION. The limits on a Zstandard frame that a decompressor takes (R228), read from the frame's header and block headers as RFC 8878 lays them out.
-/
namespace Sys2Proof.Machine

/-- What a frame's header says: its length, the window it asks for, its content size where it gives one, and whether a checksum follows. -/
structure FrameHead where
  len : Nat
  window : Nat
  size : Option Nat
  sum : Bool
  deriving DecidableEq, Repr

/-- Magic_Number (Table 7-5). -/
def frameMagic : Nat := 0xFD2FB528

/-- The largest window or content of a single segment (R228). -/
def frameMax : Nat := 8388608

/-- Bytes of the Dictionary_ID field, by its flag. -/
def dictBytes (flag : Nat) : Nat := if flag = 3 then 4 else flag

/-- Bytes of the Frame_Content_Size field, by its flag. -/
def sizeBytes (flag : Nat) (single : Bool) : Nat := if flag = 0 then (if single then 1 else 0) else 2 ^ flag

/-- The window that a Window_Descriptor names. -/
def windowOf (b : Nat) : Nat := 2 ^ (10 + b / 8) + 2 ^ (10 + b / 8) / 8 * (b % 8)

/-- A frame's header, or the status of Table 7-7 that rejects it: no frame or a skippable one, a malformed header, a window or content too large, a
dictionary. -/
def frameHead (s : List Byte) : Except Nat FrameHead :=
  if leNat (s.take 4) ≠ frameMagic || decide (s.length < 4) then .error 2
  else
    let d := leNat ((s.drop 4).take 1)
    let single := bitOf d 5
    let w := if single then 0 else 1
    let di := dictBytes (d % 4)
    let fb := sizeBytes (d / 64 % 4) single
    let len := 5 + w + di + fb
    if s.length < len || bitOf d 3 then .error 5
    else
      let raw := leNat ((s.drop (5 + w + di)).take fb)
      let size := if fb = 0 then none else some (if fb = 2 then raw + 256 else raw)
      let window := if single then size.getD 0 else windowOf (leNat ((s.drop 5).take 1))
      if frameMax < window then .error 3
      else if leNat ((s.drop (5 + w)).take di) ≠ 0 then .error 4
      else .ok ⟨len, window, size, bitOf d 2⟩

/-- Where a frame's blocks end, by their headers: the last block's end, or none where one is cut short or of the reserved type. -/
def blocksEnd (s : List Byte) : Nat → Nat → Option Nat
  | 0, _ => none
  | fuel + 1, at_ =>
    if s.length < at_ + 3 then none
    else
      let h := leNat ((s.drop at_).take 3)
      let kind := h / 2 % 4
      let stop := at_ + 3 + (if kind = 1 then 1 else h / 8)
      if kind = 3 || decide (131072 < h / 8) || decide (s.length < stop) then none
      else if h % 2 = 1 then some stop
      else blocksEnd s fuel stop

/-- R228: the status of Table 7-7 for a decompression: what the header, the blocks and the content's size say, and otherwise what the core found in
decoding (`found`: 0, CORRUPT or CHECKSUM). -/
def frameStatus (src : List Byte) (found content cap : Nat) : Nat :=
  match frameHead src with
  | .error st => st
  | .ok h =>
    match blocksEnd src src.length h.len with
    | none => 5
    | some stop =>
      let stop := stop + (if h.sum then 4 else 0)
      if found = 5 || decide (src.length < stop) then 5
      else if cap < content then 1
      else if found = 6 then 6
      else if h.size.any (· != content) || decide (stop < src.length) then 7
      else 0

/-- R226: whether a compressor core can have made these bytes of a source of `len` bytes: one frame with Single_Segment_flag, no dictionary and no
checksum, its content size in the field of Table 7-5, and nothing after its last block. -/
def frameMade (len : Nat) (s : List Byte) : Bool :=
  let d := leNat ((s.drop 4).take 1)
  let field := if len < 256 then 0 else if len ≤ 65791 then 1 else 2
  match frameHead s with
  | .error _ => false
  | .ok h => bitOf d 5 && decide (d % 4 = 0) && !h.sum && decide (d / 64 = field) && h.size == some len &&
      blocksEnd s s.length h.len == some s.length

end Sys2Proof.Machine
end

