-- ==== Sys2Proof/Machine/Flags.lean ====
section
/-!
DEFINITION. The engines' arithmetic and flags (R430 to R434).
-/
namespace Sys2Proof.Machine

/-- What an instruction writes: its result, and its carry and overflow (R431). -/
structure AluRes where
  val : Word64
  k : Bool := false
  v : Bool := false
  divZero : Bool := false

/-- Whether an integer does not fit 64 signed bits. -/
def overflows (i : Int) : Bool := decide (i < -9223372036854775808) || decide (9223372036854775807 < i)

/-- ADD and ADDI. -/
def aluAdd (a b : Word64) : AluRes :=
  ⟨a + b, decide (2 ^ 64 ≤ a.toNat + b.toNat), overflows (a.toInt + b.toInt), false⟩

/-- SUB, CMPI and NEG: K is the borrow. -/
def aluSub (a b : Word64) : AluRes := ⟨a - b, decide (a.toNat < b.toNat), overflows (a.toInt - b.toInt), false⟩

/-- MUL and MULI. -/
def aluMul (a b : Word64) : AluRes :=
  ⟨a * b, decide (2 ^ 64 ≤ a.toNat * b.toNat), overflows (a.toInt * b.toInt), false⟩

/-- The high half of an unsigned product. -/
def mulHigh (a b : Word64) : Word64 := BitVec.ofNat 64 (a.toNat * b.toNat / 2 ^ 64)

/-- The high half of a signed product. -/
def mulHighSigned (a b : Word64) : Word64 := BitVec.ofInt 64 (a.toInt * b.toInt / 18446744073709551616)

/-- SLL by an amount taken whole (R433). -/
def aluSll (a : Word64) (n : Nat) : Word64 := if 64 ≤ n then 0 else a <<< n

/-- SRL by an amount taken whole. -/
def aluSrl (a : Word64) (n : Nat) : Word64 := if 64 ≤ n then 0 else a >>> n

/-- SRA by an amount taken whole. -/
def aluSra (a : Word64) (n : Nat) : Word64 :=
  if 64 ≤ n then (if a.msb then BitVec.allOnes 64 else 0) else a.sshiftRight n

/-- ROL by an amount mod 64. -/
def aluRol (a : Word64) (n : Nat) : Word64 := a.rotateLeft (n % 64)

/-- DIVU, with the edge results of Table 13-5. -/
def aluDivU (a b : Word64) : AluRes :=
  if b = 0 then ⟨BitVec.allOnes 64, false, false, true⟩ else ⟨BitVec.ofNat 64 (a.toNat / b.toNat), false, false, false⟩

/-- DIVS: truncated toward zero. -/
def aluDivS (a b : Word64) : AluRes :=
  if b = 0 then ⟨BitVec.allOnes 64, false, false, true⟩
  else ⟨BitVec.ofInt 64 (a.toInt.tdiv b.toInt), false, overflows (a.toInt.tdiv b.toInt), false⟩

/-- REMU. -/
def aluRemU (a b : Word64) : AluRes :=
  if b = 0 then ⟨a, false, false, true⟩ else ⟨BitVec.ofNat 64 (a.toNat % b.toNat), false, false, false⟩

/-- REMS: the sign of the dividend. -/
def aluRemS (a b : Word64) : AluRes :=
  if b = 0 then ⟨a, false, false, true⟩
  else ⟨BitVec.ofInt 64 (a.toInt.tmod b.toInt), false, overflows (a.toInt.tdiv b.toInt), false⟩

/-- Leading zeros, 64 for 0. -/
def clz (a : Word64) : Nat := 64 - (((List.range 64).filter (fun i => bitOf a.toNat i)).foldl (fun _ i => i + 1) 0)

/-- Set bits. -/
def popcount (a : Word64) : Nat := ((List.range 64).filter (fun i => bitOf a.toNat i)).length

/-- Byte order reversed. -/
def byteSwap (a : Word64) : Word64 := BitVec.ofNat 64 (leNat (natLe a.toNat 8).reverse)

/-- The ALU functions (Table 13-4); none for an undefined FN. -/
def aluFn (fn : Nat) (a b : Word64) : Option AluRes :=
  match fn with
  | 0x000 => some (aluAdd a b)
  | 0x001 => some (aluSub a b)
  | 0x002 => some { val := a &&& b }
  | 0x003 => some { val := a ||| b }
  | 0x004 => some { val := a ^^^ b }
  | 0x005 => some { val := a &&& ~~~b }
  | 0x008 => some { val := aluSll a b.toNat }
  | 0x009 => some { val := aluSrl a b.toNat }
  | 0x00A => some { val := aluSra a b.toNat }
  | 0x00B => some { val := aluRol a b.toNat }
  | 0x010 => some (aluMul a b)
  | 0x011 => some { val := mulHigh a b }
  | 0x012 => some { val := mulHighSigned a b }
  | 0x018 => some (aluDivU a b)
  | 0x019 => some (aluDivS a b)
  | 0x01A => some (aluRemU a b)
  | 0x01B => some (aluRemS a b)
  | 0x020 => some (aluSub 0 a)
  | 0x028 => some { val := BitVec.ofNat 64 (clz a) }
  | 0x029 => some { val := BitVec.ofNat 64 (popcount a) }
  | 0x02A => some { val := byteSwap a }
  | 0x030 => some { val := if a.ult b then a else b }
  | 0x031 => some { val := if a.ult b then b else a }
  | 0x032 => some { val := if a.slt b then a else b }
  | 0x033 => some { val := if a.slt b then b else a }
  | _ => none

/-- R432: the functions that write Z, M, K and V whatever S holds. -/
def alwaysFlags (fn : Nat) : Bool := [0x018, 0x019, 0x01A, 0x01B, 0x020].contains fn

/-- The functions whose XB field must be 0 (Table 13-4). -/
def unaryFn (fn : Nat) : Bool := [0x020, 0x028, 0x029, 0x02A].contains fn

/-- R431: the flags that a result gives; DZ is sticky (R432). -/
def EFlags.after (f : EFlags) (r : AluRes) : EFlags :=
  { f with z := r.val == 0, m := r.val.msb, k := r.k, v := r.v, dz := f.dz || r.divZero }

/-- The conditions of Table 13-6. -/
def condHolds (f : EFlags) (cond : Nat) : Bool :=
  let p := match cond % 8 with
    | 0 => f.z
    | 1 => f.m
    | 2 => f.k
    | 3 => f.v
    | 4 => f.k || f.z
    | 5 => f.m != f.v
    | 6 => f.z || f.m != f.v
    | _ => true
  if 8 ≤ cond then !p else p

/-- FLAGS as MFS reads it (Table 13-9). -/
def EFlags.word (f : EFlags) : Word64 :=
  BitVec.ofNat 64 (flag f.z + 2 * flag f.m + 4 * flag f.k + 8 * flag f.v + 256 * flag f.dz + 65536 * flag f.dze)

/-- FLAGS as MTS writes it. -/
def EFlags.ofWord (w : Word64) : EFlags :=
  { z := bitOf w.toNat 0, m := bitOf w.toNat 1, k := bitOf w.toNat 2, v := bitOf w.toNat 3, dz := bitOf w.toNat 8,
    dze := bitOf w.toNat 16 }

end Sys2Proof.Machine
end

