-- ==== Sys2Proof/Machine/Operands.lean ====
section
/-!
DEFINITION. The fields of an engine's instruction words (R428, Table 13-2), which words are legal (R429), and the engine
address map (R425 to R427).
-/
namespace Sys2Proof.Machine

/-- A field of an instruction word. -/
def fld (w : Word32) (lsb width : Nat) : Nat := bitsOf w.toNat lsb width

/-- OP, bits 31:26. -/
def opOf (w : Word32) : Nat := fld w 26 6
/-- XD, bits 25:21; XA of format C. -/
def xdOf (w : Word32) : Nat := fld w 21 5
/-- XA, bits 20:16. -/
def xaOf (w : Word32) : Nat := fld w 16 5
/-- XB, bits 15:11. -/
def xbOf (w : Word32) : Nat := fld w 11 5
/-- S of format R. -/
def sOf (w : Word32) : Bool := fld w 10 1 == 1
/-- FN of format R. -/
def fnOf (w : Word32) : Nat := fld w 0 10
/-- The 11-bit FN of the stream, accelerator and system classes. -/
def fn11 (w : Word32) : Nat := fld w 0 11
/-- S of format I. -/
def sImm (w : Word32) : Bool := fld w 15 1 == 1

/-- The low `n` bits of a word sign-extended to 64. -/
def sext (w : Word32) (n : Nat) : Word64 :=
  let v := fld w 0 n
  if bitOf v (n - 1) then BitVec.ofInt 64 ((v : Int) - (2 ^ n : Nat)) else BitVec.ofNat 64 v

/-- The low `n` bits of a word zero-extended to 64. -/
def zext (w : Word32) (n : Nat) : Word64 := BitVec.ofNat 64 (fld w 0 n)

/-- The opcodes of format I that take S. -/
def immOps : List Nat := [0x02, 0x03, 0x04, 0x05, 0x06, 0x07, 0x08, 0x09]

/-- R429: whether a word is an instruction. -/
def legalWord (w : Word32) : Bool :=
  match opOf w with
  | 0x01 => (aluFn (fnOf w) 0 1).isSome && (!unaryFn (fnOf w) || xbOf w == 0)
  | 0x02 | 0x03 | 0x04 | 0x05 | 0x06 | 0x07 | 0x08 | 0x09 => true
  | 0x0A => xdOf w == 0 && sImm w
  | 0x0B | 0x0C => true
  | 0x10 | 0x11 | 0x12 | 0x13 | 0x14 | 0x15 | 0x16 | 0x18 | 0x19 | 0x1A | 0x1B => true
  | 0x20 => fld w 22 4 != 15
  | 0x21 | 0x22 | 0x23 => true
  | 0x24 => !sImm w
  | 0x28 => decide (fn11 w < 4) || (fn11 w == 4 && xbOf w == 0)
  | 0x30 => fld w 9 2 == 0 && decide (fld w 0 3 < 4)
  | 0x38 => decide (fn11 w < 8)
  | _ => false

/-- The regions of the engine address map (Table 13-1). -/
inductive ERegion where
  | imem | dmem | ecr | aperture | outside
  deriving DecidableEq, Repr

/-- The region that holds `n` bytes from an address. -/
def regionOf (a n : Nat) : ERegion :=
  if a + n ≤ 0x8000 then .imem
  else if 0x10000 ≤ a && decide (a + n ≤ 0x30000) then .dmem
  else if 0x80000 ≤ a && decide (a + n ≤ 0x80100) then .ecr
  else if 0x100000000000 ≤ a && decide (a + n ≤ 0x200000000000) then .aperture
  else .outside

/-- The DRAM address that an aperture address names. -/
def dramOf (a : Nat) : Nat := a - 0x100000000000

/-- The aperture address of a DRAM address. -/
def apertureOf (a : Nat) : Nat := a + 0x100000000000

/-- R427: whether an open window allows an access to a DRAM range. -/
def winAllows (win : Window) (addr n : Nat) (wr : Bool) : Bool :=
  decide (0 < win.len) && decide (win.base ≤ addr) && decide (addr + n ≤ win.base + win.len) && (if wr then win.wr else win.rd)

/-- Whether one of the windows allows an access. -/
def windowsAllow (ws : List Window) (addr n : Nat) (wr : Bool) : Bool := ws.any (fun x => winAllows x addr n wr)

/-- The windows open in an engine. -/
def Eng.windows (e : Eng) : List Window :=
  match e.item with
  | some i => i.windows.take 8
  | none => []

/-- The bytes of a window entry (R427). -/
def winBytes (win : Window) : List Byte :=
  natLe win.base 8 ++ natLe win.len 4 ++ natLe (flag win.rd + 2 * flag win.wr) 1 ++ List.replicate 3 0#8

/-- The bytes of a work item (Table 13-12). -/
def itemBytes (i : WorkItem) : List Byte :=
  natLe i.workId 8 ++ natLe i.kind 1 ++ natLe i.pi 1 ++ natLe (i.tenant % 1024) 2 ++ natLe i.nsid 4 ++ natLe i.slba 8 ++
  natLe i.nlb 4 ++ natLe i.cls 1 ++ natLe i.opts 1 ++ natLe (i.keySlot % 4096) 2 ++ natLe i.lbat 2 ++ natLe i.lbatm 2 ++
  natLe i.segment 4 ++ natLe i.ilbrt 8 ++ natLe i.stateAddr 8 ++ natLe i.aux 8 ++
  (i.args ++ List.replicate (64 - i.args.length) 0#8).take 64

/-- A byte of the ECR, by its offset. -/
def Eng.ecrByte (e : Eng) (ofs : Nat) : Byte :=
  match e.item with
  | none => 0
  | some i =>
    if ofs < 0x80 then (itemBytes i).getD ofs 0
    else match (i.windows.take 8)[(ofs - 0x80) / 16]? with
      | some x => (winBytes x).getD ((ofs - 0x80) % 16) 0
      | none => 0

/-- An engine's register; X0 reads 0 (R424). -/
def Eng.reg (e : Eng) (r : Nat) : Word64 := if r = 0 then 0 else Sparse.get 0 e.regs r

/-- An engine's register written; a write to X0 is discarded (R424). -/
def Eng.setReg (e : Eng) (r : Nat) (v : Word64) : Eng :=
  if r = 0 then e else { e with regs := Sparse.set 0 e.regs r v }

/-- Bytes of an engine's own memory or ECR. -/
def Eng.readMem (e : Eng) (a n : Nat) : List Byte :=
  match regionOf a n with
  | .imem => Mem.read e.imem a n
  | .dmem => Mem.read e.dmem a n
  | .ecr => (List.range n).map (fun i => e.ecrByte (a - 0x80000 + i))
  | _ => []

/-- The instruction word at an IMEM address. -/
def Eng.wordAt (e : Eng) (a : Nat) : Word32 := BitVec.ofNat 32 (Mem.readNat e.imem a 4)

/-- Bytes written to an engine's own memory. A store to IMEM keeps the words it replaces until an IFENCE (R441). -/
def Eng.writeMem (e : Eng) (a : Nat) (bs : List Byte) : Eng :=
  match regionOf a bs.length with
  | .imem =>
    let w := a / 4 * 4
    { e with
      imem := Mem.write e.imem a bs
      stale := (w, e.wordAt w) :: (if a + bs.length > w + 4 then [(w + 4, e.wordAt (w + 4))] else []) ++ e.stale }
  | .dmem => { e with dmem := Mem.write e.dmem a bs }
  | _ => e

/-- A system register written by MTS at its commit (Table 13-9). -/
def Eng.setSys (e : Eng) (num : Nat) (v : Word64) : Eng :=
  match num with
  | 0 => { e with flags := EFlags.ofWord v }
  | 1 => { e with epc := v.toNat }
  | 4 => { e with etvec := v.toNat }
  | _ => e

/-- An effect on the engine itself. -/
def Eng.apply (e : Eng) (x : Effect) : Eng :=
  match x with
  | .reg r v => e.setReg r v
  | .flags f => { e with flags := f }
  | .mem a bs => e.writeMem a bs
  | .sys n v => e.setSys n v
  | .leaveHandler => { e with inHandler := false }
  | .dram _ _ | .release _ _ => e

/-- Effects applied in order. -/
def Eng.applyAll (e : Eng) (l : List Effect) : Eng := l.foldl Eng.apply e

/-- The engine as its youngest instruction sees it: every uncommitted effect forwarded (R438). -/
def Eng.view (e : Eng) : Eng := e.queue.foldl (fun v q => v.applyAll q.effects) e

/-- The PC of the next instruction to enter the pipeline. -/
def Eng.fetchPc (e : Eng) : Nat :=
  match e.queue.getLast? with
  | some q => q.next
  | none => e.pc

/-- An engine whose clock is gated: what its registers show of its last fault, and its counts, stay (Tables 13-20, 13-23). -/
def Eng.gate (e : Eng) : Eng :=
  { faultCause := e.faultCause, faultEpc := e.faultEpc, faultAddr := e.faultAddr, cyc := e.cyc }

/-- Whether a PC can be fetched from (Table 13-11, FETCH). -/
def goodPc (pc : Nat) : Bool := decide (pc + 4 ≤ 0x8000) && pc % 4 == 0

/-- R441: the words that a fetch of an address may give: the word in IMEM, or an older copy of it that a store has replaced since the last
IFENCE. -/
def Eng.copiesAt (e : Eng) (a : Nat) : List Word32 := e.wordAt a :: (e.stale.filter (·.1 == a)).map (·.2)

/-- R441: whether the word that the next fetch gives may be `w`; directly after a store to IMEM, one of the copies before it only. -/
def Eng.fetches (e : Eng) (w : Word32) : Bool :=
  let pc := e.fetchPc
  goodPc pc && (match e.latched with
    | some (a, olds) => if a = pc then olds else e.copiesAt pc
    | none => e.copiesAt pc).contains w

/-- Whether an entry of the commit queue writes a register. -/
def QEntry.writes (q : QEntry) (r : Nat) : Bool :=
  q.load.any (·.dest == r) || q.effects.any (fun x => match x with
    | .reg d _ => d == r
    | _ => false)

/-- Whether a register's value waits for an outstanding DRAM load (R440): the youngest instruction that writes it is one. -/
def Eng.awaits (e : Eng) (r : Nat) : Bool :=
  r != 0 && (e.queue.reverse.find? (·.writes r)).any (·.load.isSome)

end Sys2Proof.Machine
end

