-- ==== Sys2Proof/Machine/Jobs.lean ====
section
/-!
DEFINITION. Accelerator jobs as their ports and units hold them: tickets, held jobs, release at commit, cancellation and the
cancel log (R447 to R451, R456, Table 13-22).
-/
namespace Sys2Proof.Machine

/-- The key of engine `e` of cluster `n`. -/
def engKey (n e : Nat) : Nat := n * 8 + e

/-- An engine by its key. -/
def Chip.engAt (c : Chip) (k : Nat) : Eng := Sparse.get {} c.sec.engs k

/-- An engine replaced. -/
def Chip.setEng (c : Chip) (k : Nat) (e : Eng) : Chip :=
  { c with sec := { c.sec with engs := Sparse.set {} c.sec.engs k e } }

/-- An engine changed. -/
def Chip.modEng (c : Chip) (k : Nat) (f : Eng → Eng) : Chip := c.setEng k (f (c.engAt k))

/-- A cluster by its number. -/
def Chip.clusAt (c : Chip) (n : Nat) : Clus := Sparse.get {} c.sec.clusters n

/-- A cluster changed. -/
def Chip.modClus (c : Chip) (n : Nat) (f : Clus → Clus) : Chip :=
  { c with sec := { c.sec with clusters := Sparse.set {} c.sec.clusters n (f (c.clusAt n)) } }

/-- A clock domain's clock starts again, and its idle time anew (R515). -/
def Chip.ungate (c : Chip) (d : Nat) : Chip :=
  { c with pwr := { c.pwr with gated := c.pwr.gated.filter (· != d), idleAt := c.pwr.idleAt.filter (·.1 != d) } }

/-- The pool that a cluster serves: its PARTITION entry's, 15 for none (R423). -/
def Chip.poolOf (c : Chip) (n : Nat) : Nat :=
  match c.kcf.active with
  | some i => (i.clusters.getD n {}).pool
  | none => 15

/-- The ticket of a port's job (R448). -/
def PortJob.ticket (j : PortJob) : Nat := j.port + 4 * j.entry + 256 * (j.seq % 0x1000000)

/-- The jobs of an engine that have committed and not ended. -/
def Chip.jobsOut (c : Chip) (k : Nat) : List PortJob :=
  (c.clusAt (k / 8)).jobs.filter (fun j => j.eng == k && j.state == .committed)

/-- The jobs of an engine whose AISS has not committed. -/
def Chip.jobsHeld (c : Chip) (k : Nat) : List PortJob :=
  (c.clusAt (k / 8)).jobs.filter (fun j => j.eng == k && j.state == .held)

/-- Jobs in flight on a port: held or committed (R448). -/
def Chip.inFlight (c : Chip) (n port : Nat) : List PortJob :=
  (c.clusAt n).jobs.filter (fun j => j.port == port && j.state != .ended)

/-- The job a ticket names, unless the entry has been used again since. -/
def Chip.jobOf (c : Chip) (k ticket : Nat) : Option PortJob :=
  (c.clusAt (k / 8)).jobs.find? (fun j => j.ticket == ticket && j.eng == k)

/-- A port's job changed, found by port and entry. -/
def Chip.modJob (c : Chip) (n port entry : Nat) (f : PortJob → PortJob) : Chip :=
  c.modClus n (fun cl => { cl with jobs := modifyFirst (fun j => j.port == port && j.entry == entry) f cl.jobs })

/-- The unit's hold on a job lifted at the AISS's commit (R449). -/
def Chip.unhold (c : Chip) (cls handle : Nat) : Chip :=
  match cls with
  | 1 => { c with dge := { c.dge with jobs := modifyFirst (·.handle == handle) ({ · with held := false }) c.dge.jobs } }
  | 2 => { c with cpe := { c.cpe with jobs := modifyFirst (·.handle == handle) ({ · with held := false }) c.cpe.jobs } }
  | 3 => { c with cmp := { c.cmp with jobs := modifyFirst (·.handle == handle) ({ · with held := false }) c.cmp.jobs } }
  | 4 => { c with rde := { c.rde with jobs := modifyFirst (·.handle == handle) ({ · with held := false }) c.rde.jobs } }
  | _ => c

/-- The nonce that a job has been assigned and not used up, 0 for none (R251). -/
def Chip.jobNonce (c : Chip) (cls handle : Nat) : Nat :=
  if cls = 2 then ((c.cpe.jobs.find? (·.handle == handle)).bind (·.nonce)).getD 0 else 0

/-- R254: a CMP job of OP 2 that fails or is cancelled before streaming ends the cipher job it names with UPSTREAM. -/
def Chip.failUpstream (c : Chip) (handle : Nat) : Chip :=
  match c.cmp.jobs.find? (fun j => j.handle == handle && j.op == 2 && !j.held) with
  | none => c
  | some j =>
    let jobs := modifyFirst (fun x => x.handle == j.cpeJob && x.op == 2 && x.pool == j.pool && !x.claimed)
      (fun x => { x with early := some 0x07 }) c.cpe.jobs
    { c with cpe := { c.cpe with jobs := jobs } }

/-- A job taken away from its unit, which discards its output; a nonce it held is burned (R251, R450). -/
def Chip.dropJob (c : Chip) (cls handle : Nat) : Chip :=
  let c := if cls = 3 then c.failUpstream handle else c
  let c := if c.jobNonce cls handle = 0 then c else c.bump R.CPE_CNT_BURNED_BURNED 1
  match cls with
  | 1 => { c with dge := { c.dge with jobs := c.dge.jobs.filter (·.handle != handle) } }
  | 2 => { c with cpe := { c.cpe with jobs := c.cpe.jobs.filter (·.handle != handle) } }
  | 3 => { c with cmp := { c.cmp with jobs := c.cmp.jobs.filter (·.handle != handle) } }
  | 4 => { c with rde := { c.rde with jobs := c.rde.jobs.filter (·.handle != handle) } }
  | _ => c

/-- The result of a job written into its engine's DMEM with VALID in the byte that comes last (R12), and the job ended with
its STATUS. -/
def Chip.endPortJob (c : Chip) (k ticket status : Nat) (result : List Byte) : Chip :=
  match c.jobOf k ticket with
  | none => c
  | some j =>
    let c := (c.ungate (k / 8)).modEng k (fun e => { e with dmem := Mem.write e.dmem j.resAddr result })
    c.modJob (k / 8) j.port j.entry (fun j => { j with state := .ended, status := status })

/-- The statuses that every unit uses for a cancelled job and a denied one. -/
def statusCancelled : Nat := 0x0A
/-- PORT_DENIED (R447). -/
def statusDenied : Nat := 0xF0

/-- The size of a class's result area (Table 13-15). -/
def resultBytes (cls : Nat) : Nat :=
  match cls with
  | 1 => 48
  | 2 => 32
  | 3 => 16
  | 4 => 16
  | _ => 32

/-- A result area with VALID, a STATUS in byte 1, and zeros (R451: OUT_LEN 0). -/
def bareResult (cls status : Nat) : List Byte :=
  [1#8, BitVec.ofNat 8 status] ++ List.replicate (resultBytes cls - 2) 0#8

/-- R449: at the commit of an AISS its job is released. Of a job that its port denied (R447), only the result is written. -/
def Chip.releaseJob (c : Chip) (k port entry : Nat) : Chip :=
  match (c.clusAt (k / 8)).jobs.find? (fun j => j.port == port && j.entry == entry) with
  | none => c
  | some j =>
    let c := c.modJob (k / 8) port entry (fun j => { j with state := .committed, windows := (c.engAt k).windows })
    let c := (c.unhold j.cls j.handle).bump (R.SEC_ENG_CNT_JOBS_JOBS (k / 8) (k % 8)) 1
    if j.status = statusDenied then c.endPortJob k j.ticket statusDenied (bareResult j.cls statusDenied) else c

/-- An entry of the cancel log, or a count of one lost while the log is full (Table 13-22). -/
def Chip.logCancel (c : Chip) (n : Nat) (e : CLogEntry) : Chip :=
  let cl := c.clusAt n
  if cl.clogFull then c.bump (R.SEC_CL_CNT_CLOG_LOST_CLOG_LOST n) 1
  else
    let next := (cl.clogTail + 1) % 256
    c.modClus n (fun cl => { cl with
      clog := Sparse.set ⟨0, 0, 0, 0, 0, 0⟩ cl.clog cl.clogTail { e with phase := cl.clogPhase }
      clogTail := next
      clogPhase := if next = 0 then 1 - cl.clogPhase else cl.clogPhase
      clogFull := next == c.get (R.SEC_CL_CLOG_HEAD n) })

/-- R450: the held job of a squashed AISS is cancelled: its output is discarded, a nonce is burned, and the cancel log shows it. -/
def Chip.squashJob (c : Chip) (k port entry : Nat) : Chip :=
  let n := k / 8
  match (c.clusAt n).jobs.find? (fun j => j.port == port && j.entry == entry && j.state == .held) with
  | none => c
  | some j =>
    let nonce := c.jobNonce j.cls j.handle
    let c := c.dropJob j.cls j.handle
    let c := if nonce = 0 then c else c.bump (R.SEC_CL_CNT_BURNED_BURNED n) 1
    let c := c.bump (R.SEC_CL_CNT_CANCEL_CANCELLED n) 1
    let c := c.modClus n (fun cl => { cl with jobs := cl.jobs.filter (fun x => !(x.port == port && x.entry == entry)) })
    c.logCancel n ⟨0, k % 8, j.cls, j.ticket, j.workId, nonce⟩

/-- R451: a committed job that has not ended is cancelled; its result says CANCELLED, and a nonce not used up is burned. -/
def Chip.cancelJob (c : Chip) (k ticket : Nat) : Chip :=
  match c.jobOf k ticket with
  | none => c
  | some j =>
    if j.state = .committed then
      let nonce := c.jobNonce j.cls j.handle
      let c := c.dropJob j.cls j.handle
      let c := if nonce = 0 then c else c.bump (R.SEC_CL_CNT_BURNED_BURNED (k / 8)) 1
      let c := c.bump (R.SEC_CL_CNT_CANCEL_CANCELLED (k / 8)) 1
      c.endPortJob k ticket statusCancelled (bareResult j.cls statusCancelled)
    else c

end Sys2Proof.Machine
end

