-- ==== Sys2Proof/Machine/Units.lean ====
section
/-!
DEFINITION. What the accelerators share: who issued a job, the windows it may reach, its result, and how the cores are shared among
pools (R231, R259, R321, R447).
-/
namespace Sys2Proof.Machine

/-- Who issued a job: an engine with the ticket of its port's job, or the control cores by their internal port; where its result
goes; and whether it is held (R449). -/
structure Issuer where
  engine : Option Nat
  ticket : Nat
  resAddr : Nat
  held : Bool

/-- The issuer of a job command: engine `eng` (cluster × 8 + engine), or the control cores for a number that is no engine's. -/
def issuerOf (eng resAddr : Nat) : Issuer := ⟨if eng < 192 then some eng else none, 0, resAddr, false⟩

/-- The pool stamped into a job (R447): that of the engine's cluster, or the one the control cores name. -/
def Chip.stampPool (c : Chip) (eng pool : Nat) : Nat := if eng < 192 then c.poolOf (eng / 8) else pool

/-- Whether an issuer may reach `n` bytes at an address: an engine through its windows, the control cores anywhere. -/
def Chip.mayReach (c : Chip) (engine : Option Nat) (addr n : Nat) (wr : Bool) : Bool :=
  match engine with
  | none => true
  | some k => n == 0 || windowsAllow (c.engAt k).windows addr n wr

/-- R447: whether a unit may reach an address through a list: the windows are those open at the commit of the job's AISS. -/
def Chip.jobReach (c : Chip) (engine : Option Nat) (ticket addr n : Nat) (wr : Bool) : Bool :=
  match engine with
  | none => true
  | some k => match c.jobOf k ticket with
    | some j => n == 0 || windowsAllow j.windows addr n wr
    | none => c.mayReach engine addr n wr

/-- A pool of the active image. -/
def Chip.poolEnt (c : Chip) (p : Nat) : PoolEnt :=
  match c.kcf.active with
  | some i => i.pools.getD p {}
  | none => {}

/-- A result (R11 to R15): written into the engine's DMEM, or shown to the control cores. -/
def Chip.giveResult (c : Chip) (engine : Option Nat) (ticket resAddr cls handle status : Nat) (bytes : List Byte) : Chip :=
  match engine with
  | some k =>
    if (c.jobOf k ticket).isSome then c.endPortJob k ticket status bytes
    else c.modEng k (fun e => { e with dmem := Mem.write e.dmem resAddr bytes })
  | none =>
    let r : JobResult := ⟨handle, true, status, bytes.map (·.toNat)⟩
    match cls with
    | 1 => { c with dge := { c.dge with results := r :: c.dge.results.filter (·.handle != handle) } }
    | 2 => { c with cpe := { c.cpe with results := r :: c.cpe.results.filter (·.handle != handle) } }
    | 3 => { c with cmp := { c.cmp with results := r :: c.cmp.results.filter (·.handle != handle) } }
    | _ => { c with rde := { c.rde with results := r :: c.rde.results.filter (·.handle != handle) } }

/-- R447: a job its port denies: only its result is written. -/
def Chip.deny (c : Chip) (i : Issuer) (cls : Nat) : Chip :=
  c.giveResult i.engine i.ticket i.resAddr cls 0 statusDenied (bareResult cls statusDenied)

/-- A nonce of a job that ended without its output burned (R251); a cluster's jobs are counted there too. -/
def Chip.burn (c : Chip) (engine : Option Nat) : Chip :=
  let c := c.bump R.CPE_CNT_BURNED_BURNED 1
  match engine with
  | some k => c.bump (R.SEC_CL_CNT_BURNED_BURNED (k / 8)) 1
  | none => c

/-- R231: the event of a reservation that failed cores leave short, once. -/
def Chip.reservationCheck (c : Chip) : Chip :=
  let mins := fun (f : PoolEnt → Nat) => sumOf ((List.range 15).map (fun p => f (c.poolEnt p)))
  let short := decide (c.cmp.compUp.length < mins (·.minCmp)) || decide (c.cmp.dcmpUp.length < mins (·.minDcmp)) ||
    decide (c.cpe.up.length < mins (·.minCpe)) || decide (c.dge.up.length < mins (·.minDge))
  if short && !c.cmp.shortRecorded then
    ({ c with cmp := { c.cmp with shortRecorded := true } } : Chip).event 0x143 0 0 0 0 0
  else c

/-- A core or unit taken out of service (R139): 0 digest, 1 cipher, 2 compressor, 3 decompressor, 4 erasure coding. -/
def Chip.takeOut (c : Chip) (kind unit : Nat) : Chip :=
  match kind with
  | 0 => { c with dge := { c.dge with up := c.dge.up.filter (· != unit), failing := unit :: c.dge.failing } }
  | 1 => { c with cpe := { c.cpe with up := c.cpe.up.filter (· != unit), failing := unit :: c.cpe.failing } }
  | 2 => { c with cmp := { c.cmp with compUp := c.cmp.compUp.filter (· != unit), compFailing := unit :: c.cmp.compFailing } }
  | 3 => { c with cmp := { c.cmp with dcmpUp := c.cmp.dcmpUp.filter (· != unit), dcmpFailing := unit :: c.cmp.dcmpFailing } }
  | 4 => { c with rde := { c.rde with up := c.rde.up.filter (· != unit), failing := unit :: c.rde.failing } }
  | _ => c

/-! ### Sharing the cores -/

/-- A job as the sharing of the cores sees it: its handle, pool and cost in input bytes; whether the control cores issued it. -/
structure JobView where
  handle : Nat
  pool : Nat
  cost : Nat
  internal : Bool

/-- The pool that each core in service is reserved to: pools in order, lowest core numbers first (R231). -/
def reservedTo (mins : List Nat) (up : List Nat) (core : Nat) : Option Nat :=
  let starts := (List.range mins.length).map (fun p => sumOf (mins.take p))
  match up.idxOf? core with
  | none => none
  | some i => (List.range mins.length).find? (fun p => decide (starts.getD p 0 ≤ i) && decide (i < starts.getD p 0 + mins.getD p 0))

/-- The job of the pool served least for its weight (the round robin of R231; log entry 20). -/
def Chip.fairest (_c : Chip) (served : List (Nat × Nat)) (jobs : List JobView) : Option JobView :=
  jobs.foldl (fun o j => match o with
    | none => some j
    | some b => if Sparse.get 0 served j.pool < Sparse.get 0 served b.pool then some j else some b) none

/-- What a pool has been served after one more job, in input bytes over its WEIGHT. -/
def Chip.charge (c : Chip) (served : List (Nat × Nat)) (j : JobView) : List (Nat × Nat) :=
  Sparse.set 0 served j.pool (Sparse.get 0 served j.pool + j.cost * 65536 / max 1 (c.poolEnt j.pool).weight)

/-- The job that a free core takes: one of the control cores' where they may have the core, else one of the pool it is reserved to, else
the fairest. -/
def Chip.pickJob (c : Chip) (own : Option Nat) (internalOk : Bool) (served : List (Nat × Nat)) (jobs : List JobView) :
    Option (JobView × List (Nat × Nat)) :=
  match if internalOk then jobs.find? (·.internal) else none with
  | some j => some (j, served)
  | none =>
    let pooled := jobs.filter (fun j => !j.internal)
    match pooled.find? (fun j => own == some j.pool) with
    | some j => some (j, served)
    | none => (c.fairest served pooled).map (fun j => (j, c.charge served j))

end Sys2Proof.Machine
end

