-- ==== Sys2Proof/Machine/Cipher.lean ====
section
/-!
DEFINITION. Cipher jobs and nonces (R235, R246 to R258, R269).
-/
namespace Sys2Proof.Machine

/-- The tenant whose range holds a slot (R234). -/
def Chip.slotOwner (c : Chip) (slot : Nat) : Option Nat :=
  match c.kcf.active with
  | none => none
  | some i => (i.tenants.find? (fun e => e.2.valid && decide (e.2.keyBase ≤ slot) && decide (slot < e.2.keyBase + e.2.keyCount))).map (·.1)

/-- The internal slot that a number above the 4096 tenant slots names (R237). -/
def internalSlot (slot : Nat) : Option Nat := if 4096 ≤ slot && decide (slot < 4112) then some (slot - 4096) else none

/-- A change of one key slot. -/
def Chip.modSlot (c : Chip) (k : Nat) (f : KeySlot → KeySlot) : Chip :=
  { c with cpe := { c.cpe with slots := Sparse.set {} c.cpe.slots k (f (c.slot k)) } }

/-- R235: whether a job may use the pair of slot and tenant. -/
def Chip.permitted (c : Chip) (j : CipherJob) : Bool :=
  if (internalSlot j.slot).isSome then j.engine.isNone
  else
    let t := c.tenantOf j.tenant
    t.valid && t.pool == j.pool && (match c.slotOwner j.slot with
      | none => false
      | some o => if j.op ≤ 2 then o == j.tenant else (c.tenantOf o).dom == t.dom)

/-- The key a job uses: for encryption one that is still in its slot, for decryption a LOADED one (R234, R245). -/
def Chip.jobKey (c : Chip) (j : CipherJob) : Option Nat :=
  match internalSlot j.slot with
  | some n => (c.cpe.internal.find? (·.1 == n)).map (·.2)
  | none =>
    let s := c.slot j.slot
    if s.state = .loaded || (s.state = .erasing && decide (j.op ≤ 2)) then some s.key else none

/-- R246: a record encrypted no later than the slot's erase. -/
def Chip.erasedBefore (c : Chip) (slot epoch : Nat) : Bool :=
  (internalSlot slot).isNone && (c.slot slot).erased && decide (epoch ≤ (c.slot slot).eraseEpoch)

/-- The input length of a job: what was streamed for OP 2, else SRC_LEN. -/
def CipherJob.inLen (j : CipherJob) : Nat :=
  if j.op = 2 then ((j.stream.map (·.2.length)).getD 0) else j.srcLen

/-- The FORM of an encryption. -/
def CipherJob.formOf (j : CipherJob) : Nat := if j.op = 2 then ((j.stream.map (·.1)).getD 0) else j.form

/-- R253: whether the header template is as it must be. -/
def Chip.templateOk (c : Chip) (j : CipherJob) : Bool :=
  let h := c.load j.hdrAddr 64
  leNat (h.take 2) == 0x4B43 && leNat ((h.drop 2).take 1) == 0 && decide (1 ≤ leNat ((h.drop 3).take 1)) &&
  decide (leNat ((h.drop 3).take 1) ≤ 64) && leNat ((h.drop 4).take 4) == 0 &&
  leNat ((h.drop 8).take 2) == (c.tenantOf j.tenant).dom && leNat (h.drop 10) == 0

/-- What stops an encryption before it takes a nonce, in the order of R252, R253, R235, R234, R250. -/
def Chip.encryptCheck (c : Chip) (j : CipherJob) : Option Nat :=
  if j.op = 0 || 4 < j.op then some 0x0B
  else if j.op == 1 && (j.srcLen == 0 || decide (262144 < j.srcLen)) then some 0x06
  else if !c.templateOk j then some 0x04
  else if !c.permitted j then some 0x03
  else if (c.jobKey j).isNone then some 0x02
  else if j.dstCap < j.inLen then some 0x05
  else if !c.on R.CPE_STATUS_NONCE_READY then some 0x0C
  else none

/-- The nonce that a core forms (R247). -/
def Chip.formNonce (c : Chip) (core : Nat) : Nat :=
  c.get R.GLB_HEAD_HEAD_ID * 2 ^ 88 + core * 2 ^ 82 + c.get R.CPE_NONCE_INST_INST * 2 ^ 64 + Sparse.get 0 c.cpe.counters core

/-- A cipher job changed. -/
def Chip.modCipher (c : Chip) (handle : Nat) (f : CipherJob → CipherJob) : Chip :=
  { c with cpe := { c.cpe with jobs := modifyFirst (·.handle == handle) f c.cpe.jobs } }

/-- R249: a core takes a job; an encryption that passes its checks is assigned its nonce. -/
def Chip.startCipher (c : Chip) (j : CipherJob) (core : Nat) : Chip :=
  if j.op = 3 || j.op = 4 || j.early.isSome then c.modCipher j.handle (fun x => { x with core := some core })
  else
    match c.encryptCheck j with
    | some st => c.modCipher j.handle (fun x => { x with core := some core, early := some st })
    | none =>
      let n := c.formNonce core
      let e := c.epoch
      let c := c.modCipher j.handle (fun x => { x with core := some core, nonce := some n, nonceEpoch := e })
      let counters := Sparse.modify 0 c.cpe.counters core (· + 1)
      ({ c with cpe := { c.cpe with counters := counters } } : Chip).bump R.CPE_CNT_NONCE_NONCE 1

/-- Jobs of a pool's cipher queue. -/
def Chip.cipherQueued (c : Chip) (pool : Nat) : List CipherJob := c.cpe.jobs.filter (fun j => j.pool == pool && j.core.isNone)

/-- The lowest queue entry of a pool that no waiting job uses, and the handle it gives (R254). -/
def Chip.newHandle (c : Chip) (pool : Nat) : Option (Nat × Nat) :=
  let used := (c.cipherQueued pool).map (fun j => j.handle / 2 ^ 20 % 256)
  ((List.range 256).find? (fun e => !used.contains e)).map (fun e =>
    (e, pool % 16 * 2 ^ 28 + e * 2 ^ 20 + Sparse.get 0 c.cpe.entrySeqs (pool * 256 + e) % 2 ^ 20))

/-- What the port checks of a cipher job (R447). -/
def Chip.cipherAllowed (c : Chip) (engine : Option Nat) (op : Nat) (d : CipherDesc) : Bool :=
  (op == 2 || c.mayReach engine d.srcAddr d.srcLen false) && c.mayReach engine d.dstAddr d.dstCap true &&
  c.mayReach engine d.hdrAddr 64 (decide (op ≤ 2))

/-- A cipher job taken from a port (R252, R447). While the queue is full the port stalls. -/
def Chip.submitCipher (c : Chip) (i : Issuer) (op pool : Nat) (d : CipherDesc) : Chip :=
  match c.newHandle pool with
  | none => c
  | some (entry, handle) =>
    if !c.cipherAllowed i.engine op d then c.deny i 2
    else
      let j : CipherJob := { handle := handle, op := op, pool := pool, slot := d.slot, tenant := d.tenant, srcLen := d.srcLen,
                             dstCap := d.dstCap, srcAddr := d.srcAddr, dstAddr := d.dstAddr, hdrAddr := d.hdrAddr,
                             form := d.form, engine := i.engine, ticket := i.ticket, resAddr := i.resAddr, held := i.held }
      let seqs := Sparse.modify 0 c.cpe.entrySeqs (pool * 256 + entry) (· + 1)
      { c with cpe := { c.cpe with jobs := c.cpe.jobs ++ [j], entrySeqs := seqs } }

/-- ENCRYPT (R253): a job of OP 1. -/
def encrypt (eng pool : Nat) (desc : CipherDesc) (c : Chip) : Chip :=
  c.submitCipher (issuerOf eng desc.resAddr) 1 (c.stampPool eng pool) desc

/-- ENCRYPT_STREAMED (R254): a job of OP 2. -/
def encryptStreamed (eng pool : Nat) (desc : CipherDesc) (c : Chip) : Chip :=
  c.submitCipher (issuerOf eng desc.resAddr) 2 (c.stampPool eng pool) desc

/-- DECRYPT (R255): a job of OP 3. -/
def decrypt (eng pool : Nat) (desc : CipherDesc) (c : Chip) : Chip :=
  c.submitCipher (issuerOf eng desc.resAddr) 3 (c.stampPool eng pool) desc

/-- DECRYPT_DECOMPRESS (R256): a job of OP 4. -/
def decryptDecompress (eng pool : Nat) (desc : CipherDesc) (c : Chip) : Chip :=
  c.submitCipher (issuerOf eng desc.resAddr) 4 (c.stampPool eng pool) desc

/-- The 32 bytes of a cipher result (Table 8-7). -/
def cipherResult (status form core out nonce dcmp : Nat) : List Byte :=
  [1#8] ++ natLe status 1 ++ natLe form 1 ++ natLe core 1 ++ natLe out 4 ++ natLe nonce 12 ++ natLe dcmp 1 ++ List.replicate 11 0#8

/-- A cipher job ended. -/
def Chip.endCipher (c : Chip) (j : CipherJob) (status form out dcmp : Nat) : Chip :=
  let c := { c with cpe := { c.cpe with jobs := c.cpe.jobs.filter (·.handle != j.handle) } }
  let c := if status = 2 || status = 3 then c.bump R.CPE_CNT_DENIED_DENIED 1 else c
  let c := if status = 1 then c.bump R.CPE_CNT_TAG_FAIL_TAG_FAIL 1 else c
  c.giveResult j.engine j.ticket j.resAddr 2 j.handle status
    (cipherResult status form (j.core.getD 0) out (j.nonce.getD 0) dcmp)

/-- The completed chunk header with TAG as zeros (R253): the template's BLOCKS and DOMAIN, and what the core fills in. -/
def Chip.filledHeader (c : Chip) (j : CipherJob) (nonce : Nat) (tag : List Byte) : List Byte :=
  let h := c.load j.hdrAddr 64
  h.take 2 ++ natLe j.formOf 1 ++ (h.drop 3).take 1 ++ natLe j.tenant 2 ++ natLe j.slot 2 ++ (h.drop 8).take 4 ++
  natLe j.inLen 4 ++ natLe nonce 12 ++ List.replicate 4 0#8 ++ tag ++ natLe j.nonceEpoch 6 ++ List.replicate 10 0#8

/-- Sixteen zero bytes, as TAG is taken in the additional data. -/
def zeroTag : List Byte := List.replicate 16 0#8

/-- An encryption's end: header and ciphertext written (R253). -/
def Chip.finishEncrypt (c : Chip) (j : CipherJob) (nonce key : Nat) : Chip :=
  let ks := aesKeys (keyBytes key)
  let iv := natLe nonce 12
  let plain := if j.op = 2 then ((j.stream.map (·.2)).getD []) else c.load j.srcAddr j.srcLen
  let ct := gcmCrypt ks iv plain
  let tag := gcmTag ks iv (c.filledHeader j nonce zeroTag) ct
  let hdr := c.filledHeader j nonce tag
  (((c.store j.hdrAddr hdr).store j.dstAddr ct).bump R.CPE_CNT_ENC_ENC 1).endCipher j 0 j.formOf ct.length 0

/-- What stops a decryption, in the order of R252 and R255. -/
def Chip.decryptCheck (c : Chip) (j : CipherJob) (h : List Byte) : Option Nat :=
  if j.srcLen = 0 || decide (262144 < j.srcLen) || (j.op == 4 && (j.dstCap == 0 || decide (8388608 < j.dstCap))) then some 0x06
  else if leNat (h.take 2) != 0x4B43 || leNat ((h.drop 12).take 4) != j.srcLen || leNat ((h.drop 6).take 2) != j.slot then some 0x04
  else if !c.permitted j then some 0x03
  else if (c.jobKey j).isNone || c.erasedBefore j.slot (leNat ((h.drop 48).take 6)) then some 0x02
  else if j.op == 3 && decide (j.dstCap < j.srcLen) then some 0x05
  else none

/-- A decryption's end (R255 to R257): nothing is written unless the tag verifies; OP 4 goes on into a decompressor, which a record of FORM 0 passes
unchanged (R190). -/
def Chip.finishDecrypt (c : Chip) (j : CipherJob) (key : Nat) (h : List Byte) (dcmp : CmpOutcome) : Chip :=
  let ks := aesKeys (keyBytes key)
  let iv := (h.drop 16).take 12
  let nonce := leNat iv
  let form := leNat ((h.drop 2).take 1) % 4
  let ct := c.load j.srcAddr j.srcLen
  let j := { j with nonce := some nonce }
  if gcmTag ks iv (h.take 32 ++ zeroTag ++ h.drop 48) ct != (h.drop 32).take 16 then c.endCipher j 0x01 form 0 0
  else if j.op = 3 then
    let plain := gcmCrypt ks iv ct
    (((c.store j.dstAddr plain).bump R.CPE_CNT_DEC_DEC 1).endCipher j 0 form j.srcLen 0).decrypted h (j.core.getD 0) plain
  else
    let plain := gcmCrypt ks iv ct
    match if form = 0 then .content 0 plain 0 else dcmp with
    | .content found bytes _ =>
      let st := if form = 0 then (if j.dstCap < plain.length then 1 else 0) else frameStatus plain found bytes.length j.dstCap
      let out := if 2 ≤ st && decide (st ≤ 4) then [] else bytes.take j.dstCap
      (((c.store j.dstAddr out).bump R.CPE_CNT_DEC_DEC 1).endCipher j (if st = 0 then 0 else 0x08) form out.length st).opened
        (fun f => f.record.take 64 == h) (j.core.getD 0) (if st ≤ 1 then some bytes else none)
    | .busError => (c.bump R.CPE_CNT_DEC_DEC 1).endCipher j 0x09 form 0 0x09
    | .frame _ => c

/-- Whether a job reads poisoned data (R492): its header, and its input but for OP 2, whose input streams in. -/
def Chip.cipherPoison (c : Chip) (j : CipherJob) : Bool :=
  c.poisonedAt j.hdrAddr 64 || (j.op != 2 && c.poisonedAt j.srcAddr j.srcLen)

/-- CIPHER_JOB_END (R258): a running job that is not held ends; so does an OP 2 job whose CMP job failed (R254). -/
def cipherJobEnd (handle : Nat) (busError : Bool) (dcmp : CmpOutcome) (c : Chip) : Chip :=
  match c.cpe.jobs.find? (·.handle == handle) with
  | none => c
  | some j =>
    if j.held || (j.core.isNone && j.early.isNone) then c
    else
      match j.early with
      | some st => c.endCipher j st 0 0 0
      | none =>
        if busError || c.cipherPoison j then (if j.nonce.isSome then c.burn j.engine else c).endCipher j 0x09 0 0 0
        else if j.op ≤ 2 then
          match j.nonce, c.jobKey j with
          | some n, some key => c.finishEncrypt j n key
          | some _, none => (c.burn j.engine).endCipher j 0x02 0 0 0
          | none, _ => c
        else if 4 < j.op then c.endCipher j 0x0B 0 0 0
        else
          let h := c.load j.hdrAddr 64
          match c.decryptCheck j h, c.jobKey j with
          | some st, _ => c.endCipher j st 0 0 0
          | none, some key => c.finishDecrypt j key h dcmp
          | none, none => c.endCipher j 0x02 0 0 0

/-! ### The nonce incarnation -/

/-- The INST that the sealed store keeps for this head ID (R248). -/
def Chip.sealedInst (c : Chip) : Nat := Sparse.get 0 c.root.mono.inst (c.get R.GLB_HEAD_HEAD_ID)

/-- INST_TAKE (R248 to R250): after a reset, or once a catalogue shelf can be written again, the largest INST found plus one becomes the head's, once a
catalogue shelf holds it. A head that holds an INST takes none: after Night it goes on with the one that it had (R249). -/
def instTake (shelfMax : Nat) (writable : Bool) (c : Chip) : Chip :=
  let new := max c.sealedInst (max shelfMax c.cpe.shelfInst) + 1
  if c.on R.CPE_STATUS_NONCE_READY then c
  else if !c.cpe.instPending then (c.set R.CPE_NONCE_INST_INST c.sealedInst).set R.CPE_STATUS_NONCE_READY 1
  else if 0x3FFFF < new then
    ((c.set R.CPE_STATUS_INST_EXHAUSTED 1).set R.CPE_STATUS_NONCE_READY 0).event 0x142 0 0 0 0 0
  else if !writable then
    let c := c.set R.CPE_STATUS_NONCE_READY 0
    ({ c with cpe := { c.cpe with instPending := true } } : Chip).event 0x142 0 0 1 0 0
  else
    let inst := Sparse.set 0 c.root.mono.inst (c.get R.GLB_HEAD_HEAD_ID) new
    let c := { c with root := { c.root with mono := { c.root.mono with inst := inst }, writes := c.root.writes + 1 } }
    let c := { c with cpe := { c.cpe with shelfInst := new, instPending := false, counters := [] } }
    let c := (c.set R.CPE_NONCE_INST_INST new).set R.CPE_STATUS_NONCE_READY 1
    if 235929 ≤ new && !c.on R.CPE_STATUS_INST_WARN then (c.set R.CPE_STATUS_INST_WARN 1).event 0x141 0 new 0 0 0 else c

/-- The counters of Table 8-15. -/
def cpeCounters : List Fld :=
  [R.CPE_CNT_ENC_ENC, R.CPE_CNT_DEC_DEC, R.CPE_CNT_TAG_FAIL_TAG_FAIL, R.CPE_CNT_NONCE_NONCE, R.CPE_CNT_BURNED_BURNED,
   R.CPE_CNT_DENIED_DENIED]

/-- CPE_CNT_CLR (R269). -/
def cpeCntClr (c : Chip) : Chip := c.clearAll cpeCounters

-- EXEC encrypt encryptStreamed decrypt decryptDecompress cipherJobEnd instTake cpeCntClr

/-- ENCRYPT (R253). -/
def execEncrypt (eng : Nat) (pool : Nat) (desc : CipherDesc) (s : State) : Host.Outcome State Fault Refusal :=
  s.runAwake true (encrypt eng pool desc)

/-- ENCRYPT_STREAMED (R254). -/
def execEncryptStreamed (eng : Nat) (pool : Nat) (desc : CipherDesc) (s : State) : Host.Outcome State Fault Refusal :=
  s.runAwake true (encryptStreamed eng pool desc)

/-- DECRYPT (R255). -/
def execDecrypt (eng : Nat) (pool : Nat) (desc : CipherDesc) (s : State) : Host.Outcome State Fault Refusal :=
  s.runAwake true (decrypt eng pool desc)

/-- DECRYPT_DECOMPRESS (R256). -/
def execDecryptDecompress (eng : Nat) (pool : Nat) (desc : CipherDesc) (s : State) : Host.Outcome State Fault Refusal :=
  s.runAwake true (decryptDecompress eng pool desc)

/-- CIPHER_JOB_END (R258). -/
def execCipherJobEnd (handle : Nat) (busError : Bool) (dcmp : CmpOutcome) (s : State) : Host.Outcome State Fault Refusal :=
  s.runAwake true (cipherJobEnd handle busError dcmp)

/-- INST_TAKE (R248). -/
def execInstTake (shelfMax : Nat) (writable : Bool) (s : State) : Host.Outcome State Fault Refusal :=
  s.runAwake true (instTake shelfMax writable)

/-- CPE_CNT_CLR (R269). -/
def execCpeCntClr (s : State) : Host.Outcome State Fault Refusal :=
  s.runBar2 true true R.CPE_CNT_CLR_CLR cpeCntClr

-- END EXEC

end Sys2Proof.Machine
end

