-- ==== Sys2Proof/Machine/CmpUnit.lean ====
section
/-!
DEFINITION. Compressor and decompressor jobs (R225 to R233).
-/
namespace Sys2Proof.Machine

/-- A CMP job descriptor as its issuer fills it (Table 7-6). -/
structure CmpDesc where
  op : Nat
  noFallback : Bool
  srcLen : Nat
  srcAddr : Nat
  dstAddr : Nat
  dstCap : Nat
  cpeJob : Nat

/-- Whether a job is for a compressor; everything else goes to a decompressor. -/
def compresses (op : Nat) : Bool := op == 1 || op == 2

/-- Whether a pool's queue of 256 jobs has room (R231). -/
def Chip.cmpRoom (c : Chip) (pool op : Nat) : Bool :=
  decide ((c.cmp.jobs.filter (fun j => j.pool == pool && j.core.isNone && compresses j.op == compresses op)).length < 256)

/-- What the port checks of a CMP job (R447). -/
def Chip.cmpAllowed (c : Chip) (engine : Option Nat) (d : CmpDesc) : Bool :=
  c.mayReach engine d.srcAddr d.srcLen false && (d.op == 2 || c.mayReach engine d.dstAddr d.dstCap true)

/-- A CMP job taken from a port (R229, R447). While the queue is full the port stalls and nothing happens. -/
def Chip.submitCmp (c : Chip) (i : Issuer) (pool : Nat) (d : CmpDesc) : Chip :=
  if !c.cmpRoom pool d.op then c
  else if !c.cmpAllowed i.engine d then c.deny i 3
  else
    let j : CmpJob := { handle := c.cmp.nextHandle, op := d.op, noFallback := d.noFallback, pool := pool,
                        srcLen := d.srcLen, srcAddr := d.srcAddr, dstAddr := d.dstAddr, dstCap := d.dstCap, cpeJob := d.cpeJob,
                        engine := i.engine, ticket := i.ticket, resAddr := i.resAddr, held := i.held }
    { c with cmp := { c.cmp with jobs := c.cmp.jobs ++ [j], nextHandle := c.cmp.nextHandle + 1 } }

/-- CMP_COMPRESS (R229): a job of OP 1. -/
def cmpCompress (eng pool : Nat) (noFallback : Bool) (srcLen srcAddr dstAddr dstCap resAddr : Nat) (c : Chip) : Chip :=
  c.submitCmp (issuerOf eng resAddr) (c.stampPool eng pool) ⟨1, noFallback, srcLen, srcAddr, dstAddr, dstCap, 0⟩

/-- CMP_COMPRESS_TO_CIPHER (R232): a job of OP 2. -/
def cmpCompressToCipher (eng pool : Nat) (noFallback : Bool) (srcLen srcAddr cpeJob resAddr : Nat) (c : Chip) : Chip :=
  c.submitCmp (issuerOf eng resAddr) (c.stampPool eng pool) ⟨2, noFallback, srcLen, srcAddr, 0, 0, cpeJob⟩

/-- CMP_DECOMPRESS (R228): a job of OP 3. -/
def cmpDecompress (eng pool srcLen srcAddr dstAddr dstCap resAddr : Nat) (c : Chip) : Chip :=
  c.submitCmp (issuerOf eng resAddr) (c.stampPool eng pool) ⟨3, false, srcLen, srcAddr, dstAddr, dstCap, 0⟩

/-- The status of a job whose OP or lengths are out of range (R229). -/
def CmpJob.limit (j : CmpJob) : Option Nat :=
  if j.op = 0 || 3 < j.op then some 0x0B
  else if j.op = 3 then
    if 1 ≤ j.srcLen && decide (j.srcLen ≤ 8388608 + 1024) && decide (j.dstCap ≤ 8388608) then none else some 0x08
  else if 1 ≤ j.srcLen && decide (j.srcLen ≤ 262144) && (j.op == 2 || decide (j.dstCap ≤ 8388608)) then none else some 0x08

/-- The 16 bytes of a CMP result (R230). -/
def cmpResult (status form out inp core : Nat) : List Byte :=
  [1#8] ++ natLe status 1 ++ natLe form 1 ++ [0#8] ++ natLe out 4 ++ natLe inp 4 ++ natLe core 1 ++ List.replicate 3 0#8

/-- A CMP job ended: its result given and the job taken out of the unit. -/
def Chip.endCmp (c : Chip) (j : CmpJob) (status form out inp : Nat) : Chip :=
  let c := { c with cmp := { c.cmp with jobs := c.cmp.jobs.filter (·.handle != j.handle) } }
  c.giveResult j.engine j.ticket j.resAddr 3 j.handle status (cmpResult status form out inp (j.core.getD 0))

/-- A job that ends with its result and nothing else; a job of OP 2 fails the cipher job it names (R254). -/
def Chip.failCmp (c : Chip) (j : CmpJob) (status : Nat) : Chip := (c.failUpstream j.handle).endCmp j status 0 0 0

/-- Compressed bytes counted (Table 7-10). -/
def Chip.countCmp (c : Chip) (j : CmpJob) (form out : Nat) : Chip :=
  let c := (c.bump R.CMP_CNT_IN_IN (ceilDiv j.srcLen 64)).bump R.CMP_CNT_OUT_OUT (ceilDiv out 64)
  if form = 0 then c.bump R.CMP_CNT_RAW_RAW 1 else c

/-- R227: the form stored and its bytes: the frame where it saves one thirty-second, else the plaintext. -/
def Chip.chosenForm (c : Chip) (j : CmpJob) (frame : List Byte) : Nat × List Byte :=
  if j.noFallback || decide (frame.length * 32 ≤ j.srcLen * 31) then (1, frame) else (0, c.load j.srcAddr j.srcLen)

/-- Whether a cipher job waits to be claimed by a job of OP 2 (R254). -/
def claimable (j : CmpJob) (x : CipherJob) : Bool :=
  x.handle == j.cpeJob && x.op == 2 && x.pool == j.pool && !x.claimed && x.early.isNone

/-- A compressor's end: the bytes go to DST_ADDR, or stream into the cipher job that CPE_JOB names. -/
def Chip.endCompress (c : Chip) (j : CmpJob) (frame : List Byte) : Chip :=
  let f := c.chosenForm j frame
  if j.op = 2 then
    if c.cpe.jobs.any (claimable j) then
      let jobs := modifyFirst (claimable j) (fun x => { x with claimed := true, stream := some f }) c.cpe.jobs
      let c := { c with cpe := { c.cpe with jobs := jobs } }
      (c.countCmp j f.1 f.2.length).endCmp j 0 f.1 f.2.length j.srcLen
    else c.endCmp j 0x0B 0 0 0
  else if j.dstCap < f.2.length then c.endCmp j 0x01 f.1 0 j.srcLen
  else ((c.store j.dstAddr f.2).countCmp j f.1 f.2.length).endCmp j 0 f.1 f.2.length j.srcLen

/-- A decompressor's end (R228, R230): the core gives what it found in decoding the frame, and the content up to there. -/
def Chip.endDecompress (c : Chip) (j : CmpJob) (found : Nat) (bytes : List Byte) (consumed : Nat) : Chip :=
  let src := c.load j.srcAddr j.srcLen
  let status := frameStatus src found bytes.length j.dstCap
  let out := if 2 ≤ status && decide (status ≤ 4) then [] else bytes.take j.dstCap
  let c := if 2 ≤ status && decide (status ≤ 7) then c.bump R.CMP_CNT_REJECT_REJECT 1 else c
  ((c.store j.dstAddr out).endCmp j status 1 out.length (min consumed j.srcLen)).opened (fun f => !f.frame.isEmpty && f.frame == src)
    (j.core.getD 0) (if status ≤ 1 then some bytes else none)

/-- CMP_JOB_END (R230): a running job that is not held (R449) ends; one whose source is poisoned with BUS_ERROR (R492). -/
def cmpJobEnd (handle : Nat) (out : CmpOutcome) (c : Chip) : Chip :=
  match c.cmp.jobs.find? (·.handle == handle) with
  | none => c
  | some j =>
    if j.held || j.core.isNone then c
    else
      match j.limit with
      | some st => c.failCmp j st
      | none =>
        if c.poisonedAt j.srcAddr j.srcLen then c.failCmp j 0x09
        else match out with
        | .busError => c.failCmp j 0x09
        | .frame bytes => if compresses j.op && frameMade j.srcLen bytes then c.endCompress j bytes else c
        | .content status bytes consumed => if compresses j.op then c else c.endDecompress j status bytes consumed

/-- The counters of Table 7-10. -/
def cmpCounters : List Fld :=
  [R.CMP_CNT_IN_IN, R.CMP_CNT_OUT_OUT, R.CMP_CNT_RAW_RAW, R.CMP_CNT_REJECT_REJECT, R.CMP_DD_CHUNKS_CHUNKS,
   R.CMP_DD_RULED_OUT_RULED_OUT, R.CMP_DD_SHELF_READS_SHELF_READS, R.CMP_DD_DUPS_DUPS, R.CMP_DD_FALSE_POS_FALSE_POS,
   R.CMP_DD_PEER_REFUSED_PEER_REFUSED, R.CMP_DD_CMP_FAULT_CMP_FAULT, R.CMP_DD_UNSHARED_UNSHARED, R.CMP_DD_LOST_LOST]

/-- CMP_CNT_CLR (R233). -/
def cmpCntClr (c : Chip) : Chip := c.clearAll cmpCounters

-- EXEC cmpCompress cmpCompressToCipher cmpDecompress cmpJobEnd cmpCntClr

/-- CMP_COMPRESS (R229). -/
def execCmpCompress (eng : Nat) (pool : Nat) (noFallback : Bool) (srcLen : Nat) (srcAddr : Nat) (dstAddr : Nat) (dstCap : Nat) (resAddr : Nat) (s : State) : Host.Outcome State Fault Refusal :=
  s.runAwake true (cmpCompress eng pool noFallback srcLen srcAddr dstAddr dstCap resAddr)

/-- CMP_COMPRESS_TO_CIPHER (R232). -/
def execCmpCompressToCipher (eng : Nat) (pool : Nat) (noFallback : Bool) (srcLen : Nat) (srcAddr : Nat) (cpeJob : Nat) (resAddr : Nat) (s : State) : Host.Outcome State Fault Refusal :=
  s.runAwake true (cmpCompressToCipher eng pool noFallback srcLen srcAddr cpeJob resAddr)

/-- CMP_DECOMPRESS (R228). -/
def execCmpDecompress (eng : Nat) (pool : Nat) (srcLen : Nat) (srcAddr : Nat) (dstAddr : Nat) (dstCap : Nat) (resAddr : Nat) (s : State) : Host.Outcome State Fault Refusal :=
  s.runAwake true (cmpDecompress eng pool srcLen srcAddr dstAddr dstCap resAddr)

/-- CMP_JOB_END (R230). -/
def execCmpJobEnd (handle : Nat) (out : CmpOutcome) (s : State) : Host.Outcome State Fault Refusal :=
  s.runAwake true (cmpJobEnd handle out)

/-- CMP_CNT_CLR (R233). -/
def execCmpCntClr (s : State) : Host.Outcome State Fault Refusal :=
  s.runBar2 true true R.CMP_CNT_CLR_CLR cmpCntClr

-- END EXEC

end Sys2Proof.Machine
end

