-- ==== Sys2Proof/Machine/Digest.lean ====
section
/-!
DEFINITION. Digest jobs (R260 to R269).
-/
namespace Sys2Proof.Machine

/-- Jobs of a pool's digest queue. -/
def Chip.digestQueued (c : Chip) (pool : Nat) : List DigestJob := c.dge.jobs.filter (fun j => j.pool == pool && j.core.isNone)

/-- FINAL, SAVE, RESTORE, PREFIX and CHECK of FLAGS (Table 8-9). -/
def DigestJob.final (j : DigestJob) : Bool := bitOf j.flags 0
/-- SAVE. -/
def DigestJob.save (j : DigestJob) : Bool := bitOf j.flags 1
/-- RESTORE. -/
def DigestJob.restore (j : DigestJob) : Bool := bitOf j.flags 2
/-- PREFIX. -/
def DigestJob.prefixed (j : DigestJob) : Bool := bitOf j.flags 3
/-- CHECK. -/
def DigestJob.check (j : DigestJob) : Bool := bitOf j.flags 4

/-- Whether a valid tenant of a pool dedups in a domain (R447). -/
def Chip.poolHasDomain (c : Chip) (pool dom : Nat) : Bool :=
  match c.kcf.active with
  | some i => i.tenants.any (fun e => e.2.valid && e.2.pool == pool && e.2.dom == dom)
  | none => false

/-- What the port checks of a digest job (R447): its address fields and the domain of a PREFIX. -/
def Chip.digestAllowed (c : Chip) (j : DigestJob) : Bool :=
  c.mayReach j.engine j.srcAddr (if j.op = 2 then 32 else 16 * j.fragCount) false &&
  (j.op == 2 || !j.restore || c.mayReach j.engine j.stateAddr 256 false) &&
  (j.op == 2 || !j.save || c.mayReach j.engine j.stateAddr 256 true) &&
  (!(j.op == 2 || j.check) || c.mayReach j.engine j.cmpAddr 32 false) &&
  (j.op == 2 || !j.prefixed || j.engine.isNone || c.poolHasDomain j.pool j.domain)

/-- A digest job as its unit queues it. -/
def Chip.digestJob (c : Chip) (i : Issuer) (op pool : Nat) (d : DigestDesc) : DigestJob :=
  { handle := c.dge.nextHandle, op := op, alg := d.alg, pool := pool, flags := d.flags, fragCount := d.fragCount,
    domain := d.domain, srcAddr := d.srcAddr, stateAddr := d.stateAddr, cmpAddr := d.cmpAddr,
    engine := i.engine, ticket := i.ticket, resAddr := i.resAddr, held := i.held }

/-- A digest job taken from a port (R260). While the queue is full the port stalls. -/
def Chip.submitDigest (c : Chip) (i : Issuer) (op pool : Nat) (d : DigestDesc) : Chip :=
  if 256 ≤ (c.digestQueued pool).length then c
  else
    let j := c.digestJob i op pool d
    if c.digestAllowed j then { c with dge := { c.dge with jobs := c.dge.jobs ++ [j], nextHandle := c.dge.nextHandle + 1 } }
    else c.deny i 1

/-- HASH (R260): a job of OP 1. -/
def hash (eng pool : Nat) (desc : DigestDesc) (c : Chip) : Chip :=
  c.submitDigest (issuerOf eng desc.resAddr) 1 (c.stampPool eng pool) desc

/-- COMPARE (R265): a job of OP 2. -/
def compare (eng pool : Nat) (desc : DigestDesc) (c : Chip) : Chip :=
  c.submitDigest (issuerOf eng desc.resAddr) 2 (c.stampPool eng pool) desc

/-- The 48 bytes of a digest result (R267). -/
def digestResult (status flags core len : Nat) (digest : List Byte) : List Byte :=
  [1#8] ++ natLe status 1 ++ natLe flags 1 ++ natLe core 1 ++ List.replicate 4 0#8 ++ natLe len 8 ++ (digest ++ List.replicate 32 0#8).take 32

/-- A digest job ended (R267). -/
def Chip.endDigest (c : Chip) (j : DigestJob) (status flags len : Nat) (digest : List Byte) : Chip :=
  let c := { c with dge := { c.dge with jobs := c.dge.jobs.filter (·.handle != j.handle) } }
  let c := c.bump R.DGE_CNT_JOBS_JOBS 1
  let c := if status = 1 then c.bump R.DGE_CNT_BOUNDARY_BOUNDARY 1 else if status = 2 then c.bump R.DGE_CNT_STATE_BAD_STATE_BAD 1 else c
  c.giveResult j.engine j.ticket j.resAddr 1 j.handle status (digestResult status flags (j.core.getD 0) len digest)

/-- A compare's two flags and status (Table 8-12). `fault` is CMP_OK where the comparators disagree. -/
def compareFlags (equal : Bool) (fault : Option Bool) : Nat × Nat :=
  match fault with
  | some ok => (flag ok + 2, 0x05)
  | none => (flag equal, 0)

/-- A job that compares two values ended (R265, R266). -/
def Chip.endCompare (c : Chip) (j : DigestJob) (len : Nat) (a b : List Byte) (fault : Option Bool) : Chip :=
  let f := compareFlags (a == b) fault
  let c := c.bump R.DGE_CNT_CMP_CMP 1
  let core := j.core.getD 0
  let c := c.endDigest j f.2 f.1 len []
  if fault.isSome then ((c.takeOut 0 core).bump R.DGE_CNT_CMP_FAULT_CMP_FAULT 1).event 0x140 core 0 0 0 0 else c

/-- The fragments of a list (R261): address and length. -/
def Chip.fragments (c : Chip) (j : DigestJob) : List (Nat × Nat) :=
  (List.range j.fragCount).map (fun i => (c.loadNat (j.srcAddr + 16 * i) 8, c.loadNat (j.srcAddr + 16 * i + 8) 4))

/-- Where a message stands: chaining state, bytes absorbed, and the domain of the prefix it descends from. -/
structure DigestPos where
  st : List Nat
  total : Nat
  lineage : Option Nat

/-- The 128-byte prefix of a domain (R202): the salt, the domain, zeros. -/
def Chip.domainPrefix (c : Chip) (dom : Nat) : List Byte :=
  natLe (Config.domainSalt (c.root.secret.dedup.getD 0) dom) 32 ++ natLe dom 2 ++ List.replicate 94 0#8

/-- Bytes 0x00 to 0xDF of a saved state (Table 8-11). -/
def savedBody (alg : Nat) (p : DigestPos) : List Byte :=
  natLe 0x5344 2 ++ natLe alg 1 ++ natLe (flag p.lineage.isSome) 1 ++ natLe (p.lineage.getD 0) 2 ++ natLe 0 2 ++ natLe p.total 8 ++
  ((stateBytes alg p.st) ++ List.replicate 200 0#8).take 200 ++ natLe 0 8

/-- A saved state with its CHECK (R264). -/
def Chip.savedState (c : Chip) (alg : Nat) (p : DigestPos) : List Byte :=
  let b := savedBody alg p
  b ++ natLe (Config.stateCheck c.dge.stateKey b) 32

/-- A saved state read back, none where it fails its checks (R264). -/
def Chip.restoreState (c : Chip) (alg addr : Nat) : Option DigestPos :=
  let b := c.load addr 224
  if leNat (b.take 2) == 0x5344 && leNat ((b.drop 2).take 1) == alg &&
      c.load (addr + 224) 32 == natLe (Config.stateCheck c.dge.stateKey b) 32 then
    some ⟨stateOf alg ((b.drop 16).take 200), leNat ((b.drop 8).take 8),
      if leNat ((b.drop 3).take 1) % 2 = 1 then some (leNat ((b.drop 4).take 2)) else none⟩
  else none

/-- Where a job starts (R262, R264). -/
def Chip.digestStart (c : Chip) (j : DigestJob) : Option DigestPos :=
  if j.restore then c.restoreState j.alg j.stateAddr
  else if j.prefixed then some ⟨digestAbsorb 2 (digestInit 2) (c.domainPrefix j.domain), 128, some j.domain⟩
  else some ⟨digestInit j.alg, 0, none⟩

/-- What is wrong with a job's fields (R260 to R262): ALG first, then FRAG_LIMIT. -/
def Chip.digestLimit (c : Chip) (j : DigestJob) : Option Nat :=
  let fr := c.fragments j
  if j.alg = 0 || 3 < j.alg || (j.prefixed && (j.restore || j.alg != 2 || decide (1023 < j.domain))) then some 0x04
  else if 256 < j.fragCount || (j.fragCount == 0 && !j.restore) || fr.any (fun f => f.2 == 0 || decide (16777216 < f.2)) ||
      decide (1073741824 < sumOf (fr.map (·.2))) then some 0x03
  else none

/-- R263: whether a state may be saved here. -/
def mayFile (alg : Nat) (p : DigestPos) : Bool := p.total % digestBlock alg == 0 && (p.lineage.isNone || decide (128 < p.total))

/-- Whether a job's list, or the state that it restores, is poisoned (R492). -/
def Chip.digestSetupPoison (c : Chip) (j : DigestJob) : Bool :=
  c.poisonedAt j.srcAddr (16 * j.fragCount) || (j.restore && c.poisonedAt j.stateAddr 256)

/-- Whether the data that a job absorbs or compares is poisoned (R492). -/
def Chip.digestPoison (c : Chip) (j : DigestJob) : Bool :=
  if j.op = 2 then c.poisonedAt j.srcAddr 32 || c.poisonedAt j.cmpAddr 32
  else (c.fragments j).any (fun f => c.poisonedAt f.1 f.2) || (j.final && j.check && c.poisonedAt j.cmpAddr 32)

/-- A hash job's end (R261 to R265). -/
def Chip.endHash (c : Chip) (j : DigestJob) (busError : Bool) (fault : Option Bool) : Chip :=
  if c.digestSetupPoison j then c.endDigest j 0x09 0 0 []
  else match c.digestLimit j with
  | some st => c.endDigest j st 0 0 []
  | none =>
    match c.digestStart j with
    | none => c.endDigest j 0x02 0 0 []
    | some p =>
      let fr := c.fragments j
      let len := sumOf (fr.map (·.2))
      if busError || fr.any (fun f => !c.jobReach j.engine j.ticket f.1 f.2 false) || c.digestPoison j then
        -- how far the job came is a free value (log entry 4)
        let n := c.freeNow % (len + 1)
        ((c.useFree).bump R.DGE_CNT_BYTES_BYTES (ceilDiv n 64)).endDigest j 0x09 0 (p.total + n) []
      else
        let msg := fr.flatMap (fun f => c.load f.1 f.2)
        let whole := msg.length / digestBlock j.alg * digestBlock j.alg
        let q : DigestPos := ⟨digestAbsorb j.alg p.st (msg.take whole), p.total + msg.length, p.lineage⟩
        let c := c.bump R.DGE_CNT_BYTES_BYTES (ceilDiv len 64)
        if j.save && (j.final || !mayFile j.alg q) then c.endDigest j 0x01 0 q.total []
        else if j.final then
          let d := digestFinal j.alg q.total q.st (msg.drop whole)
          if j.check then c.endCompare j q.total d (c.load j.cmpAddr 32) fault else c.endDigest j 0 0 q.total d
        else
          let c := if j.save then c.store j.stateAddr (c.savedState j.alg q) else c
          c.endDigest j 0 0 q.total []

/-- DIGEST_JOB_END (R267): a running job that is not held ends. -/
def digestJobEnd (handle : Nat) (busError : Bool) (compareFault : Option Bool) (c : Chip) : Chip :=
  match c.dge.jobs.find? (·.handle == handle) with
  | none => c
  | some j =>
    if j.held || j.core.isNone then c
    else if j.op = 1 then c.endHash j busError compareFault
    else if j.op = 2 then
      if busError || c.digestPoison j then c.endDigest j 0x09 0 0 []
      else c.endCompare j 0 (c.load j.srcAddr 32) (c.load j.cmpAddr 32) compareFault
    else c.endDigest j 0x0B 0 0 []

/-- The counters of Table 8-16. -/
def dgeCounters : List Fld :=
  [R.DGE_CNT_JOBS_JOBS, R.DGE_CNT_BYTES_BYTES, R.DGE_CNT_CMP_CMP, R.DGE_CNT_CMP_FAULT_CMP_FAULT, R.DGE_CNT_STATE_BAD_STATE_BAD,
   R.DGE_CNT_BOUNDARY_BOUNDARY]

/-- DGE_CNT_CLR (R269). -/
def dgeCntClr (c : Chip) : Chip := c.clearAll dgeCounters

-- EXEC hash compare digestJobEnd dgeCntClr

/-- HASH (R260). -/
def execHash (eng : Nat) (pool : Nat) (desc : DigestDesc) (s : State) : Host.Outcome State Fault Refusal :=
  s.runAwake true (hash eng pool desc)

/-- COMPARE (R265). -/
def execCompare (eng : Nat) (pool : Nat) (desc : DigestDesc) (s : State) : Host.Outcome State Fault Refusal :=
  s.runAwake true (compare eng pool desc)

/-- DIGEST_JOB_END (R267). -/
def execDigestJobEnd (handle : Nat) (busError : Bool) (compareFault : Option Bool) (s : State) : Host.Outcome State Fault Refusal :=
  s.runAwake true (digestJobEnd handle busError compareFault)

/-- DGE_CNT_CLR (R269). -/
def execDgeCntClr (s : State) : Host.Outcome State Fault Refusal :=
  s.runBar2 true true R.DGE_CNT_CLR_CLR dgeCntClr

-- END EXEC

end Sys2Proof.Machine
end

