-- ==== Sys2Proof/Machine/RdeUnit.lean ====
section
/-!
DEFINITION. Erasure-coding jobs and the arithmetic of parity (R316 to R321).
-/
namespace Sys2Proof.Machine

/-- The data strips with the one at `x` replaced. -/
def putStrip (data : List (List Nat)) (x : Nat) (s : List Nat) : List (List Nat) := data.set x s

/-- Table 10-3: the data strips recovered. `miss` lists the missing strips, P at index k and Q at k + 1; missing data strips count as
zeros in `data`. -/
def recoverData (n k : Nat) (data : List (List Nat)) (p q : List Nat) (miss : List Nat) : List (List Nat) :=
  match miss.filter (· < k) with
  | [x] =>
    if miss.contains k then
      putStrip data x (scaleStrip (gfInv (gfPow x)) (addStrip q (parityQ n data)))
    else putStrip data x (addStrip p (parityP n data))
  | [x0, y0] =>
    let x := min x0 y0
    let y := max x0 y0
    let pd := addStrip p (parityP n data)
    let qd := addStrip q (parityQ n data)
    let w := gfInv (gfPow (y - x) ^^^ 1)
    let dx := addStrip (scaleStrip (gfMul (gfPow (y - x)) w) pd) (scaleStrip (gfMul (gfInv (gfPow x)) w) qd)
    putStrip (putStrip data x dx) y (addStrip pd dx)
  | _ => data

/-- Jobs of a pool's queue, the control cores' jobs aside. -/
def Chip.rdeQueued (c : Chip) (pool : Nat) : List RdeJob :=
  c.rde.jobs.filter (fun j => j.pool == pool && j.unit.isNone && j.engine.isSome)

/-- The strips a RECONSTRUCT names. -/
def rdeMissing (d : RdeDesc) : List Nat := [d.missA, d.missB].filter (· != 0xFF)

/-- How many strips a job writes (Table 10-4). -/
def rdeOutputs (d : RdeDesc) (op : Nat) : Nat := if op = 1 || op = 2 then d.npar else if op = 3 then (rdeMissing d).length else 0

/-- The bytes a job reads at SRC. -/
def rdeSrcBytes (d : RdeDesc) (op : Nat) : Nat := if op = 2 then d.len else (d.k + d.npar) * 8

/-- A job's cost in input bytes (R321). -/
def RdeJob.cost (j : RdeJob) : Nat := if j.op = 2 then j.desc.len else j.desc.len * (j.desc.k + (if j.op = 1 then 0 else j.desc.npar))

/-- What the port checks of an RDE job (R447). -/
def Chip.rdeAllowed (c : Chip) (engine : Option Nat) (op : Nat) (d : RdeDesc) : Bool :=
  c.mayReach engine d.src (rdeSrcBytes d op) false && c.mayReach engine d.dst (rdeOutputs d op * d.len) true

/-- An RDE job taken from a port (R318). While its pool's queue of 256 is full the port stalls. -/
def Chip.submitRde (c : Chip) (i : Issuer) (op pool : Nat) (d : RdeDesc) : Chip :=
  if i.engine.isSome && decide (256 ≤ (c.rdeQueued pool).length) then c
  else if !c.rdeAllowed i.engine op d then c.deny i 4
  else
    let j : RdeJob := { handle := c.rde.nextHandle, op := op, desc := d, pool := pool, engine := i.engine, ticket := i.ticket, held := i.held }
    { c with rde := { c.rde with jobs := c.rde.jobs ++ [j], nextHandle := c.rde.nextHandle + 1 } }

/-- ENCODE (R318): a job of OP 1. -/
def encode (eng pool : Nat) (desc : RdeDesc) (c : Chip) : Chip := c.submitRde (issuerOf eng desc.resAddr) 1 (c.stampPool eng pool) desc
/-- ACCUMULATE (R319): a job of OP 2. -/
def accumulate (eng pool : Nat) (desc : RdeDesc) (c : Chip) : Chip := c.submitRde (issuerOf eng desc.resAddr) 2 (c.stampPool eng pool) desc
/-- RECONSTRUCT (R319): a job of OP 3. -/
def reconstruct (eng pool : Nat) (desc : RdeDesc) (c : Chip) : Chip := c.submitRde (issuerOf eng desc.resAddr) 3 (c.stampPool eng pool) desc
/-- RDE_VERIFY (R320): a job of OP 4. -/
def rdeVerify (eng pool : Nat) (desc : RdeDesc) (c : Chip) : Chip := c.submitRde (issuerOf eng desc.resAddr) 4 (c.stampPool eng pool) desc

/-- The 16 bytes of an RDE result (R320). -/
def rdeResult (status unit diff first locate : Nat) : List Byte :=
  [1#8] ++ natLe status 1 ++ natLe unit 1 ++ natLe diff 1 ++ natLe first 4 ++ natLe locate 1 ++ List.replicate 7 0#8

/-- An RDE job ended. -/
def Chip.endRde (c : Chip) (j : RdeJob) (status diff first locate : Nat) : Chip :=
  let c := { c with rde := { c.rde with jobs := c.rde.jobs.filter (·.handle != j.handle) } }
  c.giveResult j.engine j.ticket j.desc.resAddr 4 j.handle status (rdeResult status (j.unit.getD 0) diff first locate)

/-- A job that ends with no comparison made. -/
def Chip.endRdePlain (c : Chip) (j : RdeJob) (status : Nat) : Chip := c.endRde j status 0 0xFFFFFFFF 0xFF

/-- What is wrong with a job's fields (R318, R319). -/
def RdeJob.limit (j : RdeJob) : Option Nat :=
  let d := j.desc
  if j.op = 0 || 4 < j.op then some 0x0B
  else if d.len = 0 || d.len % 64 != 0 || decide (16777216 < d.len) || d.k == 0 || decide (15 < d.k) || decide (2 < d.npar) ||
      decide (16 < d.k + d.npar) || (d.npar == 0 && (j.op != 4 || !(d.k == 2 || d.k == 3))) || (j.op == 2 && decide (d.k ≤ d.index)) then some 0x01
  else if j.op = 3 && ((rdeMissing d).any (fun m => decide (d.k + d.npar ≤ m)) || decide (d.npar < (rdeMissing d).eraseDups.length)) then some 0x02
  else none

/-- The address of strip `i` in a source list. -/
def Chip.stripAddr (c : Chip) (d : RdeDesc) (i : Nat) : Nat := c.loadNat (d.src + 8 * i) 8

/-- The bytes of strip `i`: zeros where the list names none. -/
def Chip.stripBytes (c : Chip) (d : RdeDesc) (i : Nat) : List Nat :=
  let a := c.stripAddr d i
  if a = 0 then List.replicate d.len 0 else (c.load a d.len).map (·.toNat)

/-- Whether a unit may reach every strip it reads through the list (R447). -/
def Chip.listReach (c : Chip) (j : RdeJob) : Bool :=
  let d := j.desc
  j.op == 2 || (List.range (if j.op = 1 then d.k else d.k + d.npar)).all (fun i =>
    (j.op == 3 && (rdeMissing d).contains i) || c.stripAddr d i == 0 || c.jobReach j.engine j.ticket (c.stripAddr d i) d.len false)

/-- The data strips of a job, the missing ones as zeros. -/
def Chip.dataStrips (c : Chip) (d : RdeDesc) (miss : List Nat) : List (List Nat) :=
  (List.range d.k).map (fun i => if miss.contains i then List.replicate d.len 0 else c.stripBytes d i)

/-- The first 64-byte unit at which two strips differ, as a byte offset. -/
def firstUnit (a b : List Nat) : Option Nat :=
  ((List.range (a.length / 64)).find? (fun u => (a.drop (64 * u)).take 64 != (b.drop (64 * u)).take 64)).map (· * 64)

/-- LOCATE (R320): the index that explains every difference of a DP verify. -/
def locateStrip (k : Nat) (sp sq : List Nat) : Nat :=
  if sp.all (· == 0) then (if sq.all (· == 0) then 0xFF else k + 1)
  else ((List.range k).find? (fun z => (sp.zip sq).all (fun e => gfMul (gfPow z) e.1 == e.2))).getD 0xFF

/-- A verify's end. -/
def Chip.endVerify (c : Chip) (j : RdeJob) : Chip :=
  let d := j.desc
  if d.npar = 0 then
    let copies := (List.range d.k).map (c.stripBytes d)
    let first := copies.headD []
    let diffs := copies.filterMap (firstUnit first)
    c.endRde j 0 (if diffs.isEmpty then 0 else 4) (if diffs.isEmpty then 0xFFFFFFFF else diffs.foldl min 0xFFFFFFFF) 0xFF
  else
    let data := c.dataStrips d []
    let sp := addStrip (parityP d.len data) (c.stripBytes d d.k)
    let sq := if d.npar = 2 then addStrip (parityQ d.len data) (c.stripBytes d (d.k + 1)) else List.replicate d.len 0
    let zero := List.replicate d.len 0
    let firsts := [firstUnit sp zero, firstUnit sq zero].filterMap id
    let diff := flag (sp.any (· != 0)) + 2 * flag (sq.any (· != 0))
    c.endRde j 0 diff (if firsts.isEmpty then 0xFFFFFFFF else firsts.foldl min 0xFFFFFFFF) (if d.npar = 2 then locateStrip d.k sp sq else 0xFF)

/-- The strips that a job writes, in the order they stand from DST_ADDR. -/
def Chip.rdeOutput (c : Chip) (j : RdeJob) : List (List Nat) :=
  let d := j.desc
  if j.op = 1 then
    let data := c.dataStrips d []
    [parityP d.len data, parityQ d.len data].take d.npar
  else if j.op = 2 then
    let src := (c.load d.src d.len).map (·.toNat)
    let old := fun n => if d.zeroInit then List.replicate d.len 0 else (c.load (d.dst + n * d.len) d.len).map (·.toNat)
    [addStrip (old 0) src, addStrip (old 1) (scaleStrip (gfPow d.index) src)].take d.npar
  else
    let miss := rdeMissing d
    let p := if miss.contains d.k then [] else c.stripBytes d d.k
    let q := if d.npar = 2 && !miss.contains (d.k + 1) then c.stripBytes d (d.k + 1) else []
    let data := recoverData d.len d.k (c.dataStrips d miss) p q miss
    miss.map (fun m => if m < d.k then data.getD m [] else if m = d.k then parityP d.len data else parityQ d.len data)

/-- Whether a job reads poisoned data (R492): its source, or the list and the strips it names; and what an ACCUMULATE adds to. -/
def Chip.rdePoison (c : Chip) (j : RdeJob) : Bool :=
  let d := j.desc
  c.poisonedAt d.src (rdeSrcBytes d j.op) ||
  (if j.op = 2 then !d.zeroInit && c.poisonedAt d.dst (d.npar * d.len)
   else (List.range (if j.op = 1 then d.k else d.k + d.npar)).any (fun i =>
    !(j.op == 3 && (rdeMissing d).contains i) && c.stripAddr d i != 0 && c.poisonedAt (c.stripAddr d i) d.len))

/-- RDE_JOB_END (R320): a running job that is not held ends. After a bus error DST_ADDR holds free values (log entry 4). -/
def rdeJobEnd (handle : Nat) (busError : Bool) (c : Chip) : Chip :=
  match c.rde.jobs.find? (·.handle == handle) with
  | none => c
  | some j =>
    if j.held || j.unit.isNone then c
    else
      match j.limit with
      | some st => c.endRdePlain j st
      | none =>
        if busError || !c.listReach j || c.rdePoison j then
          (if j.op = 4 then c else (c.store j.desc.dst (natLe c.freeNow (rdeOutputs j.desc j.op * j.desc.len))).useFree).endRdePlain j 0x09
        else if j.op = 4 then c.endVerify j
        else (c.store j.desc.dst ((c.rdeOutput j).flatMap stripOut)).endRdePlain j 0

/-- The counters of RDE (R345). -/
def rdeCounters : List Fld :=
  [R.RDE_CNT_REBUILT_STRIPES, R.RDE_CNT_REPAIRED_PAGES, R.RDE_CNT_LOST_LOST, R.RDE_CNT_SCRUBBED_SCRUBBED,
   R.RDE_CNT_SCRUB_MISMATCH_MISMATCH, R.RDE_CNT_PARITY_REWRITTEN_REWRITTEN, R.RDE_CNT_RESHAPED_MOVED]

/-- RDE_CNT_CLR (R345). -/
def rdeCntClr (c : Chip) : Chip := c.clearAll rdeCounters

-- EXEC encode accumulate reconstruct rdeVerify rdeJobEnd rdeCntClr

/-- ENCODE (R318). -/
def execEncode (eng : Nat) (pool : Nat) (desc : RdeDesc) (s : State) : Host.Outcome State Fault Refusal :=
  s.runAwake true (encode eng pool desc)

/-- ACCUMULATE (R319). -/
def execAccumulate (eng : Nat) (pool : Nat) (desc : RdeDesc) (s : State) : Host.Outcome State Fault Refusal :=
  s.runAwake true (accumulate eng pool desc)

/-- RECONSTRUCT (R319). -/
def execReconstruct (eng : Nat) (pool : Nat) (desc : RdeDesc) (s : State) : Host.Outcome State Fault Refusal :=
  s.runAwake true (reconstruct eng pool desc)

/-- RDE_VERIFY (R320). -/
def execRdeVerify (eng : Nat) (pool : Nat) (desc : RdeDesc) (s : State) : Host.Outcome State Fault Refusal :=
  s.runAwake true (rdeVerify eng pool desc)

/-- RDE_JOB_END (R320). -/
def execRdeJobEnd (handle : Nat) (busError : Bool) (s : State) : Host.Outcome State Fault Refusal :=
  s.runAwake true (rdeJobEnd handle busError)

/-- RDE_CNT_CLR (R345). -/
def execRdeCntClr (s : State) : Host.Outcome State Fault Refusal :=
  s.runBar2 true true R.RDE_CNT_CLR_CLR rdeCntClr

-- END EXEC

end Sys2Proof.Machine
end

