-- ==== Sys2Proof/Machine/AccelStart.lean ====
section
/-!
DEFINITION. A free core takes a job (R231, R259, R321).
-/
namespace Sys2Proof.Machine

/-- The least cores of each pool, for the field of Table 2-5 that a unit uses. -/
def Chip.poolMins (c : Chip) (f : PoolEnt → Nat) : List Nat := (List.range 15).map (fun p => f (c.poolEnt p))

/-- A compressor or decompressor core takes a job. -/
def Chip.startCmp (c : Chip) (comp : Bool) (core : Nat) : Chip :=
  let up := if comp then c.cmp.compUp else c.cmp.dcmpUp
  let mine := c.cmp.jobs.filter (fun j => compresses j.op == comp)
  if !up.contains core || mine.any (fun j => j.core == some core) then c
  else
    let views := (mine.filter (fun j => j.core.isNone)).map (fun j => (⟨j.handle, j.pool, j.srcLen, false⟩ : JobView))
    let own := reservedTo (c.poolMins (fun p => if comp then p.minCmp else p.minDcmp)) up core
    match c.pickJob own false (if comp then c.cmp.cDeficit else c.cmp.dDeficit) views with
    | none => c
    | some (v, served) =>
      let jobs := modifyFirst (·.handle == v.handle) (fun (j : CmpJob) => { j with core := some core }) c.cmp.jobs
      let c := { c with cmp := { c.cmp with jobs := jobs } }
      if comp then { c with cmp := { c.cmp with cDeficit := served } } else { c with cmp := { c.cmp with dDeficit := served } }

/-- Whether a cipher job can be taken: one of OP 2 only once its CMP job streams, or has failed it (R254). -/
def CipherJob.ready (j : CipherJob) : Bool := j.core.isNone && (j.op != 2 || j.stream.isSome || j.early.isSome)

/-- A cipher core takes a job. -/
def Chip.startCipherCore (c : Chip) (core : Nat) : Chip :=
  if !c.cpe.up.contains core || c.cpe.jobs.any (fun j => j.core == some core) then c
  else
    let views := (c.cpe.jobs.filter CipherJob.ready).map (fun j => (⟨j.handle, j.pool, j.inLen, j.engine.isNone⟩ : JobView))
    let internalOk := decide ((c.cpe.jobs.filter (fun j => j.engine.isNone && j.core.isSome)).length < 4)
    match c.pickJob (reservedTo (c.poolMins (·.minCpe)) c.cpe.up core) internalOk c.cpe.deficit views with
    | none => c
    | some (v, served) =>
      match c.cpe.jobs.find? (·.handle == v.handle) with
      | none => c
      | some j => ({ c with cpe := { c.cpe with deficit := served } } : Chip).startCipher j core

/-- A digest core takes a job. -/
def Chip.startDigest (c : Chip) (core : Nat) : Chip :=
  if !c.dge.up.contains core || c.dge.jobs.any (fun j => j.core == some core) then c
  else
    let cost := fun (j : DigestJob) => if j.op = 1 then sumOf ((c.fragments j).map (·.2)) else 64
    let views := (c.dge.jobs.filter (fun j => j.core.isNone)).map (fun j => (⟨j.handle, j.pool, cost j, j.engine.isNone⟩ : JobView))
    let internalOk := decide ((c.dge.jobs.filter (fun j => j.engine.isNone && j.core.isSome)).length < 2)
    match c.pickJob (reservedTo (c.poolMins (·.minDge)) c.dge.up core) internalOk c.dge.deficit views with
    | none => c
    | some (v, served) =>
      let jobs := modifyFirst (·.handle == v.handle) (fun (j : DigestJob) => { j with core := some core }) c.dge.jobs
      { c with dge := { c.dge with jobs := jobs, deficit := served } }

/-- A control field of RDE as it is in force: written values apply from the next Midnight (R345). -/
def Chip.rdeCtl (c : Chip) (f : Fld) : Nat := Sparse.get f.reset c.rde.inForce f.key

/-- An erasure-coding unit takes a job: there are no reservations, and the control cores' jobs keep to UNITS while pool jobs wait. -/
def Chip.startRde (c : Chip) (unit : Nat) : Chip :=
  if !c.rde.up.contains unit || c.rde.jobs.any (fun j => j.unit == some unit) then c
  else
    let waiting := c.rde.jobs.filter (fun j => j.unit.isNone)
    let views := waiting.map (fun j => (⟨j.handle, j.pool, j.cost, j.engine.isNone⟩ : JobView))
    let busy := (c.rde.jobs.filter (fun j => j.engine.isNone && j.unit.isSome)).length
    let internalOk := !waiting.any (·.engine.isSome) || decide (busy < c.rdeCtl R.RDE_MAINT_CTRL_UNITS)
    match c.pickJob none internalOk c.rde.deficit views with
    | none => c
    | some (v, served) =>
      let jobs := modifyFirst (·.handle == v.handle) (fun (j : RdeJob) => { j with unit := some unit }) c.rde.jobs
      { c with rde := { c.rde with jobs := jobs, deficit := served } }

/-- ACCEL_JOB_START (R231): core or unit `core` of a kind, in service and free, takes its next job. -/
def accelJobStart (unit : AccelUnit) (core : Nat) (c : Chip) : Chip :=
  match unit with
  | .compressor => (c.ungate (36 + core / 8)).startCmp true core
  | .decompressor => (c.ungate (42 + core / 8)).startCmp false core
  | .cipher => (c.ungate (28 + core / 8)).startCipherCore core
  | .digest => (c.ungate (24 + core / 8)).startDigest core
  | .rde => (c.ungate (48 + core)).startRde core

-- EXEC accelJobStart

/-- ACCEL_JOB_START (R231). -/
def execAccelJobStart (unit : AccelUnit) (core : Nat) (s : State) : Host.Outcome State Fault Refusal :=
  s.runAwake true (accelJobStart unit core)

-- END EXEC

end Sys2Proof.Machine
end

