-- ==== Sys2Proof/Machine/Dedup.lean ====
section
/-!
DEFINITION. The dedup decision: summary filter, in-flight table and catalogue (R198 to R224).
-/
namespace Sys2Proof.Machine

/-! ### The summary filter -/

/-- The positions a fingerprint sets in a generation: block FP[63:0] mod N, bits FP[72 + 9j : 64 + 9j] (R206). -/
def filterBits (blocks fp : Nat) : List Nat :=
  (List.range 8).map (fun j => fp % 2 ^ 64 % max 1 blocks * 512 + bitsOf fp (64 + 9 * j) 9)

/-- A generation's set bits. -/
def Chip.generation (c : Chip) (g : Nat) : List Nat := c.dd.gens.getD g []

/-- R206: the filter rules a fingerprint out when every generation lacks one of its bits. -/
def Chip.rulesOut (c : Chip) (fp : Nat) : Bool :=
  (List.range 16).all (fun g => (filterBits c.dd.filterBlocks fp).any (fun b => !(c.generation g).contains b))

/-- R208, R209: a fingerprint inserted into the open generation; an overfill is recorded once a generation. -/
def Chip.filterInsert (c : Chip) (fp dom : Nat) : Chip :=
  if c.dd.filterBlocks = 0 then c
  else
    let g := c.get R.CMP_DD_FILTER_OPEN_GEN
    let bits := (filterBits c.dd.filterBlocks fp).filter (fun b => !(c.generation g).contains b)
    let gens := (List.range 16).map (fun i => if i = g then c.generation g ++ bits.eraseDups else c.generation i)
    let c := ({ c with dd := { c.dd with gens := gens } } : Chip).bump R.CMP_DD_GEN_FILL_FILL 1
    if !c.dd.overfillDone && decide (c.get R.CMP_DD_GEN_CAP_CAP ≤ c.get R.CMP_DD_GEN_FILL_FILL) then
      ({ c with dd := { c.dd with overfillDone := true } } : Chip).event 0x180 dom g 0 0 0
    else c

/-! ### Buckets -/

/-- NB, 0 while no catalogue is formatted (R211). -/
def Chip.homeBuckets (c : Chip) : Nat := if c.dd.nbLog2 = 0 then 0 else 2 ^ c.dd.nbLog2

/-- A fingerprint's home bucket: FP[255:192] mod NB (R212). -/
def Chip.bucketOf (c : Chip) (fp : Nat) : Nat := fp / 2 ^ 192 % max 1 c.homeBuckets

/-- A bucket's entries, its chain in order. -/
def Chip.bucket_ (c : Chip) (b : Nat) : List CatEntry := Sparse.get [] c.dd.buckets b

/-- A bucket changed: it is to be written back. -/
def Chip.setBucketEntries (c : Chip) (b : Nat) (l : List CatEntry) : Chip :=
  { c with dd := { c.dd with buckets := Sparse.set [] c.dd.buckets b l, dirty := b :: c.dd.dirty.filter (· != b) } }

/-- Pages of a chain: the home page and its overflow pages. -/
def chainPages (l : List CatEntry) : Nat := max 1 (ceilDiv l.length 255)

/-- R212: whether this head owns every bucket, after a failover or a departure. -/
def Chip.ownsAll (c : Chip) : Bool := c.zbl.state == .sole

/-- Whether this head owns a bucket. -/
def Chip.ownsBucket (c : Chip) (b : Nat) : Bool := c.ownsAll || b % 2 == c.pos

/-- Overflow pages in use by the buckets of one head's parity, or by all. -/
def Chip.overflowUsed (c : Chip) (parity : Option Nat) : Nat :=
  sumOf ((c.dd.buckets.filter (fun e => parity.isNone || parity == some (e.1 % 2))).map (fun e => chainPages e.2 - 1))

/-- R212, R224: whether a bucket can take one entry more: a slot in its chain, or an overflow page its owner may take. -/
def Chip.bucketTakes (c : Chip) (b extra : Nat) : Bool :=
  let l := c.bucket_ b
  let need := max 1 (ceilDiv (l.length + extra + 1) 255) - chainPages l
  need == 0 || (if c.ownsAll then decide (c.overflowUsed none + need ≤ c.homeBuckets / 16)
    else decide (c.overflowUsed (some (b % 2)) + need ≤ c.homeBuckets / 32))

/-- Whether a catalogue shelf serves reads (R214). -/
def Chip.catServes (c : Chip) : Bool := (c.ing.cat0Up || c.ing.cat1Up) && c.homeBuckets != 0

/-! ### Candidates -/

/-- What a decision is asked about. -/
structure Query where
  eng : Nat
  chunk : Nat
  dom : Nat
  cls : Nat
  blocks : Nat
  fp : Nat

/-- R200: whether a slot holds a key for the dedup service. -/
def Chip.slotKeyed (c : Chip) (k : Nat) : Bool := (c.slot k).state == .loaded

/-- R215: whether an entry is a candidate. -/
def Chip.candidate (c : Chip) (q : Query) (e : CatEntry) : Bool :=
  e.fp == q.fp && e.dom == q.dom && e.cls == q.cls && e.blocks == q.blocks && (e.state == 1 || e.state == 2) &&
  c.slotKeyed e.keySlot && decide (e.refs < 0xFFFFFFFF)

/-- R215: whether one candidate goes before another: an awake cohort, then the latest EPOCH, then the lowest LOCATOR. -/
def Chip.prefers (c : Chip) (a b : CatEntry) : Bool :=
  let wa := c.cohortAwake (locCohort a.locator)
  let wb := c.cohortAwake (locCohort b.locator)
  if wa != wb then wa
  else if a.epoch != b.epoch then decide (b.epoch < a.epoch)
  else decide (a.locator < b.locator)

/-- A candidate put in its place among those ranked. -/
def Chip.putRanked (c : Chip) (e : CatEntry) : List CatEntry → List CatEntry
  | [] => [e]
  | x :: l => if c.prefers e x then e :: x :: l else x :: c.putRanked e l

/-- Candidates in the order in which they are tried (R215, R216). -/
def Chip.ranked (c : Chip) (l : List CatEntry) : List CatEntry := l.foldl (fun a e => c.putRanked e a) []

/-- The preferred of the candidates. -/
def Chip.bestOf (c : Chip) (l : List CatEntry) : Option CatEntry := (c.ranked l).head?

/-- The in-flight records that are candidates for a query (R215, R217). -/
def Chip.inflightFor (c : Chip) (q : Query) : List InFlight :=
  c.dd.inflight.filter (fun f => f.fp == q.fp && f.dom == q.dom && f.cls == q.cls && f.blocks == q.blocks && c.slotKeyed f.keySlot)

/-! ### Answers -/

/-- The CAT job of an engine that a query answers (Table 13-16). -/
def Chip.catJob (c : Chip) (q : Query) : Option PortJob :=
  if q.eng < 192 then
    (c.jobsOut q.eng).find? (fun j => j.cls == 5 && leNat (j.body.drop 32) == q.fp && leNat ((j.body.drop 3).take 1) == q.blocks &&
      leNat ((j.body.drop 6).take 1) == q.cls)
  else none

/-- The 32 bytes of a CAT result (Table 13-16). -/
def catResult (status answer step locator : Nat) : List Byte :=
  [1#8] ++ natLe status 1 ++ natLe answer 1 ++ natLe step 1 ++ List.replicate 4 0#8 ++ natLe locator 8 ++ List.replicate 16 0#8

/-- The answer written to the engine that asked. -/
def Chip.tellEngine (c : Chip) (q : Query) (status answer step locator : Nat) : Chip :=
  match c.catJob q with
  | some j => c.endPortJob q.eng j.ticket status (catResult status answer step locator)
  | none => c

/-- A chunk changed. -/
def Chip.modChunk (c : Chip) (id : Nat) (f : Chunk → Chunk) : Chip :=
  { c with ing := { c.ing with chunks := modifyFirst (fun k => k.id == id) f c.ing.chunks } }

/-- The chunk of a query while it is undecided. -/
def Chip.answerChunk (c : Chip) (q : Query) (a : ChunkAnswer) : Chip :=
  let l := modifyFirst (fun k => k.id == q.chunk && k.answer == .undecided) (fun k => { k with fp := q.fp, answer := a, asked := c.epoch }) c.ing.chunks
  { c with ing := { c.ing with chunks := l } }

/-- The write and piece that a chunk's catalogue record belongs to (R166). -/
def Chip.chunkPiece (c : Chip) (k : Chunk) : Nat × Nat :=
  match k.wids.head? with
  | none => (0, 0)
  | some wid => (wid, match c.wr wid with
    | some w => ((w.pieces.find? (fun p => decide (p.slba ≤ k.slba) && decide (k.slba < p.slba + p.blocks))).map (·.index)).getD 0
    | none => 0)

/-- R213: a catalogue change appended to the journal; it is applied at the Midnight that closes the epoch. -/
def Chip.catChange (c : Chip) (wid piece : Nat) (ch : CatChange) : Chip :=
  let c := c.append (.catalogue wid piece)
  { c with dd := { c.dd with updates := c.dd.updates ++ [⟨c.epoch, wid, piece, false, ch⟩] } }

/-- A fingerprint answered: it goes into the filter, and to the peer at the Midnight (R208). -/
def Chip.answered (c : Chip) (q : Query) : Chip :=
  ({ c with dd := { c.dd with answered := c.dd.answered ++ [(q.fp, q.dom)] } } : Chip).filterInsert q.fp q.dom

/-- R224: an entry that cannot be placed: its record is unshared, and one event is recorded for each stretch of time in which that is so. -/
def Chip.catFull (c : Chip) (dom b : Nat) : Chip :=
  (if c.on R.CMP_STATUS_CAT_FULL then c else (c.set R.CMP_STATUS_CAT_FULL 1).event 0x182 dom b 0 0 0).bump R.CMP_DD_UNSHARED_UNSHARED 1

/-- The engine number of a decision that a refused increment asks for again (R219): it was counted when it was first made. -/
def askedAgain : Nat := 256

/-- A decision made, counted once for its chunk. -/
def Chip.countChunk (c : Chip) (q : Query) : Chip := if q.eng = askedAgain then c else c.bump R.CMP_DD_CHUNKS_CHUNKS 1

/-- UNIQUE at a step, for a class that deduplicates: unshared where no entry can be placed (R224), waiting while the in-flight table is
full (R217). -/
def Chip.answerUnique (c : Chip) (q : Query) (step : Nat) : Chip :=
  let b := c.bucketOf q.fp
  if c.homeBuckets != 0 && !c.bucketTakes b ((c.dd.inflight.filter (fun f => c.bucketOf f.fp == b)).length) then
    (((c.catFull q.dom b).countChunk q).answerChunk q .unique).tellEngine q 0 0 step 0
  else if 1048576 ≤ c.dd.inflight.length then
    { c with dd := { c.dd with waiting := c.dd.waiting ++ [⟨q.chunk, q.dom, q.cls, q.blocks, q.fp, 2 ^ 64, q.eng, step⟩] } }
  else
    let slot := ((c.ing.chunks.find? (fun k => k.id == q.chunk)).map (fun k => (c.nsOf k.nsid).keySlot)).getD 0
    let c := c.set R.CMP_STATUS_CAT_FULL 0
    let f : InFlight := ⟨q.fp, q.dom, q.cls, q.blocks, slot, q.chunk, c.epoch, false, 0⟩
    let c := (({ c with dd := { c.dd with inflight := c.dd.inflight ++ [f] } } : Chip).answered q).countChunk q
    (c.answerChunk q .unique).tellEngine q 0 0 step 0

/-- DUPLICATE at a step. `place` is where the record lies or the in-flight record it will be; `prov` that a Midnight must settle it. The
increment for a record not yet placed follows its insert. -/
def Chip.answerDuplicate (c : Chip) (q : Query) (step place : Nat) (prov : Bool) : Chip :=
  let wp := ((c.ing.chunks.find? (fun k => k.id == q.chunk)).map c.chunkPiece).getD (0, 0)
  let c := ((c.answered q).countChunk q).bump R.CMP_DD_DUPS_DUPS 1
  let c := if (inflightChunk place).isNone then c.catChange wp.1 wp.2 (.increment q.fp q.dom q.cls place) else c
  let c := c.answerChunk q (.duplicate place prov)
  match inflightChunk place with
  | none => (c.tellEngine q 0 1 step place).settle
  -- the locator of a record not yet placed is a free value (log entry 4)
  | some _ => ((c.useFree).tellEngine q 0 1 step (c.freeNow % 2 ^ 64)).settle

/-- R216: a digest core compares a candidate with the chunk: a match, a difference, or a fault, which takes the core out of service. -/
def Chip.confirm (c : Chip) (ok okN : Bool) (core : Nat) : Chip × Option Bool :=
  let c := (c.bump R.DGE_CNT_JOBS_JOBS 1).bump R.DGE_CNT_CMP_CMP 1
  if okN then
    ((((c.takeOut 0 core).bump R.DGE_CNT_CMP_FAULT_CMP_FAULT 1).bump R.CMP_DD_CMP_FAULT_CMP_FAULT 1).event 0x140 core 0 0 0 0, none)
  else (c, some ok)

/-- What a healthy digest core answers to the compare of equal fingerprints. -/
def sameFp : FpCompare := ⟨true, false, 0⟩

/-- R216: candidates compared one after another, each with the next result of a digest core: the chip, the place that matched or a fault, and the
results left. -/
def Chip.compareEach (c : Chip) : List Nat → List FpCompare → Chip × Option (Option Nat) × List FpCompare
  | [], l => (c, none, l)
  | p :: ps, l =>
    let r := l.headD sameFp
    match c.confirm r.ok r.okN r.core with
    | (c, none) => (c, some none, l.drop 1)
    | (c, some true) => (c, some (some p), l.drop 1)
    | (c, some false) => c.compareEach ps (l.drop 1)

/-- The place of an in-flight record: its locator once its stripe is programmed. -/
def InFlight.place (f : InFlight) : Nat := if f.programmed then f.loc else inflightPlace f.chunk

/-- Steps 4 and 5 over a bucket's entries, ending in DUPLICATE or in step 6. -/
def Chip.searchBucket (c : Chip) (q : Query) (step : Nat) (l : List FpCompare) : Chip × List FpCompare :=
  let b := c.bucketOf q.fp
  match c.compareEach ((c.ranked ((c.bucket_ b).filter (c.candidate q))).map (·.locator)) l with
  | (c, none, l) => ((c.bump R.CMP_DD_FALSE_POS_FALSE_POS 1).answerUnique q 6, l)
  | (c, some none, l) => (c.answerUnique q step, l)
  | (c, some (some place), l) => (c.answerDuplicate q step place (!c.ownsBucket b), l)

/-- Steps 4 to 6: the bucket is searched in the cache, or asked for from a catalogue shelf. -/
def Chip.lookUp (c : Chip) (q : Query) (l : List FpCompare) : Chip :=
  let b := c.bucketOf q.fp
  if c.dd.cached.contains b then (c.searchBucket q 4 l).1
  else { c with dd := { c.dd with waiting := c.dd.waiting ++ [⟨q.chunk, q.dom, q.cls, q.blocks, q.fp, b, q.eng, 5⟩] } }

/-- Whether a query asks about an undecided chunk of its own domain, class and length (R198) that waits for no other decision. -/
def Chip.asksFor (c : Chip) (q : Query) : Bool :=
  c.ing.chunks.any (fun k => k.id == q.chunk && k.dom == q.dom && k.cls == q.cls && k.blocks == q.blocks && k.answer == .undecided) &&
  !c.dd.waiting.any (fun w => w.chunk == q.chunk)

/-- R205: the steps of Table 7-1 in order. -/
def Chip.decideChunk (c : Chip) (q : Query) (l : List FpCompare) : Chip :=
  if !bitOf (c.layoutOf q.cls).opts 1 then
    ((c.countChunk q).answerChunk { q with fp := 0 } .unique).tellEngine q 0 0 1 0
  else if !c.asksFor q then c
  else if c.rulesOut q.fp then (c.bump R.CMP_DD_RULED_OUT_RULED_OUT 1).answerUnique q 2
  else
    match c.compareEach ((c.inflightFor q).map (·.place)) l with
    | (c, none, l) => c.lookUp q l
    | (c, some none, _) => c.answerUnique q 3
    | (c, some (some place), _) => c.answerDuplicate q 3 place (inflightChunk place).isSome

/-- DECIDE (R205, Table 13-16): a tenant outside the engine's pool is refused. `compares` are the digest cores' answers, in order (R216). -/
def dedupDecide (eng chunk dom cls blocks fp : Nat) (compares : List FpCompare) (c : Chip) : Chip :=
  let q : Query := ⟨eng, chunk, dom, cls, blocks, fp⟩
  match c.catJob q with
  | some j =>
    let t := c.tenantOf (leNat ((j.body.drop 4).take 2))
    if t.valid && t.pool == c.poolOf (eng / 8) then c.decideChunk { q with dom := t.dom } compares
    else c.tellEngine q statusDenied 0 0 0
  | none => c.decideChunk q compares

/-- A waiting decision's query. -/
def DdWait.query (w : DdWait) : Query := ⟨w.engine, w.chunk, w.dom, w.cls, w.blocks, w.fp⟩

/-- BUCKET_READ_DONE (R214): the page arrives and every decision that waits for it is made; a bad copy is rewritten from the good one, and a bucket
whose copies both fail is written afresh by its owner. -/
def bucketReadDone (bucket : Nat) (copy0Ok copy1Ok : Bool) (compares : List FpCompare) (c : Chip) : Chip :=
  let mine := c.dd.waiting.filter (fun w => w.bucket == bucket)
  let good := (copy0Ok && c.ing.cat0Up) || (copy1Ok && c.ing.cat1Up)
  if mine.isEmpty || !c.catServes || (!good && !(c.ing.cat0Up && c.ing.cat1Up)) then c
  else
    let c := c.bump R.CMP_DD_SHELF_READS_SHELF_READS (chainPages (c.bucket_ bucket))
    let c := if good then (if copy0Ok && copy1Ok then c else c.setBucketEntries bucket (c.bucket_ bucket))
      else if c.ownsBucket bucket then
        ((c.setBucketEntries bucket []).bump R.CMP_DD_LOST_LOST 1).event 0x181 ((mine.headD ⟨0, 0, 0, 0, 0, 0, 0, 0⟩).dom) bucket 0 0 0
      else c
    let c := { c with dd := { c.dd with
      waiting := c.dd.waiting.filter (fun w => w.bucket != bucket)
      cached := if good || c.ownsBucket bucket then bucket :: c.dd.cached else c.dd.cached } }
    if good || c.ownsBucket bucket then (mine.foldl (fun d w => d.1.searchBucket w.query 5 d.2) (c, compares)).1
    else mine.foldl (fun d w => (d.bump R.CMP_DD_FALSE_POS_FALSE_POS 1).answerUnique w.query 6) c

/-- R217: UNIQUE answers that wait for room in the in-flight table are given, in order, while it has room. -/
def Chip.resumeUnique (c : Chip) : Chip :=
  let mine := c.dd.waiting.filter (fun w => w.bucket == 2 ^ 64)
  let c := { c with dd := { c.dd with waiting := c.dd.waiting.filter (fun w => w.bucket != 2 ^ 64) } }
  mine.foldl (fun d w => d.answerUnique w.query w.step) c

/-! ### Records placed -/

/-- R166, R213, R218: a chunk whose stripe is programmed: an in-flight record gets its catalogue insert, and the duplicates that wait for
it are placed, with their increments. -/
def Chip.chunkProgrammed (c : Chip) (k : Chunk) : Chip :=
  let c := c.modChunk k.id (fun k => { k with programmed := true })
  match k.packed, c.dd.inflight.find? (fun f => f.chunk == k.id && !f.programmed) with
  | some (loc, _), some f =>
    let fl := modifyFirst (fun (x : InFlight) => x.chunk == k.id && !x.programmed) (fun x => { x with programmed := true, loc := loc }) c.dd.inflight
    let waits := fun (x : Chunk) => x.answer == .duplicate (inflightPlace k.id) true
    let dups := c.ing.chunks.filter waits
    let chunks := modifyAll waits (fun x => { x with answer := .duplicate loc false }) c.ing.chunks
    let c := { c with dd := { c.dd with inflight := fl }, ing := { c.ing with chunks := chunks } }
    let wp := c.chunkPiece k
    let c := c.catChange wp.1 wp.2 (.insert ⟨f.fp, f.dom, f.cls, f.blocks, 1, loc, 1, f.keySlot, f.epoch, false⟩)
    dups.foldl (fun d x => d.catChange (d.chunkPiece x).1 (d.chunkPiece x).2 (.increment f.fp f.dom f.cls loc)) c
  | _, _ => c

-- EXEC dedupDecide bucketReadDone

/-- DECIDE (R205). -/
def execDedupDecide (eng : Nat) (chunk : Nat) (dom : Nat) (cls : Nat) (blocks : Nat) (fp : Nat) (compares : List FpCompare) (s : State) : Host.Outcome State Fault Refusal :=
  s.runAwake true (dedupDecide eng chunk dom cls blocks fp compares)

/-- BUCKET_READ_DONE (R214). -/
def execBucketReadDone (bucket : Nat) (copy0Ok : Bool) (copy1Ok : Bool) (compares : List FpCompare) (s : State) : Host.Outcome State Fault Refusal :=
  s.runAwake true (bucketReadDone bucket copy0Ok copy1Ok compares)

-- END EXEC

end Sys2Proof.Machine
end

