-- ==== Sys2Proof/Machine/Nand.lean ====
section
/-!
DEFINITION. The media operations as a shelf's bridge performs them on its NAND (R307, R308, Tables 9-8 and 9-9).
-/
namespace Sys2Proof.Machine

/-- The PPA of page 0 of the block that holds a page (R272). -/
def blockPpa (p : Nat) : Nat := p / 8192 * 8192

/-- PAGE of a PPA. -/
def ppaPage (p : Nat) : Nat := p % 8192

/-- Whether a PPA lies in a geometry (R272). -/
def geoHolds (g : Geometry) (p : Nat) : Bool :=
  decide (bitsOf p 35 13 < g.dies) && decide (bitsOf p 32 3 < g.planes) && decide (bitsOf p 16 16 < g.blocks) &&
  bitsOf p 13 3 == 0 && decide (ppaPage p < g.pages) && decide (p < 2 ^ 48)

/-- A shelf's NAND changed. -/
def Chip.modNand (c : Chip) (sh : Nat) (f : Nand → Nand) : Chip :=
  { c with ftm := { c.ftm with nand := Sparse.set {} c.ftm.nand sh (f (c.nandOf sh)) } }

/-- A block of a NAND, by its PPA. -/
def Nand.block (x : Nand) (p : Nat) : NandBlock := Sparse.get {} x.blocks (blockPpa p)

/-- A block changed. -/
def Nand.modBlock (x : Nand) (p : Nat) (f : NandBlock → NandBlock) : Nand :=
  { x with blocks := Sparse.set {} x.blocks (blockPpa p) (f (x.block p)) }

/-- A page of a NAND, none where it is not programmed. -/
def Nand.page (x : Nand) (p : Nat) : Option NandPage := Sparse.get none x.pages p

/-- The bridge of a shelf: at the string and position of its TOPOLOGY entry. -/
def Chip.shelfBridge (c : Chip) (sh : Nat) : Bridge :=
  let e := c.shelfEnt sh
  Sparse.get {} (c.strg e.str).bridges e.pos

/-- Whether a shelf's bridge serves its NAND: it is fitted, and neither parked nor unpowered (R381, R382). -/
def Chip.nandServes (c : Chip) (sh : Nat) : Bool :=
  (c.nandOf sh).geo.dies != 0 && !(c.shelfBridge sh).parked && !(c.shelfBridge sh).nandOff

/-- A bridge changed. -/
def Chip.modBridge (c : Chip) (str pos : Nat) (f : Bridge → Bridge) : Chip :=
  c.modStrg str (fun s => { s with bridges := Sparse.set {} s.bridges pos (f (Sparse.get {} s.bridges pos)) })

/-- A bridge's end of its session with a head (ATT 8 or 9). -/
def Bridge.endOf (b : Bridge) (head : Nat) : LinkEnd := if head = 8 then b.end8 else b.end9

/-- That end changed. -/
def Bridge.modEnd (b : Bridge) (head : Nat) (f : LinkEnd → LinkEnd) : Bridge :=
  if head = 8 then { b with end8 := f b.end8 } else { b with end9 := f b.end9 }

/-- A bridge's reply table for a head (R370). -/
def Bridge.table (b : Bridge) (head : Nat) : List ReplySlot := if head = 8 then b.table8 else b.table9

/-- That table replaced. -/
def Bridge.setTable (b : Bridge) (head : Nat) (t : List ReplySlot) : Bridge :=
  if head = 8 then { b with table8 := t } else { b with table9 := t }

/-- Whether a bridge has an operation that it has not answered. -/
def Bridge.busy (b : Bridge) : Bool := (b.table8 ++ b.table9).any (fun x => x.reply.isNone)

/-- R381: the bridge answers PARK with PARK_DONE, drops its sessions and reply tables, and powers its NAND off. -/
def Chip.parkNow (c : Chip) (str pos : Nat) : Chip :=
  let b := Sparse.get {} (c.strg str).bridges pos
  if b.parkBy = 0 || b.busy then c
  else
    let e := b.endOf b.parkBy
    let f : StrFrame := ⟨pos, b.parkBy, e.session, true, true, false, e.nextSeq, e.expect, 0, e.txc, .parkDone⟩
    (c.emit (.strFrame str f (f.wire e.txKey))).modBridge str pos (fun b => { b with
      parked := true, nandOff := true, parkBy := 0, wakeSeen := 0, end8 := {}, end9 := {}, table8 := [], table9 := [] })

/-- The RSP that carries the reply to a request (Table 11-8). -/
def NandReply.rsp (r : NandReply) (req : MediaReq) : StrPayload :=
  let v := fun i => r.vals.getD i 0
  let body := match r.op with
    | 1 => ((r.hdr.map hdrBytes).getD []) ++ r.data
    | 2 => (r.hdr.map hdrBytes).getD []
    | 4 => natLe (v 0) 8
    | 6 => natLe (v 0) 8 ++ natLe (v 1) 1
    | 8 => natLe (v 0) 2 ++ natLe (v 1) 1 ++ [0#8] ++ natLe (v 2) 2 ++ natLe (v 3) 2 ++ natLe (v 4) 4 ++ natLe (v 5) 1 ++
        List.replicate 3 0#8 ++ natLe (v 6) 4 ++ List.replicate 12 0#8
    | 9 => natLe (v 0) 6 ++ [0#8, 0#8] ++ natLe (v 1) 8 ++ natLe (v 2) 6 ++ [0#8, 0#8] ++ natLe (v 3) 8 ++ natLe (v 4) 8 ++ natLe (v 5) 8
    | _ => []
  .rsp r.op r.status 0 (opLevel req) r.corr body

/-- R370: the operation of one head that a reply answers: its reply is stored, with those of the last 256, and put in line. -/
def Bridge.answer (b : Bridge) (head : Nat) (req : MediaReq) (p : StrPayload) : Option Bridge :=
  match (b.table head).find? (fun x => x.reply.isNone && x.req == req) with
  | none => none
  | some x =>
    let t := modifyFirst (fun (y : ReplySlot) => y.opid == x.opid) (fun y => { y with reply := some p }) (b.table head)
    let full := (t.filter (fun y => y.reply.isSome)).length
    let t := if full ≤ 256 then t else match t.find? (fun y => y.reply.isSome) with
      | some y => t.filter (fun z => z.opid != y.opid)
      | none => t
    some ((b.setTable head t).modEnd head (fun e => { e with queue := e.queue ++ [(x.opid, p)] }))

/-- A reply given to the head that waits for it; a bridge asked to park does so once nothing is left to answer. -/
def Chip.bridgeReply (c : Chip) (sh : Nat) (req : MediaReq) (p : StrPayload) : Chip :=
  let e := c.shelfEnt sh
  if !e.present then c
  else (c.modBridge e.str e.pos (fun b => ((b.answer 8 req p).orElse (fun _ => b.answer 9 req p)).getD b)).parkNow e.str e.pos

/-- R184: whether a program or an erase waits at a bridge since a page read of its die has not been answered. -/
def Bridge.readFirst (b : Bridge) (req : MediaReq) : Bool :=
  (busyDie req).isSome && (b.table8 ++ b.table9).any (fun x => x.reply.isNone && readDie x.req == busyDie req)

/-- A media operation at a bridge: the NAND as it leaves it, and its reply. A bridge that does not serve gives no reply; a program or an erase leaves
the die to the reads that wait for it (R184, log entry 106). -/
def Chip.bridgeDoes (c : Chip) (sh : Nat) (req : MediaReq) (f : Nand → Nand × NandReply) : Chip :=
  if c.nandServes sh && !(c.shelfBridge sh).readFirst req then
    let r := (f (c.nandOf sh)).2
    (c.modNand sh (fun x => { (f x).1 with reply := some r })).bridgeReply sh req (r.rsp req)
  else c

/-- The status of a page read, the page where it decodes, and its corrected bits (Table 9-9). -/
def Nand.readPage (x : Nand) (p : Nat) (nand : NandRead) : Nat × Option NandPage × Nat :=
  if !geoHolds x.geo p then (6, none, 0)
  else
    match x.page p with
    | none => (3, none, 0)
    | some g =>
      if g.bad then (2, none, 0)
      else
        match nand with
        | .clean => (0, some g, 0)
        | .corrected n => (1, some g, n)
        | .uncorrectable => (2, none, 0)

/-- READ (R307). -/
def Nand.read (x : Nand) (p : Nat) (nand : NandRead) : Nand × NandReply :=
  match x.readPage p nand with
  | (st, some g, n) => ({ x with pages := Sparse.set none x.pages p (some { g with corr := n }) }, ⟨1, st, n, some g.hdr, g.data, []⟩)
  | (st, none, n) => (x, { op := 1, status := st, corr := n })

/-- READ_HDR (R307). -/
def Nand.readHdr (x : Nand) (p : Nat) (nand : NandRead) : Nand × NandReply :=
  match x.readPage p nand with
  | (st, some g, _) => (x, { op := 2, status := st, hdr := some g.hdr })
  | (st, none, _) => (x, { op := 2, status := st })

/-- What bars a program of a page (R308): its address, its block's state, or the order. -/
def Nand.bars (x : Nand) (p : Nat) : Option Nat :=
  if !geoHolds x.geo p then some 6
  else if (x.block p).state ≠ 0 then some 8
  else if (x.block p).next ≠ ppaPage p then some 7
  else none

/-- A page programmed, or failing to: it then holds no valid data. -/
def Nand.put (x : Nand) (p : Nat) (h : PageHdr) (data : List Byte) (fails : Bool) : Nand :=
  let x := (x.modBlock p (fun b => { b with next := b.next + 1 }))
  let x := { x with pages := Sparse.set none x.pages p (some { hdr := h, data := data, bad := fails }) }
  if fails then x else if h.seq % 2 = 0 then { x with lastSeq0 := h.seq } else { x with lastSeq1 := h.seq }

/-- PROGRAM (R308). -/
def Nand.program (x : Nand) (p : Nat) (h : PageHdr) (data : List Byte) (fails : Bool) : Nand × NandReply :=
  match x.bars p with
  | some st => (x, { op := 3, status := st })
  | none => (x.put p h data fails, { op := 3, status := if fails then 4 else 0 })

/-- A page of a block: its PAGE must be 0 and the block in the geometry. -/
def Nand.isBlock (x : Nand) (p : Nat) : Bool := geoHolds x.geo p && ppaPage p == 0

/-- ERASE (R307). -/
def Nand.eraseBlock (x : Nand) (p : Nat) (fails : Bool) : Nand × NandReply :=
  if !x.isBlock p then (x, { op := 4, status := 6 })
  else if (x.block p).state ≠ 0 then (x, { op := 4, status := 8 })
  else if fails then (x, { op := 4, status := 5, vals := [(x.block p).erases] })
  else
    let y := { x with pages := x.pages.filter (fun e => blockPpa e.1 != p) }
    (y.modBlock p (fun b => { b with next := 0, erases := b.erases + 1 }), { op := 4, status := 0, vals := [(x.block p).erases + 1] })

/-- COPY (R308): nothing is written where the source does not read or its CHECK fails. -/
def Nand.copy (x : Nand) (src dst seq band epoch : Nat) (nand : NandRead) (fails : Bool) : Nand × NandReply :=
  match x.readPage src nand with
  | (st, none, n) => (x, { op := 5, status := if st = 3 then 9 else st, corr := n })
  | (st, some g, n) =>
    if g.hdr.check ≠ pageCheck g.hdr g.data then (x, { op := 5, status := 9, corr := n })
    else
      match x.bars dst with
      | some b => (x, { op := 5, status := b, corr := n })
      | none =>
        let h := sealHdr { g.hdr with seq := seq, band := band, epoch := epoch } g.data
        (x.put dst h g.data fails, { op := 5, status := if fails then 4 else st, corr := n })

/-- BLOCK_INFO (R307). -/
def Nand.blockInfo (x : Nand) (p : Nat) : Nand × NandReply :=
  if x.isBlock p then (x, { op := 6, status := 0, vals := [(x.block p).erases, (x.block p).state] }) else (x, { op := 6, status := 6 })

/-- RETIRE (R305). -/
def Nand.retire (x : Nand) (p : Nat) : Nand × NandReply :=
  if !x.isBlock p then (x, { op := 7, status := 6 })
  else if (x.block p).state ≠ 0 then (x, { op := 7, status := 8 })
  else (x.modBlock p (fun b => { b with state := 1 }), { op := 7, status := 0 })

/-- GEOMETRY (R307). -/
def Nand.geometry (x : Nand) : Nand × NandReply :=
  let g := x.geo
  (x, { op := 8, status := 0, vals := [g.dies, g.planes, g.blocks, g.pages, g.endurance, g.maxRetry, g.headersPerS] })

/-- ROOT_GET (R290). -/
def Nand.rootGet (x : Nand) : Nand × NandReply :=
  (x, { op := 9, status := 0, vals := [x.root0.ppa, x.root0.seq, x.root1.ppa, x.root1.seq, x.lastSeq0, x.lastSeq1] })

/-- ROOT_SET (R290). -/
def Nand.rootSet (x : Nand) (slot ppa seq : Nat) : Nand × NandReply :=
  if slot = 0 then ({ x with root0 := ⟨ppa, seq, true⟩ }, { op := 10, status := 0 })
  else if slot = 1 then ({ x with root1 := ⟨ppa, seq, true⟩ }, { op := 10, status := 0 })
  else (x, { op := 10, status := 6 })

/-- MEDIA_READ. -/
def mediaRead (sh ppa retry : Nat) (nand : NandRead) (c : Chip) : Chip :=
  -- a retry level above the highest of the geometry is no level of the bridge; it reads at its highest (log entry 22)
  if retry ≤ 15 then c.bridgeDoes sh (.read ppa retry) (fun x => x.read ppa nand) else c

/-- MEDIA_READ_HDR. -/
def mediaReadHdr (sh ppa : Nat) (nand : NandRead) (c : Chip) : Chip := c.bridgeDoes sh (.readHdr ppa) (fun x => x.readHdr ppa nand)

/-- MEDIA_PROGRAM. -/
def mediaProgram (sh ppa : Nat) (hdr : PageHdr) (data : List Byte) (fails : Bool) (c : Chip) : Chip :=
  c.bridgeDoes sh (.program ppa hdr data) (fun x => x.program ppa hdr data fails)

/-- MEDIA_ERASE. -/
def mediaErase (sh ppa : Nat) (fails : Bool) (c : Chip) : Chip := c.bridgeDoes sh (.erase ppa) (fun x => x.eraseBlock ppa fails)

/-- MEDIA_COPY. -/
def mediaCopy (sh src dst seq band epoch : Nat) (nand : NandRead) (fails : Bool) (c : Chip) : Chip :=
  c.bridgeDoes sh (.copy src dst seq band epoch) (fun x => x.copy src dst seq band epoch nand fails)

/-- MEDIA_BLOCK_INFO. -/
def mediaBlockInfo (sh ppa : Nat) (c : Chip) : Chip := c.bridgeDoes sh (.blockInfo ppa) (fun x => x.blockInfo ppa)

/-- MEDIA_RETIRE. -/
def mediaRetire (sh ppa : Nat) (c : Chip) : Chip := c.bridgeDoes sh (.retire ppa) (fun x => x.retire ppa)

/-- MEDIA_GEOMETRY. -/
def mediaGeometry (sh : Nat) (c : Chip) : Chip := c.bridgeDoes sh .geometry Nand.geometry

/-- MEDIA_ROOT_GET. -/
def mediaRootGet (sh : Nat) (c : Chip) : Chip := c.bridgeDoes sh .rootGet Nand.rootGet

/-- MEDIA_ROOT_SET. -/
def mediaRootSet (sh slot ppa seq : Nat) (c : Chip) : Chip := c.bridgeDoes sh (.rootSet slot ppa seq) (fun x => x.rootSet slot ppa seq)

-- EXEC mediaRead mediaReadHdr mediaProgram mediaErase mediaCopy mediaBlockInfo mediaRetire mediaGeometry mediaRootGet mediaRootSet

/-- MEDIA_READ (R307). -/
def execMediaRead (sh : Shelf) (ppa : Nat) (retry : Nat) (nand : NandRead) (s : State) : Host.Outcome State Fault Refusal :=
  s.run (decide (sh < 128)) (mediaRead sh ppa retry nand)

/-- MEDIA_READ_HDR (R307). -/
def execMediaReadHdr (sh : Shelf) (ppa : Nat) (nand : NandRead) (s : State) : Host.Outcome State Fault Refusal :=
  s.run (decide (sh < 128)) (mediaReadHdr sh ppa nand)

/-- MEDIA_PROGRAM (R308). -/
def execMediaProgram (sh : Shelf) (ppa : Nat) (hdr : PageHdr) (data : List Byte) (fails : Bool) (s : State) : Host.Outcome State Fault Refusal :=
  s.run (decide (sh < 128)) (mediaProgram sh ppa hdr data fails)

/-- MEDIA_ERASE (R307). -/
def execMediaErase (sh : Shelf) (ppa : Nat) (fails : Bool) (s : State) : Host.Outcome State Fault Refusal :=
  s.run (decide (sh < 128)) (mediaErase sh ppa fails)

/-- MEDIA_COPY (R308). -/
def execMediaCopy (sh : Shelf) (src : Nat) (dst : Nat) (seq : Nat) (band : Nat) (epoch : Nat) (nand : NandRead) (fails : Bool) (s : State) : Host.Outcome State Fault Refusal :=
  s.run (decide (sh < 128)) (mediaCopy sh src dst seq band epoch nand fails)

/-- MEDIA_BLOCK_INFO (R307). -/
def execMediaBlockInfo (sh : Shelf) (ppa : Nat) (s : State) : Host.Outcome State Fault Refusal :=
  s.run (decide (sh < 128)) (mediaBlockInfo sh ppa)

/-- MEDIA_RETIRE (R305). -/
def execMediaRetire (sh : Shelf) (ppa : Nat) (s : State) : Host.Outcome State Fault Refusal :=
  s.run (decide (sh < 128)) (mediaRetire sh ppa)

/-- MEDIA_GEOMETRY (R307). -/
def execMediaGeometry (sh : Shelf) (s : State) : Host.Outcome State Fault Refusal :=
  s.run (decide (sh < 128)) (mediaGeometry sh)

/-- MEDIA_ROOT_GET (R290). -/
def execMediaRootGet (sh : Shelf) (s : State) : Host.Outcome State Fault Refusal :=
  s.run (decide (sh < 128)) (mediaRootGet sh)

/-- MEDIA_ROOT_SET (R290). -/
def execMediaRootSet (sh : Shelf) (slot : Nat) (ppa : Nat) (seq : Nat) (s : State) : Host.Outcome State Fault Refusal :=
  s.run (decide (sh < 128)) (mediaRootSet sh slot ppa seq)

-- END EXEC

end Sys2Proof.Machine
end

