-- ==== Sys2Proof/Machine/Pages.lean ====
section
/-!
DEFINITION. Pages of stripes as the shelf maps find them: grains, good pages, recovery at an offset and the lost table (R183, R276, R317, R330 to
R333).
-/
namespace Sys2Proof.Machine

/-! ### Grains -/

/-- EXTENT_LOG2 of an entry, 14 for a free one. -/
def MapEnt.extLog2 : MapEnt → Nat
  | .free => 14
  | .coarse e .. => e
  | .grained e _ => e
  | .zero e => e

/-- Whether an entry points into the grain table. -/
def MapEnt.isGrained : MapEnt → Bool
  | .grained .. => true
  | _ => false

/-- A grained entry whose pages are consecutive in one band, as a coarse one (R278, R294). -/
def MapEnt.tidy : MapEnt → MapEnt
  | .grained e ((i, b, p, t) :: rest) =>
    if (i, b, p, t) :: rest = (MapEnt.coarse e b p t).grains then .coarse e b p t else .grained e ((i, b, p, t) :: rest)
  | m => m

/-- The entry with one page's grain set. -/
def MapEnt.setGrain (m : MapEnt) (page band bpage tag : Nat) : MapEnt :=
  let before := m.grains.filter (fun g => decide (g.1 < page))
  let after := m.grains.filter (fun g => decide (page < g.1))
  (MapEnt.grained m.extLog2 (before ++ [(page, band, bpage, tag)] ++ after)).tidy

/-- A shelf-map entry. -/
def ShelfInfo.entry (s : ShelfInfo) (seid : Nat) : MapEnt := Sparse.get MapEnt.free s.map seid

/-- Where a page of an extent lies: band, band page, SEQ_TAG (R276). -/
def ShelfInfo.grain (s : ShelfInfo) (seid page : Nat) : Option (Nat × Nat × Nat) :=
  ((s.entry seid).grains.find? (fun g => g.1 == page)).map (·.2)

/-- The PPA of a mapped page. -/
def ShelfInfo.ppaOf (s : ShelfInfo) (seid page : Nat) : Option Nat :=
  (s.grain seid page).map (fun g => (s.band g.1).ppa g.2.1)

/-- Every mapped page of a shelf that satisfies a test on its PPA: SEID, page and PPA. -/
def ShelfInfo.pagesAt (s : ShelfInfo) (p : Nat → Bool) : List (Nat × Nat × Nat) :=
  s.map.flatMap (fun e => e.2.grains.filterMap (fun g =>
    let a := (s.band g.2.1).ppa g.2.2.1
    if p a then some (e.1, g.1, a) else none))

/-! ### Good pages and reports -/

/-- R183: whether a page read is good: its CHECK, ARRAY_TAG and SHELF, and its LA and SEQ against the map. -/
def Chip.goodPage (c : Chip) (sh ppa : Nat) (h : PageHdr) (data : List Byte) : Bool :=
  h.check == pageCheck h data && h.arrayTag == c.arrayTag && h.shelf == sh &&
  ((c.shelf sh).pagesAt (fun p => p == ppa)).all (fun e =>
    h.la == e.1 * 1024 + e.2.1 && (((c.shelf sh).grain e.1 e.2.1).map (·.2.2)) == some (h.seq / 2 % 0x10000))

/-- The string of a shelf. -/
def Chip.strOf (c : Chip) (sh : Nat) : Nat := (c.shelfEnt sh).str

/-- A page reported to RDE for repair (R187, R295): cohort, SEID, strip × 1024 + page. -/
def Chip.report (c : Chip) (cohort seid strip page : Nat) : Chip :=
  let e := (cohort, seid, strip * 1024 + page)
  if c.rde.repairs.contains e then c else { c with rde := { c.rde with repairs := c.rde.repairs ++ [e] } }

/-- The strip of a stripe that lies on a shelf. -/
def Chip.stripOn (c : Chip) (s : StripeEnt) (sh : Nat) : Option Nat := s.map.idxOf? (c.strOf sh)

/-! ### Pages of a stripe -/

/-- What a strip gives at a page offset: its page, nothing that counts against the tolerance (missing, or bad under R183), or nothing for
the moment only (R330). -/
inductive PageGet where
  | good (data : List Byte) (corr : Nat)
  | gone
  | absent
  deriving DecidableEq, Repr

/-- Whether a page was obtained. -/
def PageGet.isGood : PageGet → Bool
  | .good .. => true
  | _ => false

/-- A page's bytes, zeros where it was not obtained. -/
def PageGet.bytes : PageGet → List Nat
  | .good d _ => d.map (·.toNat)
  | _ => List.replicate 16384 0

/-- A page's corrected bits. -/
def PageGet.corr : PageGet → Nat
  | .good _ n => n
  | _ => 0

/-- The shelf that holds a strip. -/
def Chip.stripShelf (c : Chip) (s : StripeEnt) (j : Nat) : Option Nat := c.shelfOn s.cohort (s.map.getD j 16)

/-- The locator of a record of a stripe. -/
def Chip.recLocator (c : Chip) (s : StripeEnt) (r : RecEnt) : Nat := mkLocator s.cohort ((c.stripShelf s r.strip).getD 0) s.seid r.ofs

/-- A page of a strip as it is fetched (R183, R298, R330). -/
def Chip.getPage (c : Chip) (s : StripeEnt) (j i : Nat) : PageGet :=
  if bitOf s.missing j then .gone
  else
    match c.stripShelf s j with
    | none => .absent
    | some sh =>
      if (c.shelf sh).state ≠ 3 then .absent
      else
        match (c.shelf sh).entry s.seid with
        | .zero _ => .good (List.replicate 16384 0#8) 0
        | _ =>
          match (c.shelf sh).ppaOf s.seid i with
          | none => .gone
          | some ppa =>
            match (c.nandOf sh).page ppa with
            | some g => if !g.bad && c.goodPage sh ppa g.hdr g.data then .good g.data g.corr else .gone
            | none => .gone

/-- The width of a stripe. -/
def Chip.stripeWidth (c : Chip) (s : StripeEnt) : Nat := (c.layoutOf s.cls).width

/-- A mirror class (Table 10-1). -/
def LayoutEnt.mirror (l : LayoutEnt) : Bool := l.kind == 1 || l.kind == 2

/-- Every strip's page at an offset. -/
def Chip.offsetAt (c : Chip) (s : StripeEnt) (i : Nat) : List PageGet := (List.range (c.stripeWidth s)).map (fun j => c.getPage s j i)

/-- The strips not obtained. -/
def missingOf (ps : List PageGet) : List Nat := (List.range ps.length).filter (fun j => !((ps.getD j .gone).isGood))

/-- R317: the right content of every strip at an offset; none where more are unobtainable than the tolerance. -/
def recoverOffset (l : LayoutEnt) (ps : List PageGet) : Option (List (List Nat)) :=
  let miss := missingOf ps
  if l.mirror then (ps.find? PageGet.isGood).map (fun p => List.replicate ps.length p.bytes)
  else if l.tolerance < miss.length then none
  else
    let k := l.dataStrips
    let data := recoverData 16384 k ((ps.take k).map PageGet.bytes) ((ps.getD k .gone).bytes) ((ps.getD (k + 1) .gone).bytes) miss
    some (data ++ [parityP 16384 data, parityQ 16384 data].take l.tolerance)

/-- The content of every strip of a stripe at an offset. -/
def Chip.recovered (c : Chip) (s : StripeEnt) (i : Nat) : Option (List (List Nat)) := recoverOffset (c.layoutOf s.cls) (c.offsetAt s i)

/-- R330: more strips of an offset are unobtainable than the tolerance, those absent for the moment not counted. -/
def Chip.offsetLost (c : Chip) (s : StripeEnt) (i : Nat) : Bool :=
  decide ((c.layoutOf s.cls).tolerance < ((c.offsetAt s i).filter (· == .gone)).length)

/-! ### The lost table -/

/-- GLB_STATUS.DEGRADED (R324, R333). -/
def Chip.setDegraded (c : Chip) : Chip :=
  c.setFlag R.GLB_STATUS_DEGRADED (!c.rde.lost.isEmpty || c.ftm.stripes.any (fun s => s.missing != 0))

/-- Entries of the lost table (R331). -/
def lostMax : Nat := 1048576

/-- R331, R333: an entry added to the lost table and journalled, with its warning; nothing is recorded while the table is full. -/
def Chip.addLost (c : Chip) (e : LostEnt) : Chip :=
  if lostMax ≤ c.rde.lost.length then c.set R.RDE_STATUS_LOST_FULL 1
  else
    let c := { c with rde := { c.rde with lost := c.rde.lost ++ [e] } }
    let c := (c.append .other).dirtyIndex lostPageNo
    let c := if !c.rde.lostWarned && decide (943718 ≤ c.rde.lost.length) then
        ({ c with rde := { c.rde with lostWarned := true } } : Chip).event 0x202 e.cohort 0 0 0 c.rde.lost.length
      else c
    c.setDegraded

/-- Whether the lost table names a page. -/
def Chip.pageLost (c : Chip) (cohort seid strip i : Nat) : Bool :=
  c.rde.lost.any (fun e => e.cohort == cohort && e.id == seid &&
    (e.kind == 2 || (e.kind == 1 && e.strip == strip && decide (e.firstPage ≤ i) && decide (i < e.firstPage + e.count))))

/-- Adjacent lost pages of one strip share one entry (R331). -/
def Chip.addLostPage (c : Chip) (s : StripeEnt) (j i cause : Nat) : Chip :=
  let grows := fun (e : LostEnt) => e.kind == 1 && e.cohort == s.cohort && e.id == s.seid && e.strip == j && e.firstPage + e.count == i && e.epoch == c.epoch
  if c.rde.lost.any grows then
    { c with rde := { c.rde with lost := modifyFirst grows (fun e => { e with count := e.count + 1 }) c.rde.lost } }
  else c.addLost { kind := 1, cohort := s.cohort, strip := j, cause := cause, id := s.seid, firstPage := i, count := 1, epoch := c.epoch }

/-- Whether a record occupies a page of a strip. -/
def RecEnt.onPage (r : RecEnt) (j i : Nat) : Bool :=
  r.strip == j && decide (r.ofs * 64 < (i + 1) * 16384) && decide (i * 16384 < (r.ofs + r.bytes) * 64)

/-- R332: a stripe marked lost with the records that occupy a page. -/
def StripeEnt.losePage (s : StripeEnt) (j i : Nat) : StripeEnt :=
  { s with lost := true, recs := modifyAll (fun r => r.onPage j i) (fun r => { r with lost := true }) s.recs }

/-- R332: the records that occupy a lost page are lost, and the catalogue no longer offers them. -/
def Chip.loseRecords (c : Chip) (s : StripeEnt) (j i : Nat) : Chip :=
  let mine := s.recs.filter (fun r => r.onPage j i && !r.lost && r.live == 2)
  let c := c.modStripe s.cohort s.seid (fun s => s.losePage j i)
  mine.foldl (fun d r => d.catChange 0 0 (.lost r.fp r.dom s.cls (c.recLocator s r))) c

/-- R331: an entry of the peer's enters the lost table at its Midnight, and what it names is lost (R332). -/
def Chip.takeLost (c : Chip) (e : LostEnt) : Chip :=
  if c.rde.lost.contains e || decide (lostMax ≤ c.rde.lost.length) then c
  else
    let c := { c with rde := { c.rde with lost := c.rde.lost ++ [e] } }
    let c := match e.kind with
      | 1 => (upFrom e.firstPage e.count).foldl (fun (d : Chip) i => d.modStripe e.cohort e.id (fun s => s.losePage e.strip i)) c
      | 2 => c.modStripe e.cohort e.id (fun (s : StripeEnt) => { s with lost := true, recs := modifyAll (fun _ => true) (fun r => { r with lost := true }) s.recs })
      | _ => c
    c.setDegraded

/-- LOST_PAGES (R330, R332): those of the strips given that hold data, at an offset that has more of them than the tolerance. -/
def Chip.loseStrips (c : Chip) (s : StripeEnt) (gone : List Nat) (i cause : Nat) : Chip :=
  let n := (c.layoutOf s.cls).dataStrips
  (gone.filter (fun j => decide (j < n) && !c.pageLost s.cohort s.seid j i)).foldl (fun d j =>
    let d := ((d.addLostPage s j i cause).bump R.RDE_CNT_LOST_LOST 1).event 0x201 s.cohort s.seid cause
      ((c.stripShelf s j).getD 0 + 256 * s.map.getD j 0) i
    d.loseRecords s j i) c

/-- The data pages of an offset beyond the tolerance lost. -/
def Chip.losePages (c : Chip) (s : StripeEnt) (i cause : Nat) : Chip :=
  let ps := c.offsetAt s i
  c.loseStrips s ((List.range ps.length).filter (fun j => ps.getD j .gone == .gone)) i cause

end Sys2Proof.Machine
end

