-- ==== Sys2Proof/Machine/Fetch.lean ====
section
/-!
DEFINITION. The records of reads fetched from their shelves: attempts, inline rebuild and the checks of a record (R176, R181 to R189).
-/
namespace Sys2Proof.Machine

/-- The pages of its strip that hold a record's bytes (R182). -/
def RecFetch.span (f : RecFetch) : List Nat :=
  let first := f.ofs * 64 / 16384
  upFrom first (ceilDiv ((f.ofs + f.bytes) * 64) 16384 - first)

/-- A page that the fetch has asked for. -/
def RecFetch.page (f : RecFetch) (j i : Nat) : Option FetchPage := f.pages.find? (fun p => p.strip == j && p.page == i)

/-- Whether a page came good. -/
def RecFetch.good (f : RecFetch) (j i : Nat) : Bool := (f.page j i).any (fun p => p.state == 1)

/-- Whether a page is bad for this read. -/
def RecFetch.bad (f : RecFetch) (j i : Nat) : Bool := (f.page j i).any (fun p => decide (2 ≤ p.state))

/-- Attempts for a record (Table 6-4). -/
def tries (l : LayoutEnt) : Nat := if l.mirror then l.width else l.tolerance + 1

/-- The pages that the present attempt needs at an offset: of a mirror's copy, of the strip itself, or of the strips that rebuild it by the first
parity or the second (R185, R186). With one other data strip bad, the first takes the second parity as well. -/
def RecFetch.needs (f : RecFetch) (l : LayoutEnt) (i : Nat) : List (Nat × Nat) :=
  if l.mirror then [(f.order.getD f.attempt 0, i)]
  else if f.attempt = 0 || (f.mixed && f.good f.strip i) then [(f.strip, i)]
  else
    let others := (List.range l.dataStrips).filter (· != f.strip)
    let two := f.attempt == 1 && l.tolerance == 2 && (others.filter (fun j => f.bad j i)).length == 1
    (others ++ [l.dataStrips + (f.attempt - 1)] ++ (if two then [l.dataStrips + 1] else [])).map (fun j => (j, i))

/-- The record's strip at an offset as the present attempt has it; none where it needs a page that is not good. -/
def RecFetch.offset (f : RecFetch) (l : LayoutEnt) (i : Nat) : Option (List Byte) :=
  let got := fun j => ((f.page j i).filter (fun p => p.state == 1)).map (·.data)
  if l.mirror then got (f.order.getD f.attempt 0)
  else if f.attempt = 0 || (f.mixed && f.good f.strip i) then got f.strip
  else
    let use := fun j => j != f.strip && !(f.attempt == 2 && j == l.dataStrips)
    let ps := (List.range l.width).map (fun j => match if use j then got j else none with
      | some d => PageGet.good d 0
      | none => .gone)
    if f.attempt = 1 && !f.good l.dataStrips i then none
    else (recoverOffset l ps).map (fun s => (s.getD f.strip []).map (BitVec.ofNat 8))

/-- The record's bytes as the present attempt has them. -/
def RecFetch.content (f : RecFetch) (l : LayoutEnt) : Option (List Byte) :=
  let ps := f.span.map (f.offset l)
  if ps.all (·.isSome) then some (((ps.flatMap (·.getD [])).drop (f.ofs * 64 % 16384)).take (f.bytes * 64)) else none

/-- A page as the fetch finds it before it is read: bad unread on a missing strip, not to be had for the moment on an absent shelf or one out of
service, zeros on a zero strip, else to be read (R181, R183, R298, R330). -/
def Chip.findPage (c : Chip) (s : StripeEnt) (j i : Nat) : FetchPage :=
  if bitOf s.missing j then ⟨j, i, 0, 0, 2, []⟩
  else match c.stripShelf s j with
    | none => ⟨j, i, 0, 0, 3, []⟩
    | some sh =>
      if (c.shelf sh).state ≠ 3 then ⟨j, i, sh, 0, 3, []⟩
      else match (c.shelf sh).entry s.seid with
        | .zero _ => ⟨j, i, sh, 0, 1, List.replicate 16384 0#8⟩
        | _ => match (c.shelf sh).ppaOf s.seid i with
          | some ppa => ⟨j, i, sh, ppa, 0, []⟩
          | none => ⟨j, i, sh, 0, 2, []⟩

/-- Pages asked for: those that are to be read go to their bridges (R182, R197). -/
def Chip.askPages (c : Chip) (s : StripeEnt) (f : RecFetch) (l : List (Nat × Nat)) : Chip × RecFetch :=
  let ps := l.map (fun e => c.findPage s e.1 e.2)
  ((ps.filter (fun p => p.state == 0)).foldl (fun d p => d.media p.shelf (.read p.ppa 0)) c, { f with pages := f.pages ++ ps })

/-- What the checks of a record give. -/
inductive RecCheck where
  | ok | fails | denied
  deriving DecidableEq, Repr

/-- Whether a record's GCM tag verifies under the key of its header's slot; none where the slot holds no key, or one loaded since an erase (R246). -/
def Chip.tagVerifies (c : Chip) (bs : List Byte) : Option Bool :=
  let h := bs.take 64
  let slot := leNat ((h.drop 6).take 2)
  if (c.slot slot).state != .loaded || c.erasedBefore slot (leNat ((h.drop 48).take 6)) then none
  else
    let ct := (bs.drop 64).take (leNat ((h.drop 12).take 4))
    some (gcmTag (aesKeys (keyBytes (c.slot slot).key)) ((h.drop 16).take 12) (h.take 32 ++ zeroTag ++ h.drop 48) ct == (h.drop 32).take 16)

/-- R188, R189: a record's header and tag. A header's slot that holds no key, or whose key was erased since (R246), denies the record. -/
def Chip.checkRecord (c : Chip) (l : LayoutEnt) (f : RecFetch) (bs : List Byte) : RecCheck :=
  let h := bs.take 64
  let len := leNat ((h.drop 12).take 4)
  if leNat (h.take 2) != 0x4B43 || decide (1 < leNat ((h.drop 2).take 1)) || leNat ((h.drop 3).take 1) != f.blocks ||
      leNat ((h.drop 8).take 2) != f.dom || decide (l.extent < f.ofs * 64 + 64 + len) then .fails
  else match c.tagVerifies bs with
    | none => .denied
    | some ok => if ok then .ok else .fails

/-- R187: pages of a record's strip reported for repair, each with its event. -/
def Chip.reportPages (c : Chip) (s : StripeEnt) (strip : Nat) (l : List Nat) : Chip :=
  l.foldl (fun d i => (d.report s.cohort s.seid strip i).event 0x200 s.cohort s.seid 0
    ((d.stripShelf s strip).getD 0 + 256 * s.map.getD strip 0) i) c

/-- R330: what a read that failed has found: the data pages of each offset with more bad strips than the tolerance are lost. -/
def Chip.readLost (c : Chip) (s : StripeEnt) (f : RecFetch) : Chip :=
  f.span.foldl (fun d i =>
    let gone := (f.pages.filter (fun p => p.page == i && p.state == 2)).map (·.strip)
    if (d.layoutOf s.cls).tolerance < gone.length then d.loseStrips s gone i 2 else d) c

/-- R193: a fetch whose attempts are used up fails: with 0x06 where pages are not to be had for the moment only, with 0x81 where no attempt obtained
its pages, else with 0xC1. -/
def RecFetch.giveUp (f : RecFetch) : RecFetch :=
  { f with state := if f.absent then .failed 0 0x06 else if f.obtained then .failed 7 0xC1 else .failed 2 0x81 }

/-- R185: a fetch goes on as far as it can: it asks for pages, waits for them, and tries attempt after attempt until a record's header checks and its
tag verifies. -/
def Chip.runFetch (c : Chip) (s : StripeEnt) : Nat → RecFetch → Chip × RecFetch
  | 0, f => (c, f)
  | n + 1, f =>
    let l := c.layoutOf s.cls
    if tries l ≤ f.attempt then (c.readLost s f, f.giveUp)
    else
      match (f.span.flatMap (f.needs l)).filter (fun e => (f.page e.1 e.2).isNone) with
      | [] =>
        if f.pages.any (fun p => p.state == 0) then (c, f)
        else
          let again := { f with attempt := f.attempt + 1 }
          match f.content l with
          | none => Chip.runFetch c s n { again with mixed := f.mixed || f.attempt == 0, absent := f.absent || f.pages.any (fun p => p.state == 3) }
          | some bs =>
            let rebuilt := if l.mirror || f.attempt = 0 then [] else f.span.filter (fun i => !(f.mixed && f.good f.strip i))
            let c := c.reportPages s f.strip rebuilt
            match c.checkRecord l f bs with
            | .ok => (c, { f with state := .verified, record := bs })
            | .denied => (c, { f with state := .failed 2 0x86 })
            | .fails => Chip.runFetch (if f.attempt = 0 then c.reportPages s f.strip f.span else c) s n { again with obtained := true }
      | want =>
        let (c, f) := c.askPages s f want
        Chip.runFetch c s n f

/-- A fetch run and kept with the others. -/
def Chip.stepFetch (c : Chip) (f : RecFetch) : Chip :=
  match c.stripe (locCohort f.locator) (locSeid f.locator) with
  | none => c
  | some s =>
    let (d, g) := c.runFetch s 16 f
    let same := fun (x : RecFetch) => x.locator == f.locator && x.dom == f.dom
    { d with ing := { d.ing with fetches := modifyFirst same (fun _ => g) d.ing.fetches } }

/-- A page that was read: every fetch that waits for it takes it and goes on. -/
def Chip.pageCame (c : Chip) (sh ppa : Nat) (data : Option (List Byte)) : Chip :=
  let waits := fun (p : FetchPage) => p.state == 0 && p.shelf == sh && p.ppa == ppa
  let hits := c.ing.fetches.filter (fun f => f.pages.any waits)
  (hits.foldl (fun d f => d.stepFetch { f with
    pages := modifyAll waits (fun p => { p with state := if data.isSome then 1 else 2, data := data.getD [] }) f.pages }) c).settleReads

/-- R182: the copies of a mirror in the order in which a read tries them: the one whose string has the fewest page reads queued, the lower string on a
tie; then the others, the lower string first (Table 6-4). -/
def Chip.copyOrder (c : Chip) (s : StripeEnt) : List Nat :=
  let str := fun j => s.map.getD j 16
  let queued := fun j => (c.ftm.ops.filter (fun o => c.strOf o.shelf == str j && (match o.op with
    | .read .. => true
    | _ => false))).length
  let byString := ((List.range (c.stripeWidth s)).foldl (fun (l : List (Nat × Nat)) j => Sparse.place (str j) j l) []).map (·.2)
  let first := byString.foldl (fun (o : Option Nat) j => match o with
    | none => some j
    | some b => if queued j < queued b then some j else some b) none
  first.toList ++ byString.filter (fun j => some j != first)

/-- A record that a read needs begins to be fetched, unless another command's fetch of it is there to be shared (R176). A locator that names no record
of its stripe's table obtains no page. -/
def Chip.startFetch (c : Chip) (r : ReadCmd) (locator : Nat) : Chip :=
  if (c.fetchOf r locator).isSome then c
  else
    let dom := c.readerDom r
    let rec_ := (c.stripe (locCohort locator) (locSeid locator)).bind (fun s => (s.recs.find? (fun x => x.ofs == locOfs locator &&
      c.shelfOn s.cohort (s.map.getD x.strip 0) == some (locShelf locator))).map (fun x => (s, x)))
    match rec_ with
    | none => { c with ing := { c.ing with fetches := c.ing.fetches ++ [{ locator := locator, dom := dom, strip := 0, ofs := 0, bytes := 0, blocks := 0,
                                                                          state := .failed 2 0x81 }] } }
    | some (s, x) =>
      let f : RecFetch := { locator := locator, dom := dom, strip := x.strip, ofs := x.ofs, bytes := x.bytes, blocks := x.blocks, order := c.copyOrder s }
      ({ c with ing := { c.ing with fetches := c.ing.fetches ++ [f] } } : Chip).stepFetch f

/-- R176, R178: the records of a read that lie in awake cohorts begin to be fetched. -/
def Chip.startFetches (c : Chip) (r : ReadCmd) : Chip :=
  (r.srcs.filterMap (fun s => match s with
    | .stored l _ => if c.cohortAwake (locCohort l) then some l else none
    | _ => none)).foldl (fun d l => d.startFetch r l) c

/-- A read's records fetched once again (R492). -/
def Chip.refetch (c : Chip) (r : ReadCmd) : Chip :=
  ({ c with ing := { c.ing with fetches := c.ing.fetches.filter (fun f => !c.wantsFetch r f) } } : Chip).startFetches r

end Sys2Proof.Machine
end

