-- ==== Sys2Proof/Machine/Retrieval.lean ====
section
/-!
DEFINITION. Read and Verify: their sources resolved and their records fetched (chapter 6).
-/
namespace Sys2Proof.Machine

/-- The cohort that a read still needs for a block and that sleeps: its record is not being fetched already. -/
def Chip.sleeper (c : Chip) (r : ReadCmd) (s : BlockSrc) : Option Nat :=
  match s with
  | .stored l _ => if c.cohortAwake (locCohort l) || (c.fetchOf r l).isSome then none else some (locCohort l)
  | _ => none

/-- Whether a read is served without any strip. -/
def needsNoStrip (srcs : List BlockSrc) : Bool := srcs.all (fun s => match s with
  | .stored .. => false
  | _ => true)

/-- A resolved read goes on: it is served at once, or its records in awake cohorts are fetched, and it waits for a switch where a cohort it needs
sleeps (R176, R178). Gather starts with the first waiting read. -/
def Chip.beginRead (c : Chip) (r : ReadCmd) : Chip :=
  if needsNoStrip r.srcs then c.deliver r 0
  else
    let waits := (r.srcs.filterMap (c.sleeper r)).head?
    let first := waits.isSome && !(c.ing.reads.any (fun x => x.waits.isSome))
    let reads := (c.ing.reads.filter (fun x => x.id != r.id)) ++ [{ r with waits := waits }]
    (({ c with ing := { c.ing with
      reads := reads
      gatherAt := if first then c.now else c.ing.gatherAt
      part := if first && c.ing.part == .none then .gather else c.ing.part } } : Chip).startFetches r).settleReads

/-- Whether another head answers a map walk for a namespace (R134, R197). -/
def Chip.walksElsewhere (c : Chip) (n : Namespace) : Bool := c.peerIn && n.anagrp != c.homeGroup && c.anaOf n.anagrp == 2

/-- READ and VERIFY after their fetch (R121, R174, R197). On a Non-Optimized path, blocks that no buffered write holds are asked of the
home head. -/
def Chip.readOrVerify (c : Chip) (id : CmdId) (nsid slba nlb : Nat) (form : CmdForm) (pr : PrInfo) (ver : Bool) : Chip :=
  let n := c.nsOf nsid
  if c.ing.fetchStopped || c.nvm.suspended || c.nvm.hold == .reads || !c.on (R.CFG_COMMAND_BME id.fn) then c
  else
    match c.ioCheck id nsid slba nlb (badForm form (if ver then 0 else nlb * blockStride n pr.pract)) true with
    | some st => c.finish id st
    | none =>
      let c := c.modFlight id (fun i => { i with running := true, bytes := nlb * 4096 })
      let srcs := (List.range nlb).map (fun i => c.sourceOf nsid (slba + i))
      let r : ReadCmd := ⟨id, nsid, slba, nlb, pr, ver, form, srcs, none, c.now, [], false⟩
      if c.walksElsewhere n && srcs.any (fun s => match s with
          | .buffer _ => false
          | _ => true) then
        ({ c with ing := { c.ing with reads := c.ing.reads ++ [{ r with srcs := [] }] } } : Chip).peerAsk
          (.walk (.request nsid slba nlb))
      else c.beginRead r

/-- READ. -/
def read (id : CmdId) (nsid slba nlb : Nat) (form : CmdForm) (pr : PrInfo) (c : Chip) : Chip :=
  match c.fetched id false 0x02 with
  | none => c
  | some i => c.underSections i.sect (fun c => c.readOrVerify id nsid slba nlb form pr false)

/-- VERIFY. -/
def verify (id : CmdId) (nsid slba nlb : Nat) (form : CmdForm) (pr : PrInfo) (c : Chip) : Chip :=
  match c.fetched id false 0x0C with
  | none => c
  | some i => c.underSections i.sect (fun c => c.readOrVerify id nsid slba nlb form pr true)

-- EXEC read verify

/-- READ (R174). -/
def execRead (id : CmdId) (nsid : Nat) (slba : Nat) (nlb : Nat) (form : CmdForm) (pr : PrInfo) (s : State) : Host.Outcome State Fault Refusal :=
  s.runAwake (id.wf) (read id nsid slba nlb form pr)

/-- VERIFY (R174). -/
def execVerify (id : CmdId) (nsid : Nat) (slba : Nat) (nlb : Nat) (form : CmdForm) (pr : PrInfo) (s : State) : Host.Outcome State Fault Refusal :=
  s.runAwake (id.wf) (verify id nsid slba nlb form pr)

-- END EXEC

end Sys2Proof.Machine
end

