-- ==== Sys2Proof/Machine/Admin.lean ====
section
/-!
DEFINITION. Controllers, queues, fetching and the admin commands of chapter 4.
-/
namespace Sys2Proof.Machine

/-- R102: whether CC, AQA, ASQ and ACQ hold supported values. -/
def Chip.ccValid (c : Chip) (fn : Nat) : Bool :=
  c.get (R.NVM_CC_CSS fn) == 0 && decide (c.get (R.NVM_CC_MPS fn) ≤ 4) && c.get (R.NVM_CC_AMS fn) == 0 &&
  c.get (R.NVM_CC_IOSQES fn) == 6 && c.get (R.NVM_CC_IOCQES fn) == 4 &&
  decide (1 ≤ c.get (R.NVM_AQA_ASQS fn)) && decide (1 ≤ c.get (R.NVM_AQA_ACQS fn)) &&
  c.get (R.NVM_ASQ_ASQB fn) % c.pageSize fn == 0 && c.get (R.NVM_ACQ_ACQB fn) % c.pageSize fn == 0

/-- CC_EN_SET (R102, R103); on the PF the peer is told that the host is up (R415). -/
def ccEnSet (fn : Nat) (c : Chip) : Chip :=
  if !c.present fn || c.on (R.NVM_CC_EN fn) then c
  else
    let c := c.set (R.NVM_CC_EN fn) 1
    if c.ccValid fn then
      let c := if fn = 0 && c.epc.link == .l0 then c.notice 2 0 else c
      c.modCtrl fn (fun k => { k with
        sqs := [⟨0, c.get (R.NVM_AQA_ASQS fn) + 1, c.get (R.NVM_ASQ_ASQB fn), 0, 0, 0, 0, none⟩]
        cqs := [⟨0, c.get (R.NVM_AQA_ACQS fn) + 1, c.get (R.NVM_ACQ_ACQB fn), 0, true, 0, 0, 1, []⟩]
        enAt := some c.now })
    else (c.set (R.NVM_CSTS_CFS fn) 1).event 0x012 20 0x14 1 fn 0

/-- CONTROLLER_READY (R103). -/
def controllerReady (fn : Nat) (c : Chip) : Chip :=
  if c.on (R.NVM_CC_EN fn) && !c.on (R.NVM_CSTS_CFS fn) && (c.inService || c.on R.GLB_STATUS_LOADER_ONLY) then
    c.set (R.NVM_CSTS_RDY fn) 1
  else c

/-- NORMAL_SHUTDOWN (R105): fetching stops, an entry whose fetch is out stays unfetched, and SHST becomes 0b10 with the last completion. -/
def normalShutdown (fn : Nat) (c : Chip) : Chip :=
  ((((c.set (R.NVM_CC_SHN fn) 1).set (R.NVM_CSTS_SHST fn) 1).modCtrl fn (fun k => { k with shutting := true, stopped := true })).dropFetches
    fn).endShutdown fn

/-- SQ_TAIL_DOORBELL (R111). -/
def sqTailDoorbell (fn qid value : Nat) (c : Chip) : Chip :=
  match c.sqOf fn qid with
  | none => c.badDoorbell fn 0
  | some q => if q.size ≤ value then c.badDoorbell fn 1 else c.modSq fn qid (fun q => { q with tail := value })

/-- CQ_HEAD_DOORBELL (R111, R112): entries before the new head are released, and waiting completions are posted. -/
def cqHeadDoorbell (fn qid value : Nat) (c : Chip) : Chip :=
  match c.cqOf fn qid with
  | none => c.badDoorbell fn 0
  | some q =>
    if q.size ≤ value || (q.tail + q.size - q.head) % q.size < (value + q.size - q.head) % q.size then c.badDoorbell fn 1
    else
      let c := c.modCq fn qid (fun q => { q with head := value })
      (c.drainCq fn qid q.waiting.length).postsDone fn

/-! ### Fetching -/

/-- R26: whether the load breaks a bound; rates in MB/s and factors in thousandths. -/
def breaksBounds (l : Load) : Bool :=
  decide (553000000 < l.ingest * l.d + l.peer * 1000 + l.retrieve * (2 * l.c + 2000)) ||
  decide (100000 < l.ingest) || decide (110000 < l.retrieve) || decide (120000000 < l.u * l.ingest) ||
  decide (144000 < l.retrieve) || decide (256000000 < l.s * l.ingest + l.c * l.retrieve)

/-- R389: whether a peer link of fewer than 16 lanes carries less than the ingest, of which each quad mirrors its part of the 205.9 GB/s of R404 (log
entry 126). -/
def Chip.mirrorFull (c : Chip) (l : Load) : Bool :=
  let quads := ((List.range 4).filter (c.bit R.ZBL_STATUS_QUADS)).length
  c.peerIn && decide (0 < quads) && decide (51475 * quads < l.ingest)

/-- R195, R389: what a load that breaks a bound, or that the mirror cannot carry, withholds: Writes until ingest has fallen to 20 GB/s, Reads and Verifies
from there on. -/
def Chip.heldBy (c : Chip) (l : Load) : Hold :=
  if !breaksBounds l && !c.mirrorFull l then .nothing else if 20000 < l.ingest then .writes else .reads

/-- The fetches out, of the queues that satisfy a test of function and queue: how many entries each brings. -/
def Chip.fetchesOf (c : Chip) (p : Nat → Nat → Bool) : List Nat :=
  c.epc.xfers.filterMap (fun x => match x.purpose with
    | .entryFetch fn sq _ n _ => if p fn sq then some n else none
    | _ => none)

/-- Whether a queue's entries may be fetched: its controller runs, entries wait, and its completion queue is not full (R106, R110, R112), outside
Dusk (R503). -/
def Chip.mayFetch (c : Chip) (fn : Nat) (q : Sq) : Bool :=
  c.on (R.NVM_CSTS_RDY fn) && !c.on (R.NVM_CSTS_CFS fn) && !(c.ctrl fn).stopped && !c.ing.fetchStopped && !c.nvm.suspended &&
  c.pwr.mode != .dusk &&
  c.on (R.CFG_COMMAND_BME fn) && q.deleting.isNone && q.fetch != q.tail &&
  (match c.cqOf fn q.cq with
   | some k => (k.tail + 1) % k.size != k.head
   | none => false)

/-- Admin commands of a function in its 8 contexts, those whose fetch is out with them (R116). -/
def Chip.adminBusy (c : Chip) (fn : Nat) : Nat :=
  ((c.flights fn).filter (·.admin)).length + sumOf (c.fetchesOf (fun f sq => f == fn && sq == 0))

/-- R115: a function whose admin queue may be fetched: within the 32 reserved slots, of which the VFs together use at most 24. -/
def Chip.adminReady (c : Chip) : Option Nat :=
  let busy := (c.fetchesOf (fun _ sq => sq == 0)).length
  let vfs := (c.fetchesOf (fun f sq => f != 0 && sq == 0)).length
  (c.nvm.ctrls.map (·.1)).find? (fun fn =>
    decide (busy < 32) && (fn == 0 || decide (vfs < 24)) && decide (c.adminBusy fn < 8) &&
    (match c.sqOf fn 0 with
     | some q => c.mayFetch fn q
     | none => false))

/-- R116: I/O commands of a function between fetch and completion, those whose fetch is out with them. -/
def Chip.ioBusy (c : Chip) (fn : Nat) : Nat :=
  ((c.flights fn).filter (fun i => !i.admin)).length + sumOf (c.fetchesOf (fun f sq => f == fn && sq != 0))

/-- R116: I/O commands of the head. -/
def Chip.ioAll (c : Chip) : Nat := (c.nvm.inflight.filter (fun i => !i.admin)).length + sumOf (c.fetchesOf (fun _ sq => sq != 0))

/-- The I/O queues of a function that may be fetched, those after the last one served first (R114). -/
def Chip.ioQueues (c : Chip) (fn : Nat) : List Sq :=
  let k := c.ctrl fn
  let qs := k.sqs.filter (fun q => q.qid != 0 && c.mayFetch fn q)
  qs.filter (fun q => decide (k.nextSq < q.qid)) ++ qs.filter (fun q => decide (q.qid ≤ k.nextSq))

/-- R65, R455: whether a pool has a cluster in service; without one its tenants' submission queues are left unfetched. -/
def Chip.poolServed (c : Chip) (pool : Nat) : Bool :=
  (List.range 24).any (fun n => (c.clusAt n).state == .inService && c.poolOf n == pool)

/-- The functions of a pool with work, those after the last one served first. -/
def Chip.poolFns (c : Chip) (pool : Nat) : List Nat :=
  let fns := (c.nvm.ctrls.map (·.1)).filter (fun fn =>
    (c.tenantOf fn).valid && (c.tenantOf fn).pool == pool && c.poolServed pool && !(c.ioQueues fn).isEmpty && decide (c.ioBusy fn < 32768))
  fns.filter (fun fn => decide (c.nvm.fetchFn < fn)) ++ fns.filter (fun fn => decide (fn ≤ c.nvm.fetchFn))

/-- A tenant's quantum (R114). -/
def Chip.quantum (c : Chip) (fn : Nat) : Nat := 4096 * max 1 (c.tenantOf fn).weight

/-- Deficit round robin (R114): what each tenant of the pool still owes is worked off in whole rounds until one owes nothing. -/
def Chip.payRounds (c : Chip) (fns : List Nat) : Chip :=
  let need := fns.map (fun fn => ceilDiv (c.ctrl fn).deficit (c.quantum fn))
  let rounds := need.foldl min (need.headD 0)
  fns.foldl (fun d fn => d.modCtrl fn (fun k => { k with deficit := k.deficit - rounds * c.quantum fn })) c

/-- The largest run of entries one slot fetches (R114): up to 8, to the ring's end, to a 4 KiB boundary and to the number given. -/
def fetchCount (q : Sq) (room : Nat) : Nat :=
  let avail := if q.fetch ≤ q.tail then q.tail - q.fetch else q.size - q.fetch
  min (min (min 8 avail) room) ((4096 - (q.base + 64 * q.fetch) % 4096) / 64)

/-- The fetch buffers of the firmware region (log entry 19): the first that no fetch uses. -/
def Chip.fetchBuf (c : Chip) : Nat :=
  let at_ := fun k => c.dramSize - 0x4000000 + 512 * k
  at_ (((List.range 512).find? (fun k => !c.epc.xfers.any (fun x => x.dest == at_ k))).getD 0)

/-- A fetch of `n` entries of a queue issued. -/
def Chip.issueFetch (c : Chip) (fn : Nat) (q : Sq) (n : Nat) : Chip :=
  (c.modSq fn q.qid (fun q => { q with fetch := (q.fetch + n) % q.size })).startRead fn (.entryFetch fn q.qid q.fetch n 0)
    [(q.base + 64 * q.fetch, 64 * n)] c.fetchBuf

/-- A visit to a queue: up to `room` entries, in at most `slots` fetch slots. -/
def Chip.fetchVisit (c : Chip) (fn qid room : Nat) : Nat → Chip
  | 0 => c
  | slots + 1 =>
    match c.sqOf fn qid with
    | none => c
    | some q =>
      let n := fetchCount q room
      if n = 0 then c else Chip.fetchVisit (c.issueFetch fn q n) fn qid (room - n) slots

/-- The arbitration burst of Feature 0x01 (R114). -/
def burstOf (arb : Nat) : Nat := if arb % 8 = 7 then 65536 else 2 ^ (arb % 8)

/-- SQ_FETCH_ISSUE (R114 to R117): an admin queue's entries are fetched whatever the load; otherwise the next pool that is not busy serves its
next tenant and that tenant its next queue, up to the arbitration burst. The load says what is withheld from now on (R26, R195; log entry 107). -/
def sqFetchIssue (load : Load) (busyPools : List Nat) (c : Chip) : Chip :=
  let c := { c with nvm := { c.nvm with hold := c.heldBy load } }
  match c.adminReady with
  | some fn => c.fetchVisit fn 0 (8 - c.adminBusy fn) 1
  | none =>
    let slots := 480 - (c.fetchesOf (fun _ sq => sq != 0)).length
    if slots = 0 || decide (262144 ≤ c.ioAll) then c
    else
      let order := (upFrom c.nvm.fetchPool 15).map (· % 15)
      match order.find? (fun p => !busyPools.contains p && !(c.poolFns p).isEmpty) with
      | none => c
      | some p =>
        let fns := c.poolFns p
        let c := c.payRounds fns
        match fns.find? (fun fn => (c.ctrl fn).deficit == 0) with
        | none => c
        | some fn =>
          match (c.ioQueues fn).head? with
          | none => c
          | some q =>
            let room := min (burstOf (c.ctrl fn).arb) (min (32768 - c.ioBusy fn) (262144 - c.ioAll))
            let c := { c with nvm := { c.nvm with fetchPool := (p + 1) % 15, fetchFn := fn } }
            (c.modCtrl fn (fun k => { k with nextSq := q.qid })).fetchVisit fn q.qid room slots

/-- COALESCING_TIMER (R113): TIME × 100 µs after the first entry of a vector that is not signalled, its interrupt is sent. -/
def coalescingTimer (fn vec : Nat) (c : Chip) : Chip :=
  let k := c.ctrl fn
  if Sparse.get 0 k.coalCount vec = 0 || decide (c.now < Sparse.get 0 k.coalAt vec + bitsOf k.coal 8 8 * 100000) then c
  else (c.modCtrl fn (fun k => { k with coalCount := Sparse.set 0 k.coalCount vec 0 })).cause fn vec

/-! ### Queue commands -/

/-- CREATE_IO_COMPLETION_QUEUE (R109). -/
def createIoCompletionQueue (id : CmdId) (qid qsize vec : Nat) (pc ien : Bool) (prp1 : Nat) (c : Chip) : Chip :=
  c.execute id true 0x05 (fun _ c =>
    if qid = 0 || (c.tenantOf id.fn).maxQp < qid || (c.cqOf id.fn qid).isSome then c.finish id (stat 1 0x01 true)
    else if qsize = 0 || 0xFFFF < qsize then c.finish id (stat 1 0x02 true)
    else if !pc || prp1 % c.pageSize id.fn != 0 then c.finish id stField
    else if 1024 < vec then c.finish id (stat 1 0x08 true)
    else (c.modCtrl id.fn (fun k => { k with
      createdIo := true, cqs := k.cqs ++ [⟨qid, qsize + 1, prp1, vec, ien, 0, 0, 1, []⟩] })).finish id stOk)

/-- CREATE_IO_SUBMISSION_QUEUE (R109). DESIGN CHOICE (log entry 97): the admin completion queue, CQID 0, is none that an I/O submission queue may
name. -/
def createIoSubmissionQueue (id : CmdId) (qid qsize cqid : Nat) (pc : Bool) (prp1 : Nat) (c : Chip) : Chip :=
  c.execute id true 0x01 (fun _ c =>
    if qid = 0 || (c.tenantOf id.fn).maxQp < qid || (c.sqOf id.fn qid).isSome then c.finish id (stat 1 0x01 true)
    else if qsize = 0 || 0xFFFF < qsize then c.finish id (stat 1 0x02 true)
    else if !pc || prp1 % c.pageSize id.fn != 0 then c.finish id stField
    else if cqid = 0 || (c.cqOf id.fn cqid).isNone then c.finish id (stat 1 0x00 true)
    else (c.modCtrl id.fn (fun k => { k with
      createdIo := true, sqs := k.sqs ++ [⟨qid, qsize + 1, prp1, cqid, 0, 0, 0, none⟩] })).finish id stOk)

/-- DELETE_IO_COMPLETION_QUEUE (R110). DESIGN CHOICE (log entry 97): a QID of 0, or of no queue, gives Invalid Queue Identifier. -/
def deleteIoCompletionQueue (id : CmdId) (qid : Nat) (c : Chip) : Chip :=
  c.execute id true 0x04 (fun _ c =>
    if qid = 0 || (c.cqOf id.fn qid).isNone then c.finish id (stat 1 0x01 true)
    else if (c.ctrl id.fn).sqs.any (fun s => s.cq == qid) then c.finish id (stat 1 0x0C true)
    else (c.modCtrl id.fn (fun k => { k with cqs := k.cqs.filter (fun q => q.qid != qid) })).finish id stOk)

/-- DELETE_IO_SUBMISSION_QUEUE (R110): fetching stops, untransferred commands are aborted, and the command completes after the last completion of
the queue. DESIGN CHOICE (log entry 97): a QID of 0, of no queue, or of one already being deleted gives Invalid Queue Identifier. -/
def deleteIoSubmissionQueue (id : CmdId) (qid : Nat) (c : Chip) : Chip :=
  c.execute id true 0x00 (fun _ c =>
    match c.sqOf id.fn qid with
    | none => c.finish id (stat 1 0x01 true)
    | some q =>
      if qid = 0 || q.deleting.isSome then c.finish id (stat 1 0x01 true)
      else
        let c := c.modSq id.fn qid (fun q => { q with deleting := some id.cid })
        let idle := (c.flights id.fn).filter (fun i => i.id.sq == qid && !i.started)
        let isIdle := fun (k : CmdId) => idle.any (fun i => i.id == k)
        let c := c.dropXfers (fun x => match x.purpose with
          | .entryFetch f s .. => f == id.fn && s == qid
          | .list k => isIdle k
          | _ => false)
        let c := ({ c with ing := { c.ing with
          reads := c.ing.reads.filter (fun r => !isIdle r.id), walks := c.ing.walks.filter (fun w => !isIdle w.id) } } : Chip).keepWanted
        (idle.foldl (fun d i => d.finish i.id (stat 0 0x08 true)) c).endDeletes id.fn)

/-- The Aborts of a function that were outstanding before one was fetched: those ahead of it in the order of fetch. -/
def Chip.abortsBefore (c : Chip) (id : CmdId) : Nat :=
  (((c.flights id.fn).takeWhile (fun i => i.id != id)).filter (fun i => i.admin && i.opc == 0x08)).length

/-- NVME_ABORT (R122): no command is ever aborted; a fifth Abort outstanding in the function is refused. -/
def nvmeAbort (id : CmdId) (_target : CmdId) (c : Chip) : Chip :=
  c.execute id true 0x08 (fun _ c =>
    if 4 ≤ c.abortsBefore id then c.finish id (stat 1 0x03 true)
    else c.finishWith id 1 stOk)

/-- ASYNCHRONOUS_EVENT_REQUEST (R123). -/
def asynchronousEventRequest (id : CmdId) (c : Chip) : Chip :=
  c.execute id true 0x0C (fun _ c =>
    if 4 ≤ (c.ctrl id.fn).aers.length then c.finish id (stat 1 0x05 true)
    else ((c.dropFlight id).modCtrl id.fn (fun k => { k with aers := k.aers ++ [id.cid] })).flushAsync id.fn)

/-! ### Features -/

/-- The features supported (R141). -/
def features : List Nat := [0x01, 0x02, 0x04, 0x07, 0x08, 0x09, 0x0B]

/-- SET_FEATURES (R108, R113, R141). -/
def setFeatures (id : CmdId) (fid dw11 : Nat) (save : Bool) (c : Chip) : Chip :=
  c.execute id true 0x09 (fun _ c =>
    let fn := id.fn
    if !features.contains fid then c.finish id stField
    else if save then c.finish id (stat 1 0x0D true)
    else match fid with
      | 0x01 => (c.modCtrl fn (fun k => { k with arb := dw11 })).finish id stOk
      | 0x02 => if dw11 % 32 = 0 then c.finish id stOk else c.finish id stField
      | 0x04 =>
        let th := dw11 % 65536
        if 1 ≤ bitsOf dw11 16 4 && bitsOf dw11 16 4 ≤ 8 then c.finish id stField
        else if bitsOf dw11 20 2 = 0 then (c.modCtrl fn (fun k => { k with tempOver := th })).finish id stOk
        else if bitsOf dw11 20 2 = 1 then (c.modCtrl fn (fun k => { k with tempUnder := th })).finish id stOk
        else c.finish id stField
      | 0x07 =>
        let n := (c.tenantOf fn).maxQp
        if n = 0 then c.finish id stField
        else if (c.ctrl fn).createdIo then c.finish id stSequence
        else c.finishWith id ((n - 1) * 65537) stOk
      | 0x08 => (c.modCtrl fn (fun k => { k with coal := dw11 % 65536 })).finish id stOk
      | 0x09 =>
        let v := dw11 % 65536
        if 1024 < v then c.finish id stField
        else (c.modCtrl fn (fun k => { k with
          coalOff := if bitOf dw11 16 then v :: k.coalOff.filter (· != v) else k.coalOff.filter (· != v) })).finish id stOk
      | _ => (((c.modCtrl fn (fun k => { k with aeCfg := dw11 })).flushAsync fn)).finish id stOk)

/-- A feature's current value; `dw11` names the vector of 0x09 and the threshold of 0x04. -/
def Chip.featureNow (c : Chip) (fn fid dw11 : Nat) : Nat :=
  let k := c.ctrl fn
  match fid with
  | 0x01 => k.arb
  | 0x04 => if bitsOf dw11 20 2 = 1 then k.tempUnder else k.tempOver
  | 0x07 => ((c.tenantOf fn).maxQp - 1) * 65537
  | 0x08 => k.coal
  | 0x09 => dw11 % 65536 + 65536 * flag (k.coalOff.contains (dw11 % 65536))
  | 0x0B => k.aeCfg
  | _ => 0

/-- A feature's default value. -/
def Chip.featureDefault (c : Chip) (fn fid dw11 : Nat) : Nat :=
  match fid with
  | 0x01 => 3
  | 0x04 => if bitsOf dw11 20 2 = 1 then 0 else 0xFFFF
  | 0x07 => ((c.tenantOf fn).maxQp - 1) * 65537
  | 0x09 => dw11 % 65536
  | _ => 0

/-- GET_FEATURES (R108, R141): current, default, saved (the default) or supported capabilities. DESIGN CHOICE (log entry 98): the capabilities are
"changeable" (bit 2) for every feature but 0x02 and 0x07, which are not changeable. -/
def getFeatures (id : CmdId) (fid sel : Nat) (c : Chip) : Chip :=
  c.execute id true 0x0A (fun i c =>
    if !features.contains fid || (fid == 0x07 && (c.tenantOf id.fn).maxQp == 0) then c.finish id stField
    else match sel with
      | 0 => c.finishWith id (c.featureNow id.fn fid (i.dw 11)) stOk
      | 1 | 2 => c.finishWith id (c.featureDefault id.fn fid (i.dw 11)) stOk
      | 3 => c.finishWith id (if fid = 0x02 || fid = 0x07 then 0 else 4) stOk
      | _ => c.finish id stField)

/-! ### Identify -/

/-- CNTLID of a function on a head position (R125). -/
def cntlid (pos fn : Nat) : Nat := pos * 0x400 + fn

/-- Subsystem IDs: of the board record that this Dawn found, else the defaults (R74). -/
def Chip.subsys (c : Chip) : Nat × Nat :=
  match c.boot.boardUsed with
  | some b => (b.ssvid, b.ssid)
  | none => (0x1E9A, 0x0960)

/-- The subsystem's NQN (R133). DESIGN CHOICE (log entry 96): with no active image ARRAY_ID is 0. -/
def Chip.nqn (c : Chip) : List Byte :=
  ascii "nqn.2019-06.com.colris:hvx960:" ++ hexText (((c.kcf.active.map (·.arrayId))).getD 0) 16

/-- Identify Controller (Table 4-11, R559, R563). -/
def Chip.identifyCtrl (c : Chip) (fn : Nat) : List Byte :=
  patched 4096
    ([(0, natLe 0x1E9A 2), (2, natLe c.subsys.1 2), (4, (List.range 60).map Config.idText),
      (64, natLe ((c.boot.running.map (·.revision)).getD 0) 8), (76, [0x0F#8]), (77, [9#8]), (78, natLe (cntlid c.pos fn) 2),
      (80, natLe 0x00020000 4), (88, natLe 10000000 4), (92, natLe 0x00000B00 4)] ++
     [(256, natLe (if fn = 0 then 0x001F else 0x0001) 2), (258, [3#8, 3#8]), (260, [0x02#8, 0x07#8, 63#8]), (316, natLe 30 2),
      (319, [1#8]), (342, [10#8, 0x8F#8]), (344, natLe 2 4), (348, natLe 2 4)] ++
     [(512, [0x66#8, 0x44#8]), (516, natLe 4096 4), (520, natLe 0x008C 2), (528, natLe 63 2), (536, natLe 2 4), (540, natLe 4096 4),
      (768, c.nqn)])

/-- Identify Namespace (R124, R127, R129, R130, Table 4-6). -/
def nsData (nsid : Nat) (n : Namespace) : List Byte :=
  patched 4096
    ([(0, natLe n.nsze 8), (8, natLe n.nsze 8), (24, [1#8, 2#8, BitVec.ofNat 8 (n.lbaf + 16 * flag n.ext), 0x03#8, 0x1D#8]),
      (29, [BitVec.ofNat 8 n.dps, 1#8]), (33, [0x19#8]), (36, natLe 63 2), (92, natLe n.anagrp 4),
      (104, natLe (Config.nguid nsid) 16)] ++
     [(130, [12#8]), (132, natLe 8 2), (134, [12#8]), (136, natLe 16 2), (138, [12#8])] ++
     [(3840, natLe n.owner 2), (3842, natLe n.clsGiven 1), (3844, natLe n.slotGiven 2)])

/-- A list of namespace IDs above one. -/
def idList (l : List Nat) (above : Nat) : List Byte :=
  patched 4096 [(0, ((l.filter (fun n => decide (above < n))).take 1024).flatMap (fun n => natLe n 4))]

/-- A controller list (CNS 0x12, 0x13). -/
def ctrlList (l : List Nat) (from_ : Nat) : List Byte :=
  let l := (l.filter (fun n => decide (from_ ≤ n))).take 2047
  patched 4096 [(0, natLe l.length 2 ++ l.flatMap (fun n => natLe n 2))]

/-- The functions present. -/
def Chip.fnsPresent (c : Chip) : List Nat := (List.range 1024).filter c.present

/-- Whether a function supports an Identify CNS with a CSI (R141). -/
def identifies (fn cns csi : Nat) : Bool :=
  [0x00, 0x01, 0x02, 0x03].contains cns || ((cns == 0x05 || cns == 0x06) && csi == 0) || (fn == 0 && [0x10, 0x11, 0x12, 0x13].contains cns)

/-- The structure an Identify returns; `cntid` starts a controller list. DESIGN CHOICE (log entry 98): CNS 0x13 lists the functions present on this
head, on both heads. -/
def Chip.identifyData (c : Chip) (fn cns nsid cntid : Nat) : List Byte :=
  let n := c.nsOf nsid
  match cns with
  | 0x00 => if c.attached fn nsid then nsData nsid n else List.replicate 4096 0#8
  | 0x01 => c.identifyCtrl fn
  | 0x02 => idList (c.nsList fn) nsid
  | 0x03 => patched 4096 [(0, [2#8, 16#8, 0#8, 0#8] ++ natLe (Config.nguid nsid) 16 ++ [4#8, 1#8, 0#8, 0#8, 0#8])]
  | 0x05 => if c.attached fn nsid then patched 4096 [(20, natLe 0x100 4)] else List.replicate 4096 0#8
  | 0x10 => idList ((c.nvm.ns.filter (·.2.present)).map (·.1)) nsid
  | 0x11 => if n.present then nsData nsid n else List.replicate 4096 0#8
  | 0x12 => ctrlList (if n.present && n.attached then [n.owner, 0x400 + n.owner] else []) cntid
  | 0x13 => ctrlList (c.fnsPresent ++ c.fnsPresent.map (· + 0x400)) cntid
  | _ => List.replicate 4096 0#8

/-- IDENTIFY (R121, R141): the command's fields are judged before its namespace. -/
def identify (id : CmdId) (cns csi nsid : Nat) (dptr : DPtr) (c : Chip) : Chip :=
  c.executeOut id 0x06 dptr 4096 (fun i c =>
    if !identifies id.fn cns csi then c.finish id stField
    else if [0x00, 0x03, 0x05, 0x11, 0x12].contains cns && (nsid = 0 || 4096 < nsid) then c.finish id (stat 0 0x0B true)
    else if cns = 0x03 && !c.attached id.fn nsid then c.finish id (stat 0 0x0B true)
    else c.returnData id i dptr 4096 (c.identifyData id.fn cns nsid (i.dw 10 / 65536)) none)

/-! ### Log pages -/

/-- The percentage of Available Spare (R620). -/
def Chip.availableSpare (c : Chip) (fn : Nat) : Nat :=
  let cls := (c.tenantOf fn).defCls
  let all := c.classCapacity true cls
  let a := if all = 0 then 0 else 100 * (c.classCapacity false cls - c.classBuffered cls) / all
  let p := c.indexPages
  let b := if p.1 = 0 then 0 else 100 * (p.1 - p.2) / p.1
  min a b

/-- The composite temperature in kelvin. -/
def Chip.kelvin (c : Chip) : Nat := (c.pwr.highest + 273).toNat

/-- Log page 0x02 (R620). -/
def Chip.smartLog (c : Chip) (fn : Nat) : List Byte :=
  let spare := c.availableSpare fn
  let k := c.ctrl fn
  let temp := decide (k.tempOver ≤ c.kelvin) || decide (c.kelvin ≤ k.tempUnder)
  let wear := min 255 (maxOf (c.topology.map (fun e => (c.shelf e.1).wearPct)))
  patched 512 [(0, natLe (flag (decide (spare < 10)) + 2 * flag temp) 1), (1, natLe c.kelvin 2), (3, natLe spare 1), (4, [10#8]),
    (5, natLe wear 1), (176, natLe (((c.errorsOf fn).head?.map (·.count)).getD 0) 16)]

/-- Log page 0x01: a function's own entries, up to 64. -/
def Chip.errorPage (c : Chip) (fn : Nat) : List Byte :=
  patched 4096 ((List.range 64).filterMap (fun i => ((c.errorsOf fn)[i]?).map (fun e =>
    (64 * i, natLe e.count 8 ++ natLe e.id.sq 2 ++ natLe e.id.cid 2 ++
      natLe (2 * (e.status.sc + 256 * e.status.sct + 16384 * flag e.status.dnr)) 2 ++ natLe 0xFFFF 2 ++ natLe e.lba 8 ++
      natLe e.nsid 4))))

/-- Whether the firmware slot holds an image other than the running one (R560, R563). -/
def Chip.otherImage (c : Chip) : Bool :=
  c.boot.fwState == 2 && (match c.boot.running with
    | some r => r.serial != c.boot.fwSerial
    | none => true)

/-- Log page 0x03 (R563). -/
def Chip.firmwarePage (c : Chip) : List Byte :=
  patched 512 [(0, natLe (1 + 16 * flag c.otherImage) 1), (8, natLe c.boot.fwHeader.revision 8)]

/-- The opcodes of Table 4-4 that a function supports. -/
def adminOpcodes (fn : Nat) : List Nat :=
  [0x00, 0x01, 0x02, 0x04, 0x05, 0x06, 0x08, 0x09, 0x0A, 0x0C, 0x80, 0x81, 0x82] ++ if fn = 0 then [0x0D, 0x10, 0x11, 0x14, 0x15] else []

/-- The opcodes of Table 4-5. -/
def ioOpcodes : List Nat := [0x00, 0x01, 0x02, 0x08, 0x09, 0x0C]

/-- The effects of an admin command in the bits of the NVMe specification (PRESUMED, log entry 98): supported; Format changes blocks and the
namespace's capabilities and runs alone on it; Namespace Management and Attachment change the inventory; Firmware Commit the controller. -/
def adminEffects (opc : Nat) : Nat :=
  match opc with
  | 0x80 => 0x00010007
  | 0x0D => 0x00000009
  | 0x15 => 0x00000009
  | 0x10 => 0x00000011
  | _ => 1

/-- Log page 0x05: a Write, a Write Zeroes and a deallocation change blocks (PRESUMED, log entry 98). -/
def effectsPage (fn : Nat) : List Byte :=
  patched 4096 ((adminOpcodes fn).map (fun o => (4 * o, natLe (adminEffects o) 4)) ++
    ioOpcodes.map (fun o => (1024 + 4 * o, [if o = 1 || o = 8 || o = 9 then 3#8 else 1#8])))

/-- Log page 0x06 (R138, R139). -/
def Chip.selfTestPage (c : Chip) : List Byte :=
  let now := match c.nvm.selfTest with
    | some t => [BitVec.ofNat 8 t.code, BitVec.ofNat 8 (if t.code = 1 then min 99 (t.step * 100 / 1200) else (t.segment - 1) * 100 / 9)]
    | none => [0#8, 0#8]
  patched 564 ((0, now) :: (List.range 20).filterMap (fun i => (c.nvm.selfTestLog[i]?).map (fun e =>
    (4 + 28 * i, natLe (e.result + 16 * e.code) 1 ++ natLe e.segment 1 ++ List.replicate 24 0#8 ++ natLe e.shelf 2))))

/-- Log page 0x0C (R134). -/
def Chip.anaPage (c : Chip) (fn : Nat) : List Byte :=
  natLe c.nvm.anaCount 8 ++ natLe 2 2 ++ List.replicate 6 0#8 ++ [1, 2].flatMap (fun g =>
    let ns := (c.nsList fn).filter (fun n => (c.nsOf n).anagrp == g)
    natLe g 4 ++ natLe ns.length 4 ++ natLe c.nvm.anaCount 8 ++ natLe (if c.anaOf g = 4 then 0x04 else c.anaOf g) 1 ++
    List.replicate 15 0#8 ++ ns.flatMap (fun n => natLe n 4))

/-- A log page, none where it is not among those of R141. -/
def Chip.logPage (c : Chip) (fn lid : Nat) : Option (List Byte) :=
  match lid with
  | 0x01 => some (c.errorPage fn)
  | 0x02 => some (c.smartLog fn)
  | 0x03 => some c.firmwarePage
  | 0x04 =>
    let l := (c.nvm.changedNs.filter (fun p => p.1 == fn)).map (·.2)
    some (patched 4096 [(0, if 1024 < l.length then natLe 0xFFFFFFFF 4 else l.flatMap (fun n => natLe n 4))])
  | 0x05 => some (effectsPage fn)
  | 0x06 => some c.selfTestPage
  | 0x0C => some (c.anaPage fn)
  | _ => none

/-- GET_LOG_PAGE (R123, R141): with RAE 0, reading a page ends the masking of its events. -/
def getLogPage (id : CmdId) (lid ofs len : Nat) (rae : Bool) (dptr : DPtr) (c : Chip) : Chip :=
  c.executeOut id 0x02 dptr len (fun i c =>
    match c.logPage id.fn lid with
    | none => c.finish id (stat 1 0x09 true)
    | some bs =>
      if bs.length < ofs then c.finish id stField
      else c.returnData id i dptr len ((bs.drop ofs).take len) (if rae then none else some lid))

/-! ### Namespaces -/

/-- A namespace change applied. -/
def NsChange.apply (ch : NsChange) (n : Namespace) : Namespace :=
  match ch with
  | .create m => m
  | .delete => {}
  | .attach => { n with attached := true }
  | .detach => { n with attached := false }
  | .format lbaf dps ext => { n with lbaf := lbaf, dps := dps, ext := ext }
  | .become m _ => m

/-- Whether a change deallocates every block of its namespace (R126). -/
def NsChange.wipes : NsChange → Bool
  | .format .. => true
  | .become _ w => w
  | _ => false

/-- A namespace as a journal record carries it (R124, Table 12-12). -/
def nsFrom (r : NsRecord) : Namespace :=
  if r.present then
    { present := true, attached := r.attached, nsze := r.spec.nsze, lbaf := r.spec.lbaf, ext := r.spec.ext, dps := r.spec.dps,
      anagrp := groupOf r.nsid r.spec.anagrp, owner := r.spec.owner, cls := r.spec.cls, keySlot := r.spec.keySlot,
      clsGiven := r.clsGiven, slotGiven := r.slotGiven }
  else {}

/-- The changes of the namespaces that the peer has accepted and whose record no completed Midnight has brought into effect here, oldest first. -/
def Chip.peerNs (c : Chip) : List NsRecord :=
  c.zbl.epochs.flatMap (fun x => if x.completed then [] else x.recs.filterMap (fun r => match r.2 with
    | .ns n => some n
    | _ => none))

/-- A namespace as it will be once every accepted change has taken effect (R125), those that the peer has accepted first. -/
def Chip.futureNs (c : Chip) (nsid : Nat) : Namespace :=
  let n := (c.peerNs.filter (fun r => r.nsid == nsid)).foldl (fun _ r => nsFrom r) (c.nsOf nsid)
  (c.nvm.pendingNs.filter (fun p => p.nsid == nsid)).foldl (fun n p => p.change.apply n) n

/-- R128: whether a DPS is accepted with an LBA format. Bits 7:4 are reserved and ignored (R120). -/
def dpsOk (lbaf dps : Nat) : Bool := [0, 1, 3].contains (dps % 8) && (lbaf != 0 || dps % 8 == 0)

/-- A namespace change accepted: a journal record now, its completion at the second Midnight (R124). -/
def Chip.queueNs (c : Chip) (id : CmdId) (nsid : Nat) (ch : NsChange) : Chip :=
  let c := c.append (.nsChange nsid)
  { c with nvm := { c.nvm with pendingNs := c.nvm.pendingNs ++ [⟨id, nsid, ch, c.epoch⟩] } }

/-- R124, R128: the status of a create's fields, in the order of the rule; none where they are good. -/
def Chip.createCheck (c : Chip) (n : NsSpec) : Option Status :=
  let t := c.tenantOf n.owner
  let cls := if n.cls = 0xFF then t.defCls else n.cls
  if n.ncap != n.nsze || n.nsze = 0 || 2 ^ 44 < n.nsze || 2 < n.lbaf || !dpsOk n.lbaf n.dps || 2 < n.anagrp || 1023 < n.owner ||
      !t.valid || 31 < cls then some stField
  else if !bitOf t.clsMask cls then some (stat 7 0xC2 true)
  else if n.keySlot != 0xFFFF && (n.keySlot < t.keyBase || t.keyBase + t.keyCount ≤ n.keySlot) then some stField
  else none

/-- The namespace a create makes. -/
def Chip.createdNs (c : Chip) (nsid : Nat) (n : NsSpec) : Namespace :=
  let t := c.tenantOf n.owner
  { present := true, attached := false, nsze := n.nsze, lbaf := n.lbaf, ext := n.ext, dps := n.dps % 16, anagrp := groupOf nsid n.anagrp,
    owner := n.owner, cls := if n.cls = 0xFF then t.defCls else n.cls,
    keySlot := if n.keySlot = 0xFFFF then t.keyBase else n.keySlot, clsGiven := n.cls, slotGiven := n.keySlot }

/-- The lowest namespace ID that is free now and later. -/
def Chip.freeNsid (c : Chip) : Option Nat :=
  (upFrom 1 4096).find? (fun n => !(c.nsOf n).present && !(c.futureNs n).present)

/-- The fields of a create in the namespace data structure that the host sends (R124, Table 4-6); the other fields of the structure have the places
that the NVMe specification gives them. -/
def nsSpecOf (bs : List Byte) : NsSpec :=
  let v := fun o n => leNat ((bs.drop o).take n)
  { nsze := v 0 8, ncap := v 8 8, lbaf := bitsOf (v 26 1) 0 4, ext := bitOf (v 26 1) 4, dps := v 29 1, anagrp := v 92 4, owner := v 3840 2,
    cls := v 3842 1, keySlot := v 3844 2 }

/-- A controller list (CNTLIDs after a count); one longer than its 2047 places names nothing. -/
def ctrlsOf (bs : List Byte) : List Nat :=
  let n := leNat (bs.take 2)
  if 2047 < n then [] else (List.range n).map (fun i => leNat ((bs.drop (2 + 2 * i)).take 2))

/-- NAMESPACE_MANAGEMENT (R107, R124, R126). -/
def namespaceManagement (id : CmdId) (act : NsAction) (c : Chip) : Chip :=
  if !c.ringOpen then c
  else match act with
  | .create =>
    c.executeWith id true 0x0D 4096 (fun _ => none) (fun bs c =>
      let n := nsSpecOf bs
      match c.createCheck n with
      | some st => c.finish id st
      | none =>
        match c.freeNsid with
        | none => c.finish id (stat 1 0x16 true)
        | some nsid => c.queueNs id nsid (.create (c.createdNs nsid n)))
  | .delete nsid =>
    c.execute id true 0x0D (fun _ c =>
      if nsid = 0xFFFFFFFF then c.finish id stField
      else if !(c.futureNs nsid).present then c.finish id (stat 0 0x0B true)
      else c.queueNs id nsid .delete)

/-- R125: what refuses an attachment or detachment to or from the controllers of a list, in the order of the rule. -/
def Chip.attachCheck (c : Chip) (nsid : Nat) (attach : Bool) (ctrls : List Nat) : Option Status :=
  let n := c.futureNs nsid
  let inUse := ((upFrom 1 4096).filter (fun k => (c.futureNs k).present && (c.futureNs k).attached && (c.futureNs k).owner == n.owner)).length
  if !n.present then some (stat 0 0x0B true)
  else if ctrls.isEmpty || ctrls.any (fun k => k != n.owner && k != 0x400 + n.owner) then some (stat 1 0x1C true)
  else if attach && n.attached then some (stat 1 0x18 true)
  else if !attach && !n.attached then some (stat 1 0x1A true)
  else if attach && (c.tenantOf n.owner).maxNs ≤ inUse then some (stat 1 0x27 true)
  else none

/-- NAMESPACE_ATTACHMENT (R107, R125). -/
def namespaceAttachment (id : CmdId) (nsid : Nat) (attach : Bool) (c : Chip) : Chip :=
  if !c.ringOpen then c
  else
    c.executeWith id true 0x15 4096 (fun c => if (c.futureNs nsid).present then none else some (c.finish id (stat 0 0x0B true))) (fun bs c =>
      match c.attachCheck nsid attach (ctrlsOf bs) with
      | some st => c.finish id st
      | none => c.queueNs id nsid (if attach then .attach else .detach))

/-- FORMAT_NVM (R126, R128). -/
def formatNvm (id : CmdId) (nsid lbaf ses dps : Nat) (ext : Bool) (c : Chip) : Chip :=
  if !c.ringOpen then c
  else
    c.execute id true 0x80 (fun _ c =>
      let n := c.futureNs nsid
      if nsid = 0xFFFFFFFF || 1 < ses || 2 < lbaf || !dpsOk lbaf dps then c.finish id stField
      else if !n.present || (id.fn != 0 && n.owner != id.fn) then c.finish id (stat 0 0x0B true)
      else c.queueNs id nsid (.format lbaf (dps % 16) ext))

/-! ### Self-test -/

/-- The segments of a test (Table 4-9). -/
def lastSegment (code : Nat) : Nat := if code = 1 then 6 else 9

/-- A test's result logged, newest first (R139). -/
def Chip.logTest (c : Chip) (t : SelfTest) (result : Nat) : Chip := { c with nvm := c.nvm.logTest t result }

/-- Device Self-test (R136). DESIGN CHOICE (log entry 99): STC 0xF with no test running completes with Success, and another STC gives Invalid Field
in Command. -/
def testCommand (id : CmdId) (stc : Nat) (c : Chip) : Chip :=
  c.execute id true 0x14 (fun _ c =>
    match stc, c.nvm.selfTest with
      | 0xF, some t => (c.logTest t 0x1).finish id stOk
      | 0xF, none => c.finish id stOk
      | k, running =>
        if k = 1 || k = 2 then
          if running.isSome then c.finish id (stat 1 0x1D false)
          else ({ c with nvm := { c.nvm with selfTest := some ⟨k, 0, 1, [], none, 0⟩ } } : Chip).finish id stOk
        else c.finish id stField)

/-- R136: whether a segment can run: what it tests is there (Table 4-9); in Service segments 5, 6, 8 and 9 cannot (R527). -/
def Chip.segmentRuns (c : Chip) (segment : Nat) : Bool :=
  let awake := c.usesLinks && (List.range 8).any c.cohortAwake
  let cat := c.usesLinks && (c.ing.cat0Up || c.ing.cat1Up)
  match segment with
  | 5 => c.usesLinks && c.peerIn
  | 6 => awake || cat
  | 8 => awake
  | 9 => cat
  | _ => true

/-- R137: whether a step ends a test's segment: of the 1200 steps of the short test each of its 6 segments takes 200 (DESIGN CHOICE, log entry 99);
the extended test has no count. -/
def SelfTest.ends (t : SelfTest) (last : Bool) : Bool := if t.code = 1 then t.step % 200 == 0 else last

/-- One step of a self-test (R136 to R139). A failing unit is given as its kind (0 digest, 1 cipher, 2 compressor, 3 decompressor, 4 erasure coding, 5
a shelf) and number; `last` ends a segment of the extended test. A segment that cannot run is logged as not run. -/
def testStep (failedUnit : Option (Nat × Nat)) (last : Bool) (c : Chip) : Chip :=
  match c.nvm.selfTest with
  | none => c
  | some t =>
    let skip := !c.segmentRuns t.segment
    let t := { t with step := t.step + 1, notRun := if skip && !t.notRun.contains t.segment then t.notRun ++ [t.segment] else t.notRun }
    let (c, t) := match failedUnit with
      | some (k, u) =>
        if skip then (c, t)
        else ((c.takeOut k u).event 0x004 0 0 t.segment u 0,
          { t with firstFail := some (t.firstFail.getD t.segment)
                   shelf := if t.firstFail.isNone && k = 5 && 8 ≤ t.segment then u else t.shelf })
      | none => (c, t)
    if t.ends (last || skip) then
      if t.segment = lastSegment t.code then c.logTest t (if t.firstFail.isSome then 0x7 else 0x0)
      else { c with nvm := { c.nvm with selfTest := some { t with segment := t.segment + 1 } } }
    else { c with nvm := { c.nvm with selfTest := some t } }

-- EXEC ccEnSet controllerReady normalShutdown sqTailDoorbell cqHeadDoorbell sqFetchIssue coalescingTimer createIoCompletionQueue createIoSubmissionQueue deleteIoCompletionQueue deleteIoSubmissionQueue nvmeAbort asynchronousEventRequest setFeatures getFeatures identify getLogPage namespaceManagement namespaceAttachment formatNvm

/-- CC_EN_SET (R102). -/
def execCcEnSet (fn : Fn) (s : State) : Host.Outcome State Fault Refusal :=
  s.runBar (decide (fn < 1024)) fn (ccEnSet fn)

/-- CONTROLLER_READY (R103). -/
def execControllerReady (fn : Fn) (s : State) : Host.Outcome State Fault Refusal :=
  s.runAwake (decide (fn < 1024)) (controllerReady fn)

/-- NORMAL_SHUTDOWN (R105). -/
def execNormalShutdown (fn : Fn) (s : State) : Host.Outcome State Fault Refusal :=
  s.runBar (decide (fn < 1024)) fn (normalShutdown fn)

/-- SQ_TAIL_DOORBELL (R111). -/
def execSqTailDoorbell (fn : Fn) (qid : Nat) (value : Nat) (s : State) : Host.Outcome State Fault Refusal :=
  s.runBar (decide (fn < 1024)) fn (sqTailDoorbell fn qid value)

/-- CQ_HEAD_DOORBELL (R111). -/
def execCqHeadDoorbell (fn : Fn) (qid : Nat) (value : Nat) (s : State) : Host.Outcome State Fault Refusal :=
  s.runBar (decide (fn < 1024)) fn (cqHeadDoorbell fn qid value)

/-- SQ_FETCH_ISSUE (R114). -/
def execSqFetchIssue (load : Load) (busyPools : List Nat) (s : State) : Host.Outcome State Fault Refusal :=
  s.runAwake true (sqFetchIssue load busyPools)

/-- COALESCING_TIMER (R113). -/
def execCoalescingTimer (fn : Fn) (vec : Nat) (s : State) : Host.Outcome State Fault Refusal :=
  s.runAwake (decide (fn < 1024)) (coalescingTimer fn vec)

/-- CREATE_IO_COMPLETION_QUEUE (R109). -/
def execCreateIoCompletionQueue (id : CmdId) (qid : Nat) (qsize : Nat) (vec : Nat) (pc : Bool) (ien : Bool) (prp1 : Nat) (s : State) : Host.Outcome State Fault Refusal :=
  s.runAwake (id.wf) (createIoCompletionQueue id qid qsize vec pc ien prp1)

/-- CREATE_IO_SUBMISSION_QUEUE (R109). -/
def execCreateIoSubmissionQueue (id : CmdId) (qid : Nat) (qsize : Nat) (cqid : Nat) (pc : Bool) (prp1 : Nat) (s : State) : Host.Outcome State Fault Refusal :=
  s.runAwake (id.wf) (createIoSubmissionQueue id qid qsize cqid pc prp1)

/-- DELETE_IO_COMPLETION_QUEUE (R110). -/
def execDeleteIoCompletionQueue (id : CmdId) (qid : Nat) (s : State) : Host.Outcome State Fault Refusal :=
  s.runAwake (id.wf) (deleteIoCompletionQueue id qid)

/-- DELETE_IO_SUBMISSION_QUEUE (R110). -/
def execDeleteIoSubmissionQueue (id : CmdId) (qid : Nat) (s : State) : Host.Outcome State Fault Refusal :=
  s.runAwake (id.wf) (deleteIoSubmissionQueue id qid)

/-- NVME_ABORT (R122). -/
def execNvmeAbort (id : CmdId) (target : CmdId) (s : State) : Host.Outcome State Fault Refusal :=
  s.runAwake (id.wf && target.wf) (nvmeAbort id target)

/-- ASYNCHRONOUS_EVENT_REQUEST (R123). -/
def execAsynchronousEventRequest (id : CmdId) (s : State) : Host.Outcome State Fault Refusal :=
  s.runAwake (id.wf) (asynchronousEventRequest id)

/-- SET_FEATURES (R108). -/
def execSetFeatures (id : CmdId) (fid : Nat) (dw11 : Nat) (save : Bool) (s : State) : Host.Outcome State Fault Refusal :=
  s.runAwake (id.wf) (setFeatures id fid dw11 save)

/-- GET_FEATURES (R141). -/
def execGetFeatures (id : CmdId) (fid : Nat) (sel : Nat) (s : State) : Host.Outcome State Fault Refusal :=
  s.runAwake (id.wf) (getFeatures id fid sel)

/-- IDENTIFY (R141). -/
def execIdentify (id : CmdId) (cns : Nat) (csi : Nat) (nsid : Nat) (dptr : DPtr) (s : State) : Host.Outcome State Fault Refusal :=
  s.runAwake (id.wf) (identify id cns csi nsid dptr)

/-- GET_LOG_PAGE (R141). -/
def execGetLogPage (id : CmdId) (lid : Nat) (ofs : Nat) (len : Nat) (rae : Bool) (dptr : DPtr) (s : State) : Host.Outcome State Fault Refusal :=
  s.runAwake (id.wf) (getLogPage id lid ofs len rae dptr)

/-- NAMESPACE_MANAGEMENT (R124). -/
def execNamespaceManagement (id : CmdId) (act : NsAction) (s : State) : Host.Outcome State Fault Refusal :=
  s.runAwake (id.wf) (namespaceManagement id act)

/-- NAMESPACE_ATTACHMENT (R125). -/
def execNamespaceAttachment (id : CmdId) (nsid : Nat) (attach : Bool) (s : State) : Host.Outcome State Fault Refusal :=
  s.runAwake (id.wf) (namespaceAttachment id nsid attach)

/-- FORMAT_NVM (R126). -/
def execFormatNvm (id : CmdId) (nsid : Nat) (lbaf : Nat) (ses : Nat) (dps : Nat) (ext : Bool) (s : State) : Host.Outcome State Fault Refusal :=
  s.runAwake (id.wf) (formatNvm id nsid lbaf ses dps ext)

-- END EXEC

end Sys2Proof.Machine
end

