-- ==== Sys2Proof/Machine/Media.lean ====
section
/-!
DEFINITION. Flash translation's side of the media operations: pages moved, blocks retired, stripes programmed, maps written back and
rebuilt (R275 to R278, R286, R294, R295, R305, R306, R309).
-/
namespace Sys2Proof.Machine

/-- The band that holds a block. -/
def ShelfInfo.bandOf (s : ShelfInfo) (blk : Nat) : Option Nat := (s.bands.find? (fun b => b.2.blocks.contains blk)).map (·.1)

/-- The band page of a PPA in a band. -/
def Band.bpageOf (b : Band) (p : Nat) : Nat := ppaPage p * 64 + (b.blocks.idxOf? (blockPpa p)).getD 0

/-- A page mapped to a new place; the bands' live counts follow. -/
def Chip.mapPage (c : Chip) (sh seid page band bpage tag : Nat) : Chip :=
  let c := match (c.shelf sh).grain seid page with
    | some (b, _) => c.modBand sh b (fun x => { x with live := x.live - 1 })
    | none => c
  let c := c.modBand sh band (fun x => { x with live := x.live + 1 })
  c.setMap sh seid (((c.shelf sh).entry seid).setGrain page band bpage tag)

/-- Bytes of the grain tables of the awake cohorts, times 100, and what they may take of the map cache: GRAIN_LIMIT percent (R278). -/
def Chip.grainUse (c : Chip) : Nat × Nat :=
  let grains := sumOf (c.ftm.shelves.map (fun s => if c.cohortAwake (c.shelfEnt s.1).cohort then
    sumOf (s.2.map.map (fun e => if e.2.isGrained then e.2.grains.length * 8 else 0)) else 0))
  (grains * 100, sumOf ((c.carve 3).map (·.size)) * c.ftmCtl R.FTM_MAP_CTRL_GRAIN_LIMIT)

/-- R278: whether the grain tables of the awake cohorts still admit promotions. -/
def Chip.grainsOpen (c : Chip) : Bool := decide (c.grainUse.1 < c.grainUse.2)

/-- R277: a coarse extent about to have pages moved is promoted. -/
def Chip.promote (c : Chip) (sh seid : Nat) : Chip :=
  if ((c.shelf sh).entry seid).isGrained then c
  else ({ c with ftm := { c.ftm with promoted := c.ftm.promoted ++ [(sh, seid)] } } : Chip).bump R.FTM_CNT_PROMOTE_PROMOTE 1

/-! ### Moving pages -/

/-- A page of the open relocation band: band, band page and PPA. -/
def Chip.relocPage (c : Chip) (sh : Nat) : Option (Chip × Nat × Nat × Nat) :=
  (c.bandFor sh 1 1).map (fun e =>
    let b := (e.1.shelf sh).band e.2
    (e.1.modBand sh e.2 (fun x => { x with next := x.next + 1 }), e.2, b.next, b.ppa b.next))

/-- A page's content programmed into the relocation band and mapped there (R277, R305, R334). -/
def Chip.moveTo (c : Chip) (sh seid page : Nat) (data : List Byte) : Chip :=
  match c.relocPage sh with
  | none => c
  | some (c, b, bpage, ppa) =>
    let (c, seq) := c.takeSeq sh 1
    let h : PageHdr := ⟨0, sh, c.arrayTag, seid * 1024 + page, seq, b, c.epoch, 0⟩
    (c.mapPage sh seid page b bpage (seq / 2 % 0x10000)).media sh (.program ppa (sealHdr h data) data)

/-- A COPY of a page into the relocation band; its map follows the reply. -/
def Chip.copyOut (c : Chip) (sh src : Nat) : Chip :=
  match c.relocPage sh with
  | none => c
  | some (c, b, _, ppa) =>
    let (c, seq) := c.takeSeq sh 1
    c.media sh (.copy src ppa seq b c.epoch)

/-- Whether a page still waits for its program. -/
def Chip.awaitsProgram (c : Chip) (sh ppa : Nat) : Bool :=
  c.ftm.ops.any (fun o => o.shelf == sh && (match o.op with
    | .program q _ _ => q == ppa
    | _ => false))

/-- R277, R278, R302: an extent moved whole: its pages, in order, to consecutive pages of one relocation band, by COPY or with the content given; it
is coarse once they are there. A page that still waits for its program stays. -/
def Chip.moveExtent (c : Chip) (sh seid : Nat) (given : List (Nat × List Byte)) : Chip :=
  let e := (c.shelf sh).entry seid
  let gs := e.grains.map (fun g => (g.1, ((c.shelf sh).band g.2.1).ppa g.2.2.1))
  match c.bandFor sh gs.length 1 with
  | none => c
  | some (d, _) =>
    gs.foldl (fun d g => match given.find? (fun x => x.1 == g.1) with
      | some x => d.moveTo sh seid g.1 x.2
      | none => if c.awaitsProgram sh g.2 then d else d.copyOut sh g.2) (d.bump R.FTM_CNT_DEMOTE_DEMOTE (flag e.isGrained))

/-- The extent promoted longest ago that is still grained, on a shelf of an awake cohort and of a string that this head owns. -/
def Chip.oldestGrained (c : Chip) : Option (Nat × Nat) :=
  let grained := fun (e : Nat × Nat) => c.cohortAwake (c.shelfEnt e.1).cohort && c.ownsStr (c.strOf e.1) && ((c.shelf e.1).entry e.2).isGrained
  (c.ftm.promoted.find? grained).orElse (fun _ =>
    (c.ftm.shelves.flatMap (fun s => s.2.map.map (fun e => (s.1, e.1)))).find? grained)

/-- R278: once the grain tables reach their limit, grained extents are moved whole, the oldest first and one after another, until the tables are below
90 % of it. -/
def Chip.shedGrains (c : Chip) : Chip :=
  let u := c.grainUse
  let c := { c with ftm := { c.ftm with
    shedding := decide (u.2 ≤ u.1) && u.1 != 0 || c.ftm.shedding && decide (u.2 * 9 ≤ u.1 * 10)
    promoted := c.ftm.promoted.filter (fun e => ((c.shelf e.1).entry e.2).isGrained) } }
  match c.oldestGrained with
  | some (sh, seid) =>
    let s := c.shelf sh
    let mine := (s.entry seid).grains.map (fun g => (s.band g.2.1).ppa g.2.2.1)
    let moving := c.ftm.ops.any (fun o => o.shelf == sh && (match o.op with
      | .copy q .. => mine.contains q
      | .program q .. => mine.contains q
      | _ => false))
    if c.ftm.shedding && !moving then c.moveExtent sh seid [] else c
  | none => c

/-- R277: pages of an extent moved, by COPY or with the content given: the extent is promoted, or moved whole while the grain tables are at their
limit. -/
def Chip.movePages (c : Chip) (sh seid : Nat) (given : List (Nat × List Byte)) (ppas : List Nat) : Chip :=
  if ((c.shelf sh).entry seid).isGrained || c.grainsOpen then
    let d := given.foldl (fun d x => d.moveTo sh seid x.1 x.2) (c.promote sh seid)
    ppas.foldl (fun d p => d.copyOut sh p) d
  else c.moveExtent sh seid given

/-- Whether a block is being retired already: the bridge has it retired or is asked to. -/
def Chip.retiring (c : Chip) (sh blk : Nat) : Bool :=
  ((c.nandOf sh).block blk).state != 0 || c.ftm.ops.any (fun o => o.shelf == sh && o.op == .retire blk)

/-- R305: the good pages of a block below a page are copied out and the block is retired. -/
def Chip.emptyBlock (c : Chip) (sh blk below : Nat) : Chip :=
  if c.retiring sh blk then c
  else
    let ps := (c.shelf sh).pagesAt (fun p => blockPpa p == blk && decide (ppaPage p < below))
    let c := (ps.map (·.1)).eraseDups.foldl (fun d seid => d.movePages sh seid [] ((ps.filter (fun e => e.1 == seid)).map (·.2.2))) c
    c.media sh (.retire blk)

/-- A program's logical address: SEID and page (R270). -/
def hdrSeid (h : PageHdr) : Nat := h.la / 1024
/-- Page in the extent. -/
def hdrPage (h : PageHdr) : Nat := h.la % 1024
/-- Whether a header is a metadata page's (Table 9-3). -/
def hdrMeta (h : PageHdr) : Bool := bitOf h.flags 0

/-- R305: a program that failed: its page and every later page of the extent in that block go to the relocation band, and the block is
emptied. -/
def Chip.programFailed (c : Chip) (sh ppa : Nat) (h : PageHdr) (data : List Byte) : Chip :=
  if bitOf h.flags 1 || (hdrMeta h && h.la == fillerLa) then c.emptyBlock sh (blockPpa ppa) (ppaPage ppa)
  else if hdrMeta h then (c.markDirty sh h.la).emptyBlock sh (blockPpa ppa) (ppaPage ppa)
  else
    let later := c.ftm.ops.filterMap (fun (o : MediaOp) => match o.op with
      | .program p g d => if o.shelf == sh && blockPpa p == blockPpa ppa && hdrSeid g == hdrSeid h && !hdrMeta g then some (o.tag, g, d) else none
      | _ => none)
    let tags := later.map (·.1)
    let c := { c with ftm := { c.ftm with ops := c.ftm.ops.filter (fun o => !tags.contains o.tag) } }
    let given := ((h, data) :: later.map (·.2)).map (fun e => (hdrPage e.1, e.2))
    (c.movePages sh (hdrSeid h) given []).emptyBlock sh (blockPpa ppa) (ppaPage ppa)

/-! ### Stripes programmed -/

/-- A map record of records moved (R301, R342), with the locator changes of those in the catalogue. -/
def Chip.recordMoves (c : Chip) (moves : List (Nat × Nat)) : Chip :=
  if moves.isEmpty then c
  else
    let rsn := c.ing.nextRsn
    let c := c.append .other
    let r : MapRec := { rsn := rsn, epoch := c.epoch, fromPeer := false, nsid := 0, slba := 0, blocks := 0, places := [], codes := 0,
                        tags := [], moves := moves }
    let c := { c with ftm := { c.ftm with mapRecs := c.ftm.mapRecs ++ [r] } }
    moves.foldl (fun d m =>
      match (d.stripe (locCohort m.1) (locSeid m.1)).bind (fun s =>
        s.recs.find? (fun x => x.ofs == locOfs m.1 && x.live == 2 && d.shelfOn s.cohort (s.map.getD x.strip 0) == some (locShelf m.1))) with
      | some x => d.catChange 0 0 (.relocate x.fp x.dom ((d.stripe (locCohort m.1) (locSeid m.1)).map (·.cls) |>.getD 0) m.1 m.2)
      | none => d) c

/-- R166: the last strip of a stripe is programmed: its chunks are placed, and records copied into it are recorded as moved. -/
def Chip.stripeProgrammed (c : Chip) (cohort seid : Nat) : Chip :=
  let here := fun l => locCohort l == cohort && locSeid l == seid
  let ks := c.ing.chunks.filter (fun k => !k.programmed && (match k.packed with
    | some (l, _) => here l
    | none => false))
  let c := ks.foldl (fun d k => d.chunkProgrammed k) c
  let moved := c.ftm.copies.filter (fun e => here e.2.1 && e.2.2 != 2)
  let c := { c with ftm := { c.ftm with copies := c.ftm.copies.filter (fun e => !(here e.2.1 && e.2.2 != 2)) } }
  (c.recordMoves (moved.map (fun e => (e.1, e.2.1)))).settle

/-- One page of a stripe programmed. -/
def Chip.pageDone (c : Chip) (sh seid : Nat) : Chip :=
  let k := (c.shelfEnt sh).cohort
  match c.stripe k seid with
  | none => c
  | some s =>
    if s.stripsLeft = 0 then c
    else
      let c := c.modStripe k seid (fun s => { s with stripsLeft := s.stripsLeft - 1 })
      if s.stripsLeft = 1 then c.stripeProgrammed k seid else c

/-! ### Bad pages, retired blocks, wear -/

/-- R302, R305: a band emptied: each extent with a page there is moved whole by COPY within the shelf, which makes a grained one coarse (R278). -/
def Chip.compactBand (c : Chip) (sh b : Nat) : Chip :=
  let s := c.shelf sh
  let blks := (s.band b).blocks
  let ps := s.pagesAt (fun p => blks.contains (blockPpa p))
  let c := (c.modBand sh b (fun x => { x with state := 3, eraseAt := if ps.isEmpty then some (c.epoch + 2) else none })).bump
    R.FTM_CNT_GC_BANDS_GC_BANDS 1
  (ps.map (·.1)).eraseDups.foldl (fun d seid => d.moveExtent sh seid []) c

/-- R305: a page bad after retries: counted, its block suspect, the page to be repaired; a suspect block's second bad page empties its
band and retires the block. -/
def Chip.badPage (c : Chip) (sh ppa : Nat) : Chip :=
  let c := c.bump R.FTM_CNT_UNCORR_UNCORR 1
  let blk := blockPpa ppa
  let again := ((c.nandOf sh).block blk).suspect
  let c := c.modNand sh (fun x => x.modBlock blk (fun b => { b with suspect := true, fails := b.fails + 1 }))
  let c := ((c.shelf sh).pagesAt (fun p => p == ppa)).foldl (fun d e =>
    match d.stripe (d.shelfEnt sh).cohort e.1 with
    | some s => match d.stripOn s sh with
      | some j => d.report s.cohort s.seid j e.2.1
      | none => d
    | none => d) c
  if again && !c.retiring sh blk then
    match (c.shelf sh).bandOf blk with
    | some b => ((if ((c.shelf sh).band b).state = 2 then c.compactBand sh b else c.emptyBlock sh blk 0)).media sh (.retire blk)
    | none => c.media sh (.retire blk)
  else c

/-- Free bands of 64 good blocks. -/
def ShelfInfo.freeBands (s : ShelfInfo) : Nat := (s.bands.filter (fun b => b.2.state == 0 && b.2.blocks.length == 64)).length

/-- R306: the free pool can form no band outside FTM_RESERVE. -/
def Chip.checkSpare (c : Chip) (sh : Nat) : Chip :=
  let s := c.shelf sh
  if s.spareLow || decide (c.ftmCtl R.FTM_MEDIA_CTRL_RESERVE < s.freeBands) then c
  else ((c.modShelf sh (fun s => { s with spareLow := true })).set R.FTM_STATUS_SPARE_LOW 1).event 0x1C3 (c.strOf sh) sh 0 0 s.freeBands

/-- R305: a block retired: counted, and an event names the shelf and the PPA. -/
def Chip.blockRetired (c : Chip) (sh blk : Nat) : Chip :=
  let c := (c.bump R.FTM_CNT_RETIRED_RETIRED 1).modShelf sh (fun s => { s with retired := s.retired + 1 })
  (c.event 0x1C0 (c.strOf sh) blk 0 sh 0).checkSpare sh

/-- R305: an erase that failed: the block is retired, and a block of a free band takes its place. -/
def Chip.eraseFailed (c : Chip) (sh blk : Nat) : Chip :=
  let s := c.shelf sh
  let c := match s.bandOf blk, (s.bands.filter (fun b => b.2.state == 0 && b.2.blocks.length == 64)).getLast? with
    | some b, some (f, fb) =>
      let sub := fb.blocks.getLastD 0
      let c := c.modBand sh f (fun x => { x with blocks := x.blocks.dropLast })
      c.modBand sh b (fun x => { x with blocks := x.blocks.map (fun y => if y = blk then sub else y) })
    | some b, none => c.modBand sh b (fun x => { x with blocks := x.blocks.filter (· != blk) })
    | none, _ => c
  c.media sh (.retire blk)

/-- A band all of whose erases are answered is free (R288). -/
def Chip.freeBand (c : Chip) (sh b : Nat) : Chip :=
  let blks := ((c.shelf sh).band b).blocks
  let busy := c.ftm.ops.any (fun o => o.shelf == sh && (match o.op with
    | .erase p => blks.contains p
    | _ => false))
  if ((c.shelf sh).band b).state = 3 && !busy then c.modBand sh b (fun x => { x with state := 0, next := 0, live := 0, kind := 0, eraseAt := none })
  else c

/-- R304: the highest erase count of a shelf as a percentage of its endurance, and an event for each whole percent from WL_WARN up. -/
def Chip.wear (c : Chip) (sh blk : Nat) : Chip :=
  let x := c.nandOf sh
  let pct := (x.block blk).erases * 100 / max 1 x.geo.endurance
  let old := (c.shelf sh).wearPct
  if pct ≤ old then c
  else
    let c := c.modShelf sh (fun s => { s with wearPct := pct })
    if c.ftmCtl R.FTM_WL_CTRL_WL_WARN ≤ pct then c.event 0x1C2 (c.strOf sh) blk pct sh 0 else c

/-- A block erased. -/
def Chip.blockErased (c : Chip) (sh blk : Nat) : Chip :=
  let c := (c.bump R.FTM_CNT_ERASES_ERASES 1).wear sh blk
  match (c.shelf sh).bandOf blk with
  | some b => c.freeBand sh b
  | none => c

/-- A COPY done: the page is mapped at its destination; a band compacted of its last page is erased at the second Midnight after (R288). -/
def Chip.copyDone (c : Chip) (sh src dst seq band : Nat) : Chip :=
  let c := c.bump R.FTM_CNT_PROGRAMS_PROGRAMS 1
  let bp := ((c.shelf sh).band band).bpageOf dst
  let c := (((c.shelf sh).pagesAt (fun p => p == src)).foldl (fun d e => d.mapPage sh e.1 e.2.1 band bp (seq / 2 % 0x10000)) c).shedGrains
  match (c.shelf sh).bandOf (blockPpa src) with
  | none => c
  | some b =>
    let x := (c.shelf sh).band b
    if x.state = 3 && x.eraseAt.isNone && x.live = 0 then c.modBand sh b (fun x => { x with eraseAt := some (c.epoch + 2) }) else c

/-- A COPY failed: a source that does not read is bad; a destination that does not program is retired, and the copy made again. -/
def Chip.copyFailed (c : Chip) (sh src dst status : Nat) : Chip :=
  if status = 2 || status = 9 then c.badPage sh src
  else ((c.copyOut sh src).emptyBlock sh (blockPpa dst) (ppaPage dst))

/-! ### Replies -/

/-- The highest retry level (R309). -/
def Chip.retryMax (c : Chip) (sh : Nat) : Nat := min (c.ftmCtl R.FTM_MEDIA_CTRL_RETRY_MAX) (c.nandOf sh).geo.maxRetry

/-- An operation's outcome with its final status. -/
def Chip.mediaEnd (c : Chip) (o : MediaOp) (status : Nat) (hdr : Option PageHdr) (data : List Byte) : Chip :=
  let sh := o.shelf
  match o.op with
  | .read p _ =>
    match hdr with
    | some h => if status ≤ 1 && c.goodPage sh p h data then c.pageCame sh p (some data) else (c.badPage sh p).pageCame sh p none
    | none => (c.badPage sh p).pageCame sh p none
  | .program p h d =>
    if status = 0 then
      let c := c.bump R.FTM_CNT_PROGRAMS_PROGRAMS 1
      if hdrMeta h || bitOf h.flags 1 then c else c.pageDone sh (hdrSeid h)
    else c.programFailed sh p h d
  | .erase p => if status = 0 then c.blockErased sh p else if status = 5 then c.eraseFailed sh p else c
  | .copy src dst seq band _ => if status ≤ 1 then c.copyDone sh src dst seq band else c.copyFailed sh src dst status
  | .retire p => if status = 0 then c.blockRetired sh p else c
  | _ => c

/-- An operation taken out of the list of those in flight. -/
def Chip.takeOp (c : Chip) (tag : Nat) : Chip := { c with ftm := { c.ftm with ops := c.ftm.ops.filter (·.tag != tag) } }

/-- R309, R370: an operation put in line once more under the OPID it has. -/
def Chip.resendOp (c : Chip) (o : MediaOp) : Chip :=
  let e := c.shelfEnt o.shelf
  c.modView e.str e.pos (fun v => match v.lend.ops.find? (fun x => x.2 == o.tag) with
    | some (opid, _) => { v with lend := { v.lend with queue := v.lend.queue ++ [(opid, .req o.op)] } }
    | none => v)

/-- A READ sent at a retry level (R309). -/
def Chip.mediaAgain (c : Chip) (o : MediaOp) (ppa level : Nat) : Chip :=
  let tag := c.ftm.nextOp
  let op : MediaOp := ⟨tag, o.shelf, .read ppa level, c.now, false, level, o.use⟩
  ((((({ c with ftm := { c.ftm with nextOp := tag + 1, ops := c.ftm.ops ++ [op] } } : Chip).bump R.FTM_CNT_RETRIES_RETRIES 1).bump
    R.FTM_CNT_READS_READS 1)).emit (.media tag o.shelf (.read ppa level))).frameOp o.shelf tag (.read ppa level)

/-- The PPA an operation names, for its timeout event. -/
def opPpa : MediaReq → Nat
  | .read p _ => p
  | .readHdr p => p
  | .program p _ _ => p
  | .erase p => p
  | .copy s .. => s
  | .blockInfo p => p
  | .retire p => p
  | _ => 0

/-! ### Metadata -/

/-- R290: a shelf's buddy: the next present shelf of its cohort in string order, cyclically. -/
def Chip.buddy (c : Chip) (sh : Nat) : Nat :=
  let l := c.cohortShelves (c.shelfEnt sh).cohort
  match l.idxOf? sh with
  | some i => l.getD ((i + 1) % max 1 l.length) sh
  | none => sh

/-- A metadata page programmed on a shelf. Its contents, which the spec does not lay out, are a free value (log entry 4). -/
def Chip.putMeta (c : Chip) (sh page flags : Nat) : Chip :=
  match c.bandFor sh 1 2 with
  | none => c
  | some (c, b) =>
    let x := (c.shelf sh).band b
    let c := c.modBand sh b (fun x => { x with next := x.next + 1 })
    let (c, seq) := c.takeSeq sh 1
    let data := natLe c.freeNow 16384
    let h : PageHdr := ⟨flags, sh, c.arrayTag, page, seq, b, c.epoch, 0⟩
    c.useFree.media sh (.program (x.ppa x.next) (sealHdr h data) data)

/-- R286: journal records whose epoch no longer has a dirty page are released from the ring, once the dirty buckets of the catalogue are written back
(R213). -/
def Chip.releaseRing (c : Chip) : Chip :=
  let busy := fun (e : Nat) => c.ftm.shelves.any (fun s => s.2.dirty.any (fun d => decide (d.2 ≤ e)))
  { c with ing := { c.ing with journal := c.ing.journal.filter (fun r => !r.durable || busy r.epoch) }, dd := { c.dd with dirty := [] } }

/-- R289: whether this head writes a metadata page: the owner of the shelf's string does, and of an index-area page the head whose position is the
window's number mod 2, or the survivor. -/
def Chip.writesPage (c : Chip) (sh page : Nat) : Bool :=
  if indexBase ≤ page then c.zbl.state == .sole || page % 2 == c.pos else c.ownsStr (c.strOf sh)

/-- One dirty metadata page written to its two places by its one writer (R286, R289, R290). -/
def Chip.writeBack (c : Chip) (sh page : Nat) : Chip :=
  let writes := c.writesPage sh page
  let c := c.modShelf sh (fun s => { s with dirty := s.dirty.filter (·.1 != page) })
  (if writes then (c.putMeta sh page 1).putMeta (c.buddy sh) page 1 else c).releaseRing

/-- WRITEBACK_DUE (R286). -/
def writebackDue (sh page : Nat) (c : Chip) : Chip :=
  match (c.shelf sh).dirty.find? (fun e => e.1 == page) with
  | some e => if e.2 + c.ftmCtl R.FTM_MAP_CTRL_WB_EPOCHS ≤ c.epoch then c.writeBack sh page else c
  | none => c

/-- R293: a new root page, and the older root slot set to it. -/
def Chip.writeRoot (c : Chip) (sh : Nat) : Chip :=
  let x := c.nandOf sh
  let slot := if x.root0.valid && (!x.root1.valid || decide (x.root1.seq ≤ x.root0.seq)) then 1 else 0
  match c.bandFor sh 1 2 with
  | none => c
  | some (_, b) =>
    let band := (c.shelf sh).band b
    let ppa := band.ppa band.next
    let c := c.putMeta sh 0 5
    let seq := (c.shelf sh).maxSeq
    (c.media sh (.rootSet slot ppa seq)).modShelf sh (fun s => { s with rootSeq := seq })

/-! ### Rebuild by full scan -/

/-- Of the pages of a NAND, those of one logical address or metadata page with the highest SEQ that are good (R294). -/
def Chip.scanPages (c : Chip) (sh : Nat) : List (Nat × NandPage) :=
  let x := c.nandOf sh
  let good := x.pages.filterMap (fun e => match e.2 with
    | some g => if !g.bad && g.hdr.check == pageCheck g.hdr g.data && g.hdr.arrayTag == c.arrayTag && g.hdr.shelf == sh &&
        !bitOf g.hdr.flags 1 && (x.block e.1).state == 0 then some (e.1, g) else none
    | none => none)
  good.filter (fun e => good.all (fun f =>
    !(f.2.hdr.la == e.2.hdr.la && hdrMeta f.2.hdr == hdrMeta e.2.hdr) || decide (f.2.hdr.seq ≤ e.2.hdr.seq)))

/-- The band table rebuilt from the blocks in which pages were found (R294). -/
def scanBand (s : ShelfInfo) (e : Nat × NandPage) : ShelfInfo :=
  let b := e.2.hdr.band
  let x := s.band b
  let blks := if x.blocks.contains (blockPpa e.1) then x.blocks else x.blocks ++ [blockPpa e.1]
  { s with bands := Sparse.set {} s.bands b { x with state := if x.state = 0 then 2 else x.state, blocks := blks } }

/-- One page entered into the map. -/
def scanMap (ext : Nat → Nat) (s : ShelfInfo) (e : Nat × NandPage) : ShelfInfo :=
  let h := e.2.hdr
  let b := s.band h.band
  let m := match s.entry (hdrSeid h) with
    | .free => MapEnt.grained (ext (hdrSeid h)) []
    | m => m
  { s with map := Sparse.set MapEnt.free s.map (hdrSeid h) (m.setGrain (hdrPage h) h.band (b.bpageOf e.1) (h.seq / 2 % 0x10000)) }

/-- The full scan (R294, R295): the maps of a scanning shelf rebuilt from its pages; pages the stripe table shows and the scan does not
find are reported for repair; a new root is written and the shelf is in service. -/
def Chip.fullScan (c : Chip) (sh : Nat) : Chip :=
  if (c.shelf sh).state ≠ 4 || !c.nandServes sh then c
  else
    let k := (c.shelfEnt sh).cohort
    let ext := fun seid => (((c.stripe k seid).map (fun s => (c.layoutOf s.cls).extLog2)).getD 22)
    let pages := c.scanPages sh
    let maxSeq := maxOf (pages.map (fun e => e.2.hdr.seq))
    let c := c.modShelf sh (fun s =>
      let zeros := s.map.filter (fun e => match e.2 with
        | .zero _ => true
        | _ => false)
      let s := pages.foldl scanBand { s with map := zeros, maxSeq := maxSeq, seqCtr := maxSeq + 2 }
      let s := (pages.filter (fun e => !hdrMeta e.2.hdr)).foldl (scanMap ext) s
      { s with state := 3, scanTotal := s.bands.length, scanDone := s.bands.length })
    let c := c.ftm.stripes.foldl (fun (d : Chip) s =>
      match d.stripOn s sh with
      | some j =>
        match (d.shelf sh).entry s.seid with
        | .zero _ => d
        | m =>
          if s.cohort == k && s.state == 2 then
            (List.range (d.layoutOf s.cls).pages).foldl (fun d i => if m.grains.any (·.1 == i) then d else d.report k s.seid j i) d
          else d
      | none => d) c
    let c := (c.bump R.FTM_CNT_SCANS_SCANS 1).writeRoot sh
    c.setFlag R.FTM_STATUS_SCANNING (c.ftm.shelves.any (fun s => s.2.state == 4))

-- EXEC writebackDue

/-- WRITEBACK_DUE (R286). -/
def execWritebackDue (sh : Shelf) (page : Nat) (s : State) : Host.Outcome State Fault Refusal :=
  s.runAwake (decide (sh < 128)) (writebackDue sh page)

-- END EXEC

end Sys2Proof.Machine
end

