-- ==== Sys2Proof/Machine/FtmApply.lean ====
section
/-!
DEFINITION. What a Midnight does to the maps and the catalogue: map records and catalogue updates applied, occurrences ended, stripes
and bands freed (R219 to R223, R280 to R288, R333).
-/
namespace Sys2Proof.Machine

/-! ### Records released -/

/-- The record that a locator names, with its stripe's cohort and SEID (R271, R300). -/
def Chip.recOf (c : Chip) (loc : Nat) : Option RecEnt :=
  match c.stripe (locCohort loc) (locSeid loc) with
  | some s => s.recs.find? (fun r => r.ofs == locOfs loc && c.shelfOn s.cohort (s.map.getD r.strip 0) == some (locShelf loc))
  | none => none

/-- A record changed. -/
def Chip.modRec (c : Chip) (loc : Nat) (f : RecEnt → RecEnt) : Chip :=
  match c.recOf loc with
  | none => c
  | some r => c.modStripe (locCohort loc) (locSeid loc) (fun s =>
      { s with recs := modifyFirst (fun x => x.strip == r.strip && x.ofs == r.ofs) f s.recs })

/-- R300: a record released: its entry goes to 0 and the stripe's LIVE falls by its size. -/
def Chip.releaseRec (c : Chip) (loc : Nat) : Chip :=
  match c.recOf loc with
  | none => c
  | some r =>
    if r.live = 0 then c
    else (c.modRec loc (fun r => { r with live := 0 })).modStripe (locCohort loc) (locSeid loc) (fun s => { s with live := s.live - r.bytes })

/-- R285: an occurrence has ended: a decrement for a record in the catalogue (sent by one of the heads, `mine`), or the record released. -/
def Chip.endOccurrence (c : Chip) (mine : Bool) (loc : Nat) : Chip :=
  match c.recOf loc with
  | none => c
  | some r =>
    if r.live = 2 then
      if mine then c.catChange 0 0 (.decrement r.fp r.dom (((c.stripe (locCohort loc) (locSeid loc)).map (·.cls)).getD 0) loc) else c
    else c.releaseRec loc

/-! ### Placement entries -/

/-- A placement entry without one block: what is left before it and after it. -/
def PlaceEnt.without (e : PlaceEnt) (ofs : Nat) : List PlaceEnt :=
  if ofs < e.start || decide (e.start + e.count ≤ ofs) then [e]
  else
    let before := ofs - e.start
    let after := e.count - before - 1
    (if before = 0 then [] else [{ e with count := before }]) ++
    (if after = 0 then [] else [{ e with start := ofs + 1, count := after, skip := e.skip + before + 1 }])

/-- Whether two placement entries are of one occurrence of a record (R220). -/
def PlaceEnt.sameOccurrence (a b : PlaceEnt) : Bool :=
  a.nsid == b.nsid && a.window == b.window && a.origin == b.origin && a.locator == b.locator

/-- Whether a placement entry is of the occurrence of a chunk that has pieces still without a map record. -/
def PlaceEnt.sameChunk (a : PlaceEnt) (k : Chunk) : Bool :=
  a.nsid == k.nsid && k.slba / 16384 == a.window && a.origin == k.slba % 16384 && k.settled == some a.locator

/-- R283, R285: a block trimmed from the placement map of a cohort. The occurrence ends with the last of its blocks, of which none may still be on its
way to the map. -/
def Chip.trimBlock (c : Chip) (mine : Bool) (nsid lba cohort : Nat) : Chip :=
  let hit := fun (e : PlaceEnt) => e.nsid == nsid && e.window == lba / 16384 && locCohort e.locator == cohort &&
    decide (e.start ≤ lba % 16384) && decide (lba % 16384 < e.start + e.count)
  match c.ftm.places.find? hit with
  | none => c
  | some e =>
    let places := c.ftm.places.flatMap (fun x => if hit x then x.without (lba % 16384) else [x])
    let c := { c with ftm := { c.ftm with places := places } }
    if places.any e.sameOccurrence || c.ftm.mapRecs.any (fun r => r.places.any e.sameOccurrence) || c.ing.chunks.any (e.sameChunk) then c
    else c.endOccurrence mine e.locator

/-- Whether an entry continues another: adjacent blocks of one record are held in one entry (R283). -/
def PlaceEnt.joins (a b : PlaceEnt) : Bool :=
  a.nsid == b.nsid && a.window == b.window && a.origin == b.origin && a.locator == b.locator && a.start + a.count == b.start &&
  a.skip + a.count == b.skip && decide (a.count + b.count ≤ 64)

/-- A placement entry inserted. -/
def Chip.insertPlace (c : Chip) (e : PlaceEnt) : Chip :=
  let l := c.ftm.places
  let l := match l.find? (fun x => x.joins e) with
    | some x => (l.filter (fun y => !(y.joins e))) ++ [{ x with count := x.count + e.count }]
    | none =>
      match l.find? (fun x => e.joins x) with
      | some x => (l.filter (fun y => !(e.joins y))) ++ [{ e with count := e.count + x.count }]
      | none => l ++ [e]
  { c with ftm := { c.ftm with places := l } }

/-- A deferred-log entry of a sleeping cohort (R283, R284). -/
def Chip.defer (c : Chip) (cohort : Nat) (d : Deferred) : Chip :=
  (({ c with ftm := { c.ftm with deferred := Sparse.modify [] c.ftm.deferred cohort (fun l => l ++ [d]) } } : Chip).dirtyIndex (deferPageNo cohort)).bump
    R.FTM_CNT_DEFERRED_DEFERRED 1

/-- R284: a deferred log applied in order when its cohort wakes. -/
def Chip.applyDeferred (c : Chip) (cohort : Nat) : Chip :=
  let l := Sparse.get [] c.ftm.deferred cohort
  let c := { c with ftm := { c.ftm with deferred := Sparse.set [] c.ftm.deferred cohort [] } }
  l.foldl (fun d x => match x with
    | .trim nsid lba => d.trimBlock (d.zbl.state == .sole || lba / 16384 % 2 == d.pos) nsid lba cohort
    | .insert e => d.insertPlace e) c

/-- R284, R622: a deferred log at 90 % of its cap sets DEFER_WARN and asks for a switch at the lowest rank; one at its cap asks as a read that has just
arrived does. -/
def Chip.checkDefer (c : Chip) : Chip :=
  let cap := c.ftmCtl R.FTM_DEFER_CAP_CAP
  let shut := c.shutDefers
  let new := shut.filter (fun k => !c.ftm.deferShut.contains k)
  let c := { c with ftm := { c.ftm with
    deferShut := shut
    switchWanted := c.ftm.switchWanted.filter (fun e => e.2.2 == 0 || !new.contains e.1) } }
  let c := (new.filter (fun k => !c.cohortAwake k)).foldl (fun d k => d.askCohort k 0) c
  let full := (List.range 8).filter (fun k => decide (cap * 9 ≤ c.deferBytes k * 10) && !c.cohortAwake k)
  let ask := full.filter (fun k => !c.ftm.switchWanted.any (·.1 == k))
  ({ c with ftm := { c.ftm with switchWanted := c.ftm.switchWanted ++ ask.map (fun k => (k, c.now, 2)) } } : Chip).setFlag
    R.FTM_STATUS_DEFER_WARN (!full.isEmpty)

/-- R281: the cohort index of a block set; 0xF is no entry. -/
def Chip.setIndex (c : Chip) (nsid lba v : Nat) : Chip :=
  ({ c with ftm := { c.ftm with index := Sparse.set 0xF c.ftm.index (nsid * 2 ^ 44 + lba) v } } : Chip).dirtyIndex (indexPageNo nsid (lba / 16384))

/-- A block taken out of the cohort that holds its entry. -/
def Chip.dropBlock (c : Chip) (mine : Bool) (nsid lba : Nat) : Chip :=
  let old := c.indexOf nsid lba
  if 8 ≤ old then c
  else if c.cohortAwake old then c.trimBlock mine nsid lba old
  else c.defer old (.trim nsid lba)

/-- R126: what is still on its way to the maps of a namespace that is deleted or formatted is gone with it: buffered writes, of a format those that
have completed, and map records not yet applied (log entry 102). -/
def Chip.bufferGone (c : Chip) (nsid : Nat) (deleted : Bool) : Chip :=
  { c with
    ing := { c.ing with writes := modifyAll (fun (w : WrBuf) => w.nsid == nsid && (deleted || w.completed.isSome)) (fun w => { w with gone := true }) c.ing.writes }
    ftm := { c.ftm with mapRecs := modifyAll (fun (r : MapRec) => r.nsid == nsid && r.blocks != 0) (fun r => { r with gone := true }) c.ftm.mapRecs } }

/-- R126: every block of a namespace deallocated: its deletion or its format. -/
def Chip.trimNamespace (c : Chip) (nsid : Nat) (deleted : Bool) : Chip :=
  let c := c.bufferGone nsid deleted
  let lbas := (c.ftm.index.filter (fun e => e.1 / 2 ^ 44 == nsid)).map (fun e => e.1 % 2 ^ 44)
  let c := lbas.foldl (fun d lba => (d.dropBlock (d.pos == 0 || d.zbl.state == .sole) nsid lba).setIndex nsid lba 0xF) c
  { c with
    ing := { c.ing with tagRuns := c.ing.tagRuns.filter (·.1 != nsid) }
    rde := { c.rde with lost := c.rde.lost.filter (fun e => !(e.kind == 3 && e.id == nsid)) } }

/-! ### Tags and lost ranges -/

/-- R282: what a new run leaves of an older one. -/
def TagRun.without (r : TagRun) (lba count : Nat) : List TagRun :=
  let stop := lba + count
  let last := r.lba + r.count
  if stop ≤ r.lba || last ≤ lba then [r]
  else
    (if r.lba < lba then [{ r with count := lba - r.lba }] else []) ++
    (if stop < last then [{ r with lba := stop, count := last - stop, refBase := if r.mode = 2 then r.refBase + (stop - r.lba) else r.refBase }]
      else [])

/-- R282: the tag runs of a command applied to the tag store. -/
def Chip.applyTags (c : Chip) (nsid : Nat) (runs : List TagRun) : Chip :=
  runs.foldl (fun d t => { d with ing := { d.ing with
    tagRuns := d.ing.tagRuns.flatMap (fun r => if r.1 == nsid then (r.2.without t.lba t.count).map (fun x => (nsid, x)) else [r]) ++ [(nsid, t)] } }) c

/-- R333: what a written range leaves of a lost LBA range. -/
def LostEnt.without (e : LostEnt) (lba count : Nat) : List LostEnt :=
  let stop := lba + count
  let last := e.firstLba + e.blocks
  if stop ≤ e.firstLba || last ≤ lba then [e]
  else
    (if e.firstLba < lba then [{ e with blocks := lba - e.firstLba }] else []) ++
    (if stop < last then [{ e with firstLba := stop, blocks := last - stop }] else [])

/-- R333: a range of blocks leaves the KIND 3 ranges; where the table is full the part after a split is not kept. -/
def Chip.narrowLost (c : Chip) (nsid lba count : Nat) : Chip :=
  let l := c.rde.lost.foldl (fun (acc : List LostEnt × Nat) e =>
    let parts := if e.kind == 3 && e.id == nsid then e.without lba count else [e]
    let parts := if parts.length = 2 && decide (lostMax ≤ acc.2) then parts.take 1 else parts
    (acc.1 ++ parts, acc.2 + parts.length - 1)) ([], c.rde.lost.length)
  { c with rde := { c.rde with lost := l.1 } }

/-! ### Map records applied -/

/-- The metadata pages of a shelf that a change dirties (the model's own page numbers): a shelf-map page, and a placement page. -/
def mapPageNo (seid : Nat) : Nat := 1 + seid / 2048
/-- The metadata page of a window's placements. -/
def placePageNo (nsid window : Nat) : Nat := 2 ^ 32 + nsid * 2 ^ 24 + window

/-- The shelf of an awake cohort that holds a window's placement page: the window's number picks it (log entry 23). -/
def Chip.placeShelf (c : Chip) (cohort window : Nat) : Option Nat :=
  let l := c.cohortShelves cohort
  l[window % max 1 l.length]?

/-- A window's placement page marked dirty. -/
def Chip.dirtyPlace (c : Chip) (cohort nsid window : Nat) : Chip :=
  match c.placeShelf cohort window with
  | some sh => c.markDirty sh (placePageNo nsid window)
  | none => c

/-- R283: the steps for one piece. -/
def Chip.applyPiece (c : Chip) (r : MapRec) : Chip :=
  let mine := !r.fromPeer
  let lbas := upFrom r.slba r.blocks
  let c := lbas.foldl (fun d lba => d.dropBlock mine r.nsid lba) c
  let c := r.places.foldl (fun d e =>
    let k := locCohort e.locator
    if d.cohortAwake k then (d.insertPlace e).dirtyPlace k e.nsid e.window else d.defer k (.insert e)) c
  let c := lbas.foldl (fun d lba =>
    let v := if r.codes ≠ 0 then r.codes
      else (r.places.findSome? (fun e =>
        if e.window * 16384 + e.start ≤ lba && decide (lba < e.window * 16384 + e.start + e.count) then some (locCohort e.locator) else none)).getD 0xF
    d.setIndex r.nsid lba v) c
  (c.applyTags r.nsid r.tags).narrowLost r.nsid r.slba r.blocks

/-- R301: a record moved: the placement entries that name it follow; its liveness goes with it. -/
def Chip.applyMove (c : Chip) (old new : Nat) : Chip :=
  let live := ((c.recOf old).map (·.live)).getD 0
  let ents := c.ftm.places.filter (fun e => e.locator == old)
  let places := modifyAll (fun (e : PlaceEnt) => e.locator == old) (fun e => { e with locator := new }) c.ftm.places
  let c := { c with ftm := { c.ftm with places := places } }
  let c := if locCohort old = locCohort new then c
    else ents.foldl (fun d e => (upFrom (e.window * 16384 + e.start) e.count).foldl (fun d lba => d.setIndex e.nsid lba (locCohort new)) d) c
  let c := c.releaseRec old
  if live = 0 then c.releaseRec new else c.modRec new (fun r => { r with live := live })

/-- R288, R301: a compacted stripe none of whose records is live any more is freeing; it is free at the second Midnight after. -/
def Chip.freeing (c : Chip) (epoch : Nat) : Chip :=
  { c with ftm := { c.ftm with stripes := c.ftm.stripes.map (fun s =>
      if s.state == 2 && s.compacting && s.recs.all (fun r => r.live == 0 || r.lost) && !s.recs.any (·.lost) then
        { s with state := 3, freeAt := some (epoch + 2) } else s) } }

/-- R327: a rebuilt strip: STRIP_MAP names its new string and its MISSING bit clears. -/
def Chip.applyRebuilt (c : Chip) (cohort seid strip str : Nat) : Chip :=
  c.modStripe cohort seid (fun s => { s with map := s.map.set strip str, missing := clearBit s.missing strip })

/-- A map record applied at its Midnight; the blocks of one whose namespace is gone are deallocated again. -/
def Chip.applyRec (c : Chip) (r : MapRec) : Chip :=
  let c := if r.blocks = 0 then c else c.applyPiece r
  let c := if r.gone then (upFrom r.slba r.blocks).foldl (fun d lba => (d.dropBlock (!r.fromPeer) r.nsid lba).setIndex r.nsid lba 0xF) c else c
  let c := r.moves.foldl (fun d m => d.applyMove m.1 m.2) c
  match r.rebuilt with
  | some (k, seid, strip, str) =>
    let c := c.applyRebuilt k seid strip str
    if r.fromPeer then c else (c.bump R.RDE_CNT_REBUILT_STRIPES 1).bump R.RDE_REBUILD_PROG_DONE 1
  | none => c

/-! ### Stripes and bands freed -/

/-- Whether this head does the stripe's maintenance: SEIDs of its parity, all after a takeover (R326, R335). -/
def Chip.tends (c : Chip) (seid : Nat) : Bool := c.zbl.state == .sole || seid % 2 == c.pos

/-- R333: the lost entries of a freed stripe are released. -/
def Chip.dropLost (c : Chip) (cohort seid : Nat) : Chip :=
  { c with rde := { c.rde with lost := c.rde.lost.filter (fun e => !((e.kind == 1 || e.kind == 2) && e.cohort == cohort && e.id == seid)) } }

/-- The extent of a stripe on one shelf freed. -/
def Chip.freeExtent (c : Chip) (sh seid : Nat) : Chip :=
  let c := ((c.shelf sh).entry seid).grains.foldl (fun d g => d.modBand sh g.2.1 (fun b => { b with live := b.live - 1 })) c
  (c.setMap sh seid .free).markDirty sh (mapPageNo seid)

/-- A stripe's extents freed, its dead records reported to the catalogue (R223), its entry free; one with a strip missing counts as rebuilt (R329). -/
def Chip.freeStripe (c : Chip) (s : StripeEnt) : Chip :=
  let c := s.recs.foldl (fun d r =>
    if r.fp = 0 || !d.ownsBucket (d.bucketOf r.fp) then d
    else if (d.bucket_ (d.bucketOf r.fp)).any (fun e => e.fp == r.fp && e.dom == r.dom && e.cls == s.cls && e.locator == c.recLocator s r && e.state == 3) then
      d.catChange 0 0 (.erased r.fp r.dom s.cls (c.recLocator s r))
    else d) c
  let c := s.map.foldl (fun d str => match d.shelfOn s.cohort str with
    | some sh => d.freeExtent sh s.seid
    | none => d) c
  let c := c.dropLost s.cohort s.seid
  let c := if s.missing ≠ 0 && c.tends s.seid then c.bump R.RDE_REBUILD_PROG_DONE 1 else c
  { c with ftm := { c.ftm with stripes := c.ftm.stripes.filter (fun x => !(x.cohort == s.cohort && x.seid == s.seid)) } }

/-- R288: at the Midnight that closes an epoch: freed stripes are free, and emptied bands are erased. -/
def Chip.freeDue (c : Chip) (epoch : Nat) : Chip :=
  let due := c.ftm.stripes.filter (fun s => s.state == 3 && (match s.freeAt with
    | some e => decide (e ≤ epoch)
    | none => false))
  let c := due.foldl (fun d s => d.freeStripe s) c
  c.ftm.shelves.foldl (fun d e => e.2.bands.foldl (fun d b =>
    match b.2.eraseAt with
    | some t =>
      if b.2.state = 3 && decide (t ≤ epoch) && d.nandServes e.1 then
        let d := d.modBand e.1 b.1 (fun x => { x with eraseAt := none })
        b.2.blocks.foldl (fun d blk => d.media e.1 (.erase blk)) d
      else d
    | none => d) d) c

/-! ### The catalogue -/

/-- The entry that a catalogue change names: the record's own by its locator; where that record has moved since, the preferred one of its
fingerprint. -/
def Chip.catEntry (c : Chip) (fp dom cls loc : Nat) : Option CatEntry :=
  let l := (c.bucket_ (c.bucketOf fp)).filter (fun e => e.fp == fp && e.dom == dom && e.cls == cls && e.state != 0)
  (l.find? (fun e => e.locator == loc)).orElse (fun _ => c.bestOf (l.filter (fun e => e.state != 3)))

/-- A bucket's entry changed by an update (R213), where the update may be made of it. -/
def Chip.updateEntry (c : Chip) (fp dom cls loc : Nat) (ok : CatEntry → Bool) (f : CatEntry → CatEntry) : Chip :=
  match c.catEntry fp dom cls loc with
  | some e => if ok e then c.setBucketEntries (c.bucketOf fp) (modifyFirst (· == e) f (c.bucket_ (c.bucketOf fp))) else c
  | none => c

/-- R219: whether an entry takes an increment: it is not dead and its REFS is below its largest value. -/
def CatEntry.counts (e : CatEntry) : Bool := (e.state == 1 || e.state == 2) && decide (e.refs < 0xFFFFFFFF)

/-- Whether an increment finds an entry that takes it (R219). -/
def Chip.takesIncrement (c : Chip) (fp dom cls loc : Nat) : Bool := (c.catEntry fp dom cls loc).any CatEntry.counts

/-- A pending change follows a record that has moved. -/
def CatChange.follow (old new : Nat) : CatChange → CatChange
  | .insert e => .insert (if e.locator = old then { e with locator := new } else e)
  | .increment fp dom cls l => .increment fp dom cls (if l = old then new else l)
  | .decrement fp dom cls l => .decrement fp dom cls (if l = old then new else l)
  | .relocate fp dom cls l n => .relocate fp dom cls (if l = old then new else l) n
  | .erased fp dom cls l => .erased fp dom cls l
  | .lost fp dom cls l => .lost fp dom cls (if l = old then new else l)

/-- One catalogue change applied; `own` says that it is this head's. An insert's in-flight record leaves the table (R217); a record whose entry
cannot be placed is unshared (R224). -/
def Chip.applyCat (c : Chip) (own : Bool) (ch : CatChange) : Chip :=
  match ch with
  | .insert e =>
    let b := c.bucketOf e.fp
    let c := { c with dd := { c.dd with inflight := c.dd.inflight.filter (fun f => !(f.programmed && f.loc == e.locator)) } }
    if c.bucketTakes b 0 then
      (c.setBucketEntries b (c.bucket_ b ++ [{ e with state := 1, incr := true }])).modRec e.locator (fun r => { r with live := 2 })
    else if own then c.catFull e.dom b
    else c
  | .increment fp dom cls loc => c.updateEntry fp dom cls loc CatEntry.counts (fun e => { e with refs := e.refs + 1, incr := true })
  | .decrement fp dom cls loc => c.updateEntry fp dom cls loc (fun e => decide (0 < e.refs)) (fun e => { e with refs := e.refs - 1 })
  | .relocate fp dom cls old new =>
    let c := c.updateEntry fp dom cls old (fun e => e.state != 3) (fun e => { e with locator := new })
    { c with dd := { c.dd with updates := c.dd.updates.map (fun u => { u with change := u.change.follow old new }) } }
  | .erased fp dom cls loc =>
    let b := c.bucketOf fp
    c.setBucketEntries b ((c.bucket_ b).filter (fun e => !(e.fp == fp && e.dom == dom && e.cls == cls && e.locator == loc && e.state == 3)))
  | .lost fp dom cls loc => c.updateEntry fp dom cls loc (fun _ => true) (fun e => { e with keySlot := 0xFFFF })

/-- R223: an entry's STATE at a Midnight. -/
def CatEntry.atMidnight (e : CatEntry) : CatEntry :=
  let s := if e.state = 1 && e.refs = 0 then 2
    else if e.state = 2 then (if e.incr then 1 else 3)
    else e.state
  { e with state := s, incr := false }

/-- R223: states set, and the records of entries gone dead released. -/
def Chip.ageCatalogue (c : Chip) : Chip :=
  c.dd.buckets.foldl (fun d b =>
    let l := b.2.map CatEntry.atMidnight
    if l = b.2 then d
    else
      let dead := (b.2.zip l).filter (fun p => p.1.state != 3 && p.2.state == 3)
      dead.foldl (fun d p => d.releaseRec p.2.locator) (d.setBucketEntries b.1 l)) c

/-- R224: the catalogue warning at 90 % of 255 × NB × 17/16, once. -/
def Chip.warnCatalogue (c : Chip) : Chip :=
  let used := sumOf (c.dd.buckets.map (fun b => b.2.length))
  if c.dd.warned || c.homeBuckets = 0 || decide (used * 160 < 255 * c.homeBuckets * 17 * 9) then c
  else ({ c with dd := { c.dd with warned := true } } : Chip).event 0x183 0 0 0 0 used

/-- R219: a provisional duplicate settled at the Midnight that closes the epoch of its lookup: placed, or taken to be unique where its increment was
refused. -/
def Chip.settleProvisional (c : Chip) (epoch : Nat) (taken : Nat → Nat → Nat → Nat → Bool) (k : Chunk) : Chip :=
  match k.answer with
  | .duplicate loc true =>
    if (inflightChunk loc).isSome || decide (epoch < k.asked) then c
    else if taken k.fp k.dom k.cls loc then c.modChunk k.id (fun k => { k with answer := .duplicate loc false })
    else ((c.bump R.CMP_DD_PEER_REFUSED_PEER_REFUSED 1).modChunk k.id (fun k => { k with answer := .undecided })).answerUnique
      ⟨askedAgain, k.id, k.dom, k.cls, k.blocks, k.fp⟩ 6
  | _ => c

/-- The order in which the changes of one Midnight are applied: inserts, decrements, increments, then the others. -/
def CatChange.order : CatChange → Nat
  | .insert _ => 0
  | .decrement .. => 1
  | .increment .. => 2
  | _ => 3

/-- The changes of one kind applied. -/
def Chip.applyCats (c : Chip) (due : List CatUpdate) (order : Nat) : Chip :=
  (due.filter (fun u => u.change.order == order)).foldl (fun d u => d.applyCat (!u.fromPeer) u.change) c

/-- R213: every catalogue update of the closed epoch applied, then R217, R219 and R223. -/
def Chip.applyUpdates (c : Chip) (epoch : Nat) : Chip :=
  let due := c.dd.updates.filter (fun u => decide (u.epoch ≤ epoch))
  let c := { c with dd := { c.dd with updates := c.dd.updates.filter (fun u => !decide (u.epoch ≤ epoch)) } }
  let c := (c.applyCats due 0).applyCats due 1
  let taken := fun fp dom cls loc => c.takesIncrement fp dom cls loc
  let c := c.applyCats due 2
  let c := c.ing.chunks.foldl (fun d k => d.settleProvisional epoch taken k) c
  (c.applyCats due 3).ageCatalogue.warnCatalogue.resumeUnique

/-! ### Together -/

/-- A map record taken from those that wait, and applied. -/
def Chip.takeMapRec (c : Chip) (r : MapRec) : Chip :=
  ({ c with ftm := { c.ftm with mapRecs := c.ftm.mapRecs.erase r } } : Chip).applyRec r

/-- The map records of the closed epoch applied, in order, then what they free. -/
def Chip.applyMaps (c : Chip) (epoch : Nat) : Chip :=
  let due := c.ftm.mapRecs.filter (fun r => decide (r.epoch ≤ epoch))
  (((due.foldl (fun d r => d.takeMapRec r) c).freeing epoch).freeDue epoch).checkDefer

/-- R167, R175: a write all of whose pieces' map records are durable gives its buffer back, unless a read in progress takes blocks from it. -/
def Chip.releaseWrites (c : Chip) (epoch : Nat) : Chip :=
  let durable := fun (rsn : Nat) => !(c.ftm.mapRecs.any (fun r => r.rsn == rsn && decide (epoch < r.epoch) && !r.fromPeer))
  c.ing.writes.foldl (fun d w =>
    if !c.ing.reads.any (fun r => r.srcs.contains (.buffer w.wid)) && w.passed && (w.completed.isSome || !w.own) && w.pieces.all (fun p => p.durable || (match p.mapRsn with
        | some r => durable r
        | none => false)) then d.releaseWrite w.wid else d) c

end Sys2Proof.Machine
end

