-- ==== Sys2Proof/Machine/Redundancy.lean ====
section
/-!
DEFINITION. Recovery, lost pages, compaction, rebuild, repair and scrub (R301 to R304, R317, R324 to R338).
-/
namespace Sys2Proof.Machine

/-- The bytes of a record from the pages of its strip, those of each page offset as `get` gives them. -/
def RecEnt.bytesFrom (r : RecEnt) (get : Nat → Option (List (List Nat))) : Option (List Byte) :=
  let a := r.ofs * 64
  let n := r.bytes * 64
  let first := a / 16384
  let pages := (upFrom first ((a + n + 16383) / 16384 - first)).map (fun i => (get i).map (fun l => l.getD r.strip []))
  if pages.all (·.isSome) then
    some ((((pages.flatMap (fun p => p.getD [])).drop (a - first * 16384)).take n).map (BitVec.ofNat 8))
  else none

/-- The bytes of a record, from its strip's pages (R182, R186). -/
def Chip.recBytes (c : Chip) (s : StripeEnt) (r : RecEnt) : Option (List Byte) := r.bytesFrom (c.recovered s)

/-! ### Packing records into open stripes -/

/-- A stripe's open buffer of a class and a cohort. -/
def Chip.openFor (c : Chip) (cls : Nat) (cohort : Option Nat) (shadow : Bool) : Option (Chip × OpenStripe) :=
  match c.ing.stripes.find? (fun s => s.cls == cls && s.shadow == shadow && (cohort.isNone || cohort == some s.cohort)) with
  | some s => some (c, s)
  | none =>
    match cohort.orElse (fun _ => c.stripeCohort cls) with
    | some k => c.openStripeIn k cls shadow
    | none => none

/-- An open stripe replaced by its next state. -/
def Chip.modOpen (c : Chip) (os : OpenStripe) (f : OpenStripe → OpenStripe) : Chip :=
  { c with ing := { c.ing with stripes := modifyFirst (fun (s : OpenStripe) => s.seid == os.seid && s.cohort == os.cohort) f c.ing.stripes } }

/-- An open stripe with `n` free bytes in its extent (R163): the next extent, or the next stripe, where the record does not fit. -/
def Chip.openWith (c : Chip) (cls n : Nat) (cohort : Option Nat) (shadow : Bool) : Option (Chip × OpenStripe) :=
  match c.openFor cls cohort shadow with
  | none => none
  | some (c, os) =>
    if os.used + n ≤ (c.layoutOf cls).extent then some (c, os)
    else
      let c := c.fillExtent os
      if os.extent + 1 < os.extents then
        some (c.modOpen os (fun s => { s with extent := s.extent + 1, used := 0 }), { os with extent := os.extent + 1, used := 0 })
      else (c.sealStripe os os.extents).openFor cls cohort shadow

/-- A record copied unchanged into the open stripe of a class (R301): its new locator. -/
def Chip.packRec (c : Chip) (cls : Nat) (cohort : Option Nat) (shadow : Bool) (r : RecEnt) (bs : List Byte) : Option (Chip × Nat) :=
  match c.openWith cls bs.length cohort shadow with
  | none => none
  | some (c, os) =>
    match c.openEnt os with
    | none => none
    | some ent =>
      match c.shelfOn ent.cohort (ent.map.getD os.extent 0) with
      | none => none
      | some sh =>
        let c := c.store (os.bufs.getD os.extent 0 + os.used) bs
        let c := c.modOpen os (fun s => { s with used := s.used + bs.length, firstAt := s.firstAt.orElse (fun _ => some c.now) })
        let x : RecEnt := { r with strip := os.extent, ofs := os.used / 64, lost := false }
        let c := c.modStripe ent.cohort ent.seid (fun s => { s with live := s.live + r.bytes, recs := s.recs ++ [x] })
        some (c, mkLocator ent.cohort sh ent.seid (os.used / 64))

/-- One record of a stripe copied out. A record whose pages are not to be had is left where it is. -/
def Chip.copyRec (c : Chip) (s : StripeEnt) (r : RecEnt) (cls : Nat) (cohort : Option Nat) (kind : Nat) : Chip :=
  match c.recBytes s r with
  | none => c
  | some bs =>
    match c.packRec cls cohort (kind == 2) r bs with
    | none => c
    | some (d, loc) => { d with ftm := { d.ftm with copies := d.ftm.copies ++ [(c.recLocator s r, loc, kind)] } }

/-- The records of a stripe that are live and not lost, in packing order. -/
def StripeEnt.liveRecs (s : StripeEnt) : List RecEnt := s.recs.filter (fun r => r.live != 0 && !r.lost)

/-- R315: one record of a stripe that is given up packed again from its extent buffer; a chunk that finds no stripe is packed from the write buffer
later. -/
def Chip.repackRec (c : Chip) (s : StripeEnt) (r : RecEnt) : Chip :=
  let old := c.recLocator s r
  let was := fun (k : Chunk) => k.packed.any (fun p => p.1 == old) && !k.programmed
  if r.live = 0 then c
  else match c.packRec s.cls (some s.cohort) s.shadow r (c.load (s.bufs.getD r.strip 0 + 64 * r.ofs) (64 * r.bytes)) with
    | some (d, loc) => { d with
        ing := { d.ing with chunks := modifyAll was (fun k => { k with packed := some (loc, locSeid loc) }) d.ing.chunks }
        ftm := { d.ftm with copies := modifyAll (fun e => e.2.1 == old) (fun e => (e.1, loc, e.2.2)) d.ftm.copies } }
    | none => { c with
        ing := { c.ing with chunks := modifyAll was (fun k => { k with packed := none, cipherJob := none }) c.ing.chunks }
        ftm := { c.ftm with copies := c.ftm.copies.filter (fun e => e.2.1 != old) } }

/-- R315: a stripe that cannot be programmed whole: its SEID and programmed strips are freed, and its records are packed again. -/
def Chip.repackStripe (c : Chip) (s : StripeEnt) : Chip :=
  let mine := fun (o : MediaOp) => (c.shelfEnt o.shelf).cohort == s.cohort && (match o.op with
    | .program _ h _ => h.flags == 0 && hdrSeid h == s.seid
    | _ => false)
  let c := { c with ftm := { c.ftm with ops := c.ftm.ops.filter (fun o => !mine o) } }
  let c := s.map.foldl (fun d str => match d.shelfOn s.cohort str with
    | some sh => d.freeExtent sh s.seid
    | none => d) c
  let c := { c with
    ing := { c.ing with stripes := c.ing.stripes.filter (fun os => !(os.cohort == s.cohort && os.seid == s.seid)) }
    ftm := { c.ftm with stripes := c.ftm.stripes.filter (fun x => !(x.cohort == s.cohort && x.seid == s.seid)) } }
  s.recs.foldl (fun d r => d.repackRec s r) c

/-- R315: the stripes not yet programmed that have a strip on a shelf which leaves service. -/
def Chip.repackShelf (c : Chip) (sh : Nat) : Chip :=
  let k := (c.shelfEnt sh).cohort
  let hit := c.ftm.stripes.filter (fun s => s.cohort == k && s.map.contains (c.strOf sh) && (s.state == 1 || s.stripsLeft != 0))
  hit.foldl (fun d s =>
    let bufs := ((d.ing.stripes.find? (fun os => os.cohort == k && os.seid == s.seid)).map (·.bufs)).getD s.bufs
    d.repackStripe { s with bufs := bufs }) c

/-! ### Compaction -/

/-- The stripes of a cohort that stripe compaction may take (R301). -/
def Chip.compactable (c : Chip) (k : Nat) : List StripeEnt :=
  c.ftm.stripes.filter (fun s => s.cohort == k && s.state == 2 && c.tends s.seid && !s.compacting && !s.shadow && s.stripsLeft == 0 &&
    decide (s.live * 64 * 100 < c.ftmCtl R.FTM_GC_CTRL_GC_LIVE_PCT * (c.layoutOf s.cls).dataStrips * (c.layoutOf s.cls).extent))

/-- The stripe with the lowest LIVE, then the one sealed earliest. -/
def leastLive (l : List StripeEnt) : Option StripeEnt :=
  l.foldl (fun o s => match o with
    | none => some s
    | some b => if s.live < b.live || (s.live == b.live && decide (s.sealEpoch < b.sealEpoch)) then some s else some b) none

/-- STRIPE_COMPACTION (R301). -/
def stripeCompaction (k : Nat) (c : Chip) : Chip :=
  if !c.cohortAwake k then c
  else
    match leastLive (c.compactable k) with
    | none => c
    | some s =>
      let c := c.modStripe k s.seid (fun s => { s with compacting := true })
      let n := c.ftm.copies.length
      let c := s.liveRecs.foldl (fun d r => d.copyRec s r s.cls none 0) c
      c.bump R.FTM_CNT_GC_RECORDS_GC_RECORDS (c.ftm.copies.length - n)

/-- The mean erase count of a band, times its blocks' number. -/
def Chip.bandErases (c : Chip) (sh : Nat) (b : Band) : Nat := sumOf (b.blocks.map (fun p => ((c.nandOf sh).block p).erases))

/-- The closed band that band compaction takes next (R302, R304). -/
def Chip.bandToCompact (c : Chip) (sh : Nat) : Option Nat :=
  let s := c.shelf sh
  let closed := s.bands.filter (fun b => b.2.state == 2)
  let low := closed.filter (fun b => decide (b.2.live * 100 < c.ftmCtl R.FTM_GC_CTRL_BAND_LIVE_PCT * bandPages s.geo))
  let least := fun (f : Band → Nat) (l : List (Nat × Band)) => (l.foldl (fun o b => match o with
    | none => some b
    | some a => if f b.2 < f a.2 then some b else some a) (none : Option (Nat × Band))).map (·.1)
  match least (·.live) low with
  | some b => some b
  | none =>
    let counts := (s.bands.flatMap (fun b => b.2.blocks)).map (fun p => ((c.nandOf sh).block p).erases)
    if c.ftmCtl R.FTM_WL_CTRL_WL_DELTA < maxOf counts - counts.foldl min (maxOf counts) then least (c.bandErases sh) closed else none

/-- BAND_COMPACTION (R302, R304). -/
def bandCompaction (sh : Nat) (c : Chip) : Chip :=
  if !c.cohortAwake (c.shelfEnt sh).cohort || !c.ownsStr (c.strOf sh) || (c.shelf sh).state ≠ 3 then c
  else
    match c.bandToCompact sh with
    | some b => c.usedFor 1 (fun c => c.compactBand sh b)
    | none => c

/-! ### Rebuild -/

/-- R298: whether a strip is a zero strip. -/
def Chip.zeroStrip (c : Chip) (s : StripeEnt) (j : Nat) : Bool :=
  match c.stripShelf s j with
  | some sh => match (c.shelf sh).entry s.seid with
    | .zero _ => true
    | _ => false
  | none => false

/-- REBUILD_GRACE_TIMEOUT (R324): the MISSING bits of a shelf out of service for GRACE_S are set and its rebuild begins. -/
def rebuildGraceTimeout (sh : Nat) (c : Chip) : Chip :=
  match (c.shelf sh).absentSince with
  | none => c
  | some t =>
    if (c.shelf sh).rebuilding || decide (c.now < t + c.rdeCtl R.RDE_REBUILD_CTRL_GRACE_S * 1000000000) then c
    else
      let k := (c.shelfEnt sh).cohort
      let str := c.strOf sh
      let names := fun (s : StripeEnt) => s.cohort == k && s.state == 2 && (match s.map.idxOf? str with
        | some j => !c.zeroStrip s j
        | none => false)
      let mine := (c.ftm.stripes.filter (fun s => names s && c.tends s.seid)).length
      let ss := modifyAll names (fun s => { s with missing := setBit s.missing ((s.map.idxOf? str).getD 0) }) c.ftm.stripes
      let c := ({ c with ftm := { c.ftm with stripes := ss } } : Chip).modShelf sh (fun s => { s with rebuilding := true })
      ((c.set R.RDE_REBUILD_PROG_TOTAL mine).set R.RDE_REBUILD_PROG_DONE 0).setDegraded

/-- What R325 names for a missing strip. -/
inductive Target where
  | shelf (sh str : Nat)
  | evacuate (cohort : Nat)
  | none
  deriving DecidableEq, Repr

/-- R325: the first target that exists. -/
def Chip.rebuildTarget (c : Chip) (s : StripeEnt) (j : Nat) : Target :=
  let inSvc := fun sh => (c.shelf sh).state == 3
  let spare := (c.cohortShelves s.cohort).filter (fun sh => c.eligible sh && inSvc sh && !s.map.contains (c.strOf sh))
  let best := spare.foldl (fun (o : Option Nat) sh => match o with
    | none => some sh
    | some b => if (c.shelf b).freeBands < (c.shelf sh).freeBands then some sh else some b) Option.none
  match (c.stripShelf s j).filter inSvc, best with
  | some sh, _ => .shelf sh (s.map.getD j 0)
  | none, some sh => .shelf sh (c.strOf sh)
  | none, none =>
    match c.awakeCohorts.find? (fun k => k != s.cohort && c.cohortHolds k s.cls) with
    | some k => if c.rdeCtl R.RDE_MAINT_CTRL_EVACUATE = 1 then .evacuate k else .none
    | none => .none

/-- The extent of a strip written to a shelf page by page, with what `f` gives (R327). -/
def Chip.writeStrip (c : Chip) (sh : Nat) (s : StripeEnt) (f : Nat → List Byte) : Option Chip :=
  let l := c.layoutOf s.cls
  match c.bandFor sh l.pages 0 with
  | none => none
  | some (c, b) =>
    let bpage := ((c.shelf sh).band b).next
    let (c, seq) := c.takeSeq sh l.pages
    let c := c.modBand sh b (fun x => { x with next := x.next + l.pages, live := x.live + l.pages })
    let c := c.setMap sh s.seid (.coarse l.extLog2 b bpage (seq / 2 % 0x10000))
    some ((List.range l.pages).foldl (fun d i =>
      let data := f i
      let h : PageHdr := ⟨0, sh, d.arrayTag, s.seid * 1024 + i, seq + 2 * i, b, d.epoch, 0⟩
      d.media sh (.program (((d.shelf sh).band b).ppa (bpage + i)) (sealHdr h data) data)) c)

/-- R334: the right content of a page: recovered as though it were bad, where every record on it whose key is held verifies its tag with it (R323). -/
def Chip.repaired (c : Chip) (s : StripeEnt) (j i : Nat) : Option (List Byte) :=
  match recoverOffset (c.layoutOf s.cls) ((c.offsetAt s i).set j .gone) with
  | none => none
  | some l =>
    let get := fun x => if x = i then some l else c.recovered s x
    let fails := fun (r : RecEnt) => (r.bytesFrom get).any (fun bs => c.tagVerifies bs == some false)
    if s.recs.any (fun r => r.onPage j i && r.live != 0 && !r.lost && fails r) then none else some ((l.getD j []).map (BitVec.ofNat 8))

/-- Whether a rebuilt strip waits for its Midnight. -/
def Chip.rebuildPending (c : Chip) (s : StripeEnt) (j : Nat) : Bool :=
  c.ftm.mapRecs.any (fun r => match r.rebuilt with
    | some (k, seid, strip, _) => k == s.cohort && seid == s.seid && strip == j
    | none => false)

/-- A map record of a strip on a new shelf (R327, R339). -/
def Chip.recordRebuilt (c : Chip) (s : StripeEnt) (j str : Nat) : Chip :=
  let rsn := c.ing.nextRsn
  let c := c.append .other
  let r : MapRec := { rsn := rsn, epoch := c.epoch, fromPeer := false, nsid := 0, slba := 0, blocks := 0, places := [], codes := 0, tags := [],
                      rebuilt := some (s.cohort, s.seid, j, str) }
  { c with ftm := { c.ftm with mapRecs := c.ftm.mapRecs ++ [r] } }

/-- The content of a strip at an offset, zeros where it is lost (R330). -/
def Chip.stripContent (c : Chip) (s : StripeEnt) (j i : Nat) : List Byte :=
  match c.recovered s i with
  | some l => (l.getD j []).map (BitVec.ofNat 8)
  | none => List.replicate 16384 0#8

/-- R20, R325: an evacuation that finds no other cohort awake asks for one that holds the class, the lowest. -/
def Chip.askEvacuation (c : Chip) (s : StripeEnt) : Chip :=
  match (List.range 8).find? (fun k => k != s.cohort && c.cohortHolds k s.cls) with
  | some k => if c.rdeCtl R.RDE_MAINT_CTRL_EVACUATE = 1 then
      ({ c with rde := { c.rde with evac := some (s.cohort, k) } } : Chip).askCohort k 2 else c
  | none => c

/-- The strip of a stripe that is rebuilt next. -/
def Chip.missingStrip (c : Chip) (s : StripeEnt) : Option Nat :=
  (List.range (c.stripeWidth s)).find? (fun j => bitOf s.missing j && !c.rebuildPending s j)

/-- Whether a stripe may be rebuilt now: a strip is missing, its cohort is awake, compaction has not taken it (R329), this head tends it (R326), and no
offset waits for a shelf that is absent for the moment (R330). -/
def Chip.rebuildable (c : Chip) (s : StripeEnt) : Bool :=
  (c.missingStrip s).isSome && c.cohortAwake s.cohort && s.state == 2 && !s.compacting && c.tends s.seid &&
  !(List.range (c.layoutOf s.cls).pages).any (fun i => (c.recovered s i).isNone && !c.offsetLost s i)

/-- R324: a stripe's margin: its tolerance less the strips that are missing or on shelves out of service. -/
def Chip.margin (c : Chip) (s : StripeEnt) : Nat :=
  (c.layoutOf s.cls).tolerance - ((List.range (c.stripeWidth s)).filter (fun j => bitOf s.missing j || (match c.stripShelf s j with
    | some sh => (c.shelf sh).state == 5
    | none => true))).length

/-- A stripe's place in the order of the rebuild (R326): margin 0, then the others, each in ascending SEID. -/
def Chip.rebuildRank (c : Chip) (s : StripeEnt) : Nat := (if c.margin s = 0 then 0 else 2 ^ 40) + s.seid * 8 + s.cohort

/-- Whether a reported page can be repaired now, or is lost (R334). -/
def Chip.repairable (c : Chip) (e : Nat × Nat × Nat) : Bool :=
  c.cohortAwake e.1 && (c.stripe e.1 e.2.1).any (fun s => c.offsetLost s (e.2.2 % 1024) || (c.repaired s (e.2.2 / 1024) (e.2.2 % 1024)).isSome)

/-- R326, R334: whether a stripe's turn has come: no stripe before it has a target, and no repair waits. -/
def Chip.rebuildTurn (c : Chip) (s : StripeEnt) : Bool :=
  !c.rde.repairs.any c.repairable &&
  c.ftm.stripes.all (fun x => decide (c.rebuildRank s ≤ c.rebuildRank x) || !c.rebuildable x ||
    c.rebuildTarget x ((c.missingStrip x).getD 0) == .none)

/-- REBUILD_STRIPE (R325 to R328, R330). -/
def rebuildStripe (k seid : Nat) (c : Chip) : Chip :=
  match c.stripe k seid with
  | none => c
  | some s =>
    match c.missingStrip s with
    | none => c
    | some j =>
      let n := (c.layoutOf s.cls).pages
      if !c.isDay || !c.rebuildable s || !c.rebuildTurn s then c
      else
        match c.rebuildTarget s j with
        | .none => (c.set R.RDE_STATUS_WAITING 1).askEvacuation s
        | .evacuate k2 =>
          let c := (c.set R.RDE_STATUS_WAITING 0).modStripe k seid (fun s => { s with compacting := true })
          s.liveRecs.foldl (fun d r => d.copyRec s r s.cls (some k2) 0) c
        | .shelf sh str =>
          let c := c.set R.RDE_STATUS_WAITING 0
          let c := (List.range n).foldl (fun d i => if d.offsetLost s i then d.losePages s i 1 else d) c
          let use := if c.margin s = 0 then 4 else 3
          c.usedFor use (fun c => match c.writeStrip sh s (fun i => c.stripContent s j i) with
            | some d => d.recordRebuilt s j str
            | none => c)

/-! ### Repair -/

/-- A page's right content programmed into the relocation band of its shelf. -/
def Chip.rewrite (c : Chip) (s : StripeEnt) (j i : Nat) (data : List Byte) : Chip :=
  match c.stripShelf s j with
  | some sh => c.movePages sh s.seid [(i, data)] []
  | none => c

/-- A reported page taken off the list. -/
def Chip.dropRepair (c : Chip) (e : Nat × Nat × Nat) : Chip :=
  { c with rde := { c.rde with repairs := c.rde.repairs.filter (· != e) } }

/-- REPAIR_PAGE (R334): recovered and rewritten, or lost. A page whose right content is not to be had stays reported. -/
def repairPage (k seid strip page : Nat) (c : Chip) : Chip :=
  let e := (k, seid, strip * 1024 + page)
  match c.stripe k seid with
  | none => c.dropRepair e
  | some s =>
    if !c.rde.repairs.contains e || !c.cohortAwake k then c
    else if c.offsetLost s page then (c.losePages s page 2).dropRepair e
    else
      match c.repaired s strip page with
      | none => c
      | some data => ((c.usedFor 3 (fun c => c.rewrite s strip page data)).bump R.RDE_CNT_REPAIRED_PAGES 1).dropRepair e

/-! ### Scrub -/

/-- A cohort's scrub cursor and the end of its last pass. -/
def Chip.scrubOf (c : Chip) (k : Nat) : Nat × Nat := ((c.rde.scrub.find? (fun e => e.1 == k)).map (·.2)).getD (0, 0)

/-- A cohort's scrub cursor set. -/
def Chip.setScrub (c : Chip) (k cursor pass : Nat) : Chip :=
  let active := (c.rde.scrubActive.filter (· != k)) ++ (if cursor = 0 then [] else [k])
  ({ c with rde := { c.rde with
      scrub := c.rde.scrub.filter (fun e => e.1 != k) ++ [(k, cursor, pass)]
      scrubActive := active } } : Chip).setFlag R.RDE_STATUS_SCRUBBING (!active.isEmpty)

/-- Byte offsets within a page at which parity, or a mirror's copies, differ. -/
def differsAt (l : LayoutEnt) (ps : List PageGet) : List Nat :=
  let bytes := ps.map PageGet.bytes
  let off := fun (a b : List Nat) => (List.range 16384).filter (fun x => a.getD x 0 != b.getD x 0)
  if l.mirror then (bytes.drop 1).flatMap (fun b => off (bytes.headD []) b)
  else
    let data := bytes.take l.dataStrips
    off (parityP 16384 data) (bytes.getD l.dataStrips []) ++
      (if l.tolerance = 2 then off (parityQ 16384 data) (bytes.getD (l.dataStrips + 1) []) else [])

/-- The strip that explains every difference at an offset (R320). -/
def locateAt (l : LayoutEnt) (ps : List PageGet) : Nat :=
  let bytes := ps.map PageGet.bytes
  let data := bytes.take l.dataStrips
  locateStrip l.dataStrips (addStrip (parityP 16384 data) (bytes.getD l.dataStrips []))
    (addStrip (parityQ 16384 data) (bytes.getD (l.dataStrips + 1) []))

/-- Whether a record occupies one of the byte offsets of a page offset. -/
def RecEnt.onOffsets (r : RecEnt) (i : Nat) (xs : List Nat) : Bool :=
  xs.any (fun x => decide (r.ofs * 64 ≤ i * 16384 + x) && decide (i * 16384 + x < (r.ofs + r.bytes) * 64))

/-- A strip's page at an offset recovered as though it were bad, and rewritten. -/
def Chip.repairStrip (c : Chip) (s : StripeEnt) (ps : List PageGet) (i j : Nat) : Chip :=
  match recoverOffset (c.layoutOf s.cls) (ps.set j .gone) with
  | some l => (c.rewrite s j i ((l.getD j []).map (BitVec.ofNat 8))).bump R.RDE_CNT_REPAIRED_PAGES 1
  | none => c

/-- The parity pages of an offset written afresh (R337). -/
def Chip.rewriteParity (c : Chip) (s : StripeEnt) (ps : List PageGet) (i : Nat) : Chip :=
  let l := c.layoutOf s.cls
  let data := (ps.map PageGet.bytes).take l.dataStrips
  (List.range l.tolerance).foldl (fun d t =>
    (d.rewrite s (l.dataStrips + t) i (stripOut (if t = 0 then parityP 16384 data else parityQ 16384 data))).bump
      R.RDE_CNT_PARITY_REWRITTEN_REWRITTEN 1) c

/-- Whether a record as it reads from strip `j` (of a mirror, from copy `j`) fails its tag: every page of it is good there, and the key of its slot is
held (R323). -/
def Chip.recordFails (c : Chip) (s : StripeEnt) (j : Nat) (r : RecEnt) : Bool :=
  !r.lost && (({ r with strip := 0 } : RecEnt).bytesFrom (fun i =>
    let p := c.getPage s j i
    if p.isGood then some [p.bytes] else none)).any (fun bs => c.tagVerifies bs == some false)

/-- Table 10-10 at one offset whose pages are all good. `fails` says of a strip, or a mirror's copy, and a record whether its tag fails there. -/
def Chip.scrubOffset (c : Chip) (s : StripeEnt) (fails : Nat → RecEnt → Bool) (i : Nat) : Chip :=
  let l := c.layoutOf s.cls
  let ps := c.offsetAt s i
  if !(ps.all PageGet.isGood) || (List.range l.dataStrips).any (fun j => c.pageLost s.cohort s.seid j i) then c
  else
    match differsAt l ps with
    | [] => c
    | xs =>
      let z := if l.tolerance = 2 then locateAt l ps else 0xFF
      let here := s.recs.filter (fun r => r.onOffsets i xs && (l.dataStrips ≤ z || r.strip == z) && fails r.strip r)
      let copies := List.range ps.length
      let wrong := copies.filter (fun j => s.recs.any (fun r => r.onOffsets i xs && fails j r))
      let failing := if l.mirror then !wrong.isEmpty else !here.isEmpty
      let c := c.bump R.RDE_CNT_SCRUB_MISMATCH_MISMATCH 1
      let c := c.event 0x203 s.cohort s.seid (if failing then 2 else 1) 0 i
      if l.mirror then
        match copies.find? (fun j => !wrong.contains j) with
        | none => c
        | some good => (if failing then wrong else copies).foldl (fun d j =>
            if (ps.getD j .gone).bytes = (ps.getD good .gone).bytes then d
            else (d.rewrite s j i (stripOut (ps.getD good .gone).bytes)).bump R.RDE_CNT_PARITY_REWRITTEN_REWRITTEN 1) c
      else if here.isEmpty then c.rewriteParity s ps i
      else (here.map (·.strip)).eraseDups.foldl (fun d j => d.repairStrip s ps i j) c

/-- R336: a page that needs refresh is moved, alone or with its extent (R277). -/
def Chip.refreshPages (c : Chip) (s : StripeEnt) (j : Nat) : Chip :=
  match c.stripShelf s j with
  | none => c
  | some sh =>
    let worn := (List.range (c.layoutOf s.cls).pages).filter (fun i => decide (c.rdeCtl R.RDE_SCRUB_CTRL_REFRESH_BITS ≤ (c.getPage s j i).corr))
    if worn.isEmpty || c.zeroStrip s j then c
    else if bitOf (c.layoutOf s.cls).opts 2 then
      c.movePages sh s.seid [] (worn.filterMap (fun i => (c.shelf sh).ppaOf s.seid i))
    else c.moveExtent sh s.seid []

/-- SCRUB_STRIPE (R335 to R337): the stripe at the cohort's cursor. -/
def scrubStripe (k : Nat) (c : Chip) : Chip :=
  if !c.cohortAwake k then c
  else
    let p := c.scrubOf k
    let mine := c.ftm.stripes.filter (fun s => s.cohort == k && s.state == 2 && c.tends s.seid && decide (p.1 ≤ s.seid))
    match mine.foldl (fun (o : Option StripeEnt) s => match o with
      | none => some s
      | some b => if s.seid < b.seid then some s else some b) none with
    | none => c.setScrub k 0 c.now
    | some s =>
      let w := c.stripeWidth s
      let n := (c.layoutOf s.cls).pages
      let fails := c.recordFails s
      let found := (List.range w).flatMap (fun j => ((List.range n).filter (fun i => c.getPage s j i == .gone && !bitOf s.missing j)).map (fun i => (j, i)))
      let c := found.foldl (fun d e => d.report k s.seid e.1 e.2) (c.bump R.FTM_CNT_READS_READS (w * n))
      let c := c.usedFor 5 (fun c => (List.range w).foldl (fun d j => d.refreshPages s j) ((List.range n).foldl (fun d i => d.scrubOffset s fails i) c))
      let c := c.bump R.RDE_CNT_SCRUBBED_SCRUBBED 1
      if mine.length = 1 then c.setScrub k 0 c.now else c.setScrub k (s.seid + 1) p.2

/-- SCRUB_AGE_REQUEST (R338). -/
def scrubAgeRequest (k : Nat) (c : Chip) : Chip :=
  let days := c.rdeCtl R.RDE_SCRUB_CTRL_MAX_DAYS
  if days = 0 || c.cohortAwake k || (c.cohortShelves k).isEmpty || decide (c.now ≤ (c.scrubOf k).2 + days * 86400000000000) then c
  else c.askCohort k 2

-- EXEC stripeCompaction bandCompaction rebuildGraceTimeout rebuildStripe repairPage scrubStripe scrubAgeRequest

/-- STRIPE_COMPACTION (R301). -/
def execStripeCompaction (c : Cohort) (s : State) : Host.Outcome State Fault Refusal :=
  s.runAwake (decide (c < 8)) (stripeCompaction c)

/-- BAND_COMPACTION (R302). -/
def execBandCompaction (sh : Shelf) (s : State) : Host.Outcome State Fault Refusal :=
  s.runAwake (decide (sh < 128)) (bandCompaction sh)

/-- REBUILD_GRACE_TIMEOUT (R324). -/
def execRebuildGraceTimeout (sh : Shelf) (s : State) : Host.Outcome State Fault Refusal :=
  s.runAwake (decide (sh < 128)) (rebuildGraceTimeout sh)

/-- REBUILD_STRIPE (R327). -/
def execRebuildStripe (c : Cohort) (seid : Nat) (s : State) : Host.Outcome State Fault Refusal :=
  s.runAwake (decide (c < 8)) (rebuildStripe c seid)

/-- REPAIR_PAGE (R334). -/
def execRepairPage (c : Cohort) (seid : Nat) (strip : Nat) (page : Nat) (s : State) : Host.Outcome State Fault Refusal :=
  s.runAwake (decide (c < 8)) (repairPage c seid strip page)

/-- SCRUB_STRIPE (R336). -/
def execScrubStripe (c : Cohort) (s : State) : Host.Outcome State Fault Refusal :=
  s.runAwake (decide (c < 8)) (scrubStripe c)

/-- SCRUB_AGE_REQUEST (R338). -/
def execScrubAgeRequest (c : Cohort) (s : State) : Host.Outcome State Fault Refusal :=
  s.runAwake (decide (c < 8)) (scrubAgeRequest c)

-- END EXEC

end Sys2Proof.Machine
end

