-- ==== Sys2Proof/Machine/Reshape.lean ====
section
/-!
DEFINITION. Reshape (R339 to R344).
-/
namespace Sys2Proof.Machine

/-- RDE_RESHAPE_ARG as a number (Table 10-14). -/
def Chip.reshapeArg (c : Chip) : Nat :=
  c.get R.RDE_RESHAPE_ARG_SCOPE + 2 ^ 2 * c.get R.RDE_RESHAPE_ARG_MODE + 2 ^ 4 * c.get R.RDE_RESHAPE_ARG_SRC_COHORT +
  2 ^ 8 * c.get R.RDE_RESHAPE_ARG_DST_COHORT + 2 ^ 16 * c.get R.RDE_RESHAPE_ARG_DST_CLASS + 2 ^ 24 * c.get R.RDE_RESHAPE_ARG_SHELF +
  2 ^ 32 * c.get R.RDE_RESHAPE_ARG_NSID + 2 ^ 48 * c.get R.RDE_RESHAPE_ARG_BATCH

/-- A reshape as an ARG describes it. -/
def reshapeOf (arg opid : Nat) : Reshape :=
  { scope := bitsOf arg 0 2, mode := bitsOf arg 2 2, src := bitsOf arg 4 3, dst := bitsOf arg 8 3, cls := bitsOf arg 16 5,
    shelf := bitsOf arg 24 7, nsid := bitsOf arg 32 13, batch := bitsOf arg 48 16, opid := opid }

/-- A record that a namespace's placement entries name. -/
def Chip.namedBy (c : Chip) (nsid loc : Nat) : Bool := c.ftm.places.any (fun e => e.nsid == nsid && e.locator == loc)

/-- The records of a stripe that a reshape moves. -/
def Chip.reshapeRecs (c : Chip) (r : Reshape) (s : StripeEnt) : List RecEnt :=
  if r.scope = 2 then s.liveRecs.filter (fun x => c.namedBy r.nsid (c.recLocator s x)) else s.liveRecs

/-- Whether a reshape concerns a stripe (Table 10-11). -/
def Chip.reshapes (c : Chip) (r : Reshape) (s : StripeEnt) : Bool :=
  s.state == 2 && !s.compacting && !s.shadow && s.stripsLeft == 0 &&
  (match r.scope with
   | 1 => s.cohort == (c.shelfEnt r.shelf).cohort && s.map.contains (c.strOf r.shelf)
   | 2 => s.cls != r.cls && !(c.reshapeRecs r s).isEmpty
   | 3 => s.cohort == r.src
   | _ => false)

/-- The stripes that this head still has to move, in ascending SEID. -/
def Chip.reshapeLeft (c : Chip) (r : Reshape) : List StripeEnt :=
  ((c.ftm.stripes.filter (fun s => c.reshapes r s && c.tends s.seid)).foldl (fun (l : List (Nat × StripeEnt)) s => Sparse.place s.seid s l) []).map (·.2)

/-- Those of them that have not been copied beside the old layout either. -/
def Chip.reshapeTodo (c : Chip) (r : Reshape) : List StripeEnt :=
  (c.reshapeLeft r).filter (fun s => !c.ftm.copies.any (fun e => e.2.2 == 2 && locCohort e.1 == s.cohort && locSeid e.1 == s.seid))

/-- R325, R339: a shelf of the cohort that a stripe of scope 1 leaves unused. -/
def Chip.reshapeShelf (c : Chip) (r : Reshape) (s : StripeEnt) : Option Nat :=
  (c.cohortShelves s.cohort).find? (fun sh => sh != r.shelf && c.eligible sh && (c.shelf sh).state == 3 && !s.map.contains (c.strOf sh))

/-- The class and cohort that a stripe's records go to. -/
def Chip.reshapeDest (_c : Chip) (r : Reshape) (s : StripeEnt) : Nat × Option Nat :=
  if r.scope = 2 then (r.cls, none) else (s.cls, some r.dst)

/-- The cohorts that a reshape needs awake for what it does next (R339, R343). -/
def Chip.reshapeCohorts (c : Chip) (r : Reshape) : List Nat :=
  match r.scope with
  | 1 =>
    let k := (c.shelfEnt r.shelf).cohort
    if k != r.dst && (c.reshapeTodo r).any (fun s => (c.reshapeShelf r s).isNone || r.mode != 2) then [k, r.dst] else [k]
  | 2 => (((c.reshapeTodo r).find? (fun s => c.cohortAwake s.cohort)).orElse (fun _ => (c.reshapeTodo r).head?)).toList.map (·.cohort)
  | _ => [r.src, r.dst]

/-- R343: the cohorts of a reshape that sleep are asked for at the lowest priority. -/
def Chip.askReshape (c : Chip) (r : Reshape) : Chip :=
  ((c.reshapeCohorts r).filter (fun k => !c.cohortAwake k)).foldl (fun d k => d.askCohort k 2) c

/-- R340: the needed space: the LIVE of the stripes to be moved, scaled by w / k of the destination class. -/
def Chip.reshapeNeed (c : Chip) (r : Reshape) : Nat :=
  sumOf ((c.ftm.stripes.filter (c.reshapes r)).map (fun s =>
    let l := c.layoutOf (c.reshapeDest r s).1
    s.live * 64 * l.width / max 1 l.dataStrips))

/-- The free bytes of a cohort beyond FTM_RESERVE bands on every shelf. -/
def Chip.rawFree (c : Chip) (k : Nat) : Nat :=
  sumOf (((c.cohortShelves k).filter c.eligible).map (fun sh => c.freeExtents false 20 sh * 1048576))

/-- R340: whether the destination has room for a reshape beside the old layout. -/
def Chip.roomBeside (c : Chip) (r : Reshape) : Bool :=
  let k := if r.scope = 2 then c.ingestCohort else some r.dst
  match k with
  | some k => decide (c.reshapeNeed r * 5 ≤ c.rawFree k * 4)
  | none => false

/-- R340: MODE 0 chooses beside where there is room. -/
def Chip.reshapeMode (c : Chip) (r : Reshape) : Reshape := { r with mode := if r.mode = 0 then (if c.roomBeside r then 1 else 2) else r.mode }

/-- Table 10-11: the code with which a START's arguments are refused. -/
def Chip.reshapeBad (c : Chip) (r : Reshape) : Option Nat :=
  match r.scope with
  | 1 =>
    let e := c.shelfEnt r.shelf
    if !e.present || e.cohort == catalogueCohort then some 2 else none
  | 2 =>
    let n := c.nsOf r.nsid
    if !n.present then some 2
    else if !bitOf (c.tenantOf n.owner).clsMask r.cls || !(List.range 8).any (fun k => c.cohortHolds k r.cls) then some 3 else none
  | 3 =>
    if r.src = r.dst then some 2
    else if (c.ftm.stripes.filter (fun s => s.cohort == r.src && s.state == 2)).any (fun s => !c.cohortHolds r.dst s.cls) then some 3 else none
  | _ => some 2

/-- The reshape's end: VALID with CODE (R15). -/
def Chip.endReshape (c : Chip) (code : Nat) : Chip :=
  (({ c with rde := { c.rde with reshape := none } } : Chip).set R.RDE_RESHAPE_STATUS_STATE 0).postResult R.RDE_RESHAPE_STATUS_VALID
    [(R.RDE_RESHAPE_STATUS_CODE, code)]

/-- The end of a START of this head that moves nothing: the outcome of the reshape before it is released (R15). -/
def Chip.endStart (c : Chip) (code : Nat) : Chip := (c.startOp R.RDE_RESHAPE_STATUS_VALID).endReshape code

/-- A refused START. -/
def Chip.refuseReshape (c : Chip) : Chip :=
  (c.setAll [(R.RDE_RESHAPE_STATUS_REFUSED, 1), (R.RDE_RESHAPE_STATUS_REFUSE_CODE, 1)]).refusedCommand R.RDE_RESHAPE_CMD_CMD

/-- A reshape begun on both heads. For scope 2 new writes use DST_CLASS, and Identify Namespace shows
it (R339). -/
def Chip.beginReshape (c : Chip) (r : Reshape) : Chip :=
  let c := { c with rde := { c.rde with reshape := some { r with running := true } } }
  let c := if r.scope = 2 then
      let n := c.nsOf r.nsid
      { c with nvm := { c.nvm with ns := Sparse.set {} c.nvm.ns r.nsid { n with cls := r.cls, clsGiven := r.cls } } }
    else c
  (c.setAll [(R.RDE_RESHAPE_STATUS_STATE, r.mode), (R.RDE_RESHAPE_PROG_CHECKPOINT, 0), (R.RDE_RESHAPE_PROG_DONE, 0)]).askReshape r

/-- A reshape begun by this head's START, agreed or alone: VALID clears (R339). -/
def Chip.beginOwnReshape (c : Chip) (r : Reshape) : Chip := (c.startOp R.RDE_RESHAPE_STATUS_VALID).beginReshape r

/-- RDE_RESHAPE_CMD START (R339, R340): agreed with the peer when it is in service. -/
def reshapeStart (c : Chip) : Chip :=
  let r := reshapeOf c.reshapeArg 0
  if c.rde.reshape.isSome then c.refuseReshape
  else
    match c.reshapeBad r with
    | some code => c.endStart code
    | none =>
      if r.mode = 1 && !c.roomBeside r then c.endStart 4
      else
        let r := c.reshapeMode r
        if c.peerIn then
          let (c, opid) := c.propose (.reshape c.reshapeArg)
          { c with rde := { c.rde with reshape := some { r with opid := opid } } }
        else c.beginOwnReshape r

/-- The stripes a reshape wrote beside the old layout freed (R344). -/
def Chip.freeShadow (c : Chip) : Chip :=
  let c := (c.ftm.stripes.filter (·.shadow)).foldl (fun d s => d.freeStripe s) c
  { c with ing := { c.ing with stripes := c.ing.stripes.filter (fun s => !s.shadow) } }

/-- Copies of a kind not yet recorded are released. -/
def Chip.dropCopies (c : Chip) (kind : Nat) : Chip :=
  let c := (c.ftm.copies.filter (fun e => e.2.2 == kind)).foldl (fun d e => d.releaseRec e.2.1) c
  { c with ftm := { c.ftm with copies := c.ftm.copies.filter (fun e => e.2.2 != kind) } }

/-- RDE_RESHAPE_CMD ABORT (R344). -/
def reshapeAbort (c : Chip) : Chip :=
  match c.rde.reshape with
  | none => c
  | some r =>
    if !r.running then c
    else if r.mode = 1 then ((c.dropCopies 2).freeShadow).endReshape 6
    else
      let ss := modifyAll (fun (s : StripeEnt) => c.tends s.seid && r.top.any (fun t => s.seid ≤ t) && s.compacting)
        (fun s => { s with compacting := s.recs.all (fun x => x.live == 0) }) c.ftm.stripes
      (({ c with ftm := { c.ftm with stripes := ss } } : Chip).dropCopies 1).endReshape 6

/-- Whether a reshape's cohorts are awake (R343). -/
def Chip.reshapeAwake (c : Chip) (r : Reshape) : Bool := (c.reshapeCohorts r).all c.cohortAwake

/-- One stripe of a reshape moved: its strip copied to an unused shelf (scope 1), or its records copied. -/
def Chip.reshapeStripe (c : Chip) (r : Reshape) (s : StripeEnt) (kind : Nat) : Chip :=
  let strip := match r.scope, s.map.idxOf? (c.strOf r.shelf), c.reshapeShelf r s with
    | 1, some j, some sh => if kind = 1 && !c.rebuildPending s j then some (j, sh) else none
    | _, _, _ => none
  match strip with
  | some (j, sh) =>
    match c.writeStrip sh s (fun i => c.stripContent s j i) with
    | some d => d.recordRebuilt s j (d.strOf sh)
    | none => c
  | none =>
    let recs := c.reshapeRecs r s
    let dest := c.reshapeDest r s
    let n := c.ftm.copies.length
    let c := recs.foldl (fun d x => d.copyRec s x dest.1 dest.2 kind) c
    let c := c.bump R.RDE_CNT_RESHAPED_MOVED (c.ftm.copies.length - n)
    if kind = 1 && recs.length == s.liveRecs.length then c.modStripe s.cohort s.seid (fun s => { s with compacting := true }) else c

/-- A reshape changed. -/
def Chip.modReshape (c : Chip) (f : Reshape → Reshape) : Chip := { c with rde := { c.rde with reshape := c.rde.reshape.map f } }

/-- RESHAPE_BATCH_COPIED (R342): the next batch with a moving boundary. One batch is copied at a time. -/
def reshapeBatchCopied (c : Chip) : Chip :=
  match c.rde.reshape with
  | none => c
  | some r =>
    if !r.running || r.mode ≠ 2 || r.top.isSome || !c.reshapeAwake r || !c.isDay then c
    else
      let batch := ((c.reshapeTodo r).filter (fun s => c.cohortAwake s.cohort)).take r.batch
      match batch.getLast? with
      | none => c
      | some last =>
        let lost := batch.any (fun s => s.recs.any (fun x => x.lost && x.live != 0))
        let c := batch.foldl (fun d s => d.reshapeStripe r s 1) (c.set R.RDE_RESHAPE_STATUS_STATE 2)
        c.modReshape (fun r => { r with top := some last.seid, count := batch.length, lostLeft := r.lostLeft || lost })

/-- The shadow placements of the copies made: each live entry that names a copied record, with the copy's locator (R341). -/
def Chip.shadowLog (c : Chip) : List (PlaceEnt × Nat) :=
  (c.ftm.copies.filter (fun e => e.2.2 == 2)).flatMap (fun m =>
    (c.ftm.places.filter (fun e => e.locator == m.1)).map (fun e => ({ e with locator := m.2.1 }, m.1)))

/-- RESHAPE_COPY_DONE (R341): the records of awake cohorts copied into stripes marked SHADOW; once every record has been copied, the switch epoch is the
open epoch plus 2. Where stripes of sleeping cohorts are left, those are asked for (R343). -/
def reshapeCopyDone (c : Chip) : Chip :=
  match c.rde.reshape with
  | none => c
  | some r =>
    if !r.running || r.mode ≠ 1 || r.switchAt.isSome || !c.reshapeAwake r || !c.isDay then c
    else
      let ss := (c.reshapeTodo r).filter (fun s => c.cohortAwake s.cohort)
      let asleep := (c.reshapeTodo r).any (fun s => !c.cohortAwake s.cohort)
      let lost := ss.any (fun s => s.recs.any (fun x => x.lost && x.live != 0))
      let c := ss.foldl (fun d s => d.reshapeStripe r s 2) c
      let c := (c.ing.stripes.filter (·.shadow)).foldl (fun d os => d.sealStripe os os.strips) c
      let c := c.modReshape (fun r => { r with lostLeft := r.lostLeft || lost, count := r.count + ss.length })
      if asleep then c.askReshape r
      else
        let log := c.shadowLog
        (c.modReshape (fun r => { r with shadow := log, switchAt := some (c.epoch + 2) })).set R.RDE_RESHAPE_STATUS_STATE 3

/-- R341: one shadow entry at the switch: it replaces the live entry that still names the record copied. -/
def Chip.applyShadow (c : Chip) (e : PlaceEnt × Nat) : Chip :=
  let live := { e.1 with locator := e.2 }
  if c.ftm.places.contains live then
    let places := modifyFirst (fun (x : PlaceEnt) => x == live) (fun _ => e.1) c.ftm.places
    let c := { c with ftm := { c.ftm with places := places } }
    (upFrom (e.1.window * 16384 + e.1.start) e.1.count).foldl (fun d lba => d.setIndex e.1.nsid lba (locCohort e.1.locator)) c
  else c

/-- The switch of a reshape beside the old layout at its Midnight: the shadow log applied, the catalogue told, SHADOW cleared. -/
def Chip.switchReshape (c : Chip) : Chip :=
  match c.rde.reshape with
  | none => c
  | some r =>
    let c := r.shadow.foldl (fun d e => d.applyShadow e) c
    let moves := c.ftm.copies.filter (fun e => e.2.2 == 2)
    let c := { c with ftm := { c.ftm with copies := c.ftm.copies.filter (fun e => e.2.2 != 2) } }
    let c := moves.foldl (fun d m =>
      let d := match d.recOf m.1, d.stripe (locCohort m.1) (locSeid m.1) with
        | some x, some s => if x.live = 2 then d.applyCat true (.relocate x.fp x.dom s.cls m.1 m.2.1) else d
        | _, _ => d
      d.applyMove m.1 m.2.1) c
    let done := fun (s : StripeEnt) => c.tends s.seid && moves.any (fun m => locCohort m.1 == s.cohort && locSeid m.1 == s.seid)
    let ss := c.ftm.stripes.map (fun s => { s with shadow := false, compacting := s.compacting || (done s && s.recs.all (fun x => x.live == 0)) })
    let n := r.count
    (({ c with ftm := { c.ftm with stripes := ss } } : Chip).bump R.RDE_RESHAPE_PROG_DONE n).endReshape (if r.lostLeft then 7 else 0)

/-- What a Midnight does to a reshape: the checkpoint of a batch all of whose records are moved, the switch, and the end. -/
def Chip.reshapeMidnight (c : Chip) (epoch : Nat) : Chip :=
  match c.rde.reshape with
  | none => c
  | some r =>
    if !r.running then c
    else if r.mode = 1 then
      match r.switchAt with
      | none => c
      | some e =>
        if epoch < e then c
        else if c.ftm.stripes.any (fun s => s.shadow && s.stripsLeft != 0) then c.modReshape (fun r => { r with switchAt := some (epoch + 1) })
        else c.switchReshape
    else
      let c := match r.top with
        | none => c
        | some t =>
          if c.ftm.copies.any (fun e => e.2.2 == 1) || c.ftm.mapRecs.any (fun m => !m.moves.isEmpty || m.rebuilt.isSome) then c
          else ((c.set R.RDE_RESHAPE_PROG_CHECKPOINT t).bump R.RDE_RESHAPE_PROG_DONE r.count).modReshape (fun r => { r with top := none, count := 0 })
      match c.rde.reshape with
      | some r => if r.top.isNone && (c.reshapeLeft r).isEmpty then c.endReshape (if r.lostLeft then 7 else 0) else c
      | none => c

-- EXEC reshapeStart reshapeAbort reshapeBatchCopied reshapeCopyDone

/-- RESHAPE_START (R339). -/
def execReshapeStart (s : State) : Host.Outcome State Fault Refusal :=
  s.runBar2 true true R.RDE_RESHAPE_CMD_CMD reshapeStart

/-- RESHAPE_ABORT (R344). -/
def execReshapeAbort (s : State) : Host.Outcome State Fault Refusal :=
  s.runBar2 true true R.RDE_RESHAPE_CMD_CMD reshapeAbort

/-- RESHAPE_BATCH_COPIED (R342). -/
def execReshapeBatchCopied (s : State) : Host.Outcome State Fault Refusal :=
  s.runAwake true reshapeBatchCopied

/-- RESHAPE_COPY_DONE (R341). -/
def execReshapeCopyDone (s : State) : Host.Outcome State Fault Refusal :=
  s.runAwake true reshapeCopyDone

-- END EXEC

end Sys2Proof.Machine
end

