-- ==== Sys2Proof/Machine/Cohort.lean ====
section
/-!
DEFINITION. Shelves in and out of service, and the cohort switch (R178 to R180, R284, R291, R297, R324, R329, R509, R510, R624).
-/
namespace Sys2Proof.Machine

/-! ### Shelves in and out of service -/

/-- Whether each catalogue shelf is in service; CMP_STATUS.CAT_DEGRADED while one is not (R327). What waited for the caps goes on (R147), and classes
that have found room end their stretches (R165). -/
def Chip.setCatalogue (c : Chip) : Chip :=
  let l := c.catShelves
  let up := fun i => match l[i]? with
    | some sh => (c.shelf sh).state == 3
    | none => false
  let c := ({ c with ing := { c.ing with cat0Up := up 0, cat1Up := up 1 } } : Chip).setFlag R.CMP_STATUS_CAT_DEGRADED (!(up 0 && up 1))
  c.unblockClasses.settle

/-- R324: a shelf leaves service: it is absent from now on, and stripes not yet programmed leave it (R315). -/
def Chip.leaveService (c : Chip) (sh : Nat) : Chip :=
  if (c.shelf sh).state = 5 then c
  else ((c.modShelf sh (fun s => { s with state := 5, absentSince := some c.now, wakeAt := none, parkAt := none })).repackShelf sh).setCatalogue

/-- R329: a shelf returns: stripes not yet rebuilt use it again, and its extents of stripes that no longer name it are freed. -/
def Chip.reclaimShelf (c : Chip) (sh : Nat) : Chip :=
  let k := (c.shelfEnt sh).cohort
  let str := c.strOf sh
  let ss := modifyAll (fun (s : StripeEnt) => s.cohort == k && s.map.contains str)
    (fun s => { s with missing := clearBit s.missing ((s.map.idxOf? str).getD 0) }) c.ftm.stripes
  let c := { c with ftm := { c.ftm with stripes := ss } }
  let stale := ((c.shelf sh).map.map (·.1)).filter (fun seid => match c.stripe k seid with
    | some s => !s.map.contains str
    | none => true)
  (stale.foldl (fun d seid => d.freeExtent sh seid) c).setDegraded

/-- The largest `n` up to `k` with 2^n × 17 ≤ `pages` × 16, 0 for none. -/
def nbFor (pages : Nat) : Nat → Nat
  | 0 => 0
  | k + 1 => if 2 ^ (k + 1) * 17 ≤ pages * 16 then k + 1 else nbFor pages k

/-- R211, R212: NB of a catalogue that is first formatted on a shelf: half of what its two vault regions of 4 GiB and its metadata region leave. -/
def catalogueSize (g : Geometry) : Nat :=
  let pages := g.dies * g.planes * g.blocks * g.pages
  nbFor ((pages - 524288 - Config.catalogueMeta pages) / 2) 48

/-- A catalogue shelf about to enter service shows the catalogue: the one it holds, or one it is formatted with now (R211). -/
def Chip.openCatalogue (c : Chip) (sh : Nat) : Chip :=
  let c := if c.dd.nbLog2 = 0 then { c with dd := { c.dd with nbLog2 := catalogueSize (c.shelf sh).geo } } else c
  c.set R.CMP_DD_CAT_NB_LOG2 c.dd.nbLog2

/-- A shelf enters service (R291). A catalogue shelf too small to be formatted stays out of it (R212). -/
def Chip.enterService (c : Chip) (sh : Nat) : Chip :=
  let was := (c.shelf sh).absentSince.isSome
  let cat := (c.shelfEnt sh).cohort == catalogueCohort
  let c := if cat then c.openCatalogue sh else c
  if cat && c.dd.nbLog2 == 0 then (c.modShelf sh (fun s => { s with state := 5, wakeAt := none, parkAt := none })).setCatalogue
  else
  let c := c.modShelf sh (fun s => { s with state := 3, absentSince := none, rebuilding := false, wakeAt := none, parkAt := none })
  (if was then c.reclaimShelf sh else c).setCatalogue

/-! ### Asking for a switch -/

/-- A cohort that reads or others ask for: its number and the stamp it ranks by; requests of the lowest rank come after every read. -/
def Chip.wanted (c : Chip) : Option (Nat × Nat) :=
  let reads := c.ing.reads.filterMap (fun r => r.waits.map (fun k => (k, r.stamp)))
  let asked := (c.ftm.switchWanted.filter (fun e => e.2.2 == 0)).map (fun e => (e.1, e.2.1))
  let low := (c.ftm.switchWanted.filter (fun e => e.2.2 != 0)).map (fun e => (e.1, e.2.1))
  let oldest := fun (l : List (Nat × Nat)) => l.foldl (fun (o : Option (Nat × Nat)) e => match o with
    | none => some e
    | some b => if e.2 < b.2 || (e.2 == b.2 && decide (e.1 < b.1)) then some e else some b) none
  (oldest (reads ++ asked)).orElse (fun _ => oldest low)

/-- R178: whether the awake cohort's dwell is over; with no cohort awake there is none. -/
def Chip.dwellOver (c : Chip) : Bool := c.awakeCohorts.isEmpty || decide (c.ing.awakeSince + 2000000000 ≤ c.now)

/-! ### Wake -/

/-- COHORT_WAKE (R510): the shelves of a cohort in ascending string order, in staggered groups. Those out of service stay so. -/
def Chip.cohortWake (c : Chip) (k : Nat) : Chip :=
  let shelves := c.cohortShelves k
  let n := max 1 (c.get R.PWR_SHELF_CTRL_STAGGER_N)
  let ms := c.get R.PWR_SHELF_CTRL_STAGGER_MS
  let c := (List.range shelves.length).foldl (fun d i =>
    d.modShelf (shelves.getD i 0) (fun s => if s.state = 5 then s else { s with wakeAt := some (c.now + i / n * ms * 1000000), state := 1 })) c
  { c with ing := { c.ing with part := .wake, target := k } }

/-- R297, R624: the cohort that becomes the ingest cohort. -/
def Chip.setIngest (c : Chip) (k : Nat) : Chip := (c.set R.FTM_STATUS_INGEST k).set R.FTM_STATUS_INGEST_VALID 1

/-- Reads that waited for a cohort have its records fetched, and wait for the next one they need. -/
def Chip.readsFollow (c : Chip) : Chip :=
  let reads := c.ing.reads.map (fun r => if r.waits.isSome then { r with waits := (r.srcs.filterMap (c.sleeper r)).head? } else r)
  let d : Chip := { c with ing := { c.ing with reads := reads } }
  ((c.ing.reads.filter (fun r => r.waits.isSome)).foldl (fun (d : Chip) (r : ReadCmd) => d.startFetches r) d).settleReads

/-- The cohorts between which a reshape or an evacuation runs, two by two (R20, R325, R343). -/
def Chip.pairs (c : Chip) : List (Nat × Nat) :=
  (match c.rde.reshape with
    | some r => match c.reshapeCohorts r with
      | [a, b] => if r.running then [(a, b)] else []
      | _ => []
    | none => []) ++
  (c.rde.evac.filter (fun p => c.ftm.stripes.any (fun s => s.cohort == p.1 && s.missing != 0))).toList

/-- R20: the awake cohorts that stay awake beside a cohort that wakes: a rebuild or a reshape runs between the two. -/
def Chip.stays (c : Chip) (k : Nat) : List Nat :=
  (c.awakeCohorts.filter (fun j => c.pairs.any (fun p => p == (j, k) || p == (k, j)))).take 1

/-- R297: whether a cohort that has woken becomes the ingest cohort: no other is awake, a read asked for it, or the one before it runs low. -/
def Chip.takesIngest (c : Chip) (k : Nat) : Bool :=
  match c.ingestCohort with
  | some j => !c.cohortAwake j || c.cohortLow j || c.ing.reads.any (fun r => r.waits == some k)
  | none => true

/-- R178, R510: the Wake ends when every shelf of the target is in service or absent: it is awake, becomes the ingest cohort where R297 says so, and its
deferred log is applied. What waited for it goes on, a paused reshape too (R180, R343). -/
def Chip.wakeProgress (c : Chip) : Chip :=
  let k := c.ing.target
  let shelves := c.cohortShelves k
  if c.ing.part ≠ .wake || shelves.any (fun sh => (c.shelf sh).state == 1 || (c.shelf sh).state == 2) then c
  else
    let c := (if c.takesIngest k then c.setIngest k else c).raise R.FTM_STATUS_AWAKE k
    let c := ((c.bump R.PWR_CNT_COHORT_WAKES_COHORT_WAKES 1).applyDeferred k).checkDefer
    let c := ({ c with ftm := { c.ftm with switchWanted := c.ftm.switchWanted.filter (·.1 != k) } } : Chip).readsFollow
    let c := c.unblockClasses.settle
    let waits := c.wanted.isSome
    let c := { c with ing := { c.ing with part := if waits then .gather else .none, awakeSince := c.now, gatherAt := c.now } }
    match c.rde.reshape with
    | some r => if r.running && c.get R.RDE_RESHAPE_STATUS_STATE = 4 then
        (if c.reshapeAwake r then c.set R.RDE_RESHAPE_STATUS_STATE (if r.switchAt.isSome then 3 else r.mode) else c.askReshape r) else c
    | none => c

/-! ### Sleep -/

/-- Whether the peer's heartbeat shows a cohort awake (R509 step 4). -/
def Chip.peerSees (c : Chip) (k : Nat) : Bool := c.peerIn && (match c.zbl.peerHb with
  | some h => bitOf h.awake k
  | none => false)

/-- R509: whether every operation queued to a cohort's shelves has completed. -/
def Chip.cohortQuiet (c : Chip) (k : Nat) : Bool := !c.ftm.ops.any (fun o => (c.shelfEnt o.shelf).cohort == k)

/-- R509 steps 2 and 3: the cohort's bit no longer shows in the heartbeat; dirty pages and a new root are written on the strings this head owns. -/
def Chip.closeCohort (c : Chip) (k : Nat) : Chip :=
  (c.cohortShelves k).foldl (fun d sh =>
    if d.ownsStr (d.strOf sh) && (d.shelf sh).state == 3 then
      (((d.shelf sh).dirty.map (·.1)).foldl (fun d p => d.writeBack sh p) d).writeRoot sh
    else d) { c with ing := { c.ing with closing := c.ing.closing ++ [k] } }

/-- R509 step 4: PARK to each shelf of a cohort on the strings this head owns, once the peer no longer shows it awake. -/
def Chip.parkShelves (c : Chip) (k : Nat) : Chip :=
  if c.peerSees k then c
  else (c.cohortShelves k).foldl (fun d sh =>
    let e := d.shelfEnt sh
    if d.ownsStr e.str && (d.shelf sh).parkAt.isNone && (d.shelf sh).state != 1 && (d.shelf sh).state != 5 then
      (d.ctrlTo e.str e.pos .park).modShelf sh (fun s => { s with parkAt := some d.now })
    else d) c

/-- The next step of a cohort's Sleep, once the operations of the one before have completed (R509). -/
def Chip.sleepStep (c : Chip) (k : Nat) : Chip :=
  if !c.cohortQuiet k then c
  else
    let c := if c.ing.closing.contains k then c else c.closeCohort k
    if c.cohortQuiet k then c.parkShelves k else c

/-- Every Sleep under way goes on as far as it can. -/
def Chip.sleepSteps (c : Chip) : Chip := c.ing.sleeping.foldl (fun d k => d.sleepStep k) c

/-- COHORT_SLEEP (R509, R180): from now on the cohort is not awake (R179); open stripes are sealed and what is queued to its shelves completes; a reshape
that needs it pauses, and a rebuild or a reshape asks for it again (R329, R343). -/
def Chip.cohortSleep (c : Chip) (k : Nat) : Chip :=
  if !c.cohortAwake k then c
  else
    let c := (c.ing.stripes.filter (fun s => s.cohort == k)).foldl (fun d os => d.sealStripe os os.strips) c
    let c := { c with ing := { c.ing with sleeping := c.ing.sleeping ++ [k], part := .sleep } }
    let c := match c.rde.reshape with
      | some r => if r.running && !(c.get R.RDE_RESHAPE_STATUS_STATE = 0) && !c.reshapeAwake r then
          (c.set R.RDE_RESHAPE_STATUS_STATE 4).askReshape r else c
      | none => c
    let c := if c.ftm.stripes.any (fun s => s.cohort == k && s.missing != 0) then c.askCohort k 0 else c
    c.sleepStep k

/-- R178, R180: the switch itself: every awake cohort that does not stay goes through Sleep, then the target through Wake. -/
def Chip.beginSwitch (c : Chip) (k : Nat) : Chip :=
  let c := { c with ing := { c.ing with target := k } }
  let stay := c.stays k
  match c.awakeCohorts.filter (fun j => !stay.contains j) with
  | [] => c.cohortWake k
  | l => l.foldl (fun d j => d.cohortSleep j) c

/-- R509: a cohort is asleep when every shelf of it is; FTM records the ingest cohort's number (R293), and the Wake of the target follows once no
cohort is still in Sleep. -/
def Chip.sleepProgress (c : Chip) : Chip :=
  let done := c.ing.sleeping.filter (fun k => (c.cohortShelves k).all (fun sh => [0, 1, 5].contains (c.shelf sh).state))
  if done.isEmpty then c
  else
    let c := done.foldl (fun (d : Chip) k =>
      let d := { d with ing := { d.ing with sleeping := d.ing.sleeping.filter (· != k), closing := d.ing.closing.filter (· != k) } }
      let d := if d.ingestCohort = some k then
          ({ d with ftm := { d.ftm with ingestRecorded := some k } } : Chip).set R.FTM_STATUS_INGEST_VALID 0
        else d
      d.lower R.FTM_STATUS_AWAKE k) c
    if c.ing.sleeping.isEmpty && c.ing.part == .sleep then
      (if c.ing.target < 8 then c.cohortWake c.ing.target else { c with ing := { c.ing with part := .none } })
    else c

/-- A shelf asleep: its bridge acknowledged PARK, or did not in time. -/
def Chip.shelfAsleep (c : Chip) (sh : Nat) : Chip :=
  (c.modShelf sh (fun s => { s with state := 1, parkAt := none })).sleepProgress

/-- GATHER_END (R178): the target is the cohort of the read that has waited longest; with a peer in service it is agreed first. A head that has accepted
the peer's proposal follows it and proposes no other. -/
def gatherEnd (c : Chip) : Chip :=
  match c.wanted with
  | none => if c.ing.part = .gather then { c with ing := { c.ing with part := .none } } else c
  | some (k, stamp) =>
    if c.ing.part ≠ .gather || decide (2 ≤ c.get R.PWR_STATUS_PHASE) || !c.dwellOver || decide (c.now < c.ing.gatherAt + 20000000) then c
    else if c.peerIn then
      if (c.zbl.proposals ++ c.zbl.accepted).any (fun a => match a.body with
          | .cohort .. => true
          | _ => false) then c
      else (c.propose (.cohort k stamp)).1
    else c.beginSwitch k

/-- DWELL_END (R178): a switch that someone waits for may start. -/
def dwellEnd (c : Chip) : Chip :=
  if c.ing.part = .none && c.dwellOver && c.wanted.isSome then
    { c with ing := { c.ing with part := .gather, gatherAt := (c.wanted.map (·.2)).getD c.now } }
  else c

/-- SHELF_PAGE_IN (R291, R292, R294): the shelf is in service, or scanning where its maps do not check. -/
def shelfPageIn (sh : Nat) (rootOk mapOk : Bool) (c : Chip) : Chip :=
  if (c.shelf sh).state ≠ 2 then c
  else
    let x := c.nandOf sh
    let top := max x.lastSeq0 x.lastSeq1
    let c := c.modShelf sh (fun s => { s with geo := x.geo, maxSeq := max s.maxSeq top, seqCtr := max s.maxSeq top + 2 })
    if rootOk && mapOk then (c.enterService sh).wakeProgress
    else
      ((c.modShelf sh (fun s => { s with state := 4, wakeAt := none, scanDone := 0, scanTotal := s.bands.length })).set
        R.FTM_STATUS_SCANNING 1).wakeProgress

/-! ### Replies of the media -/

/-- MEDIA_RESPONSE (R305, R309): a reply is taken; a READ that did not decode is repeated at the next retry level. -/
def mediaResponse (tag status corr : Nat) (hdr : Option PageHdr) (data : List Byte) (c : Chip) : Chip :=
  (match c.ftm.ops.find? (fun o => o.tag == tag) with
  | none => c
  | some o =>
    let c := c.takeOp tag
    match o.op with
    | .read p level =>
      if status = 2 && decide (level < c.retryMax o.shelf) then c.mediaAgain o p (level + 1)
      else (c.mediaEnd o status hdr data).modNand o.shelf (fun x => match x.page p with
        | some g => { x with pages := Sparse.set none x.pages p (some { g with corr := corr }) }
        | none => x)
    | _ => c.mediaEnd o status hdr data : Chip).sleepSteps

/-- MEDIA_OP_TIMEOUT (R309): sent once more; then the operation fails. -/
def mediaOpTimeout (tag : Nat) (c : Chip) : Chip :=
  match c.ftm.ops.find? (fun o => o.tag == tag) with
  | none => c
  | some o =>
    if c.now < o.sentAt + c.ftmCtl R.FTM_MEDIA_CTRL_OP_TMO * 1000000 then c
    else if !o.resent then
      let ops := modifyFirst (fun (x : MediaOp) => x.tag == tag) (fun x => { x with resent := true, sentAt := c.now }) c.ftm.ops
      (({ c with ftm := { c.ftm with ops := ops } } : Chip).emit (.media tag o.shelf o.op)).resendOp o
    else
      let c := ((c.takeOp tag).bump R.FTM_CNT_TIMEOUTS_TIMEOUTS 1).event 0x1C1 (c.strOf o.shelf) (opPpa o.op) 0 o.shelf 0
      (match o.op with
      | .read .. => c.mediaEnd o 2 none []
      | .program .. => c.mediaEnd o 4 none []
      | .copy .. => c.mediaEnd o 4 none []
      | _ => c : Chip).sleepSteps

/-! ### Shelves -/

/-- PARK_TIMEOUT (R509): treated as parked after 500 ms. -/
def parkTimeout (sh : Nat) (c : Chip) : Chip :=
  match (c.shelf sh).parkAt with
  | none => c
  | some t =>
    if c.now < t + 500000000 then c
    else
      let e := c.shelfEnt sh
      (((c.event 0x303 sh sh 0 0 0).bump R.PWR_CNT_SHELF_TMO_SHELF_TMO 1).modView e.str e.pos (fun v => { v with state := 4, lend := { v.lend with session := 0 } })).shelfAsleep sh

/-- SHELF_WAKE_TIMEOUT (R510): absent after 2.5 s with no WAKE READY. -/
def shelfWakeTimeout (sh : Nat) (c : Chip) : Chip :=
  match (c.shelf sh).wakeAt with
  | none => c
  | some t =>
    if (c.shelf sh).state ≠ 1 || decide (c.now < t + 2500000000) then c
    else (((c.event 0x303 sh sh 1 0 0).bump R.PWR_CNT_SHELF_TMO_SHELF_TMO 1).leaveService sh).wakeProgress

/-- FULL_SCAN_REBUILD (R294, R295): the scanned shelf enters service. -/
def fullScanRebuild (sh : Nat) (c : Chip) : Chip :=
  let scans := (c.shelf sh).state == 4 && c.nandServes sh
  if scans then (c.fullScan sh).enterService sh else c

-- EXEC mediaResponse mediaOpTimeout gatherEnd dwellEnd fullScanRebuild shelfPageIn parkTimeout shelfWakeTimeout

/-- MEDIA_RESPONSE (R305). -/
def execMediaResponse (tag : Nat) (status : Nat) (corr : Nat) (hdr : Option PageHdr) (data : List Byte) (s : State) : Host.Outcome State Fault Refusal :=
  s.runAwake true (mediaResponse tag status corr hdr data)

/-- MEDIA_OP_TIMEOUT (R309). -/
def execMediaOpTimeout (tag : Nat) (s : State) : Host.Outcome State Fault Refusal :=
  s.runAwake true (mediaOpTimeout tag)

/-- GATHER_END (R178). -/
def execGatherEnd (s : State) : Host.Outcome State Fault Refusal :=
  s.runAwake true gatherEnd

/-- DWELL_END (R178). -/
def execDwellEnd (s : State) : Host.Outcome State Fault Refusal :=
  s.runAwake true dwellEnd

/-- FULL_SCAN_REBUILD (R294). -/
def execFullScanRebuild (sh : Shelf) (s : State) : Host.Outcome State Fault Refusal :=
  s.runAwake (decide (sh < 128)) (fullScanRebuild sh)

/-- SHELF_PAGE_IN (R291). -/
def execShelfPageIn (sh : Shelf) (rootOk : Bool) (mapOk : Bool) (s : State) : Host.Outcome State Fault Refusal :=
  s.runAwake (decide (sh < 128)) (shelfPageIn sh rootOk mapOk)

/-- PARK_TIMEOUT (R509). -/
def execParkTimeout (sh : Shelf) (s : State) : Host.Outcome State Fault Refusal :=
  s.runAwake (decide (sh < 128)) (parkTimeout sh)

/-- SHELF_WAKE_TIMEOUT (R510). -/
def execShelfWakeTimeout (sh : Shelf) (s : State) : Host.Outcome State Fault Refusal :=
  s.runAwake (decide (sh < 128)) (shelfWakeTimeout sh)

-- END EXEC

end Sys2Proof.Machine
end

