-- ==== Sys2Proof/Machine/Strings.lean ====
section
/-!
DEFINITION. What a string's ends share: frames in line and on the wire, delivery, sessions, beacons and grants (R354 to R371, R380).
-/
namespace Sys2Proof.Machine

/-! ### Frames -/

/-- Payload bytes of a frame (R372, R374). -/
def payloadBytes : StrPayload → Nat
  | .req (.program ..) => 48 + 64 + 16384
  | .req _ => 48
  | .rsp op _ _ _ _ body => 32 + (if rspFixed op then 0 else body.length)
  | .ack => 0
  | .park => 8
  | .sessionStart .. => 16
  | .keys .. => 48
  | .echo _ => 24
  | .echoReply _ => 24
  | .parkDone => 16
  | .badCtrl => 8

/-- Bytes that a frame takes in a slot: header, payload and trailer in whole blocks (R354, R356). -/
def frameRoom (p : StrPayload) : Nat := ceilDiv (40 + payloadBytes p) 32 * 32

/-- Frame bytes of a slot (Table 11-1). -/
def slotRoom : Nat := 17888

/-- The slots of frames in line (DEMAND, Table 11-2). -/
def LinkEnd.demand (l : LinkEnd) : Nat := min 4095 (ceilDiv (sumOf (l.queue.map (fun q => frameRoom q.2))) slotRoom)

/-- Whether a payload is sequenced (Table 11-5). -/
def isSeqd : StrPayload → Bool
  | .ack => false
  | _ => true

/-- One frame taken from the line (R354, R357, R358): numbered, counted, with the acknowledgement carried. -/
def LinkEnd.frame (l : LinkEnd) (src dst now opid : Nat) (p : StrPayload) (replay : Bool) : LinkEnd × StrFrame :=
  let s := isSeqd p
  let f : StrFrame := ⟨src, dst, l.session, s, true, replay, if s then l.nextSeq else 0, l.expect, opid, l.txc, p⟩
  ({ l with
    nextSeq := if s then (l.nextSeq + 1) % 0x10000 else l.nextSeq
    txc := l.txc + 1
    sentAt := if s && l.unacked.isEmpty then now else l.sentAt
    unacked := if s then l.unacked ++ [(l.nextSeq, 1, f)] else l.unacked
    ackOwed := false }, f)

/-- The frames that fit in `room` bytes: those in line while fewer than 64 are unacknowledged (R368), then an ACK that is owed. -/
def LinkEnd.fill (src dst now : Nat) : Nat → LinkEnd → Nat → LinkEnd × List StrFrame × Nat
  | 0, l, room => (l, [], room)
  | fuel + 1, l, room =>
    match l.queue with
    | q :: rest =>
      if decide (l.unacked.length < 64) && decide (frameRoom q.2 ≤ room) then
        let (l1, f) := { l with queue := rest }.frame src dst now q.1 q.2 false
        let (l2, fs, r) := LinkEnd.fill src dst now fuel l1 (room - frameRoom q.2)
        (l2, f :: fs, r)
      else (l, [], room)
    | [] =>
      if l.ackOwed && decide (64 ≤ room) then
        let (l1, f) := l.frame src dst now 0 .ack false
        (l1, [f], room - 64)
      else (l, [], room)

/-- R369: an acknowledgement: the frames it covers leave the window; none where its value is out of range. -/
def LinkEnd.acked (l : LinkEnd) (a now : Nat) : Option LinkEnd :=
  match l.unacked with
  | [] => if a = l.nextSeq then some l else none
  | (oldest, _, _) :: _ =>
    let n := (a + 0x10000 - oldest) % 0x10000
    if n = 0 then some l
    else if l.unacked.length < n then none
    else some { l with unacked := l.unacked.drop n, sentAt := now }

/-- Whether an acknowledgement value lies in the range of R369. -/
def LinkEnd.ackInRange (l : LinkEnd) (a : Nat) : Bool :=
  match l.unacked with
  | [] => false
  | (oldest, _, _) :: _ => let n := (a + 0x10000 - oldest) % 0x10000; decide (0 < n) && decide (n ≤ l.unacked.length)

/-- A broken session (R369): both ends drop it; the OPID count is kept. -/
def LinkEnd.broken (l : LinkEnd) : LinkEnd := { nextOpid := l.nextOpid, keepOpid := true }

/-! ### The head's own place -/

/-- ATT of this head (R346). -/
def Chip.att (c : Chip) : Nat := 8 + c.pos

/-- Events of group 0x240: INDEX is string × 16 + ATT. -/
def Chip.strEvent (c : Chip) (code str att a0 a1 : Nat) : Chip := c.event code (str * 16 + att) a0 a1 0 0

/-- The shelf that TOPOLOGY names at a string and position. -/
def Chip.shelfAt (c : Chip) (str pos : Nat) : Option Nat := (c.topology.find? (fun e => e.2.str == str && e.2.pos == pos)).map (·.1)

/-- A view's session taken away: its media operations stay in flight for R309. -/
def Chip.dropView (c : Chip) (str pos state : Nat) : Chip :=
  c.modView str pos (fun v => { v with state := state, lend := v.lend.broken, keysPending := false })

/-- R369: a broken session is recorded, and the bridge enrols again as a stranger. -/
def Chip.sessionBroken (c : Chip) (str pos : Nat) : Chip :=
  ((c.dropView str pos 1).modBridge str pos (fun b => b.modEnd c.att LinkEnd.broken)).strEvent 0x248 str pos 0 0

/-- Every media operation of a shelf put in line under its new session (R309, R371). -/
def Chip.frameOps (c : Chip) (str pos : Nat) : Chip :=
  match c.shelfAt str pos with
  | none => c
  | some sh =>
    let have_ := (c.view str pos).lend.ops.map (·.2)
    (c.ftm.ops.filter (fun o => o.shelf == sh && !have_.contains o.tag)).foldl (fun d o => d.frameOp sh o.tag o.op) c

/-! ### String keys -/

/-- R380: the new key takes over once every KEYS frame is acknowledged. -/
def Chip.changeOver (c : Chip) (str : Nat) : Chip :=
  let s := c.strg str
  match s.nextKey with
  | none => c
  | some (gen, key) =>
    if s.views.any (fun v => v.2.keysPending) then c
    else (c.modStrg str (fun s => { s with key := key, nextKey := none, beaconTxc := 0 })).set (R.ISF_STR_STATUS_KEYGEN str) gen

/-- R380: a new string key made by the owner, and passed to a peer in service over the link and to each enrolled bridge. -/
def Chip.newStringKey (c : Chip) (str : Nat) : Chip :=
  let old := match (c.strg str).nextKey with
    | some (g, _) => g
    | none => c.get (R.ISF_STR_STATUS_KEYGEN str)
  let gen := if (old + 1) % 256 = 0 then 1 else (old + 1) % 256
  let key := Config.random c.freeCount
  let c := c.useFree.modStrg str (fun s => { s with
    nextKey := some (gen, key)
    views := s.views.map (fun v => if v.2.state = 3 then
      (v.1, { v.2 with keysPending := true, lend := { v.2.lend with queue := v.2.lend.queue ++ [(0, .keys gen key)] } }) else v) })
  let c := if c.peerIn then c.peerAsk (.state (.request true [.stringKey str gen key])) else c
  c.changeOver str

/-- R21, R362: this head takes a string: it beacons with the next OWNER_GEN, under a new key where the string is first owned after a Dawn. -/
def Chip.ownString (c : Chip) (str : Nat) (fresh : Bool) : Chip :=
  if (c.strg str).beaconing then c
  else
    let c := c.modStrg str (fun s => { s with beaconing := true, release := false, lastBeaconAt := c.now })
    let c := c.set (R.ISF_STR_STATUS_OWNER_GEN str) ((c.get (R.ISF_STR_STATUS_OWNER_GEN str) + 1) % 256)
    if fresh then c.newStringKey str else c

/-- A head stops beaconing on a string. -/
def Chip.disownString (c : Chip) (str : Nat) : Chip :=
  (c.modStrg str (fun s => { s with beaconing := false, release := false })).set (R.ISF_STR_STATUS_STATE str) 2

/-! ### The grant map -/

/-- Slots taken from demands by round robin, one each (R360 step 5). -/
def roundRobin : Nat → Nat → List (Nat × Nat) → List Nat
  | 0, _, _ => []
  | fuel + 1, n, ds =>
    let live := ds.filter (fun d => decide (0 < d.2))
    if n = 0 || live.isEmpty then []
    else
      let now := (live.take n).map (·.1)
      now ++ roundRobin fuel (n - now.length) (live.map (fun d => if now.contains d.1 then (d.1, d.2 - 1) else d))

/-- What this head has in line on a string, in slots. -/
def Chip.ownDemand (c : Chip) (str : Nat) : Nat := sumOf ((c.strg str).views.map (fun v => v.2.lend.demand))

/-- Whether the string holds a catalogue shelf, and at which position. -/
def Chip.catPos (c : Chip) (str : Nat) : Option Nat :=
  (c.topology.find? (fun e => e.2.cohort == catalogueCohort && e.2.str == str)).map (·.2.pos)

/-- R385: the power-fail schedule. -/
def Chip.pfGrants (c : Chip) (str : Nat) : List Nat :=
  let own := if c.ing.flushStart.isSome && !c.ing.flushSealed then 60 else 0
  let peer := if c.zbl.pfailSeen then (c.strg str).peerDemand else 0
  let cat := (c.catPos str).toList
  let room := 61 - cat.length
  let mine := if peer = 0 then (if own = 0 then 0 else room) else if own = 0 then 0 else max 30 (room - peer)
  let theirs := min peer (room - mine)
  cat ++ List.replicate mine c.att ++ List.replicate theirs (17 - c.att)

/-- R360: the grant map of the next cycle, 61 entries. -/
def Chip.nextGrants (c : Chip) (str : Nat) : List Nat :=
  let s := c.strg str
  let l :=
    if s.pf then c.pfGrants str
    else
      let peerAtt := 17 - c.att
      let heads := c.att :: (if c.peerIn then [peerAtt] else [])
      let bridges := (s.views.filter (fun v => v.2.state == 3)).map (·.1)
      let enrol := match s.enrolling with
        | some e => List.replicate (c.get R.ISF_ENROL_SLOTS) e.pos
        | none => []
      let fixed := heads ++ bridges ++ enrol
      let left := 61 - fixed.length
      let peer := if c.peerIn then min s.peerDemand (left * c.get R.ISF_ENROL_PEER_MIN / 100) else 0
      let demands := [(c.att, c.ownDemand str)] ++ (if c.peerIn then [(peerAtt, s.peerDemand - peer)] else []) ++
        (s.views.filter (fun v => v.2.state == 3)).map (fun v => (v.1, v.2.demand))
      fixed ++ List.replicate peer peerAtt ++ roundRobin 61 (left - peer) demands
  (l ++ List.replicate 61 15).take 61

/-! ### Enrolment -/

/-- The next enrolment of a string begins (R375, R376): GET_VERSION. -/
def Chip.nextEnrol (c : Chip) (str : Nat) : Chip :=
  let s := c.strg str
  match s.enrolling, s.enrolQueue with
  | none, pos :: rest =>
    ((c.modStrg str (fun s => { s with enrolQueue := rest, enrolling := some { pos := pos, since := c.now, askedAt := c.now, step := 0 } })).modView str pos
      (fun v => { v with state := 2 })).emit (.spdmString str pos 0)
  | _, _ => c

/-- A stranger put in line to enrol. -/
def Chip.wantEnrol (c : Chip) (str pos : Nat) : Chip :=
  let s := c.strg str
  let st := (c.view str pos).state
  if s.quarantine.contains pos || st = 3 || s.enrolQueue.contains pos || s.enrolling.any (fun e => e.pos == pos) then c
  else ((c.modStrg str (fun s => { s with enrolQueue := s.enrolQueue ++ [pos] })).modView str pos
    (fun v => { v with state := 1 })).nextEnrol str

/-- ENROLMENT_FAILURE (R378): `check` names what failed. -/
def Chip.enrolFailed (c : Chip) (str pos check : Nat) : Chip :=
  let c := (c.modStrg str (fun s => { s with enrolling := none, quarantine := s.quarantine.filter (· != pos) ++ [pos] })).modView str pos
    (fun v => { v with state := 5, quarantineAt := c.now, lend := v.lend.broken })
  (((c.emit (.spdmString str pos 9)).bump (R.ISF_STR_CNT_ENRFAIL_ENROL_FAIL str) 1).strEvent 0x242 str pos pos check).nextEnrol str

/-- ENROLMENT_ADMIT (R377): a session under the SPDM session's application data keys, SESSION_START, and the string key where this head owns the
string. -/
def Chip.enrolAdmit (c : Chip) (str pos fp reqKey rspKey : Nat) : Chip :=
  let v := c.view str pos
  let session := v.lastSession % 255 + 1
  let start : StrPayload := .sessionStart v.lend.nextOpid v.lend.keepOpid
  let keys := if c.ownsStr str then [((0 : Nat), StrPayload.keys (c.get (R.ISF_STR_STATUS_KEYGEN str)) (c.strg str).key)] else []
  let lend : LinkEnd := { session := session, txKey := reqKey, rxKey := rspKey, nextOpid := v.lend.nextOpid, keepOpid := true, queue := (0, start) :: keys }
  let c := (c.modStrg str (fun s => { s with enrolling := none })).modView str pos
    (fun v => { v with state := 3, fp := fp, lastSession := session, silentCycles := 0, lend := lend })
  let c := (c.bump (R.ISF_STR_CNT_ENROK_ENROL_OK str) 1).frameOps str pos
  let c := match c.shelfAt str pos with
    | some sh => c.modShelf sh (fun s => if s.state = 3 || s.state = 4 then s else { s with state := 2 })
    | none => c
  c.nextEnrol str

end Sys2Proof.Machine
end

