-- ==== Sys2Proof/Machine/Fabric.lean ====
section
/-!
DEFINITION. The shelf fabric: hub, heads and bridges (chapter 11).
-/
namespace Sys2Proof.Machine

/-- A bridge by its place. -/
def Chip.bridge (c : Chip) (str pos : Nat) : Bridge := Sparse.get {} (c.strg str).bridges pos

/-! ### Hub and training -/

/-- What the hub sends for what its ports bring (R347). -/
def hubForward (ports : List HubIn) : HubOut :=
  let at_ := fun (p : HubIn → Bool) => (List.range ports.length).filter (fun i => p (ports.getD i .idle))
  let busy := at_ (fun x => x != .idle)
  let mis := at_ (fun x => x == .misaligned)
  if busy.isEmpty then .idle
  else if 1 < busy.length || !mis.isEmpty then .collide (maskOf busy) (maskOf mis)
  else
    match ports.getD (busy.headD 0) .idle with
    | .codeword bs => .codeword bs
    | _ => .idle

/-- HUB_CODEWORD (R347, R352). A MISALIGN report makes the attachment of that port train again. -/
def hubCodeword (str : Nat) (ports : List HubIn) (c : Chip) : Chip :=
  let out := hubForward ports
  let c := (c.modStrg str (fun s => { s with hubOut := out })).emit (.hubSend str out)
  match out with
  | .collide _ mis =>
    let c := c.modStrg str (fun s => { s with trained := s.trained.filter (fun a => !bitOf mis a) })
    if bitOf mis c.att then (c.set (R.ISF_STR_STATUS_STATE str) 1).emit (.strTrain str c.att) else c
  | _ => c

/-- The state of a string that is up for this head (Table 11-11). -/
def Chip.strUp (c : Chip) (str : Nat) : Chip :=
  c.set (R.ISF_STR_STATUS_STATE str) (if (c.strg str).beaconing then 3 else 2)

/-- ATTACHMENT_TRAINING (R351): an attachment that decodes on all four lanes and has 64 echoes is trained. This head trains no string in a lifecycle
state in which it uses none (R527, Table 17-11). -/
def attachmentTraining (str att lanes : Nat) (echoes : List Nat) (c : Chip) : Chip :=
  let ok := lanes % 16 == 15 && decide (64 ≤ echoes.length)
  let d := c.modStrg str (fun s => { s with trained := s.trained.filter (· != att) ++ (if ok then [att] else []) })
  if att ≠ c.att then d
  else if !c.usesLinks then c
  else
    let c := d
    let c := c.set (R.ISF_STR_STATUS_LANES str) lanes
    if ok then
      let loop := (echoes.take 64).foldl min (echoes.headD 0)
      (((c.set (R.ISF_STR_LOOP_ROUND str) loop).modStrg str (fun s => { s with loopPs := loop })).strUp str)
    else c.set (R.ISF_STR_STATUS_STATE str) 1

/-- Whether this head is trained on a string. -/
def Chip.trainedOn (c : Chip) (str : Nat) : Bool := (c.strg str).trained.contains c.att

/-! ### Beacons -/

/-- OWNERSHIP_CONFLICT (R363). -/
def Chip.ownershipConflict (c : Chip) (str : Nat) : Chip :=
  let c := c.set (R.ISF_STR_STATUS_CONFLICT str) 1
  if c.pos = 1 then (c.disownString str).strEvent 0x243 str c.att 0 0 else c

/-- BEACON_TRANSMIT (R359, R360, R363, R365). -/
def beaconTransmit (str : Nat) (collides : Bool) (c : Chip) : Chip :=
  let s := c.strg str
  if !s.beaconing || !c.trainedOn str || !c.awake then c
  else
    let c := c.bump (R.ISF_STR_CYCLE_CYCLE str) 1
    let due := (c.topology.filter (fun e => e.2.str == str && (match (c.shelf e.1).wakeAt with
      | some t => decide (t ≤ c.now) && (c.shelf e.1).state == 1
      | none => false))).map (·.2.pos)
    let c := c.modStrg str (fun s => { s with
      grants := s.nextGrants
      spent := []
      wakeList := due
      beaconTxc := s.beaconTxc + 1
      lastBeaconAt := c.now
      beacons := s.beacons + 1
      release := s.release || s.releaseIn == 1
      releaseIn := s.releaseIn - 1
      views := s.views.map (fun v => if v.2.state = 3 then (v.1, { v.2 with silentCycles := v.2.silentCycles + 1 }) else v) })
    let next := c.nextGrants str
    let c := c.modStrg str (fun s => { s with nextGrants := next })
    let s := c.strg str
    let b : Beacon := ⟨c.get (R.ISF_STR_CYCLE_CYCLE str), c.get (R.ISF_STR_STATUS_OWNER_GEN str), s.pf, s.fence8, s.fence9, s.release,
      s.wakeList, s.quarantine, s.cack1, s.cack2, next, c.get (R.ISF_STR_STATUS_KEYGEN str), s.beaconTxc, c.att⟩
    let fenced := if s.fence8 || s.fence9 then s.fenceCycles + (if collides then 0 else 1) else 0
    let c := ((c.emit (.beacon str b (b.wire s.key))).modStrg str (fun s => { s with cack1 := 15, cack2 := 15, outAt := none, fenceCycles := fenced })).set
      (R.ISF_STR_STATUS_STATE str) 3
    let c := c.set (R.ISF_STR_STATUS_PF str) (flag s.pf)
    if collides then c.ownershipConflict str else if s.release then c.disownString str else c

/-- Whether a generation is ahead of another by 0 to 127, mod 256 (R362). -/
def genFollows (now new : Nat) : Bool := decide ((new + 256 - now) % 256 ≤ 127)

/-- A fenced head's operations dropped (R362). -/
def Bridge.fence (b : Bridge) (head : Nat) (on : Bool) : Bridge :=
  if on then b.setTable head ((b.table head).filter (fun x => x.reply.isSome)) else b

/-- What a beacon accepted by a bridge does (R354, R359 to R364, R378, R385): the grant map that the beacon of the cycle before brought is in force. -/
def Bridge.accept (x : Bridge) (b : Beacon) (pos now : Nat) (catalogue : Bool) : Bridge :=
  let x := { x with ownerGen := b.ownerGen, fence8 := b.fence8, fence9 := b.fence9, holdover := false, missed := 0, badTags := 0,
                    grants := x.nextGrants, nextGrants := b.grants, gotBeacon := true, quarantined := b.quarantine.contains pos, beaconAt := now,
                    beaconSeen := Sparse.set 0 x.beaconSeen (b.keygen * 2 + b.src % 2) b.txc }
  let x := (x.fence 8 b.fence8).fence 9 b.fence9
  if b.pf && !catalogue then (x.fence 8 true).fence 9 true else x

/-- A bridge's contention settled by the next beacon's CACK (R366, R367); `rnd` is the bridge's random number. -/
def Bridge.settleContention (x : Bridge) (b : Beacon) (pos now rnd : Nat) : Bridge :=
  match x.contending with
  | none => x
  | some (slot, _) =>
    if (if slot = 1 then b.cack1 else b.cack2) = pos then { x with contending := none, tries := 0, backoff := none }
    else
      let n := x.tries + 1
      if n = 16 then { x with contending := none, tries := 0, backoff := some (now + 1000000000) }
      else { x with contending := none, tries := n, backoff := some (now + rnd % 2 ^ min n 8 * 43520) }

/-- The string key of a generation that a bridge holds: the present one, or the one before for 256 cycles (R380). -/
def Bridge.stringKey (x : Bridge) (keygen cycle : Nat) : Option Nat :=
  if keygen = x.keygen then some x.key
  else if keygen = x.prevKeygen && decide ((x.prevUntil + 0x100000000 - cycle) % 0x100000000 ≤ 256) then some x.prevKey
  else none

/-- A beacon that a bridge does not accept (R361): it sends nothing in this cycle and the next. -/
def Bridge.missBeacon (x : Bridge) (tagOk : Bool) : Bridge :=
  let bad := if tagOk then 0 else x.badTags + 1
  let x := { x with grants := [], nextGrants := [], gotBeacon := false }
  if bad = 64 then { x with badTags := 0, keygen := 0, key := 0, prevKeygen := 0, prevKey := 0, end8 := {}, end9 := {} }
  else { x with badTags := bad, missed := x.missed + 1 }

/-- A beacon as a bridge takes it: accepted where its tag verifies under a string key it holds, its TXC is above the highest accepted under the key
from its sender, and it follows the ownership generation (R358, R359, R362). -/
def Chip.bridgeBeacon (c : Chip) (str pos : Nat) (b : Beacon) (trailer : List Byte) : Chip :=
  let cat := c.catPos str == some pos
  let rnd := Config.random c.freeCount
  let c := if (c.bridge str pos).contending.isSome then c.useFree else c
  c.modBridge str pos (fun x =>
    if !x.present then x
    else
      let x := x.settleContention b pos c.now rnd
      if x.parked then { x with wakeSeen := if b.wakeList.contains pos then x.wakeSeen + 1 else 0, grants := [], nextGrants := [] }
      else if x.keygen = 0 then { x with gotBeacon := true, quarantined := b.quarantine.contains pos }
      else
        let tagOk := (x.stringKey b.keygen b.cycle).any (fun k => trailer == trailerOf (b.wire k))
        if tagOk && decide (Sparse.get 0 x.beaconSeen (b.keygen * 2 + b.src % 2) < b.txc) && genFollows x.ownerGen b.ownerGen then
          x.accept b pos c.now cat
        else x.missBeacon tagOk)

/-- The string key of a beacon's generation that this head holds, and whether it is one that comes into use with the beacon (R380). -/
def Strg.keyOf (s : Strg) (keygen now : Nat) : Option (Nat × Bool) :=
  if keygen = now then some (s.key, false)
  else match s.nextKey with
    | some (g, k) => if g = keygen then some (k, true) else none
    | none => none

/-- A beacon as the head that does not own the string takes it. -/
def Chip.headBeacon (c : Chip) (str : Nat) (b : Beacon) (trailer : List Byte) : Chip :=
  let c := if b.src = 17 - c.att then c.modStrg str (fun s => { s with peerSeen := some c.now }) else c
  let s := c.strg str
  if s.beaconing || !c.awake then c
  else
    let key := s.keyOf b.keygen (c.get (R.ISF_STR_STATUS_KEYGEN str))
    let seen := if key.any (·.2) then 0 else s.rxBeaconTxc
    let genuine := b.src == 17 - c.att && key.any (fun k => trailer == trailerOf (b.wire k.1)) && decide (seen < b.txc)
    if genuine && genFollows (c.get (R.ISF_STR_STATUS_OWNER_GEN str)) b.ownerGen then
      let c := match key with
        | some (k, true) => c.modStrg str (fun s => { s with key := k, nextKey := none })
        | _ => c
      let c := c.modStrg str (fun s => { s with
        grants := s.nextGrants, spent := [], nextGrants := b.grants, rxBeaconTxc := b.txc, missedBeacons := 0, lastBeaconAt := c.now, outAt := none,
        quarantine := b.quarantine, pf := b.pf })
      let c := c.setAll [(R.ISF_STR_CYCLE_CYCLE str, b.cycle), (R.ISF_STR_STATUS_OWNER_GEN str, b.ownerGen),
        (R.ISF_STR_STATUS_KEYGEN str, b.keygen), (R.ISF_STR_STATUS_PF str, flag b.pf), (R.ISF_STR_STATUS_STATE str, 2)]
      let fenced := if c.att = 8 then b.fence8 else b.fence9
      let c := if fenced then c.modStrg str (fun s => { s with views := s.views.map (fun v => (v.1, { v.2 with state := 6 })) }) else c
      if b.release then c.ownString str false else c
    else
      let c := if genuine then c else c.bump (R.ISF_STR_CNT_TAG_TAG str) 1
      let c := (c.bump (R.ISF_STR_CNT_BMISS_BEACON_MISS str) 1).modStrg str (fun s => { s with
        missedBeacons := s.missedBeacons + 1, grants := [], nextGrants := [] })
      if (c.strg str).missedBeacons = 4 then c.set (R.ISF_STR_STATUS_STATE str) 4 else c

/-- BEACON_RECEIVE (R359, R361). -/
def beaconReceive (str att : Nat) (b : Beacon) (trailer : List Byte) (c : Chip) : Chip :=
  if att < 8 then c.bridgeBeacon str att b trailer
  else if att = c.att then c.headBeacon str b trailer
  else c

/-! ### Data slots -/

/-- The frames of one slot emitted, under the key of their sender's direction (R357). -/
def Chip.emitFrames (c : Chip) (str key : Nat) (fs : List StrFrame) : Chip := fs.foldl (fun d f => d.emit (.strFrame str f (f.wire key))) c

/-- Whether host reads or ingest are queued on a string (R303, R328, R335). -/
def Chip.hostQueued (c : Chip) (str : Nat) : Bool :=
  c.ftm.ops.any (fun o => o.use == 0 && c.strOf o.shelf == str && (match o.op with
    | .read .. => true
    | .program _ h _ => h.flags == 0
    | _ => false))

/-- The share of a string's 61 data slots that a background use may take in a cycle, in percent: compaction on a shelf at its reserve takes what others
leave (R303), the rebuild takes every slot while nothing is queued (R328), and the scrub its idle share (R335). -/
def Chip.shareOf (c : Chip) (str sh use : Nat) : Nat :=
  let host := c.hostQueued str
  match use with
  | 1 => if host && decide (c.ftmCtl R.FTM_MEDIA_CTRL_RESERVE < (c.shelf sh).freeBands) then c.ftmCtl R.FTM_GC_CTRL_GC_SHARE else 100
  | 3 => if host then c.rdeCtl R.RDE_REBUILD_CTRL_SHARE else 100
  | 4 => if host then c.rdeCtl R.RDE_REBUILD_CTRL_URGENT_SHARE else 100
  | 5 => if host then c.rdeCtl R.RDE_SCRUB_CTRL_SHARE else c.rdeCtl R.RDE_SCRUB_CTRL_IDLE_SHARE
  | _ => 100

/-- The use of what stands in line for a bridge. -/
def Chip.useOf (c : Chip) (l : LinkEnd) (e : Nat × StrPayload) : Nat :=
  match e.2 with
  | .req _ => (((l.ops.find? (·.1 == e.1)).bind (fun x => c.ftm.ops.find? (·.tag == x.2))).map (·.use)).getD 0
  | _ => 0

/-- What may be sent of a line: what serves hosts first, then background operations while their use has part of its share of the cycle left; then what
stays, and the shares used. -/
def Chip.shareLine (c : Chip) (str sh : Nat) (l : LinkEnd) (spent : List (Nat × Nat)) :
    List (Nat × StrPayload) × List (Nat × StrPayload) × List (Nat × Nat) :=
  let first := l.queue.filter (fun e => c.useOf l e == 0)
  (l.queue.filter (fun e => c.useOf l e != 0)).foldl (fun (a : List (Nat × StrPayload) × List (Nat × StrPayload) × List (Nat × Nat)) e =>
    let u := c.useOf l e
    let n := Sparse.get 0 a.2.2 u
    if (n + 1) * 100 ≤ 61 * c.shareOf str sh u then (a.1 ++ [e], a.2.1, Sparse.set 0 a.2.2 u (n + 1))
    else (a.1, a.2.1 ++ [e], a.2.2)) (first, [], spent)

/-- What a slot has left in line of what it might have sent counts for no share. -/
def Chip.unspend (c : Chip) (l : LinkEnd) (left : List (Nat × StrPayload)) (spent : List (Nat × Nat)) : List (Nat × Nat) :=
  left.foldl (fun m e => if c.useOf l e = 0 then m else Sparse.modify 0 m (c.useOf l e) (· - 1)) spent

/-- Of a line, what may be sent with `n` more operations outstanding at the bridge, and what stays (R370). -/
def capOps : Nat → List (Nat × StrPayload) → List (Nat × StrPayload) × List (Nat × StrPayload)
  | _, [] => ([], [])
  | n, e :: l => match e.2, n with
    | .req _, 0 => let r := capOps 0 l; (r.1, e :: r.2)
    | .req _, n + 1 => let r := capOps n l; (e :: r.1, r.2)
    | _, n => let r := capOps n l; (e :: r.1, r.2)

/-- The operations of a head outstanding at a bridge: those put into frames and not answered. -/
def LinkEnd.outstanding (l : LinkEnd) : Nat := (l.ops.filter (fun o => !l.queue.any (fun e => e.1 == o.1 && e.2.type == 1))).length

/-- The head's frames for each bridge, in ascending position, in what room is left; at most 256 operations are outstanding to one bridge (R370). -/
def Chip.headFrames (c : Chip) (str : Nat) : Chip :=
  ((List.range 8).foldl (fun (p : Chip × Nat) pos =>
    let (c, room) := p
    let l := (c.view str pos).lend
    if l.session = 0 then (c, room)
    else
      let (may, rest) := capOps (256 - l.outstanding) l.queue
      let (go, stay, spent) := c.shareLine str ((c.shelfAt str pos).getD 0) { l with queue := may } (c.strg str).spent
      let (l1, fs, left) := LinkEnd.fill c.att pos c.now 600 { l with queue := go } room
      let spent := c.unspend l l1.queue spent
      (((c.modView str pos (fun v => { v with lend := { l1 with queue := l1.queue ++ stay ++ rest } })).modStrg str (fun s =>
        { s with spent := spent })).emitFrames str l.txKey fs, left)) (c, slotRoom)).1

/-- A bridge's frames for each head it has a session with; none for a head that is fenced (R362). -/
def Chip.bridgeFrames (c : Chip) (str pos : Nat) : Chip :=
  ([8, 9].foldl (fun (p : Chip × Nat) head =>
    let (c, room) := p
    let b := c.bridge str pos
    let l := b.endOf head
    if l.session = 0 || (if head = 8 then b.fence8 else b.fence9) then (c, room)
    else
      let (l1, fs, left) := LinkEnd.fill pos head c.now 600 l room
      ((c.modBridge str pos (fun b => b.modEnd head (fun _ => l1))).emitFrames str l.txKey fs, left)) (c, slotRoom)).1

/-- DATA_SLOT_TRANSMIT (R354): SOS with DEMAND, then what is in line. -/
def dataSlotTransmit (str att slot : Nat) (c : Chip) : Chip :=
  let s := c.strg str
  if slot < 3 || 64 ≤ slot then c
  else if att < 8 then
    let b := c.bridge str att
    if b.present && !b.parked && !b.holdover && b.gotBeacon && b.grants.getD (slot - 3) 15 == att then
      (c.emit (.sos str att slot (min 4095 (b.end8.demand + b.end9.demand)))).bridgeFrames str att
    else c
  else if att == c.att && c.awake && c.trainedOn str && s.grants.getD (slot - 3) 15 == att then
    (c.emit (.sos str att slot (c.ownDemand str))).headFrames str
  else c

/-! ### Receiving -/

/-- What R358 and R368 make of a frame: the end after it, whether it is dropped (a failure of R358), a duplicate, or accepted, and whether
its acknowledgement was out of range. -/
def LinkEnd.hear (l : LinkEnd) (f : StrFrame) (tagOk : Bool) (now : Nat) : LinkEnd × Nat × Bool :=
  if !tagOk || f.txc ≤ l.rxTxc || f.session ≠ l.session || l.session = 0 then (l, 0, false)
  else
    let l := { l with rxTxc := f.txc }
    let l1 := if f.ackValid then l.acked f.ack now else some l
    let bad := l1.isNone
    let l := l1.getD l
    if !f.seqd then (l, 2, bad)
    else if f.seq = l.expect then ({ l with expect := (l.expect + 1) % 0x10000, ackOwed := true }, 2, bad)
    else ({ l with ackOwed := true }, 1, bad)

/-- A parked shelf: PARK_DONE has come (R509 step 5). -/
def Chip.parkAnswered (c : Chip) (str pos : Nat) : Chip :=
  let c := c.dropView str pos 4
  match c.shelfAt str pos with
  | some sh => if (c.shelf sh).parkAt.isSome || c.ing.sleeping.contains (c.shelfEnt sh).cohort then c.shelfAsleep sh else c
  | none => c

/-- A reply taken by this head: the media operation of its OPID ends (R370, R372). -/
def Chip.takeReply (c : Chip) (str pos opid status delivery corr : Nat) (body : List Byte) : Chip :=
  match (c.view str pos).lend.ops.find? (fun x => x.1 == opid) with
  | none => c
  | some (_, tag) =>
    let c := if delivery = 1 || delivery = 2 then c.bump (R.ISF_STR_CNT_REPLAY_REPLAY str) 1 else c
    if 2 ≤ delivery then c
    else
      let c := c.modView str pos (fun v => { v with lend := { v.lend with ops := v.lend.ops.filter (·.1 != opid) } })
      let at_ := fun (o n : Nat) => leNat ((body.drop o).take n)
      let h : Option PageHdr := if body.length < 64 then none else
        some ⟨at_ 2 1, at_ 3 1 % 128, at_ 4 4, at_ 8 6, at_ 16 8, at_ 24 3, at_ 28 6, at_ 60 4⟩
      mediaResponse tag status corr h (body.drop 64) c

/-- A frame accepted by this head from a bridge. -/
def Chip.headTakes (c : Chip) (str pos : Nat) (f : StrFrame) : Chip :=
  match f.payload with
  | .rsp _ status delivery _ corr body => c.takeReply str pos f.opid status delivery corr body
  | .parkDone => c.parkAnswered str pos
  | .echoReply _ => c
  | .ack => c
  | _ => c.strEvent 0x248 str pos 1 0

/-- R370: a REQ at a bridge. -/
def Bridge.takeReq (b : Bridge) (head opid : Nat) (op : MediaReq) : Bridge :=
  let t := b.table head
  let put := fun (p : StrPayload) => b.modEnd head (fun e => { e with queue := e.queue ++ [(opid, p)] })
  match t.find? (fun x => x.opid == opid) with
  | some x =>
    match x.reply with
    | none => b
    | some (.rsp o st _ lv n body) => put (.rsp o st 1 lv n body)
    | some p => put p
  | none =>
    let full := decide (256 ≤ (t.filter (fun y => y.reply.isSome)).length)
    let stale := full && t.all (fun y => decide ((y.opid + 0x100000000 - opid) % 0x100000000 < 0x80000000))
    if stale then put (.rsp (opCode op) 0 2 0 0 []) else b.setTable head (t ++ [⟨opid, op, none⟩])

/-- CTRL SESSION_START at a bridge (R371, R377): the session's keys, for what the head sends and for what the bridge sends. -/
def Bridge.startSession (b : Bridge) (head session opidNext : Nat) (keep : Bool) (reqKey rspKey : Nat) : Bridge :=
  let b := b.modEnd head (fun _ => { session := session, txKey := rspKey, rxKey := reqKey, nextOpid := opidNext, keepOpid := keep })
  if keep then b else b.setTable head []

/-- CTRL KEYS at a bridge (R380): the previous key serves 256 cycles more. -/
def Bridge.takeKey (b : Bridge) (keygen key cycle : Nat) : Bridge :=
  { b with prevKeygen := b.keygen, prevKey := b.key, prevUntil := (cycle + 256) % 0x100000000, keygen := keygen, key := key }

/-- A frame accepted by a bridge from a head. -/
def Chip.bridgeTakes (c : Chip) (str pos head : Nat) (f : StrFrame) : Chip :=
  match f.payload with
  | .req op => c.modBridge str pos (fun b => b.takeReq head f.opid op)
  | .park => (c.modBridge str pos (fun b => { b with parkBy := head })).parkNow str pos
  | .sessionStart n keep => c.modBridge str pos (fun b => b.startSession head f.session n keep (b.endOf head).rxKey (b.endOf head).txKey)
  | .keys gen key => c.modBridge str pos (fun b => b.takeKey gen key (c.get (R.ISF_STR_CYCLE_CYCLE str)))
  | .echo d => c.modBridge str pos (fun b => b.modEnd head (fun e => { e with queue := e.queue ++ [(0, .echoReply d)] }))
  | _ => c

/-- The head's end after acknowledgements: KEYS frames all acknowledged let the key change over. -/
def Chip.keysAcked (c : Chip) (str pos : Nat) : Chip :=
  let v := c.view str pos
  let waits := v.lend.unacked.any (fun u => match u.2.2.payload with
      | .keys .. => true
      | _ => false) || v.lend.queue.any (fun q => match q.2 with
      | .keys .. => true
      | _ => false)
  if v.keysPending && !waits then (c.modView str pos (fun v => { v with keysPending := false })).changeOver str else c

/-- A frame of this head, or of a bridge, that R358 drops. -/
def Chip.dropFrame (c : Chip) (str src : Nat) : Chip := (c.bump (R.ISF_STR_CNT_TAG_TAG str) 1).strEvent 0x24A str src 0 0

/-- Whether a received frame's tag, or its CRC with SESSION 0, verifies (R357). -/
def rxVerifies (r : RxFrame) (key : Nat) : Bool := r.trailer == trailerOf (r.frame.wire key)

/-- One frame of a slot at this head. With SESSION 0 it is the refusal of a request (R379), which asks nothing of the head. -/
def Chip.headHears (c : Chip) (str : Nat) (src : Nat) (r : RxFrame) : Chip :=
  let f := r.frame
  if !r.decoded || f.src ≠ src || 8 ≤ src then c
  else if f.dst ≠ c.att then c
  else if f.session = 0 then (if rxVerifies r 0 then c else c.dropFrame str src)
  else
    let l := (c.view str src).lend
    let (l, res, badAck) := l.hear f (rxVerifies r l.rxKey) c.now
    let c := c.modView str src (fun v => { v with lend := l })
    let c := if badAck then c.bump (R.ISF_STR_CNT_ACKBAD_ACKBAD str) 1 else c
    let c := c.keysAcked str src
    match res with
    | 0 => c.dropFrame str src
    | 1 => c.bump (R.ISF_STR_CNT_DUP_DUP str) 1
    | _ => c.headTakes str src f

/-- One frame of a slot at a bridge. A fenced head's frames are discarded (R362). -/
def Chip.bridgeHears (c : Chip) (str pos : Nat) (src : Nat) (r : RxFrame) : Chip :=
  let f := r.frame
  let b := c.bridge str pos
  if !r.decoded || f.src ≠ src || src < 8 || f.dst ≠ pos || !b.present || b.parked || (if src = 8 then b.fence8 else b.fence9) then c
  else if (b.endOf src).session = 0 then
    match f.payload with
    | .req op =>
      let g : StrFrame := ⟨pos, src, 0, false, false, false, 0, 0, f.opid, 0, .rsp (opCode op) 0 3 0 0 []⟩
      c.emit (.strFrame str g (g.wire 0))
    | _ => c
  else
    let (l, res, _) := (b.endOf src).hear f (rxVerifies r (b.endOf src).rxKey) c.now
    let c := c.modBridge str pos (fun b => b.modEnd src (fun _ => l))
    if res = 2 then c.bridgeTakes str pos src f else c

/-- R386: codewords counted; past UNCORR_LIMIT within one whole second the attachment trains again, once in the second. -/
def Chip.countCodewords (c : Chip) (str src corrected uncorrectable : Nat) : Chip :=
  let c := if corrected = 0 then c else (c.bump (R.ISF_STR_CNT_CORR_CORR str) corrected).strEvent 0x240 str src 0 0
  if uncorrectable = 0 then c
  else
    let c := (c.bump (R.ISF_STR_CNT_UNCORR_UNCORR str) uncorrectable).strEvent 0x241 str src 0 0
    let sec := c.now / 1000000000 + 1
    let s := c.strg str
    let before := if s.uncorrSecond = sec then s.uncorrWindow else 0
    let limit := c.get R.ISF_TIMERS_UNCORR_LIMIT
    let c := c.modStrg str (fun s => { s with uncorrSecond := sec, uncorrWindow := before + uncorrectable })
    if before ≤ limit && decide (limit < before + uncorrectable) then
      (((c.modStrg str (fun s => { s with trained := s.trained.filter (· != c.att) })).set (R.ISF_STR_STATUS_STATE str) 1).emit
        (.strTrain str c.att)).strEvent 0x247 str c.att 0 0
    else c

/-- R386: a collision in a data slot: the owner records the ports; one that collides in more than 16 data slots it was not granted, within
64 cycles, is jamming. -/
def Chip.dataCollision (c : Chip) (str slot : Nat) (ports : List Nat) : Chip :=
  if !(c.strg str).beaconing then c
  else
    let c := (c.bump (R.ISF_STR_CNT_DCOLL_DCOLL str) 1).strEvent 0x249 str (ports.headD 15) slot (maskOf ports)
    let owner := (c.strg str).grants.getD (slot - 3) 15
    let cyc := c.get (R.ISF_STR_CYCLE_CYCLE str)
    (ports.filter (· != owner)).foldl (fun d p =>
      let l := ((d.view str p).collisions.filter (fun t => decide (cyc < t + 64))) ++ [cyc]
      let d := d.modView str p (fun v => { v with collisions := l })
      if l.length = 17 then (d.set (R.ISF_STR_STATUS_JAM str) 1).strEvent 0x244 str p p 0 else d) c

/-- Whether the frames of a slot may be taken from an attachment (R353, R355). -/
def Chip.slotFrom (c : Chip) (str att slot src : Nat) : Bool :=
  let grants := if att < 8 then (c.bridge str att).grants else (c.strg str).grants
  if slot < 3 then false else grants.getD (slot - 3) 15 == src

/-- A sign of life of a bridge, with its DEMAND; DEMAND of the peer (R360, R386). -/
def Chip.signOfLife (c : Chip) (str src demand : Nat) : Chip :=
  if src < 8 then c.modView str src (fun v => { v with silentCycles := 0, demand := demand })
  else c.modStrg str (fun s => { s with peerDemand := demand, peerSeen := some c.now })

/-- SLOT_RECEIVE (R355, R358, R368, R386, with R363 in slot 0). -/
def slotReceive (str att slot : Nat) (sos : Option (Nat × Nat × Nat)) (frames : List RxFrame) (corrected uncorrectable : Nat)
    (colliders : List Nat) (c : Chip) : Chip :=
  let src := (sos.map (·.2.1)).getD 15
  let good := (match sos with
    | some (n, a, _) => n == slot && c.slotFrom str att slot a
    | none => false) && colliders.isEmpty
  if att = c.att then
    if !c.awake || !c.trainedOn str then c
    else
      let c := c.countCodewords str src corrected uncorrectable
      let c := if colliders.isEmpty then c
        else if slot = 0 then (if (c.strg str).beaconing && colliders.contains c.att then c.ownershipConflict str else c)
        else if slot < 3 then (if (c.strg str).beaconing then c.bump (R.ISF_STR_CNT_CCOLL_CCOLL str) 1 else c)
        else c.dataCollision str slot colliders
      if !good || (c.strg str).quarantine.contains src then c
      else
        let c := c.signOfLife str src ((sos.map (·.2.2)).getD 0)
        frames.foldl (fun d r => d.headHears str src r) c
  else if att < 8 && good then frames.foldl (fun d r => d.bridgeHears str att src r) c
  else c

/-! ### Holdover, dark strings, contention -/

/-- HOLDOVER_ENTRY (R364): no beacon accepted for 4 cycles of 43.52 µs. -/
def holdoverEntry (str pos : Nat) (c : Chip) : Chip :=
  c.modBridge str pos (fun b => if b.present && !b.parked && !b.holdover && b.keygen != 0 && decide (b.beaconAt + 174080 ≤ c.now) then
    { b with holdover := true, holdAt := c.now, gotBeacon := false, grants := [], nextGrants := [] } else b)

/-- HOLDOVER_TIMEOUT (R364): after 10 s. -/
def holdoverTimeout (str pos : Nat) (c : Chip) : Chip :=
  c.modBridge str pos (fun b => if b.holdover && decide (b.holdAt + 10000000000 ≤ c.now) then
    { b with holdover := false, end8 := {}, end9 := {}, keygen := 0, key := 0, prevKeygen := 0, prevKey := 0 } else b)

/-- STRING_DARK (R384): no beacon for 1 s. -/
def stringDark (str : Nat) (c : Chip) : Chip :=
  if c.now < (c.strg str).lastBeaconAt + 1000000000 then c
  else (c.modStrg str (fun s => { s with grants := [], nextGrants := [] })).set (R.ISF_STR_STATUS_STATE str) 0

/-- CONTENTION_ATTEMPT (R366): ENROL, or WAKE with a reason. -/
def contentionAttempt (str pos : Nat) (slot2 : Bool) (wakeReason : Option Nat) (c : Chip) : Chip :=
  let b := c.bridge str pos
  if !b.present || b.quarantined || b.contending.isSome || b.backoff.any (fun t => decide (c.now < t)) || (b.parked && wakeReason.isNone) then c
  else
    let slot := if slot2 then 2 else 1
    let c := c.modBridge str pos (fun b => { b with contending := some (slot, wakeReason.getD 0), slotUsed := slot })
    match wakeReason with
    | some r => c.emit (.strWake str slot pos r)
    | none => c.emit (.strEnrol str slot pos)

/-- BACKOFF_EXPIRY (R367): the wait of a bridge is over. -/
def backoffExpiry (str pos : Nat) (c : Chip) : Chip :=
  c.modBridge str pos (fun b => { b with backoff := b.backoff.filter (fun t => decide (c.now < t)) })

/-- The owner names a contention frame's sender in its next beacon (R366). -/
def Chip.cack (c : Chip) (str pos : Nat) (slot2 : Bool) : Chip :=
  c.modStrg str (fun s => if slot2 then { s with cack2 := pos } else { s with cack1 := pos })

/-- A frame of a bridge with SESSION 0 taken by this head: dropped where its CRC does not verify (R357, R358). -/
def Chip.takeCrc (c : Chip) (str pos type : Nat) (payload : List Byte) (hdr : CrcHdr) (f : Chip → Chip) : Chip :=
  if hdr.dst != c.att && hdr.dst != 15 then c
  else if hdr.verifies pos type payload then f c
  else c.dropFrame str pos

/-- ENROL (R375): acknowledged and taken in arrival order; not from quarantined or enrolled positions. -/
def enrol (str : Nat) (slot2 : Bool) (pos : Nat) (blank : Bool) (vendor model fwVersion arrayTag : Nat) (hdr : CrcHdr) (c : Chip) : Chip :=
  c.takeCrc str pos 7 (enrolBytes pos blank vendor model fwVersion arrayTag) hdr (fun c =>
  let s := c.strg str
  if !s.beaconing || s.quarantine.contains pos || (c.view str pos).state = 3 then c
  else (c.cack str pos slot2).wantEnrol str pos)

/-! ### Enrolment -/

/-- An enrolment changed. -/
def Chip.modEnrol (c : Chip) (str : Nat) (f : Enrolling → Enrolling) : Chip :=
  c.modStrg str (fun s => { s with enrolling := s.enrolling.map f })

/-- The next request of an enrolment sent. -/
def Chip.enrolStep (c : Chip) (str pos step : Nat) (f : Enrolling → Enrolling) : Chip :=
  (c.modEnrol str (fun e => f { e with step := step, askedAt := c.now })).emit (.spdmString str pos step)

/-- R377: the checks after FINISH: 1 trust, 2 topology, 3 fingerprint, 4 the head's certificate. -/
def Chip.admitCheck (c : Chip) (str : Nat) (e : Enrolling) (headVerified : Bool) : Option Nat :=
  if !e.rootOk then some 1
  else
    match c.shelfAt str e.pos with
    | none => some 2
    | some sh =>
      let fp := (c.shelfEnt sh).fp
      if fp != 0 && fp != e.fp then some 3 else if !headVerified then some 4 else none

/-- The next message of an enrolment (R376, R377): those of Table 11-9 in their order; any other ends the enrolment as failed. -/
def Chip.takeSpdm (c : Chip) (str pos : Nat) (msg : SpdmMsg) : Chip :=
  match (c.strg str).enrolling with
  | none => c
  | some e =>
    if e.pos ≠ pos then c
    else
      match e.step, msg with
      | 0, .version => c.enrolStep str pos 1 id
      | 1, .capabilities => c.enrolStep str pos 2 id
      | 2, .algorithms true => c.enrolStep str pos 3 id
      | 3, .digests d =>
        let v := c.view str pos
        if v.cachedDigest != 0 && v.cachedDigest == d then c.enrolStep str pos 5 (fun e => { e with rootOk := true, fp := v.fp })
        else c.enrolStep str pos 4 id
      | 4, .certificate ok fp d =>
        let c := if ok then c.modView str pos (fun v => { v with cachedDigest := d, fp := fp }) else c
        c.enrolStep str pos 5 (fun e => { e with rootOk := ok, fp := fp })
      | 5, .keyExchangeRsp true => c.enrolStep str pos 6 id
      | 6, .encapsulatedRequest => c.enrolStep str pos 7 id
      | 7, .finishRsp hv reqKey rspKey =>
        match c.admitCheck str e hv with
        | none => c.enrolAdmit str pos e.fp reqKey rspKey
        | some n => c.enrolFailed str pos n
      | n, _ => c.enrolFailed str pos (16 + n)

/-- STRING_SPDM (R376): an SPDM message, carried whole as the payload of a frame with SESSION 0. -/
def stringSpdm (str pos : Nat) (hdr : CrcHdr) (bytes : List Byte) (msg : SpdmMsg) (c : Chip) : Chip :=
  c.takeCrc str pos 5 bytes hdr (fun c => c.takeSpdm str pos msg)

/-- ENROLMENT_TIMEOUT (R376): 100 ms without a response, or 300 ms in all. -/
def enrolmentTimeout (str : Nat) (c : Chip) : Chip :=
  match (c.strg str).enrolling with
  | none => c
  | some e => if e.since + 300000000 ≤ c.now || e.askedAt + 100000000 ≤ c.now then c.enrolFailed str e.pos 32 else c

/-- QUARANTINE_EXPIRY (R378). -/
def quarantineExpiry (str pos : Nat) (c : Chip) : Chip :=
  let v := c.view str pos
  if !(c.strg str).quarantine.contains pos || decide (c.now < v.quarantineAt + c.get R.ISF_TIMERS_QUARANTINE_S * 1000000000) then c
  else (c.modStrg str (fun s => { s with quarantine := s.quarantine.filter (· != pos) })).modView str pos
    (fun v => { v with state := if v.state = 5 then 0 else v.state })

/-! ### Delivery -/

/-- ISF_ACK (R369): an acknowledgement sent by a head (to a bridge) or by a bridge (to a head). -/
def isfAck (str pos : Nat) (byHead : Bool) (head value : Nat) (c : Chip) : Chip :=
  if byHead then
    c.modBridge str pos (fun b => b.modEnd head (fun l => if l.ackInRange value then (l.acked value c.now).getD l else l))
  else if head ≠ c.att then c
  else
    let l := (c.view str pos).lend
    if l.session = 0 then c
    else if l.ackInRange value then
      (c.modView str pos (fun v => { v with lend := (l.acked value c.now).getD l, silentCycles := 0 })).keysAcked str pos
    else c.bump (R.ISF_STR_CNT_ACKBAD_ACKBAD str) 1

/-- Every unacknowledged frame sent again with RETX and a new TXC (R369). -/
def LinkEnd.resend (l : LinkEnd) (now : Nat) : LinkEnd × List StrFrame :=
  let fs := (List.range l.unacked.length).map (fun i =>
    let u := l.unacked.getD i (0, 0, ⟨0, 0, 0, false, false, false, 0, 0, 0, 0, .ack⟩)
    (u.1, u.2.1 + 1, { u.2.2 with retx := true, txc := l.txc + i, ack := l.expect }))
  ({ l with unacked := fs, txc := l.txc + fs.length, sentAt := now }, fs.map (·.2.2))

/-- Whether an end's retransmission is due, `cyc` cycles of 43.52 µs after the last advance. -/
def LinkEnd.retxDue (l : LinkEnd) (cyc now : Nat) : Bool :=
  l.session != 0 && !l.unacked.isEmpty && decide (l.sentAt + cyc * 43520 ≤ now)

/-- Whether a frame has been sent 8 times (R369). -/
def LinkEnd.worn (l : LinkEnd) : Bool := l.unacked.any (fun u => decide (8 ≤ u.2.1))

/-- ISF_RETX_TIMEOUT (R369): by this head, or by a bridge towards a head. -/
def isfRetxTimeout (str pos : Nat) (byHead : Bool) (head : Nat) (c : Chip) : Chip :=
  let cyc := c.get R.ISF_TIMERS_RETX_CYC
  if byHead then
    let l := (c.view str pos).lend
    if head ≠ c.att || !l.retxDue cyc c.now then c
    else if l.worn then c.sessionBroken str pos
    else
      let (l1, fs) := l.resend c.now
      ((c.modView str pos (fun v => { v with lend := l1 })).emitFrames str l.txKey fs).bump (R.ISF_STR_CNT_RETX_RETX str) fs.length
  else
    let l := (c.bridge str pos).endOf head
    if !l.retxDue cyc c.now then c
    else if l.worn then
      let c := c.modBridge str pos (fun b => b.modEnd head LinkEnd.broken)
      if head = c.att then c.sessionBroken str pos else c
    else
      let (l1, fs) := l.resend c.now
      (c.modBridge str pos (fun b => b.modEnd head (fun _ => l1))).emitFrames str l.txKey fs

/-! ### CTRL at a bridge -/

/-- SESSION_START (R371). -/
def sessionStart (str pos head session opidNext : Nat) (keep : Bool) (reqKey rspKey : Nat) (c : Chip) : Chip :=
  if (c.bridge str pos).present && !(c.bridge str pos).parked && session != 0 then
    c.modBridge str pos (fun b => b.startSession head session opidNext keep reqKey rspKey)
  else c

/-- KEYS (R380). -/
def keys (str pos keygen key : Nat) (c : Chip) : Chip :=
  if (c.bridge str pos).present && !(c.bridge str pos).parked then
    c.modBridge str pos (fun b => b.takeKey keygen key (c.get (R.ISF_STR_CYCLE_CYCLE str)))
  else c

/-- PARK (R381). -/
def park (str pos head : Nat) (c : Chip) : Chip :=
  let b := c.bridge str pos
  if b.present && !b.parked && (b.endOf head).session != 0 then (c.modBridge str pos (fun b => { b with parkBy := head })).parkNow str pos
  else c

/-- PARK_DONE at the head (R381, R509). -/
def parkDone (str pos : Nat) (c : Chip) : Chip := c.parkAnswered str pos

/-- ECHO at a bridge (R373). -/
def echo (str pos head : Nat) (data : List Byte) (c : Chip) : Chip :=
  let b := c.bridge str pos
  if b.present && !b.parked && (b.endOf head).session != 0 then
    c.modBridge str pos (fun b => b.modEnd head (fun e => { e with queue := e.queue ++ [(0, .echoReply data)] }))
  else c

/-- ECHO_REPLY at the head (R373): traffic of the session. -/
def echoReply (str pos : Nat) (_data : List Byte) (c : Chip) : Chip := c.modView str pos (fun v => { v with silentCycles := 0 })

/-! ### Waking -/

/-- BRIDGE_NAND_POWERED (R382): a parked bridge that saw its WAKE_LIST bit in 4 consecutive beacons sends WAKE with REASON 1, in contention slot 1 or 2
at random (R366). -/
def bridgeNandPowered (str pos : Nat) (c : Chip) : Chip :=
  let b := c.bridge str pos
  if b.parked && decide (4 ≤ b.wakeSeen) then
    let slot := 1 + c.freeNow % 2
    (c.useFree.modBridge str pos (fun b => { b with
      parked := false, nandOff := false, wakeSeen := 0, contending := some (slot, 1), slotUsed := slot })).emit (.strWake str slot pos 1)
  else c

/-- BRIDGE_WAKE at the owner (R383, R510): recorded; READY ends the WAKE_LIST bit and the bridge is enrolled, as for reasons 2 and 4. -/
def bridgeWake (str : Nat) (slot2 : Bool) (pos reason detail : Nat) (hdr : CrcHdr) (c : Chip) : Chip :=
  c.takeCrc str pos 6 (wakeBytes pos reason detail) hdr (fun c =>
  if !(c.strg str).beaconing then c
  else
    let c := (c.cack str pos slot2).strEvent 0x245 str pos detail reason
    let c := if reason = 1 then
        match c.shelfAt str pos with
        | some sh => c.modShelf sh (fun s => if s.wakeAt.isSome && s.state = 1 then { s with state := 2 } else s)
        | none => c
      else c
    if reason = 1 || reason = 2 || reason = 4 then c.wantEnrol str pos else c)

/-- BRIDGE_WAKE_TONE (R384): on a dark string, at most once every 10 s. -/
def bridgeWakeTone (str pos : Nat) (c : Chip) : Chip :=
  let b := c.bridge str pos
  if !b.present || c.get (R.ISF_STR_STATUS_STATE str) != 0 || b.toneAt.any (fun t => decide (c.now < t + 10000000000)) then c
  else (c.modBridge str pos (fun b => { b with toneAt := some c.now })).emit (.strTone str)

/-! ### Loss -/

/-- BRIDGE_LOST (R386): no sign of life for 64 cycles. -/
def bridgeLost (str pos : Nat) (c : Chip) : Chip :=
  let v := c.view str pos
  if v.state ≠ 3 || decide (v.silentCycles < 64) then c
  else
    let c := (c.dropView str pos 0).strEvent 0x246 str pos 0 0
    match c.shelfAt str pos with
    | some sh => (c.leaveService sh).wakeProgress
    | none => c

/-- STRING_OUT_OF_SERVICE (R386): no training, or no beacon accepted or sent, for 1 s. -/
def stringOutOfService (str : Nat) (c : Chip) : Chip :=
  if c.get (R.ISF_STR_STATUS_STATE str) = 5 || (c.trainedOn str && decide (c.now < (c.strg str).lastBeaconAt + 1000000000)) then c
  else
    let c := (c.modStrg str (fun s => { s with outAt := some c.now, grants := [], nextGrants := [] })).set (R.ISF_STR_STATUS_STATE str) 5
    ((c.topology.filter (fun e => e.2.str == str)).foldl (fun d e => d.leaveService e.1) c).wakeProgress

/-- STRING_RETRAIN_RETRY (R386): every 10 s; shelves whose bridges are enrolled return. -/
def stringRetrainRetry (str : Nat) (ok : Bool) (c : Chip) : Chip :=
  match (c.strg str).outAt with
  | none => c
  | some t =>
    if c.now < t + 10000000000 then c
    else if !ok then c.modStrg str (fun s => { s with outAt := some c.now })
    else
      let c := (c.modStrg str (fun s => { s with outAt := none, lastBeaconAt := c.now, trained := s.trained.filter (· != c.att) ++ [c.att] })).strUp str
      (c.topology.filter (fun e => e.2.str == str)).foldl (fun d e =>
        if (d.view str e.2.pos).state = 3 then d.modShelf e.1 (fun s => { s with state := 2 }) else d) c

/-- The counters of a string (Table 11-13). -/
def isfCounters (str : Nat) : List Fld :=
  [R.ISF_STR_CNT_CORR_CORR str, R.ISF_STR_CNT_UNCORR_UNCORR str, R.ISF_STR_CNT_TAG_TAG str, R.ISF_STR_CNT_RETX_RETX str,
   R.ISF_STR_CNT_DUP_DUP str, R.ISF_STR_CNT_ACKBAD_ACKBAD str, R.ISF_STR_CNT_REPLAY_REPLAY str, R.ISF_STR_CNT_CCOLL_CCOLL str,
   R.ISF_STR_CNT_DCOLL_DCOLL str, R.ISF_STR_CNT_BMISS_BEACON_MISS str, R.ISF_STR_CNT_ENROK_ENROL_OK str,
   R.ISF_STR_CNT_ENRFAIL_ENROL_FAIL str]

/-- ISF_STR_CNT_CLR (R387). -/
def isfStrCntClr (str : Nat) (c : Chip) : Chip := c.clearAll (isfCounters str)

-- EXEC hubCodeword attachmentTraining beaconTransmit beaconReceive dataSlotTransmit slotReceive holdoverEntry holdoverTimeout stringDark contentionAttempt backoffExpiry enrol stringSpdm enrolmentTimeout quarantineExpiry isfAck isfRetxTimeout sessionStart keys park parkDone echo echoReply bridgeNandPowered bridgeWake bridgeWakeTone bridgeLost stringOutOfService stringRetrainRetry isfStrCntClr

/-- HUB_CODEWORD (R347). -/
def execHubCodeword (str : Str) (ports : List HubIn) (s : State) : Host.Outcome State Fault Refusal :=
  s.run (decide (str < 16)) (hubCodeword str ports)

/-- ATTACHMENT_TRAINING (R351). -/
def execAttachmentTraining (str : Str) (att : Nat) (lanes : Nat) (echoes : List Nat) (s : State) : Host.Outcome State Fault Refusal :=
  s.run (decide (str < 16)) (attachmentTraining str att lanes echoes)

/-- BEACON_TRANSMIT (R360). -/
def execBeaconTransmit (str : Str) (collides : Bool) (s : State) : Host.Outcome State Fault Refusal :=
  s.runAwake (decide (str < 16)) (beaconTransmit str collides)

/-- BEACON_RECEIVE (R359). -/
def execBeaconReceive (str : Str) (att : Nat) (b : Beacon) (trailer : List Byte) (s : State) : Host.Outcome State Fault Refusal :=
  s.run (decide (str < 16)) (beaconReceive str att b trailer)

/-- DATA_SLOT_TRANSMIT (R354). -/
def execDataSlotTransmit (str : Str) (att : Nat) (slot : Nat) (s : State) : Host.Outcome State Fault Refusal :=
  s.run (decide (str < 16)) (dataSlotTransmit str att slot)

/-- SLOT_RECEIVE (R355). -/
def execSlotReceive (str : Str) (att : Nat) (slot : Nat) (sos : Option (Nat × Nat × Nat)) (frames : List RxFrame) (corrected : Nat) (uncorrectable : Nat) (colliders : List Nat) (s : State) : Host.Outcome State Fault Refusal :=
  s.run (decide (str < 16)) (slotReceive str att slot sos frames corrected uncorrectable colliders)

/-- HOLDOVER_ENTRY (R364). -/
def execHoldoverEntry (str : Str) (pos : Pos) (s : State) : Host.Outcome State Fault Refusal :=
  s.run (decide (str < 16) && decide (pos < 8)) (holdoverEntry str pos)

/-- HOLDOVER_TIMEOUT (R364). -/
def execHoldoverTimeout (str : Str) (pos : Pos) (s : State) : Host.Outcome State Fault Refusal :=
  s.run (decide (str < 16) && decide (pos < 8)) (holdoverTimeout str pos)

/-- STRING_DARK (R384). -/
def execStringDark (str : Str) (s : State) : Host.Outcome State Fault Refusal :=
  s.run (decide (str < 16)) (stringDark str)

/-- CONTENTION_ATTEMPT (R366). -/
def execContentionAttempt (str : Str) (pos : Pos) (slot2 : Bool) (wakeReason : Option Nat) (s : State) : Host.Outcome State Fault Refusal :=
  s.run (decide (str < 16) && decide (pos < 8)) (contentionAttempt str pos slot2 wakeReason)

/-- BACKOFF_EXPIRY (R367). -/
def execBackoffExpiry (str : Str) (pos : Pos) (s : State) : Host.Outcome State Fault Refusal :=
  s.run (decide (str < 16) && decide (pos < 8)) (backoffExpiry str pos)

/-- ENROL (R375). -/
def execEnrol (str : Str) (slot2 : Bool) (pos : Pos) (blank : Bool) (vendor : Nat) (model : Nat) (fwVersion : Nat) (arrayTag : Nat) (hdr : CrcHdr) (s : State) : Host.Outcome State Fault Refusal :=
  s.runAwake (decide (str < 16) && decide (pos < 8)) (enrol str slot2 pos blank vendor model fwVersion arrayTag hdr)

/-- STRING_SPDM (R376). -/
def execStringSpdm (str : Str) (pos : Pos) (hdr : CrcHdr) (bytes : List Byte) (msg : SpdmMsg) (s : State) : Host.Outcome State Fault Refusal :=
  s.runAwake (decide (str < 16) && decide (pos < 8)) (stringSpdm str pos hdr bytes msg)

/-- ENROLMENT_TIMEOUT (R376). -/
def execEnrolmentTimeout (str : Str) (s : State) : Host.Outcome State Fault Refusal :=
  s.runAwake (decide (str < 16)) (enrolmentTimeout str)

/-- QUARANTINE_EXPIRY (R378). -/
def execQuarantineExpiry (str : Str) (pos : Pos) (s : State) : Host.Outcome State Fault Refusal :=
  s.runAwake (decide (str < 16) && decide (pos < 8)) (quarantineExpiry str pos)

/-- ISF_ACK (R369). -/
def execIsfAck (str : Str) (pos : Pos) (byHead : Bool) (head : Nat) (value : Nat) (s : State) : Host.Outcome State Fault Refusal :=
  s.run (decide (str < 16) && decide (pos < 8)) (isfAck str pos byHead head value)

/-- ISF_RETX_TIMEOUT (R369). -/
def execIsfRetxTimeout (str : Str) (pos : Pos) (byHead : Bool) (head : Nat) (s : State) : Host.Outcome State Fault Refusal :=
  s.run (decide (str < 16) && decide (pos < 8)) (isfRetxTimeout str pos byHead head)

/-- SESSION_START (R371). -/
def execSessionStart (str : Str) (pos : Pos) (head : Nat) (session : Nat) (opidNext : Nat) (keep : Bool) (reqKey : Nat) (rspKey : Nat) (s : State) : Host.Outcome State Fault Refusal :=
  s.run (decide (str < 16) && decide (pos < 8)) (sessionStart str pos head session opidNext keep reqKey rspKey)

/-- KEYS (R380). -/
def execKeys (str : Str) (pos : Pos) (keygen : Nat) (key : Nat) (s : State) : Host.Outcome State Fault Refusal :=
  s.run (decide (str < 16) && decide (pos < 8)) (keys str pos keygen key)

/-- PARK (R381). -/
def execPark (str : Str) (pos : Pos) (head : Nat) (s : State) : Host.Outcome State Fault Refusal :=
  s.run (decide (str < 16) && decide (pos < 8)) (park str pos head)

/-- PARK_DONE (R381). -/
def execParkDone (str : Str) (pos : Pos) (s : State) : Host.Outcome State Fault Refusal :=
  s.runAwake (decide (str < 16) && decide (pos < 8)) (parkDone str pos)

/-- ECHO (R373). -/
def execEcho (str : Str) (pos : Pos) (head : Nat) (data : List Byte) (s : State) : Host.Outcome State Fault Refusal :=
  s.run (decide (str < 16) && decide (pos < 8)) (echo str pos head data)

/-- ECHO_REPLY (R373). -/
def execEchoReply (str : Str) (pos : Pos) (data : List Byte) (s : State) : Host.Outcome State Fault Refusal :=
  s.run (decide (str < 16) && decide (pos < 8)) (echoReply str pos data)

/-- BRIDGE_NAND_POWERED (R382). -/
def execBridgeNandPowered (str : Str) (pos : Pos) (s : State) : Host.Outcome State Fault Refusal :=
  s.run (decide (str < 16) && decide (pos < 8)) (bridgeNandPowered str pos)

/-- BRIDGE_WAKE (R383). -/
def execBridgeWake (str : Str) (slot2 : Bool) (pos : Pos) (reason : Nat) (detail : Nat) (hdr : CrcHdr) (s : State) : Host.Outcome State Fault Refusal :=
  s.run (decide (str < 16) && decide (pos < 8)) (bridgeWake str slot2 pos reason detail hdr)

/-- BRIDGE_WAKE_TONE (R384). -/
def execBridgeWakeTone (str : Str) (pos : Pos) (s : State) : Host.Outcome State Fault Refusal :=
  s.run (decide (str < 16) && decide (pos < 8)) (bridgeWakeTone str pos)

/-- BRIDGE_LOST (R386). -/
def execBridgeLost (str : Str) (pos : Pos) (s : State) : Host.Outcome State Fault Refusal :=
  s.runAwake (decide (str < 16) && decide (pos < 8)) (bridgeLost str pos)

/-- STRING_OUT_OF_SERVICE (R386). -/
def execStringOutOfService (str : Str) (s : State) : Host.Outcome State Fault Refusal :=
  s.runAwake (decide (str < 16)) (stringOutOfService str)

/-- STRING_RETRAIN_RETRY (R386). -/
def execStringRetrainRetry (str : Str) (ok : Bool) (s : State) : Host.Outcome State Fault Refusal :=
  s.runAwake (decide (str < 16)) (stringRetrainRetry str ok)

/-- ISF_STR_CNT_CLR (R387). -/
def execIsfStrCntClr (str : Str) (s : State) : Host.Outcome State Fault Refusal :=
  s.runBar2 (decide (str < 16)) true (R.ISF_STR_CNT_CLR_CLR str) (isfStrCntClr str)

-- END EXEC

end Sys2Proof.Machine
end

