-- ==== Sys2Proof/Machine/EngineIsa.lean ====
section
/-!
DEFINITION. The instruction set of the stream engines (chapter 13): commit, exceptions, and the arithmetic, memory, branch,
stream and system instructions. WFW and the accelerator instructions are in EngineWork.
-/
namespace Sys2Proof.Machine

/-- The causes that allow a handler (Table 13-11). -/
def handlerAllowed (cause : Nat) : Bool := [0x01, 0x03, 0x04, 0x06, 0x07, 0x08, 0x09].contains cause

/-- Free amounts of cycles added to the cycle counts (log entry 12); `stall` is the row of Table 13-10 the engine waited in. -/
def Cycles.spend (y : Cycles) (n stall miss : Nat) : Cycles :=
  { y with
    sinceLoad := y.sinceLoad + n
    cycles := y.cycles + n
    stallDep := if stall = 1 || stall = 5 then y.stallDep + n else y.stallDep
    stallDram := if stall = 2 || stall = 3 then y.stallDram + n else y.stallDram
    stallPort := if stall = 6 then y.stallPort + n else y.stallPort
    stallAwait := if stall = 7 then y.stallAwait + n else y.stallAwait
    idle := if stall = 8 then y.idle + n else y.idle
    mispredict := y.mispredict + miss }

/-- The engine waits in a row of Table 13-10 (SEC_ENG_STATUS.STALL). -/
def Chip.stallEng (c : Chip) (k row : Nat) : Chip :=
  (c.modEng k (fun e => { e with state := .stalled, stall := row, cyc := e.cyc.spend c.freeNow row 0 })).useFree

/-- One architectural effect at its commit (R438). -/
def Chip.effect (c : Chip) (k : Nat) (x : Effect) : Chip :=
  match x with
  | .dram a bs => c.store a bs
  | .release p e => c.releaseJob k p e
  | _ => c.modEng k (fun e => e.apply x)

/-- Whether an effect stores to IMEM. -/
def storesImem (x : Effect) : Bool :=
  match x with
  | .mem a bs => regionOf a bs.length == .imem
  | _ => false

/-- The oldest instruction commits: its effects take place, the PC moves, and it is counted. A store to IMEM leaves an old copy
of the next instruction to be executed (R441). -/
def Chip.commitOne (c : Chip) (k : Nat) (q : QEntry) (last : Bool) : Chip :=
  let old := (c.engAt k).copiesAt q.next
  let c := q.effects.foldl (fun d x => d.effect k x) c
  let c := c.modEng k (fun e => { e with
    pc := q.next
    instret := e.instret + 1
    latched := if last && q.effects.any storesImem then some (q.next, old) else none })
  c.bump (R.SEC_ENG_CNT_INSTRET_INSTRET (k / 8) (k % 8)) 1

/-- R443: an exception is taken by the handler at ETVEC, or faults the engine. Taking DIV_ZERO sets DZ (R433). -/
def Chip.raiseExc (c : Chip) (k cause pc addr : Nat) : Chip :=
  let c := c.modEng k (fun e => { e with
    epc := pc, ecause := cause, eaddr := addr
    flags := if cause = 0x06 then { e.flags with dz := true } else e.flags
    stream := false, latched := none })
  let e := c.engAt k
  if e.etvec != 0 && handlerAllowed cause && !e.inHandler then
    c.modEng k (fun e => { e with inHandler := true, pc := e.etvec, state := .running, stall := 0 })
  else
    (c.modEng k (fun e => { e with
      state := .faulted, stall := 0, pc := pc, faultCause := cause, faultEpc := pc, faultAddr := addr })).bump
      (R.SEC_CL_CNT_FAULTS_FAULTS (k / 8)) 1

/-- The held jobs of squashed entries are cancelled (R450). -/
def Chip.squashJobs (c : Chip) (k : Nat) (qs : List QEntry) : Chip :=
  qs.foldl (fun d q => q.effects.foldl (fun e x =>
    match x with
    | .release p n => e.squashJob k p n
    | _ => e) d) c

/-- Uncommitted instructions squashed, with their jobs (R442, R450, R452). -/
def Chip.squash (c : Chip) (k : Nat) (qs : List QEntry) : Chip :=
  let c := (c.squashJobs k qs).modEng k (fun e => { e with queue := [] })
  if qs.isEmpty then c else c.bump (R.SEC_ENG_CNT_SQUASHED_SQUASHED (k / 8) (k % 8)) qs.length

/-- R438, R442: the commit queue drains in order until an entry waits for DRAM or raises an exception. -/
def Chip.drain (c : Chip) (k : Nat) : List QEntry → Chip
  | [] => c.modEng k (fun e => { e with queue := [] })
  | q :: rest =>
    match q.load with
    | some _ => c.modEng k (fun e => { e with queue := q :: rest })
    | none =>
      match q.exc with
      | some x => (c.squash k rest).raiseExc k x.1 q.pc x.2
      | none => Chip.drain (c.commitOne k q rest.isEmpty) k rest

/-- An instruction enters the commit queue behind its elders; `miss` is the refetch it costs (R438, R440). -/
def Chip.issue (c : Chip) (k : Nat) (q : QEntry) (miss : Nat) : Chip :=
  let c := (c.modEng k (fun e => { e with
    state := .running, stall := 0, latched := none, cyc := e.cyc.spend c.freeNow 0 miss })).useFree
  c.drain k ((c.engAt k).queue ++ [q])

/-- What an instruction does, given the engine as it sees it: its effects and next PC, an exception, or a DRAM load. -/
structure Plan where
  effects : List Effect := []
  next : Nat
  exc : Option (Nat × Nat) := none
  load : Option DramLoad := none
  miss : Nat := 0

/-- The exception of a plan. -/
def Plan.raise (pc cause addr : Nat) : Plan := { next := pc, exc := some (cause, addr) }

/-- Whether an engine can execute the word `w` next: it runs, and the fetch gives the word. -/
def Eng.ready (e : Eng) (w : Word32) : Bool := (e.state == .running || e.state == .stalled) && e.fetches w

/-- An instruction executes: it stalls while an operand waits for DRAM or the commit queue is full, otherwise its plan enters the
queue. Nothing happens unless the engine runs and fetches this word. -/
def Chip.execWord (c : Chip) (k : Nat) (w : Word32) (srcs : List Nat) (plan : Eng → Nat → Plan) : Chip :=
  let e := c.engAt k
  if e.ready w then
    if 16 ≤ e.queue.length then c.stallEng k 3
    else if srcs.any e.awaits then c.stallEng k 2
    else
      let pc := e.fetchPc
      let p := plan e.view pc
      c.issue k ⟨pc, p.next, p.load, p.exc, p.effects⟩ p.miss
  else c

/-- The PC plus 4. -/
def pcNext (pc : Nat) : Nat := pc + 4

/-- A result written, with its flags when they are written. -/
def aluPlan (e : Eng) (pc xd : Nat) (r : AluRes) (writeFlags : Bool) : Plan :=
  let f := if writeFlags then e.flags.after r else { e.flags with dz := e.flags.dz || r.divZero }
  { effects := [.reg xd r.val] ++ (if writeFlags || r.divZero then [.flags f] else []), next := pcNext pc }

/-- ALU (R430 to R433). -/
def aluOf (w : Word32) (e : Eng) (pc : Nat) : Plan :=
  match aluFn (fnOf w) (e.reg (xaOf w)) (e.reg (xbOf w)) with
  | none => .raise pc 0x01 0
  | some r =>
    if r.divZero && e.flags.dze then .raise pc 0x06 0
    else aluPlan e pc (xdOf w) r (sOf w || alwaysFlags (fnOf w))

/-- The result of an immediate instruction (R429, R433). -/
def immRes (w : Word32) (a : Word64) : AluRes :=
  match opOf w with
  | 0x02 => aluAdd a (sext w 15)
  | 0x03 => { val := a &&& zext w 15 }
  | 0x04 => { val := a ||| zext w 15 }
  | 0x05 => { val := a ^^^ zext w 15 }
  | 0x06 => { val := aluSll a (fld w 0 15) }
  | 0x07 => { val := aluSrl a (fld w 0 15) }
  | 0x08 => { val := aluSra a (fld w 0 15) }
  | 0x09 => aluMul a (sext w 15)
  | _ => aluSub a (sext w 15)

/-- An immediate instruction: ADDI to MULI and CMPI. -/
def immOf (w : Word32) (e : Eng) (pc : Nat) : Plan := aluPlan e pc (xdOf w) (immRes w (e.reg (xaOf w))) (sImm w)

/-- A row of the table that executes a legal word of one opcode. -/
def Chip.row (c : Chip) (n e : Nat) (w : Word32) (ok : Bool) (srcs : List Nat) (plan : Eng → Nat → Plan) : Chip :=
  if ok && legalWord w then c.execWord (engKey n e) w srcs plan else c

/-- ALU. -/
def alu (n e : Nat) (w : Word32) (c : Chip) : Chip := c.row n e w (opOf w == 0x01) [xaOf w, xbOf w] (aluOf w)
/-- ADDI. -/
def addi (n e : Nat) (w : Word32) (c : Chip) : Chip := c.row n e w (opOf w == 0x02) [xaOf w] (immOf w)
/-- ANDI. -/
def andi (n e : Nat) (w : Word32) (c : Chip) : Chip := c.row n e w (opOf w == 0x03) [xaOf w] (immOf w)
/-- ORI. -/
def ori (n e : Nat) (w : Word32) (c : Chip) : Chip := c.row n e w (opOf w == 0x04) [xaOf w] (immOf w)
/-- XORI. -/
def xori (n e : Nat) (w : Word32) (c : Chip) : Chip := c.row n e w (opOf w == 0x05) [xaOf w] (immOf w)
/-- SLLI. -/
def slli (n e : Nat) (w : Word32) (c : Chip) : Chip := c.row n e w (opOf w == 0x06) [xaOf w] (immOf w)
/-- SRLI. -/
def srli (n e : Nat) (w : Word32) (c : Chip) : Chip := c.row n e w (opOf w == 0x07) [xaOf w] (immOf w)
/-- SRAI. -/
def srai (n e : Nat) (w : Word32) (c : Chip) : Chip := c.row n e w (opOf w == 0x08) [xaOf w] (immOf w)
/-- MULI. -/
def muli (n e : Nat) (w : Word32) (c : Chip) : Chip := c.row n e w (opOf w == 0x09) [xaOf w] (immOf w)
/-- CMPI. -/
def cmpi (n e : Nat) (w : Word32) (c : Chip) : Chip := c.row n e w (opOf w == 0x0A) [xaOf w] (immOf w)

/-- MOVW: XD ← sext(IMM21). -/
def movw (n e : Nat) (w : Word32) (c : Chip) : Chip :=
  c.row n e w (opOf w == 0x0B) [] (fun _ pc => { effects := [.reg (xdOf w) (sext w 21)], next := pcNext pc })

/-- SHOR: XD ← (XD << 21) OR zext(IMM21). -/
def shor (n e : Nat) (w : Word32) (c : Chip) : Chip :=
  c.row n e w (opOf w == 0x0C) [xdOf w] (fun v pc =>
    { effects := [.reg (xdOf w) ((v.reg (xdOf w) <<< 21) ||| zext w 21)], next := pcNext pc })

/-- The bytes a load or store moves. -/
def memSize (op : Nat) : Nat :=
  match op with
  | 0x10 | 0x14 | 0x18 => 1
  | 0x11 | 0x15 | 0x19 => 2
  | 0x12 | 0x16 | 0x1A => 4
  | _ => 8

/-- Whether a load sign-extends. -/
def memSigned (op : Nat) : Bool := decide (0x14 ≤ op)

/-- A loaded value extended to 64 bits. -/
def extendLoad (size : Nat) (signed : Bool) (v : Nat) : Word64 :=
  if signed && bitOf v (8 * size - 1) then BitVec.ofInt 64 ((v : Int) - (2 ^ (8 * size) : Nat)) else BitVec.ofNat 64 v

/-- The address of a load or store: XA + sext(OFS16). -/
def memAddr (w : Word32) (e : Eng) : Nat := (e.reg (xaOf w) + sext w 16).toNat

/-- Whether an uncommitted DRAM store goes to the same 64-byte line (R439). -/
def Eng.lineBusy (e : Eng) (addr : Nat) : Bool :=
  e.queue.any (fun q => q.effects.any (fun x =>
    match x with
    | .dram a _ => a / 64 == addr / 64
    | _ => false))

/-- LDB to LDWS (R425 to R427, R439). -/
def loadOf (w : Word32) (ecc : EccIn) (e : Eng) (pc : Nat) : Plan :=
  let a := memAddr w e
  let n := memSize (opOf w)
  if a % n != 0 then .raise pc 0x03 a
  else
    match regionOf a n with
    | .outside => .raise pc 0x04 a
    | .aperture =>
      if windowsAllow e.windows (dramOf a) n false then
        { next := pcNext pc, load := some ⟨xdOf w, dramOf a, n, memSigned (opOf w)⟩ }
      else .raise pc 0x04 a
    | .ecr => { effects := [.reg (xdOf w) (extendLoad n (memSigned (opOf w)) (leNat (e.readMem a n)))], next := pcNext pc }
    | _ =>
      if ecc = .uncorrectable then .raise pc 0x0A a
      else { effects := [.reg (xdOf w) (extendLoad n (memSigned (opOf w)) (leNat (e.readMem a n)))], next := pcNext pc }

/-- A corrected error of an engine's memories counted (R426). -/
def Chip.engEcc (c : Chip) (k : Nat) (w : Word32) (ecc : EccIn) : Chip :=
  if ecc == .corrected && (c.engAt k).ready w then c.bump (R.SEC_ENG_CNT_ECC_ECC (k / 8) (k % 8)) 1 else c

/-- LOAD_INSTRUCTION. A load waits for older stores to its DRAM line (R439). -/
def loadInstruction (n e : Nat) (w : Word32) (ecc : EccIn) (c : Chip) : Chip :=
  let k := engKey n e
  let g := c.engAt k
  let ok := decide (0x10 ≤ opOf w) && decide (opOf w ≤ 0x16)
  let a := memAddr w g.view
  if ok && g.ready w && regionOf a 1 == .aperture && g.lineBusy (dramOf a) then c.stallEng k 2
  else (c.engEcc k w ecc).row n e w ok [xaOf w] (loadOf w ecc)

/-- STB to STD (R439): to DMEM or IMEM at commit, to DRAM within a writable window; a store to the ECR raises ACCESS. -/
def storeOf (w : Word32) (busError : Bool) (e : Eng) (pc : Nat) : Plan :=
  let a := memAddr w e
  let n := memSize (opOf w)
  let bs := natLe (e.reg (xdOf w)).toNat n
  if a % n != 0 then .raise pc 0x03 a
  else
    match regionOf a n with
    | .outside | .ecr => .raise pc 0x04 a
    | .aperture =>
      if windowsAllow e.windows (dramOf a) n true then
        if busError then .raise pc 0x05 a else { effects := [.dram (dramOf a) bs], next := pcNext pc }
      else .raise pc 0x04 a
    | _ => { effects := [.mem a bs], next := pcNext pc }

/-- STORE_INSTRUCTION. -/
def storeInstruction (n e : Nat) (w : Word32) (busError : Bool) (c : Chip) : Chip :=
  c.row n e w (decide (0x18 ≤ opOf w) && decide (opOf w ≤ 0x1B)) [xaOf w, xdOf w] (storeOf w busError)

/-- The oldest outstanding DRAM load of a queue resolved. -/
def resolveLoad (f : DramLoad → QEntry → QEntry) : List QEntry → List QEntry
  | [] => []
  | q :: rest =>
    match q.load with
    | some l => f l q :: rest
    | none => q :: resolveLoad f rest

/-- DRAM_LOAD_REPLY (R439, R442): the reply delivers data, or raises BUS_ERROR when the access failed or the data is poisoned. -/
def dramLoadReply (n e : Nat) (busError : Bool) (c : Chip) : Chip :=
  let k := engKey n e
  let g := c.engAt k
  if g.state == .running || g.state == .stalled then
    let q := resolveLoad (fun l q =>
      if busError || c.poisonedAt l.addr l.size then { q with load := none, exc := some (0x05, apertureOf l.addr) }
      else { q with
        load := none
        effects := [.reg l.dest (extendLoad l.size l.signed (c.loadNat l.addr l.size))] }) g.queue
    (c.modEng k (fun e => { e with state := .running, stall := 0 })).drain k q
  else c

/-- The branch target at a word offset from the instruction. -/
def branchTo (pc : Nat) (ofs : Word64) : Nat := (BitVec.ofNat 64 pc + 4#64 * ofs).toNat

/-- A conditional branch: backward ones are predicted taken, forward ones not; a misprediction costs 3 cycles (R438). -/
def branchPlan (pc : Nat) (ofs : Word64) (taken : Bool) : Plan :=
  { next := if taken then branchTo pc ofs else pcNext pc, miss := if taken == ofs.msb then 0 else 3 }

/-- BC (R434). -/
def bc (n e : Nat) (w : Word32) (c : Chip) : Chip :=
  c.row n e w (opOf w == 0x20) [] (fun v pc => branchPlan pc (sext w 22) (condHolds v.flags (fld w 22 4)))

/-- BRZ. -/
def brz (n e : Nat) (w : Word32) (c : Chip) : Chip :=
  c.row n e w (opOf w == 0x21) [xdOf w] (fun v pc => branchPlan pc (sext w 21) (v.reg (xdOf w) == 0))

/-- BRNZ. -/
def brnz (n e : Nat) (w : Word32) (c : Chip) : Chip :=
  c.row n e w (opOf w == 0x22) [xdOf w] (fun v pc => branchPlan pc (sext w 21) (v.reg (xdOf w) != 0))

/-- JAL: X31 ← PC + 4; PC ← PC + 4 × sext(OFF26). -/
def jal (n e : Nat) (w : Word32) (c : Chip) : Chip :=
  c.row n e w (opOf w == 0x23) [] (fun _ pc =>
    { effects := [.reg 31 (BitVec.ofNat 64 (pcNext pc))], next := branchTo pc (sext w 26) })

/-- JALR: XD ← PC + 4; PC ← XA + sext(IMM15). It is not predicted (R438). -/
def jalr (n e : Nat) (w : Word32) (c : Chip) : Chip :=
  c.row n e w (opOf w == 0x24) [xaOf w] (fun v pc =>
    { effects := [.reg (xdOf w) (BitVec.ofNat 64 (pcNext pc))], next := (v.reg (xaOf w) + sext w 15).toNat, miss := 3 })

/-- A system instruction that has to wait for its elders stalls; otherwise it executes. -/
def Chip.oldest (c : Chip) (n e : Nat) (w : Word32) (ok : Bool) (stall : Nat) (f : Chip → Eng → Chip) : Chip :=
  let k := engKey n e
  let g := c.engAt k
  if ok && legalWord w && g.ready w then
    if g.queue.isEmpty then f c g else c.stallEng k stall
  else c

/-- A stream instruction ended: the PC moves on and it is counted. -/
def Chip.endStream (c : Chip) (k : Nat) : Chip :=
  let pc := (c.engAt k).pc
  (c.modEng k (fun e => { e with stream := false })).issue k ⟨pc, pcNext pc, none, none, []⟩ 0

/-- A stream instruction's unit done: registers advanced, 64 bytes counted (R435). -/
def Chip.streamUnit (c : Chip) (k : Nat) (f : Eng → Eng) : Chip :=
  (c.modEng k (fun e => { f e with state := .running, stall := 0, stream := true })).bump
    (R.SEC_ENG_CNT_STREAM_STREAM_BYTES (k / 8) (k % 8)) 64

/-- The registers of a stream instruction after a unit: addresses advanced by 64, the length less 64. -/
def Eng.advance (e : Eng) (addrs : List Nat) (len : Nat) : Eng :=
  (addrs.foldl (fun e r => e.setReg r (e.reg r + 64)) e).setReg len (e.reg len - 64)

/-- The exception a stream instruction raises: MISALIGNED before any unit, or at a unit's check. -/
def Chip.streamExc (c : Chip) (k cause addr : Nat) : Chip :=
  let pc := (c.engAt k).pc
  c.issue k ⟨pc, pc, none, some (cause, addr), []⟩ 0

/-- The first address of a list that is not 64-aligned. -/
def misaligned (l : List Nat) : Option Nat := l.find? (fun a => a % 64 != 0)

/-- One step of a stream instruction (R435): it ends at length 0, raises MISALIGNED, or does one 64-byte unit, which answers an
exception or the engine and chip after it. -/
def Chip.streamStep (c : Chip) (k : Nat) (g : Eng) (addrs : List Nat) (len : Nat)
    (unit : Chip → Eng → Chip ⊕ (Nat × Nat)) : Chip :=
  let l := (g.reg len).toNat
  if l = 0 then c.endStream k
  else if l % 64 != 0 then c.streamExc k 0x03 0
  else
    match misaligned (addrs.map (fun r => (g.reg r).toNat)) with
    | some a => c.streamExc k 0x03 a
    | none =>
      match unit c g with
      | .inr x => c.streamExc k x.1 x.2
      | .inl d =>
        let d := d.streamUnit k (fun e => e.advance addrs len)
        if l = 64 then d.endStream k else d

/-- SLD (Table 13-7): one 64-byte unit from DRAM to DMEM for each command until the length is 0. -/
def sld (n e : Nat) (w : Word32) (busError : Bool) (c : Chip) : Chip :=
  c.oldest n e w (opOf w == 0x28 && fn11 w == 0) 5 (fun c g =>
    c.streamStep (engKey n e) g [xaOf w, xbOf w] (xdOf w) (fun c g =>
      let a := (g.reg (xaOf w)).toNat
      let d := (g.reg (xbOf w)).toNat
      if !windowsAllow g.windows a 64 false then .inr (0x04, a)
      else if regionOf d 64 != .dmem then .inr (0x04, d)
      else if busError || c.poisonedAt a 64 then .inr (0x05, a)
      else .inl (c.modEng (engKey n e) (fun x => x.writeMem d (c.load a 64)))))

/-- SST (Table 13-7): one 64-byte unit from DMEM to DRAM. -/
def sst (n e : Nat) (w : Word32) (ecc : EccIn) (busError : Bool) (c : Chip) : Chip :=
  (c.engEcc (engKey n e) w ecc).oldest n e w (opOf w == 0x28 && fn11 w == 1) 5 (fun c g =>
    c.streamStep (engKey n e) g [xaOf w, xbOf w] (xdOf w) (fun c g =>
      let a := (g.reg (xaOf w)).toNat
      let d := (g.reg (xbOf w)).toNat
      if !windowsAllow g.windows a 64 true then .inr (0x04, a)
      else if regionOf d 64 != .dmem then .inr (0x04, d)
      else if ecc = .uncorrectable then .inr (0x0A, d)
      else if busError then .inr (0x05, a)
      else .inl (c.store a (g.readMem d 64))))

/-- A CRC unit: the running register in XD folds 64 bytes of DMEM (R435). -/
def Chip.crcStep (c : Chip) (n e : Nat) (w : Word32) (ecc : EccIn) (fold : Nat → List Byte → Nat) (g : Eng) : Chip :=
  c.streamStep (engKey n e) g [xaOf w] (xbOf w) (fun c g =>
    let a := (g.reg (xaOf w)).toNat
    if regionOf a 64 != .dmem then .inr (0x04, a)
    else if ecc = .uncorrectable then .inr (0x0A, a)
    else .inl (c.modEng (engKey n e) (fun x =>
      x.setReg (xdOf w) (BitVec.ofNat 64 (fold (g.reg (xdOf w)).toNat (g.readMem a 64))))))

/-- SCRC16. -/
def scrc16 (n e : Nat) (w : Word32) (ecc : EccIn) (c : Chip) : Chip :=
  (c.engEcc (engKey n e) w ecc).oldest n e w (opOf w == 0x28 && fn11 w == 2) 5 (fun c g =>
    c.crcStep n e w ecc (fun r bs => crc16From (r % 0x10000) bs) g)

/-- SCRC64. -/
def scrc64 (n e : Nat) (w : Word32) (ecc : EccIn) (c : Chip) : Chip :=
  (c.engEcc (engKey n e) w ecc).oldest n e w (opOf w == 0x28 && fn11 w == 3) 5 (fun c g =>
    c.crcStep n e w ecc crc64From g)

/-- SHCUT: XD ← the cut hash of 64 bytes of DMEM. -/
def shcut (n e : Nat) (w : Word32) (ecc : EccIn) (c : Chip) : Chip :=
  (c.engEcc (engKey n e) w ecc).oldest n e w (opOf w == 0x28 && fn11 w == 4) 5 (fun c g =>
    let k := engKey n e
    let a := (g.reg (xaOf w)).toNat
    if a % 64 != 0 then c.streamExc k 0x03 a
    else if regionOf a 64 != .dmem then c.streamExc k 0x04 a
    else if ecc = .uncorrectable then c.streamExc k 0x0A a
    else
      let v := BitVec.ofNat 64 (cutHash (g.readMem a 64))
      (c.issue k ⟨g.pc, pcNext g.pc, none, none, [.reg (xdOf w) v]⟩ 0).bump
        (R.SEC_ENG_CNT_STREAM_STREAM_BYTES n e) 64)

/-- NOP. -/
def engNop (n e : Nat) (w : Word32) (c : Chip) : Chip :=
  c.row n e w (opOf w == 0x38 && fn11 w == 0) [] (fun _ pc => { next := pcNext pc })

/-- FENCE: it waits until every older DRAM store is acknowledged. Memory takes each store as it commits (log entry 16), so it
waits for the older instructions. -/
def fence (n e : Nat) (w : Word32) (c : Chip) : Chip :=
  c.oldest n e w (opOf w == 0x38 && fn11 w == 1) 2 (fun c g =>
    c.issue (engKey n e) ⟨g.pc, pcNext g.pc, none, none, []⟩ 0)

/-- IFENCE (R441): after it every instruction is fetched afresh. -/
def ifence (n e : Nat) (w : Word32) (c : Chip) : Chip :=
  c.oldest n e w (opOf w == 0x38 && fn11 w == 2) 4 (fun c g =>
    (c.issue (engKey n e) ⟨g.pc, pcNext g.pc, none, none, []⟩ 3).modEng (engKey n e)
      (fun x => { x with stale := [], latched := none }))

/-- BRK raises BREAK. -/
def brk (n e : Nat) (w : Word32) (c : Chip) : Chip :=
  c.row n e w (opOf w == 0x38 && fn11 w == 4) [] (fun _ pc => .raise pc 0x09 0)

/-- ERET: PC ← EPC; IN_HANDLER is cleared. -/
def eret (n e : Nat) (w : Word32) (c : Chip) : Chip :=
  c.row n e w (opOf w == 0x38 && fn11 w == 5) [] (fun v _ => { effects := [.leaveHandler], next := v.epc })

/-- A system register as MFS reads it (Table 13-9); none for a number the table does not name. -/
def Chip.sysReg (c : Chip) (k num : Nat) (e : Eng) : Option Word64 :=
  match num with
  | 0 => some e.flags.word
  | 1 => some (BitVec.ofNat 64 e.epc)
  | 2 => some (BitVec.ofNat 64 e.ecause)
  | 3 => some (BitVec.ofNat 64 e.eaddr)
  | 4 => some (BitVec.ofNat 64 e.etvec)
  | 5 => some (BitVec.ofNat 64 (flag e.inHandler))
  | 8 => some (BitVec.ofNat 64 (k % 8 + 256 * (k / 8) + 65536 * c.poolOf (k / 8)))
  | 9 => some (BitVec.ofNat 64 e.cyc.sinceLoad)
  | 10 => some (BitVec.ofNat 64 (e.instret + e.queue.length))
  | 11 => some (BitVec.ofNat 64 c.now)
  | 12 => some (BitVec.ofNat 64 c.epoch)
  | 13 => some (BitVec.ofNat 64 e.progId)
  | _ => none

/-- MFS: XD ← system register XB; a number not in the table raises ILLEGAL (R437). -/
def mfs (n e : Nat) (w : Word32) (c : Chip) : Chip :=
  c.row n e w (opOf w == 0x38 && fn11 w == 6) [] (fun v pc =>
    match c.sysReg (engKey n e) (xbOf w) v with
    | some x => { effects := [.reg (xdOf w) x], next := pcNext pc }
    | none => .raise pc 0x01 0)

/-- The system registers that software may write (Table 13-9). -/
def sysWritable (num : Nat) : Bool := num == 0 || num == 1 || num == 4

/-- MTS: system register XB ← XA; an RO register or an unknown number raises ILLEGAL (R437). -/
def mts (n e : Nat) (w : Word32) (c : Chip) : Chip :=
  c.row n e w (opOf w == 0x38 && fn11 w == 7) [xaOf w] (fun v pc =>
    if sysWritable (xbOf w) then { effects := [.sys (xbOf w) (v.reg (xaOf w))], next := pcNext pc } else .raise pc 0x01 0)

/-- ILLEGAL_INSTRUCTION (R429): a word that is no instruction raises ILLEGAL. -/
def illegalInstruction (n e : Nat) (w : Word32) (c : Chip) : Chip :=
  if legalWord w then c else c.execWord (engKey n e) w [] (fun _ pc => .raise pc 0x01 0)

/-- FETCH_FAULT (R442): a PC outside IMEM or not a multiple of 4 faults the engine with FETCH. -/
def fetchFault (n e : Nat) (c : Chip) : Chip :=
  let k := engKey n e
  let g := c.engAt k
  if (g.state == .running || g.state == .stalled) && !goodPc g.fetchPc then
    c.issue k ⟨g.fetchPc, g.fetchPc, none, some (0x02, 0), []⟩ 0
  else c

-- EXEC alu addi andi ori xori slli srli srai muli cmpi movw shor loadInstruction storeInstruction dramLoadReply bc brz brnz jal jalr sld sst scrc16 scrc64 shcut engNop fence ifence brk eret mfs mts illegalInstruction fetchFault

/-- ALU (R430). -/
def execAlu (n : Cluster) (e : Engine) (w : Word32) (s : State) : Host.Outcome State Fault Refusal :=
  s.runAwake (decide (n < 24) && decide (e < 8)) (alu n e w)

/-- ADDI (R429). -/
def execAddi (n : Cluster) (e : Engine) (w : Word32) (s : State) : Host.Outcome State Fault Refusal :=
  s.runAwake (decide (n < 24) && decide (e < 8)) (addi n e w)

/-- ANDI (R429). -/
def execAndi (n : Cluster) (e : Engine) (w : Word32) (s : State) : Host.Outcome State Fault Refusal :=
  s.runAwake (decide (n < 24) && decide (e < 8)) (andi n e w)

/-- ORI (R429). -/
def execOri (n : Cluster) (e : Engine) (w : Word32) (s : State) : Host.Outcome State Fault Refusal :=
  s.runAwake (decide (n < 24) && decide (e < 8)) (ori n e w)

/-- XORI (R429). -/
def execXori (n : Cluster) (e : Engine) (w : Word32) (s : State) : Host.Outcome State Fault Refusal :=
  s.runAwake (decide (n < 24) && decide (e < 8)) (xori n e w)

/-- SLLI (R433). -/
def execSlli (n : Cluster) (e : Engine) (w : Word32) (s : State) : Host.Outcome State Fault Refusal :=
  s.runAwake (decide (n < 24) && decide (e < 8)) (slli n e w)

/-- SRLI (R433). -/
def execSrli (n : Cluster) (e : Engine) (w : Word32) (s : State) : Host.Outcome State Fault Refusal :=
  s.runAwake (decide (n < 24) && decide (e < 8)) (srli n e w)

/-- SRAI (R433). -/
def execSrai (n : Cluster) (e : Engine) (w : Word32) (s : State) : Host.Outcome State Fault Refusal :=
  s.runAwake (decide (n < 24) && decide (e < 8)) (srai n e w)

/-- MULI (R429). -/
def execMuli (n : Cluster) (e : Engine) (w : Word32) (s : State) : Host.Outcome State Fault Refusal :=
  s.runAwake (decide (n < 24) && decide (e < 8)) (muli n e w)

/-- CMPI (R431). -/
def execCmpi (n : Cluster) (e : Engine) (w : Word32) (s : State) : Host.Outcome State Fault Refusal :=
  s.runAwake (decide (n < 24) && decide (e < 8)) (cmpi n e w)

/-- MOVW (R429). -/
def execMovw (n : Cluster) (e : Engine) (w : Word32) (s : State) : Host.Outcome State Fault Refusal :=
  s.runAwake (decide (n < 24) && decide (e < 8)) (movw n e w)

/-- SHOR (R429). -/
def execShor (n : Cluster) (e : Engine) (w : Word32) (s : State) : Host.Outcome State Fault Refusal :=
  s.runAwake (decide (n < 24) && decide (e < 8)) (shor n e w)

/-- LOAD_INSTRUCTION (R426). -/
def execLoadInstruction (n : Cluster) (e : Engine) (w : Word32) (ecc : EccIn) (s : State) : Host.Outcome State Fault Refusal :=
  s.runAwake (decide (n < 24) && decide (e < 8)) (loadInstruction n e w ecc)

/-- STORE_INSTRUCTION (R439). -/
def execStoreInstruction (n : Cluster) (e : Engine) (w : Word32) (busError : Bool) (s : State) : Host.Outcome State Fault Refusal :=
  s.runAwake (decide (n < 24) && decide (e < 8)) (storeInstruction n e w busError)

/-- DRAM_LOAD_REPLY (R442). -/
def execDramLoadReply (n : Cluster) (e : Engine) (busError : Bool) (s : State) : Host.Outcome State Fault Refusal :=
  s.runAwake (decide (n < 24) && decide (e < 8)) (dramLoadReply n e busError)

/-- BC (R434). -/
def execBc (n : Cluster) (e : Engine) (w : Word32) (s : State) : Host.Outcome State Fault Refusal :=
  s.runAwake (decide (n < 24) && decide (e < 8)) (bc n e w)

/-- BRZ (R429). -/
def execBrz (n : Cluster) (e : Engine) (w : Word32) (s : State) : Host.Outcome State Fault Refusal :=
  s.runAwake (decide (n < 24) && decide (e < 8)) (brz n e w)

/-- BRNZ (R429). -/
def execBrnz (n : Cluster) (e : Engine) (w : Word32) (s : State) : Host.Outcome State Fault Refusal :=
  s.runAwake (decide (n < 24) && decide (e < 8)) (brnz n e w)

/-- JAL (R429). -/
def execJal (n : Cluster) (e : Engine) (w : Word32) (s : State) : Host.Outcome State Fault Refusal :=
  s.runAwake (decide (n < 24) && decide (e < 8)) (jal n e w)

/-- JALR (R429). -/
def execJalr (n : Cluster) (e : Engine) (w : Word32) (s : State) : Host.Outcome State Fault Refusal :=
  s.runAwake (decide (n < 24) && decide (e < 8)) (jalr n e w)

/-- SLD (R435). -/
def execSld (n : Cluster) (e : Engine) (w : Word32) (busError : Bool) (s : State) : Host.Outcome State Fault Refusal :=
  s.runAwake (decide (n < 24) && decide (e < 8)) (sld n e w busError)

/-- SST (R435). -/
def execSst (n : Cluster) (e : Engine) (w : Word32) (ecc : EccIn) (busError : Bool) (s : State) : Host.Outcome State Fault Refusal :=
  s.runAwake (decide (n < 24) && decide (e < 8)) (sst n e w ecc busError)

/-- SCRC16 (R435). -/
def execScrc16 (n : Cluster) (e : Engine) (w : Word32) (ecc : EccIn) (s : State) : Host.Outcome State Fault Refusal :=
  s.runAwake (decide (n < 24) && decide (e < 8)) (scrc16 n e w ecc)

/-- SCRC64 (R435). -/
def execScrc64 (n : Cluster) (e : Engine) (w : Word32) (ecc : EccIn) (s : State) : Host.Outcome State Fault Refusal :=
  s.runAwake (decide (n < 24) && decide (e < 8)) (scrc64 n e w ecc)

/-- SHCUT (R435). -/
def execShcut (n : Cluster) (e : Engine) (w : Word32) (ecc : EccIn) (s : State) : Host.Outcome State Fault Refusal :=
  s.runAwake (decide (n < 24) && decide (e < 8)) (shcut n e w ecc)

/-- NOP (R436). -/
def execEngNop (n : Cluster) (e : Engine) (w : Word32) (s : State) : Host.Outcome State Fault Refusal :=
  s.runAwake (decide (n < 24) && decide (e < 8)) (engNop n e w)

/-- FENCE (R436). -/
def execFence (n : Cluster) (e : Engine) (w : Word32) (s : State) : Host.Outcome State Fault Refusal :=
  s.runAwake (decide (n < 24) && decide (e < 8)) (fence n e w)

/-- IFENCE (R441). -/
def execIfence (n : Cluster) (e : Engine) (w : Word32) (s : State) : Host.Outcome State Fault Refusal :=
  s.runAwake (decide (n < 24) && decide (e < 8)) (ifence n e w)

/-- BRK (R436). -/
def execBrk (n : Cluster) (e : Engine) (w : Word32) (s : State) : Host.Outcome State Fault Refusal :=
  s.runAwake (decide (n < 24) && decide (e < 8)) (brk n e w)

/-- ERET (R443). -/
def execEret (n : Cluster) (e : Engine) (w : Word32) (s : State) : Host.Outcome State Fault Refusal :=
  s.runAwake (decide (n < 24) && decide (e < 8)) (eret n e w)

/-- MFS (R437). -/
def execMfs (n : Cluster) (e : Engine) (w : Word32) (s : State) : Host.Outcome State Fault Refusal :=
  s.runAwake (decide (n < 24) && decide (e < 8)) (mfs n e w)

/-- MTS (R437). -/
def execMts (n : Cluster) (e : Engine) (w : Word32) (s : State) : Host.Outcome State Fault Refusal :=
  s.runAwake (decide (n < 24) && decide (e < 8)) (mts n e w)

/-- ILLEGAL_INSTRUCTION (R429). -/
def execIllegalInstruction (n : Cluster) (e : Engine) (w : Word32) (s : State) : Host.Outcome State Fault Refusal :=
  s.runAwake (decide (n < 24) && decide (e < 8)) (illegalInstruction n e w)

/-- FETCH_FAULT (R442). -/
def execFetchFault (n : Cluster) (e : Engine) (s : State) : Host.Outcome State Fault Refusal :=
  s.runAwake (decide (n < 24) && decide (e < 8)) (fetchFault n e)

-- END EXEC

end Sys2Proof.Machine
end

