-- ==== Sys2Proof/Machine/EngineWork.lean ====
section
/-!
DEFINITION. Work items, accelerator instructions, CTL requests, and the commands for engines and clusters (R444 to R456).
-/
namespace Sys2Proof.Machine

/-- A little-endian field of a descriptor. -/
def bsNat (bs : List Byte) (ofs n : Nat) : Nat := leNat ((bs.drop ofs).take n)

/-! ### Accelerator instructions -/

/-- A port's entry for the next job: of those that no job in flight uses, the one used least often (R448; log entry 21). -/
def Chip.freeEntry (c : Chip) (n port : Nat) : Option Nat :=
  let busy := (c.inFlight n port).map (·.entry)
  let uses := fun e => Sparse.get 0 (c.clusAt n).seqs (port * 64 + e)
  ((List.range 64).filter (fun e => !busy.contains e)).foldl (fun o e => match o with
    | none => some e
    | some b => if uses e < uses b then some e else some b) none

/-- A CMP descriptor (Table 7-6). -/
def cmpDescOf (d : List Byte) : CmpDesc :=
  ⟨bsNat d 0 1, bitOf (bsNat d 1 1) 0, bsNat d 4 4, bsNat d 8 8, bsNat d 16 8, bsNat d 24 4, bsNat d 28 4⟩

/-- A cipher descriptor (Table 8-6). -/
def cipherDescOf (d : List Byte) (res : Nat) : CipherDesc :=
  ⟨bsNat d 4 2 % 4096, bsNat d 6 2 % 1024, bsNat d 8 4, bsNat d 12 4, bsNat d 16 8, bsNat d 24 8, bsNat d 32 8, bsNat d 40 1, res⟩

/-- A digest descriptor (Table 8-9). -/
def digestDescOf (d : List Byte) (res : Nat) : DigestDesc :=
  ⟨bsNat d 1 1, bsNat d 3 1, bsNat d 4 2, bsNat d 6 2, bsNat d 8 8, bsNat d 16 8, bsNat d 24 8, res⟩

/-- An RDE descriptor (Table 10-4). -/
def rdeDescOf (d : List Byte) (res : Nat) : RdeDesc :=
  ⟨bitOf (bsNat d 1 1) 0, bsNat d 3 1, bsNat d 4 1, bsNat d 5 1, bsNat d 6 1, bsNat d 7 1, bsNat d 8 4, bsNat d 16 8, bsNat d 24 8, res⟩

/-- The bytes of a class's descriptor (Table 13-15). -/
def descBytes (cls : Nat) : Nat := if cls = 1 || cls = 3 || cls = 4 then 32 else 64

/-- Whether the unit of a class takes another job of a pool now. -/
def Chip.unitRoom (c : Chip) (cls pool : Nat) (d : List Byte) : Bool :=
  match cls with
  | 1 => decide ((c.digestQueued pool).length < 256)
  | 2 => (c.newHandle pool).isSome
  | 3 => c.cmpRoom pool (bsNat d 0 1)
  | 4 => decide ((c.rdeQueued pool).length < 256)
  | _ => true

/-- Whether the port lets a job pass (R447). -/
def Chip.portAllows (c : Chip) (i : Issuer) (cls pool : Nat) (d : List Byte) : Bool :=
  match cls with
  | 1 => c.digestAllowed (c.digestJob i (bsNat d 0 1) pool (digestDescOf d i.resAddr))
  | 2 => c.cipherAllowed i.engine (bsNat d 0 1) (cipherDescOf d i.resAddr)
  | 3 => c.cmpAllowed i.engine (cmpDescOf d)
  | 4 => c.rdeAllowed i.engine (bsNat d 0 1) (rdeDescOf d i.resAddr)
  | _ => true

/-- A job handed to the unit of its class, held; CAT and CTL requests stay with the port. -/
def Chip.sendJob (c : Chip) (i : Issuer) (cls pool : Nat) (d : List Byte) : Chip :=
  match cls with
  | 1 => c.submitDigest i (bsNat d 0 1) pool (digestDescOf d i.resAddr)
  | 2 => c.submitCipher i (bsNat d 0 1) pool (cipherDescOf d i.resAddr)
  | 3 => c.submitCmp i pool (cmpDescOf d)
  | 4 => c.submitRde i (bsNat d 0 1) pool (rdeDescOf d i.resAddr)
  | _ => c

/-- The handle a unit gives the next job; a number no unit gives where it gives none. -/
def Chip.nextHandleOf (c : Chip) (cls pool : Nat) : Nat :=
  match cls with
  | 1 => c.dge.nextHandle
  | 2 => ((c.newHandle pool).map (·.2)).getD (2 ^ 32)
  | 3 => c.cmp.nextHandle
  | 4 => c.rde.nextHandle
  | _ => 2 ^ 32

/-- AISS once nothing makes it wait (R447 to R449): a free entry is taken and the job goes out held; the ticket goes to XD and the
release happens at commit. -/
def Chip.aissSend (c : Chip) (k pc : Nat) (w : Word32) (cls port entry desc res : Nat) : Chip :=
  let n := k / 8
  let g := (c.engAt k).view
  let pool := c.poolOf n
  let raw := g.readMem desc (descBytes cls)
  let d := raw.take 2 ++ natLe pool 1 ++ raw.drop 3
  let seq := (Sparse.get 0 (c.clusAt n).seqs (port * 64 + entry) + 1) % 0x1000000
  let ticket := port + 4 * entry + 256 * seq
  let i : Issuer := ⟨some k, ticket, res, true⟩
  let ok := c.portAllows i cls pool d
  let handle := if ok then c.nextHandleOf cls pool else 2 ^ 32
  let c := if ok then c.sendJob i cls pool d else c
  let j : PortJob := { port := port, entry := entry, seq := seq, eng := k, cls := cls, handle := handle, resAddr := res,
                       workId := ((g.item.map (·.workId)).getD 0), state := .held, status := if ok then 0 else statusDenied,
                       body := if 5 ≤ cls then d else [] }
  let c := c.modClus n (fun cl => { cl with
    jobs := cl.jobs.filter (fun x => !(x.port == port && x.entry == entry)) ++ [j]
    seqs := Sparse.set 0 cl.seqs (port * 64 + entry) seq })
  let streamed := cls == 2 && bsNat d 0 1 == 2
  let v := ticket + (if streamed then handle % 2 ^ 32 * 2 ^ 32 else 0)
  c.issue k ⟨pc, pcNext pc, none, none, [.release port entry, .reg (xdOf w) (BitVec.ofNat 64 v)]⟩ 0

/-- The exception an AISS raises: PORT, a misplaced descriptor or result area, or RESULT_BUSY (R447, R448). -/
def aissExc (g : Eng) (cls port desc res : Nat) : Option (Nat × Nat) :=
  if !bitOf g.ports port || cls = 0 || 6 < cls then some (0x07, 0)
  else if desc % 64 != 0 then some (0x03, desc)
  else if res % 64 != 0 then some (0x03, res)
  else if regionOf desc (descBytes cls) != .dmem then some (0x04, desc)
  else if regionOf res (resultBytes cls) != .dmem then some (0x04, res)
  else if bitOf (leNat (g.readMem res 1)) 0 then some (0x08, res)
  else none

/-- Whether an older DRAM store of the engine has not been acknowledged. -/
def Eng.storesPending (e : Eng) : Bool := e.queue.any (fun q => q.effects.any (fun x => match x with
  | .dram .. => true
  | _ => false))

/-- AISS (R447 to R449): it raises its exception, waits for the port (at most 64 jobs in flight, 8 of the engine not committed, older DRAM stores
acknowledged, room at the unit), or sends its job. -/
def aiss (n e : Nat) (w : Word32) (c : Chip) : Chip :=
  let k := engKey n e
  let g := c.engAt k
  if !(opOf w == 0x30 && fld w 0 3 == 0 && legalWord w && g.ready w) then c
  else if 16 ≤ g.queue.length then c.stallEng k 3
  else if g.awaits (xaOf w) || g.awaits (xbOf w) then c.stallEng k 2
  else
    let port := fld w 3 2
    let cls := fld w 5 4
    let v := g.view
    let desc := (v.reg (xaOf w)).toNat
    let res := (v.reg (xbOf w)).toNat
    let pc := g.fetchPc
    match aissExc v cls port desc res with
    | some x => c.issue k ⟨pc, pc, none, some x, []⟩ 0
    | none =>
      match c.freeEntry n port with
      | none => c.stallEng k 6
      | some entry =>
        if 8 ≤ (c.jobsHeld k).length || g.storesPending || !c.unitRoom cls (c.poolOf n) (v.readMem desc (descBytes cls)) then c.stallEng k 6
        else c.aissSend k pc w cls port entry desc res

/-- AWAIT (R448): the STATUS of the ticket's job once it has ended; 0xFF for a stale ticket. -/
def await (n e : Nat) (w : Word32) (c : Chip) : Chip :=
  let k := engKey n e
  let g := c.engAt k
  if !(opOf w == 0x30 && fld w 0 3 == 1 && legalWord w && g.ready w) then c
  else if 16 ≤ g.queue.length then c.stallEng k 3
  else if g.awaits (xaOf w) then c.stallEng k 2
  else
    let pc := g.fetchPc
    let done := fun v => c.issue k ⟨pc, pcNext pc, none, none, [.reg (xdOf w) (BitVec.ofNat 64 v)]⟩ 0
    match c.jobOf k ((g.view.reg (xaOf w)).toNat % 2 ^ 32) with
    | none => done 0xFF
    | some j => if j.state = .ended then done j.status else c.stallEng k 7

/-- ACAN (R451). -/
def acan (n e : Nat) (w : Word32) (c : Chip) : Chip :=
  c.oldest n e w (opOf w == 0x30 && fld w 0 3 == 2) 7 (fun c g =>
    (c.cancelJob (engKey n e) ((g.reg (xaOf w)).toNat % 2 ^ 32)).issue (engKey n e) ⟨g.pc, pcNext g.pc, none, none, []⟩ 0)

/-- AFENCE (R448): waits until every committed job of the engine has ended. -/
def afence (n e : Nat) (w : Word32) (c : Chip) : Chip :=
  c.oldest n e w (opOf w == 0x30 && fld w 0 3 == 3) 7 (fun c g =>
    if (c.jobsOut (engKey n e)).isEmpty then c.issue (engKey n e) ⟨g.pc, pcNext g.pc, none, none, []⟩ 0
    else c.stallEng (engKey n e) 7)

/-! ### Work items -/

/-- The buffered write of an INGEST item that has not been completed. -/
def Chip.itemWrite (c : Chip) (i : WorkItem) : Option WrBuf :=
  c.ing.writes.find? (fun w => w.own && w.fn == i.tenant && w.nsid == i.nsid && w.slba == i.slba && w.nlb == i.nlb && w.completed.isNone &&
    !w.zeroes)

/-- The Read or Verify of a READ or DELIVER item. -/
def Chip.itemRead (c : Chip) (i : WorkItem) : Option ReadCmd :=
  c.ing.reads.find? (fun r => r.id.fn == i.tenant && r.nsid == i.nsid && r.slba == i.slba && r.nlb == i.nlb)

/-- A read ended with a failing status. -/
def Chip.failRead (c : Chip) (r : ReadCmd) (lba : Nat) (st : Status) : Chip :=
  let c := ({ c with ing := { c.ing with reads := c.ing.reads.filter (fun x => x.id != r.id) } } : Chip).keepWanted
  (c.logReadErrors r [(lba - r.slba, st.sct, st.sc)] st).finish r.id st

/-- The blocks of a read that fail with one of them: those of the same stored record (R194). -/
def ReadCmd.failWith (r : ReadCmd) (k : Nat) : List Nat :=
  (List.range r.nlb).filter (fun i => i == k || (match r.srcs.getD k .deallocated, r.srcs.getD i .deallocated with
    | .stored a _, .stored b _ => a == b
    | _, _ => false))

/-- Blocks of a read marked as failed with a status; the others are processed all the same (R193). -/
def ReadCmd.mark (r : ReadCmd) (blocks : List Nat) (st : Status) : ReadCmd :=
  { r with failed := r.failed ++ blocks.map (fun i => (i, st.sct, st.sc)) }

/-- A READ item's failing status: the blocks of the record fail; a read whose every stored block has failed is answered at once. -/
def Chip.failRecord (c : Chip) (r : ReadCmd) (k : Nat) (st : Status) : Chip :=
  let x := r.mark (r.failWith k) st
  ({ c with ing := { c.ing with reads := modifyFirst (fun y => y.id == r.id) (fun _ => x) c.ing.reads } } : Chip).settleReads

/-- An item kept by the control cores until an engine takes it. -/
def Chip.keepItem (c : Chip) (i : WorkItem) : Chip :=
  { c with sec := { c.sec with waiting := c.sec.waiting.filter (fun x => x.workId != i.workId) ++ [i] } }

/-- R444 step 5: an item whose command is not completed ends it with Internal Error; any other waits for delivery again. -/
def Chip.disposeItem (c : Chip) (i : WorkItem) : Chip :=
  let st := stat 0 0x06 false
  match if i.kind = 1 then c.itemWrite i else none, if i.kind = 3 || i.kind = 4 then c.itemRead i else none with
  | some w, _ => (c.event 0x043 w.id.fn w.slba (256 * st.sct + st.sc) w.nsid 0).failWrite w st
  | none, some r => (c.event 0x043 r.id.fn r.slba (256 * st.sct + st.sc) r.nsid 0).failRead r r.slba st
  | none, none => c.keepItem i

/-- An engine's item ended for it, unless its DONE was sent. -/
def Chip.dropItem (c : Chip) (k : Nat) : Chip :=
  let g := c.engAt k
  let c := c.modEng k (fun e => { e with item := none, doneSent := false })
  match g.item with
  | some i => if g.doneSent then c else c.disposeItem i
  | none => c

/-- The distinct records of a read, in the order of its blocks. -/
def ReadCmd.records (r : ReadCmd) : List Nat :=
  (r.srcs.filterMap (fun s => match s with
    | .stored l _ => some l
    | _ => none)).eraseDups

/-- Whether an item can be delivered: a READ once its records are fetched, a DELIVER once its blocks have their plaintext or have failed (R176). -/
def Chip.itemReady (c : Chip) (i : WorkItem) : Bool :=
  match c.itemRead i with
  | none => true
  | some r => if i.kind = 3 then r.waits.isNone && !r.walking && r.records.all (fun l => (c.fetchOf r l).any (fun f => f.state != .reading))
    else i.kind != 4 || c.readReady r

/-- What stands in an item's first window when it is delivered: for READ, the records that verified, one after another; for DELIVER, the plaintext of
the stored blocks, block by block (log entry 105). -/
def Chip.stageItem (c : Chip) (i : WorkItem) : Chip :=
  let base := ((i.windows.head?).map (·.base)).getD 0
  match c.itemRead i with
  | none => c
  | some r =>
    if i.kind = 3 then c.store base (r.records.flatMap (fun l => ((c.fetchOf r l).map (·.record)).getD []))
    else if i.kind = 4 then
      (List.range r.nlb).foldl (fun d k => match r.srcs.getD k .deallocated with
        | .stored l skip => if (c.blockFails r k).isNone then d.store (base + k * 4096) (c.plainBlock r l skip) else d
        | _ => d) c
    else c

/-- An item that WFW takes: it and its windows stand in the ECR, and XD receives KIND (R445). -/
def Chip.takeItem (c : Chip) (k : Nat) (i : WorkItem) : Chip :=
  let c := c.modEng k (fun e => { e with item := some i, doneSent := false, queued := none })
  let c := { c with sec := { c.sec with waiting := c.sec.waiting.filter (fun x => x.workId != i.workId) } }
  let g := c.engAt k
  c.issue k ⟨g.pc, pcNext g.pc, none, none, [.reg g.wfwDest (BitVec.ofNat 64 i.kind)]⟩ 0

/-- WFW (R445): the current item ends and its windows close; the engine takes the item delivered while it was busy, or waits. -/
def wfw (n e : Nat) (w : Word32) (c : Chip) : Chip :=
  c.oldest n e w (opOf w == 0x38 && fn11 w == 3) 8 (fun c g =>
    let k := engKey n e
    let c := (c.dropItem k).modEng k (fun x => { x with wfwDest := xdOf w })
    match g.queued with
    | some i => c.takeItem k i
    | none => (c.modEng k (fun x => { x with state := .waiting, stall := 0, cyc := x.cyc.spend c.freeNow 8 0 })).useFree)

/-- Whether an engine serves an item: its cluster is in service in the pool of the item's tenant. -/
def Chip.servesItem (c : Chip) (n : Nat) (i : WorkItem) : Bool :=
  (c.clusAt n).state == .inService && c.poolOf n == (c.tenantOf i.tenant).pool

/-- An item given to an engine: taken by one that waits, held ready at one that is busy, kept by the control cores otherwise. -/
def Chip.giveItem (c : Chip) (n e : Nat) (i : WorkItem) : Chip :=
  let k := engKey n e
  let c := c.ungate n
  let g := c.engAt k
  if !c.servesItem n i || !c.itemReady i then c.keepItem i
  else
  let c := c.stageItem i
  if g.state = .waiting then c.takeItem k i
  else if (g.state == .running || g.state == .stalled) && g.queued.isNone then
    let c := { c with sec := { c.sec with waiting := c.sec.waiting.filter (fun x => x.workId != i.workId) } }
    c.modEng k (fun x => { x with queued := some i, queuedAt := c.now })
  else c.keepItem i

/-- WORK_ITEM_DELIVERY (R445). -/
def workItemDelivery (n e : Nat) (item : WorkItem) (c : Chip) : Chip := c.giveItem n e item

/-- WORK_ITEM_TIMEOUT (R445): an item not taken within 1 ms of its delivery moves to a free engine of the pool. -/
def workItemTimeout (n e toN toE : Nat) (c : Chip) : Chip :=
  let k := engKey n e
  let g := c.engAt k
  match g.queued with
  | none => c
  | some i =>
    if decide (g.queuedAt + 1000000 ≤ c.now) && c.servesItem toN i && (c.engAt (engKey toN toE)).state == .waiting then
      (c.modEng k (fun x => { x with queued := none })).takeItem (engKey toN toE) i
    else c

/-! ### Programs and clusters -/

/-- A program's image placed from the first byte of a memory that is otherwise zeros (R425). -/
def memImage (base : Nat) (bs : List Byte) : List Host.Cell := Mem.write [] base bs

/-- A program of the active image. -/
def Chip.program (c : Chip) (id : Nat) : Option Program := c.kcf.active.bind (fun i => i.programs.find? (·.id == id))

/-- The counters of an engine that the register file holds (Table 13-23). -/
def engCounters (n e : Nat) : List Fld :=
  [R.SEC_ENG_CNT_INSTRET_INSTRET n e, R.SEC_ENG_CNT_SQUASHED_SQUASHED n e, R.SEC_ENG_CNT_JOBS_JOBS n e,
   R.SEC_ENG_CNT_STREAM_STREAM_BYTES n e, R.SEC_ENG_CNT_ECC_ECC n e]

/-- R454: a program placed in an engine: registers cleared, memories written, counters at 0, HALTED at ENTRY. What SEC_ENG_FAULT, SEC_ENG_EPC and
SEC_ENG_FADDR show of its last fault stays (Table 13-20; log entry 125). -/
def Chip.loadProgram (c : Chip) (k : Nat) (p : Program) : Chip :=
  (c.modEng k (fun g => { state := .halted, pc := p.entry, progId := p.id, ports := p.ports, entry := p.entry,
                          faultCause := g.faultCause, faultEpc := g.faultEpc, faultAddr := g.faultAddr,
                          imem := memImage 0 p.imem, dmem := memImage 0x10000 p.dmem })).clearAll (engCounters (k / 8) (k % 8))

/-- R452: an engine halted: uncommitted instructions squashed, a stream instruction kept where it stopped, and an item it waited for or
held ready left to another engine. -/
def Chip.haltEng (c : Chip) (k : Nat) : Chip :=
  let g := c.engAt k
  if g.state = .running || g.state = .stalled || g.state = .waiting || g.state = .halting then
    let c := c.squash k g.queue
    let c := match g.queued with
      | some i => c.keepItem i
      | none => c
    c.modEng k (fun x => { x with state := .halted, stall := 0, queued := none, latched := none })
  else c

/-- Every committed job of an engine cancelled (R451, R454). -/
def Chip.cancelJobs (c : Chip) (k : Nat) : Chip := (c.jobsOut k).foldl (fun d j => d.cancelJob k j.ticket) c

/-- The engines of a cluster. -/
def engsOf (n : Nat) : List Nat := (List.range 8).map (engKey n)

/-- R65: an engine's item taken from it to be restarted from the write buffer by another engine, unless its DONE was sent. -/
def Chip.returnItem (c : Chip) (k : Nat) : Chip :=
  let g := c.engAt k
  let c := c.modEng k (fun e => { e with item := none, doneSent := false })
  match g.item with
  | some i => if g.doneSent then c else c.keepItem i
  | none => c

/-- A cluster's engines halted and their jobs cancelled; what is left of their work is restarted elsewhere (R65, R66, R455). -/
def Chip.stopCluster (c : Chip) (n : Nat) : Chip :=
  (engsOf n).foldl (fun d k => ((d.haltEng k).cancelJobs k).returnItem k) c

/-- R65, R455: the program of a cluster's PARTITION entry loaded and resumed in all its engines; a spare cluster is gated. False
where the image has no such program. -/
def Chip.startCluster (c : Chip) (n : Nat) : Chip × Bool :=
  let ent := match c.kcf.active with
    | some i => i.clusters.getD n {}
    | none => {}
  let c := c.modClus n (fun cl => { cl with jobs := [], faultTimes := [], hostDrain := false })
  if ent.pool = 15 then
    ((engsOf n).foldl (fun d k => d.modEng k Eng.gate) (c.modClus n (fun cl => { cl with state := .spare })), true)
  else
    match c.program ent.prog with
    | none => (c, false)
    | some p =>
      let c := (engsOf n).foldl (fun d k => (d.loadProgram k p).modEng k (fun e => { e with state := .running })) c
      (c.modClus n (fun cl => { cl with state := .inService }), true)

/-- Whether a pool that a valid tenant names has no cluster in service. -/
def Chip.emptyPool (c : Chip) : Option Nat :=
  match c.kcf.active with
  | none => none
  | some i => ((i.tenants.filter (·.2.valid)).map (·.2.pool)).find? (fun p =>
      !(List.range 24).any (fun n => (c.clusAt n).state == .inService && c.poolOf n == p))

/-- R66: a cluster taken out of service: halted, gated and marked failed. -/
def Chip.failCluster (c : Chip) (n : Nat) : Chip :=
  let c := c.stopCluster n
  let c := (engsOf n).foldl (fun d k => d.modEng k Eng.gate) (c.modClus n (fun cl => { cl with state := .failed, jobs := [], hostDrain := false }))
  (c.raise R.KCF_CLUSTER_FAIL_FAIL n).event 0x082 n 0 0 0 0

/-- R66: the Critical event of a pool left with no cluster. -/
def Chip.checkPools (c : Chip) : Chip :=
  match c.emptyPool with
  | some p => c.event 0x083 p 0 0 0 0
  | none => c

/-- R444 step 5: an item is delivered again to an engine of another cluster of the pool, where there is one. -/
def Chip.elsewhere (c : Chip) (n toN : Nat) (i : WorkItem) : Bool :=
  toN != n || !(List.range 24).any (fun m => m != n && c.servesItem m i)

/-- ENGINE_FAULT_RECOVERY (R444): the fault is recorded, the engine's jobs cancelled, its program reloaded and resumed, and its item disposed
of; the 16th fault of a cluster within a second takes the cluster out of service. -/
def engineFaultRecovery (n e toN toE : Nat) (c : Chip) : Chip :=
  let k := engKey n e
  let g := c.engAt k
  if g.state = .faulted && (c.clusAt n).state == .inService then
    let c := (c.event 0x0C0 k g.faultEpc g.faultCause 0 0).cancelJobs k
    let times := (c.now :: (c.clusAt n).faultTimes).filter (fun t => decide (c.now < t + 1000000000))
    let c := c.modClus n (fun cl => { cl with faultTimes := times })
    let c := (match g.queued with
      | some i => c.keepItem i
      | none => c).modEng k (fun x => { x with queued := none })
    let c := c.dropItem k
    let c := match g.item with
      | some i => if c.sec.waiting.any (fun x => x.workId == i.workId) && c.elsewhere n toN i then c.giveItem toN toE i else c
      | none => c
    if 16 ≤ times.length then (c.failCluster n).checkPools
    else
      match c.program g.progId with
      | some p => (c.loadProgram k p).modEng k (fun x => { x with state := .running })
      | none => (c.failCluster n).checkPools
  else c

/-! ### CTL requests (R446) -/

/-- The committed CTL job that carries a request (R446): its OP, its WORK_ID, and the fields of its body, by offset and size in the descriptor. A
request whose AISS has not committed is not acted on (R449). -/
def Chip.ctlJob (c : Chip) (k op work : Nat) (body : List (Nat × Nat × Nat)) : Option PortJob :=
  (c.clusAt (k / 8)).jobs.find? (fun j => j.eng == k && j.cls == 6 && j.state == .committed && bsNat j.body 0 1 == op && bsNat j.body 8 8 == work &&
    body.all (fun f => bsNat j.body f.1 f.2.1 == f.2.2 % 256 ^ f.2.1))

/-- The reply of a CTL request. -/
def Chip.ctlReply (c : Chip) (k : Nat) (j : PortJob) (status : Nat) (reply : List Byte) : Chip :=
  c.endPortJob k j.ticket status ([1#8] ++ natLe status 1 ++ List.replicate 6 0#8 ++ (reply ++ List.replicate 24 0#8).take 24)

/-- A CTL request checked against the engine's item: `f` acts on it and answers its reply, or refuses it with 0xF0. -/
def Chip.ctl (c : Chip) (n e op work : Nat) (body : List (Nat × Nat × Nat)) (kinds : List Nat) (f : Chip → WorkItem → Option (Chip × List Byte)) : Chip :=
  let k := engKey n e
  let g := c.engAt k
  match c.ctlJob k op work body, g.item with
  | none, _ => c
  | some j, none => c.ctlReply k j statusDenied []
  | some j, some i =>
    if i.workId != work || g.doneSent || !kinds.contains i.kind then c.ctlReply k j statusDenied []
    else
      match f c i with
      | some (c, reply) => c.ctlReply k j 0 reply
      | none => c.ctlReply k j statusDenied []

/-- Every kind of Table 13-13. -/
def allKinds : List Nat := [1, 2, 3, 4, 5, 6]

/-- What an item's DONE does (R446): a failing INGEST ends its write; a failing READ fails the blocks of a record and a failing DELIVER one block,
and a DELIVER delivers every staged block that passed (R193, R194); another item that failed waits for delivery again. -/
def Chip.itemDone (c : Chip) (i : WorkItem) (st : Status) (failing : Nat) : Chip :=
  let ok := st.sct == 0 && st.sc == 0
  match i.kind with
  | 1 => match c.itemWrite i with
    | some w => if ok then c else c.failWrite w st
    | none => c
  | 3 => match c.itemRead i with
    | some r => if ok then c else c.failRecord r failing st
    | none => c
  | 4 => match c.itemRead i with
    | some r =>
      let base := ((i.windows.head?).map (·.base)).getD 0
      (c.deliver (if ok then r else r.mark [failing] st) base).store base (List.replicate (((i.windows.head?).map (·.len)).getD 0) 0#8)
    | none => c
  | _ => if ok then c else c.keepItem i

/-- CTL DONE: a status of Table 4-10, posted with its DNR; any other does not fit, nor does the end of a DELIVER some of whose blocks have neither their
plaintext nor a failure (R176). -/
def ctlDone (n e work sct sc failing : Nat) (c : Chip) : Chip :=
  c.ctl n e 1 work [(16, 2, sct % 8 * 256 + sc % 256), (18, 4, failing)] allKinds (fun c i => ((tableStatus (sct % 8) (sc % 256)).filter (fun _ => i.kind != 4 || (c.itemRead i).all c.readReady)).map (fun st =>
    ((c.modEng (engKey n e) (fun g => { g with doneSent := true })).itemDone i st failing, [])))

/-- CTL CHUNK: a cut chunk and its answer, which must be the one that was given. -/
def ctlChunk (n e work lba blocks : Nat) (duplicate : Bool) (locator : Nat) (c : Chip) : Chip :=
  c.ctl n e 2 work [(16, 8, lba), (24, 1, blocks), (25, 1, flag duplicate), (32, 8, locator)] [1, 6] (fun c i =>
    match c.ing.chunks.find? (fun k => k.nsid == i.nsid && k.slba == lba && k.blocks == blocks) with
    | none => none
    | some k =>
      match k.answer with
      | .undecided => if duplicate then none else some ((c.modChunk k.id (fun k => { k with answer := .unique })).settle, [])
      | .unique => if duplicate then none else some (c, [])
      | .duplicate l _ => if duplicate && (l == locator || (inflightChunk l).isSome) then some (c, []) else none)

/-- Where a record lies in an open stripe's buffers: the data extent's index and its address. -/
def Chip.recordPlace (c : Chip) (os : OpenStripe) (ent : StripeEnt) (locator : Nat) : Option (Nat × Nat) :=
  let str := (c.shelfEnt (locShelf locator)).str
  match ent.map.idxOf? str with
  | none => none
  | some j => if j < os.extents then some (j, os.bufs.getD j 0 + 64 * locOfs locator) else none

/-- Bytes of a buffer filled with zeros. -/
def Chip.zeroFill (c : Chip) (base start stop : Nat) : Chip := c.store (base + start) (List.replicate (stop - start) 0#8)

/-- CTL PACKED: a record written into an extent buffer of the open stripe that its locator names (R163), in the next extent only where the open one has no
room for it; encrypted under the namespace's slot, and compressed only in a class that compresses (R160). Its padding and what is left of a closed
extent are zeros (R162, R163). A stripe whose last extent is full is sealed (R164). -/
def ctlPacked (n e work lba blocks locator : Nat) (c : Chip) : Chip :=
  c.ctl n e 3 work [(16, 8, lba), (24, 1, blocks), (32, 8, locator)] [2] (fun c i =>
    match c.ing.chunks.find? (fun k => k.nsid == i.nsid && k.slba == lba && k.blocks == blocks && k.packed.isNone && k.answer == .unique),
        c.ing.stripes.find? (fun s => s.seid == locSeid locator && s.cohort == locCohort locator && s.cls == i.cls) with
    | some k, some os =>
      match c.openEnt os with
      | none => none
      | some ent =>
        match c.recordPlace os ent locator with
        | none => none
        | some (j, addr) =>
          let h := c.load addr 64
          let bytes := ceilDiv (64 + bsNat h 12 4) 64 * 64
          let ofs := 64 * locOfs locator
          let size := (c.layoutOf os.cls).extent
          let n := c.nsOf i.nsid
          let fits := if j = os.extent then os.used ≤ ofs else j = os.extent + 1 ∧ size < os.used + bytes
          if bsNat h 0 2 != 0x4B43 || bsNat h 3 1 != blocks || bsNat h 6 2 != n.keySlot || (bsNat h 2 1 != 0 && !bitOf (c.layoutOf os.cls).opts 0) ||
              ent.cohort != locCohort locator || !decide fits || decide (size < ofs + bytes) then none
          else
            let c := if j = os.extent then c.zeroFill (os.bufs.getD j 0) os.used ofs else (c.fillExtent os).zeroFill (os.bufs.getD j 0) 0 ofs
            let c := c.zeroFill addr (64 + bsNat h 12 4) bytes
            let stripes := modifyFirst (fun (s : OpenStripe) => s.seid == os.seid && s.cohort == os.cohort)
              (fun s => { s with extent := j, used := ofs + bytes, firstAt := s.firstAt.orElse (fun _ => some c.now) }) c.ing.stripes
            let fl := modifyFirst (fun (f : InFlight) => f.chunk == k.id && !f.programmed)
              (fun f => { f with epoch := bsNat h 48 6, keySlot := bsNat h 6 2 }) c.dd.inflight
            let c := { c with ing := { c.ing with stripes := stripes }, dd := { c.dd with inflight := fl } }
            let r : RecEnt := { strip := j, ofs := locOfs locator, bytes := bytes / 64, live := 1, fp := k.fp, dom := k.dom, blocks := blocks }
            let c := c.modStripe ent.cohort ent.seid (fun s => { s with live := s.live + bytes / 64, recs := s.recs ++ [r] })
            let c := c.modChunk k.id (fun k => { k with packed := some (locator, os.seid) })
            some (if j + 1 = os.extents && ofs + bytes = size then c.sealStripe { os with extent := j, used := size } os.extents else c, [])
    | _, _ => none)

/-- CTL OPEN: the open stripe of the class, opened where there is none; its SEID, and its buffers' addresses in the window that ARGS names.
While no cohort takes a stripe of the class the request waits (R165). -/
def ctlOpen (n e work cls : Nat) (c : Chip) : Chip :=
  let open_ := match c.ing.stripes.find? (fun s => s.cls == cls && !s.shadow) with
    | some os => some (c, os)
    | none => c.openStripe cls
  match open_ with
  | none =>
    if (c.engAt (engKey n e)).item.any (fun i => i.workId == work && i.kind == 2 && i.cls == cls) && !(c.engAt (engKey n e)).doneSent then c
    else c.ctl n e 4 work [(16, 1, cls)] [2] (fun _ _ => none)
  | some (d, os) =>
    c.ctl n e 4 work [(16, 1, cls)] [2] (fun _ i =>
      if i.cls != cls then none
      else
        match i.windows[(i.args.headD 0#8).toNat]? with
        | some win => some (d.store win.base (os.bufs.flatMap (fun a => natLe a 8)), natLe os.seid 4)
        | none => some (d, natLe os.seid 4))

/-- CTL SEALED: the open stripe goes to flash translation (R164). -/
def ctlSealed (n e work seid strips : Nat) (c : Chip) : Chip :=
  c.ctl n e 5 work [(16, 4, seid), (20, 2, strips)] [2, 5] (fun c i =>
    match c.ing.stripes.find? (fun s => s.seid == seid && s.cls == i.cls && !s.shadow) with
    | some os => if os.strips ≤ strips && decide (strips ≤ os.extents) then some (c.sealStripe os strips, []) else none
    | none => none)

/-- CTL EVENT: an event of Table 19-2 recorded. -/
def ctlEvent (n e work code a0 a1 a2 a3 : Nat) (c : Chip) : Chip :=
  c.ctl n e 6 work [(16, 2, code), (18, 8, a0), (26, 8, a1), (34, 8, a2), (42, 8, a3)] allKinds (fun c _ =>
    if (eventSeverity code).isSome then some (c.event code (engKey n e) a0 a1 a2 a3, []) else none)

/-! ### Commands for engines and clusters -/

/-- An engine command refused (R456). -/
def Chip.engRefuse (c : Chip) (n e code : Nat) : Chip :=
  ((c.set (R.SEC_ENG_RESULT_REFUSED n e) 1).set (R.SEC_ENG_RESULT_REFUSE_CODE n e) code).refusedCommand (R.SEC_ENG_CMD_CMD n e)

/-- An engine command accepted: VALID clears until it ends. -/
def Chip.engAccept (c : Chip) (n e : Nat) : Chip := c.startOp (R.SEC_ENG_RESULT_VALID n e)

/-- An engine command's outcome posted. -/
def Chip.engEnd (c : Chip) (n e : Nat) : Chip := c.postResult (R.SEC_ENG_RESULT_VALID n e) [(R.SEC_ENG_RESULT_CODE n e, 0)]

/-- Whether a cluster is OFFLINE. -/
def Chip.offline (c : Chip) (n : Nat) : Bool := (c.clusAt n).state == .offline

/-- HALT (R452). It ends when the engine is HALTED. -/
def engHalt (n e : Nat) (c : Chip) : Chip :=
  if !c.offline n then c.engRefuse n e 1
  else
    let c := (c.engAccept n e).haltEng (engKey n e)
    if (c.engAt (engKey n e)).state = .halted then c.engEnd n e else c

/-- RESUME (R453). -/
def engResume (n e : Nat) (c : Chip) : Chip :=
  if !c.offline n then c.engRefuse n e 1
  else if (c.engAt (engKey n e)).state != .halted then c.engRefuse n e 2
  else ((c.engAccept n e).modEng (engKey n e) (fun g => { g with state := .running })).engEnd n e

/-- LOAD (R454). -/
def engineLoad (n e prog : Nat) (c : Chip) : Chip :=
  let k := engKey n e
  let st := (c.engAt k).state
  if !c.offline n then c.engRefuse n e 1
  else if !(st == .halted || st == .faulted || st == .gated) then c.engRefuse n e 2
  else if !(c.jobsOut k).isEmpty then c.engRefuse n e 3
  else
    match c.program prog with
    | none => c.engRefuse n e 4
    | some p => ((c.engAccept n e).loadProgram k p).engEnd n e

/-- CANCEL_ALL (R454). -/
def cancelAll (n e : Nat) (c : Chip) : Chip :=
  let st := (c.engAt (engKey n e)).state
  if !c.offline n then c.engRefuse n e 1
  else if !(st == .halted || st == .faulted) then c.engRefuse n e 2
  else ((c.engAccept n e).cancelJobs (engKey n e)).engEnd n e

/-- A cluster command refused (R455). -/
def Chip.clRefuse (c : Chip) (n code : Nat) : Chip :=
  ((c.set (R.SEC_CL_RESULT_REFUSED n) 1).set (R.SEC_CL_RESULT_REFUSE_CODE n) code).refusedCommand (R.SEC_CL_CMD_CMD n)

/-- A cluster command's outcome posted. -/
def Chip.clEnd (c : Chip) (n : Nat) : Chip := c.postResult (R.SEC_CL_RESULT_VALID n) [(R.SEC_CL_RESULT_CODE n, 0)]

/-- Whether a cluster has work in flight: an engine with an item, or a job that has not ended. -/
def Chip.clusterBusy (c : Chip) (n : Nat) : Bool :=
  (engsOf n).any (fun k => (c.engAt k).item.isSome || !(c.jobsOut k).isEmpty)

/-- R65 steps 2 and 3 done for OFFLINE: every engine halted, what is left of its work restarted elsewhere (R455). -/
def Chip.goOffline (c : Chip) (n : Nat) : Chip :=
  ((c.stopCluster n).modClus n (fun cl => { cl with state := .offline, hostDrain := false })).clEnd n

/-- CLUSTER_OFFLINE (R455): new work stops; the cluster drains, and is halted once it has. -/
def clusterOffline (n : Nat) (c : Chip) : Chip :=
  if c.get R.KCF_STATUS_STATE = 7 then c.clRefuse n 5
  else if (c.clusAt n).state = .spare then c.clRefuse n 6
  else
    let c := c.startOp (R.SEC_CL_RESULT_VALID n)
    if c.offline n then c.clEnd n
    else if !c.clusterBusy n then c.goOffline n
    else
      let tmo := c.get R.KCF_QUIESCE_TMO_QUIESCE_TMO
      c.modClus n (fun cl => { cl with state := .quiescing, hostDrain := true, drainAt := c.now, drainTmo := tmo })

/-- CLUSTER_ONLINE (R455): every engine's jobs cancelled, the PARTITION program loaded, and the cluster back in its pool. -/
def clusterOnline (n : Nat) (c : Chip) : Chip :=
  if c.get R.KCF_STATUS_STATE = 7 then c.clRefuse n 5
  else if (c.clusAt n).state = .spare then c.clRefuse n 6
  else
    let c := (c.startOp (R.SEC_CL_RESULT_VALID n)).stopCluster n
    match c.startCluster n with
    | (c, true) => (c.lower R.KCF_CLUSTER_FAIL_FAIL n).clEnd n
    | (c, false) => ((c.failCluster n).checkPools).clEnd n

/-- CANCEL_LOG_RELEASE (Table 13-19): HEAD moves, releasing the entries before it. -/
def cancelLogRelease (n head : Nat) (c : Chip) : Chip :=
  let old := c.get (R.SEC_CL_CLOG_HEAD n)
  let c := c.set (R.SEC_CL_CLOG_HEAD n) (head % 256)
  if head % 256 = old then c else c.modClus n (fun cl => { cl with clogFull := false })

/-- SEC_CL_CNT_CLR. -/
def secClCntClr (n : Nat) (c : Chip) : Chip :=
  c.clearAll [R.SEC_CL_CNT_FAULTS_FAULTS n, R.SEC_CL_CNT_CANCEL_CANCELLED n, R.SEC_CL_CNT_BURNED_BURNED n, R.SEC_CL_CNT_CLOG_LOST_CLOG_LOST n]

/-- SEC_ENG_CNT_CLR: the twelve counters of an engine. -/
def secEngCntClr (n e : Nat) (c : Chip) : Chip :=
  (c.clearAll (engCounters n e)).modEng (engKey n e) (fun g => { g with cyc := { sinceLoad := g.cyc.sinceLoad } })

-- EXEC wfw aiss await acan afence workItemDelivery workItemTimeout engineFaultRecovery ctlDone ctlChunk ctlPacked ctlOpen ctlSealed ctlEvent engHalt engResume engineLoad cancelAll clusterOffline clusterOnline cancelLogRelease secClCntClr secEngCntClr

/-- WFW (R445). -/
def execWfw (n : Cluster) (e : Engine) (w : Word32) (s : State) : Host.Outcome State Fault Refusal :=
  s.runAwake (decide (n < 24) && decide (e < 8)) (wfw n e w)

/-- AISS (R449). -/
def execAiss (n : Cluster) (e : Engine) (w : Word32) (s : State) : Host.Outcome State Fault Refusal :=
  s.runAwake (decide (n < 24) && decide (e < 8)) (aiss n e w)

/-- AWAIT (R448). -/
def execAwait (n : Cluster) (e : Engine) (w : Word32) (s : State) : Host.Outcome State Fault Refusal :=
  s.runAwake (decide (n < 24) && decide (e < 8)) (await n e w)

/-- ACAN (R451). -/
def execAcan (n : Cluster) (e : Engine) (w : Word32) (s : State) : Host.Outcome State Fault Refusal :=
  s.runAwake (decide (n < 24) && decide (e < 8)) (acan n e w)

/-- AFENCE (R448). -/
def execAfence (n : Cluster) (e : Engine) (w : Word32) (s : State) : Host.Outcome State Fault Refusal :=
  s.runAwake (decide (n < 24) && decide (e < 8)) (afence n e w)

/-- WORK_ITEM_DELIVERY (R445). -/
def execWorkItemDelivery (n : Cluster) (e : Engine) (item : WorkItem) (s : State) : Host.Outcome State Fault Refusal :=
  s.runAwake (decide (n < 24) && decide (e < 8)) (workItemDelivery n e item)

/-- WORK_ITEM_TIMEOUT (R445). -/
def execWorkItemTimeout (n : Cluster) (e : Engine) (toN : Cluster) (toE : Engine) (s : State) : Host.Outcome State Fault Refusal :=
  s.runAwake (decide (n < 24) && decide (e < 8) && decide (toN < 24) && decide (toE < 8)) (workItemTimeout n e toN toE)

/-- ENGINE_FAULT_RECOVERY (R444). -/
def execEngineFaultRecovery (n : Cluster) (e : Engine) (toN : Cluster) (toE : Engine) (s : State) : Host.Outcome State Fault Refusal :=
  s.runAwake (decide (n < 24) && decide (e < 8) && decide (toN < 24) && decide (toE < 8)) (engineFaultRecovery n e toN toE)

/-- CTL_DONE (R446). -/
def execCtlDone (n : Cluster) (e : Engine) (work : Nat) (sct : Nat) (sc : Nat) (failing : Nat) (s : State) : Host.Outcome State Fault Refusal :=
  s.runAwake (decide (n < 24) && decide (e < 8)) (ctlDone n e work sct sc failing)

/-- CTL_CHUNK (R446). -/
def execCtlChunk (n : Cluster) (e : Engine) (work : Nat) (lba : Nat) (blocks : Nat) (duplicate : Bool) (locator : Nat) (s : State) : Host.Outcome State Fault Refusal :=
  s.runAwake (decide (n < 24) && decide (e < 8)) (ctlChunk n e work lba blocks duplicate locator)

/-- CTL_PACKED (R446). -/
def execCtlPacked (n : Cluster) (e : Engine) (work : Nat) (lba : Nat) (blocks : Nat) (locator : Nat) (s : State) : Host.Outcome State Fault Refusal :=
  s.runAwake (decide (n < 24) && decide (e < 8)) (ctlPacked n e work lba blocks locator)

/-- CTL_OPEN (R446). -/
def execCtlOpen (n : Cluster) (e : Engine) (work : Nat) (cls : Nat) (s : State) : Host.Outcome State Fault Refusal :=
  s.runAwake (decide (n < 24) && decide (e < 8)) (ctlOpen n e work cls)

/-- CTL_SEALED (R446). -/
def execCtlSealed (n : Cluster) (e : Engine) (work : Nat) (seid : Nat) (strips : Nat) (s : State) : Host.Outcome State Fault Refusal :=
  s.runAwake (decide (n < 24) && decide (e < 8)) (ctlSealed n e work seid strips)

/-- CTL_EVENT (R446). -/
def execCtlEvent (n : Cluster) (e : Engine) (work : Nat) (code : Nat) (a0 : Nat) (a1 : Nat) (a2 : Nat) (a3 : Nat) (s : State) : Host.Outcome State Fault Refusal :=
  s.runAwake (decide (n < 24) && decide (e < 8)) (ctlEvent n e work code a0 a1 a2 a3)

/-- HALT (R452). -/
def execEngHalt (n : Cluster) (e : Engine) (s : State) : Host.Outcome State Fault Refusal :=
  s.runBar2 (decide (n < 24) && decide (e < 8)) true (R.SEC_ENG_CMD_CMD n e) (engHalt n e)

/-- RESUME (R453). -/
def execEngResume (n : Cluster) (e : Engine) (s : State) : Host.Outcome State Fault Refusal :=
  s.runBar2 (decide (n < 24) && decide (e < 8)) true (R.SEC_ENG_CMD_CMD n e) (engResume n e)

/-- ENGINE_LOAD (R454). -/
def execEngineLoad (n : Cluster) (e : Engine) (prog : Nat) (s : State) : Host.Outcome State Fault Refusal :=
  s.runBar2 (decide (n < 24) && decide (e < 8)) true (R.SEC_ENG_CMD_CMD n e) (engineLoad n e prog)

/-- CANCEL_ALL (R454). -/
def execCancelAll (n : Cluster) (e : Engine) (s : State) : Host.Outcome State Fault Refusal :=
  s.runBar2 (decide (n < 24) && decide (e < 8)) true (R.SEC_ENG_CMD_CMD n e) (cancelAll n e)

/-- OFFLINE (R455). -/
def execClusterOffline (n : Cluster) (s : State) : Host.Outcome State Fault Refusal :=
  s.runBar2 (decide (n < 24)) true (R.SEC_CL_CMD_CMD n) (clusterOffline n)

/-- ONLINE (R455). -/
def execClusterOnline (n : Cluster) (s : State) : Host.Outcome State Fault Refusal :=
  s.runBar2 (decide (n < 24)) true (R.SEC_CL_CMD_CMD n) (clusterOnline n)

/-- CANCEL_LOG_RELEASE (R456). -/
def execCancelLogRelease (n : Cluster) (head : Nat) (s : State) : Host.Outcome State Fault Refusal :=
  s.runBar2 (decide (n < 24)) true (R.SEC_CL_CLOG_HEAD n) (cancelLogRelease n head)

/-- SEC_CL_CNT_CLR (R456). -/
def execSecClCntClr (n : Cluster) (s : State) : Host.Outcome State Fault Refusal :=
  s.runBar2 (decide (n < 24)) true (R.SEC_CL_CNT_CLR_CLR n) (secClCntClr n)

/-- SEC_ENG_CNT_CLR (R456). -/
def execSecEngCntClr (n : Cluster) (e : Engine) (s : State) : Host.Outcome State Fault Refusal :=
  s.runBar2 (decide (n < 24) && decide (e < 8)) true (R.SEC_ENG_CNT_CLR_CLR n e) (secEngCntClr n e)

-- END EXEC

end Sys2Proof.Machine
end

