-- ==== Sys2Proof/Machine/Image.lean ====
section
/-!
DEFINITION. Kilip images (chapter 2): the layout of Tables 2-1 to 2-12, the checks of Table 2-13 and the live-state conflicts of
Table 2-14.
-/
namespace Sys2Proof.Machine

/-- What fails in an image: KCF_RESULT.CODE, SECTION (0xFF for none) and the offset of the first offending byte. -/
abbrev ImgErr := Nat × Nat × Nat

/-- A little-endian number of `n` bytes at an offset. -/
def numAt (bs : List Byte) (ofs n : Nat) : Nat := leNat ((bs.drop ofs).take n)

/-- A big-endian number of `n` bytes at an offset (R50). -/
def bigAt (bs : List Byte) (ofs n : Nat) : Nat := beNat ((bs.drop ofs).take n)

/-- One condition of a check: the section it concerns, the offset of the field, and whether it holds. -/
abbrev ImgCond := Nat × Nat × Bool

/-- The first condition that does not hold. -/
def firstBad (code : Nat) (l : List ImgCond) : Option ImgErr := (l.find? (fun e => !e.2.2)).map (fun e => (code, e.1, e.2.1))

/-- Reserved bytes, each of which must be 0. -/
def zeroBytes (bs : List Byte) (sec ofs n : Nat) : List ImgCond := (upFrom ofs n).map (fun o => (sec, o, numAt bs o 1 == 0))

/-- A directory entry (Table 2-2) with its index. -/
structure DirEnt where
  idx : Nat
  typ : Nat
  sver : Nat
  ofs : Nat
  size : Nat
  digest : List Byte

/-- The offset of a directory entry. -/
def dirOfs (i : Nat) : Nat := 0x40 + 48 * i

/-- The directory (R41). -/
def imgDir (bs : List Byte) : List DirEnt :=
  (List.range (numAt bs 6 2)).map (fun i =>
    let o := dirOfs i
    ⟨i, numAt bs o 2, numAt bs (o + 2) 2, numAt bs (o + 4) 4, numAt bs (o + 8) 4, (bs.drop (o + 0x10)).take 32⟩)

/-- The required section types with their sizes; PROGRAMS has an upper limit only (Table 2-3). -/
def sectionTypes : List (Nat × Nat) :=
  [(1, 64), (2, 448), (3, 32768), (4, 512), (5, 512), (6, 64), (7, 2064), (8, 10485760), (0xFF, 256)]

/-- Whether a section of a type may have a size. -/
def sizeOk (typ size : Nat) : Bool :=
  match sectionTypes.find? (fun e => e.1 == typ) with
  | some (t, n) => if t = 8 then decide (size ≤ n) else size == n
  | none => true

/-- The section of a type; an empty one where there is none. -/
def secOf (ds : List DirEnt) (typ : Nat) : DirEnt := (ds.find? (fun d => d.typ == typ)).getD ⟨0xFF, typ, 0, 0, 0, []⟩

/-- Checks 1 to 4 of Table 2-13. -/
def checkHeader (bs : List Byte) (srcLen rev : Nat) : Option ImgErr :=
  let len := numAt bs 8 4
  (firstBad 2 [(0xFF, 8, len == srcLen && decide (len ≤ 0x1000000) && len % 64 == 0)]).orElse (fun _ =>
  (firstBad 3 [(0xFF, 0, numAt bs 0 4 == 0x50494C4B)]).orElse (fun _ =>
  (firstBad 4 ((0xFF, 4, numAt bs 4 2 == 1) :: (imgDir bs).map (fun d => (d.idx, dirOfs d.idx + 2, d.sver == 1)))).orElse (fun _ =>
   firstBad 5 [(0xFF, 0xC, numAt bs 0xC 2 == 0x0960), (0xFF, 0xE, decide (numAt bs 0xE 1 ≤ rev))])))

/-- Check 5: the directory (R39, R41, R42). -/
def checkDir (bs : List Byte) : Option ImgErr :=
  let ds := imgDir bs
  let n := ds.length
  let len := numAt bs 8 4
  let start := fun (i : Nat) => match i, ds[i - 1]? with
    | 0, _ => dirOfs n
    | _, some p => p.ofs + p.size
    | _, none => 0
  firstBad 6 ((0xFF, 6, decide (9 ≤ n) && decide (n ≤ 32)) ::
    ds.flatMap (fun d =>
      let o := dirOfs d.idx
      let last := d.idx + 1 == n
      [(d.idx, o, (sectionTypes.any (fun e => e.1 == d.typ) || (decide (0x8000 ≤ d.typ) && decide (d.typ ≤ 0xFFFE))) &&
          !(decide (d.typ < 0x8000) && (ds.take d.idx).any (fun x => x.typ == d.typ)) && (d.typ == 0xFF) == last),
       (d.idx, o + 4, d.ofs % 64 == 0 && decide (start d.idx ≤ d.ofs)),
       (d.idx, o + 8, sizeOk d.typ d.size && decide (d.ofs + d.size ≤ len) && (!last || d.ofs + d.size == len)),
       (d.idx, o + 0x10, !last || d.digest.all (· == 0#8))]) ++
    [(0xFF, 0x40, sectionTypes.all (fun e => ds.any (fun d => d.typ == e.1)))])

/-- Check 6: each section's SHA-256. -/
def checkDigests (bs : List Byte) : Option ImgErr :=
  firstBad 7 ((imgDir bs).map (fun d =>
    (d.idx, dirOfs d.idx + 0x10, d.typ == 0xFF || sha256 ((bs.drop d.ofs).take d.size) == d.digest)))

/-- Check 7: the key's hash is that of a usable owner slot, then the signature (R50, R522). -/
def checkSignature (bs : List Byte) (usable : Nat → Nat → Bool) : Option ImgErr :=
  let s := secOf (imgDir bs) 0xFF
  let key := (bs.drop (s.ofs + 8)).take 96
  (firstBad 9 [(s.idx, s.ofs + 8, usable (numAt bs 0x2C 1) (beNat (sha384 key)))]).orElse (fun _ =>
   firstBad 8 [(s.idx, s.ofs, numAt bs s.ofs 2 == 1), (s.idx, s.ofs + 0x68,
     Config.ecdsaVerify (bigAt bs (s.ofs + 8) 48) (bigAt bs (s.ofs + 0x38) 48) (beNat (sha384 (bs.take s.ofs)))
       (bigAt bs (s.ofs + 0x68) 48) (bigAt bs (s.ofs + 0x98) 48))])

/-! ### Check 9: fields -/

/-- The header and the directory's reserved bytes. -/
def headerFields (bs : List Byte) : List ImgCond :=
  zeroBytes bs 0xFF 0xF 1 ++ [(0xFF, 0x18, decide (numAt bs 0x18 8 ≤ numAt bs 0x10 8)), (0xFF, 0x2C, decide (numAt bs 0x2C 1 ≤ 3))] ++
  zeroBytes bs 0xFF 0x2D 19 ++ (imgDir bs).flatMap (fun d => zeroBytes bs d.idx (dirOfs d.idx + 0xC) 4)

/-- IDENTITY (Table 2-4). -/
def identityFields (bs : List Byte) (d : DirEnt) : List ImgCond :=
  let o := d.ofs
  let epoch := numAt bs (o + 0xC) 4
  [(d.idx, o, numAt bs o 8 != 0), (d.idx, o + 8, decide (1 ≤ numAt bs (o + 8) 1) && decide (numAt bs (o + 8) 1 ≤ 254)),
   (d.idx, o + 9, [0, 1, 0xFF].contains (numAt bs (o + 9) 1))] ++ zeroBytes bs d.idx (o + 0xA) 2 ++
  [(d.idx, o + 0xC, decide (4000 ≤ epoch) && decide (epoch ≤ 32000) && epoch % 1000 == 0)] ++
  (upFrom (o + 0x10) 32).map (fun a => (d.idx, a, decide (numAt bs a 1 < 128))) ++ zeroBytes bs d.idx (o + 0x30) 16

/-- PARTITION (Table 2-5). -/
def partitionFields (bs : List Byte) (d : DirEnt) : List ImgCond :=
  (List.range 24).flatMap (fun n =>
    let o := d.ofs + 8 * n
    let pool := numAt bs o 1
    [(d.idx, o, decide (pool ≤ 15)), (d.idx, o + 1, pool == 15 || decide (numAt bs (o + 1) 1 ≤ 63))] ++ zeroBytes bs d.idx (o + 2) 6) ++
  (List.range 16).flatMap (fun p => zeroBytes bs d.idx (d.ofs + 0xC0 + 16 * p + 6) 10)

/-- One TENANTS entry (Table 2-6). -/
def tenantFields (bs : List Byte) (d : DirEnt) (t : Nat) : List ImgCond :=
  let o := d.ofs + 32 * t
  let f := fun k n => numAt bs (o + k) n
  let valid := bitOf (f 0 1) 0
  let on := fun (b : Bool) => !valid || b
  [(d.idx, o, decide (f 0 1 < 4)), (d.idx, o + 1, on (decide (f 1 1 ≤ 14))), (d.idx, o + 2, on (decide (f 2 2 ≤ 1024))),
   (d.idx, o + 6, on (decide (f 6 1 ≤ 31)))] ++ zeroBytes bs d.idx (o + 7) 1 ++
  [(d.idx, o + 0xC, on (decide (f 0xC 2 ≤ 1023))), (d.idx, o + 0xE, on (decide (f 0xE 2 ≤ 4095))),
   (d.idx, o + 0x10, on (decide (f 0xE 2 + f 0x10 2 ≤ 4096))), (d.idx, o + 0x12, on (decide (1 ≤ f 0x12 2)))] ++
  zeroBytes bs d.idx (o + 0x18) 8

/-- One LAYOUT entry (Table 2-7). -/
def layoutFields (bs : List Byte) (d : DirEnt) (c : Nat) : List ImgCond :=
  let o := d.ofs + 16 * c
  let f := fun k => numAt bs (o + k) 1
  let kOk := match f 0 with
    | 1 => f 1 == 0
    | 2 => f 1 == 0
    | 3 => decide (4 ≤ f 1) && decide (f 1 ≤ 15)
    | 4 => decide (4 ≤ f 1) && decide (f 1 ≤ 14)
    | _ => true
  [(d.idx, o, decide (f 0 ≤ 4)), (d.idx, o + 1, kOk), (d.idx, o + 2, f 0 == 0 || (decide (20 ≤ f 2) && decide (f 2 ≤ 24))),
   (d.idx, o + 3, decide (f 3 < 8))] ++ zeroBytes bs d.idx (o + 4) 12

/-- Whether a region of a type may have a size (Table 2-8). -/
def regionSize (typ size : Nat) : Bool :=
  let mib := 0x100000
  match typ with
  | 1 => decide (1024 * mib ≤ size) && decide (size ≤ 65536 * mib)
  | 2 => size == 2048 * mib
  | 3 => decide (1024 * mib ≤ size)
  | 4 => decide (256 * mib ≤ size)
  | 5 => decide (256 * mib ≤ size)
  | 6 => decide (1024 * mib ≤ size)
  | 7 => decide (4096 * mib ≤ size)
  | _ => true

/-- One CARVEOUT entry (Table 2-8). -/
def carveFields (bs : List Byte) (d : DirEnt) (r : Nat) : List ImgCond :=
  let o := d.ofs + 32 * r
  let typ := numAt bs o 1
  let param := numAt bs (o + 24) 4
  [(d.idx, o, decide (typ ≤ 7))] ++ zeroBytes bs d.idx (o + 1) 7 ++ [(d.idx, o + 16, regionSize typ (numAt bs (o + 16) 8)),
   (d.idx, o + 24, typ != 4 || (decide (1 ≤ param) && decide (param ≤ 65535)))] ++ zeroBytes bs d.idx (o + 28) 4

/-- CLOCKS (Table 2-9). -/
def clocksFields (bs : List Byte) (d : DirEnt) : List ImgCond :=
  let o := d.ofs
  let step := fun (v lo hi : Nat) => decide (lo ≤ v) && decide (v ≤ hi) && v % 100 == 0
  [(d.idx, o, [4800, 5600, 6400].contains (numAt bs o 2)), (d.idx, o + 2, step (numAt bs (o + 2) 2) 1000 2000),
   (d.idx, o + 4, step (numAt bs (o + 4) 2) 800 1600), (d.idx, o + 6, decide (numAt bs (o + 6) 1 ≤ 1))] ++
  zeroBytes bs d.idx (o + 7) 1 ++ zeroBytes bs d.idx (o + 0xC) 52

/-- TOPOLOGY (Table 2-10). -/
def topologyFields (bs : List Byte) (d : DirEnt) : List ImgCond :=
  (List.range 128).flatMap (fun s =>
    let o := d.ofs + 16 * s
    let f := fun k => numAt bs (o + k) 1
    let on := fun (b : Bool) => f 0 != 1 || b
    [(d.idx, o, decide (f 0 ≤ 1)), (d.idx, o + 1, on (decide (f 1 ≤ 15))), (d.idx, o + 2, on (decide (f 2 ≤ 7))),
     (d.idx, o + 3, on (decide (f 3 ≤ 7) || f 3 == 0xFE || f 3 == 0xFF))] ++ zeroBytes bs d.idx (o + 12) 4) ++
  (List.range 16).map (fun n => (d.idx, d.ofs + 0x800 + n, [0, 1, 0xFF].contains (numAt bs (d.ofs + 0x800 + n) 1)))

/-- PROGRAMS (Table 2-11). -/
def programsFields (bs : List Byte) (d : DirEnt) : List ImgCond :=
  let n := numAt bs d.ofs 4
  let ent := fun i => d.ofs + 16 + 24 * i
  let ids := (List.range (min n 64)).map (fun i => numAt bs (ent i) 1)
  [(d.idx, d.ofs, decide (1 ≤ n) && decide (n ≤ 64))] ++ zeroBytes bs d.idx (d.ofs + 4) 12 ++
  (List.range (min n 64)).flatMap (fun i =>
    let o := ent i
    let f := fun k m => numAt bs (o + k) m
    [(d.idx, o, decide (f 0 1 ≤ 63) && !(ids.take i).contains (f 0 1) && decide (16 + 24 * (i + 1) ≤ d.size)),
     (d.idx, o + 1, decide (f 1 1 ≤ 15))] ++ zeroBytes bs d.idx (o + 2) 2 ++
    [(d.idx, o + 4, f 4 4 % 4 == 0 && decide (f 4 4 < 32768)),
     (d.idx, o + 8, decide (f 8 4 + f 0xC 4 ≤ d.size)),
     (d.idx, o + 0xC, decide (4 ≤ f 0xC 4) && decide (f 0xC 4 ≤ 32768) && f 0xC 4 % 4 == 0),
     (d.idx, o + 0x10, decide (f 0x10 4 + f 0x14 4 ≤ d.size)),
     (d.idx, o + 0x14, decide (f 0x14 4 ≤ 131072) && f 0x14 4 % 8 == 0)])

/-- SIGNATURE (Table 2-12). -/
def signatureFields (bs : List Byte) (d : DirEnt) : List ImgCond := zeroBytes bs d.idx (d.ofs + 2) 6 ++ zeroBytes bs d.idx (d.ofs + 0xC8) 56

/-- The fields of one section. -/
def sectionFields (bs : List Byte) (d : DirEnt) : List ImgCond :=
  match d.typ with
  | 1 => identityFields bs d
  | 2 => partitionFields bs d
  | 3 => (List.range 1024).flatMap (tenantFields bs d)
  | 4 => (List.range 32).flatMap (layoutFields bs d)
  | 5 => (List.range 16).flatMap (carveFields bs d)
  | 6 => clocksFields bs d
  | 7 => topologyFields bs d
  | 8 => programsFields bs d
  | 0xFF => signatureFields bs d
  | _ => []

/-- Check 9: every field within its limits, reserved bytes 0, in the order of the image. -/
def checkFields (bs : List Byte) : Option ImgErr := firstBad 0xB (headerFields bs ++ (imgDir bs).flatMap (sectionFields bs))

/-! ### What an image says -/

/-- An image's fields. -/
def readImage (bs : List Byte) : ImageData :=
  let ds := imgDir bs
  let at_ := fun (typ k n : Nat) => numAt bs ((secOf ds typ).ofs + k) n
  let progs := secOf ds 8
  { serial := numAt bs 0x10 8
    floor := numAt bs 0x18 8
    arrayId := at_ 1 0 8
    headId := at_ 1 8 1
    pos := at_ 1 9 1
    epochUs := at_ 1 0xC 4
    clusters := (List.range 24).map (fun n => ⟨at_ 2 (8 * n) 1, at_ 2 (8 * n + 1) 1⟩)
    pools := (List.range 16).map (fun p =>
      let f := fun k n => at_ 2 (0xC0 + 16 * p + k) n
      ⟨f 0 1, f 1 1, f 2 1, f 3 1, f 4 2⟩)
    tenants := ((List.range 1024).map (fun t =>
      let f := fun k n => at_ 3 (32 * t + k) n
      (t, (⟨bitOf (f 0 1) 0, bitOf (f 0 1) 1, f 1 1, f 2 2, f 4 2, f 6 1, f 8 4, f 0xC 2, f 0xE 2, f 0x10 2, f 0x12 2, f 0x14 4⟩ : Tenant)))).filter
        (fun e => e.2.valid)
    layout := (List.range 32).map (fun k => ⟨at_ 4 (16 * k) 1, at_ 4 (16 * k + 1) 1, at_ 4 (16 * k + 2) 1, at_ 4 (16 * k + 3) 1⟩)
    carve := ((List.range 16).map (fun r =>
      (⟨at_ 5 (32 * r) 1, at_ 5 (32 * r + 8) 8, at_ 5 (32 * r + 16) 8, at_ 5 (32 * r + 24) 4⟩ : Region))).filter (fun r => r.typ != 0)
    clocks := ⟨at_ 6 0 2, at_ 6 2 2, at_ 6 4 2, at_ 6 6 1, at_ 6 8 4⟩
    shelves := (List.range 128).map (fun s =>
      let f := fun k n => at_ 7 (16 * s + k) n
      ⟨f 0 1 == 1, f 1 1, f 2 1, f 3 1, f 4 8⟩)
    owners := (List.range 16).map (fun n => at_ 7 (0x800 + n) 1)
    programs := (List.range (at_ 8 0 4)).map (fun i =>
      let f := fun k n => at_ 8 (16 + 24 * i + k) n
      ⟨f 0 1, f 1 1, f 4 4, (bs.drop (progs.ofs + f 8 4)).take (f 0xC 4), (bs.drop (progs.ofs + f 0x10 4)).take (f 0x14 4)⟩)
    sections := (ds.filter (fun d => sectionTypes.any (fun e => e.1 == d.typ))).map (fun d => (d.typ, leNat d.digest))
    digest := beNat (sha384 bs) }

/-- The digest of a section of an image. -/
def ImageData.sec (i : ImageData) (typ : Nat) : Nat := Sparse.get 0 i.sections typ

/-- R43: the effective head ID. -/
def ImageData.effectiveId (i : ImageData) (pos : Nat) : Nat := if i.pos = 0xFF then i.headId + pos else i.headId

/-- A tenant of an image. -/
def ImageData.tenant (i : ImageData) (t : Nat) : Tenant := Sparse.get {} i.tenants t

/-! ### Check 10: across sections -/

/-- Shelves of a cohort (R19). -/
def ImageData.cohort (i : ImageData) (k : Nat) : List ShelfEnt := i.shelves.filter (fun s => s.present && s.cohort == k)

/-- Values whose sum may not pass a limit: the first offending one is that at which the sum passes it (log entry 89). -/
def sumConds (sec limit : Nat) (l : List (Nat × Nat)) : List ImgCond :=
  (List.range l.length).map (fun k => (sec, (l.getD k (0, 0)).1, decide (sumOf ((l.take (k + 1)).map (·.2)) ≤ limit)))

/-- R45. -/
def ImageData.poolConds (i : ImageData) (p t : DirEnt) : List ImgCond :=
  let sum := fun (k limit : Nat) (f : PoolEnt → Nat) =>
    sumConds p.idx limit ((List.range i.pools.length).map (fun n => (p.ofs + 0xC0 + 16 * n + k, f (i.pools.getD n {}))))
  sum 0 32 (·.minDge) ++ sum 1 64 (·.minCpe) ++ sum 2 48 (·.minCmp) ++ sum 3 48 (·.minDcmp) ++
  i.tenants.map (fun e => (t.idx, t.ofs + 32 * e.1 + 1,
    i.clusters.any (fun x => x.pool == e.2.pool) && decide (1 ≤ (i.pools.getD e.2.pool {}).weight)))

/-- R46. -/
def ImageData.tenantConds (i : ImageData) (t : DirEnt) : List ImgCond :=
  let sum := fun (k limit : Nat) (f : Tenant → Nat) => sumConds t.idx limit (i.tenants.map (fun e => (t.ofs + 32 * e.1 + k, f e.2)))
  let wb := ((i.carve.find? (fun r => r.typ == 1)).map (·.size)).getD 0
  let defined := fun (c : Nat) => (i.layout.getD c {}).kind != 0
  [(t.idx, t.ofs, (i.tenant 0).valid)] ++ sum 2 65536 (·.maxQp) ++ sum 4 4096 (·.maxNs) ++ sum 0x14 (wb / 0x100000) (·.wrbufMib) ++
  i.tenants.flatMap (fun e =>
    let o := t.ofs + 32 * e.1
    let x := e.2
    [(t.idx, o + 6, bitOf x.clsMask x.defCls)] ++
    (List.range 32).map (fun c => (t.idx, o + 8 + c / 8, !bitOf x.clsMask c || (defined c && ((i.layout.getD c {}).kind != 4 || x.priv)))) ++
    [(t.idx, o + 0xE, i.tenants.all (fun f => decide (e.1 ≤ f.1) || x.keyCount == 0 || f.2.keyCount == 0 ||
       decide (f.2.keyBase + f.2.keyCount ≤ x.keyBase) || decide (x.keyBase + x.keyCount ≤ f.2.keyBase)))])

/-- R47. -/
def ImageData.layoutConds (i : ImageData) (l : DirEnt) : List ImgCond :=
  (List.range 32).map (fun c =>
    let w := (i.layout.getD c {}).width
    (l.idx, l.ofs + 16 * c, w == 0 || (List.range 8).any (fun k => decide (w ≤ (i.cohort k).length))))

/-- The CARVEOUT entries that are used, each with its offset in the image. -/
def carveEnts (bs : List Byte) (c : DirEnt) : List (Nat × Region) :=
  ((List.range 16).map (fun r =>
    let o := c.ofs + 32 * r
    (o, (⟨numAt bs o 1, numAt bs (o + 8) 8, numAt bs (o + 16) 8, numAt bs (o + 24) 4⟩ : Region)))).filter (fun e => e.2.typ != 0)

/-- R48, against the DRAM installed: each entry's type, base, size and place, entry by entry; then that no type is missing, where the first
byte of the section stands for what is not there (log entry 89). -/
def carveConds (bs : List Byte) (c : DirEnt) (dram : Nat) : List ImgCond :=
  let es := carveEnts bs c
  es.flatMap (fun e =>
    let r := e.2
    let before := (es.filter (fun f => decide (f.1 < e.1))).map (·.2)
    [(c.idx, e.1, before.all (fun q => q.typ != r.typ)), (c.idx, e.1 + 8, r.base % 0x200000 == 0),
     (c.idx, e.1 + 16, r.size % 0x200000 == 0), (c.idx, e.1 + 8, decide (r.base + r.size + 0x10000000 ≤ dram)),
     (c.idx, e.1 + 8, before.all (fun q => decide (q.base + q.size ≤ r.base) || decide (r.base + r.size ≤ q.base)))]) ++
  (upFrom 1 7).map (fun t => (c.idx, c.ofs, es.any (fun e => e.2.typ == t)))

/-- R49. -/
def ImageData.topologyConds (i : ImageData) (t : DirEnt) : List ImgCond :=
  let present := (List.range i.shelves.length).filter (fun s => (i.shelves.getD s {}).present)
  let ent := fun s => i.shelves.getD s {}
  let cat := present.filter (fun s => (ent s).cohort == 0xFE)
  present.flatMap (fun s =>
    let before := present.filter (fun r => decide (r < s))
    [(t.idx, t.ofs + 16 * s + 2, before.all (fun r => (ent r).str != (ent s).str || (ent r).pos != (ent s).pos)),
     (t.idx, t.ofs + 16 * s + 3, before.all (fun r => (ent r).str != (ent s).str || (ent r).cohort != (ent s).cohort || decide (7 < (ent s).cohort)))]) ++
  [(t.idx, t.ofs + 16 * cat.getD 2 0 + 3, decide (cat.length ≤ 2)), (t.idx, t.ofs, cat.length == 2),
   (t.idx, t.ofs + 16 * cat.getD 1 0 + 1, (ent (cat.headD 0)).str != (ent (cat.getD 1 0)).str)]

/-- Every program that PARTITION names exists. -/
def ImageData.programConds (i : ImageData) (p : DirEnt) : List ImgCond :=
  (List.range 24).map (fun n =>
    let x := i.clusters.getD n {}
    (p.idx, p.ofs + 8 * n + 1, x.pool == 15 || i.programs.any (fun g => g.id == x.prog)))

/-- Check 10. -/
def checkCross (bs : List Byte) (pos dram : Nat) : Option ImgErr :=
  let ds := imgDir bs
  let i := readImage bs
  let id := secOf ds 1
  firstBad 0xC ([(id.idx, id.ofs + 9, i.pos == 0xFF || i.pos == pos)] ++ i.poolConds (secOf ds 2) (secOf ds 3) ++ i.tenantConds (secOf ds 3) ++
    i.layoutConds (secOf ds 4) ++ carveConds bs (secOf ds 5) dram ++ i.topologyConds (secOf ds 7) ++ i.programConds (secOf ds 2))

/-! ### The whole validation -/

/-- Whether an owner slot is usable and holds a hash (R522). -/
def Chip.ownerUsable (c : Chip) (slot hash : Nat) : Bool :=
  bitOf c.root.otp.ownerFused slot && !bitOf c.root.otp.ownerRevoked slot && decide (slot < 4) &&
  Sparse.get 0 c.root.otp.ownerHash slot == hash

/-- Checks 1 to 10 of Table 2-13 on the bytes of an image (R51). -/
def Chip.checkImage (c : Chip) (bs : List Byte) (srcLen : Nat) : Except ImgErr ImageData :=
  let bad := (checkHeader bs srcLen (c.get R.GLB_REV_MAJOR)).orElse (fun _ =>
    (checkDir bs).orElse (fun _ =>
    (checkDigests bs).orElse (fun _ =>
    (checkSignature bs c.ownerUsable).orElse (fun _ =>
    (firstBad 0xA [(0xFF, 0x10, decide (c.root.mono.kilipFloor ≤ numAt bs 0x10 8))]).orElse (fun _ =>
    (checkFields bs).orElse (fun _ => checkCross bs c.pos c.dramSize))))))
  match bad with
  | some e => .error e
  | none => .ok (readImage bs)

/-! ### Check 11: against live state -/

/-- Whether a class has stored extents. -/
def Chip.classStored (c : Chip) (cls : Nat) : Bool := c.ftm.stripes.any (fun s => s.cls == cls)

/-- Whether a tenant has stored extents in a class: a placement entry of one of its namespaces names a stripe of the class. -/
def Chip.tenantStored (c : Chip) (t cls : Nat) : Bool :=
  c.ftm.places.any (fun e => (c.nsOf e.nsid).owner == t && (match c.stripe (locCohort e.locator) (locSeid e.locator) with
    | some s => s.cls == cls
    | none => false))

/-- Whether the array stores anything. -/
def Chip.stores (c : Chip) : Bool := !c.ftm.stripes.isEmpty || !c.dd.buckets.isEmpty

/-- Whether a shelf holds stripe or catalogue data. -/
def Chip.shelfHolds (c : Chip) (sh : Nat) (e : ShelfEnt) : Bool :=
  if e.cohort = catalogueCohort then c.stores
  else (c.shelf sh).map.any (fun m => m.2 != .free) ||
    c.ftm.stripes.any (fun s => s.cohort == e.cohort && s.map.contains e.str)

/-- One row of Table 2-14: the section type, the field's offset in the section, and that there is no conflict. -/
abbrev LiveCond := Nat × Nat × Bool

/-- Table 2-14 and R201, one tenant. -/
def Chip.tenantConds (c : Chip) (old new : ImageData) (t : Nat) : List LiveCond :=
  let a := old.tenant t
  let b := new.tenant t
  let at_ := fun (k : Nat) (bad : Bool) => ((3, 32 * t + k, !(a.valid && bad)) : LiveCond)
  let attached := (c.nvm.ns.filter (fun n => n.2.present && n.2.attached && n.2.owner == t)).length
  let busy := (c.ctrl t).sqs.any (fun q => q.qid != 0) || (c.ctrl t).cqs.any (fun q => q.qid != 0) || decide (0 < attached)
  let leaves := fun (s : Nat) => decide (a.keyBase ≤ s) && decide (s < a.keyBase + a.keyCount) &&
    !(decide (b.keyBase ≤ s) && decide (s < b.keyBase + b.keyCount))
  [at_ 0 (!b.valid && busy), at_ 4 (b.valid && decide (b.maxNs < attached))] ++
  (List.range 32).map (fun k => at_ (8 + k / 8) (bitOf a.clsMask k && !(b.valid && bitOf b.clsMask k) && c.tenantStored t k)) ++
  [at_ 0xC (a.dom != b.dom && (List.range 32).any (c.tenantStored t)),
   at_ (if a.keyBase = b.keyBase then 0x10 else 0xE) (c.cpe.slots.any (fun e => e.2.state != .empty && leaves e.1))]

/-- Table 2-14, one layout class. -/
def Chip.classConds (c : Chip) (old new : ImageData) (k : Nat) : List LiveCond :=
  let a := old.layout.getD k {}
  let b := new.layout.getD k {}
  let at_ := fun (o : Nat) (changed : Bool) => ((4, 16 * k + o, !(changed && c.classStored k)) : LiveCond)
  [at_ 0 (a.kind != b.kind), at_ 1 (a.k != b.k), at_ 2 (a.extLog2 != b.extLog2)]

/-- Table 2-14, one shelf. A change of the catalogue shelves conflicts unless the array stores nothing. -/
def Chip.shelfConds (c : Chip) (old new : ImageData) (s : Nat) : List LiveCond :=
  let a := old.shelves.getD s {}
  let b := new.shelves.getD s {}
  let at_ := fun (o : Nat) (changed : Bool) => ((7, 16 * s + o, !(changed && a.present && c.shelfHolds s a)) : LiveCond)
  let cat := fun (e : ShelfEnt) => e.present && e.cohort == catalogueCohort
  [at_ 0 (!b.present), at_ 1 (a.str != b.str), at_ 2 (a.pos != b.pos), at_ 3 (a.cohort != b.cohort),
   (7, 16 * s + 3, cat a == cat b || !c.stores)]

/-- Check 11 (Table 2-14, R201): the section type and the offset in it of the first conflict of a new image with the live state. -/
def Chip.liveConflict (c : Chip) (old new : ImageData) : Option (Nat × Nat) :=
  (((old.tenants.map (·.1)).flatMap (c.tenantConds old new) ++ (List.range 32).flatMap (c.classConds old new) ++
    (List.range 128).flatMap (c.shelfConds old new)).find? (fun e => !e.2.2)).map (fun e => (e.1, e.2.1))

end Sys2Proof.Machine
end

