-- ==== Sys2Proof/Machine/Seal.lean ====
section
/-!
DEFINITION. What SEC_ROOT keeps for the other blocks: the sealed store, the lifecycle, and the measurement registers with their log
(R524, R533 to R540).
-/
namespace Sys2Proof.Machine

/-- R533: a change of the sealed store: one copy written. -/
def Chip.seal (c : Chip) (f : Root → Root) : Chip :=
  let r := f c.root
  { c with root := { r with writes := r.writes + 1 } }

/-- A change of the monotonic part. -/
def Chip.sealMono (c : Chip) (f : MonoPart → MonoPart) : Chip := c.seal (fun r => { r with mono := f r.mono })

/-- A change of the secret part. -/
def Chip.sealSecret (c : Chip) (f : SecretPart → SecretPart) : Chip := c.seal (fun r => { r with secret := f r.secret })

/-- R526: entries into Service that remain. -/
def Chip.serviceLeft (c : Chip) : Nat := (32 - c.root.otp.serviceBits) / 2

/-- The debug state as R540 codes it. -/
def DebugState.code : DebugState → Nat
  | .closed => 0
  | .requested => 1
  | .opened => 2

/-- GLB_STATUS.PSTATE (Table 1-10); Night and the states outside Table 16-1 read 0. -/
def PMode.code : PMode → Nat
  | .dawn => 1
  | .day => 2
  | .dusk => 3
  | _ => 0

/-- The 16-byte MEAS_STATE record (R540). -/
def Chip.stateRecord (c : Chip) : List Byte :=
  natLe c.lifecycle 1 ++ natLe (DebugState.code c.root.debug) 1 ++ natLe c.pwr.mode.code 1 ++ natLe c.serviceLeft 1 ++ natLe c.root.mono.opens 4 ++
  List.replicate 8 0#8

/-- What MEAS_OTP is extended with: owner hashes, fused and revoked bits, firmware-key revocations and both trust lists (Table 17-7). -/
def Chip.otpRecord (c : Chip) : List Byte :=
  let o := c.root.otp
  (List.range 4).flatMap (fun s => natBe (Sparse.get 0 o.ownerHash s) 48) ++ natLe o.ownerFused 1 ++ natLe o.ownerRevoked 1 ++
  natLe o.fwKeyRevoke 1 ++ c.root.mono.headTrust.flatMap (fun h => natBe h 48) ++ c.root.mono.bridgeTrust.flatMap (fun h => natBe h 48)

/-- A measurement register (Table 17-7). -/
def Chip.meas (c : Chip) (index : Nat) : Nat := Sparse.get 0 c.root.meas index

/-- R537: the register's next value. -/
def extended (old digest : Nat) : Nat := beNat (sha384 (natBe old 48 ++ natBe digest 48))

/-- R538: an entry appended to the log, which holds the last 256; the entry it pushes out goes into the base values. -/
def Root.appendLog (r : Root) (e : MeasEntry) : Root :=
  let r := { r with log := r.log ++ [e], logCount := r.logCount + 1 }
  match r.log with
  | old :: rest =>
    if r.log.length ≤ 256 then r
    else { r with
      log := rest
      logDropped := r.logDropped + 1
      logBase := Sparse.set 0 r.logBase old.index (extended (Sparse.get 0 r.logBase old.index) old.digest) }
  | [] => r

/-- R537, R538: a measurement register extended with a digest, and the extension logged. -/
def Chip.measure (c : Chip) (index event serial digest : Nat) : Chip :=
  let r := { c.root with meas := Sparse.set 0 c.root.meas index (extended (c.meas index) digest) }
  { c with root := r.appendLog ⟨index, event, c.epoch, c.now, serial, digest⟩ }

/-- MEAS_STATE extended at Dawn and at a lifecycle or debug change. -/
def Chip.measureState (c : Chip) (event : Nat) : Chip := c.measure 5 event 0 (beNat (sha384 c.stateRecord))

/-- MEAS_OTP extended at Dawn and at a change of what it covers. -/
def Chip.measureOtp (c : Chip) (event : Nat) : Chip := c.measure 6 event 0 (beNat (sha384 c.otpRecord))

/-- R411, Table 17-6: the highest epoch number seen. -/
def Chip.sealEpoch (c : Chip) : Chip :=
  if c.root.mono.maxEpoch < c.epoch then c.sealMono (fun m => { m with maxEpoch := c.epoch }) else c

end Sys2Proof.Machine
end

