-- ==== Sys2Proof/Machine/Kcf.lean ====
section
/-!
DEFINITION. KCF: staging, validation, activation and the cluster pass (R51 to R67).
-/
namespace Sys2Proof.Machine

/-! ### Slots and results -/

/-- Whether KCF takes commands: the head runs and is not loader-only (R558). -/
def Chip.kcfUp (c : Chip) : Bool := c.awake && !c.on R.GLB_STATUS_LOADER_ONLY

/-- KCF_STATUS.STATE. -/
def Chip.kcfState (c : Chip) : Nat := c.get R.KCF_STATUS_STATE

/-- R55: a command not allowed. -/
def Chip.kcfRefuse (c : Chip) : Chip := (c.set R.KCF_STATUS_REFUSED 1).refusedCommand R.KCF_CMD_CMD

/-- R15, R55: a command ends with its outcome and the state it leaves. -/
def Chip.kcfEnd (c : Chip) (state code section_ ofs : Nat) : Chip :=
  (c.set R.KCF_STATUS_STATE state).postResult R.KCF_RESULT_VALID
    [(R.KCF_RESULT_CODE, code), (R.KCF_RESULT_SECTION, section_), (R.KCF_RESULT_OFS_OFS, ofs)]

/-- A command accepted in one of the states of Table 2-15; every one is refused while debug is requested (R542). -/
def Chip.kcfCommand (c : Chip) (states : List Nat) (f : Chip → Chip) : Chip :=
  if !c.kcfUp then c
  else if states.contains c.kcfState && c.root.debug != .requested then f (c.startOp R.KCF_RESULT_VALID)
  else c.kcfRefuse

/-- The DRAM address of a staging slot (R48). -/
def Chip.stagingAt (c : Chip) (slot : Nat) : Nat := c.dramSize - 0x2000000 + slot * 0x1000000

/-- A Kilip slot of the boot flash. -/
def Chip.kilip (c : Chip) (slot : Nat) : KilipSlot := if slot = 0 then c.boot.k0 else c.boot.k1

/-- A Kilip slot changed, and with it the slot state table (R550). -/
def Chip.modKilip (c : Chip) (slot : Nat) (f : KilipSlot → KilipSlot) : Chip :=
  let b := { c.boot with writeCount := c.boot.writeCount + 1 }
  { c with boot := if slot = 0 then { b with k0 := f b.k0 } else { b with k1 := f b.k1 } }

/-- R58: a valid mark set: it carries the write count of the table copy that sets it. -/
def Chip.markKilip (c : Chip) (slot : Nat) : Chip :=
  let n := c.boot.writeCount + 1
  c.modKilip slot (fun k => { k with mark := some n, bad := false })

/-- The valid mark of a slot taken away. -/
def Chip.unmarkKilip (c : Chip) (slot : Nat) : Chip := c.modKilip slot (fun k => { k with mark := none })

/-- The staged image's bytes. -/
def Chip.stagedBytes (c : Chip) : List Byte :=
  match c.kcf.staged with
  | some s => c.load (c.stagingAt s) c.kcf.stagedLen
  | none => []

/-- The staged image written to a Kilip slot. -/
def Chip.persistStaged (c : Chip) : Chip :=
  let bs := c.stagedBytes
  let serial := (c.kcf.valid.map (·.serial)).getD 0
  c.modKilip c.kcf.persistSlot (fun k => { k with bytes := Mem.write [] 0 bs, length := bs.length, serial := serial, bad := false })

/-! ### Activation -/

/-- What every activation does (R52, R54): the rollback floor, the measurement, and what the registers show of the image. -/
def Chip.activated (c : Chip) (i : ImageData) : Chip :=
  let c := if c.root.mono.kilipFloor < i.floor then c.sealMono (fun m => { m with kilipFloor := i.floor }) else c
  (c.measure 4 2 i.serial i.digest).setAll [(R.KCF_SERIAL_ACTIVE_SERIAL, i.serial), (R.GLB_STATUS_IMAGE_ACTIVE, 1)]

/-- R63: the Midnight sections of a new image over the active one; PARTITION's cluster entries follow with the cluster pass. -/
def ImageData.switched (old new : ImageData) : ImageData :=
  { new with clusters := old.clusters, carve := old.carve, clocks := old.clocks, arrayId := old.arrayId, headId := old.headId,
             pos := old.pos, epochUs := old.epochUs }

/-- A program's images, for R65's comparison. -/
def ImageData.programOf (i : ImageData) (id : Nat) : List Byte × List Byte :=
  match i.programs.find? (fun p => p.id == id) with
  | some p => (p.imem, p.dmem)
  | none => ([], [])

/-- R65: the clusters whose PARTITION entry or program image differs, in ascending order. -/
def changedClusters (old new : ImageData) : List Nat :=
  (List.range 24).filter (fun n =>
    let a := old.clusters.getD n {}
    let b := new.clusters.getD n {}
    a != b || (b.pool != 15 && old.programOf a.prog != new.programOf b.prog))

/-- R65, R66: the clusters that a pass takes: those that differ, and those that an earlier pass or a fault left failed. -/
def Chip.passClusters (c : Chip) (old new : ImageData) : List Nat :=
  (List.range 24).filter (fun n => (changedClusters old new).contains n || c.bit R.KCF_CLUSTER_FAIL_FAIL n)

/-- R21, R414: which head position TOPOLOGY gives a string to. -/
def Chip.homeOwner (c : Chip) (str : Nat) : Nat :=
  let b := match c.kcf.active with
    | some i => i.owners.getD str 0xFF
    | none => 0xFF
  if b = 0 || b = 1 then b else str % 2

/-- R414: strings that this head owns and TOPOLOGY gives to the peer are handed over by OWNER agreements. -/
def Chip.handOver (c : Chip) : Chip :=
  if !c.linkUp then c
  else ((List.range 16).filter (fun s => c.ownsStr s && c.homeOwner s != c.pos)).foldl (fun d s => (d.propose (.owner s (1 - d.pos))).1) c

/-- The pass goes on with its next cluster, which drains; without one it ends with its result (R65, R66). -/
def Chip.nextCluster (c : Chip) : Chip :=
  match c.kcf.passLeft with
  | n :: rest =>
    let c := { c with kcf := { c.kcf with passLeft := rest, draining := some n } }
    let running := (c.clusAt n).state == .inService
    c.modClus n (fun cl => { cl with
      state := if running then .quiescing else cl.state, drainAt := c.now, drainTmo := c.get R.KCF_QUIESCE_TMO_QUIESCE_TMO })
  | [] =>
    let retry := c.kcf.isRetry
    let failed := c.get R.KCF_CLUSTER_FAIL_FAIL != 0
    let c := { c with kcf := { c.kcf with draining := none, next := none, isRetry := false } }
    let c := c.set R.KCF_STATUS_AGREED 0
    if failed then ((c.set R.KCF_STATUS_PARTIAL 1).checkPools).kcfEnd 0 (if retry then 0x12 else 0x10) 0xFF 0
    else (c.set R.KCF_STATUS_PARTIAL 0).kcfEnd 0 0 0xFF 0

/-- The cluster pass begins (R65). -/
def Chip.beginPass (c : Chip) (l : List Nat) (retry : Bool) : Chip :=
  let c := { c with kcf := { c.kcf with passLeft := l, isRetry := retry } }
  let c := (c.set R.KCF_STATUS_STATE 7).set R.KCF_CLUSTER_DONE_DONE 0
  (if retry then c else c.set R.KCF_CLUSTER_FAIL_FAIL 0).nextCluster

/-- One cluster of the pass, drained or cut off: halted, loaded and resumed under its new entry, or left failed (R65 steps 3 to 5, R66). -/
def Chip.takeCluster (c : Chip) (n : Nat) (ok : Bool) : Chip :=
  let ent := fun (i : ImageData) => ((c.kcf.next.getD i).clusters.getD n {})
  let active := c.kcf.active.map (fun i => { i with clusters := i.clusters.set n (ent i) })
  let c := { c with kcf := { c.kcf with active := active, draining := none } }
  let (c, up) := (c.stopCluster n).startCluster n
  (if ok && up then (c.raise R.KCF_CLUSTER_DONE_DONE n).lower R.KCF_CLUSTER_FAIL_FAIL n else c.failCluster n).nextCluster

/-- IMAGE_SECTION_SWITCH (R63) at the boundary that opens KCF_ACT_EPOCH: the sections take effect, the slot of a head that switches alone
gets its mark (R58), strings go to their new owners, and the cluster pass starts. -/
def Chip.switchImage (c : Chip) : Chip :=
  match c.kcf.valid, c.kcf.active with
  | some new, some old =>
    if c.kcfState ≠ 6 || c.get R.KCF_ACT_EPOCH_EPOCH = 0 || c.get R.KCF_ACT_EPOCH_EPOCH ≠ c.epoch then c
    else
      let c := if c.on R.KCF_STATUS_AGREED then c else c.markKilip c.kcf.persistSlot
      let g := c.kcf.switches
      let prevs := (c.kcf.prevs ++ [(g, old)]).filter (fun p => c.nvm.inflight.any (fun i => i.sect == p.1))
      let c := { c with kcf := { c.kcf with
        active := some (old.switched new), next := some new, valid := none, activeStaging := c.kcf.staged,
        persistSlot := 1 - c.kcf.persistSlot, switches := g + 1, prevs := prevs } }
      let l := c.passClusters old new
      ((c.activated new).handOver).beginPass l false
  | _, _ => c

/-! ### Agreement -/

/-- Own IMAGE proposals dropped. -/
def Chip.dropImageProposals (c : Chip) : Chip :=
  { c with zbl := { c.zbl with proposals := c.zbl.proposals.filter (fun a => match a.body with
      | .image .. => a.committed
      | _ => true) } }

/-- IMAGE_PROPOSAL (R62): proposed to a peer in service; a sole head switches alone at the next epoch plus 2 (R64). -/
def Chip.proposeImage (c : Chip) : Chip :=
  match c.kcf.valid with
  | none => c
  | some i =>
    if c.kcfState ≠ 6 || c.on R.KCF_STATUS_AGREED then c
    else if c.peerIn then (c.dropImageProposals.propose (.image (i.sec 3) (i.sec 4) (i.sec 7) (c.epoch + 2))).1
    else if c.on R.GLB_STATUS_SOLE && c.get R.KCF_ACT_EPOCH_EPOCH = 0 then c.set R.KCF_ACT_EPOCH_EPOCH (c.epoch + 3)
    else c

/-- ARMED_LIVE: the agreement begins and KCF_ACT_TMO runs. -/
def Chip.armLive (c : Chip) : Chip :=
  (({ c with kcf := { c.kcf with armedAt := c.now, actTmo := c.get R.KCF_ACT_TMO_ACT_TMO } } : Chip).setAll
    [(R.KCF_STATUS_STATE, 6), (R.KCF_STATUS_AGREED, 0), (R.KCF_ACT_EPOCH_EPOCH, 0)]).proposeImage

/-- An ARMED_LIVE activation ends with a code: the slot keeps no mark (R58, R62). -/
def Chip.disarm (c : Chip) (state code : Nat) : Chip :=
  ((c.dropImageProposals).set R.KCF_ACT_EPOCH_EPOCH 0).kcfEnd state code 0xFF 0

/-- Whether an image's reset-class sections equal the active image's (R57). -/
def Chip.liveOnly (c : Chip) (i : ImageData) : Bool :=
  match c.kcf.active with
  | some a => [1, 5, 6].all (fun t => a.sec t == i.sec t)
  | none => false

/-- Check 11 (R53) on an image that would activate live: the first conflict. -/
def Chip.liveCheck (c : Chip) (i : ImageData) : Option (Nat × Nat) :=
  match c.kcf.active with
  | some a => if c.liveOnly i then c.liveConflict a i else none
  | none => none

/-- R62: the answer to the peer's IMAGE proposal: none to accept, else the reason. An image in VALID is held to what ACTIVATE holds it to
before it is armed for the peer: reset-class sections equal to the active image's (R57) and check 11 (R53); one that fails is not ready
(log entry 90). -/
def Chip.imageRefusal (c : Chip) (t l tp : Nat) : Option Nat :=
  match c.kcf.valid with
  | none => some 3
  | some i =>
    if c.kcfState ≠ 4 && c.kcfState ≠ 6 then some 3
    else if !(i.sec 3 = t && i.sec 4 = l && i.sec 7 = tp) then some 2
    else if c.kcfState = 4 && (!c.liveOnly i || (c.liveCheck i).isSome) then some 3
    else none

/-- R58, R62: the peer's proposal accepted: an image in VALID is armed, its copy written to a slot without a valid mark. -/
def Chip.armForPeer (c : Chip) : Chip :=
  if c.kcfState = 4 then
    let c := (c.unmarkKilip c.kcf.persistSlot).persistStaged
    ({ c with kcf := { c.kcf with armedAt := c.now, actTmo := c.get R.KCF_ACT_TMO_ACT_TMO } } : Chip).setAll
      [(R.KCF_STATUS_STATE, 6), (R.KCF_STATUS_AGREED, 0), (R.KCF_ACT_EPOCH_EPOCH, 0)]
  else c

/-- The agreement commits (R58, R62): AGREED, the later of two switch epochs, the slot's mark, and its record in the journal. -/
def Chip.imageAgreed (c : Chip) (switchEpoch : Nat) : Chip :=
  if c.kcfState ≠ 6 then c
  else
    let c := if c.on R.KCF_STATUS_AGREED then c else (c.markKilip c.kcf.persistSlot).append .agreement
    (c.set R.KCF_STATUS_AGREED 1).set R.KCF_ACT_EPOCH_EPOCH (max (c.get R.KCF_ACT_EPOCH_EPOCH) switchEpoch)

/-- R59: entering Dusk disarms an activation not yet AGREED. -/
def Chip.kcfAtDusk (c : Chip) : Chip :=
  if c.kcfState = 6 && !c.on R.KCF_STATUS_AGREED then c.disarm 0 0x13 else c

/-! ### The commands -/

/-- LOAD ends (R56): with an image staged, or with CODE 0x01 and none. -/
def Chip.endLoad (c : Chip) (ok : Bool) : Chip :=
  let c := c.dropXfer c.kcf.loadXfer
  if ok then
    (c.set R.KCF_SERIAL_STAGED_SERIAL (numAt c.stagedBytes 0x10 8)).kcfEnd 2 0 0xFF 0
  else
    (({ c with kcf := { c.kcf with staged := none, stagedLen := 0 } } : Chip).set R.KCF_SERIAL_STAGED_SERIAL 0).kcfEnd 8 1 0xFF 0

/-- KCF_LOAD (R55, R56). -/
def kcfLoad (c : Chip) : Chip :=
  c.kcfCommand (if c.lifecycle = 4 then [] else [0, 2, 4, 8]) (fun c =>
    let addr := c.get R.KCF_SRC_ADDR_ADDR
    let len := c.get R.KCF_SRC_LEN_LEN
    let slot := if c.kcf.activeStaging = some 0 then 1 else 0
    let c := { c with kcf := { c.kcf with staged := none, stagedLen := 0, valid := none } }
    let c := c.set R.KCF_SERIAL_STAGED_SERIAL 0
    if addr % 64 ≠ 0 then c.kcfEnd 8 2 0xFF 0
    else
      let id := c.epc.nextXfer
      let c := { c with kcf := { c.kcf with staged := some slot, stagedLen := len, loadXfer := id } }
      (c.set R.KCF_STATUS_STATE 1).startRead 0 .kcfLoad [(addr, len)] (c.stagingAt slot))

/-- KCF_LOAD_DONE: every byte of the image has arrived. -/
def kcfLoadDone (c : Chip) : Chip :=
  if c.kcfState = 1 && c.epc.xfers.any (fun x => x.id == c.kcf.loadXfer && x.left == 0) then c.endLoad true else c

/-- KCF_VALIDATE (R51). -/
def kcfValidate (c : Chip) : Chip := c.kcfCommand [2] (fun c => c.set R.KCF_STATUS_STATE 3)

/-- KCF_VALIDATE_DONE: the outcome of checks 1 to 10. -/
def kcfValidateDone (c : Chip) : Chip :=
  if c.kcfState ≠ 3 then c
  else
    match c.checkImage c.stagedBytes c.kcf.stagedLen with
    | .ok i => ({ c with kcf := { c.kcf with valid := some i } } : Chip).kcfEnd 4 0 0xFF 0
    | .error e => c.kcfEnd 8 e.1 e.2.1 e.2.2

/-- KCF_ACTIVATE (R53, R57): check 11 for an image that would activate live, then the boot-flash write. -/
def kcfActivate (c : Chip) : Chip :=
  c.kcfCommand [4] (fun c =>
    match c.kcf.valid with
    | none => c.kcfEnd 8 0x14 0xFF 0
    | some i =>
      match c.liveCheck i with
      | some (typ, ofs) =>
        let d := secOf (imgDir c.stagedBytes) typ
        c.kcfEnd 8 0xD d.idx (d.ofs + ofs)
      | none =>
        let c := { c with kcf := { c.kcf with abortPending := false } }
        ((c.set R.KCF_STATUS_STATE 9).set R.BOOT_STATUS_WRITING 1).unmarkKilip c.kcf.persistSlot)

/-- A persist has ended (R57, R58): the image is armed, or ACTIVATE has failed or was aborted. A persist waits for a firmware slot write in
progress (R549). -/
def persistDone (ok : Bool) (c : Chip) : Chip :=
  if c.kcfState ≠ 9 || c.boot.writer.isSome then c
  else
    let c := c.set R.BOOT_STATUS_WRITING 0
    let c := if ok then c.persistStaged else c.event 0x381 0 0 0 0 0
    if c.kcf.abortPending then ({ c with kcf := { c.kcf with abortPending := false } } : Chip).kcfEnd 0 0x13 0xFF 0
    else if !ok then c.kcfEnd 8 0x14 0xFF 0
    else
      match c.kcf.valid with
      | none => c
      | some i =>
        if c.liveOnly i then c.armLive
        else ((c.markKilip c.kcf.persistSlot).set R.KCF_STATUS_NEEDS_RESET 1).kcfEnd 5 0 0xFF 0

/-- KCF_ABORT (R55, R57, R58). -/
def kcfAbort (c : Chip) : Chip :=
  c.kcfCommand ([1, 3, 9, 5] ++ (if c.on R.KCF_STATUS_AGREED then [] else [6])) (fun c =>
    match c.kcfState with
    | 9 => { c with kcf := { c.kcf with abortPending := true } }
    | 1 =>
      let c := c.dropXfer c.kcf.loadXfer
      ({ c with kcf := { c.kcf with staged := none, stagedLen := 0 } } : Chip).kcfEnd 0 0x13 0xFF 0
    | 5 => ((c.unmarkKilip c.kcf.persistSlot).set R.KCF_STATUS_NEEDS_RESET 0).kcfEnd 0 0x13 0xFF 0
    | 6 => c.disarm 0 0x13
    | _ => c.kcfEnd 0 0x13 0xFF 0)

/-- KCF_RETRY (R55): the failed clusters are taken again. -/
def kcfRetry (c : Chip) : Chip :=
  c.kcfCommand (if c.on R.KCF_STATUS_PARTIAL then [0] else []) (fun c => c.beginPass (bitsSet (c.get R.KCF_CLUSTER_FAIL_FAIL) 24) true)

/-- KCF_ACT_TIMEOUT (R62). -/
def kcfActTimeout (c : Chip) : Chip :=
  if c.kcfState = 6 && !c.on R.KCF_STATUS_AGREED && c.get R.KCF_ACT_EPOCH_EPOCH = 0 &&
      decide (c.kcf.armedAt + c.kcf.actTmo * 1000 ≤ c.now) then c.disarm 4 0xF
  else c

/-- CLUSTER_DRAINED (R65, R455): a cluster whose work in flight has finished. -/
def passDrained (n : Nat) (ok : Bool) (c : Chip) : Chip :=
  if c.clusterBusy n then c
  else if c.kcf.draining = some n then c.takeCluster n ok
  else if (c.clusAt n).hostDrain then c.goOffline n
  else c

/-- KCF_QUIESCE_TIMEOUT (R65, R455): the drain time of a cluster has ended; its work is halted and restarted elsewhere. -/
def passTimeout (n : Nat) (ok : Bool) (c : Chip) : Chip :=
  let due := decide ((c.clusAt n).drainAt + (c.clusAt n).drainTmo * 1000 ≤ c.now)
  if !due then c
  else if c.kcf.draining = some n then c.takeCluster n ok
  else if (c.clusAt n).hostDrain then c.goOffline n
  else c

-- EXEC kcfLoad kcfLoadDone kcfValidate kcfValidateDone kcfActivate kcfAbort kcfRetry kcfActTimeout

/-- LOAD (R56). -/
def execKcfLoad (s : State) : Host.Outcome State Fault Refusal :=
  s.runBar2 true true R.KCF_CMD_CMD kcfLoad

/-- KCF_LOAD_DONE (R56). -/
def execKcfLoadDone (s : State) : Host.Outcome State Fault Refusal :=
  s.runAwake true kcfLoadDone

/-- VALIDATE (R51). -/
def execKcfValidate (s : State) : Host.Outcome State Fault Refusal :=
  s.runBar2 true true R.KCF_CMD_CMD kcfValidate

/-- KCF_VALIDATE_DONE (R51). -/
def execKcfValidateDone (s : State) : Host.Outcome State Fault Refusal :=
  s.runAwake true kcfValidateDone

/-- ACTIVATE (R57). -/
def execKcfActivate (s : State) : Host.Outcome State Fault Refusal :=
  s.runBar2 true true R.KCF_CMD_CMD kcfActivate

/-- ABORT (R58). -/
def execKcfAbort (s : State) : Host.Outcome State Fault Refusal :=
  s.runBar2 true true R.KCF_CMD_CMD kcfAbort

/-- RETRY (R55). -/
def execKcfRetry (s : State) : Host.Outcome State Fault Refusal :=
  s.runBar2 true true R.KCF_CMD_CMD kcfRetry

/-- KCF_ACT_TIMEOUT (R62). -/
def execKcfActTimeout (s : State) : Host.Outcome State Fault Refusal :=
  s.runAwake true kcfActTimeout

-- END EXEC

end Sys2Proof.Machine
end

