-- ==== Sys2Proof/Machine/Keys.lean ====
section
/-!
DEFINITION. Colris key transport and the erase of keys (R234 to R246).
-/
namespace Sys2Proof.Machine

/-! ### What an agreed operation does to a slot -/

/-- What the sealed store keeps of a slot. -/
def Chip.modSlotRec (c : Chip) (k : Nat) (f : SlotRec → SlotRec) : Chip :=
  c.sealMono (fun m => { m with slots := Sparse.modify {} m.slots k f })

/-- R236, R241: a key loaded into a slot; a persistent one goes into the sealed store as well. -/
def Chip.loadSlot (c : Chip) (k key : Nat) (persist : Bool) : Chip :=
  let c := c.modSlot k (fun s => { s with state := .loaded, key := key, persist := persist, gen := s.gen + 1 })
  if persist then
    (c.sealSecret (fun p => { p with keys := Sparse.set 0 p.keys k key })).modSlotRec k (fun r => { r with persist := true })
  else c

/-- R245 step 1: the slot is ERASING, and the sealed store says so. -/
def Chip.beginErase (c : Chip) (k : Nat) : Chip :=
  (c.modSlot k (fun s => { s with state := .erasing })).modSlotRec k (fun r => { r with erasing := true })

/-- R245 step 3: the key is zeroized, ERASE_EPOCH becomes the epoch now open, and ERASED is set. -/
def Chip.zeroizeSlot (c : Chip) (k : Nat) : Chip :=
  let had := (c.slot k).persist
  let c := c.modSlot k (fun s => { s with key := 0, persist := false, erased := true, eraseEpoch := c.epoch })
  let c := if had then c.sealSecret (fun p => { p with keys := Sparse.set 0 p.keys k 0 }) else c
  c.modSlotRec k (fun _ => { persist := false, erased := true, eraseEpoch := c.epoch, erasing := false })

/-- R245 step 4: at a Midnight, slots whose key was zeroized before it are EMPTY. -/
def Chip.emptySlots (c : Chip) : Chip :=
  let done := c.cpe.ops.filter (·.zeroized)
  done.foldl (fun d o => d.modSlot o.slot (fun s => { s with state := .empty }))
    { c with cpe := { c.cpe with ops := c.cpe.ops.filter (fun o => !o.zeroized) } }

/-- Whether an operation on a slot is in progress on either head (R242): its own, or one the peer has had accepted. DESIGN CHOICE: an erase counts as
in progress until the slot is EMPTY, so that an ERASE_KEY between its zeroizing and the next Midnight is answered BUSY and not NOT_LOADED (log entry 103). -/
def Chip.slotBusy (c : Chip) (k : Nat) : Bool :=
  c.cpe.ops.any (·.slot == k) || c.zbl.accepted.any (fun a => match a.body with
    | .keyLoad s .. => s == k
    | .keyErase s => s == k
    | _ => false)

/-! ### Completions -/

/-- The slot that a Security Send named, as LAST_RESULT gives it (R244). -/
def slotNamed (data : List Byte) : Nat := if data.length < 4 then 0xFFFF else leNat ((data.drop 2).take 2) % 4096

/-- R243: a Security Send ends: LAST_RESULT is replaced, then the command completes. -/
def Chip.ktEnd (c : Chip) (id : CmdId) (spsp slot reason : Nat) : Chip :=
  let c := { c with cpe := { c.cpe with lastResult := Sparse.set {} c.cpe.lastResult id.fn ⟨spsp, slot, reason, c.epoch⟩ } }
  c.finish id (if reason = 0 then stOk else stField)

/-- A key operation ends with a reason: it is in progress no more. -/
def Chip.keyOpEnd (c : Chip) (o : KeyOp) (reason : Nat) : Chip :=
  ({ c with cpe := { c.cpe with ops := c.cpe.ops.filter (fun x => x != o) } } : Chip).ktEnd o.id (if o.load then 1 else 2) o.slot reason

/-- A key operation of this head applied: agreed with the peer, or by this head alone (R241, R401). A load ends at once where nothing waits
for the peer's DONE. -/
def Chip.applyKeyOp (c : Chip) (o : KeyOp) (alone : Bool) : Chip :=
  if o.load then
    let c := c.loadSlot o.slot o.key o.persist
    if alone then c.keyOpEnd o 0 else c
  else
    let ops := modifyFirst (· == o) (fun x => { x with agreed := alone }) c.cpe.ops
    ({ c with cpe := { c.cpe with ops := ops } } : Chip).beginErase o.slot

/-- The peer's DONE for a key operation of this head (R401). -/
def Chip.keyOpDone (c : Chip) (opid : Nat) : Chip :=
  match c.cpe.ops.find? (fun o => o.opid == opid && !o.remote) with
  | none => c
  | some o =>
    if o.load then c.keyOpEnd o 0
    else { c with cpe := { c.cpe with ops := modifyFirst (· == o) (fun x => { x with agreed := true }) c.cpe.ops } }

/-- A key operation begun: agreed with the peer where it is in service, or taking effect at once. -/
def Chip.startKeyOp (c : Chip) (o : KeyOp) (body : Proposal) : Chip :=
  if c.peerIn then
    let (c, opid) := c.propose body
    { c with cpe := { c.cpe with ops := c.cpe.ops ++ [{ o with opid := opid }] } }
  else ({ c with cpe := { c.cpe with ops := c.cpe.ops ++ [o] } } : Chip).applyKeyOp o true

/-! ### The checks of R243 -/

/-- Whether a function reaches a slot (R238). -/
def Chip.reaches (c : Chip) (fn slot : Nat) : Bool :=
  fn == 0 || (c.kcf.active.isSome && (c.tenantOf fn).valid && decide ((c.tenantOf fn).keyBase ≤ slot) &&
    decide (slot < (c.tenantOf fn).keyBase + (c.tenantOf fn).keyCount))

/-- Whether key transport is refused in the present lifecycle and debug state (Table 17-11). -/
def Chip.ktRefused (c : Chip) (persist : Bool) : Bool :=
  c.root.debug != .closed || !(c.lifecycle == 2 || (c.lifecycle == 1 && !persist))

/-- A byte range of a buffer is all 0. -/
def zeroAt (data : List Byte) (ofs n : Nat) : Bool := ((data.drop ofs).take n).all (· == 0#8)

/-- R239: the key that a LOAD_KEY buffer wraps. -/
def Chip.unwrapKey (c : Chip) (slot : Nat) (data : List Byte) : Option Nat :=
  let at_ := fun o n => (data.drop o).take n
  match c.root.secret.transport with
  | none => none
  | some priv =>
    if leNat (at_ 8 8) ≠ c.root.mono.ktSerial then none
    else
      match Config.ecdh priv (leNat (at_ 0x10 48)) (leNat (at_ 0x40 48)) with
      | none => none
      | some z =>
        let owner := (c.slotOwner slot).getD 0xFFFF
        let kek := hkdf256 (natLe z 48) (List.replicate 32 0#8) (ascii "colris-kt" ++ natLe slot 2 ++ natLe owner 2)
        (kwUnwrap kek (at_ 0x70 40)).map leNat

/-- Checks 1 to 7 of R243 for a Security Send. -/
def Chip.ktCheck (c : Chip) (fn nssf : Nat) (load : Bool) (data : List Byte) : Option Nat :=
  let slot := slotNamed data
  let form := leNat (data.take 2) == 1 && decide (leNat ((data.drop 2).take 2) < 4096) &&
    (if load then decide (leNat ((data.drop 4).take 1) < 2) && zeroAt data 5 3 && zeroAt data 0x98 8 else zeroAt data 4 12)
  let persist := load && bitOf (leNat ((data.drop 4).take 1)) 0
  if nssf ≠ 0 then some 1
  else if data.length ≠ (if load then 160 else 16) then some 2
  else if !form then some 1
  else if c.ktRefused persist then some 7
  else if !c.reaches fn slot then some 3
  else if c.slotBusy slot || (load && (c.slot slot).state != .empty) then some 4
  else if !load && (c.slot slot).state != .loaded then some 6
  else none

/-! ### The commands -/

/-- LOAD_KEY (R239, R241, R243): `tl` bytes of data come with it. -/
def loadKey (id : CmdId) (nssf tl : Nat) (c : Chip) : Chip :=
  c.executeWith id true 0x81 tl (fun _ => none) (fun data c =>
    let slot := slotNamed data
    match c.ktCheck id.fn nssf true data with
    | some r => c.ktEnd id 1 slot r
    | none =>
      match c.unwrapKey slot data with
      | none => c.ktEnd id 1 slot 5
      | some key =>
        let persist := bitOf (leNat ((data.drop 4).take 1)) 0
        c.startKeyOp { slot := slot, id := id, load := true, key := key, persist := persist, opid := 0, remote := false }
          (.keyLoad slot persist ((c.slotOwner slot).getD 0xFFFF) key))

/-- ERASE_KEY (R240, R241, R243, R245): `tl` bytes of data come with it. -/
def eraseKey (id : CmdId) (nssf tl : Nat) (c : Chip) : Chip :=
  c.executeWith id true 0x81 tl (fun _ => none) (fun data c =>
    let slot := slotNamed data
    match c.ktCheck id.fn nssf false data with
    | some r => c.ktEnd id 2 slot r
    | none => c.startKeyOp { slot := slot, id := id, load := false, key := 0, persist := false, opid := 0, remote := false } (.keyErase slot))

/-- Whether every chunk of a write is encrypted or needs no encryption: all of its blocks are cut into chunks, and each is packed or is the duplicate of
a stored record (R161, R219). -/
def Chip.writeEncrypted (c : Chip) (w : WrBuf) : Bool :=
  w.passed && !c.ing.segs.any (fun s => s.wids.contains w.wid) && (c.ing.chunks.filter (fun k => k.wids.contains w.wid)).all (fun k => match k.answer with
    | .duplicate _ prov => !prov
    | _ => k.packed.isSome)

/-- R161, R245: whether a write fetched while the slot held its present key still has chunks to encrypt under it. -/
def Chip.chunksWait (c : Chip) (slot : Nat) : Bool :=
  c.ing.writes.any (fun w => w.own && !w.zeroes && (c.nsOf w.nsid).keySlot == slot && w.keyGen == (c.slot slot).gen && !c.writeEncrypted w)

/-- ERASE_CHUNKS_ENCRYPTED: step 3 of R245, once no chunk of this head waits for the key; the row says the same of the peer's. -/
def eraseChunksEncrypted (slot : Nat) (c : Chip) : Chip :=
  match c.cpe.ops.find? (fun o => o.slot == slot && !o.load && !o.zeroized && (o.agreed || o.remote)) with
  | none => c
  | some o =>
    if c.chunksWait slot then c
    else
    let c := c.zeroizeSlot slot
    let c := { c with cpe := { c.cpe with ops := modifyFirst (· == o) (fun x => { x with zeroized := true, chunksLeft := false }) c.cpe.ops } }
    if o.remote then c else c.ktEnd o.id 2 slot 0

/-- A Security Receive: NSSF must be 0; the data is cut to the allocation length. -/
def Chip.securityReceive (c : Chip) (id : CmdId) (nssf alloc : Nat) (dptr : DPtr) (data : Chip → List Byte) : Chip :=
  c.executeOut id 0x82 dptr alloc (fun i c =>
    if nssf ≠ 0 then c.finish id stField else c.returnData id i dptr alloc ((data c).take alloc) none)

/-- TRANSPORT_KEY (Table 8-4). -/
def transportKey (id : CmdId) (nssf alloc : Nat) (dptr : DPtr) (c : Chip) : Chip :=
  c.securityReceive id nssf alloc dptr (fun c =>
    let pub := match c.root.secret.transport with
      | some priv => Config.publicKey priv
      | none => (0, 0)
    natLe 1 2 ++ natLe 0 6 ++ natLe c.root.mono.ktSerial 8 ++ natLe pub.1 48 ++ natLe pub.2 48)

/-- The state of a slot as a number (Table 8-4). -/
def SlotState.code : SlotState → Nat
  | .empty => 0
  | .loaded => 1
  | .erasing => 2

/-- A SLOT_STATUS entry. -/
def slotEntry (k : Nat) (s : KeySlot) : List Byte :=
  natLe k 2 ++ natLe s.state.code 1 ++ natLe (flag s.persist + 2 * flag s.erased) 1 ++ natLe 0 2 ++ natLe s.eraseEpoch 6 ++ natLe 0 4

/-- The slots a function reaches, in ascending order (R238, R244). -/
def Chip.slotsOf (c : Chip) (fn : Nat) : List Nat :=
  if fn = 0 then List.range 4096
  else if c.kcf.active.isSome && (c.tenantOf fn).valid then upFrom (c.tenantOf fn).keyBase (c.tenantOf fn).keyCount
  else []

/-- SLOT_STATUS (Table 8-4). -/
def slotStatus (id : CmdId) (nssf alloc : Nat) (dptr : DPtr) (c : Chip) : Chip :=
  c.securityReceive id nssf alloc dptr (fun c => (c.slotsOf id.fn).flatMap (fun k => slotEntry k (c.slot k)))

/-- LAST_RESULT (Table 8-4): zeros until the function's first Security Send of the protocol. -/
def lastResult (id : CmdId) (nssf alloc : Nat) (dptr : DPtr) (c : Chip) : Chip :=
  c.securityReceive id nssf alloc dptr (fun c =>
    match c.cpe.lastResult.find? (fun e => e.1 == id.fn) with
    | none => List.replicate 16 0#8
    | some (_, r) => natLe 1 2 ++ natLe r.spsp 2 ++ natLe r.slot 2 ++ natLe r.reason 1 ++ natLe 0 1 ++ natLe r.epoch 6 ++ natLe 0 2)

/-- Security Receive of protocol 0x00: the list of protocols 0x00 and 0xF1 (R238; SPC's layout, log entry 15); SPSP and NSSF must be 0. -/
def securityProtocolInfo (id : CmdId) (spsp nssf alloc : Nat) (dptr : DPtr) (c : Chip) : Chip :=
  c.securityReceive id (nssf + spsp) alloc dptr (fun _ => natBe 0 6 ++ natBe 2 2 ++ [0x00#8, 0xF1#8])

-- EXEC loadKey eraseKey eraseChunksEncrypted transportKey slotStatus lastResult securityProtocolInfo

/-- LOAD_KEY (R239). -/
def execLoadKey (id : CmdId) (nssf : Nat) (tl : Nat) (s : State) : Host.Outcome State Fault Refusal :=
  s.runAwake (id.wf) (loadKey id nssf tl)

/-- ERASE_KEY (R245). -/
def execEraseKey (id : CmdId) (nssf : Nat) (tl : Nat) (s : State) : Host.Outcome State Fault Refusal :=
  s.runAwake (id.wf) (eraseKey id nssf tl)

/-- ERASE_CHUNKS_ENCRYPTED (R245). -/
def execEraseChunksEncrypted (slot : Nat) (s : State) : Host.Outcome State Fault Refusal :=
  s.runAwake true (eraseChunksEncrypted slot)

/-- TRANSPORT_KEY (R244). -/
def execTransportKey (id : CmdId) (nssf : Nat) (alloc : Nat) (dptr : DPtr) (s : State) : Host.Outcome State Fault Refusal :=
  s.runAwake (id.wf) (transportKey id nssf alloc dptr)

/-- SLOT_STATUS (R244). -/
def execSlotStatus (id : CmdId) (nssf : Nat) (alloc : Nat) (dptr : DPtr) (s : State) : Host.Outcome State Fault Refusal :=
  s.runAwake (id.wf) (slotStatus id nssf alloc dptr)

/-- LAST_RESULT (R244). -/
def execLastResult (id : CmdId) (nssf : Nat) (alloc : Nat) (dptr : DPtr) (s : State) : Host.Outcome State Fault Refusal :=
  s.runAwake (id.wf) (lastResult id nssf alloc dptr)

/-- SECURITY_PROTOCOL_INFO (R238). -/
def execSecurityProtocolInfo (id : CmdId) (spsp : Nat) (nssf : Nat) (alloc : Nat) (dptr : DPtr) (s : State) : Host.Outcome State Fault Refusal :=
  s.runAwake (id.wf) (securityProtocolInfo id spsp nssf alloc dptr)

-- END EXEC

end Sys2Proof.Machine
end

