-- ==== Sys2Proof/Machine/PeerRx.lean ====
section
/-!
DEFINITION. The peer link's lanes, delivery and heartbeat (R389 to R395, R397, R412, R413).
-/
namespace Sys2Proof.Machine

/-! ### Time on two axes -/

/-- A 64-bit two's complement number. -/
def toInt64 (v : Nat) : Int := if v < 2 ^ 63 then (v : Int) else (v : Int) - 2 ^ 64

/-- GLB_PEER_TIME_OFS (R30). -/
def Chip.ofs (c : Chip) : Int := toInt64 (c.get R.GLB_PEER_TIME_OFS_OFS)

/-- A peer stamp on this head's axis (R30). -/
def Chip.toOwn (c : Chip) (t : Nat) : Nat := ((t : Int) - c.ofs).toNat

/-- A stamp of this head on the peer's axis. -/
def Chip.toPeer (c : Chip) (t : Nat) : Nat := ((t : Int) + c.ofs).toNat

/-! ### Lanes -/

/-- A broken session (R394), or a link with no quad left: nothing is sent or accepted until the next bring-up. R416 takes it as silence. -/
def Chip.breakSession (c : Chip) : Chip :=
  { c with zbl := { c.zbl with session := 0, txKey := 0, rxKey := 0, txc := 0, rxTxc := 0, chC := {}, chM := {}, chB := {}, helloSent := false, helloDone := false, kept := [] } }

/-- A new set of quads in use; with none left the link is down (R389). -/
def Chip.setQuads (c : Chip) (q : Nat) : Chip :=
  let c := c.set R.ZBL_STATUS_QUADS q
  if q % 16 = 0 then c.breakSession else c

/-- LANE_FAILED (R389): the lane's quad leaves the set that this head receives, and a REWIDTH block tells the far end. -/
def laneFailed (lane : Nat) (c : Chip) : Chip :=
  let quad := lane / 4
  if !c.bit R.ZBL_STATUS_QUADS quad then c
  else
    let q := clearBit (c.get R.ZBL_STATUS_QUADS) quad
    let c := { c with zbl := { c.zbl with failedQuads := c.zbl.failedQuads.filter (· != quad) ++ [quad] } }
    ((c.bump R.ZBL_CNT_REWIDTH_REWIDTH 1).emit (.peerRewidth q)).setQuads q

/-- REWIDTH (R389): the far end's set is echoed, and the transmission switches to it. -/
def rewidth (quads : Nat) (c : Chip) : Chip :=
  let q := quads % 16
  if c.get R.ZBL_STATUS_QUADS = 0 then c
  else
    let c := c.emit (.peerRewidth q)
    if q = c.get R.ZBL_STATUS_QUADS then c else (c.bump R.ZBL_CNT_REWIDTH_REWIDTH 1).setQuads q

/-- QUAD_RETRAIN (R389): a removed quad whose lanes pass is restored by the same exchange. -/
def quadRetrain (quad : Nat) (ok : Bool) (c : Chip) : Chip :=
  if !ok || !c.zbl.failedQuads.contains quad || c.get R.ZBL_STATUS_QUADS = 0 then c
  else
    let q := setBit (c.get R.ZBL_STATUS_QUADS) quad
    let c := { c with zbl := { c.zbl with failedQuads := c.zbl.failedQuads.filter (· != quad) } }
    ((c.bump R.ZBL_CNT_REWIDTH_REWIDTH 1).emit (.peerRewidth q)).setQuads q

/-- Whether this head may use the peer link at all: it runs, its link watchdog is fed, and it is in no lifecycle state that keeps the link
down (R412, Table 17-11, R527). -/
def Chip.mayLink (c : Chip) : Bool := c.awake && !c.zbl.lapsed && c.usesLinks

/-- ZBL_WAKE_TONE_SEND (R397): the tone every 1 ms while the link is down, until training begins. -/
def zblWakeToneSend (c : Chip) : Chip :=
  if c.mayLink && !c.linkUp && !c.zbl.training && decide (c.zbl.lastTone + 1000000 ≤ c.now || c.zbl.lastTone = 0) then
    ({ c with zbl := { c.zbl with lastTone := c.now } } : Chip).emit .peerTone
  else c

/-! ### Delivery -/

/-- R404: mirror frames acknowledged: the writes whose MIRROR_END they cover are mirrored. -/
def Chip.mirrorsAcked (c : Chip) (fs : List SentFrame) : Chip :=
  let wids := fs.filterMap (fun f => match f.msg with
    | .mirrorEnd wid .. => some wid
    | _ => none)
  if wids.isEmpty then c else (wids.foldl (fun d w => d.modWr w (fun x => { x with mirrored := true })) c).completeWrites

/-- R394: an acknowledgement value for a channel. `carried` is one carried on a frame of the channel, which repeats E. -/
def Chip.takeAck (c : Chip) (ch a : Nat) (carried : Bool) : Chip :=
  let x := c.zch ch
  let oldest := match x.unacked with
    | f :: _ => f.seq
    | [] => x.nextSeq
  let n := (a + 0x100000000 - oldest) % 0x100000000
  if n = 0 && carried then c
  else if n = 0 || x.unacked.length < n then c.bump R.ZBL_CNT_ACKBAD_ACKBAD 1
  else
    let done := x.unacked.take n
    let c := c.modZch ch (fun x => { x with unacked := x.unacked.drop n, sentAt := c.now })
    let c := if ch = 2 then c.mirrorsAcked done else c
    c.pump ch (c.zch ch).waiting.length

/-- R394: a channel sent again, or the session broken by a frame sent 8 times. -/
def Chip.resendOrBreak (c : Chip) (ch : Nat) : Chip :=
  if (c.zch ch).unacked.any (fun f => decide (8 ≤ f.sends)) then c.breakSession else c.resend ch

/-- A frame of the peer as it stands on the wire when it is sent with this header and payload. -/
def Chip.peerSent (c : Chip) (h : PeerHdr) (m : PeerMsg) : List Byte :=
  m.wire c.zbl.rxKey h.session h.src h.seq h.ack h.opid h.txc h.retx h.replay

/-- Whether a received frame is accepted under R391: of this session, with a TXC above the highest accepted, and its tag verifies. -/
def Chip.genuine (c : Chip) (h : PeerHdr) (m : PeerMsg) : Bool :=
  h.session == c.zbl.session && decide (c.zbl.rxTxc < h.txc) && h.trailer == trailerOf (c.peerSent h m)

/-- What becomes of a frame's sequence number (R393): accepted in turn, a duplicate, or out of turn. -/
def Chip.inTurn (c : Chip) (h : PeerHdr) (ch : Nat) (f : Chip → Chip) : Chip :=
  let x := c.zch ch
  let back := (x.expect + 0x100000000 - h.seq) % 0x100000000
  if back = 0 then
    f ((c.modZch ch (fun x => { x with expect := (x.expect + 1) % 0x100000000, ackOwed := true, nakSent := none })).bump R.ZBL_CNT_RX_RX 1)
  else if back ≤ 0x80000000 then (c.bump R.ZBL_CNT_DUP_DUP 1).sendAck 0
  else if x.nakSent = some x.expect then c
  else ((c.modZch ch (fun x => { x with nakSent := some x.expect })).bump R.ZBL_CNT_NAK_NAK 1).sendAck (2 ^ ch)

/-- A frame received on a channel: dropped, discarded, or accepted, with what it then does. -/
def Chip.receive (c : Chip) (h : PeerHdr) (m : PeerMsg) (f : Chip → Chip) : Chip :=
  if !c.linkUp || !c.awake then c
  else
    let c := (c.bump R.ZBL_CNT_CORR_CORR h.corrected).bump R.ZBL_CNT_UNCORR_UNCORR h.uncorrectable
    if h.uncorrectable ≠ 0 then c
    else if !c.genuine h m then c.bump R.ZBL_CNT_TAG_TAG 1
    else
      let c := { c with zbl := { c.zbl with rxTxc := h.txc } }
      let c := match h.ack with
        | some a => c.takeAck m.ch a true
        | none => c
      if m.seqd then c.inTurn h m.ch f else f (c.bump R.ZBL_CNT_RX_RX 1)

/-- The count of a request's OPID (R395). -/
def opCount (opid : Nat) : Nat := opid % 2 ^ 63

/-- R395: a request of the peer: new, in progress, answered before, or older than what is kept. `stale` and `bad` are its STALE and
MALFORMED answers; `ok` says that its payload is well formed (R396). -/
def Chip.request (c : Chip) (h : PeerHdr) (m : PeerMsg) (ok : Bool) (stale bad : PeerMsg) (f : Chip → Chip) : Chip :=
  c.receive h m (fun c =>
    match c.zbl.kept.find? (fun k => k.opid == h.opid) with
    | some k => match k.reply with
      | some m => c.peerSendR 1 h.opid true m
      | none => c
    | none =>
      if opCount h.opid ≤ c.zbl.rxOpid && 1024 ≤ c.zbl.kept.length then
        (c.bump R.ZBL_CNT_REPLAY_REPLAY 1).peerSend 1 h.opid stale
      else
        let c := { c with zbl := { c.zbl with rxOpid := max c.zbl.rxOpid (opCount h.opid) } }
        if ok then f c else c.peerReply h.opid bad)

/-- ZBL_ACK (R393, R394). -/
def zblAck (h : PeerHdr) (acks wins : List Nat) (nak : Nat) (c : Chip) : Chip :=
  c.receive h (.ack acks wins nak) (fun c =>
    let c := (List.range 3).foldl (fun d i => d.modZch i (fun x => { x with win := wins.getD i x.win })) c
    let c := (List.range 3).foldl (fun d i => match acks[i]? with
      | some a => d.takeAck i a false
      | none => d) c
    (bitsSet nak 3).foldl (fun d i => d.resendOrBreak i) c)

/-- ZBL_RETX_TIMEOUT (R394). -/
def zblRetxTimeout (ch : Nat) (c : Chip) : Chip :=
  let x := c.zch ch
  if !c.linkUp || x.unacked.isEmpty || decide (c.now < x.sentAt + c.get R.ZBL_TIMERS_RETX_US * 1000) then c
  else c.resendOrBreak ch

/-- OP_RETRY_TIMEOUT (R395). -/
def opRetryTimeout (opid : Nat) (c : Chip) : Chip :=
  match c.zbl.requests.find? (fun r => r.opid == opid) with
  | none => c
  | some r =>
    if !c.linkUp || decide (c.now < r.sentAt + c.get R.ZBL_TIMERS_OP_TMO_US * 1000) then c
    else
      let reqs := modifyFirst (fun x => x.opid == opid) (fun x => { x with sentAt := c.now }) c.zbl.requests
      ({ c with zbl := { c.zbl with requests := reqs } } : Chip).peerSend 1 opid r.msg

/-! ### The heartbeat -/

/-- The codes of Table 12-12 for a head's state. -/
def PeerState.code : PeerState → Nat
  | .alone => 0
  | .inService => 1
  | .sole => 2
  | .yielded => 3
  | .joining => 4
  | .loader => 5

/-- What this head reports of its state. -/
def Chip.stateCode (c : Chip) : Nat := if c.on R.GLB_STATUS_LOADER_ONLY then 5 else c.zbl.state.code

/-- The strings this head owns, as a mask. -/
def Chip.ownedStrings (c : Chip) : Nat := maskOf ((List.range 16).filter c.ownsStr)

/-- Whether the host link is up with CC.EN set on the physical function (Table 12-6). -/
def Chip.hostUp (c : Chip) : Bool := c.epc.link == .l0 && c.on (R.NVM_CC_EN 0)

/-- The STATE word of a heartbeat (R412); cohorts that go to sleep no longer show (R509). -/
def Chip.hbState (c : Chip) : HbState :=
  { pos := c.pos, state := c.stateCode, hostUp := c.hostUp, holdupHigh := c.pwr.holdupN,
    awake := c.ing.closing.foldl clearBit (c.get R.FTM_STATUS_AWAKE), strings := c.ownedStrings, mnDone := c.get R.ZBL_MN_DONE % 0x100000000 }

/-- HEARTBEAT_SEND (R412). -/
def heartbeatSend (c : Chip) : Chip :=
  if !c.linkUp || !c.awake || c.zbl.lapsed || (c.zbl.hbTxAt != 0 && decide (c.now < c.zbl.hbTxAt + 50000)) then c
  else
    let c := ({ c with zbl := { c.zbl with hbTxAt := c.now } } : Chip).stepTxc
    let hb : PeerMsg := .hb c.now c.zbl.lastHbTx c.zbl.lastHbRx c.hbState
    c.emit (.peerHb c.zbl.txc c.now c.zbl.lastHbTx c.zbl.lastHbRx c.hbState (c.peerWire none 0 false false hb))

/-- R624: a head with no cohort awake whose pair forms takes its peer's awake cohorts from the heartbeat; no more than two are awake (R20). -/
def Chip.takeAwake (c : Chip) (awake : Nat) : Chip :=
  if c.zbl.pairEpoch.isSome && c.get R.FTM_STATUS_AWAKE = 0 && awake % 256 ≠ 0 && decide ((bitsSet awake 8).length ≤ 2) then
    (c.set R.FTM_STATUS_AWAKE (awake % 256)).setIngest ((bitsSet awake 8).headD 0)
  else c

/-- HEARTBEAT_RECEIVE (R412, R413): the arrival is stamped with GLB_TIME (R29). -/
def heartbeatReceive (h : PeerHdr) (tx echoTx echoRx : Nat) (st : HbState) (c : Chip) : Chip :=
  c.receive h (.hb tx echoTx echoRx st) (fun c =>
    let o := (((echoRx : Int) - echoTx) - ((c.now : Int) - tx)) / 2
    let c := (c.set R.GLB_PEER_TIME_OFS_OFS (ofInt64 o)).set R.GLB_STATUS_PEER_UP 1
    let c := { c with zbl := { c.zbl with lastHbTx := tx, lastHbRx := c.now, peerHb := some st } }
    c.sleepSteps.takeAwake st.awake)

/-- The stop of all transmission on the peer link and the strings (R412, R590). -/
def Chip.goQuiet (c : Chip) : Chip :=
  let c := { c with zbl := { c.zbl with lapsed := true } }
  ((List.range 16).filter c.ownsStr).foldl (fun d s => d.disownString s) c.breakSession

/-- The counters of Table 12-11. -/
def zblCounters : List Fld :=
  [R.ZBL_CNT_TX_TX, R.ZBL_CNT_RX_RX, R.ZBL_CNT_RETX_RETX, R.ZBL_CNT_DUP_DUP, R.ZBL_CNT_ACKBAD_ACKBAD, R.ZBL_CNT_NAK_NAK,
   R.ZBL_CNT_TAG_TAG, R.ZBL_CNT_CORR_CORR, R.ZBL_CNT_UNCORR_UNCORR, R.ZBL_CNT_REWIDTH_REWIDTH, R.ZBL_CNT_REPLAY_REPLAY,
   R.ZBL_CNT_MSYNC_IGN_MSYNC_IGN, R.ZBL_CNT_TAKEOVER_TAKEOVER]

/-- ZBL_CNT_CLR (R422). -/
def zblCntClr (c : Chip) : Chip := c.clearAll zblCounters

-- EXEC laneFailed rewidth quadRetrain zblWakeToneSend zblAck zblRetxTimeout opRetryTimeout heartbeatSend heartbeatReceive zblCntClr

/-- LANE_FAILED (R389). -/
def execLaneFailed (lane : Nat) (s : State) : Host.Outcome State Fault Refusal :=
  s.runAwake true (laneFailed lane)

/-- REWIDTH (R389). -/
def execRewidth (quads : Nat) (s : State) : Host.Outcome State Fault Refusal :=
  s.runAwake true (rewidth quads)

/-- QUAD_RETRAIN (R389). -/
def execQuadRetrain (quad : Nat) (ok : Bool) (s : State) : Host.Outcome State Fault Refusal :=
  s.runAwake true (quadRetrain quad ok)

/-- ZBL_WAKE_TONE_SEND (R397). -/
def execZblWakeToneSend (s : State) : Host.Outcome State Fault Refusal :=
  s.runAwake true zblWakeToneSend

/-- ZBL_ACK (R393). -/
def execZblAck (h : PeerHdr) (acks : List Nat) (wins : List Nat) (nak : Nat) (s : State) : Host.Outcome State Fault Refusal :=
  s.runAwake true (zblAck h acks wins nak)

/-- ZBL_RETX_TIMEOUT (R394). -/
def execZblRetxTimeout (ch : Nat) (s : State) : Host.Outcome State Fault Refusal :=
  s.runAwake true (zblRetxTimeout ch)

/-- OP_RETRY_TIMEOUT (R395). -/
def execOpRetryTimeout (opid : Nat) (s : State) : Host.Outcome State Fault Refusal :=
  s.runAwake true (opRetryTimeout opid)

/-- HEARTBEAT_SEND (R412). -/
def execHeartbeatSend (s : State) : Host.Outcome State Fault Refusal :=
  s.runAwake true heartbeatSend

/-- HEARTBEAT_RECEIVE (R413). -/
def execHeartbeatReceive (h : PeerHdr) (tx : Nat) (echoTx : Nat) (echoRx : Nat) (st : HbState) (s : State) : Host.Outcome State Fault Refusal :=
  s.runAwake true (heartbeatReceive h tx echoTx echoRx st)

/-- ZBL_CNT_CLR (R422). -/
def execZblCntClr (s : State) : Host.Outcome State Fault Refusal :=
  s.runBar2 true true R.ZBL_CNT_CLR_CLR zblCntClr

-- END EXEC

end Sys2Proof.Machine
end

