-- ==== Sys2Proof/Machine/Takeover.lean ====
section
/-!
DEFINITION. The loss of the peer: takeover, yield, departure, and a head on its own (R149, R400, R415 to R419, R535, R566, R624).
-/
namespace Sys2Proof.Machine

/-! ### What both ends of a loss share -/

/-- R566: the WRITE_GEN of this head's confirmed firmware. -/
def Chip.confirmedGen (c : Chip) : Nat := if c.boot.confirmed && c.boot.fwState = 2 then c.boot.fwHeader.writeGen else c.root.mono.awg

/-- R566: AWG rises at the second Midnight from now to the lower of the generations known. -/
def Chip.planAwg (c : Chip) (peerGen : Option Nat) : Chip :=
  let g := match peerGen with
    | some p => min p c.confirmedGen
    | none => c.confirmedGen
  if c.root.mono.awg < g then { c with zbl := { c.zbl with awgDue := some (c.epoch + 1, g) } } else c

/-- R406: a head whose timekeeper was the peer keeps the schedule it had, through the last offset. -/
def Chip.keepSchedule (c : Chip) : Chip :=
  if c.zbl.anchorPeer then
    { c with zbl := { c.zbl with
        anchorPeer := false, anchorTime := c.toOwn c.zbl.anchorTime, movedAt := c.zbl.movedAt.map (fun m => (c.toOwn m.1, m.2)) } }
  else c

/-- A read that waited for the peer's map walk is resolved here. -/
def Chip.resolveHere (c : Chip) (r : ReadCmd) : Chip :=
  c.beginRead { r with srcs := (List.range r.nlb).map (fun i => c.sourceOf r.nsid (r.slba + i)) }

/-- R401: with the peer gone, what it had proposed and not committed is discarded; an operation of this head that COMMIT was sent for ends as
agreed, and one still waiting is withdrawn, to be applied alone. Reads that waited for a map walk are resolved here. -/
def Chip.dropPeer (c : Chip) : Chip :=
  let sent := c.zbl.proposals.filter (·.committed)
  let left := c.zbl.proposals.filter (fun a => !a.committed)
  let c := { c with zbl := { c.zbl with proposals := [], accepted := [], requests := [], leaseOut := false, withdrawn := c.zbl.withdrawn ++ left } }
  let c := sent.foldl (fun d a => d.keyOpDone a.opid) (c.set R.GLB_STATUS_PEER_UP 0)
  (c.ing.reads.filter ReadCmd.walking).foldl (fun d r => d.resolveHere r)
    { c with ing := { c.ing with reads := c.ing.reads.filter (fun r => !r.walking) } }

/-- One withdrawn proposal applied by this head alone (R401). -/
def Chip.applyAlone (c : Chip) (a : Agreement) : Chip :=
  match a.body with
  | .keyLoad .. | .keyErase _ => match c.cpe.ops.find? (fun o => o.opid == a.opid && !o.remote) with
    | some o => c.applyKeyOp o true
    | none => c
  | .image .. => c.proposeImage
  | .cohort k _ => c.beginSwitch k
  | .reshape _ => match c.rde.reshape with
    | some r => if r.running then c else c.beginOwnReshape r
    | none => c
  | .owner .. => c

/-- Every withdrawn proposal applied. -/
def Chip.applyWithdrawn (c : Chip) : Chip :=
  c.zbl.withdrawn.foldl (fun d a => d.applyAlone a) { c with zbl := { c.zbl with withdrawn := [] } }

/-! ### Granules -/

/-- The sum of the tenants' shares in MiB. -/
def Chip.shareSum (c : Chip) : Nat := match c.kcf.active with
  | some i => sumOf (i.tenants.map (fun t => t.2.wrbufMib))
  | none => 0

/-- This head's write-buffer size in bytes (Table 2-8, type 1). -/
def Chip.wbSize (c : Chip) : Nat := (((c.carve 1).head?).map (·.size)).getD 0

/-- R402, R403: the granules of a buffer of `size` bytes: which of them this head holds. -/
def Chip.splitGranules (c : Chip) (size : Nat) (mine : Nat → Bool) : Chip :=
  let total := size / 0x400000
  let keep := fun g => { c.granule g with mine := mine g }
  let gs := (List.range total).foldl (fun (l : List (Nat × Granule)) g => Sparse.set {} l g (keep g)) []
  { c with zbl := { c.zbl with total := total, reserve := min total (ceilDiv c.shareSum 4), granules := gs } }

/-- R402: which granules position 0 holds at pair formation: the reserve and the lower half of the rest; the odd one goes to position 1. -/
def lowerHalf (total reserve g : Nat) : Bool := decide (g < reserve + (total - reserve) / 2)

/-- R144: every granule of this head's own carve-out held by it, which is the keeper. -/
def Chip.allGranules (c : Chip) : Chip :=
  let c := c.splitGranules c.wbSize (fun _ => true)
  { c with zbl := { c.zbl with keeper := true, leaseOut := false } }

/-! ### Mirror copies kept -/

/-- The blocks of a kept write whose pieces are not durable scanned into segments. -/
def Chip.rescan (c : Chip) (w : WrBuf) : Chip :=
  let n := c.nsOf w.nsid
  let old := fun (i : Nat) => w.pieces.any (fun p => p.durable && decide (p.slba ≤ w.slba + i) && decide (w.slba + i < p.slba + p.blocks))
  c.scanSome n w ((List.range w.nlb).filter (fun i => !old i))

/-- A map record number that no record of this head bears: a piece the peer's Midnight has placed. -/
def placedByPeer : Nat := 2 ^ 32

/-- R149: a complete mirror copy becomes a write of this head, exposed from now on. -/
def Chip.keepMirror (c : Chip) (w : WrBuf) : Chip :=
  let n := w.bytes + w.metaBytes
  let seq := c.ing.postSeq + 1
  let w1 := { w with own := true, mirrored := true, journalled := true, completed := some (w.completed.getD seq), exposed := true,
                     pieces := w.pieces.map (fun p => if p.durable then { p with mapRsn := some placedByPeer } else { p with mapRsn := none }) }
  let c := { c with ing := { c.ing with postSeq := seq, ownUsed := c.ing.ownUsed + n, peerUsed := c.ing.peerUsed - n } }
  ((c.modWr w.wid (fun _ => w1)).append (.data w.wid)).rescan w1

/-- R149, R418: complete mirror copies kept, incomplete ones discarded. -/
def Chip.keepMirrors (c : Chip) : Chip :=
  let theirs := c.ing.writes.filter (fun w => !w.own)
  let c := (theirs.filter (fun w => !w.passed)).foldl (fun d w => d.releaseWrite w.wid) c
  (theirs.filter (·.passed)).foldl (fun d w => d.keepMirror w) c

/-- The peer's records of every epoch not completed dropped (R419). -/
def Chip.dropRecords (c : Chip) : Chip :=
  { c with zbl := { c.zbl with epochs := c.zbl.epochs.map (fun e => { e with recs := [], image := [], opened := false }) } }

/-- R274: the SEQ counter of every shelf set above the highest SEQ that the shelf shows, of either parity. -/
def Chip.raiseSeqs (c : Chip) : Chip :=
  c.ftm.shelves.foldl (fun d e => d.modShelf e.1 (fun s =>
    let top := max s.maxSeq (max (c.nandOf e.1).lastSeq0 (c.nandOf e.1).lastSeq1)
    { s with maxSeq := top, seqCtr := max s.seqCtr (top + 2) })) c

/-- R385: the power-fail schedule for a peer that is gone ends; that of this head's own flush goes on. -/
def Chip.endPeerFail (c : Chip) : Chip :=
  let own := c.ing.flushStart.isSome
  (List.range 16).foldl (fun (d : Chip) s => d.modStrg s (fun x => { x with pf := x.pf && own })) { c with zbl := { c.zbl with pfailSeen := false } }

/-- R287: the survivor owns every band; one the peer left open is closed. -/
def Chip.takeBands (c : Chip) : Chip :=
  let shut := fun (b : Band) => if b.state = 1 && b.head ≠ c.pos then { b with state := 2, head := c.pos } else b
  { c with
    ftm := { c.ftm with shelves := c.ftm.shelves.map (fun s => (s.1, { s.2 with bands := s.2.bands.map (fun b => (b.1, shut b.2)) })) }
    zbl := { c.zbl with bandLeases := [] } }

/-- What this head takes of a peer that is gone: granules, band leases, buckets (`state` says that it owns every bucket), and the mirrors. -/
def Chip.takePeersShare (c : Chip) : Chip :=
  let c := (c.keepSchedule.dropPeer.allGranules).takeBands.raiseSeqs
  let c := ({ c with zbl := { c.zbl with state := .sole, pairEpoch := none, rejoin := none } } : Chip).endPeerFail
  c.dropRecords.keepMirrors

/-- Every string taken. -/
def Chip.takeStrings (c : Chip) (strings : Nat) (fresh : Bool) : Chip :=
  (bitsSet strings 16).foldl (fun d s => d.ownString s fresh) c

/-! ### A head on its own -/

/-- R535: new array secrets where this head holds none. -/
def Chip.makeSecrets (c : Chip) : Chip :=
  if c.root.secret.dedup.isSome then c
  else
    let d := Config.random c.freeCount
    let v := Config.random (c.freeCount + 1)
    let gen := c.root.mono.secretGen + 1
    ((c.useFree.useFree).seal (fun r => { r with
      secret := { r.secret with dedup := some d, vault := some v }, mono := { r.mono with secretGen := gen } }))

/-- R624: the cohort that a head without awake cohorts asks for. -/
def Chip.firstCohort (c : Chip) : Option Nat :=
  match c.ftm.ingestRecorded with
  | some k => some k
  | none => (List.range 8).find? (fun k => !(c.cohortShelves k).isEmpty)

/-- R624: with no cohort awake, the Wake of one is asked for, ranked as a read just arrived. -/
def Chip.askFirst (c : Chip) : Chip :=
  if c.get R.FTM_STATUS_AWAKE ≠ 0 || c.ing.part == .wake then c
  else match c.firstCohort with
    | none => c
    | some k => { c with
        ftm := { c.ftm with switchWanted := (c.ftm.switchWanted.filter (·.1 != k)) ++ [(k, c.now, 0)] }
        ing := { c.ing with part := if c.ing.part = .none then .gather else c.ing.part, gatherAt := c.now } }

/-- A head becomes sole (R400, R415, R418): GLB_STATUS.SOLE, both ANA groups Optimized, what waited goes on; writes fetched by then complete as sole
writes whenever the cap admits them (R148, Table 12-8 step 3). -/
def Chip.soleNow (c : Chip) : Chip :=
  let c := { c with
    zbl := { c.zbl with state := .sole, fencing := false }
    ing := { c.ing with writes := modifyAll (fun (w : WrBuf) => w.own && w.completed.isNone) (fun w => { w with mirrored := true }) c.ing.writes }
    nvm := { c.nvm with suspended := false, anaDue := none } }
  let c := (c.setAll [(R.GLB_STATUS_SOLE, 1), (R.ZBL_STATUS_STATE, 5)]).makeSecrets
  ((((((c.setAnaBoth 1 1).applyWithdrawn).proposeImage).askFirst).planAwg none).completeWrites).resumePosts

/-! ### Yield -/

/-- Every command in flight completed with Asymmetric Access Inaccessible (R417). -/
def Chip.failCommands (c : Chip) : Chip :=
  let ids := (c.nvm.inflight.filter (fun i => !i.abandoned && i.opc != 0x0C)).map (·.id)
  let c := c.dropXfers (fun x => match x.purpose with
    | .kcfLoad => false
    | .dmaChannel .. => false
    | _ => true)
  let c := { c with
    ing := { c.ing with reads := [], fetches := [] }
    nvm := { c.nvm with pendingNs := [] }
    cpe := { c.cpe with ops := c.cpe.ops.filter (fun o => o.remote || o.agreed || o.zeroized) } }
  ids.foldl (fun d i => d.finish i (stat 3 0x02 false)) c

/-- R417: this head yields: no fetch, no media operation, no beacon, both ANA groups Inaccessible, and no data exposed: the survivor holds its
completed writes. -/
def Chip.yieldNow (c : Chip) : Chip :=
  let c := (c.notice 5 0).keepSchedule
  let c := ((List.range 16).filter c.ownsStr).foldl (fun d s => d.disownString s) c
  let c := (c.setAnaBoth 3 3).failCommands.dropPeer
  let c := { c with
    ing := { c.ing with writes := [], segs := [], chunks := [], stripes := [], ownUsed := 0, peerUsed := 0, fetchStopped := true,
                        journal := c.ing.journal.filter (fun r => !r.isData) }
    ftm := { c.ftm with ops := [], copies := [], mapRecs := [] }
    dd := { c.dd with inflight := [], updates := [], waiting := [] }
    nvm := { c.nvm with suspended := false }
    zbl := { c.zbl with state := .yielded, withdrawn := [], pairEpoch := none, rejoin := none, granules := [], total := 0, keeper := false,
                        bandLeases := [], fencing := false, retryAt := c.now + 1000000000 } }
  let c := c.dropRecords.breakSession
  (c.setAll [(R.ZBL_STATUS_YIELD, 1), (R.ZBL_STATUS_STATE, 6), (R.GLB_STATUS_SOLE, 0), (R.GLB_STATUS_PEER_UP, 0)]).event 0x281 0 0 1 0 0

/-! ### Takeover -/

/-- TAKEOVER (R418): the peer fenced on every string, its strings taken with OWNER_GEN one higher, its share taken; I/O waits until the fence
is complete. -/
def Chip.takeOver (c : Chip) : Chip :=
  let peer8 := c.pos == 1
  let c := c.takePeersShare
  let c := c.takeStrings 0xFFFF false
  let c := (List.range 16).foldl (fun (d : Chip) s => d.modStrg s (fun x =>
    { x with fence8 := peer8 || x.fence8, fence9 := !peer8 || x.fence9, fenceCycles := 0 })) c
  let c := { c with zbl := { c.zbl with fencing := true }, nvm := { c.nvm with suspended := true } }
  ((c.breakSession).bump R.ZBL_CNT_TAKEOVER_TAKEOVER 1).event 0x281 0 0 0 0 0

/-- Whether a string's fence is complete: two cycles of 43.52 µs after its first fencing beacon; a beacon that collided does not count
(R363, R418). -/
def Chip.fenced (c : Chip) (s : Nat) : Bool :=
  let x := c.strg s
  decide (1 ≤ x.fenceCycles) && decide (87040 ≤ (x.fenceCycles - 1) * 43520 + (c.now - x.lastBeaconAt))

/-- FENCE_COMPLETE (R418 steps 3 and 4, R419). -/
def fenceComplete (c : Chip) : Chip :=
  if !c.zbl.fencing || !((List.range 16).filter c.trainedOn).all c.fenced then c
  else ({ c.set R.ZBL_STATUS_LOST 1 with ing := { c.ing with peerVaultSuperseded := true } } : Chip).soleNow

/-- Whether the peer is silent (R416): no heartbeat for 200 µs, or a broken session. -/
def Chip.silent (c : Chip) : Bool := !c.linkUp || decide (c.zbl.lastHbRx + 200000 ≤ c.now)

/-- A readmission or a pair formation that ends before it took effect (R421). -/
def Chip.endJoining (c : Chip) : Chip :=
  let c := (c.set R.GLB_STATUS_PEER_UP 0).breakSession
  match c.zbl.state with
  | .sole => ({ c with zbl := { c.zbl with rejoin := none } } : Chip).allGranules.set R.ZBL_STATUS_STATE 5
  | .joining =>
    if c.zbl.pairEpoch.isSome then
      (({ c with zbl := { c.zbl with state := .alone, pairEpoch := none } } : Chip).keepSchedule).set R.ZBL_STATUS_STATE 7
    else
      ({ c with zbl := { c.zbl with state := .yielded, rejoin := none, retryAt := c.now + 1000000000 } } : Chip).set R.ZBL_STATUS_STATE 6
  | _ => c

/-- Whether a string is in service for this head: up and owned by either head, or in holdover (Table 11-11). -/
def Chip.strServes (c : Chip) (s : Nat) : Bool :=
  let st := c.get (R.ISF_STR_STATUS_STATE s)
  st == 2 || st == 3 || st == 4

/-- R416: whether the peer is present: its SOS in its guaranteed slot, or its beacon, appeared on a string in service in the last two cycles of
43.52 µs; so it counts with no string in service. -/
def Chip.peerPresent (c : Chip) : Bool :=
  let up := (List.range 16).filter c.strServes
  up.isEmpty || up.any (fun s => (c.strg s).peerSeen.any (fun t => decide (c.now ≤ t + 87040)))

/-- PEER_SILENT (R416 to R418). -/
def peerSilent (c : Chip) : Chip :=
  let present := c.peerPresent
  if !c.awake || !c.silent || c.zbl.lapsed then c
  else if c.zbl.state = .inService then
    if c.zbl.pfailSeen || !present || c.pos = 0 then c.takeOver else c.yieldNow
  else if c.zbl.state = .joining || c.zbl.state = .sole then c.endJoining
  else c.set R.GLB_STATUS_PEER_UP 0

/-- ALONE_TIMEOUT (R400): no pair formed ALONE_S seconds after Day. A head that uses no link stays as it is (R527, Table 17-11). -/
def aloneTimeout (c : Chip) : Chip :=
  if !c.isDay || !c.usesLinks || c.zbl.state ≠ .alone || decide (c.now < c.pwr.dayAt + c.get R.ZBL_CTRL_ALONE_S * 1000000000) then c
  else if c.peerPresent && c.pos = 1 then c.yieldNow
  else ((c.takeStrings 0xFFFF true).allGranules).soleNow

/-! ### Notices -/

/-- HOST_DOWN (R415). -/
def hostDown (h : PeerHdr) (time : Nat) (c : Chip) : Chip :=
  c.receive h (.notice 1 0 time) (fun c =>
    if c.peerIn then { c with nvm := { c.nvm with anaDue := some (c.epoch + 1, [(c.homeGroup, 1), (3 - c.homeGroup, 1)]) } } else c)

/-- HOST_UP (R415). -/
def hostUp (h : PeerHdr) (time : Nat) (c : Chip) : Chip :=
  c.receive h (.notice 2 0 time) (fun c =>
    if c.peerIn then { c with nvm := { c.nvm with anaDue := some (c.epoch + 1, [(c.homeGroup, 1), (3 - c.homeGroup, 2)]) } } else c)

/-- The power-fail schedule on the catalogue strings this head owns (R385). -/
def Chip.powerFailSchedule (c : Chip) : Chip :=
  ((List.range 16).filter (fun s => (c.catPos s).isSome && c.ownsStr s)).foldl (fun (d : Chip) s => d.modStrg s (fun x => { x with pf := true })) c

/-- PFAIL (R415). -/
def pfail (h : PeerHdr) (strings time : Nat) (c : Chip) : Chip :=
  c.receive h (.notice 3 strings time) (fun c =>
    let free := maskOf ((bitsSet strings 16).filter (fun s => (c.catPos s).isNone))
    (({ c with zbl := { c.zbl with pfailSeen := true } } : Chip).powerFailSchedule).takeStrings free false)

/-- DEPART (R415): no fence and no suspension; every string and bucket is taken. -/
def depart (h : PeerHdr) (strings time : Nat) (c : Chip) : Chip :=
  c.receive h (.notice 4 strings time) (fun c =>
    if c.zbl.state ≠ .inService then c
    else
      let flushed := c.zbl.pfailSeen
      let c := (c.takePeersShare).takeStrings strings false
      let c := { c with zbl := { c.zbl with departed := true }, ing := { c.ing with peerVaultSuperseded := c.ing.peerVaultSuperseded || flushed } }
      c.breakSession.soleNow)

/-- YIELD (R415, R417): the peer has stopped; its strings are taken at once, under the fence of R418. -/
def peerYield (h : PeerHdr) (time : Nat) (c : Chip) : Chip :=
  c.receive h (.notice 5 0 time) (fun c => if c.zbl.state = .inService then c.takeOver else c)

/-! ### Trying again -/

/-- Training begun (R398). -/
def Chip.trainPeer (c : Chip) : Chip :=
  (({ c with zbl := { c.zbl with training := true } } : Chip).set R.ZBL_STATUS_STATE 1).emit (.peerTrain 0xF)

/-- BRINGUP_RETRY (R417, R421): every 1 s after a yield, every 10 s after a refusal. -/
def bringupRetry (c : Chip) : Chip :=
  if c.mayLink && !c.linkUp && c.zbl.retryAt != 0 && decide (c.zbl.retryAt ≤ c.now) then
    let wait := if c.zbl.state = .yielded && !c.on R.ZBL_STATUS_REFUSED then 1000000000 else 10000000000
    ({ c with zbl := { c.zbl with retryAt := c.now + wait } } : Chip).trainPeer
  else c

/-- ZBL_TRAINING_RESTART (R398): training that found no quad starts again. -/
def zblTrainingRestart (c : Chip) : Chip :=
  if c.mayLink && !c.linkUp && c.zbl.training then c.trainPeer else c

-- EXEC fenceComplete peerSilent aloneTimeout hostDown hostUp pfail depart peerYield bringupRetry zblTrainingRestart

/-- FENCE_COMPLETE (R418). -/
def execFenceComplete (s : State) : Host.Outcome State Fault Refusal :=
  s.runAwake true fenceComplete

/-- PEER_SILENT (R416). -/
def execPeerSilent (s : State) : Host.Outcome State Fault Refusal :=
  s.runAwake true peerSilent

/-- ALONE_TIMEOUT (R400). -/
def execAloneTimeout (s : State) : Host.Outcome State Fault Refusal :=
  s.runAwake true aloneTimeout

/-- HOST_DOWN (R415). -/
def execHostDown (h : PeerHdr) (time : Nat) (s : State) : Host.Outcome State Fault Refusal :=
  s.runAwake true (hostDown h time)

/-- HOST_UP (R415). -/
def execHostUp (h : PeerHdr) (time : Nat) (s : State) : Host.Outcome State Fault Refusal :=
  s.runAwake true (hostUp h time)

/-- PFAIL (R415). -/
def execPfail (h : PeerHdr) (strings : Nat) (time : Nat) (s : State) : Host.Outcome State Fault Refusal :=
  s.runAwake true (pfail h strings time)

/-- DEPART (R415). -/
def execDepart (h : PeerHdr) (strings : Nat) (time : Nat) (s : State) : Host.Outcome State Fault Refusal :=
  s.runAwake true (depart h strings time)

/-- YIELD (R415). -/
def execPeerYield (h : PeerHdr) (time : Nat) (s : State) : Host.Outcome State Fault Refusal :=
  s.runAwake true (peerYield h time)

/-- BRINGUP_RETRY (R421). -/
def execBringupRetry (s : State) : Host.Outcome State Fault Refusal :=
  s.runAwake true bringupRetry

/-- ZBL_TRAINING_RESTART (R398). -/
def execZblTrainingRestart (s : State) : Host.Outcome State Fault Refusal :=
  s.runAwake true zblTrainingRestart

-- END EXEC

end Sys2Proof.Machine
end

