-- ==== Sys2Proof/Machine/Midnight.lean ====
section
/-!
DEFINITION. Epochs and Midnights (R63, R66, R124, R167, R207, R208, R245, R310, R345, R400, R406 to R411, R415, R420, R566).
-/
namespace Sys2Proof.Machine

/-! ### The schedule -/

/-- EPOCH_US in nanoseconds (Table 2-4); 8 ms without an active image. -/
def Chip.epochNs (c : Chip) : Nat := 1000 * (match c.kcf.active with
  | some i => i.epochUs
  | none => 8000)

/-- Whether a pair is formed or forming (R406). -/
def Chip.paired (c : Chip) : Bool := c.zbl.state == .inService || c.zbl.pairEpoch.isSome

/-- R406: position 0 of a pair keeps the time; a head on its own is its own timekeeper. -/
def Chip.timekeeper (c : Chip) : Bool := !c.paired || c.pos == 0

/-- CLOCKS.MSYNC of the active image (Table 2-9). -/
def Chip.msync (c : Chip) : Bool := c.kcf.active.any (fun i => i.clocks.msync == 1)

/-- The epoch that the next boundary opens: one more, or the one that R400 names. -/
def Chip.nextEpoch (c : Chip) : Nat := c.zbl.pairEpoch.getD (c.epoch + 1)

/-- When the boundary that opens an epoch falls, on this head's axis (R406): T_a + (e − e_a) × EPOCH_US, or from a moved boundary on (R407). -/
def Chip.boundaryAt (c : Chip) (e : Nat) : Nat :=
  let z := c.zbl
  let from_ := fun (t a : Nat) => t + (e - a) * c.epochNs
  let t := match z.movedAt with
    | some (t, m) => if m ≤ e then from_ t m else from_ z.anchorTime z.anchorEpoch
    | none => from_ z.anchorTime z.anchorEpoch
  if z.anchorPeer then c.toOwn t else t

/-- A boundary moved (R407): the schedule re-anchors there, at once where it is the next one. -/
def Chip.moveBoundary (c : Chip) (t e : Nat) : Chip :=
  if e ≤ c.nextEpoch then { c with zbl := { c.zbl with anchorTime := t, anchorEpoch := e, movedAt := none } }
  else { c with zbl := { c.zbl with movedAt := some (t, e) } }

/-- MIDNIGHT_SYNC_EDGE (R407). Of the boundaries near the edge, the nearest counts; one that lies before t_e has taken place by then. -/
def midnightSyncEdge (c : Chip) : Chip :=
  if !c.inService || !c.msync || !c.timekeeper then c
  else
    let te := c.now + 100000
    let n := c.nextEpoch
    let near := [(c.epoch, c.get R.ZBL_ANCHOR_TIME), (n, c.boundaryAt n), (n + 1, c.boundaryAt (n + 1))]
    let dist := fun (p : Nat × Nat) => (te - p.2) + (p.2 - te)
    let b := near.foldl (fun (best : Nat × Nat) p => if dist p < dist best then p else best) (c.epoch, c.get R.ZBL_ANCHOR_TIME)
    if 2000000 < dist b || c.zbl.msyncUsedEpoch = some c.epoch then c.bump R.ZBL_CNT_MSYNC_IGN_MSYNC_IGN 1
    else
      let shift : Int := (te : Int) - b.2
      let m := if te ≤ b.2 then (te, b.1) else (te + c.epochNs, if b.1 = c.epoch then n else b.1 + 1)
      let c := { c with zbl := { c.zbl with msyncUsedEpoch := some c.epoch } }
      let c := (c.set R.ZBL_MSYNC_LAST_SHIFT (ofInt64 shift)).moveBoundary m.1 m.2
      if c.paired then c.peerSend 0 0 (.mnSync m.1 m.2 shift) else c

/-- MN_SYNC (R407): the follower moves the same boundary. -/
def mnSync (h : PeerHdr) (time epoch : Nat) (shift : Int) (c : Chip) : Chip :=
  c.receive h (.mnSync time epoch shift) (fun c =>
    if c.timekeeper then c else (c.set R.ZBL_MSYNC_LAST_SHIFT (ofInt64 shift)).moveBoundary time epoch)

/-! ### The exchange of an epoch -/

/-- An epoch's exchange. -/
def Chip.epochEx (c : Chip) (e : Nat) : EpochEx := (c.zbl.epochs.find? (fun x => x.epoch == e)).getD { epoch := e }

/-- An epoch's exchange changed. -/
def Chip.modEpoch (c : Chip) (e : Nat) (f : EpochEx → EpochEx) : Chip :=
  let others := c.zbl.epochs.filter (fun x => x.epoch != e)
  { c with zbl := { c.zbl with epochs := others ++ [f (c.epochEx e)] } }

/-- Whether this head's own records up to an epoch are vaulted (R168, R409). -/
def Chip.ownVaulted (c : Chip) (e : Nat) : Bool := c.ing.journal.all (fun r => decide (e < r.epoch) || c.isVaulted r)

/-- The record number before another, mod 2^32. -/
def rsnBefore (n : Nat) : Nat := (n + 0xFFFFFFFF) % 0x100000000

/-- R409: MN_CLOSE of every closed epoch whose records are vaulted, with the SHA-256 over those of which the peer has copies. -/
def Chip.sendCloses (c : Chip) : Chip :=
  if !c.peerIn then c
  else
    (c.zbl.epochs.filter (fun x => x.opened && !x.closeSent && decide (x.epoch < c.epoch) && c.ownVaulted x.epoch)).foldl (fun d x =>
      let recs := d.ing.journal.filter (fun r => !r.isData && r.epoch == x.epoch)
      let last := ((recs.getLast?).map (·.rsn)).getD (rsnBefore d.ing.nextRsn)
      let eff := match d.ing.journal.find? (fun r => !r.isData) with
        | some r => rsnBefore r.rsn
        | none => rsnBefore d.ing.nextRsn
      let digest := recordsSha recs
      (d.modEpoch x.epoch (fun x => { x with closeSent := true, sentDigest := digest })).peerSend 1 0
        (.mnClose x.epoch recs.length last digest eff)) c

/-- JOURNAL_RECORD_VAULTED (R168): a vault region holds a record; completions that waited for the cap follow, and MN_CLOSE of an epoch whose
last record it was. -/
def journalRecordVaulted (region rsn : Nat) (c : Chip) : Chip :=
  (({ c with ing := { c.ing with journal := modifyAll (fun r => r.rsn == rsn) (fun r =>
      if region = 0 then { r with vault0 := true } else if region = 1 then { r with vault1 := true } else r) c.ing.journal } } :
    Chip).settle).sendCloses

/-- REC (R409). -/
def recCopy (h : PeerHdr) (rsn epoch : Nat) (image : List Byte) (body : RecBody) (c : Chip) : Chip :=
  c.receive h (.recImage image) (fun c => c.modEpoch epoch (fun x => { x with recs := x.recs ++ [(rsn, body)], image := x.image ++ image }))

/-- MN_CLOSE (R409): checked against the records held; one mismatch has them sent again, a second breaks the session. -/
def mnClose (h : PeerHdr) (epoch count lastSeq digest effective : Nat) (c : Chip) : Chip :=
  c.receive h (.mnClose epoch count lastSeq digest effective) (fun c =>
    let x := c.epochEx epoch
    if x.recs.length = count && beNat (sha256 x.image) == digest then
      (c.modEpoch epoch (fun x => { x with effective := effective, confirmSent := true })).peerSend 1 0 (.mnConfirm epoch digest)
    else if x.mismatches = 0 then c.modEpoch epoch (fun x => { x with recs := [], image := [], mismatches := 1 })
    else c.breakSession)

/-- MN_CONFIRM (R409). -/
def mnConfirm (h : PeerHdr) (epoch digest : Nat) (c : Chip) : Chip :=
  c.receive h (.mnConfirm epoch digest) (fun c => c.modEpoch epoch (fun x => if x.closeSent && x.sentDigest = digest then { x with confirmed := true } else x))

/-! ### The peer's records -/

/-- A namespace's new state in effect: blocks of one that is gone or formatted are deallocated (R126), its segments close where it is detached,
deleted or formatted (R157), and its controllers are told (R123). -/
def Chip.takeNs (c : Chip) (nsid : Nat) (n : Namespace) (wiped : Bool) : Chip :=
  let old := c.nsOf nsid
  let gone := old.present && (wiped || !n.present)
  let c := if gone || (old.attached && !n.attached) then c.closeNsSegs nsid else c
  let c := if gone then c.trimNamespace nsid (!n.present) else c
  let c := c.setNs nsid n
  if old = n then c else c.nsNotice (if n.present then n.owner else old.owner) nsid

/-- A catalogue update of the peer (R213). -/
def Chip.peerUpdate (c : Chip) (epoch wid piece : Nat) (ch : CatChange) : Chip :=
  { c with dd := { c.dd with updates := c.dd.updates ++ [⟨epoch, wid, piece, true, ch⟩] } }

/-- A map record of the peer put among those that the Midnight applies. -/
def Chip.peerMap (c : Chip) (r : MapRec) : Chip := { c with ftm := { c.ftm with mapRecs := c.ftm.mapRecs ++ [r] } }

/-- An empty map record of the peer. -/
def peerRec (rsn epoch : Nat) : MapRec :=
  { rsn := rsn, epoch := epoch, fromPeer := true, nsid := 0, slba := 0, blocks := 0, places := [], codes := 0, tags := [] }

/-- One record of the peer taken as its Midnight completes (R409, R410); the fingerprints that it answered enter the filter (R208). A change of the
namespaces takes effect at the Midnight after it, as on the head that accepted it (R124). -/
def Chip.takeRecord (c : Chip) (epoch : Nat) (e : Nat × RecBody) : Chip :=
  let r := peerRec e.1 epoch
  match e.2 with
  | .map wid piece nsid slba blocks code places tags =>
    let ps := places.map (fun p => (⟨nsid, p.lba / 16384, p.lba % 16384, p.count, p.skip, p.origin, p.locator⟩ : PlaceEnt))
    let ts := tags.map (fun t => (⟨t.lba, t.mode, t.count, t.refBase, t.appTag⟩ : TagRun))
    (c.peerMap { r with nsid := nsid, slba := slba, blocks := blocks, places := ps, codes := code, tags := ts }).modWr wid
      (fun w => if w.own then w else { w with pieces := w.pieces.map (fun p => if p.index = piece then { p with durable := true } else p) })
  | .insert fp dom cls blocks loc slot wid piece =>
    c.peerUpdate epoch wid piece (.insert ⟨fp, dom, cls, blocks, 1, loc, 1, slot, epoch, false⟩)
  | .increment fp dom cls loc wid piece => c.peerUpdate epoch wid piece (.increment fp dom cls loc)
  | .decrement fp dom cls loc => c.peerUpdate epoch 0 0 (.decrement fp dom cls loc)
  | .relocate fp dom cls old new => c.peerUpdate epoch 0 0 (.relocate fp dom cls old new)
  | .erased fp dom cls loc => c.peerUpdate epoch 0 0 (.erased fp dom cls loc)
  | .lost fp dom cls loc => c.peerUpdate epoch 0 0 (.lost fp dom cls loc)
  | .answered fps => fps.foldl (fun d p => d.filterInsert p.1 p.2) c
  | .moved old new => c.peerMap { r with moves := [(old, new)] }
  | .rebuilt k seid strip str => c.peerMap { r with rebuilt := some (k, seid, strip, str) }
  | .stripe k seid cls strings =>
    { c with ftm := { c.ftm with stripes := c.ftm.stripes.filter (fun s => !(s.cohort == k && s.seid == seid)) ++
        [{ cohort := k, seid := seid, cls := cls, state := 2, map := strings, sealEpoch := epoch }] } }
  | .extent sh seid ext band bpage tag => c.setMap sh seid (.coarse ext band bpage tag)
  | .ns n => { c with nvm := { c.nvm with pendingNs := c.nvm.pendingNs ++ [⟨⟨0, 65536, 0⟩, n.nsid, .become (nsFrom n) n.wiped, epoch⟩] } }
  | .lostEntry kind k strip cause id first count blocks lba =>
    c.takeLost { kind := kind, cohort := k, strip := strip, cause := cause, id := id, firstPage := first, count := count, blocks := blocks, firstLba := lba, epoch := epoch }
  | .agreement _ => c
  | .other => c

/-! ### A Midnight completes -/

/-- Whether this head completes Midnights by itself: it is sole or alone, and no takeover is under way (R409, R419). -/
def Chip.actsAlone (c : Chip) : Bool := !c.zbl.fencing && (c.zbl.state == .sole || c.zbl.state == .alone)

/-- The four conditions of R409 for the Midnight that closes an epoch; a sole head needs the first and the last. An epoch that opened while
the peer was not in service needs no exchange. -/
def Chip.mayComplete_ (c : Chip) (x : EpochEx) : Bool :=
  !x.completed && decide (x.epoch < c.epoch) && c.ownVaulted x.epoch &&
  c.zbl.epochs.all (fun y => y.completed || decide (x.epoch ≤ y.epoch)) &&
  (c.actsAlone || (c.paired && (if x.opened then x.confirmed && x.confirmSent && c.zbl.state == .inService else true)))

/-- R124 to R126: namespace changes recorded at the Midnight before this one take effect, and their commands complete. -/
def Chip.settleNs (c : Chip) (epoch : Nat) : Chip :=
  let due := c.nvm.pendingNs.filter (fun p => decide (p.epoch < epoch))
  let c := { c with nvm := { c.nvm with pendingNs := c.nvm.pendingNs.filter (fun p => !decide (p.epoch < epoch)) } }
  due.foldl (fun d p =>
    (d.takeNs p.nsid (p.change.apply (d.nsOf p.nsid)) p.change.wipes).finishWith p.id (match p.change with
      | .create _ => p.nsid
      | _ => 0) stOk) c

/-- R415: the ANA states that a notice changes. -/
def Chip.settleAna (c : Chip) (epoch : Nat) : Chip :=
  match c.nvm.anaDue with
  | some (e, states) => if e ≤ epoch then ({ c with nvm := { c.nvm with anaDue := none } } : Chip).setAna states else c
  | none => c

/-- R566: AWG rises; it never falls. -/
def Chip.settleAwg (c : Chip) (epoch : Nat) : Chip :=
  match c.zbl.awgDue with
  | some (e, g) =>
    if e ≤ epoch then
      ({ c with zbl := { c.zbl with awgDue := none } } : Chip).sealMono (fun m => { m with awg := max m.awg g })
    else c
  | none => c

/-- What a completed Midnight makes effective (R410). -/
def Chip.completeMn (c : Chip) (e : Nat) : Chip :=
  let x := c.epochEx e
  let journal := modifyAll (fun (r : JRec) => !r.isData && decide (r.epoch ≤ e)) (fun r => { r with durable := true }) c.ing.journal
  let c := { c with ing := { c.ing with journal := journal } }
  let c := x.recs.foldl (fun d r => d.takeRecord e r) c
  let c := (((c.applyMaps e).applyUpdates e).releaseWrites e).reshapeMidnight e
  let c := ((c.setDegraded).settleNs e).settleAna e
  let c := ((c.settleAwg e).modEpoch e (fun x => { x with completed := true, recs := [], image := [] })).set R.ZBL_MN_DONE e
  let c := c.set R.CMP_DD_ENTRIES_ENTRIES (sumOf ((c.dd.buckets.filter (fun b => c.ownsBucket b.1)).map (fun b => (b.2.filter (·.state != 0)).length)))
  (c.releaseRing.unblockClasses.askSpace.settle).resumePosts

/-- MIDNIGHT_COMPLETE (R409). -/
def midnightComplete (epoch : Nat) (c : Chip) : Chip :=
  match c.zbl.epochs.find? (fun x => x.epoch == epoch) with
  | some x => if c.mayComplete_ x then c.completeMn epoch else c
  | none => c

/-! ### A boundary -/

/-- The FTM and RDE control fields that take effect at a Midnight (R310, R345). -/
def ftmControls : List Fld :=
  [R.FTM_GC_CTRL_GC_LIVE_PCT, R.FTM_GC_CTRL_BAND_LIVE_PCT, R.FTM_GC_CTRL_GC_SHARE, R.FTM_GC_CTRL_SCAN_SHARE, R.FTM_WL_CTRL_WL_DELTA,
   R.FTM_WL_CTRL_WL_WARN, R.FTM_MEDIA_CTRL_RETRY_MAX, R.FTM_MEDIA_CTRL_OP_TMO, R.FTM_MEDIA_CTRL_RESERVE, R.FTM_MEDIA_CTRL_SPACE_LOW,
   R.FTM_MAP_CTRL_WB_EPOCHS, R.FTM_MAP_CTRL_GRAIN_LIMIT, R.FTM_DEFER_CAP_CAP]

/-- Those of RDE. -/
def rdeControls : List Fld :=
  [R.RDE_REBUILD_CTRL_GRACE_S, R.RDE_REBUILD_CTRL_SHARE, R.RDE_REBUILD_CTRL_URGENT_SHARE, R.RDE_MAINT_CTRL_UNITS, R.RDE_MAINT_CTRL_EVACUATE,
   R.RDE_SCRUB_CTRL_SHARE, R.RDE_SCRUB_CTRL_IDLE_SHARE, R.RDE_SCRUB_CTRL_DAYS, R.RDE_SCRUB_CTRL_MAX_DAYS, R.RDE_SCRUB_CTRL_REFRESH_BITS]

/-- The values that fields hold, as a table. -/
def Chip.valuesOf (c : Chip) (l : List Fld) : List (Nat × Nat) :=
  l.foldl (fun (m : List (Nat × Nat)) f => Sparse.set f.reset m f.key (c.get f)) []

/-- Control fields in force from this Midnight on. -/
def Chip.enforce (c : Chip) : Chip :=
  { c with ftm := { c.ftm with inForce := c.valuesOf ftmControls }, rde := { c.rde with inForce := c.valuesOf rdeControls } }

/-- FILTER_GENERATION_CLEAR (R207): at a boundary that opens a multiple of G. -/
def Chip.clearGeneration (c : Chip) (e : Nat) : Chip :=
  let g := ceilDiv ((((c.carve 4).head?).map (·.param)).getD 0) 15
  if g = 0 || e % g ≠ 0 then c
  else
    let new := (c.get R.CMP_DD_FILTER_OPEN_GEN + 1) % 16
    let gens := (List.range 16).map (fun i => if i = new then [] else c.generation i)
    ({ c with dd := { c.dd with gens := gens, overfillDone := false } } : Chip).setAll [(R.CMP_DD_FILTER_OPEN_GEN, new), (R.CMP_DD_GEN_FILL_FILL, 0)]

/-- MIDNIGHT_LATE (R409): a Midnight not completed when the boundary 4 epochs after it falls. -/
def Chip.checkLate (c : Chip) (e : Nat) : Chip :=
  (c.zbl.epochs.filter (fun x => !x.completed && !x.late && decide (x.epoch + 5 ≤ e))).foldl (fun d x =>
    (d.modEpoch x.epoch (fun x => { x with late := true })).event 0x282 0 0 0 0 (e - x.epoch - 1)) c

/-- R400: the boundary from which a pair's heads are in service for each other: each owns its own strings, and the ANA states are a pair's. -/
def Chip.enterPair (c : Chip) : Chip :=
  let c := { c with zbl := { c.zbl with state := .inService, pairEpoch := none } }
  let mine := maskOf ((List.range 16).filter (fun s => c.homeOwner s == c.pos))
  ((((c.set R.ZBL_STATUS_STATE 4).takeStrings mine true).setAnaBoth 1 2).resumePosts).proposeImage

/-- Every bridge that TOPOLOGY places on a string this head is trained on put in line to enrol (R379, Table 12-8 step 4). -/
def Chip.enrolAll (c : Chip) : Chip :=
  (c.topology.filter (fun e => c.trainedOn e.2.str && (c.shelf e.1).state != 1)).foldl (fun d e => d.wantEnrol e.2.str e.2.pos) c

/-- Step 3 of Table 12-8: the boundary that opens the admission epoch. The survivor puts it off while its flush load is above the cap of
the first row of Table 5-2, or while the peer has not taken the STATE body. -/
def Chip.admitPeer (c : Chip) (r : Rejoin) (e : Nat) : Chip :=
  if r.survivor then
    if c.flushCaps.1 < c.flushLoad || !r.stateDone then
      ({ c with zbl := { c.zbl with rejoin := some { r with admitAt := some (e + 1) } } } : Chip).peerAsk
        (.state (.request true [.schedule (c.get R.ZBL_ANCHOR_TIME) e (e + 1)]))
    else
      let c := (List.range 16).foldl (fun (d : Chip) s => d.modStrg s (fun x => { x with fence8 := false, fence9 := false })) c
      let onPeer := c.pos == 1
      let c := { c with zbl := { c.zbl with
        state := .inService, rejoin := some { r with admitted := true }, anchorPeer := onPeer,
        anchorTime := if onPeer then c.toPeer c.zbl.anchorTime else c.zbl.anchorTime } }
      (c.set R.ZBL_STATUS_STATE 4).proposeImage
  else if !r.stateDone then c
  else
    let c := { c with zbl := { c.zbl with state := .inService, rejoin := some { r with admitted := true } }, ing := { c.ing with fetchStopped := false } }
    (((c.set R.ZBL_STATUS_STATE 4).setAnaBoth 2 2).enrolAll).proposeImage

/-- Step 5 of Table 12-8: the boundary that opens a + 2. -/
def Chip.endRejoin (c : Chip) (r : Rejoin) : Chip :=
  let c := { c with zbl := { c.zbl with rejoin := none } }
  if r.survivor then
    let c := (c.set R.GLB_STATUS_SOLE 0).setAnaBoth 1 2
    (((List.range 16).filter c.ownsStr).foldl (fun d s => d.newStringKey s) c).handOver
  else c.setAnaBoth 1 2

/-- What a boundary does to a readmission. -/
def Chip.stepRejoin (c : Chip) (e : Nat) : Chip :=
  match c.zbl.rejoin with
  | none => c
  | some r =>
    match r.admitAt with
    | none => c
    | some a =>
      if !r.admitted && a = e then c.admitPeer r e
      else if r.admitted && a + 2 ≤ e then c.endRejoin r
      else c

/-- R287: the next lease of bands asked for on each shelf of a string the peer owns, when 4 of the present one remain. -/
def Chip.askBands (c : Chip) : Chip :=
  if !c.peerIn then c
  else
    let left := fun (sh : Nat) => (c.zbl.bandLeases.filter (fun l => l.1 == sh && l.2.2 == c.pos && ((c.shelf sh).band l.2.1).state == 0)).length
    let asked := fun (sh : Nat) => c.zbl.requests.any (fun r => match r.msg with
      | .lease (.request 2 _ _ s) => s == sh
      | _ => false)
    (c.topology.filter (fun e => (c.shelf e.1).state == 3 && !c.ownsStr e.2.str && decide (left e.1 ≤ 4) && !asked e.1)).foldl
      (fun d e => d.peerAsk (.lease (.request 2 16 0 e.1))) c

/-- R208: the fingerprints answered in the epoch that closes go to the peer with its catalogue updates. -/
def Chip.sendAnswered (c : Chip) : Chip :=
  let c := if c.dd.answered.isEmpty || !c.peerIn then c else c.append (.answered c.dd.answered)
  { c with dd := { c.dd with answered := [] } }

/-- A boundary that opens an epoch (R406, R410): what is tied to the opening of an epoch changes here. -/
def Chip.openEpoch (c : Chip) (e : Nat) : Chip :=
  let c := c.sendAnswered
  let c := ((c.set R.GLB_EPOCH_EPOCH e).set R.ZBL_ANCHOR_TIME c.now).sealEpoch
  let c := match c.zbl.movedAt with
    | some (t, m) => if m ≤ e then { c with zbl := { c.zbl with anchorTime := t, anchorEpoch := m, movedAt := none } } else c
    | none => c
  let c := ((c.enforce.clearGeneration e).switchImage).emptySlots
  let c := if c.zbl.pairEpoch = some e then c.enterPair else c.stepRejoin e
  let peer := c.zbl.state == .inService
  let c := { c with zbl := { c.zbl with epochs := c.zbl.epochs.filter (fun x => !x.completed || decide (e ≤ x.epoch + 8)) } }
  let c := (c.modEpoch e (fun x => { x with opened := peer })).checkLate e
  let c := if c.on R.ZBL_CTRL_MSYNC_OUT then c.emit .midnightPulse else c
  c.sendCloses.askBands

/-- R406: the schedule re-anchors at a boundary that falls now and opens an epoch: when the head reaches Day. -/
def Chip.anchorNow (c : Chip) (e : Nat) : Chip :=
  { c with zbl := { c.zbl with anchorTime := c.now, anchorEpoch := e, anchorPeer := false, movedAt := none } }

/-- EPOCH_BOUNDARY (R406): the scheduled boundary, which falls only in Day or Dusk. -/
def epochBoundary (c : Chip) : Chip :=
  let e := c.nextEpoch
  if !c.inService || c.now < c.boundaryAt e then c else c.openEpoch e

-- EXEC midnightSyncEdge mnSync journalRecordVaulted recCopy mnClose mnConfirm midnightComplete epochBoundary

/-- MIDNIGHT_SYNC_EDGE (R407). -/
def execMidnightSyncEdge (s : State) : Host.Outcome State Fault Refusal :=
  s.runAwake true midnightSyncEdge

/-- MN_SYNC (R407). -/
def execMnSync (h : PeerHdr) (time : Nat) (epoch : Nat) (shift : Int) (s : State) : Host.Outcome State Fault Refusal :=
  s.runAwake true (mnSync h time epoch shift)

/-- JOURNAL_RECORD_VAULTED (R168). -/
def execJournalRecordVaulted (region : Nat) (rsn : Nat) (s : State) : Host.Outcome State Fault Refusal :=
  s.runAwake true (journalRecordVaulted region rsn)

/-- REC (R409). -/
def execRecCopy (h : PeerHdr) (rsn : Nat) (epoch : Nat) (image : List Byte) (body : RecBody) (s : State) : Host.Outcome State Fault Refusal :=
  s.runAwake true (recCopy h rsn epoch image body)

/-- MN_CLOSE (R409). -/
def execMnClose (h : PeerHdr) (epoch : Nat) (count : Nat) (lastSeq : Nat) (digest : Nat) (effective : Nat) (s : State) : Host.Outcome State Fault Refusal :=
  s.runAwake true (mnClose h epoch count lastSeq digest effective)

/-- MN_CONFIRM (R409). -/
def execMnConfirm (h : PeerHdr) (epoch : Nat) (digest : Nat) (s : State) : Host.Outcome State Fault Refusal :=
  s.runAwake true (mnConfirm h epoch digest)

/-- MIDNIGHT_COMPLETE (R409). -/
def execMidnightComplete (epoch : Nat) (s : State) : Host.Outcome State Fault Refusal :=
  s.runAwake true (midnightComplete epoch)

/-- EPOCH_BOUNDARY (R406). -/
def execEpochBoundary (s : State) : Host.Outcome State Fault Refusal :=
  s.runAwake true epochBoundary

-- END EXEC

end Sys2Proof.Machine
end

