-- ==== Sys2Proof/Machine/Agree.lean ====
section
/-!
DEFINITION. Agreements between the heads (R62, R178, R241, R242, R339, R401, R414).
-/
namespace Sys2Proof.Machine

/-- The limits that Table 12-12 sets on a proposal's body. -/
def proposalOk : Proposal → Bool
  | .keyLoad s .. => decide (s < 4096)
  | .keyErase s => decide (s < 4096)
  | .cohort k _ => decide (k < 8)
  | .owner s p => decide (s < 16) && decide (p < 2)
  | _ => true

/-- This head's proposal of the same thing that is not committed: of the same slot, of a cohort, a reshape or the same string. -/
def Chip.rival (c : Chip) (p : Proposal) : Option Agreement :=
  c.zbl.proposals.find? (fun a => !a.committed && (match a.body, p with
    | .keyLoad s .., .keyLoad t .. => s == t
    | .keyLoad s .., .keyErase t => s == t
    | .keyErase s, .keyLoad t .. => s == t
    | .keyErase s, .keyErase t => s == t
    | .cohort .., .cohort .. => true
    | .reshape _, .reshape _ => true
    | .owner s _, .owner t _ => s == t
    | _, _ => false))

/-- A proposal and its request dropped. -/
def Chip.dropProposal (c : Chip) (opid : Nat) : Chip :=
  ({ c with zbl := { c.zbl with proposals := c.zbl.proposals.filter (fun a => a.opid != opid) } } : Chip).dropRequest opid

/-- The key operation that a proposal of this head serves. -/
def Chip.keyOpOf (c : Chip) (opid : Nat) : Option KeyOp := c.cpe.ops.find? (fun o => o.opid == opid && !o.remote)

/-- A key operation of this head that was proposed ends with a reason (R241, R242). -/
def Chip.endKeyProposal (c : Chip) (opid reason : Nat) : Chip :=
  match c.keyOpOf opid with
  | some o => c.keyOpEnd o reason
  | none => c

/-- R178: the target that the head now proposes, with its stamp. -/
def Chip.proposeCohort (c : Chip) : Chip :=
  match c.wanted with
  | some (k, stamp) => (c.propose (.cohort k stamp)).1
  | none => c

/-- A reshape of this head whose START lost or was refused BUSY (Table 12-5). -/
def Chip.loseReshape (c : Chip) : Chip :=
  match c.rde.reshape with
  | some r => if r.running then c else ({ c with rde := { c.rde with reshape := none } } : Chip).refuseReshape
  | none => c

/-! ### The peer's proposals -/

/-- Whether the peer's proposal wins over this head's own (Table 12-5). -/
def Chip.peerWins (c : Chip) (mine theirs : Proposal) : Bool :=
  match mine, theirs with
  | .cohort k s, .cohort j t => let t := c.toOwn t; decide (t < s) || (t == s && decide (j < k))
  | .reshape _, _ => c.pos == 1
  | .owner s _, _ => !c.ownsStr s
  | .keyLoad s .., _ => s % 2 != c.pos
  | .keyErase s, _ => s % 2 != c.pos
  | _, _ => true

/-- A proposal of this head that has lost to the peer's. -/
def Chip.lose (c : Chip) (a : Agreement) : Chip :=
  let c := c.dropProposal a.opid
  match a.body with
  | .keyLoad .. | .keyErase _ => c.endKeyProposal a.opid 4
  | .reshape _ => c.loseReshape
  | _ => c

/-- Why this head refuses a proposal that nothing of its own rivals: none where it accepts (R62, R241, R242, R339). -/
def Chip.refusal (c : Chip) (p : Proposal) : Option Nat :=
  if !c.peerIn then some 5
  else match p with
    | .keyLoad s per _ _ =>
      if c.slotBusy s then some 4 else if c.ktRefused per || (c.slot s).state != .empty then some 5 else none
    | .keyErase s => if c.slotBusy s then some 4 else if c.ktRefused false || (c.slot s).state != .loaded then some 5 else none
    | .image t l tp _ => c.imageRefusal t l tp
    | .cohort .. => if c.ing.part == .sleep || c.ing.part == .wake then some 5 else none
    | .reshape _ => if c.rde.reshape.any (·.running) then some 4 else none
    | .owner s q => if q = c.pos && c.ownsStr s then some 5 else none

/-- The answer to a proposal, and the change held where it is accepted (R401 step 2). -/
def Chip.answerPeer (c : Chip) (opid : Nat) (p : Proposal) (stamp : Nat) : Chip :=
  match c.refusal p with
  | some r => c.peerReply opid (.answer (.refuse r))
  | none =>
    let c := match p with
      | .image .. => c.armForPeer
      | _ => c
    let a : Agreement := { opid := opid, body := p, stamp := stamp, at_ := c.now, accepted := true }
    ({ c with zbl := { c.zbl with accepted := c.zbl.accepted ++ [a] } } : Chip).peerReply opid (.answer .accept)

/-- PROPOSE (R401). -/
def propose (h : PeerHdr) (p : Proposal) (stamp : Nat) (c : Chip) : Chip :=
  c.request h (.propose p stamp) (proposalOk p) (.answer .stale) (.answer .malformed) (fun c =>
    match c.rival p with
    | none => c.answerPeer h.opid p stamp
    | some a =>
      if c.peerWins a.body p then (c.lose a).answerPeer h.opid p stamp
      else c.peerReply h.opid (.answer (.refuse 1)))

/-- The peer's agreed change applied here (R401 step 4). -/
def Chip.applyPeer (c : Chip) (opid : Nat) (p : Proposal) : Chip :=
  match p with
  | .keyLoad s per _ key => c.loadSlot s key per
  | .keyErase s =>
    let o : KeyOp := { slot := s, id := ⟨0, 0, 0⟩, load := false, key := 0, persist := false, opid := opid, remote := true, agreed := true }
    ({ c with cpe := { c.cpe with ops := c.cpe.ops ++ [o] } } : Chip).beginErase s
  | .image _ _ _ e => c.imageAgreed e
  | .cohort k _ => c.beginSwitch k
  | .reshape arg => c.beginReshape (c.reshapeMode (reshapeOf arg opid))
  | .owner s q => if q != c.pos && c.ownsStr s then c.modStrg s (fun x => { x with releaseIn := 3 }) else c

/-- COMMIT (R401). A COMMIT of a proposal that is not held is answered MALFORMED. -/
def commit (h : PeerHdr) (proposal kind : Nat) (c : Chip) : Chip :=
  c.request h (.commit proposal kind) true (.done proposal 0xFF) (.done proposal 0xFE) (fun c =>
    match c.zbl.accepted.find? (fun a => a.opid == proposal && kindOf a.body == kind) with
    | none => c.peerReply h.opid (.done proposal 0xFE)
    | some a =>
      let c := { c with zbl := { c.zbl with accepted := c.zbl.accepted.filter (fun x => x.opid != proposal) } }
      (c.applyPeer proposal a.body).peerReply h.opid (.done proposal 0))

/-! ### This head's proposals -/

/-- The proposer applies the change as it sends COMMIT (R401 step 3). -/
def Chip.applyOwn (c : Chip) (a : Agreement) : Chip :=
  match a.body with
  | .keyLoad .. | .keyErase _ => match c.keyOpOf a.opid with
    | some o => c.applyKeyOp o false
    | none => c
  | .image _ _ _ e => c.imageAgreed e
  | .cohort k _ => c.beginSwitch k
  | .reshape _ => match c.rde.reshape with
    | some r => if r.running then c else c.beginOwnReshape r
    | none => c
  | .owner .. => c

/-- A proposal of this head that takes effect nowhere: refused for `reason`, or lapsed (none). -/
def Chip.failProposal (c : Chip) (a : Agreement) (reason : Option Nat) : Chip :=
  let c := c.dropProposal a.opid
  match a.body with
  | .keyLoad .. | .keyErase _ => c.endKeyProposal a.opid (if reason = some 1 || reason = some 4 then 4 else 8)
  | .image .. => if reason = some 2 then c.disarm 4 0x0E else c.proposeImage
  | .cohort .. => if reason = some 1 then c else c.proposeCohort
  | .reshape _ =>
    if reason = some 1 || reason = some 4 then c.loseReshape
    else if c.rde.reshape.any (fun r => !r.running) then c.endStart 5 else c
  | .owner .. => c

/-- ANSWER (R401). -/
def answer (h : PeerHdr) (res : AnswerRes) (c : Chip) : Chip :=
  c.receive h (.answer res) (fun c =>
    let c := c.dropRequest h.opid
    match c.zbl.proposals.find? (fun a => a.opid == h.opid && !a.committed) with
    | none => c
    | some a =>
      match res with
      | .accept =>
        if a.at_ + 5000000 < c.now then c
        else
          let l := modifyFirst (fun (x : Agreement) => x.opid == a.opid) (fun x => { x with accepted := true, committed := true }) c.zbl.proposals
          let c := ({ c with zbl := { c.zbl with proposals := l } } : Chip).peerAsk (.commit a.opid (kindOf a.body))
          c.applyOwn a
      | .refuse r => c.failProposal a (some r)
      | _ => c.failProposal a none)

/-- DONE (R401): the operation that caused the agreement completes; a string's old owner will release it (R414). -/
def doneMsg (h : PeerHdr) (proposal status : Nat) (c : Chip) : Chip :=
  c.receive h (.done proposal status) (fun c =>
    let c := c.dropRequest h.opid
    match c.zbl.proposals.find? (fun a => a.opid == proposal && a.committed) with
    | none => c
    | some a =>
      let c := c.dropProposal proposal
      match a.body with
      | .keyLoad .. | .keyErase _ => c.keyOpDone proposal
      | .owner s q => if q != c.pos && c.ownsStr s then c.modStrg s (fun x => { x with releaseIn := 3 }) else c
      | _ => c)

/-- PROPOSAL_LAPSE (R401): no COMMIT within 5 ms. -/
def proposalLapse (opid : Nat) (c : Chip) : Chip :=
  match c.zbl.proposals.find? (fun a => a.opid == opid && !a.committed) with
  | some a => if a.at_ + 5000000 ≤ c.now then c.failProposal a none else c
  | none => c

/-- ACCEPTED_PROPOSAL_DISCARD (R401): no COMMIT within 10 ms of the ACCEPT. -/
def acceptedProposalDiscard (opid : Nat) (c : Chip) : Chip :=
  { c with zbl := { c.zbl with accepted := c.zbl.accepted.filter (fun a => !(a.opid == opid && decide (a.at_ + 10000000 ≤ c.now))) } }

-- EXEC propose answer commit doneMsg proposalLapse acceptedProposalDiscard

/-- PROPOSE (R401). -/
def execPropose (h : PeerHdr) (p : Proposal) (stamp : Nat) (s : State) : Host.Outcome State Fault Refusal :=
  s.runAwake true (propose h p stamp)

/-- ANSWER (R401). -/
def execAnswer (h : PeerHdr) (res : AnswerRes) (s : State) : Host.Outcome State Fault Refusal :=
  s.runAwake true (answer h res)

/-- COMMIT (R401). -/
def execCommit (h : PeerHdr) (proposal : Nat) (kind : Nat) (s : State) : Host.Outcome State Fault Refusal :=
  s.runAwake true (commit h proposal kind)

/-- DONE (R401). -/
def execDoneMsg (h : PeerHdr) (proposal : Nat) (status : Nat) (s : State) : Host.Outcome State Fault Refusal :=
  s.runAwake true (doneMsg h proposal status)

/-- PROPOSAL_LAPSE (R401). -/
def execProposalLapse (opid : Nat) (s : State) : Host.Outcome State Fault Refusal :=
  s.runAwake true (proposalLapse opid)

/-- ACCEPTED_PROPOSAL_DISCARD (R401). -/
def execAcceptedProposalDiscard (opid : Nat) (s : State) : Host.Outcome State Fault Refusal :=
  s.runAwake true (acceptedProposalDiscard opid)

-- END EXEC

end Sys2Proof.Machine
end

