-- ==== Sys2Proof/Machine/Mirror.lean ====
section
/-!
DEFINITION. Granules and bands lent, map walks answered, and mirror copies (R143, R197, R287, R402 to R405).
-/
namespace Sys2Proof.Machine

/-! ### Leases -/

/-- Whether a granule is free in this head's hands. -/
def Chip.granuleFree (c : Chip) (g : Nat) : Bool := (c.granule g).mine && (c.granule g).used == 0

/-- R402: the granules granted: free ones beyond 512 MiB of this head's own free space, in ascending order, up to the number asked. -/
def Chip.grantGranules (c : Chip) (n : Nat) : List Nat :=
  ((upFrom c.zbl.reserve (c.zbl.total - c.zbl.reserve)).filter c.granuleFree).take (min n ((c.freeHeld - 0x20000000) / 0x400000))

/-- R403: the reserve granules that the keeper grants while the tenant's buffered bytes are within its share. -/
def Chip.grantReserve (c : Chip) (n tenant : Nat) : List Nat :=
  if c.zbl.keeper && c.shareAdmits tenant 1 then ((List.range c.zbl.reserve).filter c.granuleFree).take n else []

/-- R287: the free bands of a shelf that the owner of its string lends. -/
def Chip.grantBands (c : Chip) (n sh : Nat) : List Nat :=
  if !c.ownsStr (c.shelfEnt sh).str then []
  else (((c.shelf sh).bands.filter (fun b => b.2.state == 0 && b.2.blocks.length == 64 &&
    !c.zbl.bandLeases.any (fun l => l.1 == sh && l.2.1 == b.1))).map (·.1)).take n

/-- A grant recorded. -/
def Chip.lend (c : Chip) (what sh : Nat) (l : List Nat) : Chip :=
  if what = 2 then { c with zbl := { c.zbl with bandLeases := c.zbl.bandLeases ++ l.map (fun b => (sh, b, 1 - c.pos)) } }
  else l.foldl (fun (d : Chip) g => d.modGranule g (fun x => { x with mine := false })) c

/-- What a response grants taken over. -/
def Chip.borrow (c : Chip) (what sh : Nat) (l : List Nat) : Chip :=
  if what = 2 then { c with zbl := { c.zbl with bandLeases := c.zbl.bandLeases ++ l.map (fun b => (sh, b, c.pos)) } }
  else l.foldl (fun (d : Chip) g => d.modGranule g (fun x => { x with mine := true })) c

/-- LEASE (R287, R402, R403). -/
def lease (h : PeerHdr) (msg : LeaseMsg) (c : Chip) : Chip :=
  match msg with
  | .request what count tenant sh =>
    let ok := decide (what < 3) && decide (count ≤ (if what = 2 then 16 else 64)) && decide (tenant < 1024) && decide (sh < 128)
    c.request h (.lease msg) ok (.lease (.response 0xFF [])) (.lease (.response 0xFE [])) (fun c =>
      let l := match what with
        | 0 => c.grantGranules count
        | 1 => c.grantReserve count tenant
        | _ => c.grantBands count sh
      (c.lend what sh l).peerReply h.opid (.lease (.response 0 l)))
  | .response status granted =>
    c.receive h (.lease msg) (fun c =>
      match c.zbl.requests.find? (fun r => r.opid == h.opid) with
      | none => c
      | some r =>
        let c := c.dropRequest h.opid
        match r.msg with
        | .lease (.request what _ _ sh) =>
          let c := if what = 0 then { c with zbl := { c.zbl with leaseOut := false } } else c
          if status = 0 then c.borrow what sh granted else c
        | _ => c)

/-! ### Map walks -/

/-- A block as a MAPWALK entry (Table 12-12). -/
def Chip.walkBlock (c : Chip) (nsid lba : Nat) : WalkEntry :=
  match c.sourceOf nsid lba with
  | .buffer _ => ⟨lba, 1, 1, 0, 0⟩
  | .deallocated => ⟨lba, 1, 2, 0, 0⟩
  | .zeroed => ⟨lba, 1, 3, 0, 0⟩
  | .lost => ⟨lba, 1, 4, 0, 0⟩
  | .stored l skip => ⟨lba, 1, 0, skip, l⟩

/-- Blocks that follow one another in one source joined into one entry. -/
def joinWalk : List WalkEntry → List WalkEntry
  | [] => []
  | e :: l => match joinWalk l with
    | [] => [e]
    | f :: r =>
      if e.source = f.source && e.locator = f.locator && e.lba + e.blocks = f.lba && (e.source ≠ 0 || e.skip + e.blocks = f.skip) then
        { e with blocks := e.blocks + f.blocks } :: r
      else e :: f :: r

/-- R196, R197: the source of a block as the home head's walk gives it; bytes in the write buffer are read from this head's own copy. -/
def Chip.walkSource (c : Chip) (nsid lba : Nat) (e : WalkEntry) : BlockSrc :=
  match c.bufferFor nsid lba with
  | some w => .buffer w.wid
  | none => match e.source with
    | 0 => if c.recordLost e.locator then .lost else .stored e.locator (e.skip + (lba - e.lba))
    | 1 => c.sourceOf nsid lba
    | 2 => .deallocated
    | 3 => .zeroed
    | _ => .lost

/-- The blocks that a response covers, from an LBA on, in order. -/
def Chip.walked (c : Chip) (nsid lba n : Nat) (es : List WalkEntry) : List BlockSrc :=
  (upFrom lba n).filterMap (fun b => (es.find? (fun e => decide (e.lba ≤ b) && decide (b < e.lba + e.blocks))).map (fun e => c.walkSource nsid b e))

/-- MAPWALK (R197, R396): a request answered, or a response put to the read that waits for it. -/
def mapwalk (h : PeerHdr) (msg : WalkMsg) (c : Chip) : Chip :=
  match msg with
  | .request nsid slba nlb =>
    c.request h (.walk msg) (decide (1 ≤ nlb) && decide (nlb ≤ 512)) (.walk (.response 0xFF [])) (.walk (.response 0xFE [])) (fun c =>
      if !(c.nsOf nsid).present then c.peerReply h.opid (.walk (.response 1 []))
      else c.peerReply h.opid (.walk (.response 0 ((joinWalk ((upFrom slba nlb).map (fun b => c.walkBlock nsid b))).take 173))))
  | .response status es =>
    c.receive h (.walk msg) (fun c =>
      match c.zbl.requests.find? (fun r => r.opid == h.opid) with
      | none => c
      | some q =>
        let c := c.dropRequest h.opid
        match q.msg with
        | .walk (.request nsid slba nlb) =>
          match c.ing.reads.find? (fun r => r.walking && r.nsid == nsid && r.slba + r.srcs.length == slba) with
          | none => c
          | some r =>
            let got := if status = 0 then c.walked nsid slba nlb es else []
            let r := { r with srcs := r.srcs ++ got }
            let others := c.ing.reads.filter (fun x => x.id != r.id)
            if got.isEmpty then ({ c with ing := { c.ing with reads := others } } : Chip).resolveHere r
            else if r.walking then
              ({ c with ing := { c.ing with reads := others ++ [r] } } : Chip).peerAsk (.walk (.request nsid (slba + got.length) (nlb - got.length)))
            else ({ c with ing := { c.ing with reads := others } } : Chip).beginRead r
        | _ => c)

/-! ### Mirrors -/

/-- MIRROR_DATA (R404): the data is written at OFS of this head's own buffer. -/
def mirrorData (h : PeerHdr) (wid ofs : Nat) (data : List Byte) (c : Chip) : Chip :=
  c.receive h (.mirrorData wid ofs data) (fun c =>
    if c.zbl.total * 0x400000 < ofs + data.length then c
    else
      let base := c.wbBase + ofs
      let n := data.length
      let c := (c.store base data).modGranule (ofs / 0x400000) (fun g => { g with used := max g.used (ofs % 0x400000 + n), live := g.live + n })
      let c := { c with ing := { c.ing with peerUsed := c.ing.peerUsed + n } }
      match c.wr wid with
      | some _ => c.modWr wid (fun w => { w with base := min w.base base, bytes := w.bytes + n })
      | none =>
        let w : WrBuf := { wid := wid, id := ⟨0, 0, 0⟩, own := false, fn := 0, nsid := 0, slba := 0, nlb := 0, base := base, bytes := n,
                           mbase := base, ext := false, metaBytes := 0, pr := ⟨true, 0, 0, 0, 0⟩, cls := 0, keyGen := 0, zeroes := false }
        { c with ing := { c.ing with writes := c.ing.writes ++ [w] } })

/-- MIRROR_END (R404): the copy is complete. Its layout in the buffer follows from its length: with metadata, or without (PRACT). -/
def mirrorEnd (h : PeerHdr) (wid tenant nsid slba nlb len : Nat) (c : Chip) : Chip :=
  c.receive h (.mirrorEnd wid tenant nsid slba nlb len) (fun c =>
    let n := c.nsOf nsid
    let bare := len == nlb * 4096
    let sep := if bare || n.ext then 0 else len - nlb * 4096
    let seq := c.ing.postSeq + 1
    let gen := (c.slot n.keySlot).gen
    ({ c with ing := { c.ing with postSeq := seq } } : Chip).modWr wid (fun w =>
      if w.own then w
      else { w with
        fn := tenant, nsid := nsid, slba := slba, nlb := nlb, bytes := w.bytes - sep, metaBytes := sep, mbase := w.base + (w.bytes - sep),
        ext := n.ext, pr := ⟨bare, 0, slba, 0, 0⟩, cls := n.cls, keyGen := gen, arrived := true, passed := true, mirrored := true,
        completed := some seq, pieces := piecesOf slba nlb }))

/-- MIRROR_DROP (R405). -/
def mirrorDrop (h : PeerHdr) (wid : Nat) (c : Chip) : Chip :=
  c.receive h (.mirrorDrop wid) (fun c => if (c.wr wid).any (fun w => !w.own) then c.releaseWrite wid else c)

-- EXEC lease mapwalk mirrorData mirrorEnd mirrorDrop

/-- LEASE (R402). -/
def execLease (h : PeerHdr) (msg : LeaseMsg) (s : State) : Host.Outcome State Fault Refusal :=
  s.runAwake true (lease h msg)

/-- MAPWALK (R197). -/
def execMapwalk (h : PeerHdr) (msg : WalkMsg) (s : State) : Host.Outcome State Fault Refusal :=
  s.runAwake true (mapwalk h msg)

/-- MIRROR_DATA (R404). -/
def execMirrorData (h : PeerHdr) (wid : Nat) (ofs : Nat) (data : List Byte) (s : State) : Host.Outcome State Fault Refusal :=
  s.runAwake true (mirrorData h wid ofs data)

/-- MIRROR_END (R404). -/
def execMirrorEnd (h : PeerHdr) (wid : Nat) (tenant : Nat) (nsid : Nat) (slba : Nat) (nlb : Nat) (len : Nat) (s : State) : Host.Outcome State Fault Refusal :=
  s.runAwake true (mirrorEnd h wid tenant nsid slba nlb len)

/-- MIRROR_DROP (R405). -/
def execMirrorDrop (h : PeerHdr) (wid : Nat) (s : State) : Host.Outcome State Fault Refusal :=
  s.runAwake true (mirrorDrop h wid)

-- END EXEC

end Sys2Proof.Machine
end

