-- ==== Sys2Proof/Machine/Bringup.lean ====
section
/-!
DEFINITION. The peer link's bring-up, the forming of a pair, and readmission (R398 to R400, R420, R535, R566, R567).
-/
namespace Sys2Proof.Machine

/-! ### HELLO -/

/-- A section's digest in the active image, 0 without one (R399). -/
def Chip.secDigest (c : Chip) (t : Nat) : Nat := match c.kcf.active with
  | some i => i.sec t
  | none => 0

/-- The HELLO that this head sends (Table 12-12). -/
def Chip.helloOf (c : Chip) : HelloMsg :=
  { pos := c.pos, headId := if c.on R.GLB_STATUS_LOADER_ONLY then 0 else c.get R.GLB_HEAD_HEAD_ID, state := c.stateCode, hostUp := c.hostUp,
    holdupHigh := c.pwr.holdupN, epochUs := c.epochNs / 1000, arrayId := (c.kcf.active.map (·.arrayId)).getD 0, epoch := c.epoch,
    anchor := c.get R.ZBL_ANCHOR_TIME, wbSize := c.wbSize, writeGen := c.confirmedGen, awg := c.root.mono.awg,
    secretGen := if c.root.secret.dedup.isSome then c.root.mono.secretGen else 0,
    fwSerial := (c.boot.running.map (·.serial)).getD 0, fwFloor := c.root.mono.fwFloor,
    tenants := c.secDigest 3, layout := c.secDigest 4, topology := c.secDigest 7 }

/-- A refused bring-up or rejoin (R399, R421). -/
def Chip.refusePeer (c : Chip) (reason code : Nat) : Chip :=
  let st := match c.zbl.state with
    | .sole => 5
    | .yielded => 6
    | _ => 7
  let c := { c.breakSession with zbl := { c.breakSession.zbl with training := false, retryAt := c.now + 10000000000, peer := none } }
  (c.setAll [(R.ZBL_PEER_REASON, reason), (R.ZBL_STATUS_REFUSED, 1), (R.ZBL_STATUS_STATE, st), (R.ZBL_STATUS_QUADS, 0),
    (R.GLB_STATUS_PEER_UP, 0)]).event code 0 0 reason 0 0

/-- ZBL_BRINGUP (R398): quads that decode, SPDM's outcome and the session's application keys, then HELLO. With no quad, training goes on. -/
def zblBringup (quads : Nat) (authOk : Bool) (session txKey rxKey : Nat) (c : Chip) : Chip :=
  if !c.mayLink || c.linkUp then c
  else if quads % 16 = 0 then ({ c with zbl := { c.zbl with training := true } } : Chip).set R.ZBL_STATUS_STATE 1
  else if !authOk || session % 256 = 0 then c.refusePeer 6 0x280
  else
    let c := c.breakSession
    let c := { c with zbl := { c.zbl with
      session := session % 256, txKey := txKey, rxKey := rxKey, training := false, helloSent := true, nextOpid := 1, rxOpid := 0, requests := [], failedQuads :=
        (List.range 4).filter (fun q => !bitOf quads q), lastHbRx := c.now, lastHbTx := 0, hbTxAt := 0 } }
    let c := c.setAll [(R.ZBL_STATUS_QUADS, quads), (R.ZBL_STATUS_STATE, 2)]
    c.peerSend 0 0 (.hello c.helloOf)

/-- R17, R44, R399: the reason for which a HELLO is refused. A head in the loader state is not checked against the image. -/
def Chip.helloBad (c : Chip) (m : HelloMsg) : Option Nat :=
  let mine := c.helloOf
  if m.pos = c.pos then some 1
  else if m.state = 5 || mine.state = 5 then none
  else if m.arrayId ≠ mine.arrayId then some 2
  else if m.epochUs ≠ mine.epochUs then some 3
  else if m.headId = mine.headId then some 4
  else if m.tenants ≠ mine.tenants || m.layout ≠ mine.layout || m.topology ≠ mine.topology then some 5
  else if c.zbl.state = .sole && c.on R.ZBL_CTRL_REJOIN_HOLD then some 7
  else none

/-- The array secrets as a STATE item (Table 12-12). -/
def Chip.secretsItem (c : Chip) : List StateItem :=
  match c.root.secret.dedup, c.root.secret.vault with
  | some d, some v => [.secrets c.root.mono.secretGen d v]
  | _, _ => []

/-- R535 at pair formation: secrets go from the head that holds them to one that has none, or the older set stands where they differ. -/
def Chip.shareSecrets (c : Chip) (gen : Nat) : Chip :=
  let mine := if c.root.secret.dedup.isSome then c.root.mono.secretGen else 0
  let c := if mine ≠ 0 && gen ≠ 0 && mine ≠ gen then c.event 0x283 0 0 0 mine gen else c
  if mine ≠ 0 && (gen = 0 || mine < gen) then c.peerAsk (.state (.request true c.secretsItem)) else c

/-- PAIR_FORMATION (R400, R402, R403): the epoch that the next boundary on position 0's schedule opens, the granules, the secrets. -/
def Chip.formPair (c : Chip) (m : HelloMsg) : Chip :=
  let e := max m.epoch c.epoch + 1
  let size := min c.wbSize m.wbSize
  let c := c.splitGranules size (fun _ => false)
  let mine := fun g => if c.pos = 0 then lowerHalf c.zbl.total c.zbl.reserve g else !lowerHalf c.zbl.total c.zbl.reserve g
  let c := c.splitGranules size mine
  let first := if c.pos = 0 then c.boundaryAt (c.epoch + 1) else m.anchor + c.epochNs
  let c := { c with zbl := { c.zbl with
    state := .joining, pairEpoch := some e, anchorTime := first, anchorEpoch := e, anchorPeer := c.pos == 1, movedAt := none, keeper := c.pos == 0,
    leaseOut := false, departed := false } }
  ((c.setAll [(R.ZBL_STATUS_STATE, 3), (R.GLB_STATUS_PEER_UP, 1)]).shareSecrets m.secretGen).planAwg (some m.writeGen)

/-- A key slot as a STATE item (R241). -/
def Chip.slotItem (c : Chip) (k : Nat) : StateItem :=
  let s := c.slot k
  .keySlot k s.state.code s.persist s.erased s.eraseEpoch (if s.state = .empty then 0 else s.key)

/-- A namespace as a STATE item. -/
def nsItem (e : Nat × Namespace) : StateItem :=
  let n := e.2
  .record ⟨e.1, n.present, n.attached, ⟨n.nsze, n.nsze, n.lbaf, n.ext, n.dps, n.anagrp, n.owner, n.cls, n.keySlot⟩,
    n.clsGiven, n.slotGiven, false⟩

/-- The STATE body (Table 12-8 step 2): key slots, string keys, the schedule, cohorts, namespaces, granules, secrets and generations. -/
def Chip.stateBody (c : Chip) (admission : Nat) (leased : List Nat) : List StateItem :=
  (c.cpe.slots.map (fun e => c.slotItem e.1)) ++
  ((List.range 16).filter c.ownsStr).map (fun s => .stringKey s (c.get (R.ISF_STR_STATUS_KEYGEN s)) (c.strg s).key) ++
  [.schedule (c.get R.ZBL_ANCHOR_TIME) c.epoch admission, .cohorts (c.get R.FTM_STATUS_AWAKE) (c.get R.FTM_STATUS_INGEST)] ++
  c.nvm.ns.map nsItem ++ [.granules 0 c.zbl.total leased] ++ c.secretsItem ++ [.generation c.confirmedGen c.root.mono.awg]

/-- Steps 1 and 2 of Table 12-8 on the survivor: half of its free granules are lent, and STATE goes out. -/
def Chip.beginReadmission (c : Chip) (m : HelloMsg) : Chip :=
  let size := min (c.zbl.total * 0x400000) m.wbSize
  let free := (upFrom c.zbl.reserve (size / 0x400000 - c.zbl.reserve)).filter c.granuleFree
  let lent := free.drop (free.length - free.length / 2)
  let a := c.epoch + 2
  let c := lent.foldl (fun (d : Chip) g => d.modGranule g (fun x => { x with mine := false })) c
  let c := { c with zbl := { c.zbl with rejoin := some { survivor := true, admitAt := some a }, keeper := true, total := size / 0x400000 } }
  ((c.set R.GLB_STATUS_PEER_UP 1).peerAsk (.state (.request true (c.stateBody a lent)))).planAwg (some m.writeGen)

/-- Step 1 of Table 12-8 on the rejoining head: fenced, ANA Inaccessible, joining. -/
def Chip.beginRejoin (c : Chip) : Chip :=
  let c := { c with zbl := { c.zbl with state := .joining, pairEpoch := none, rejoin := some { survivor := false }, keeper := false } }
  (c.setAll [(R.ZBL_STATUS_STATE, 3), (R.GLB_STATUS_PEER_UP, 1)]).setAnaBoth 3 3

/-- R567: a loader-only head asks its peer for firmware, unless it has refused that firmware already (R568) or a commit came first (R569). -/
def Chip.askFirmware (c : Chip) (m : HelloMsg) : Chip :=
  if c.boot.writer.isSome || c.boot.healOff || c.boot.healBad = some m.fwSerial then c
  else (c.set R.BOOT_STATUS_HEALING 1).peerSend 1 0 (.fwReq c.root.mono.fwFloor c.root.mono.awg false)

/-- HELLO (R399, R400, R420). -/
def Chip.takeHello (c : Chip) (m : HelloMsg) : Chip :=
  let c := { c with zbl := { c.zbl with peer := some m, helloDone := true } }
  let c := c.setAll [(R.ZBL_PEER_HEAD_ID, m.headId), (R.ZBL_PEER_POS, m.pos)]
  match c.helloBad m with
  | some reason => c.refusePeer reason 0x080
  | none =>
    if c.on R.GLB_STATUS_LOADER_ONLY then c.askFirmware m
    else if m.state = 5 then c
    else match c.zbl.state with
      | .sole => if m.state = 2 then c else c.beginReadmission m
      | .inService => c
      | .yielded => if m.state = 1 || m.state = 2 then c.beginRejoin else c
      | _ => if m.state = 1 || m.state = 2 then c.beginRejoin else if m.state = 3 then c else c.formPair m

/-- HELLO received. -/
def hello (h : PeerHdr) (msg : HelloMsg) (c : Chip) : Chip := c.receive h (.hello msg) (fun c => c.takeHello msg)

/-! ### STATE -/

/-- A key slot adopted (R241, R245). -/
def Chip.adoptSlot (c : Chip) (k st : Nat) (persist erased : Bool) (epoch key : Nat) : Chip :=
  let c := match st with
    | 1 => c.loadSlot k key persist
    | 2 => (c.modSlot k (fun s => { s with key := key, persist := persist })).beginErase k
    | _ => c.modSlot k (fun s => { s with state := .empty, key := 0, persist := false })
  (c.modSlot k (fun s => { s with erased := erased, eraseEpoch := epoch })).modSlotRec k (fun r => { r with erased := erased, eraseEpoch := epoch })

/-- R535: the array secrets adopted: at readmission, where this head has none, and where its own carry a higher SECRET_GEN. -/
def Chip.adoptSecrets (c : Chip) (gen d v : Nat) : Chip :=
  if c.zbl.rejoin.isSome || c.root.secret.dedup.isNone || gen < c.root.mono.secretGen then
    c.seal (fun r => { r with secret := { r.secret with dedup := some d, vault := some v }, mono := { r.mono with secretGen := gen } })
  else c

/-- One item of a STATE request adopted. A string key that comes outside a readmission takes over with the first beacon under it (R380). -/
def Chip.adopt (c : Chip) (i : StateItem) : Chip :=
  match i with
  | .keySlot k st p e ep key => c.adoptSlot k st p e ep key
  | .stringKey s gen key =>
    if c.zbl.rejoin.any (fun r => !r.stateDone) then (c.modStrg s (fun x => { x with key := key, nextKey := none, rxBeaconTxc := 0 })).set (R.ISF_STR_STATUS_KEYGEN s) gen
    else c.modStrg s (fun x => { x with nextKey := some (gen, key) })
  | .schedule anchor e a =>
    let own := c.pos == 0
    let t := if own then c.toOwn anchor else anchor
    let rj := c.zbl.rejoin.map (fun (r : Rejoin) => { r with admitAt := some a })
    let z := { c.zbl with anchorTime := t, anchorEpoch := e, anchorPeer := !own, movedAt := none, rejoin := rj }
    let c := { c with zbl := z }
    if c.epoch < e then (c.set R.GLB_EPOCH_EPOCH e).sealEpoch else c
  | .cohorts awake ingest => ((c.set R.FTM_STATUS_AWAKE awake).setIngest ingest).setFlag R.FTM_STATUS_INGEST_VALID (awake % 256 != 0)
  | .record r => c.setNs r.nsid (nsFrom r)
  | .granules first count leased => c.splitGranules ((first + count) * 0x400000) (fun g => leased.contains g)
  | .secrets gen d v => c.adoptSecrets gen d v
  | .generation g awg => ((c.sealMono (fun m => { m with awg := max m.awg awg }))).planAwg (some g)

/-- Whether an item keeps the limits of Table 12-12. -/
def itemOk : StateItem → Bool
  | .keySlot k st .. => decide (k < 4096) && decide (st < 3)
  | .stringKey s .. => decide (s < 16)
  | .cohorts _ i => decide (i < 8)
  | .record r => decide (1 ≤ r.nsid) && decide (r.nsid ≤ 4096)
  | _ => true

/-- R421: the rejoining head has rejected a STATE request: the survivor is as before step 1 of Table 12-8, and the bring-up is tried again after 10 s. -/
def Chip.refuseReadmission (c : Chip) : Chip :=
  if c.zbl.rejoin.any (fun r => r.survivor && !r.admitted) then
    let c := c.endJoining.set R.ZBL_STATUS_REFUSED 1
    { c with zbl := { c.zbl with retryAt := c.now + 10000000000 } }
  else c

/-- STATE (R420): the body adopted by the rejoining head, and the survivor's receipt that it was. -/
def stateMsg (h : PeerHdr) (msg : StateMsg) (c : Chip) : Chip :=
  match msg with
  | .request last items =>
    c.request h (.state msg) (items.all itemOk) (.state (.response 0xFF)) (.state (.response 0xFE)) (fun c =>
      let c := items.foldl (fun d i => d.adopt i) c
      let rj := c.zbl.rejoin.map (fun (r : Rejoin) => { r with stateDone := r.stateDone || last })
      let c := { c with zbl := { c.zbl with rejoin := rj } }
      c.peerReply h.opid (.state (.response 0)))
  | .response status =>
    c.receive h (.state msg) (fun c =>
      let c := c.dropRequest h.opid
      let rj := c.zbl.rejoin.map (fun (r : Rejoin) => { r with stateDone := true })
      if status = 0 then { c with zbl := { c.zbl with rejoin := rj } } else if status = 1 then c.refuseReadmission else c)

-- EXEC zblBringup hello stateMsg

/-- ZBL_BRINGUP (R398). -/
def execZblBringup (quads : Nat) (authOk : Bool) (session : Nat) (txKey : Nat) (rxKey : Nat) (s : State) : Host.Outcome State Fault Refusal :=
  s.runAwake true (zblBringup quads authOk session txKey rxKey)

/-- HELLO (R399). -/
def execHello (h : PeerHdr) (msg : HelloMsg) (s : State) : Host.Outcome State Fault Refusal :=
  s.runAwake true (hello h msg)

/-- STATE (R420). -/
def execStateMsg (h : PeerHdr) (msg : StateMsg) (s : State) : Host.Outcome State Fault Refusal :=
  s.runAwake true (stateMsg h msg)

-- END EXEC

end Sys2Proof.Machine
end

