-- ==== Sys2Proof/Machine/Recorder.lean ====
section
/-!
DEFINITION. The event recorder (chapter 19, R571 to R588, R594, R625): areas, fallback store, buckets, freezes, summaries.
-/
namespace Sys2Proof.Machine

/-- The first slot of area C; area G holds the slots below (R574). -/
def areaC : Nat := 58982
/-- The slots of area C (R575). -/
def areaCSize : Nat := 6554

/-- RATE of a code: what software set, or the default of Table 19-3. -/
def Bucket.rateOf (b : Bucket) (sev : Nat) : Nat :=
  if b.set then b.rate else [100, 200, 1000, 1000].getD sev 0

/-- BURST of a code. -/
def Bucket.burstOf (b : Bucket) (sev : Nat) : Nat :=
  if b.set then b.burst else [1000, 2000, 10000, 6554].getD sev 0

/-- The floor of RATE and BURST (Table 19-3). -/
def bucketFloor (sev : Nat) : Nat × Nat := [(0, 0), (0, 0), (1, 1), (10, 100)].getD sev (0, 0)

/-- Tokens (times 10^9) missing from a full bucket at a moment. -/
def Bucket.spentAt (b : Bucket) (sev now : Nat) : Nat := b.spent - b.rateOf sev * (now - b.stamp)

/-- The bucket of a code. -/
def Chip.bucket (c : Chip) (code : Nat) : Bucket := Sparse.get {} c.evr.buckets code

/-- The bucket of a code replaced. -/
def Chip.setBucket (c : Chip) (code : Nat) (b : Bucket) : Chip :=
  { c with evr := { c.evr with buckets := Sparse.set {} c.evr.buckets code b } }

/-- R584: setting a cause sends one message; a cause already set sends none. -/
def Chip.evrCause (c : Chip) (n : Nat) : Chip :=
  if c.bit R.EVR_IRQ_STATUS_CAUSES n then c
  else (c.raise R.EVR_IRQ_STATUS_CAUSES n).blockCause R.EVR_IRQ_IRQ_EN R.EVR_IRQ_VECTOR

/-- After a record is written: the count, NEW at THRESH records (R584), and for a Critical record PENDING (R585) and CRIT. -/
def Chip.afterWrite (c : Chip) (r : EvRecord) : Chip :=
  let c := c.bump R.EVR_CNT_WRITTEN_WRITTEN 1
  let n := c.evr.newCount + 1
  let c := { c with evr := { c.evr with newCount := n } }
  let c := if c.get R.EVR_IRQ_THRESH ≤ n then c.evrCause 0 else c
  if r.severity = 3 then (c.set R.EVR_ALERT_PENDING 1).evrCause 1 else c

/-- R583: a record written to an area is copied into the export FIFO, or counted as lost. -/
def Chip.exportRecord (c : Chip) (r : EvRecord) : Chip :=
  if c.on R.EVR_CTRL_EXPORT then
    if c.evr.exportFifo.length < 64 then { c with evr := { c.evr with exportFifo := c.evr.exportFifo ++ [r] } }
    else c.bump R.EVR_CNT_EXPORT_LOST_EXPORT_LOST 1
  else c

/-- An entry of the fallback store. -/
def Chip.fbEntry (c : Chip) (i : Nat) : Option EvRecord := Sparse.get none c.evr.fallback i

/-- An entry of the fallback store written. -/
def Chip.setFb (c : Chip) (i : Nat) (r : EvRecord) : Chip :=
  { c with evr := { c.evr with fallback := Sparse.set none c.evr.fallback i (some { r with phase := 1 }) } }

/-- How long ago a record was numbered, by SEQ mod 2^40 (R572). -/
def Chip.seqAge (c : Chip) (r : EvRecord) : Nat := (c.get R.EVR_SEQ_SEQ + 2 ^ 40 - r.seq) % 2 ^ 40

/-- Of the ring entries listed, the one whose record is oldest among those that `p` accepts. -/
def Chip.oldestFb (c : Chip) (p : EvRecord → Bool) : Option Nat :=
  ((List.range 63).map (· + 1)).foldl (fun best i =>
    match c.fbEntry i with
    | none => best
    | some r =>
      if p r then
        match best.bind c.fbEntry with
        | none => some i
        | some b => if c.seqAge b < c.seqAge r then some i else best
      else best) none

/-- The first empty ring entry. -/
def Chip.freeFb (c : Chip) : Option Nat := ((List.range 63).map (· + 1)).find? (fun i => (c.fbEntry i).isNone)

/-- NEXT and COUNT of EVR_FB_STATUS after a write. -/
def Chip.fbPointers (c : Chip) : Chip :=
  let used := ((List.range 64).filter (fun i => (c.fbEntry i).isSome)).length
  let next := (c.freeFb.orElse (fun _ => c.oldestFb (fun _ => true))).getD 1
  (c.set R.EVR_FB_STATUS_COUNT used).set R.EVR_FB_STATUS_NEXT next

/-- R587: a numbered record put into the ring of the fallback store; none of its rules changes the count or SEQ. -/
def Chip.fbPlace (c : Chip) (r : EvRecord) : Chip :=
  match c.freeFb with
  | some i => (c.setFb i r).fbPointers
  | none =>
    match c.oldestFb (fun e => if r.severity = 3 then true else decide (e.severity < 3)) with
    | some i => (c.setFb i r).fbPointers
    | none => c

/-- Whether the ring takes a record: Info and Notice never, Error unless all 63 entries are Critical (R587). -/
def Chip.fbTakes (c : Chip) (r : EvRecord) : Bool :=
  r.severity == 3 || (r.severity == 2 && (c.freeFb.isSome || (c.oldestFb (fun e => decide (e.severity < 3))).isSome))

/-- A record numbered with the next SEQ (R572). -/
def Chip.numbered (c : Chip) (r : EvRecord) : EvRecord := { r with seq := c.get R.EVR_SEQ_SEQ }

/-- SEQ stepped; it wraps at 2^40. -/
def Chip.stepSeq (c : Chip) : Chip := c.bump R.EVR_SEQ_SEQ 1

/-- A record written to the fallback store in fallback. -/
def Chip.writeFallback (c : Chip) (r : EvRecord) : Chip :=
  if c.fbTakes r then (c.stepSeq.fbPlace (c.numbered r)).afterWrite r
  else if r.severity = 2 then c.bumpHold R.EVR_FB_STATUS_DROPPED 1
  else c

/-- A slot of the recorder written. -/
def Chip.putSlot (c : Chip) (slot : Nat) (r : EvRecord) : Chip :=
  { c with evr := { c.evr with
      slots := Sparse.set none c.evr.slots slot (some r)
      damaged := c.evr.damaged.filter (· != slot) } }

/-- R574: a numbered record written at area G's TAIL; TAIL advances, wraps, and PHASE inverts at the wrap (R16). -/
def Chip.placeG (c : Chip) (r : EvRecord) : Chip :=
  let t := c.get R.EVR_G_PTR_TAIL
  let p := c.get R.EVR_G_PTR_PHASE
  let c := c.putSlot t { r with phase := p }
  if t + 1 = areaC then (c.set R.EVR_G_PTR_TAIL 0).set R.EVR_G_PTR_PHASE (1 - p) else c.set R.EVR_G_PTR_TAIL (t + 1)

/-- R575: a numbered Critical record written at area C's TAIL, or in area G with OVERFLOW when area C is full. -/
def Chip.placeC (c : Chip) (r : EvRecord) : Chip :=
  if c.evr.cUsed < areaCSize then
    let t := c.get R.EVR_C_PTR_TAIL
    let p := c.evr.cPhase
    let c := c.putSlot t { r with phase := p }
    let c := { c with evr := { c.evr with cUsed := c.evr.cUsed + 1 } }
    if t = 65535 then
      { (c.set R.EVR_C_PTR_TAIL areaC) with evr := { c.evr with cPhase := 1 - p } }
    else c.set R.EVR_C_PTR_TAIL (t + 1)
  else
    ((c.placeG { r with overflow := true }).bump R.EVR_CNT_OVERFLOW_OVERFLOW 1).setFlag R.EVR_STATUS_C_FULL true

/-- Head-fault and thermal-trip records also go to the fallback store (R587). -/
def alsoFallback (r : EvRecord) : Bool := r.kind == 0 && (r.code == 0x002 || r.code == 0x301)

/-- A numbered record placed in its area: Critical events and summaries in C, the rest in G (R574, R575, R581). -/
def Chip.placeArea (c : Chip) (r : EvRecord) : Chip :=
  if r.severity = 3 then
    let full := decide (areaCSize ≤ c.evr.cUsed)
    let c := c.placeC r
    if full then c.evrCause 2 else c
  else c.placeG r

/-- A record written: numbered, placed, counted, exported; in fallback it goes straight to the fallback store. -/
def Chip.writeRecord (c : Chip) (r : EvRecord) : Chip :=
  if c.on R.EVR_STATUS_FALLBACK then c.writeFallback r
  else
    let r := c.numbered r
    let c := (c.stepSeq.placeArea r).exportRecord r
    let c := if alsoFallback r then c.fbPlace r else c
    c.afterWrite r

/-- Records written in order. -/
def Chip.writeRecords (c : Chip) (rs : List EvRecord) : Chip := rs.foldl (fun d r => d.writeRecord r) c

/-- R578: a record admitted while the store is frozen waits in the hold queue, or is dropped and counted. -/
def Chip.holdRecord (c : Chip) (r : EvRecord) : Chip :=
  if c.evr.hold.length < (if r.severity = 3 then 1024 else 768) then
    { c with evr := { c.evr with hold := c.evr.hold ++ [r] } }
  else
    { c with evr := { c.evr with holdLost := c.evr.holdLost + 1 } }.bump R.EVR_CNT_HOLD_LOST_HOLD_LOST 1

/-- An admitted record, a summary or a notice: held while frozen, written otherwise. -/
def Chip.putRecord (c : Chip) (r : EvRecord) : Chip :=
  if c.on R.EVR_STATUS_FROZEN then c.holdRecord r else c.writeRecord r

/-- An EVR command's outcome posted. -/
def Chip.evrResult (c : Chip) (code : Nat) : Chip := c.postResult R.EVR_RESULT_VALID [(R.EVR_RESULT_CODE, code)]

/-- The notice of a freeze that dropped records (R578): code 0x001, KIND 2, the count in ARG3. -/
def Chip.holdNotice (c : Chip) (lost : Nat) : Chip :=
  if lost = 0 then c else c.writeRecord { c.record 0x001 0 0 0 0 lost with kind := 2 }

/-- R578: a freeze ends; held records are written in order, then the notice, and the FREEZE's result is posted. -/
def Chip.endFreeze (c : Chip) (code : Nat) : Chip :=
  let held := c.evr.hold
  let lost := c.evr.holdLost
  let c := { (c.set R.EVR_STATUS_FROZEN 0) with evr := { c.evr with hold := [], holdLost := 0 } }
  ((c.writeRecords held).holdNotice lost).evrResult code

/-- A record that the hardware writes as it resets the head or stops it (R517, R590): a freeze ends first, as it does before every reset (R578, R625). -/
def Chip.writeNow (c : Chip) (r : EvRecord) : Chip := (if c.on R.EVR_STATUS_FROZEN then c.endFreeze 0 else c).writeRecord r

/-- R586: the recorder fails and enters fallback. The failure record comes first, then `first` (a record whose write read
back wrong), then the export FIFO's and the hold queue's records. -/
def Chip.enterFallback (c : Chip) (slot syndrome : Nat) (first : List EvRecord) : Chip :=
  let frozen := c.on R.EVR_STATUS_FROZEN
  let exported := c.evr.exportFifo
  let held := c.evr.hold
  let c := { (c.set R.EVR_STATUS_FROZEN 0).set R.EVR_STATUS_FALLBACK 1 with
    evr := { c.evr with hold := [], holdLost := 0, exportFifo := [] } }
  let f := c.record 0x000 0 slot syndrome 0 0
  let c := if (c.fbEntry 0).isNone then
      ((c.stepSeq.setFb 0 (c.numbered f)).fbPointers).afterWrite f
    else c.writeFallback f
  let c := c.evrCause 3
  let c := first.foldl (fun d r => d.writeFallback r) c
  let c := exported.foldl (fun d r => if d.fbTakes r then d.fbPlace r else if r.severity = 2 then d.bumpHold R.EVR_FB_STATUS_DROPPED 1 else d) c
  let c := held.foldl (fun d r => d.writeFallback r) c
  if frozen then c.evrResult 2 else c

/-- R580, R581: a record that finds its bucket empty is suppressed and counted; the first opens a stretch. -/
def Chip.suppress (c : Chip) (r : EvRecord) (b : Bucket) : Chip :=
  let n := 1 + r.coalesced
  let b := { b with
    stretch := true
    periodStart := if b.stretch then b.periodStart else c.now
    suppressed := b.suppressed + n
    firstTime := if b.suppressed = 0 then r.time else b.firstTime
    lastTime := r.time
    lastIndex := r.index }
  (c.setBucket r.code b).bump R.EVR_CNT_SUPPRESSED_SUPPRESSED n

/-- R580: what the bucket of a record's code answers now: the bucket refilled, and whether it holds a token. -/
def Chip.refilled (c : Chip) (r : EvRecord) : Bucket × Bool :=
  let b := c.bucket r.code
  let spent := b.spentAt r.severity c.now
  ({ b with spent := spent, stamp := c.now }, decide (spent + 1000000000 ≤ b.burstOf r.severity * 1000000000))

/-- R580: a record arriving takes a token and is put by `put`, or is suppressed. -/
def Chip.admitRec (c : Chip) (r : EvRecord) (put : Chip → EvRecord → Chip) : Chip :=
  let p := c.refilled r
  if p.2 then put (c.setBucket r.code { p.1 with spent := p.1.spent + 1000000000 }) r
  else c.suppress r p.1

/-- R586: sixteen corrected errors within one hour fail the recorder. -/
def Chip.evrCorrected (c : Chip) : Chip :=
  let c := c.bump R.EVR_CNT_SRAM_CE_SRAM_CE 1
  { c with evr := { c.evr with ceTimes := (c.now :: c.evr.ceTimes).filter (fun t => decide (c.now < t + 3600000000000)) } }

/-- The slot that a record is written to next (R574, R575). -/
def Chip.nextSlot (c : Chip) (r : EvRecord) : Nat :=
  if r.severity = 3 && decide (c.evr.cUsed < areaCSize) then c.get R.EVR_C_PTR_TAIL else c.get R.EVR_G_PTR_TAIL

/-- An admitted record written with what the SRAM's check finds (R586). -/
def Chip.putChecked (c : Chip) (sram : SramCheck) (r : EvRecord) : Chip :=
  if c.on R.EVR_STATUS_FALLBACK then c.writeRecord r
  else
    match sram with
    | .clean => c.putRecord r
    | .corrected slot syndrome =>
      let c := c.evrCorrected
      if 16 ≤ c.evr.ceTimes.length then (c.enterFallback slot syndrome []).putRecord r else c.putRecord r
    | .uncorrectable slot syndrome =>
      let c := { c with evr := { c.evr with damaged := slot :: c.evr.damaged } }
      (c.enterFallback slot syndrome []).putRecord r
    | .badWrite syndrome => if c.on R.EVR_STATUS_FROZEN then c.putRecord r else c.enterFallback (c.nextSlot r) syndrome [r]

/-- EVENT_RECORD_ARRIVE (R580): the record longest in transit reaches the recorder. -/
def eventRecordArrive (sram : SramCheck) (c : Chip) : Chip :=
  match c.evr.transit with
  | [] => c
  | r :: rest => ({ c with evr := { c.evr with transit := rest } } : Chip).admitRec r (fun d x => d.putChecked sram x)

/-- The summary of a code's present period (R581). -/
def Bucket.summary (b : Bucket) (code epoch : Nat) : EvRecord :=
  { kind := 1, severity := (eventSeverity code).getD 0, code := code, index := b.lastIndex, time := b.lastTime,
    epoch := epoch, arg0 := b.firstTime, arg3 := b.suppressed }

/-- SUPPRESSION_PERIOD_END (R581): a summary if the period suppressed anything, otherwise the stretch ends. -/
def suppressionPeriodEnd (code : Nat) (c : Chip) : Chip :=
  let b := c.bucket code
  if b.stretch && decide (b.periodStart + 1000000000 ≤ c.now) then
    if b.suppressed = 0 then c.setBucket code { b with stretch := false }
    else
      (c.setBucket code { b with suppressed := 0, periodStart := b.periodStart + 1000000000 }).putRecord
        (b.summary code c.epoch)
  else c

/-- R625: before a warm reset or Night the recorder ends a freeze, admits what is in transit, and closes every stretch. -/
def Chip.settleRecorder (c : Chip) : Chip :=
  let c := if c.on R.EVR_STATUS_FROZEN then c.endFreeze 0 else c
  let tr := c.evr.transit
  let c := { c with evr := { c.evr with transit := [] } }
  let c := tr.foldl (fun d r => d.admitRec r (fun e x => e.writeRecord x)) c
  c.evr.buckets.foldl (fun d p =>
    if p.2.stretch && decide (0 < p.2.suppressed) then d.writeRecord (p.2.summary p.1 d.epoch) else d) c

/-- R580, R588: at Dawn every bucket is full with no stretch, and a recorder whose SRAM passes its test leaves fallback,
copying entries 1 to 63 into their areas in SEQ order. -/
def Chip.dawnRecorder (c : Chip) (sramOk : Bool) : Chip :=
  let c := { c with evr := { c.evr with buckets := [] } }
  if c.on R.EVR_STATUS_FALLBACK && sramOk then
    let c := c.set R.EVR_STATUS_FALLBACK 0
    let rs := ((List.range 63).map (· + 1)).filterMap c.fbEntry
    (rs.mergeSort (fun a b => decide (c.seqAge b ≤ c.seqAge a))).foldl (fun d r => d.placeArea r) c
  else c

/-- EVR_CMD FREEZE (R578, R594). -/
def evrFreeze (c : Chip) : Chip :=
  if c.on R.EVR_STATUS_FROZEN || c.on R.EVR_STATUS_FALLBACK then
    (c.set R.EVR_STATUS_REFUSED 1).refusedCommand R.EVR_CMD_CMD
  else
    let c := (c.set R.EVR_STATUS_FROZEN 1).startOp R.EVR_RESULT_VALID
    { c with evr := { c.evr with freezeAt := c.now } }

/-- EVR_CMD THAW (R578). -/
def evrThaw (c : Chip) : Chip :=
  if c.on R.EVR_STATUS_FROZEN then c.endFreeze 0
  else (c.set R.EVR_STATUS_REFUSED 1).refusedCommand R.EVR_CMD_CMD

/-- FREEZE_LAPSE (R578): FREEZE_MS after FREEZE the freeze ends with CODE 1. -/
def freezeLapse (c : Chip) : Chip :=
  if c.on R.EVR_STATUS_FROZEN && decide (c.evr.freezeAt + c.get R.EVR_CTRL_FREEZE_MS * 1000000 ≤ c.now) then
    (c.endFreeze 1).evrCause 4
  else c

/-- EVR_CMD CLEAR_FB (R587). -/
def clearFb (c : Chip) : Chip :=
  if c.on R.EVR_STATUS_FALLBACK then (c.set R.EVR_STATUS_REFUSED 1).refusedCommand R.EVR_CMD_CMD
  else
    let c := { c.startOp R.EVR_RESULT_VALID with evr := { c.evr with fallback := [] } }
    (((c.set R.EVR_FB_STATUS_COUNT 0).set R.EVR_FB_STATUS_NEXT 1).set R.EVR_FB_STATUS_DROPPED 0).evrResult 0

/-- EVR_C_PTR_WRITE (R575): HEAD moves to a value it can reach within area C, releasing the slots passed. -/
def evrCPtrWrite (v : Nat) (c : Chip) : Chip :=
  let head := c.get R.EVR_C_PTR_HEAD
  let d := (v + areaCSize - head) % areaCSize
  if areaC ≤ v && decide (v ≤ 65535) && decide (d ≤ c.evr.cUsed) then
    let c := { (c.set R.EVR_C_PTR_HEAD v) with evr := { c.evr with cUsed := c.evr.cUsed - d } }
    if d = 0 then c else c.set R.EVR_STATUS_C_FULL 0
  else c.invalidEncoding R.EVR_C_PTR_HEAD v

/-- The counters of Table 19-8. -/
def evrCounters : List Fld :=
  [R.EVR_CNT_WRITTEN_WRITTEN, R.EVR_CNT_SUPPRESSED_SUPPRESSED, R.EVR_CNT_OVERFLOW_OVERFLOW, R.EVR_CNT_HOLD_LOST_HOLD_LOST,
   R.EVR_CNT_EXPORT_LOST_EXPORT_LOST, R.EVR_CNT_SRAM_CE_SRAM_CE]

/-- EVR_CNT_CLR (R594). -/
def evrCntClr (c : Chip) : Chip := c.clearAll evrCounters

/-- The 64 bytes of a record (Table 19-1). -/
def EvRecord.bytes (r : EvRecord) : List Byte :=
  natLe (r.phase + 2 * r.kind + 8 * flag r.overflow) 1 ++ natLe r.severity 1 ++ natLe r.code 2 ++ natLe r.index 2 ++
  natLe r.coalesced 2 ++ natLe r.seq 5 ++ natLe 0 3 ++ natLe r.time 8 ++ natLe r.epoch 6 ++ natLe 0 2 ++
  natLe r.arg0 8 ++ natLe r.arg1 8 ++ natLe r.arg2 8 ++ natLe r.arg3 8

/-- The bytes a slot reads as: its record, zeros where it holds none, 0x06 and zeros where it is damaged (R577). -/
def Chip.slotBytes (c : Chip) (slot : Nat) : List Byte :=
  if c.on R.EVR_STATUS_FALLBACK || c.evr.damaged.contains slot then 0x06#8 :: List.replicate 63 0#8
  else match Sparse.get none c.evr.slots slot with
    | some r => r.bytes
    | none => List.replicate 64 0#8

/-- R576: the slot that window record `i` shows. -/
def Chip.windowSlot (c : Chip) (i : Nat) : Nat :=
  let cur := c.get R.EVR_CURSOR_CURSOR
  if cur < areaC then (cur + i) % areaC else areaC + (cur - areaC + i) % areaCSize

/-- Word `w` of the window (offset 8 × w). -/
def Chip.windowWord (c : Chip) (w : Nat) : Nat := leNat ((c.slotBytes (c.windowSlot (w / 8))).drop (w % 8 * 8) |>.take 8)

/-- Word `w` of the fallback store as it reads (R587). -/
def Chip.fallbackWord (c : Chip) (w : Nat) : Nat :=
  match c.fbEntry (w / 8) with
  | some r => leNat ((r.bytes.drop (w % 8 * 8)).take 8)
  | none => 0

-- EXEC eventRecordArrive suppressionPeriodEnd evrFreeze evrThaw freezeLapse clearFb evrCPtrWrite evrCntClr

/-- EVENT_RECORD_ARRIVE (R580). -/
def execEventRecordArrive (sram : SramCheck) (s : State) : Host.Outcome State Fault Refusal :=
  s.runAwake true (eventRecordArrive sram)

/-- SUPPRESSION_PERIOD_END (R581). -/
def execSuppressionPeriodEnd (code : Nat) (s : State) : Host.Outcome State Fault Refusal :=
  s.runAwake true (suppressionPeriodEnd code)

/-- FREEZE (R578). -/
def execEvrFreeze (s : State) : Host.Outcome State Fault Refusal :=
  s.runBar2 true true R.EVR_CMD_CMD evrFreeze

/-- THAW (R578). -/
def execEvrThaw (s : State) : Host.Outcome State Fault Refusal :=
  s.runBar2 true true R.EVR_CMD_CMD evrThaw

/-- FREEZE_LAPSE (R578). -/
def execFreezeLapse (s : State) : Host.Outcome State Fault Refusal :=
  s.runAwake true freezeLapse

/-- CLEAR_FB (R587). -/
def execClearFb (s : State) : Host.Outcome State Fault Refusal :=
  s.runBar2 true true R.EVR_CMD_CMD clearFb

/-- EVR_C_PTR_WRITE (R575). -/
def execEvrCPtrWrite (value : Nat) (s : State) : Host.Outcome State Fault Refusal :=
  s.runBar2 true true R.EVR_C_PTR_HEAD (evrCPtrWrite value)

/-- EVR_CNT_CLR (R594). -/
def execEvrCntClr (s : State) : Host.Outcome State Fault Refusal :=
  s.runBar2 true true R.EVR_CNT_CLR_CLR evrCntClr

-- END EXEC

end Sys2Proof.Machine
end

