-- ==== Sys2Proof/Machine/Resets.lean ====
section
/-!
DEFINITION. The resets of Table 18-1, the entry into Night, the flush of Table 5-6, and head faults (R170, R171, R479, R480, R504, R543,
R547, R548, R590 to R592).
-/
namespace Sys2Proof.Machine

/-! ### What a reset leaves -/

/-- The recorder keeps its SRAM and pointers; what is on its way is lost (R588, R625). -/
def Evr.afterReset (e : Evr) : Evr :=
  { e with transit := [], hold := [], holdLost := 0, freezeAt := 0, exportFifo := [], newCount := 0 }

/-- A string's bridges, hub and the peer's side are not the head's; the rest starts anew. -/
def Strg.afterReset (s : Strg) : Strg := { bridges := s.bridges, peerEnd := s.peerEnd, hubOut := s.hubOut, loopPs := s.loopPs }

/-- What the head knows of a shelf from its maps; it must be enrolled again before it is in service (R375). -/
def ShelfInfo.afterReset (s : ShelfInfo) : ShelfInfo :=
  { s with state := if s.state = 5 then 5 else 0, wakeAt := none, parkAt := none, rebuilding := false, scanDone := 0, scanTotal := 0 }

/-- The sealed store and the OTP stay; debug closes, the challenge lapses and the measurements start anew (R543, R529, R537). -/
def Root.afterReset (r : Root) : Root :=
  { otp := r.otp, secret := r.secret, mono := r.mono, writes := r.writes }

/-- The boot flash stays; the download buffer and a write in progress do not (R549, R559). -/
def Boot.afterReset (b : Boot) : Boot :=
  { loader0 := b.loader0, loader1 := b.loader1, boardRec := b.boardRec, writeCount := b.writeCount, fwState := b.fwState, fwSerial := b.fwSerial,
    attempts := b.attempts, confirmed := b.confirmed, fwSlot := b.fwSlot, fwHeader := b.fwHeader, k0 := b.k0, k1 := b.k1,
    lastImage := b.lastImage }

/-- The pins, the Nightwatch domain and what the next Dawn needs of this run (R497). -/
def Pwr.afterReset (p : Pwr) : Pwr :=
  { porN := p.porN, sysRstN := p.sysRstN, holdupN := p.holdupN, pwrgd := p.pwrgd, pwrReq := p.pwrReq, reqFell := p.reqFell, sampled := p.sampled,
    nightTicks := p.nightTicks, nightExtra := p.nightExtra, wakeHeld := p.wakeHeld, highest := p.highest,
    faultTimes := p.faultTimes, faultCause := p.faultCause, nwClocks := p.nwClocks, i3c := p.i3c, tripped := p.tripped, coldDawn := false }

/-- A key slot that no sealed key stands behind is empty (R236); its history stays. -/
def KeySlot.afterReset (s : KeySlot) : KeySlot := { s with state := .empty, key := 0 }

/-- R172: a stripe not wholly programmed starts afresh: its extents are free again. -/
def Chip.dropUnprogrammed (c : Chip) : Chip :=
  let c := (c.ftm.stripes.filter (fun s => s.state != 1 && s.stripsLeft != 0)).foldl (fun d s => d.freeStripe s) c
  { c with ftm := { c.ftm with stripes := c.ftm.stripes.filter (fun s => s.state != 1) } }

/-- The system cache cleaned: every dirty line and every line in the eviction buffer written to DRAM (R490, Table 15-1), the cache empty.
A poisoned line leaves its DRAM line poisoned (R491). -/
def Chip.cleanCache (c : Chip) : Chip :=
  let lines := c.mem.evict.reverse.map (fun e => (e.line, e.poison, e.data)) ++
    c.mem.sets.flatMap (fun s => (s.2.filter (fun l => l.dirty || l.poison)).map (fun l => (l.line, l.poison, l.data)))
  lines.foldl (fun (d : Chip) (l : Nat × Bool × List Byte) =>
    let ps := d.mem.poisoned.filter (· != l.1)
    { d with dram := Mem.write d.dram (l.1 * 64) l.2.2, mem := { d.mem with poisoned := if l.2.1 then l.1 :: ps else ps } })
    { c with mem := { c.mem with sets := [], evict := [], snoops := [] } }

/-- The records of the vault image: those sealed, or those that the vault regions held (R172). -/
def Chip.vaultRecs (c : Chip) : List JRec := if c.ing.vault.mark = .sealed then c.ing.vault.recs else c.ing.journal.filter c.isVaulted

/-- What a reset leaves of the engines: their counts in cycles (Table 13-23). -/
def Sec.afterReset (x : Sec) : Sec :=
  { engs := x.engs.filterMap (fun (p : Nat × Eng) => if p.2.cyc = ({} : Cycles) then none else some (p.1, { cyc := p.2.cyc })) }

/-- Every block outside the Nightwatch domain reset (Table 18-1). DRAM, the shelves, the boot flash, the OTP, the sealed store and the fields
marked kept stay; what DRAM holds of the journal and of the buffered writes stays until the next Dawn has read the vault (R591). -/
def Chip.resetBlocks (c : Chip) : Chip :=
  let faulty := c.get R.MEM_WAY_STATUS_FAULTY
  let recs := c.vaultRecs
  let c := c.dropUnprogrammed.cleanCache
  let ing : Ingest := {
    nextWid := c.ing.nextWid, nextRsn := c.ing.nextRsn, nextSeg := c.ing.nextSeg, nextChunk := c.ing.nextChunk, postSeq := c.ing.postSeq,
    journal := c.ing.journal, writes := c.ing.writes.filter (·.own), vault := { c.ing.vault with recs := recs } }
  let ftm : Ftm := {
    nand := c.ftm.nand, shelves := c.ftm.shelves.map (fun s => (s.1, s.2.afterReset)), stripes := c.ftm.stripes, places := c.ftm.places,
    index := c.ftm.index, deferred := c.ftm.deferred, mapRecs := c.ftm.mapRecs, nextOp := c.ftm.nextOp, ingestRecorded := c.ftm.ingestRecorded }
  let cpe : Cpe := {
    slots := c.cpe.slots.map (fun s => (s.1, s.2.afterReset)), failing := c.cpe.failing, counters := c.cpe.counters, shelfInst := c.cpe.shelfInst,
    entrySeqs := c.cpe.entrySeqs }
  let mem : MemB := {
    gib := c.mem.gib, contentKept := c.mem.contentKept, poisoned := c.mem.poisoned, dimms := c.mem.dimms, canary := c.now, scrubAt := c.mem.scrubAt,
    selfRefresh := true }
  let epc : Epc := {
    link := if c.epc.perstLow then .down else .training, perstLow := c.epc.perstLow, perstAt := c.epc.perstAt, nextXfer := c.epc.nextXfer }
  let d := c.dropVolatile
  let d := { d with
    evr := c.evr.afterReset, kcf := {}, epc := epc, boot := { c.boot.afterReset with lastImage := c.kcf.active.orElse (fun _ => c.boot.lastImage) }, pwr := c.pwr.afterReset, ing := ing, ftm := ftm, cpe := cpe,
    nvm := { ns := c.nvm.ns, pendingNs := c.nvm.pendingNs.filter (fun p => decide (p.epoch < c.epoch))
             selfTestLog := (match c.nvm.selfTest with
               | some t => c.nvm.logTest t 0x2
               | none => c.nvm).selfTestLog }
    dd := { c.dd with inflight := [], waiting := [], cached := [], dirty := [], answered := [], warned := false }
    cmp := { compFailing := c.cmp.compFailing, dcmpFailing := c.cmp.dcmpFailing }
    dge := { failing := c.dge.failing, stateKey := c.dge.stateKey + 1 }
    rde := { failing := c.rde.failing, lost := c.rde.lost, scrub := c.rde.scrub, lostWarned := c.rde.lostWarned, reshape := c.rde.reshape }
    isf := { strings := c.isf.strings.map (fun (s : Nat × Strg) => (s.1, s.2.afterReset)) }
    zbl := { nextOpid := c.zbl.nextOpid, widCount := c.zbl.widCount }
    sec := c.sec.afterReset, dma := {}, mem := mem, root := c.root.afterReset }
  (d.setFlag R.EVR_STATUS_C_FULL (c.on R.EVR_STATUS_C_FULL)).setAll [(R.CMP_DD_FILTER_OPEN_GEN, c.get R.CMP_DD_FILTER_OPEN_GEN),
    (R.CMP_DD_GEN_FILL_FILL, c.get R.CMP_DD_GEN_FILL_FILL), (R.MEM_WAY_STATUS_FAULTY, faulty), (R.MEM_STATUS_WAYS_ON, 0xFFFF - faulty % 0x10000)]

/-- The 10 core PLLs unlocked. -/
def Chip.stopPlls (c : Chip) : Chip := c.set R.PWR_PLL_LOCK 0

/-- The valid mark of a Kilip slot that is not marked invalid (R58, R61). -/
def Chip.validMark (c : Chip) (slot : Nat) : Option Nat := if (c.kilip slot).bad then none else (c.kilip slot).mark

/-- R60: the Kilip slot that BOOT selects: the one whose valid mark was set most recently. An image armed for reset that a Night has kept takes
effect at a reset only (R59): at the Dawn after Night the slot of the image that was active goes first (log entry 91). -/
def Chip.bootSlot (c : Chip) : Option Nat :=
  if c.get R.KCF_STATUS_STATE = 5 && (c.validMark (1 - c.kcf.persistSlot)).isSome then some (1 - c.kcf.persistSlot)
  else match c.validMark 0, c.validMark 1 with
  | some a, some b => some (if a < b then 1 else 0)
  | some _, none => some 0
  | none, some _ => some 1
  | none, none => none

/-- R512: the clock plan of the PLLs before the image is validated: the CLOCKS section held, if it is that of the image that BOOT selects, or
the safe plan. -/
def Chip.firstPlan (c : Chip) (cold : Bool) : Clocks :=
  match c.pwr.nwClocks with
  | some (k, slot, count) =>
    let mark := if slot = 0 then c.boot.k0.mark else c.boot.k1.mark
    if !cold && c.bootSlot == some slot && mark == some count then k else {}
  | none => {}

/-- The state in which a Dawn stands at its beginning: PWR_REQ rises unless it fell less than 2 ms ago (R604); with the switched rails in
range the PLLs are locking, otherwise PWRGD is awaited (R603). -/
def Chip.beginDawn (c : Chip) (cold : Bool) : Chip :=
  let c := { c with pwr := { c.pwr with
    mode := .dawn, hold := .none, coldDawn := cold, dawnStep := 1, tripped := false, wakeHeld := false, wokeAt := none
    plan := c.firstPlan cold, pllTries := [], pllAt := [] } }
  let c := if c.pwr.pwrReq then (if c.pwr.pwrgd then c.startPlls else c) else if c.reqDue then c.raiseReq else c
  (c.setFlag R.PWR_WAKE_CAUSE_COLD cold).setFlag R.PWR_STATUS_COLD cold

/-- A warm reset (Table 18-1), after the recorder has settled (R625); a reset after a thermal trip shows it (R517). -/
def Chip.warmReset (c : Chip) : Chip :=
  let trip := c.pwr.tripped
  let c := c.settleRecorder.resetBlocks.stopPlls
  let c := { c with cpe := { c.cpe with instPending := true } }
  let c := (c.setFlag R.PWR_WAKE_CAUSE_TRIP trip).beginDawn false
  if trip then c.bump R.PWR_CNT_TRIPS_TRIPS 1 else c

/-- A cold reset (Table 18-1): every block, the Nightwatch domain and the fields marked kept; GLB_TIME restarts at 0. -/
def Chip.coldReset (c : Chip) : Chip :=
  let recs := c.vaultRecs
  let keep := c.resetBlocks
  let pins : Pwr := { porN := c.pwr.porN, sysRstN := c.pwr.sysRstN, holdupN := c.pwr.holdupN, pwrgd := c.pwr.pwrgd }
  let ing : Ingest := {
    nextWid := keep.ing.nextWid, nextRsn := keep.ing.nextRsn, nextSeg := keep.ing.nextSeg, nextChunk := keep.ing.nextChunk,
    vault := { c.ing.vault with recs := recs } }
  { out := c.out, freeCount := c.freeCount, root := keep.root, boot := keep.boot, ftm := keep.ftm, nvm := keep.nvm, ing := ing, pwr := pins,
    isf := keep.isf, zbl := keep.zbl, epc := { keep.epc with link := .down }
    dd := { nbLog2 := keep.dd.nbLog2, buckets := keep.dd.buckets, updates := keep.dd.updates }
    rde := { lost := keep.rde.lost, scrub := keep.rde.scrub, lostWarned := keep.rde.lostWarned, reshape := keep.rde.reshape }
    cpe := { slots := keep.cpe.slots, shelfInst := keep.cpe.shelfInst, instPending := true }
    dge := { stateKey := keep.dge.stateKey }
    mem := { gib := keep.mem.gib } }

/-- R504, Table 15-1: the entry into Night: caches cleaned, canaries written, DIMMs in self-refresh, every block off but the Nightwatch, and
PWR_REQ low (R604). A validated image stays in its staging slot, and an image armed for reset stays armed (R59). -/
def Chip.enterNight (c : Chip) : Chip :=
  let state := c.get R.KCF_STATUS_STATE
  let kept : Kcf := if state = 4 || state = 5 then
    { staged := c.kcf.staged, stagedLen := c.kcf.stagedLen, valid := c.kcf.valid, persistSlot := c.kcf.persistSlot } else {}
  let serial := c.get R.KCF_SERIAL_STAGED_SERIAL
  let c := c.settleRecorder.resetBlocks.stopPlls
  let c := if kept.valid.isSome then ({ c with kcf := kept } : Chip).setAll
    [(R.KCF_STATUS_STATE, state), (R.KCF_STATUS_NEEDS_RESET, flag (state == 5)), (R.KCF_SERIAL_STAGED_SERIAL, serial)] else c
  let c := { c with epc := { c.epc with link := .down }, pwr := { c.pwr with
    mode := .night, nightAt := c.now, pwrReq := false, reqFell := some c.now } }
  (c.bump R.PWR_CNT_NIGHTS_NIGHTS 1).emit (.pwrReq false)

/-! ### Waking -/

/-- The wake cause recorded (R498): the first source to act, and those that act while a cold die holds the Dawn. -/
def Chip.wakeCause (c : Chip) (bit str : Nat) : Chip :=
  let c := if c.pwr.wakeHeld then c.raise R.PWR_WAKE_CAUSE_CAUSE bit
    else (c.set R.PWR_WAKE_CAUSE_CAUSE (2 ^ bit)).setAll [(R.PWR_WAKE_CAUSE_TRIP, 0), (R.PWR_WAKE_CAUSE_COLD, 0)]
  if bit = 3 then c.set R.PWR_WAKE_CAUSE_STRING str else c

/-- R499: WAKE_N driven unless the platform woke the head. -/
def Chip.driveWake (c : Chip) (bit : Nat) : Chip := if bit = 0 || bit = 1 then c else c.emit .wakeN

/-- R498: a source that acts in the tick in which another has woken the head is recorded with it. -/
def Chip.joinWake (c : Chip) (bit str : Nat) : Chip :=
  if c.pwr.mode = .dawn && c.pwr.wokeAt.any (fun t => decide (c.now < t + 30518)) then
    let c := c.raise R.PWR_WAKE_CAUSE_CAUSE bit
    if bit = 3 then c.set R.PWR_WAKE_CAUSE_STRING str else c
  else c

/-- A Dawn that a wake source begins. -/
def Chip.wakeDawn (c : Chip) : Chip := let d := c.beginDawn false; { d with pwr := { d.pwr with wokeAt := some c.now } }

/-- R498 to R500, R508: a source that starts Dawn from Night. A cold die holds the Dawn until the Nightwatch finds it warm enough. A head held
after a thermal trip leaves that reset once a sensor reads below 125 degrees (R517). -/
def Chip.wake (c : Chip) (bit str : Nat) : Chip :=
  if !(bit == 0 || c.bit R.PWR_WAKE_EN_EN bit) then c
  else match c.pwr.mode with
    | .night =>
      let c := c.wakeCause bit str
      if c.pwr.highest < -40 then { c with pwr := { c.pwr with wakeHeld := true } }
      else
        let link := if c.epc.perstLow then LinkState.down else .training
        (({ c with epc := { c.epc with link := link } } : Chip).driveWake bit).wakeDawn
    | .held => if c.pwr.hold == .trip && decide (c.pwr.highest < 125) then ((c.wakeCause bit str).warmReset).driveWake bit else c
    | .dawn => c.joinWake bit str
    | _ => c

/-- R557: the loader-only state: its cause, its event (INDEX the check), its count; ALERT_N follows the Critical record. -/
def Chip.enterLoaderOnly (c : Chip) (cause check : Nat) : Chip :=
  if c.on R.GLB_STATUS_LOADER_ONLY then c
  else
    ((c.setAll [(R.GLB_STATUS_LOADER_ONLY, 1), (R.BOOT_LO_CAUSE, cause), (R.BOOT_STATUS_STAGE, 3), (R.BOOT_FW_RUNNING_SERIAL, 0)]).bump
      R.BOOT_CNT_LO_LOADER_ONLY 1).event 0x380 check 0 cause 0 0

/-! ### The flush -/

/-- R171: whether a fall of HOLDUP_N, a warm reset or a trip finds a head that may hold exposed data: it has not yielded, but may have departed. -/
def Chip.mayFlush (c : Chip) : Bool :=
  c.inService && c.get R.ZBL_STATUS_STATE != 6 && c.get R.PWR_STATUS_PHASE != 5 && c.usesLinks

/-- The engines that run or wait. -/
def Chip.liveEngines (c : Chip) : List Nat :=
  (List.range 192).filter (fun k => (c.engAt k).state == .running || (c.engAt k).state == .stalled || (c.engAt k).state == .waiting)

/-- Step 4 of Table 5-6: the programs that no frame has carried yet are taken out of line. Their operations stand: a head that goes on in Day sends them
again when they time out (R309). -/
def Chip.cancelPrograms (c : Chip) : Chip :=
  let starts := fun (p : Nat × StrPayload) => match p.2 with
    | .req (.program ..) => true
    | _ => false
  (List.range 16).foldl (fun d str => (List.range 8).foldl (fun d pos => if (d.view str pos).lend.queue.any starts then
    d.modView str pos (fun v => { v with lend := { v.lend with queue := v.lend.queue.filter (fun p => !starts p) } }) else d) d) c

/-- Table 5-6 from step 2. `after` says what follows the seal: 0 the power-fail's hold, 1 a warm reset, 2 the hold of a thermal trip. A flash
program counts as started once a frame has carried it. Non-catalogue strings go to a peer in service that does not flush itself (R415). -/
def Chip.startFlush (c : Chip) (after : Nat) : Chip :=
  if c.pwr.flushing then { c with pwr := { c.pwr with afterFlush := max c.pwr.afterFlush after } }
  else
    let c := ({ c with ing := { c.ing with fetchStopped := true } } : Chip).completeWrites
    let live := c.liveEngines
    let c := { c with
      ing := { c.ing with noCompletions := true, flushStart := some c.now, flushSealed := false }
      pwr := { c.pwr with flushing := true, afterFlush := after, flushHalted := c.pwr.flushHalted ++ live } }
    let gives := c.peerIn && !c.zbl.pfailSeen
    let c := c.notice 3 c.ownedStrings
    let c := if gives then ((List.range 16).filter (fun s => c.ownsStr s && (c.catPos s).isNone)).foldl (fun d s => d.disownString s) c else c
    ((live.foldl (fun d k => d.haltEng k) c).cancelPrograms).powerFailSchedule

/-- The data records of the exposed writes, as a flush or a recovery puts them into the vault (R170, R591). -/
def Chip.exposedData (c : Chip) : List VaultWrite :=
  (c.ing.writes.filter (fun w => w.own && w.exposed)).map (fun w => ⟨w, c.load w.base w.bytes, c.load w.mbase w.metaBytes, 0⟩)

/-- The vault region that the `i`-th flushed record goes to: the two alternate, or all go to the one whose catalogue shelf is in service. -/
def Chip.flushRegion (c : Chip) (i : Nat) : Nat := if !c.ing.cat1Up then 0 else if !c.ing.cat0Up then 1 else i % 2

/-- Step 6 of Table 5-6 for the records of the journal from the `i`-th flushed on: each that is not vaulted goes to one region. -/
def Chip.flushRecs (c : Chip) : Nat → List JRec → List JRec
  | _, [] => []
  | i, r :: l =>
    if c.isVaulted r then r :: Chip.flushRecs c i l
    else (if c.flushRegion i = 0 then { r with vault0 := true } else { r with vault1 := true }) :: Chip.flushRecs c (i + 1) l

/-- Steps 6 and 7 of Table 5-6: every unvaulted record and every exposed write's data in the vault, under its key (R169) and a seal: the epoch, the
count and the SHA-256 of the flushed records. -/
def Chip.sealVault (c : Chip) : Chip :=
  let flushed := c.ing.journal.filter (fun r => !c.isVaulted r)
  let data := c.exposedData
  let data := (List.range data.length).filterMap (fun i => (data[i]?).map (fun v => { v with region := c.flushRegion (flushed.length + i) }))
  let v : Vault := { mark := .sealed, recs := c.flushRecs 0 c.ing.journal, writes := data, sealEpoch := c.epoch, count := flushed.length + data.length,
                     sha := recordsSha flushed, key := c.root.secret.vault, withPeer := c.peerIn }
  { c with ing := { c.ing with vault := v, flushSealed := true } }

/-- The head holds itself in reset: nothing more is sent or written; ALERT_N is asserted for a trip and for repeated faults (R517, R592). -/
def Chip.holdReset (c : Chip) (why : HoldCause) (alert : Bool) : Chip :=
  let c := c.goQuiet
  { c.stopPlls with pwr := { c.stopPlls.pwr with mode := .held, hold := why, flushing := false, alertHeld := alert } }

/-! ### Head faults -/

/-- R591: the recovery reset: no flush. A head whose peer was in service has its vault image superseded by the survivor (R149); the next Dawn
records the cause. -/
def Chip.recoveryReset (c : Chip) (hadPeer : Bool) (cause : Nat) : Chip :=
  let c := if hadPeer then { c with ing := { c.ing with vault := { c.ing.vault with mark := .superseded } } } else c
  let c := c.warmReset
  { c with pwr := { c.pwr with faultCause := cause + 1 } }

/-- R590, R592: a head fault, with no step left to firmware. -/
def Chip.headFaultWith (c : Chip) (cause : Nat) (endpointAlive : Bool) : Chip :=
  if !c.awake then c
  else
    let hadPeer := c.zbl.state == .inService
    let c := (c.writeNow (c.record 0x002 0 0 cause 0 0)).goQuiet
    let c := if endpointAlive then c.logAer 0 .fatal 22 else c
    let times := (c.now :: c.pwr.faultTimes).filter (fun t => decide (c.now < t + 3600000000000))
    let c := { c with pwr := { c.pwr with faultTimes := times } }
    if 4 ≤ times.length then
      let c := if hadPeer then { c with ing := { c.ing with vault := { c.ing.vault with mark := .superseded } } } else c
      c.holdReset .faults true
    else c.recoveryReset hadPeer cause

/-- A head fault whose cause number the spec does not give: it is a free value (log entry 4). -/
def Chip.ownFault (c : Chip) : Chip := c.useFree.headFaultWith c.freeNow true

/-- HEAD_FAULT (R590). -/
def headFault (cause : Nat) (endpointAlive : Bool) (c : Chip) : Chip := c.headFaultWith cause endpointAlive

/-- WATCHDOG_LAPSE (R412, R589): all transmission ends, and the lapse is a head fault. -/
def watchdogLapse (c : Chip) : Chip := if c.awake then c.ownFault else c

-- EXEC headFault watchdogLapse

/-- HEAD_FAULT (R590). -/
def execHeadFault (cause : Nat) (endpointAlive : Bool) (s : State) : Host.Outcome State Fault Refusal :=
  s.runAwake true (headFault cause endpointAlive)

/-- WATCHDOG_LAPSE (R412). -/
def execWatchdogLapse (s : State) : Host.Outcome State Fault Refusal :=
  s.runAwake true watchdogLapse

-- END EXEC

end Sys2Proof.Machine
end

