-- ==== Sys2Proof/Machine/Memory.lean ====
section
/-!
DEFINITION. DRAM and the system cache (chapter 15).
-/
namespace Sys2Proof.Machine

/-! ### Regions -/

/-- R482, R483, MEM_UE_LOG.REGION: what a DRAM address lies in: a carve-out's type, 8 the firmware region, 9 the staging slots, 10 none of
them; 0 where no DRAM is. -/
def Chip.regionOf (c : Chip) (a : Nat) : Nat :=
  if c.dramSize ≤ a then 0
  else if c.dramSize - 0x2000000 ≤ a then 9
  else if c.dramSize - 0x10000000 ≤ a then 8
  else match c.kcf.active.bind (fun i => i.carve.find? (fun r => decide (r.base ≤ a) && decide (a < r.base + r.size))) with
    | some r => r.typ
    | none => 10

/-- The cached regions of Table 15-2. -/
def cachedRegion (r : Nat) : Bool := [2, 3, 4, 5, 8].contains r

/-- R475: where a DRAM address lies: its channel, and the address within the channel. -/
def dramPlace (a : Nat) : Nat × Nat := (a / 256 % 12, a / 256 / 12 * 256 + a % 256)

/-- The channel of a line. -/
def chanOf (line : Nat) : Nat := (dramPlace (line * 64)).1

/-! ### Uncorrectable errors by region (Table 15-4) -/

/-- The buffered write whose data or metadata holds an address, with the block concerned. -/
def Chip.writeAt (c : Chip) (a : Nat) : Option (WrBuf × Nat) :=
  c.ing.writes.findSome? (fun w =>
    if w.base ≤ a && decide (a < w.base + w.bytes) then some (w, (a - w.base) / blockStride (c.nsOf w.nsid) w.pr.pract)
    else if w.mbase ≤ a && decide (a < w.mbase + w.metaBytes) then some (w, (a - w.mbase) / max 1 (metaOf (c.nsOf w.nsid).lbaf))
    else none)

/-- A range of blocks recorded lost (KIND 3, Table 10-8). -/
def Chip.loseRange (c : Chip) (nsid lba blocks cause : Nat) : Chip :=
  (c.addLost { kind := 3, cause := cause, id := nsid, firstLba := lba, blocks := blocks, epoch := c.epoch }).event 0x201 0xFFFF lba cause nsid blocks

/-- The piece of an exposed write lost: no data record can cover it (R492). -/
def Chip.losePiece (c : Chip) (wid piece : Nat) : Chip :=
  match (c.wr wid).bind (fun w => (w.pieces.find? (fun p => p.index == piece && !p.lost)).map (fun p => (w, p))) with
  | none => c
  | some (w, p) =>
    let gone := fun (q : Piece) => { q with lost := true, mapRsn := some placedByPeer }
    let ps := modifyFirst (fun (q : Piece) => q.index == piece) gone w.pieces
    (((c.modWr wid (fun x => { x with pieces := ps })).unexpose wid).loseRange w.nsid p.slba p.blocks 4).completeWrites

/-- The rows of the write buffer. -/
def Chip.bufferError (c : Chip) (w : WrBuf) (block : Nat) : Chip :=
  if !w.own then c.modWr w.wid (fun x => { x with passed := false })
  else if w.completed.isNone then c.failWrite w (stat 0 0x06 false)
  else if !w.exposed then c
  else if c.peerIn then c.goQuiet
  else match w.pieces.find? (fun p => decide (p.slba ≤ w.slba + block) && decide (w.slba + block < p.slba + p.blocks)) with
    | some p => c.losePiece w.wid p.index
    | none => c

/-- The journal's row: which record a line of the ring holds the spec does not lay out, so it is a free one of those not yet vaulted (log
entry 4). -/
def Chip.journalError (c : Chip) : Chip :=
  let recs := c.ing.journal.filter (fun r => !c.isVaulted r)
  if recs.isEmpty then c
  else if c.peerIn then c.goQuiet
  else
    let r := recs[c.freeNow % recs.length]?
    let c := c.useFree
    match r.map JRec.kind with
    | some (.map wid piece) => c.losePiece wid piece
    | some (.catalogue wid piece) => c.losePiece wid piece
    | some (.data wid) => match c.wr wid with
      | some w => w.pieces.foldl (fun d p => d.losePiece wid p.index) c
      | none => c
    | _ => c

/-- FILTER_EMPTIED (R210): the filter starts empty with generation 0 open. -/
def Chip.emptyFilter (c : Chip) : Chip :=
  ({ c with dd := { c.dd with gens := [], overfillDone := false } } : Chip).setAll [(R.CMP_DD_FILTER_OPEN_GEN, 0), (R.CMP_DD_GEN_FILL_FILL, 0)]

/-- An item whose windows hold the address is given up by its engine: a read's strips are fetched again once, any other item goes the way of
R444. -/
def Chip.itemError (c : Chip) (k a : Nat) : Chip :=
  match (c.engAt k).item with
  | none => c
  | some i =>
    if !i.windows.any (fun w => decide (w.base ≤ a) && decide (a < w.base + w.len)) then c
    else
      let c := c.cancelJobs k
      match if i.kind = 3 || i.kind = 4 then c.itemRead i else none with
      | some r =>
        if r.refetched then c.dropItem k
        else
          let c := (c.modEng k (fun e => { e with item := none, doneSent := false })).refetch r
          ({ c with ing := { c.ing with reads := modifyFirst (fun x => x.id == r.id) (fun x => { x with refetched := true }) c.ing.reads } } : Chip).keepItem i
      | none => c.dropItem k

/-- R315: an open stripe's records are packed again from the write buffer. -/
def Chip.stripeError (c : Chip) (os : OpenStripe) : Chip :=
  let mine := fun (k : Chunk) => k.packed.any (fun p => locCohort p.1 == os.cohort && locSeid p.1 == os.seid) && !k.programmed
  { c with
    ing := { c.ing with
      chunks := modifyAll mine (fun k => { k with packed := none, cipherJob := none }) c.ing.chunks
      stripes := c.ing.stripes.filter (fun s => !(s.cohort == os.cohort && s.seid == os.seid)) }
    ftm := { c.ftm with stripes := c.ftm.stripes.filter (fun s => !(s.cohort == os.cohort && s.seid == os.seid && s.state == 1)) } }

/-- The open stripes whose extent buffers hold an address. -/
def Chip.stripesAt (c : Chip) (a : Nat) : List OpenStripe :=
  c.ing.stripes.filter (fun os => os.bufs.any (fun b => decide (b ≤ a) && decide (a < b + (c.layoutOf os.cls).extent)))

/-- The staging slot's row: a LOAD, VALIDATE or ACTIVATE in progress on it ends with CODE 0x01. -/
def Chip.stagingError (c : Chip) (slot : Nat) : Chip :=
  if c.kcf.staged ≠ some slot then c
  else match c.kcfState with
    | 1 => c.endLoad false
    | 3 => c.kcfEnd 8 1 0xFF 0
    | 9 => (c.setFlag R.BOOT_STATUS_WRITING c.boot.writer.isSome).kcfEnd 8 1 0xFF 0
    | _ => c

/-- DRAM_UNCORRECTABLE_ERROR (R492): the head's action by region. A page or bucket of the caches of maps and of the catalogue is dropped, and
read again from its shelf when next needed. -/
def Chip.actUe (c : Chip) (region a : Nat) : Chip :=
  match region with
  | 1 => match c.writeAt a with
    | some (w, block) => c.bufferError w block
    | none => c
  | 2 => c.journalError
  | 4 => c.emptyFilter
  | 5 => ({ c with dd := { c.dd with cached := c.dd.cached.eraseIdx (c.freeNow % max 1 c.dd.cached.length) } } : Chip).useFree
  | 6 => (List.range 192).foldl (fun d k => d.itemError k a) c
  | 7 => (c.stripesAt a).foldl (fun d os => d.stripeError os) ((List.range 192).foldl (fun d k => d.itemError k a) c)
  | 8 => c.ownFault
  | 9 => c.stagingError ((a - (c.dramSize - 0x2000000)) / 0x1000000)
  | _ => c

/-- R491: the event, and the log of the first error since UE_SEEN was cleared. -/
def Chip.logUe (c : Chip) (ch region line : Nat) (scrub : Bool) : Chip :=
  let c := if c.on R.MEM_STATUS_UE_SEEN then c
    else c.setAll [(R.MEM_UE_LOG_CH, ch), (R.MEM_UE_LOG_REGION, region), (R.MEM_UE_LOG_SCRUB, flag scrub), (R.MEM_UE_ADDR_ADDR, line * 64),
      (R.MEM_STATUS_UE_SEEN, 1)]
  c.event 0x2C1 ch (line * 64) region 0 0

/-- R491: an uncorrectable error in DRAM: counted, the line poisoned, logged, and acted on. -/
def Chip.dramUe (c : Chip) (line : Nat) (scrub : Bool) : Chip :=
  let r := c.regionOf (line * 64)
  let c := (c.bump (R.MEM_CH_CNT_UE_UE (chanOf line)) 1).logUe (chanOf line) r line scrub
  ({ c with mem := { c.mem with poisoned := line :: c.mem.poisoned.filter (· != line) } } : Chip).actUe r (line * 64)

/-- A channel's corrected errors of the last hour. -/
def Chip.ceCount (c : Chip) (ch : Nat) : Nat :=
  (c.mem.ceTimes.filter (fun e => e.1 == ch && decide (c.now < e.2 + 3600000000000))).length

/-- R491: a corrected error counted; `quiet` for a prefetch, which reports none (R485). -/
def Chip.dramCe (c : Chip) (line : Nat) (quiet : Bool) : Chip :=
  let ch := chanOf line
  let c := c.bump (R.MEM_CH_CNT_CE_CE ch) 1
  let c := { c with mem := { c.mem with ceTimes := (ch, c.now) :: c.mem.ceTimes.filter (fun e => decide (c.now < e.2 + 3600000000000)) } }
  let c := if c.get R.MEM_CTRL_CE_LIMIT < c.ceCount ch then c.set (R.MEM_CH_STATUS_CE_HIGH ch) 1 else c
  if quiet then c else c.event 0x2C0 ch (line * 64) 0 0 0

/-- A line read from DRAM: what its check bits find; whether it comes poisoned. -/
def Chip.dramRead (c : Chip) (line : Nat) (found : EccIn) : Chip × Bool :=
  if c.mem.poisoned.contains line then (c, true)
  else match found with
    | .clean => (c, false)
    | .corrected => (c.dramCe line false, false)
    | .uncorrectable => (c.dramUe line false, true)

/-! ### The cache -/

/-- A way into which lines are allocated: powered and not being swept (R490). -/
def Chip.wayOpen (c : Chip) (w : Nat) : Bool := c.bit R.MEM_STATUS_WAYS_ON w && c.mem.sweeping != some w

/-- A line of the cache changed. -/
def Chip.modLine (c : Chip) (line : Nat) (f : CLine → CLine) : Chip :=
  c.putSet line (modifyFirst (fun l => l.line == line) f (Sparse.get [] c.mem.sets (line % 98304)))

/-- Bytes put over a line's data from an offset. -/
def patchLine (data : List Byte) (ofs : Nat) (bs : List Byte) : List Byte :=
  let d := data ++ List.replicate (64 - data.length) 0#8
  (d.take ofs ++ bs.take (64 - ofs) ++ d.drop (ofs + bs.length)).take 64

/-- A line that leaves the cache: the L1 copies that its presence bits name are invalidated, a dirty one is taken back, and a dirty line goes
to the eviction buffer (R486, R488). `crosses`: a writeback of the owner crosses the back-invalidation (R487). -/
def Chip.evictLine (c : Chip) (l : CLine) (snooped : List (Nat × List Byte)) (crosses : Bool) : Chip :=
  let back := l.owner.bind (fun j => (snooped.find? (fun s => s.1 == j)).map (fun s => patchLine s.2 64 []))
  let data := back.getD l.data
  let dirty := l.dirty || back.isSome
  let c := c.bump R.MEM_CNT_SNOOP_SNOOP l.cores.length
  let met : List Snoop := match l.owner with
    | some j => if crosses && back.isSome then [⟨l.line, j, .unit, .read 0, 0, true⟩] else []
    | none => []
  let c := { c with mem := { c.mem with snoops := c.mem.snoops ++ met } }
  let c := c.putSet l.line ((Sparse.get [] c.mem.sets (l.line % 98304)).filter (fun x => x.line != l.line))
  if dirty || l.poison then
    let c := if dirty then c.bump R.MEM_CNT_WB_WB 1 else c
    ({ c with mem := { c.mem with evict := ⟨l.line, l.poison, data⟩ :: c.mem.evict } } : Chip).emit (.lineWrite l.line data)
  else c

/-- R484: a line allocated in a free open way of its set, or in the least recently used open one, whose line is evicted. -/
def Chip.allocate (c : Chip) (l : CLine) (last : Bool) (snooped : List (Nat × List Byte)) (crosses : Bool) : Chip :=
  let set := Sparse.get [] c.mem.sets (l.line % 98304)
  let ways := (List.range 16).filter c.wayOpen
  let put := fun (d : Chip) (w : Nat) =>
    let s := Sparse.get [] d.mem.sets (l.line % 98304)
    let x := { l with way := w }
    d.putSet l.line (if last then s ++ [x] else x :: s)
  match ways.find? (fun w => !set.any (fun x => x.way == w)) with
  | some w => put c w
  | none => match set.reverse.find? (fun x => ways.contains x.way) with
    | some v => put (c.evictLine v snooped crosses) v.way
    | none => c

/-- The control core behind an access. -/
def coreOf : MemAgent → Option Nat
  | .core k => some k
  | .fetch k => some k
  | .unit => none

/-- An access served by the line, which stands in the cache (R484, R486): a read marks the core's presence; a store invalidates the other
copies, and its core may hold the line dirty. A write of the whole line clears its poison. -/
def Chip.serve (c : Chip) (line : Nat) (who : MemAgent) (acc : MemAccess) (ofs : Nat) : Chip :=
  match c.lineAt line with
  | none => c
  | some l =>
    match acc with
    | .read n =>
      let c := match coreOf who with
        | some k => c.modLine line (fun x => { x with cores := k :: x.cores.filter (· != k) })
        | none => c
      { c with mem := { c.mem with reply := some (l.poison, (l.data.drop ofs).take n) } }
    | .write bs =>
      let others := l.cores.filter (fun j => coreOf who != some j)
      let c := c.bump R.MEM_CNT_SNOOP_SNOOP others.length
      c.modLine line (fun x => { x with
        data := patchLine x.data ofs bs, dirty := true, poison := x.poison && !(ofs == 0 && decide (64 ≤ bs.length)),
        cores := (coreOf who).toList, owner := coreOf who })

/-- The core that may hold a line dirty, other than the one that asks (R486). -/
def CLine.dirtyElsewhere (l : CLine) (who : MemAgent) : Option Nat := l.owner.bind (fun j => if coreOf who = some j then none else some j)

/-- The cores that hold a line once core `j` has answered a snoop for a request: a store leaves that core no copy. -/
def coresLeft (acc : MemAccess) (j : Nat) (cores : List Nat) : List Nat :=
  match acc with
  | .read _ => cores
  | .write _ => cores.filter (· != j)

/-- A request for a line that stands in the cache: a core that holds it dirty is snooped first, and the request is served after the answer; a
snoop that crosses that core's writeback leaves it waiting (R487). -/
def Chip.serveHit (c : Chip) (l : CLine) (who : MemAgent) (acc : MemAccess) (ofs : Nat) (snooped : List (Nat × List Byte)) (crosses : Bool) : Chip :=
  match l.dirtyElsewhere who with
  | none => c.serve l.line who acc ofs
  | some j =>
    let c := c.bump R.MEM_CNT_SNOOP_SNOOP 1
    if crosses then { c with mem := { c.mem with snoops := c.mem.snoops ++ [⟨l.line, j, who, acc, ofs, false⟩] } }
    else
      let c := match snooped.find? (fun s => s.1 == j) with
        | some s => c.modLine l.line (fun x => { x with data := patchLine s.2 64 [], dirty := true, owner := none, cores := coresLeft acc j x.cores })
        | none => c.modLine l.line (fun x => { x with owner := none, cores := coresLeft acc j x.cores })
      c.serve l.line who acc ofs

/-- R485: the next line fetched after a demand read miss. One that meets an uncorrectable error is discarded and counted. -/
def Chip.prefetch (c : Chip) (line queued : Nat) (found : EccIn) (snooped : List (Nat × List Byte)) : Chip :=
  let n := line + 1
  if !c.on R.MEM_CTRL_PREFETCH || n % 64 = 0 || c.regionOf (n * 64) ≠ c.regionOf (line * 64) || (c.lineAt n).isSome || 32 ≤ queued then c
  else
    let c := c.bump R.MEM_CNT_PF_PF 1
    if found = .uncorrectable || c.mem.poisoned.contains n then c.bump (R.MEM_CH_CNT_UE_UE (chanOf n)) 1
    else
      let c := if found = .corrected then c.dramCe n true else c
      c.allocate { line := n, way := 0, prefetched := true, data := c.load (n * 64) 64 } true snooped false

/-- A demand miss (R484, R488): the line comes from the eviction buffer, or from DRAM, and is allocated. -/
def Chip.miss (c : Chip) (line : Nat) (who : MemAgent) (acc : MemAccess) (ofs : Nat) (snooped : List (Nat × List Byte)) (crosses : Bool)
    (queued : Nat) (dram prefetch : EccIn) : Chip :=
  let c := c.bump R.MEM_CNT_MISS_MISS 1
  let inBuffer := c.mem.evict.find? (fun e => e.line == line)
  let data := c.load (line * 64) 64
  let (c, poison) := match inBuffer with
    | some e => (c, e.poison)
    | none => c.dramRead line dram
  if !c.mem.opened then c
  else
    let c := c.allocate { line := line, way := 0, poison := poison, data := data } false snooped crosses
    let c := c.serve line who acc ofs
    match acc with
    | .read _ => c.prefetch line queued prefetch snooped
    | .write _ => c

/-- A hit: the line becomes the most recently used of its set. -/
def Chip.hit (c : Chip) (l : CLine) : Chip :=
  let c := c.bump R.MEM_CNT_HIT_HIT 1
  let c := if l.prefetched then c.bump R.MEM_CNT_PF_USED_PF_USED 1 else c
  c.putSet l.line ({ l with prefetched := false } :: (Sparse.get [] c.mem.sets (l.line % 98304)).filter (fun x => x.line != l.line))

/-- The ways that stay powered in Dawn and Day: 0 and 1, or those that take the role of a faulty one (R489, R494). -/
def Chip.keptWays (c : Chip) : List Nat :=
  ((List.range 16).filter (fun w => c.bit R.MEM_STATUS_WAYS_ON w && !c.bit R.MEM_WAY_STATUS_FAULTY w)).take 2

/-- A sweep begun (R490). -/
def Chip.sweep (c : Chip) (way : Nat) (cmd : Bool) : Chip :=
  let d := c.setAll [(R.MEM_WAY_STATUS_ACTIVE, 1), (R.MEM_WAY_STATUS_DRAINING, way)]
  let d := if cmd then d.startOp R.MEM_WAY_RESULT_VALID else d
  { d with mem := { d.mem with sweeping := some way, sweepCmd := cmd } }

/-- R494: an uncorrectable error of the cache's SRAM; the 16th of a way within an hour takes the way out. -/
def Chip.sramUe (c : Chip) (way : Nat) : Chip :=
  let c := c.bump R.MEM_CNT_SRAM_UE_SRAM_UE 1
  let times := (way, c.now) :: c.mem.ueTimes.filter (fun e => decide (c.now < e.2 + 3600000000000))
  let c := { c with mem := { c.mem with ueTimes := times } }
  if (times.filter (fun e => e.1 == way)).length < 16 || c.bit R.MEM_WAY_STATUS_FAULTY way then c
  else
    let c := (c.raise R.MEM_WAY_STATUS_FAULTY way).event 0x2C3 15 way 0 0 16
    if c.on R.MEM_WAY_STATUS_ACTIVE then c else c.sweep way false

/-- An access to a streamed region goes to DRAM (R483). -/
def Chip.stream (c : Chip) (acc : MemAccess) (a : Nat) (found : EccIn) : Chip :=
  match acc with
  | .read n =>
    let data := c.load a (min n (64 - a % 64))
    let (c, poison) := c.dramRead (a / 64) found
    { c with mem := { c.mem with reply := some (poison, data) } }
  | .write bs => c.store a (bs.take (64 - a % 64))

/-- CACHE_ACCESS (R483 to R488, R494). DRAM outside every region is not accessed (R482). -/
def cacheAccess (who : MemAgent) (acc : MemAccess) (addr : Nat) (snooped : List (Nat × List Byte)) (crosses : Bool) (queued : Nat)
    (dram sram prefetch : EccIn) (c : Chip) : Chip :=
  let r := c.regionOf addr
  if !c.mem.opened || r = 0 || r = 10 then c
  else if !cachedRegion r then c.stream acc addr dram
  else
    let line := addr / 64
    let ofs := addr % 64
    match c.lineAt line with
    | none => c.miss line who acc ofs snooped crosses queued dram prefetch
    | some l =>
      if c.mem.sweeping = some l.way then (c.evictLine l snooped crosses).miss line who acc ofs [] false queued dram prefetch
      else match sram with
        | .clean => (c.hit l).serveHit l who acc ofs snooped crosses
        | .corrected => ((c.hit l).bump R.MEM_CNT_SRAM_CE_SRAM_CE 1).serveHit l who acc ofs snooped crosses
        | .uncorrectable =>
          let c := c.sramUe l.way
          if l.dirty then
            let c := ((c.hit l).modLine line (fun x => { x with poison := true })).logUe 15 r line false
            (c.actUe r addr).serveHit l who acc ofs snooped crosses
          else
            let c := (c.bump R.MEM_CNT_SNOOP_SNOOP l.cores.length).putSet line
              ((Sparse.get [] c.mem.sets (line % 98304)).filter (fun x => x.line != line))
            c.miss line who acc ofs snooped crosses queued dram prefetch

/-- CORE_WRITEBACK_ARRIVE (R487): an outstanding snoop to the same core is answered by it, and the waiting request is served. -/
def coreWritebackArrive (core line : Nat) (data : List Byte) (c : Chip) : Chip :=
  let c := c.modLine line (fun l => { l with
    data := patchLine data 64 [], dirty := true, cores := l.cores.filter (· != core), owner := if l.owner = some core then none else l.owner })
  match c.mem.snoops.find? (fun s => s.line == line && s.core == core && !s.answered) with
  | none => c
  | some s =>
    let snoops := modifyFirst (fun x => x == s) (fun x => { x with answered := true }) c.mem.snoops
    ({ c with mem := { c.mem with snoops := snoops } } : Chip).serve line s.who s.acc s.ofs

/-- SNOOP_WB (R487): discarded, and the crossing counted. -/
def snoopWb (core line : Nat) (c : Chip) : Chip :=
  match c.mem.snoops.find? (fun s => s.line == line && s.core == core && s.answered) with
  | none => c
  | some s => ({ c with mem := { c.mem with snoops := c.mem.snoops.erase s } } : Chip).bump R.MEM_CNT_XWB_XWB 1

/-- EVICTION_WRITE_ACCEPTED (R488): the oldest entry of the line leaves the buffer; DRAM holds it. -/
def evictionWriteAccepted (line : Nat) (c : Chip) : Chip :=
  match c.mem.evict.reverse.find? (fun e => e.line == line) with
  | none => c
  | some e =>
    let ps := c.mem.poisoned.filter (· != line)
    { c with
      dram := Mem.write c.dram (line * 64) e.data
      mem := { c.mem with evict := (c.mem.evict.reverse.erase e).reverse, poisoned := if e.poison then line :: ps else ps } }

/-- PATROL_SCRUB (R493): in Day, the line at the scrub's place is read, and the place moves on to the next of DRAM. -/
def patrolScrub (found : EccIn) (c : Chip) : Chip :=
  if !c.isDay || !c.mem.opened then c
  else
    let line := c.mem.scrubAt
    let c := { c with mem := { c.mem with scrubAt := (line + 1) % max 1 (c.dramSize / 64) } }
    if c.mem.poisoned.contains line then c
    else match found with
      | .clean => c
      | .corrected => c.dramCe line false
      | .uncorrectable => c.dramUe line true

/-- DIMM_TEMPERATURE_READING (R477). -/
def dimmTemperatureReading (ch temp : Nat) (c : Chip) : Chip :=
  if ch < 12 && c.awake then (c.set (R.MEM_CH_STATUS_TEMP ch) temp).setFlag (R.MEM_CH_STATUS_HOT ch) (decide (85 ≤ temp)) else c

/-! ### Ways -/

/-- A way command's outcome (R15). -/
def Chip.wayEnd (c : Chip) (way code : Nat) : Chip :=
  c.postResult R.MEM_WAY_RESULT_VALID [(R.MEM_WAY_RESULT_CODE, code), (R.MEM_WAY_RESULT_WAY, way)]

/-- Whether MEM_WAY_CMD can be written: the MEM window is served (R558). PWR's own commands need the head to run. -/
def Chip.wayCmdUp (c : Chip) (byHost : Bool) : Bool := c.awake && !(byHost && c.on R.GLB_STATUS_LOADER_ONLY)

/-- R489: a command refused. -/
def Chip.wayRefuse (c : Chip) : Chip := (c.set R.MEM_WAY_STATUS_REFUSED 1).refusedCommand R.MEM_WAY_CMD_CMD

/-- POWER_DOWN (R489, R490). -/
def wayPowerDown (way : Nat) (byHost : Bool) (c : Chip) : Chip :=
  if !c.wayCmdUp byHost || 16 ≤ way then c
  else if c.on R.MEM_WAY_STATUS_ACTIVE || c.keptWays.contains way then c.wayRefuse
  else if c.bit R.MEM_WAY_STATUS_FAULTY way then (c.startOp R.MEM_WAY_RESULT_VALID).wayEnd way 2
  else if !c.bit R.MEM_STATUS_WAYS_ON way then (c.startOp R.MEM_WAY_RESULT_VALID).wayEnd way 1
  else c.sweep way true

/-- POWER_UP (R489, R490, R494). -/
def wayPowerUp (way : Nat) (byHost : Bool) (c : Chip) : Chip :=
  if !c.wayCmdUp byHost || 16 ≤ way then c
  else if c.on R.MEM_WAY_STATUS_ACTIVE then c.wayRefuse
  else if c.bit R.MEM_WAY_STATUS_FAULTY way then (c.startOp R.MEM_WAY_RESULT_VALID).wayEnd way 2
  else if c.bit R.MEM_STATUS_WAYS_ON way then (c.startOp R.MEM_WAY_RESULT_VALID).wayEnd way 1
  else ((c.startOp R.MEM_WAY_RESULT_VALID).raise R.MEM_STATUS_WAYS_ON way).wayEnd way 0

/-- WAY_SWEEP_DONE (R490): no line of the way is left, and its power goes. A faulty way that waited is swept next. -/
def waySweepDone (way : Nat) (snooped : List (Nat × List Byte)) (c : Chip) : Chip :=
  if c.mem.sweeping ≠ some way then c
  else
    let cmd := c.mem.sweepCmd
    let lines := c.mem.sets.flatMap (fun s => s.2.filter (fun l => l.way == way))
    let c := lines.foldl (fun d l => d.evictLine l snooped false) c
    let c := { c with mem := { c.mem with sweeping := none, sweepCmd := false } }
    let c := (c.lower R.MEM_STATUS_WAYS_ON way).setAll [(R.MEM_WAY_STATUS_ACTIVE, 0), (R.MEM_WAY_STATUS_DRAINING, 0)]
    let c := if cmd then c.wayEnd way 0 else c
    match (List.range 16).find? (fun w => c.bit R.MEM_WAY_STATUS_FAULTY w && c.bit R.MEM_STATUS_WAYS_ON w) with
    | some w => c.sweep w false
    | none => c

/-- The counters of Tables 15-7 and 15-8. -/
def memCounters : List Fld :=
  [R.MEM_CNT_HIT_HIT, R.MEM_CNT_MISS_MISS, R.MEM_CNT_PF_PF, R.MEM_CNT_PF_USED_PF_USED, R.MEM_CNT_WB_WB, R.MEM_CNT_SNOOP_SNOOP,
   R.MEM_CNT_XWB_XWB, R.MEM_CNT_SRAM_CE_SRAM_CE, R.MEM_CNT_SRAM_UE_SRAM_UE] ++
  (List.range 12).map R.MEM_CH_CNT_CE_CE ++ (List.range 12).map R.MEM_CH_CNT_UE_UE

/-- MEM_CNT_CLR (R495). -/
def memCntClr (c : Chip) : Chip := c.clearAll memCounters

/-! ### Dawn, supply and time -/

/-- R474: whether a channel's DIMM has a capacity that the head takes, with the capacity and rank count of channel 0's. -/
def dimmOk (ds : List DimmId) (ch : Nat) : Bool :=
  match ds[0]?, ds[ch]? with
  | some d0, some d => [32, 48, 64, 96, 128].contains d.gib && d.gib == d0.gib && d.ranks == d0.ranks
  | _, _ => false

/-- DRAM_TRAINING_DONE (R474, R476, R478 to R481, R210): at the rate of the clock plan memory opens, with its content or initialised, or the head stays in the loader. -/
def dramTrainingDone (trained : List Nat) (dimms : List DimmId) (canaryBad : List Nat) (c : Chip) : Chip :=
  if c.pwr.mode ≠ .dawn || c.pwr.dawnStep ≠ 3 then c
  else
    let up := (List.range 12).filter (fun ch => trained.contains ch)
    let c := c.set R.MEM_STATUS_CH_UP (maskOf up)
    let bad := (List.range 12).filter (fun ch => !trained.contains ch || !dimmOk dimms ch)
    if !bad.isEmpty then
      let c := bad.foldl (fun d ch => d.event 0x2C2 ch 0 0 0 0) (c.set R.MEM_STATUS_TRAIN_FAIL 1)
      ({ c with pwr := { c.pwr with dawnStep := 4 } } : Chip).enterLoaderOnly 3 0
    else
      let lost := c.pwr.coldDawn || !c.mem.contentKept || c.mem.dimms != dimms || !canaryBad.isEmpty
      let d := dimms.headD ⟨0, 0, 0⟩
      let gib := d.gib
      let c := c.setAll [(R.MEM_INFO_CH_GIB, gib), (R.MEM_INFO_RANKS, d.ranks), (R.MEM_INFO_MTS, c.pwr.plan.ddr), (R.MEM_INFO_TOTAL_GIB, 12 * gib)]
      let c := { c with
        pwr := { c.pwr with dawnStep := 4 }
        mem := { c.mem with gib := 12 * gib, opened := true, contentKept := true, dimms := dimms, selfRefresh := false } }
      if lost then
        let c := if c.kcf.valid.isSome then (({ c with kcf := {} } : Chip).set R.KCF_STATUS_STATE 0).set R.KCF_SERIAL_STAGED_SERIAL 0 else c
        let c : Chip := { c with dram := [], mem := { c.mem with poisoned := [] } }
        ((c.set R.MEM_STATUS_CONTENT_LOST 1).emptyFilter).event 0x2C4 (canaryBad.headD 0) 0 0 0 0
      else c

/-- DIMM_SUPPLY_LOSS (R479): the content is destroyed; memory serves nothing until the next Dawn initialises it. -/
def dimmSupplyLoss (c : Chip) : Chip :=
  { c with dram := [], mem := { c.mem with contentKept := false, opened := false, poisoned := [], sets := [], evict := [], snoops := [] } }

/-- CE_HOUR_WINDOW (R491). -/
def ceHourWindow (ch : Nat) (c : Chip) : Chip :=
  if ch < 12 && decide (c.ceCount ch < c.get R.MEM_CTRL_CE_LIMIT) then c.set (R.MEM_CH_STATUS_CE_HIGH ch) 0 else c

-- EXEC cacheAccess coreWritebackArrive snoopWb evictionWriteAccepted patrolScrub dimmTemperatureReading wayPowerDown waySweepDone wayPowerUp memCntClr dimmSupplyLoss dramTrainingDone ceHourWindow

/-- CACHE_ACCESS (R484). -/
def execCacheAccess (who : MemAgent) (acc : MemAccess) (addr : Nat) (snooped : List (Nat × List Byte)) (crosses : Bool) (queued : Nat) (dram : EccIn) (sram : EccIn) (prefetch : EccIn) (s : State) : Host.Outcome State Fault Refusal :=
  s.runAwake true (cacheAccess who acc addr snooped crosses queued dram sram prefetch)

/-- CORE_WRITEBACK_ARRIVE (R487). -/
def execCoreWritebackArrive (core : Nat) (line : Nat) (data : List Byte) (s : State) : Host.Outcome State Fault Refusal :=
  s.runAwake true (coreWritebackArrive core line data)

/-- SNOOP_WB (R487). -/
def execSnoopWb (core : Nat) (line : Nat) (s : State) : Host.Outcome State Fault Refusal :=
  s.runAwake true (snoopWb core line)

/-- EVICTION_WRITE_ACCEPTED (R488). -/
def execEvictionWriteAccepted (line : Nat) (s : State) : Host.Outcome State Fault Refusal :=
  s.runAwake true (evictionWriteAccepted line)

/-- PATROL_SCRUB (R493). -/
def execPatrolScrub (found : EccIn) (s : State) : Host.Outcome State Fault Refusal :=
  s.runAwake true (patrolScrub found)

/-- DIMM_TEMPERATURE_READING (R477). -/
def execDimmTemperatureReading (ch : Nat) (temp : Nat) (s : State) : Host.Outcome State Fault Refusal :=
  s.runAwake true (dimmTemperatureReading ch temp)

/-- POWER_DOWN (R490). -/
def execWayPowerDown (way : Nat) (byHost : Bool) (s : State) : Host.Outcome State Fault Refusal :=
  s.runBar2 true byHost R.MEM_WAY_CMD_CMD (wayPowerDown way byHost)

/-- WAY_SWEEP_DONE (R490). -/
def execWaySweepDone (way : Nat) (snooped : List (Nat × List Byte)) (s : State) : Host.Outcome State Fault Refusal :=
  s.runAwake true (waySweepDone way snooped)

/-- POWER_UP (R490). -/
def execWayPowerUp (way : Nat) (byHost : Bool) (s : State) : Host.Outcome State Fault Refusal :=
  s.runBar2 true byHost R.MEM_WAY_CMD_CMD (wayPowerUp way byHost)

/-- MEM_CNT_CLR (R495). -/
def execMemCntClr (s : State) : Host.Outcome State Fault Refusal :=
  s.runBar2 true true R.MEM_CNT_CLR_CLR memCntClr

/-- DIMM_SUPPLY_LOSS (R479). -/
def execDimmSupplyLoss (s : State) : Host.Outcome State Fault Refusal :=
  s.run true dimmSupplyLoss

/-- DRAM_TRAINING_DONE (R476). -/
def execDramTrainingDone (trained : List Nat) (dimms : List DimmId) (canaryBad : List Nat) (s : State) : Host.Outcome State Fault Refusal :=
  s.runAwake true (dramTrainingDone trained dimms canaryBad)

/-- CE_HOUR_WINDOW (R491). -/
def execCeHourWindow (ch : Nat) (s : State) : Host.Outcome State Fault Refusal :=
  s.runAwake true (ceHourWindow ch)

-- END EXEC

end Sys2Proof.Machine
end

