-- ==== Sys2Proof/Machine/Power.lean ====
section
/-!
DEFINITION. The Nightwatch, the pins, the flush, Dusk, the wake sources and the thermal governor (R28, R170, R171, R496 to R519, R602 to
R609).
-/
namespace Sys2Proof.Machine

/-! ### The Nightwatch -/

/-- The extra nanosecond of a tick: 37 ticks of every 64 take it, and which they are is free (R28, log entry 4). -/
def Chip.tickExtra (c : Chip) : Nat :=
  let left := 64 - c.pwr.nightTicks
  let need := 37 - c.pwr.nightExtra
  if need = 0 then 0 else if left ≤ need then 1 else c.freeNow % 2

/-- NIGHTWATCH_TICK (R28): in Night, and while the head holds itself in reset. -/
def nightwatchTick (c : Chip) : Chip :=
  if c.pwr.mode ≠ .night && c.pwr.mode ≠ .held then c
  else
    let x := c.tickExtra
    let t := c.pwr.nightTicks + 1
    let ms := if c.pwr.mode = .night then (c.now + 30517 + x - c.pwr.nightAt) / 1000000 - (c.now - c.pwr.nightAt) / 1000000 else 0
    let c := { c.useFree with pwr := { c.pwr with nightTicks := t % 64, nightExtra := if t = 64 then 0 else c.pwr.nightExtra + x } }
    (c.bump R.GLB_TIME_TIME (30517 + x)).bump R.PWR_CNT_NIGHT_MS_NIGHT_MS ms

/-- POR_N_ASSERT (R606). -/
def porNAssert (c : Chip) : Chip := let c := c.coldReset; { c with pwr := { c.pwr with porN := false, pwrReq := false } }

/-- NIGHTWATCH_SUPPLY_LOSS (R547). -/
def nightwatchSupplyLoss (c : Chip) : Chip := let c := c.coldReset; { c with pwr := { c.pwr with pwrReq := false } }

/-- CRYSTAL_RUNNING (R602, R508). -/
def crystalRunning (c : Chip) : Chip :=
  if c.pwr.mode ≠ .coldReset then c
  else
    let c := { c with pwr := { c.pwr with porN := true } }
    if c.pwr.highest < -40 then { c with pwr := { c.pwr with wakeHeld := true } } else c.beginDawn true

/-- HEAD_SEL_SAMPLE (R607): once after a cold reset. -/
def headSelSample (pos : Bool) (c : Chip) : Chip :=
  if c.pwr.sampled then c else ({ c with pwr := { c.pwr with sampled := true } } : Chip).setFlag R.GLB_HEAD_POS pos

/-- NIGHTWATCH_SENSOR_CHECK (R508, R517). -/
def nightwatchSensorCheck (highest : Int) (c : Chip) : Chip :=
  if c.awake then c
  else
    let c := { c with pwr := { c.pwr with highest := highest } }
    if !c.pwr.wakeHeld || decide (highest < -40) then c
    else if c.pwr.mode = .coldReset then c.beginDawn true
    else
      let own := c.get R.PWR_WAKE_CAUSE_CAUSE / 4 != 0 && !c.bit R.PWR_WAKE_CAUSE_CAUSE 0 && !c.bit R.PWR_WAKE_CAUSE_CAUSE 1
      let link := if c.epc.perstLow then LinkState.down else .training
      (({ c with epc := { c.epc with link := link } } : Chip).driveWake (if own then 2 else 0)).beginDawn false

/-! ### Resets by pin -/

/-- SYS_RST_N_ASSERT (R548, R606). -/
def sysRstNAssert (c : Chip) : Chip :=
  match c.pwr.mode with
  | .coldReset => c
  | .night => c.warmReset
  | .held => match c.pwr.hold with
    | .trip => if c.pwr.highest < 125 then c.warmReset else c
    | .flushed | .rom => c.warmReset
    | _ => c
  | _ => if c.mayFlush && (c.isDay || c.ing.writes.any (·.exposed) || decide (0 < c.unvaulted)) then c.startFlush 1 else c.warmReset

/-- RESET_WARM (R548): accepted only while the head is drained (R525). -/
def Chip.drained (c : Chip) : Bool :=
  c.get R.PWR_STATUS_PHASE == 5 || c.on R.GLB_STATUS_LOADER_ONLY || !c.on R.GLB_STATUS_IMAGE_ACTIVE

/-- A refused BOOT command. -/
def Chip.bootRefuse (c : Chip) : Chip := (c.set R.BOOT_STATUS_REFUSED 1).refusedCommand R.BOOT_CMD_CMD

/-- BOOT_CMD RESET_WARM (R548). -/
def resetWarm (c : Chip) : Chip := if c.drained then c.warmReset else c.bootRefuse

/-- PWRGD_RISE (R603, R605). -/
def pwrgdRise (c : Chip) : Chip :=
  let c := { c with pwr := { c.pwr with pwrgd := true } }
  if c.pwr.mode = .dawn && c.pwr.dawnStep = 1 then if c.pwr.pwrReq then c.startPlls else c
  else if c.pwr.mode = .held && c.pwr.hold = .pwrgd then c.beginDawn false
  else c

/-- PWRGD_FALL (R605): a head fault that keeps no DRAM content; a fourth within an hour holds the head (R592). -/
def pwrgdFall (c : Chip) : Chip :=
  let was := c.pwr.pwrgd
  let c := { c with pwr := { c.pwr with pwrgd := false } }
  if !c.pwr.pwrReq || !was then c
  else if !c.awake then { c with mem := { c.mem with contentKept := false } }
  else
    let cause := c.freeNow
    let hadPeer := c.zbl.state == .inService
    let c := (c.useFree.writeFallback (c.record 0x002 0 0 cause 0 0)).goQuiet
    let c := if hadPeer then { c with ing := { c.ing with vault := { c.ing.vault with mark := .superseded } } } else c
    let times := (c.now :: c.pwr.faultTimes).filter (fun t => decide (c.now < t + 3600000000000))
    let fourth := decide (4 ≤ times.length)
    let c := (c.resetBlocks).holdReset (if fourth then .faults else .pwrgd) fourth
    { c with
      mem := { c.mem with contentKept := false, opened := false }
      cpe := { c.cpe with instPending := true }
      pwr := { c.pwr with faultTimes := times, faultCause := cause + 1 } }

/-! ### Hold-up and the flush -/

/-- PWR_RESULT set with a code, and its message (Table 16-9). -/
def Chip.pwrEnd (c : Chip) (code : Nat) : Chip :=
  c.postResult R.PWR_RESULT_VALID [(R.PWR_RESULT_CODE, code)]

/-- Dusk ends and the head is in Day again. -/
def Chip.backToDay (c : Chip) : Chip := ({ c with pwr := { c.pwr with mode := .day } } : Chip).set R.PWR_STATUS_PHASE 0

/-- HOLDUP_N_FALL (R170, R171, R506). -/
def holdupNFall (c : Chip) : Chip :=
  let c := { c with pwr := { c.pwr with holdupN := false, holdupAt := none } }
  if !c.mayFlush then c
  else
    let c := if c.pwr.mode = .dusk then c.backToDay.pwrEnd 2 else c
    let c := if c.pwr.flushing && c.ing.flushSealed then { c with pwr := { c.pwr with flushing := false } } else c
    c.startFlush 0

/-- HOLDUP_N_RISE (R171, R609). -/
def holdupNRise (c : Chip) : Chip := { c with pwr := { c.pwr with holdupN := true, holdupAt := if c.pwr.holdupN then c.pwr.holdupAt else some c.now } }

/-- Whether HOLDUP_N is high and has been for 1 ms. -/
def Chip.holdupGood (c : Chip) : Bool := c.pwr.holdupN && (match c.pwr.holdupAt with
  | some t => decide (t + 1000000 ≤ c.now)
  | none => true)

/-- R415: what a head that departs sends last: DEPART with the strings it releases. -/
def Chip.sendDepart (c : Chip) : Chip :=
  if !c.peerIn then c
  else
    let c := (c.sendAck 0).notice 4 c.ownedStrings
    (((List.range 16).filter c.ownsStr).foldl (fun d s => d.disownString s) c).breakSession

/-- FLUSH_SEAL (R170 step 7, R171, R517, R548). -/
def flushSeal (c : Chip) : Chip :=
  if !c.pwr.flushing || c.ing.flushSealed then c
  else
    let c := c.sealVault
    if c.pwr.afterFlush = 0 && c.pwr.holdupN then c
    else
      let c := c.sendDepart
      match c.pwr.afterFlush with
      | 0 => c.holdReset .flushed false
      | 1 => c.warmReset
      | _ => c.holdReset .trip true

/-- HOLDUP_STABLE (R171): the flush's image superseded, and the head goes on in Day. -/
def holdupStable (c : Chip) : Chip :=
  if !c.pwr.flushing || !c.ing.flushSealed || c.pwr.afterFlush ≠ 0 || !c.holdupGood then c
  else
    let halted := c.pwr.flushHalted
    let c := { c with
      ing := { c.ing with vault := { mark := .live }, fetchStopped := c.zbl.state == .yielded, noCompletions := false, flushStart := none, flushSealed := false }
      pwr := { c.pwr with flushing := false, flushHalted := [] } }
    let c := (List.range 16).foldl (fun (d : Chip) s => d.modStrg s (fun x => { x with pf := x.pf && d.zbl.pfailSeen })) c
    let c := (halted.filter (fun k => (c.clusAt (k / 8)).state == .inService && (c.engAt k).state == .halted)).foldl
      (fun (d : Chip) k => d.modEng k (fun e => { e with state := .running })) c
    c.completeWrites.resumePosts

/-! ### Dusk -/

/-- A refused PWR command. -/
def Chip.pwrRefuse (c : Chip) : Chip := (c.set R.PWR_STATUS_REFUSED 1).refusedCommand R.PWR_CMD_CMD

/-- R503: pauses rebuild and reshape as at a cohort switch. -/
def Chip.pauseReshape (c : Chip) : Chip :=
  match c.rde.reshape with
  | some r => if r.running && !(c.get R.RDE_RESHAPE_STATUS_STATE = 0) then c.set R.RDE_RESHAPE_STATUS_STATE 4 else c
  | none => c

/-- Every open segment closed (R157). -/
def Chip.closeSegs (c : Chip) : Chip := (c.ing.segs.map (·.id)).foldl (fun d s => d.closeSeg s) c

/-- R502, R503: a Dusk that is wanted begins, unless a self-test or a cluster pass holds it. -/
def Chip.startDusk (c : Chip) : Chip :=
  if !c.pwr.duskHeld || !c.isDay then c
  else
    let test := c.nvm.selfTest.isSome
    let pass := c.kcfState == 7
    let c := (c.setFlag R.PWR_STATUS_HELD_TEST test).setFlag R.PWR_STATUS_HELD_KCF pass
    if test || pass then c
    else
      let c := ({ c with pwr := { c.pwr with mode := .dusk, duskHeld := false } } : Chip).set R.PWR_STATUS_PHASE 1
      let c := (c.kcfAtDusk.closeSegs).pauseReshape
      if c.otherImage then c.asyncEvent 0 2 1 3 else c

/-- PWR_DUSK (R501, R502). -/
def pwrDusk (c : Chip) : Chip :=
  if !c.isDay then c.pwrRefuse
  else (({ c with pwr := { c.pwr with duskHeld := true } } : Chip).startOp R.PWR_RESULT_VALID).startDusk

/-- PWR_CANCEL (R505). -/
def pwrCancel (c : Chip) : Chip :=
  let phase := if c.pwr.mode = .dusk then c.get R.PWR_STATUS_PHASE else 0
  if phase = 1 then (c.startOp R.PWR_RESULT_VALID).backToDay.pwrEnd 1
  else if phase = 5 then
    let c := { c with pwr := { c.pwr with mode := .dawn, dawnStep := 6, cancelled := true } }
    (c.startOp R.PWR_RESULT_VALID).set R.PWR_STATUS_PHASE 0
  else c.pwrRefuse

/-- HOSTLESS_TIMEOUT (R501). -/
def hostlessTimeout (c : Chip) : Chip :=
  let s := c.get R.PWR_CTRL_HOSTLESS_S
  let due := c.pwr.hostLostAt.any (fun t => decide (t + s * 1000000000 ≤ c.now))
  if c.isDay && s != 0 && due then ({ c with pwr := { c.pwr with duskHeld := true } } : Chip).startDusk else c

/-- The Dusk phase, 0 outside Dusk. -/
def Chip.phase (c : Chip) : Nat := if c.pwr.mode = .dusk then c.get R.PWR_STATUS_PHASE else 0

/-- DUSK_DRAINED (R503, R59): every fetched command has completed, and an agreed switch has taken place. -/
def duskDrained (c : Chip) : Chip :=
  let busy := c.nvm.inflight.any (fun i => i.opc != 0x0C || !i.admin) || c.epc.xfers.any (fun x => match x.purpose with
    | .entryFetch .. => true
    | _ => false)
  if c.phase ≠ 1 || busy || c.kcfState = 6 || c.kcfState = 7 then c
  else
    let c := c.closeSegs
    let c := c.ing.stripes.foldl (fun d os => d.sealStripe os os.strips) c
    ({ c with pwr := { c.pwr with duskEpoch := c.epoch } } : Chip).set R.PWR_STATUS_PHASE 2

/-- Whether the Midnight that closes an epoch has completed. -/
def Chip.closedAndDone (c : Chip) (e : Nat) : Bool := decide (e < c.epoch) && c.zbl.epochs.all (fun x => decide (e < x.epoch) || x.completed)

/-- Phase 3: strings given to a peer in service, or the awake cohorts put to sleep. -/
def Chip.beginHandover (c : Chip) : Chip :=
  if c.peerIn then
    let asked := fun (s : Nat) => c.zbl.proposals.any (fun a => match a.body with
      | .owner x _ => x == s
      | _ => false)
    ((List.range 16).filter (fun s => c.ownsStr s && !asked s)).foldl (fun d s => (d.propose (.owner s (1 - d.pos))).1) c
  else
    let c := { c with ing := { c.ing with target := 8 }, ftm := { c.ftm with switchWanted := [] } }
    c.awakeCohorts.foldl (fun d k => d.cohortSleep k) c

/-- DUSK_FLUSHED (R503): nothing exposed, the journal vaulted, and the Midnight of the epoch that was open done. -/
def duskFlushed (c : Chip) : Chip :=
  if c.phase ≠ 2 || c.ing.writes.any (fun w => w.own && w.exposed) || 0 < c.unvaulted || !c.closedAndDone c.pwr.duskEpoch then c
  else (c.set R.PWR_STATUS_PHASE 3).beginHandover

/-- A head that has departed holds nothing of the peer's and waits to be readmitted (R415, R505). -/
def Chip.departed (c : Chip) : Chip :=
  let c := c.keepSchedule.sendDepart.dropPeer
  let c := (c.ing.writes.filter (fun w => !w.own)).foldl (fun d w => d.releaseWrite w.wid) c
  let c := { c with
    ing := { c.ing with fetchStopped := true }
    zbl := { c.zbl with state := .yielded, withdrawn := [], pairEpoch := none, rejoin := none, granules := [], total := 0, keeper := false,
                        bandLeases := [], retryAt := c.now + 1000000000 } }
  (c.dropRecords.setAnaBoth 3 3).setAll [(R.ZBL_STATUS_STATE, 0), (R.GLB_STATUS_PEER_UP, 0)]

/-- DUSK_HANDED_OVER (R503). -/
def duskHandedOver (c : Chip) : Chip :=
  if c.phase ≠ 3 then c
  else if c.peerIn then
    if c.ownedStrings = 0 then c.departed.set R.PWR_STATUS_PHASE 4 else c.beginHandover
  else if c.get R.FTM_STATUS_AWAKE = 0 then c.set R.PWR_STATUS_PHASE 4
  else c.beginHandover

/-- DUSK_CLOSED (R503, R504). -/
def duskClosed (c : Chip) : Chip :=
  if c.phase ≠ 4 then c
  else
    let c : Chip := { c with ing := { c.ing with vault := { mark := .closed } } }
    let c := ((List.range 16).filter c.ownsStr).foldl (fun d s => d.disownString s) c
    let c := (c.set R.PWR_STATUS_PHASE 5).pwrEnd 0
    if c.epc.link = .l0 then c else c.enterNight

/-- DEVICE_SELF_TEST (R136): a Dusk that a self-test held begins when it ends (R502). -/
def deviceSelfTest (id : CmdId) (stc : Nat) (c : Chip) : Chip := (testCommand id stc c).startDusk

/-- SELF_TEST_STEP (R137 to R139, R502). -/
def selfTestStep (failedUnit : Option (Nat × Nat)) (last : Bool) (c : Chip) : Chip := (testStep failedUnit last c).startDusk

/-- CLUSTER_DRAINED (R65, R455): a Dusk that the pass held begins when it ends (R502). -/
def clusterDrained (n : Nat) (ok : Bool) (c : Chip) : Chip := (passDrained n ok c).startDusk

/-- KCF_QUIESCE_TIMEOUT (R65, R455, R502). -/
def kcfQuiesceTimeout (n : Nat) (ok : Bool) (c : Chip) : Chip := (passTimeout n ok c).startDusk

/-! ### Wake sources -/

/-- WAKE_N_LOW (R498). -/
def wakeNLow (c : Chip) : Chip := c.wake 1 0

/-- ZBL_WAKE_TONE (R397). -/
def zblWakeTone (c : Chip) : Chip := c.wake 2 0

/-- ISF_WAKE_TONE (R384). -/
def isfWakeTone (str : Nat) (c : Chip) : Chip := c.wake 3 str

/-- NIGHT_WAKE_TIMER (R498): NIGHT_WAKE_S of the CLOCKS section held. -/
def nightWakeTimer (c : Chip) : Chip :=
  match c.pwr.nwClocks with
  | some (k, _, _) =>
    if c.pwr.mode = .night && k.nightWake != 0 && decide (c.pwr.nightAt + k.nightWake * 1000000000 ≤ c.now) then c.wake 4 0 else c
  | none => c

/-- I3C_PRIVATE_WRITE (R498, R614): the target has an address only once ENTDAA gave it one. -/
def i3cPrivateWrite (c : Chip) : Chip := if c.pwr.i3c.isSome then c.wake 5 0 else c

/-- I3C_ENTDAA (R614). -/
def i3cEntdaa (addr : Nat) (c : Chip) : Chip := { c with pwr := { c.pwr with i3c := some (addr % 128) } }

/-! ### Gating, temperature and power -/

/-- Whether a clock domain's units are idle with nothing queued (R515): clusters, and the accelerators of Table 16-6. -/
def Chip.domainIdle (c : Chip) (d : Nat) : Bool :=
  let block := fun (cores : List Nat) (busy : List (Option Nat)) => busy.all (fun o => match o with
    | some k => !cores.contains k
    | none => false)
  if d < 24 then
    (engsOf d).all (fun k => (c.engAt k).state == .waiting && (c.engAt k).queued.isNone) && (c.clusAt d).jobs.all (fun j => j.state == .ended)
  else if d < 28 then block (upFrom (8 * (d - 24)) 8) (c.dge.jobs.map (·.core))
  else if d < 36 then block (upFrom (8 * (d - 28)) 8) (c.cpe.jobs.map (·.core))
  else if d < 42 then block (upFrom (8 * (d - 36)) 8) ((c.cmp.jobs.filter (fun j => compresses j.op)).map (·.core))
  else if d < 48 then block (upFrom (8 * (d - 42)) 8) ((c.cmp.jobs.filter (fun j => !compresses j.op)).map (·.core))
  else if d < 56 then block [d - 48] (c.rde.jobs.map (·.unit))
  else false

/-- CLUSTER_GATE_IDLE (R515): a domain found idle for the first time starts to count; one idle for GATE_US since then has its clock stopped. -/
def clusterGateIdle (domain : Nat) (c : Chip) : Chip :=
  if !c.domainIdle domain then { c with pwr := { c.pwr with idleAt := c.pwr.idleAt.filter (·.1 != domain) } }
  else if c.pwr.gated.contains domain then c
  else match c.pwr.idleAt.find? (·.1 == domain) with
    | none => { c with pwr := { c.pwr with idleAt := (domain, c.now) :: c.pwr.idleAt } }
    | some e =>
      if c.now < e.2 + c.get R.PWR_CTRL_GATE_US * 1000 then c
      else { c with pwr := { c.pwr with gated := domain :: c.pwr.gated } }

/-- The cap in force (R516, R518): the lower of the two, THERMAL_CAP while it is below CLUSTER_MHZ, and the milliseconds it has been so. -/
def Chip.setCap (c : Chip) (thermal power : Nat) : Chip :=
  let cap := min thermal power
  let low := decide (cap < c.pwr.plan.cluster)
  let ms := match c.pwr.capSince with
    | some t => (c.now - t) / 1000000
    | none => 0
  let since := match c.pwr.capSince with
    | some t => if low then some (t + ms * 1000000) else none
    | none => if low then some c.now else none
  let c := { c with pwr := { c.pwr with thermalCap := thermal, powerCap := power, capSince := since } }
  ((c.set R.PWR_THERM_CAP_MHZ cap).setFlag R.GLB_STATUS_THERMAL_CAP low).bump R.PWR_CNT_CAP_MS_CAP_MS ms

/-- A cap one step lower, to at least 500 MHz. -/
def capDown (cap : Nat) : Nat := max 500 (cap - 100)

/-- A cap one step higher, up to CLUSTER_MHZ. -/
def capUp (cap plan : Nat) : Nat := if cap < plan then min (cap + 100) plan else cap

/-- R123: a function's temperature thresholds (Feature 0x04), crossed between two readings in kelvin. -/
def Chip.tempCrossed (c : Chip) (fn was now : Nat) : Bool :=
  let k := c.ctrl fn
  (decide (was < k.tempOver) && decide (k.tempOver ≤ now)) || (decide (k.tempUnder < was) && decide (now ≤ k.tempUnder))

/-- THERMAL_SAMPLE (R516). -/
def thermalSample (temps : List Int) (c : Chip) : Chip :=
  match temps with
  | [] => c
  | t0 :: rest =>
    let high := rest.foldl max t0
    let sensor := temps.idxOf high
    let was := c.kelvin
    let c := { c with pwr := { c.pwr with highest := high } }
    let warn := decide ((c.get R.PWR_THERM_CTRL_WARN : Int) ≤ high)
    let c := c.setAll [(R.PWR_THERM_TEMP, (BitVec.ofInt 9 high).toNat), (R.PWR_THERM_SENSOR, sensor)]
    let c := if warn && !c.pwr.warned then c.event 0x300 sensor 0 0 0 0 else c
    let c := ((c.nvm.ctrls.map (·.1)).filter (fun fn => c.tempCrossed fn was c.kelvin)).foldl (fun d fn => d.asyncEvent fn 1 1 2) c
    let hot := if 150 < high then some (c.pwr.hotSince.getD c.now) else none
    let c : Chip := { c with pwr := { c.pwr with warned := warn, hotSince := hot } }
    if decide (135 < high) && decide (c.pwr.capAt + 1000000 ≤ c.now) then
      ({ c with pwr := { c.pwr with capAt := c.now } } : Chip).setCap (capDown c.pwr.thermalCap) c.pwr.powerCap
    else if decide (high ≤ 132) && decide (c.pwr.capAt + 10000000 ≤ c.now) then
      ({ c with pwr := { c.pwr with capAt := c.now } } : Chip).setCap (capUp c.pwr.thermalCap c.pwr.plan.cluster) c.pwr.powerCap
    else c.setCap c.pwr.thermalCap c.pwr.powerCap

/-- THERMAL_TRIP (R516, R517): the flush of Table 5-6 from step 2, or the hold at once where there is nothing to flush. -/
def thermalTrip (c : Chip) : Chip :=
  if c.pwr.tripped || !c.pwr.hotSince.any (fun t => decide (t + 10000000 ≤ c.now)) then c
  else
    let c := c.writeNow (c.record 0x301 (c.get R.PWR_THERM_SENSOR) 0 0 0 0)
    let c := { c with pwr := { c.pwr with tripped := true } }
    if c.mayFlush then c.startFlush 2 else c.holdReset .trip true

/-- POWER_ESTIMATE (R518). -/
def powerEstimate (watts : Nat) (c : Chip) : Chip :=
  let limit := c.get R.PWR_CTRL_PCAP_W
  if limit = 240 then c.setCap c.pwr.thermalCap 2000
  else if limit < watts && decide (c.pwr.powerAt + 1000000 ≤ c.now) then
    ({ c with pwr := { c.pwr with powerAt := c.now } } : Chip).setCap c.pwr.thermalCap (capDown c.pwr.powerCap)
  else if watts * 100 < limit * 95 && decide (c.pwr.powerAt + 10000000 ≤ c.now) then
    ({ c with pwr := { c.pwr with powerAt := c.now } } : Chip).setCap c.pwr.thermalCap (capUp c.pwr.powerCap c.pwr.plan.cluster)
  else c

/-- PLL_LOSS_OF_LOCK (R593): a cluster PLL fails its six clusters and is relocked; another core PLL is a head fault. -/
def pllLossOfLock (pll : Nat) (c : Chip) : Chip :=
  if !c.inService || 10 ≤ pll || !c.bit R.PWR_PLL_LOCK pll then c
  else
    let c := (c.lower R.PWR_PLL_LOCK pll).event 0x302 pll 0 0 0 0
    if 2 ≤ pll && pll ≤ 5 then
      let c := (upFrom (6 * (pll - 2)) 6).foldl (fun d n => if (d.clusAt n).state == .inService then (d.stopCluster n).failCluster n else d) c
      let c := c.checkPools
      { c with pwr := { c.pwr with pllAt := Sparse.set 0 c.pwr.pllAt pll c.now, pllTries := Sparse.set 0 c.pwr.pllTries pll 0 } }
    else c.ownFault

/-- PWR_CNT_CLR (R519). -/
def pwrCntClr (c : Chip) : Chip :=
  c.clearAll [R.PWR_CNT_NIGHTS_NIGHTS, R.PWR_CNT_NIGHT_MS_NIGHT_MS, R.PWR_CNT_CAP_MS_CAP_MS, R.PWR_CNT_COHORT_WAKES_COHORT_WAKES,
    R.PWR_CNT_SHELF_TMO_SHELF_TMO, R.PWR_CNT_TRIPS_TRIPS]

-- EXEC nightwatchTick porNAssert nightwatchSupplyLoss crystalRunning headSelSample nightwatchSensorCheck sysRstNAssert resetWarm pwrgdRise pwrgdFall holdupNFall holdupNRise flushSeal holdupStable pwrDusk pwrCancel hostlessTimeout duskDrained duskFlushed duskHandedOver duskClosed deviceSelfTest selfTestStep clusterDrained kcfQuiesceTimeout wakeNLow zblWakeTone isfWakeTone nightWakeTimer i3cPrivateWrite i3cEntdaa clusterGateIdle thermalSample thermalTrip powerEstimate pllLossOfLock pwrCntClr

/-- NIGHTWATCH_TICK (R28). -/
def execNightwatchTick (s : State) : Host.Outcome State Fault Refusal :=
  s.run true nightwatchTick

/-- POR_N_ASSERT (R606). -/
def execPorNAssert (s : State) : Host.Outcome State Fault Refusal :=
  s.run true porNAssert

/-- NIGHTWATCH_SUPPLY_LOSS (R547). -/
def execNightwatchSupplyLoss (s : State) : Host.Outcome State Fault Refusal :=
  s.run true nightwatchSupplyLoss

/-- CRYSTAL_RUNNING (R602). -/
def execCrystalRunning (s : State) : Host.Outcome State Fault Refusal :=
  s.run true crystalRunning

/-- HEAD_SEL_SAMPLE (R607). -/
def execHeadSelSample (pos : Bool) (s : State) : Host.Outcome State Fault Refusal :=
  s.run true (headSelSample pos)

/-- NIGHTWATCH_SENSOR_CHECK (R508). -/
def execNightwatchSensorCheck (highest : Int) (s : State) : Host.Outcome State Fault Refusal :=
  s.run true (nightwatchSensorCheck highest)

/-- SYS_RST_N_ASSERT (R606). -/
def execSysRstNAssert (s : State) : Host.Outcome State Fault Refusal :=
  s.run true sysRstNAssert

/-- RESET_WARM (R548). -/
def execResetWarm (s : State) : Host.Outcome State Fault Refusal :=
  s.runBar2 true true R.BOOT_CMD_CMD resetWarm

/-- PWRGD_RISE (R603). -/
def execPwrgdRise (s : State) : Host.Outcome State Fault Refusal :=
  s.run true pwrgdRise

/-- PWRGD_FALL (R605). -/
def execPwrgdFall (s : State) : Host.Outcome State Fault Refusal :=
  s.run true pwrgdFall

/-- HOLDUP_N_FALL (R170). -/
def execHoldupNFall (s : State) : Host.Outcome State Fault Refusal :=
  s.run true holdupNFall

/-- HOLDUP_N_RISE (R171). -/
def execHoldupNRise (s : State) : Host.Outcome State Fault Refusal :=
  s.run true holdupNRise

/-- FLUSH_SEAL (R170). -/
def execFlushSeal (s : State) : Host.Outcome State Fault Refusal :=
  s.runAwake true flushSeal

/-- HOLDUP_STABLE (R171). -/
def execHoldupStable (s : State) : Host.Outcome State Fault Refusal :=
  s.runAwake true holdupStable

/-- DUSK (R501). -/
def execPwrDusk (s : State) : Host.Outcome State Fault Refusal :=
  s.runBar2 true true R.PWR_CMD_CMD pwrDusk

/-- CANCEL (R505). -/
def execPwrCancel (s : State) : Host.Outcome State Fault Refusal :=
  s.runBar2 true true R.PWR_CMD_CMD pwrCancel

/-- HOSTLESS_TIMEOUT (R501). -/
def execHostlessTimeout (s : State) : Host.Outcome State Fault Refusal :=
  s.runAwake true hostlessTimeout

/-- DUSK_DRAINED (R503). -/
def execDuskDrained (s : State) : Host.Outcome State Fault Refusal :=
  s.runAwake true duskDrained

/-- DUSK_FLUSHED (R503). -/
def execDuskFlushed (s : State) : Host.Outcome State Fault Refusal :=
  s.runAwake true duskFlushed

/-- DUSK_HANDED_OVER (R503). -/
def execDuskHandedOver (s : State) : Host.Outcome State Fault Refusal :=
  s.runAwake true duskHandedOver

/-- DUSK_CLOSED (R503). -/
def execDuskClosed (s : State) : Host.Outcome State Fault Refusal :=
  s.runAwake true duskClosed

/-- DEVICE_SELF_TEST (R136). -/
def execDeviceSelfTest (id : CmdId) (stc : Nat) (s : State) : Host.Outcome State Fault Refusal :=
  s.runAwake (id.wf) (deviceSelfTest id stc)

/-- SELF_TEST_STEP (R137). -/
def execSelfTestStep (failedUnit : Option (Nat × Nat)) (last : Bool) (s : State) : Host.Outcome State Fault Refusal :=
  s.runAwake true (selfTestStep failedUnit last)

/-- CLUSTER_DRAINED (R65). -/
def execClusterDrained (n : Cluster) (ok : Bool) (s : State) : Host.Outcome State Fault Refusal :=
  s.runAwake (decide (n < 24)) (clusterDrained n ok)

/-- KCF_QUIESCE_TIMEOUT (R65). -/
def execKcfQuiesceTimeout (n : Cluster) (ok : Bool) (s : State) : Host.Outcome State Fault Refusal :=
  s.runAwake (decide (n < 24)) (kcfQuiesceTimeout n ok)

/-- WAKE_N_LOW (R498). -/
def execWakeNLow (s : State) : Host.Outcome State Fault Refusal :=
  s.run true wakeNLow

/-- ZBL_WAKE_TONE (R397). -/
def execZblWakeTone (s : State) : Host.Outcome State Fault Refusal :=
  s.run true zblWakeTone

/-- ISF_WAKE_TONE (R384). -/
def execIsfWakeTone (str : Str) (s : State) : Host.Outcome State Fault Refusal :=
  s.run (decide (str < 16)) (isfWakeTone str)

/-- NIGHT_WAKE_TIMER (R498). -/
def execNightWakeTimer (s : State) : Host.Outcome State Fault Refusal :=
  s.run true nightWakeTimer

/-- I3C_PRIVATE_WRITE (R498). -/
def execI3cPrivateWrite (s : State) : Host.Outcome State Fault Refusal :=
  s.run true i3cPrivateWrite

/-- I3C_ENTDAA (R614). -/
def execI3cEntdaa (addr : Nat) (s : State) : Host.Outcome State Fault Refusal :=
  s.runAwake true (i3cEntdaa addr)

/-- CLUSTER_GATE_IDLE (R515). -/
def execClusterGateIdle (domain : Nat) (s : State) : Host.Outcome State Fault Refusal :=
  s.runAwake true (clusterGateIdle domain)

/-- THERMAL_SAMPLE (R516). -/
def execThermalSample (temps : List Int) (s : State) : Host.Outcome State Fault Refusal :=
  s.runAwake true (thermalSample temps)

/-- THERMAL_TRIP (R517). -/
def execThermalTrip (s : State) : Host.Outcome State Fault Refusal :=
  s.runAwake true thermalTrip

/-- POWER_ESTIMATE (R518). -/
def execPowerEstimate (watts : Nat) (s : State) : Host.Outcome State Fault Refusal :=
  s.runAwake true (powerEstimate watts)

/-- PLL_LOSS_OF_LOCK (R593). -/
def execPllLossOfLock (pll : Nat) (s : State) : Host.Outcome State Fault Refusal :=
  s.runAwake true (pllLossOfLock pll)

/-- PWR_CNT_CLR (R519). -/
def execPwrCntClr (s : State) : Host.Outcome State Fault Refusal :=
  s.runBar2 true true R.PWR_CNT_CLR_CLR pwrCntClr

-- END EXEC

end Sys2Proof.Machine
end

