-- ==== Sys2Proof/Machine/Boot.lean ====
section
/-!
DEFINITION. The boot flash's firmware slot: checks, commit, confirmation, and recovery through the peer (R549 to R570).
-/
namespace Sys2Proof.Machine

/-! ### The checks of Table 18-4 -/

/-- The header of a firmware image (Table 18-3). -/
def fwHeaderOf (bs : List Byte) : FwHeader :=
  { length := numAt bs 8 4, serial := numAt bs 0x10 8, floor := numAt bs 0x18 8, writeGen := numAt bs 0x20 2, readMinGen := numAt bs 0x22 2,
    revision := numAt bs 0x24 8, hasLoader := bitOf (numAt bs 0xE 2) 0, loaderSerial := numAt bs 0x34 8 }

/-- Check 1: LENGTH within R552 and equal to the bytes present (`present`), MAGIC, FORMAT, reserved bytes 0. -/
def fwForm (bs : List Byte) (present : Bool) : Bool :=
  let n := numAt bs 8 4
  present && decide (512 ≤ n) && decide (n ≤ 0x2000000) && n % 4096 == 0 && numAt bs 0 4 == 0x49574643 && numAt bs 4 2 == 1 &&
  decide (numAt bs 0xE 2 < 2) && ((bs.drop 0x3C).take 196).all (· == 0#8) && ((bs.drop (n - 256 + 0xC8)).take 56).all (· == 0#8)

/-- The first failing check of an image, 0 for none (R553). The signature block is laid out as Table 2-12. -/
def Chip.checkFw (c : Chip) (bs : List Byte) (present : Bool) : Nat :=
  let h := fwHeaderOf bs
  let s := h.length - 256
  let key := numAt bs 0xD 1
  let ldr := (bs.drop (numAt bs 0x2C 4)).take (numAt bs 0x30 4)
  if !fwForm bs present then 1
  else if !(numAt bs 6 2 == 0x960 && decide (numAt bs 0xC 1 ≤ c.get R.GLB_REV_MAJOR)) then 2
  else if !(decide (key < 2) && !bitOf c.root.otp.fwKeyRevoke key &&
      beNat (sha384 ((bs.drop (s + 8)).take 96)) == Config.romHash key) then 3
  else if !(numAt bs s 2 == 1 && Config.ecdsaVerify (bigAt bs (s + 8) 48) (bigAt bs (s + 0x38) 48) (beNat (sha384 (bs.take s)))
      (bigAt bs (s + 0x68) 48) (bigAt bs (s + 0x98) 48)) then 4
  else if h.serial < c.root.mono.fwFloor then 5
  else if !(decide (h.readMinGen ≤ c.root.mono.awg) && decide (c.root.mono.awg ≤ h.writeGen)) then 6
  else if h.hasLoader && !(decide (numAt bs 0x30 4 ≤ 0x200000) && Config.loaderVerify ldr c.root.otp.fwKeyRevoke) then 7
  else 0

/-- BOOT_VERIFY. -/
def Chip.verifyFailed (c : Chip) (check source : Nat) : Chip := c.setAll [(R.BOOT_VERIFY_CHECK, check), (R.BOOT_VERIFY_SOURCE, source)]

/-- A write of the slot state table (R550). -/
def Chip.slotTable (c : Chip) (f : Boot → Boot) : Chip := { c with boot := f { c.boot with writeCount := c.boot.writeCount + 1 } }

/-- COMMIT_PENDING shows whether the slot holds an image other than the running one. -/
def Chip.showPending (c : Chip) : Chip := c.setFlag R.BOOT_STATUS_COMMIT_PENDING c.otherImage

/-! ### Download and commit -/

/-- Whether two ranges overlap. -/
def rangesMeet (a b : Nat × Nat) : Bool := decide (a.1 < b.1 + b.2) && decide (b.1 < a.1 + a.2)

/-- What refuses a piece of an image of `n` bytes at `ofs` (R559). -/
def Chip.downloadCheck (c : Chip) (ofs n : Nat) : Option Status :=
  if c.boot.writer.isSome || c.boot.commitWaiting.isSome then some (stat 0 0x0C true)
  else if n = 0 || n % 4096 != 0 || ofs % 4096 != 0 || decide (0x2000000 < ofs + n) then some stField
  else if c.boot.pieces.any (rangesMeet (ofs, n)) then some (stat 1 0x14 true)
  else none

/-- FIRMWARE_IMAGE_DOWNLOAD (R559): `n` bytes of an image at `ofs`. -/
def firmwareImageDownload (id : CmdId) (ofs n : Nat) (c : Chip) : Chip :=
  c.executeWith id true 0x11 n (fun c => (c.downloadCheck ofs n).map (fun st => c.finish id st)) (fun data c =>
    match c.downloadCheck ofs n with
    | some st => c.finish id st
    | none =>
      let b := { c.boot with download := Mem.write c.boot.download ofs data, pieces := c.boot.pieces ++ [(ofs, n)] }
      ({ c with boot := b } : Chip).finish id stOk)

/-- How far pieces reach without a gap from `f` on. -/
def reachOf (l : List (Nat × Nat)) : Nat → Nat → Nat
  | 0, f => f
  | k + 1, f => reachOf l k (l.foldl (fun m p => if p.1 ≤ f then max m (p.1 + p.2) else m) f)

/-- Whether pieces cover the bytes from 0 to `n`. -/
def covers (l : List (Nat × Nat)) (n : Nat) : Bool := decide (n ≤ reachOf l l.length 0)

/-- The slot written: FW_STATE 1 first (R561). -/
def Chip.beginSlotWrite (c : Chip) (w : FwWriter) (bs : List Byte) : Chip :=
  let c := c.slotTable (fun b => { b with fwState := 1, writer := some w, newHeader := fwHeaderOf bs, newBytes := Mem.write [] 0 bs })
  (c.set R.BOOT_STATUS_WRITING 1).showPending

/-- A commit's checks, and the beginning of its write (R561); the download buffer is emptied. -/
def Chip.runCommit (c : Chip) (id : CmdId) : Chip :=
  let n := leNat (Mem.read c.boot.download 8 4)
  let bs := Mem.read c.boot.download 0 (min n 0x2000000)
  let whole := covers c.boot.pieces n
  let c := { c with boot := { c.boot with download := [], pieces := [], commitWaiting := none } }
  match c.checkFw bs whole with
  | 0 => c.beginSlotWrite (.commit id) bs
  | k => (c.verifyFailed k 0).finish id (stat 1 0x07 true)

/-- R562, R569: the cases in which a commit is prohibited. -/
def Chip.commitProhibited (c : Chip) (peerUnconfirmed : Bool) : Bool :=
  (c.peerIn && peerUnconfirmed) || c.kcfState == 7 || c.lifecycle == 3 || c.lifecycle == 4 || c.root.debug != .closed ||
  c.boot.writer == some .heal

/-- FIRMWARE_COMMIT (R560 to R562). Whether the peer runs an unconfirmed firmware comes with the command. A commit waits for a KCF persist in
progress (R549). -/
def firmwareCommit (id : CmdId) (ca fs : Nat) (peerUnconfirmed : Bool) (c : Chip) : Chip :=
  c.execute id true 0x10 (fun _ c =>
    if ca != 1 && ca != 2 then c.finish id stField
    else if 1 < fs then c.finish id (stat 1 0x06 true)
    else if ca = 2 then
      if c.otherImage then c.finish id (stat 1 0x0B true)
      else if c.boot.fwState = 2 then c.finish id stOk
      else c.finish id (stat 1 0x07 true)
    else if c.commitProhibited peerUnconfirmed then c.finish id (stat 1 0x13 false)
    else if c.boot.writer.isSome || c.boot.commitWaiting.isSome then c.finish id (stat 0 0x0C true)
    else if c.kcfState = 9 then { c with boot := { c.boot with commitWaiting := some id } }
    else c.runCommit id)

/-- KCF_PERSIST_DONE (R57, R58, R549): a commit that waited goes on. -/
def kcfPersistDone (ok : Bool) (c : Chip) : Chip :=
  let c := persistDone ok c
  match c.boot.commitWaiting with
  | some id => if c.kcfState = 9 then c else c.runCommit id
  | none => c

/-- FW_SLOT_WRITE_DONE (R561, R568): the slot is read back; `ok` says that it agrees. -/
def fwSlotWriteDone (ok : Bool) (c : Chip) : Chip :=
  match c.boot.writer with
  | none => c
  | some w =>
    let heal := w == .heal
    let c := (c.setFlag R.BOOT_STATUS_WRITING (c.kcfState == 9)).set R.BOOT_STATUS_HEALING 0
    let c := if ok then
        (c.slotTable (fun b => { b with
          fwState := 2, fwSerial := b.newHeader.serial, attempts := 0, confirmed := heal, fwSlot := b.newBytes, fwHeader := b.newHeader })).bump
          R.BOOT_CNT_COMMITS_COMMITS 1
      else c.event 0x381 0 0 0 0 0
    let c : Chip := { c with boot := { c.boot with writer := none, newBytes := [], newHeader := {} } }
    let c := c.showPending
    match w with
    | .commit id => c.finish id (if ok then stat 1 0x0B true else stat 1 0x07 true)
    | .heal => if ok then (c.bump R.BOOT_CNT_HEALS_HEALS 1).warmReset else { c with boot := { c.boot with healOff := true } }

/-! ### Confirmation and the board record -/

/-- R565: the running firmware confirmed: the slot's flag, the floor, and a newer loader into the copy of lower serial. -/
def Chip.confirmFw (c : Chip) : Chip :=
  match c.boot.running with
  | none => c
  | some h =>
    let c := if c.boot.fwState = 2 && c.boot.fwSerial = h.serial then c.slotTable (fun b => { b with confirmed := true }) else c
    let c := if c.root.mono.fwFloor < h.floor then c.sealMono (fun m => { m with fwFloor := h.floor }) else c
    let c := if h.hasLoader && decide (max c.boot.loader0 c.boot.loader1 < h.loaderSerial) then
        { c with boot := if c.boot.loader1 < c.boot.loader0 then { c.boot with loader1 := h.loaderSerial } else { c.boot with loader0 := h.loaderSerial } }
      else c
    (c.set R.BOOT_STATUS_FW_PENDING 0).planAwg (if c.peerIn then c.zbl.peer.map (·.writeGen) else none)

/-- BOOT_RESULT set with a code. -/
def Chip.bootEnd (c : Chip) (code : Nat) : Chip := (c.startOp R.BOOT_RESULT_VALID).postResult R.BOOT_RESULT_VALID [(R.BOOT_RESULT_CODE, code)]

/-- BOOT_CONFIRM (R565): refused where no firmware runs. -/
def bootConfirm (c : Chip) : Chip :=
  if c.boot.running.isNone then c.bootRefuse
  else if c.on R.BOOT_STATUS_FW_PENDING then c.confirmFw.bootEnd 0
  else c.bootEnd 1

/-- CONFIRM_TIMEOUT (R565). -/
def confirmTimeout (c : Chip) : Chip :=
  let s := c.get R.BOOT_CTRL_CONFIRM_S
  if c.isDay && s != 0 && c.on R.BOOT_STATUS_FW_PENDING && decide (c.pwr.dayAt + s * 1000000000 ≤ c.now) then c.confirmFw else c

/-- SAVE_BOARD (R551): `ok` says that the write's read-back agrees; a record whose digest fails is absent. -/
def saveBoard (ok : Bool) (c : Chip) : Chip :=
  if c.lifecycle = 4 || c.root.debug != .closed then c.bootRefuse
  else if ok then
    let r : BoardRecord := ⟨c.get R.BOOT_BOARD_SSVID, c.get R.BOOT_BOARD_SSID, c.get R.BOOT_BOARD_SERIAL_SERIAL⟩
    ({ c with boot := { c.boot with boardRec := some r } } : Chip).bootEnd 0
  else (({ c with boot := { c.boot with boardRec := none } } : Chip).event 0x381 0 0 0 0 0).bootEnd 2

/-! ### Recovery through the peer -/

/-- FW_REQ (R567): a head that is sole or alone, with HEAL_PEER 1 and its slot confirmed, sends its image to a loader on channel M. -/
def fwReq (h : PeerHdr) (floor awg : Nat) (empty : Bool) (c : Chip) : Chip :=
  c.receive h (.fwReq floor awg empty) (fun c =>
    let loader := c.zbl.peer.any (fun m => m.state == 5)
    let may := (c.zbl.state == .sole || c.zbl.state == .alone) && c.on R.BOOT_CTRL_HEAL_PEER && c.boot.fwState == 2 && c.boot.confirmed
    if empty || !loader || !may || c.on R.GLB_STATUS_LOADER_ONLY then c
    else
      let n := c.boot.fwHeader.length
      let c := (List.range (ceilDiv n 4096)).foldl (fun d i =>
        d.peerSend 1 0 (.fwData (4096 * i) (Mem.read d.boot.fwSlot (4096 * i) (min 4096 (n - 4096 * i))))) c
      c.peerSend 1 0 (.fwEnd n c.boot.fwSerial))

/-- Whether a heal is under way at this loader. -/
def Chip.healing (c : Chip) : Bool := c.on R.GLB_STATUS_LOADER_ONLY && c.on R.BOOT_STATUS_HEALING && c.boot.writer != some .heal

/-- R569: a heal that finds a commit running is ended by FW_REQ with an empty body. -/
def Chip.endHeal (c : Chip) : Chip :=
  ({ (c.set R.BOOT_STATUS_HEALING 0) with boot := { c.boot with healBuf := [], healOff := true } } : Chip).peerSend 1 0
    (.fwReq c.root.mono.fwFloor c.root.mono.awg true)

/-- FW_DATA (R567). -/
def fwData (h : PeerHdr) (ofs : Nat) (data : List Byte) (c : Chip) : Chip :=
  c.receive h (.fwData ofs data) (fun c =>
    if !c.healing then c
    else if c.boot.writer.isSome then c.endHeal
    else if 4096 < data.length || decide (0x2000000 < ofs + data.length) then c
    else { c with boot := { c.boot with healBuf := Mem.write c.boot.healBuf ofs data, healPieces := (ofs, data.length) :: c.boot.healPieces } })

/-- FW_END (R568). -/
def fwEnd (h : PeerHdr) (length serial : Nat) (c : Chip) : Chip :=
  c.receive h (.fwEnd length serial) (fun c =>
    if !c.healing then c
    else if c.boot.writer.isSome then c.endHeal
    else
      let bs := Mem.read c.boot.healBuf 0 (min length 0x2000000)
      let whole := covers c.boot.healPieces length && numAt bs 8 4 == length
      let c := { c with boot := { c.boot with healBuf := [], healPieces := [] } }
      match c.checkFw bs whole with
      | 0 => c.beginSlotWrite .heal bs
      | k => ({ (c.verifyFailed k 2) with boot := { c.boot with healBad := some serial } } : Chip).set R.BOOT_STATUS_HEALING 0)

/-- BOOT_CNT_CLR (R570). -/
def bootCntClr (c : Chip) : Chip :=
  c.clearAll [R.BOOT_CNT_DAWNS_DAWNS, R.BOOT_CNT_LO_LOADER_ONLY, R.BOOT_CNT_COMMITS_COMMITS, R.BOOT_CNT_HEALS_HEALS]

-- EXEC firmwareImageDownload firmwareCommit kcfPersistDone fwSlotWriteDone bootConfirm confirmTimeout saveBoard fwReq fwData fwEnd bootCntClr

/-- FIRMWARE_IMAGE_DOWNLOAD (R559). -/
def execFirmwareImageDownload (id : CmdId) (ofs : Nat) (len : Nat) (s : State) : Host.Outcome State Fault Refusal :=
  s.runAwake (id.wf) (firmwareImageDownload id ofs len)

/-- FIRMWARE_COMMIT (R560). -/
def execFirmwareCommit (id : CmdId) (ca : Nat) (fs : Nat) (peerUnconfirmed : Bool) (s : State) : Host.Outcome State Fault Refusal :=
  s.runAwake (id.wf) (firmwareCommit id ca fs peerUnconfirmed)

/-- KCF_PERSIST_DONE (R57). -/
def execKcfPersistDone (ok : Bool) (s : State) : Host.Outcome State Fault Refusal :=
  s.runAwake true (kcfPersistDone ok)

/-- FW_SLOT_WRITE_DONE (R561). -/
def execFwSlotWriteDone (ok : Bool) (s : State) : Host.Outcome State Fault Refusal :=
  s.runAwake true (fwSlotWriteDone ok)

/-- CONFIRM (R565). -/
def execBootConfirm (s : State) : Host.Outcome State Fault Refusal :=
  s.runBar2 true true R.BOOT_CMD_CMD bootConfirm

/-- CONFIRM_TIMEOUT (R565). -/
def execConfirmTimeout (s : State) : Host.Outcome State Fault Refusal :=
  s.runAwake true confirmTimeout

/-- SAVE_BOARD (R551). -/
def execSaveBoard (ok : Bool) (s : State) : Host.Outcome State Fault Refusal :=
  s.runBar2 true true R.BOOT_CMD_CMD (saveBoard ok)

/-- FW_REQ (R567). -/
def execFwReq (h : PeerHdr) (floor : Nat) (awg : Nat) (empty : Bool) (s : State) : Host.Outcome State Fault Refusal :=
  s.runAwake true (fwReq h floor awg empty)

/-- FW_DATA (R567). -/
def execFwData (h : PeerHdr) (ofs : Nat) (data : List Byte) (s : State) : Host.Outcome State Fault Refusal :=
  s.runAwake true (fwData h ofs data)

/-- FW_END (R568). -/
def execFwEnd (h : PeerHdr) (length : Nat) (serial : Nat) (s : State) : Host.Outcome State Fault Refusal :=
  s.runAwake true (fwEnd h length serial)

/-- BOOT_CNT_CLR (R570). -/
def execBootCntClr (s : State) : Host.Outcome State Fault Refusal :=
  s.runBar2 true true R.BOOT_CNT_CLR_CLR bootCntClr

-- END EXEC

end Sys2Proof.Machine
end

