-- ==== Sys2Proof/Machine/Chains.lean ====
section
/-!
DEFINITION. The chain channels of DMA (chapter 14): walking chains, descriptors, bursts, interrupts, bus errors.
-/
namespace Sys2Proof.Machine

/-- A channel. -/
def Chip.chan (c : Chip) (ch : Nat) : DmaChan := Sparse.get {} c.dma.chans ch

/-- A channel changed. -/
def Chip.modChan (c : Chip) (ch : Nat) (f : DmaChan → DmaChan) : Chip :=
  { c with dma := { c.dma with chans := Sparse.set {} c.dma.chans ch (f (c.chan ch)) } }

/-- Whether host software owns a channel (R457). -/
def hostOwned (ch : Nat) : Bool := decide (ch < 24)

/-- R457: a write from BAR2 to a firmware-owned channel is discarded and recorded. -/
def Chip.refusedAccess (c : Chip) (ch : Nat) (reg : Fld) : Chip := c.event 0x014 3 reg.addr 0 ch 0

/-- A cause of a channel: its bit, OVERRUN for a HALF or FULL still set, and a message (R465). -/
def Chip.chanCause (c : Chip) (ch : Nat) (f : Fld) (overruns : Bool) : Chip :=
  let c := if overruns && c.on f then c.set (R.DMA_CH_STATUS_OVERRUN ch) 1 else c
  (c.set f 1).blockCause (R.DMA_CH_CTRL_IRQ_EN ch) (R.DMA_CH_CTRL_VECTOR ch)

/-- ERR raised (R465). -/
def Chip.chanErr (c : Chip) (ch : Nat) : Chip := c.chanCause ch (R.DMA_CH_STATUS_ERR ch) false

/-- Whether a DRAM range of a host-owned channel lies in the window (R458). -/
def Chip.inHostWindow (c : Chip) (addr n : Nat) : Bool :=
  decide (c.dma.hwBase ≤ addr) && decide (addr + n ≤ c.dma.hwBase + c.dma.hwLen)

/-- Whether a channel may reach a range of a space (R458). -/
def Chip.chanMay (c : Chip) (ch space addr n : Nat) : Bool :=
  space != 0 || !hostOwned ch || c.inHostWindow addr n

/-- Where in the firmware region a channel's reads of host memory arrive (log entry 95). -/
def Chip.chanBuf (c : Chip) (ch : Nat) (what : ChRead) : Nat :=
  c.dramSize - 0x3F00000 + 0x4000 * ch + (match what with
    | .source => 0
    | .second => 0x1000
    | .descriptor => 0x2000
    | .link => 0x2040)

/-- A channel's read of host memory: split and reassembled as the head's other reads are (R458, R70, R87). -/
def Chip.chanHostRead (c : Chip) (ch : Nat) (what : ChRead) (addr n : Nat) : Chip :=
  (c.modChan ch (fun x => { x with out := x.out ++ [what], got := x.got.filter (· != what) })).startRead 0 (.dmaChannel ch what) [(addr, n)]
    (c.chanBuf ch what)

/-- A channel's read has arrived whole (R88). -/
def Chip.chanArrived (c : Chip) (ch : Nat) (what : ChRead) : Chip :=
  c.modChan ch (fun x => { x with out := x.out.filter (· != what), got := x.got ++ [what] })

/-- A channel's reads of host memory dropped, those that have arrived with them. -/
def Chip.chanDropReads (c : Chip) (ch : Nat) : Chip :=
  (c.dropXfers (fun x => match x.purpose with
    | .dmaChannel k _ => k == ch
    | _ => false)).modChan ch (fun x => { x with out := [], got := [] })

/-- A read of a descriptor or of a LINK word issued; DB_PENDING is cleared at that instant (R462). -/
def Chip.chanRead (c : Chip) (ch : Nat) (phase : ChPhase) : Chip :=
  let c := (c.chanDropReads ch).modChan ch (fun x => { x with state := .running, phase := phase, dbPending := false })
  let x := c.chan ch
  if x.space = 1 then
    match phase with
    | .linking => c.chanHostRead ch .link (x.cur + 0x28) 8
    | _ => c.chanHostRead ch .descriptor x.cur 64
  else c

/-- A read that R462 makes again, counted. -/
def Chip.chanReread (c : Chip) (ch : Nat) : Chip :=
  (c.chanRead ch (if (c.chan ch).state == .waitDesc then .fetching else (c.chan ch).phase)).bump R.DMA_CNT_REREAD_REREAD 1

/-- Whether a re-read is owed: a doorbell rang and the channel waits (R462). -/
def DmaChan.owes (x : DmaChan) : Bool := x.dbPending && (x.state == .waitLink || x.state == .waitDesc)

/-- Bytes put in a space other than a line's; none reach host memory while no request may leave (R81, R458). -/
def Chip.putSpace (c : Chip) (space addr : Nat) (bs : List Byte) : Chip :=
  if space ≠ 1 then c.store addr bs
  else if !c.mayRequest 0 then c
  else
    ((splitBuf (c.mps 0) [(addr, bs.length)]).foldl (fun (p : Chip × List Byte) q =>
      (p.1.hostPost 0 q.1 (p.2.take q.2), p.2.drop q.2)) (c, bs)).1

/-- The status of a descriptor: BYTES and DIFF_OFS, RESULT and MATCH, and DONE last (R460, R36). -/
def Chip.descStatus (c : Chip) (ch result match_ bytes diff : Nat) : Chip :=
  let x := c.chan ch
  let c := c.putSpace x.space (x.cur + 0x34) (natLe bytes 4 ++ natLe diff 8)
  let c := c.putSpace x.space (x.cur + 0x31) (natLe result 1 ++ natLe match_ 1)
  c.putSpace x.space (x.cur + 0x30) [1#8]

/-- No difference found. -/
def noDiff : Nat := 0xFFFFFFFFFFFFFFFF

/-- A descriptor ends: its status, its count, RESULT and ERR where it is not OK, and FULL where asked (R465). -/
def Chip.endDesc (c : Chip) (ch result match_ bytes diff : Nat) : Chip :=
  let flags := ((c.chan ch).desc.map (·.flags)).getD 0
  let c := (c.descStatus ch result match_ bytes diff).bump R.DMA_CNT_DESC_DESC 1
  let c := if bitOf flags 1 then c.chanCause ch (R.DMA_CH_STATUS_FULL ch) true else c
  if result = 0 then c else (c.set (R.DMA_CH_STATUS_RESULT ch) result).chanErr ch

/-- R470: a descriptor error puts its channel in ERROR. -/
def Chip.descError (c : Chip) (ch result bytes : Nat) : Chip :=
  (c.endDesc ch result 0 bytes noDiff).modChan ch (fun x => { x with state := .error, desc := none })

/-- The request lines of Table 14-3: whether the line is a source, its largest burst, and whether the host may use it. -/
def lineInfo (line : Nat) : Option (Option Bool × Nat × Bool) :=
  match line with
  | 0 => some (some true, 256, true)
  | 1 => some (some true, 256, false)
  | 2 => some (some false, 256, false)
  | 3 => some (some true, 4096, false)
  | 4 => some (some false, 4096, false)
  | 8 => some (none, 4096, true)
  | _ => none

/-- A descriptor read from its 64 bytes (Table 14-1). -/
def parseDesc (bs : List Byte) : DmaDesc :=
  let v := fun o n => leNat ((bs.drop o).take n)
  let spaces := v 2 1
  let pace := v 3 1
  { op := v 0 1, flags := v 1 1, srcSpace := bitsOf spaces 0 2, dstSpace := bitsOf spaces 2 2,
    line := bitsOf pace 0 4, burst := [64, 256, 1024, 4096].getD (bitsOf pace 4 2) 64, paced := bitOf pace 7,
    len := v 4 4, src := v 8 8, dst := v 16 8,
    reservedBits := decide (8 ≤ v 1 1) || decide (16 ≤ spaces) || bitOf pace 6 || v 0x18 16 != 0 }

/-- Whether the pacing fields are allowed for a channel (R466). -/
def DmaDesc.paceOk (d : DmaDesc) (ch : Nat) : Bool :=
  match lineInfo d.line with
  | none => false
  | some (dir, largest, host) =>
    d.op == 1 && decide (d.burst ≤ largest) && (host || !hostOwned ch) &&
    match dir with
    | some true => d.srcSpace == 2 && decide (d.dstSpace < 2) && d.src == 0
    | some false => d.dstSpace == 2 && decide (d.srcSpace < 2) && d.dst == 0
    | none => decide (d.srcSpace < 2) && decide (d.dstSpace < 2)

/-- Whether source and destination overlap with DST not below SRC. -/
def DmaDesc.badOverlap (d : DmaDesc) : Bool :=
  d.op == 1 && d.srcSpace == d.dstSpace && d.srcSpace != 2 && decide (d.src ≤ d.dst) && decide (d.dst < d.src + d.len)

/-- The checks of R459 before a byte moves: the RESULT they end with, 0 for none. -/
def Chip.checkDesc (c : Chip) (ch : Nat) (d : DmaDesc) : Nat :=
  if d.op < 1 || 3 < d.op then 0x0B
  else if d.reservedBits || d.len = 0 || decide (0x1000000 < d.len) then 0x02
  else if d.dstSpace = 3 || (d.op != 2 && d.srcSpace == 3) then 0x02
  else if d.paced && !d.paceOk ch then 0x02
  else if !d.paced && (d.dstSpace == 2 || (d.op != 2 && d.srcSpace == 2)) then 0x02
  else if d.badOverlap then 0x02
  else if (d.op != 2 && !c.chanMay ch d.srcSpace d.src d.len) || !c.chanMay ch d.dstSpace d.dst d.len then 0x03
  else 0

/-- R81, R458: a channel holds while no request may leave for the PF and its next move would touch host memory: its chain's, or the burst's. -/
def Chip.chanHeld (c : Chip) (ch : Nat) : Bool :=
  !c.mayRequest 0 && ((c.chan ch).space == 1 || (c.chan ch).desc.any (fun d => d.dstSpace == 1 || (d.op != 2 && d.srcSpace == 1)))

/-- Whether a link may be followed: the descriptor it names lies in the chain's space, and in the window of a host-owned channel (Table 14-2). -/
def Chip.chanFollows (c : Chip) (ch space addr : Nat) : Bool := c.chanMay ch space addr 64 && (space != 0 || decide (addr + 64 ≤ c.dramSize))

/-- Whether a read that a channel wants is there: from head DRAM at once, from host memory once it has arrived. -/
def DmaChan.has (x : DmaChan) (space : Nat) (what : ChRead) : Bool := space != 1 || x.got.contains what

/-- Whether a burst runs in a channel: its reads are under way (R469). -/
def DmaChan.bursting (x : DmaChan) : Bool := x.phase == .moving && !(x.out.isEmpty && x.got.isEmpty)

/-- Whether a descriptor is in progress in a channel. -/
def DmaChan.inDesc (x : DmaChan) : Bool := x.desc.isSome && x.phase == .moving

/-- START (Table 14-5). -/
def Chip.chanStart (c : Chip) (ch : Nat) : Chip :=
  let head := c.get (R.DMA_CH_HEAD_HEAD ch)
  let space := c.get (R.DMA_CH_CTRL_CHAIN_SPACE ch)
  let c := c.modChan ch (fun x => { x with
    diffStop := false, cur := head, space := space, desc := none, moved := 0, remain := 0 })
  if head % 64 != 0 || !c.chanMay ch space head 64 then
    ((c.modChan ch (fun x => { x with state := .error })).set (R.DMA_CH_STATUS_RESULT ch) 0x04).chanErr ch
  else c.chanRead ch .fetching

/-- A channel returned to the state it left, with the re-read R462 owes. A read of a descriptor or LINK word that a bus stop has ended is issued
again. -/
def Chip.chanReturn (c : Chip) (ch : Nat) : Chip :=
  let c := c.modChan ch (fun x => { x with state := x.left })
  let x := c.chan ch
  if x.owes then c.chanReread ch
  else if x.state == .running && x.phase != .moving && x.out.isEmpty && x.got.isEmpty then c.chanRead ch x.phase
  else c

/-- ABORT's effect (Table 14-5); `silent` writes no status to host memory (R458). -/
def Chip.chanAbort (c : Chip) (ch : Nat) (silent : Bool) : Chip :=
  let x := c.chan ch
  let c := if x.inDesc && x.state != .stopped && !(silent && x.space == 1) then c.endDesc ch 0x0A 0 x.moved noDiff else c
  (c.chanDropReads ch).modChan ch (fun x => { x with state := .idle, desc := none, later := [] })

/-- The commands of DMA_CH_CMD by their codes, each in the states that allow it (R469, Table 14-5). -/
def Chip.chanCommand (c : Chip) (ch code : Nat) : Chip :=
  let x := c.chan ch
  let stop := c.on R.DMA_STATUS_BUS_STOP
  if code = 1 && (x.state == .idle || x.state == .error) && !stop then c.chanStart ch
  else if code = 2 && (x.state == .running || x.state == .waitReq || x.state == .waitLink || x.state == .waitDesc) then
    c.modChan ch (fun x => { x with state := .paused, left := x.state })
  else if code = 3 && (x.state == .paused || x.state == .stopped) && !stop then c.chanReturn ch
  else if code = 4 && x.state != .idle then c.chanAbort ch false
  else c.set (R.DMA_CH_STATUS_REFUSED ch) 1

/-- A command written: refused to the host on a firmware-owned channel (R457); one that comes while a burst runs takes effect at its end (R469). -/
def Chip.chanOrder (c : Chip) (ch code : Nat) (byHost : Bool) : Chip :=
  if byHost && !hostOwned ch then c.refusedAccess ch (R.DMA_CH_CMD_CMD ch)
  else if (c.chan ch).state == .running && (c.chan ch).bursting then c.modChan ch (fun x => { x with later := x.later ++ [code] })
  else c.chanCommand ch code

/-- The end of a burst: the commands that came while it ran take effect (R469). -/
def Chip.burstEnds (c : Chip) (ch : Nat) : Chip :=
  let codes := (c.chan ch).later
  codes.foldl (fun d k => d.chanCommand ch k) (c.modChan ch (fun x => { x with later := [] }))

/-- DMA_START. -/
def dmaStart (ch : Nat) (byHost : Bool) (c : Chip) : Chip := c.chanOrder ch 1 byHost

/-- DMA_PAUSE. -/
def dmaPause (ch : Nat) (byHost : Bool) (c : Chip) : Chip := c.chanOrder ch 2 byHost

/-- DMA_RESUME. -/
def dmaResume (ch : Nat) (byHost : Bool) (c : Chip) : Chip := c.chanOrder ch 3 byHost

/-- DMA_ABORT. -/
def dmaAbort (ch : Nat) (byHost : Bool) (c : Chip) : Chip := c.chanOrder ch 4 byHost

/-- R458: a reset of the PF or link loss ends every host-owned channel. -/
def Chip.abortHostChains (c : Chip) : Chip :=
  (List.range 24).foldl (fun d ch => if (d.chan ch).state == .idle then d else d.chanAbort ch true) c

/-- DMA_DOORBELL (R462). -/
def dmaDoorbell (ch : Nat) (byHost : Bool) (c : Chip) : Chip :=
  if byHost && !hostOwned ch then c.refusedAccess ch (R.DMA_CH_DOORBELL_RING ch)
  else
    let c := c.modChan ch (fun x => { x with dbPending := true })
    if (c.chan ch).owes && !c.on R.DMA_STATUS_BUS_STOP then c.chanReread ch else c

/-- A descriptor done OK: its status, then the LINK word is read again on its own (R460). -/
def Chip.descDone (c : Chip) (ch match_ bytes diff : Nat) : Chip :=
  (c.endDesc ch 0 match_ bytes diff).chanRead ch .linking

/-- Bytes of a burst counted, and HALF once half of the descriptor is done (R465). -/
def Chip.chanMoved (c : Chip) (ch n : Nat) : Chip :=
  let x := c.chan ch
  match x.desc with
  | none => c
  | some d =>
    let m := x.moved + n
    let c := (c.modChan ch (fun x => { x with moved := m, remain := d.len - m })).bump R.DMA_CNT_BYTES_BYTES (m / 64 - x.moved / 64)
    if bitOf d.flags 0 && !x.half && decide (ceilDiv d.len 2 ≤ m) then
      (c.modChan ch (fun x => { x with half := true })).chanCause ch (R.DMA_CH_STATUS_HALF ch) true
    else c

/-- A burst's bytes moved to the destination, and the descriptor's end when they are the last; a paced channel then waits for the next request. -/
def Chip.burst (c : Chip) (ch : Nat) (d : DmaDesc) (bs : List Byte) : Chip :=
  let x := c.chan ch
  let c := c.modChan ch (fun x => { x with got := [] })
  let c := if d.dstSpace = 2 then c.emit (.lineWrite d.line bs) else c.putSpace d.dstSpace (d.dst + x.moved) bs
  let c := c.chanMoved ch bs.length
  let c := if x.moved + bs.length = d.len then c.descDone ch 0 d.len noDiff
    else if d.paced then c.modChan ch (fun x => { x with state := .waitReq }) else c
  c.burstEnds ch

/-- The size of the next burst (R466, R468). -/
def DmaChan.burstLen (x : DmaChan) (d : DmaDesc) : Nat := min (if d.paced then d.burst else 4096) (d.len - x.moved)

/-- Whether a channel could move on with an unpaced burst now. -/
def Chip.chanRunnable (c : Chip) (ch : Nat) : Bool :=
  let x := c.chan ch
  x.state == .running && x.phase == .moving && x.out.isEmpty && x.desc.any (fun d => !d.paced) && !c.chanHeld ch

/-- R468: whether a channel is the next to be served: of the channels that could move on, those with PRIO 1 go before those with 0, and among
equals the next one after the channel served last. -/
def Chip.chanTurn (c : Chip) (ch : Nat) : Bool :=
  let prio := fun k => c.on (R.DMA_CH_CTRL_PRIO k)
  let able := (List.range 32).filter c.chanRunnable
  let best := if able.any prio then able.filter prio else able
  let order := best.filter (fun k => decide (c.dma.last < k)) ++ best.filter (fun k => decide (k ≤ c.dma.last))
  order.head? == some ch

/-- A channel that may run a burst of an unpaced descriptor of the given OP. -/
def Chip.chanBusy (c : Chip) (ch op : Nat) : Option DmaDesc :=
  if c.chanTurn ch then (c.chan ch).desc.filter (fun d => d.op == op) else none

/-- A channel has been served (R468). -/
def Chip.served (c : Chip) (ch : Nat) : Chip := { c with dma := { c.dma with last := ch } }

/-- The bytes of one side of a burst of `n` bytes: from head DRAM, or from the buffer that a read of host memory has filled. -/
def Chip.chanBytes (c : Chip) (ch space addr n : Nat) (what : ChRead) : List Byte :=
  if space = 1 then c.load (c.chanBuf ch what) n else c.load addr n

/-- The source of a burst has been read whole: it is written (R459). -/
def Chip.copyNow (c : Chip) (ch : Nat) (d : DmaDesc) : Chip :=
  let x := c.chan ch
  c.burst ch d (c.chanBytes ch d.srcSpace (d.src + x.moved) (x.burstLen d) .source)

/-- The offset of the first difference of two byte lists. -/
def firstDiff : List Byte → List Byte → Nat → Option Nat
  | a :: as, b :: bs, i => if a = b then firstDiff as bs (i + 1) else some i
  | _, _, _ => none

/-- Both operands of a burst have been read: they are compared (R464). -/
def Chip.compareNow (c : Chip) (ch : Nat) (d : DmaDesc) : Chip :=
  let x := c.chan ch
  let n := x.burstLen d
  let a := c.chanBytes ch d.srcSpace (d.src + x.moved) n .source
  let b := c.chanBytes ch d.dstSpace (d.dst + x.moved) n .second
  let c := c.modChan ch (fun x => { x with got := [] })
  let c := match firstDiff a b x.moved with
    | some ofs =>
      let done := min d.len ((ofs / 64 + 1) * 64)
      let c := c.chanMoved ch (done - x.moved)
      if bitOf d.flags 2 then
        ((c.endDesc ch 0 0 done ofs).modChan ch (fun x => { x with diffStop := true, state := .idle, desc := none })).chanErr ch
      else c.descDone ch 0 done ofs
    | none =>
      let c := c.chanMoved ch n
      if x.moved + n = d.len then c.descDone ch 1 d.len noDiff else c
  c.burstEnds ch

/-- Whether the request of a line is present, as far as the head's own state tells (Table 14-3). -/
def Chip.lineReady (c : Chip) (line n : Nat) : Bool :=
  match line with
  | 0 => decide ((if c.on R.EVR_CTRL_EXPORT_BURST then 4 else 1) ≤ c.evr.exportFifo.length) &&
      decide (n ≤ 64 * c.evr.exportFifo.length)
  | 8 => c.dma.tickHeld
  | _ => true

/-- The bytes of an event record in the export FIFO. -/
def Chip.exportBytes (c : Chip) (n : Nat) (f : EvRecord → List Byte) : List Byte :=
  ((c.evr.exportFifo.take (ceilDiv n 64)).flatMap f).take n

/-- A line's request consumed by one burst (R467). -/
def Chip.consumeLine (c : Chip) (line n : Nat) : Chip :=
  match line with
  | 0 => { c with evr := { c.evr with exportFifo := c.evr.exportFifo.drop (ceilDiv n 64) } }
  | 8 => { c with dma := { c.dma with tickHeld := false } }
  | _ => c

/-! ### Bus errors -/

/-- DMA_BERR.KIND (Table 14-6). -/
def busErrCode : BusErr → Nat
  | .hostRead _ => 1 | .dramUncorrectable => 2 | .poisoned => 3 | .timeout => 4 | .lineFault => 5

/-- The DRAM address at which the next burst of a descriptor would read poisoned data (R471, R492). -/
def Chip.chanPoison (c : Chip) (ch : Nat) (d : DmaDesc) : Option Nat :=
  let x := c.chan ch
  let n := x.burstLen d
  if d.op != 2 && d.srcSpace == 0 && c.poisonedAt (d.src + x.moved) n then some (d.src + x.moved)
  else if d.op = 3 && d.dstSpace == 0 && c.poisonedAt (d.dst + x.moved) n then some (d.dst + x.moved)
  else none

/-- A burst whose data has been read whole is written (R471). -/
def Chip.finishBurst (c : Chip) (ch : Nat) : Chip :=
  let x := c.chan ch
  match x.desc with
  | none => c
  | some d =>
    if x.phase == .moving && x.out.isEmpty && !x.got.isEmpty && !c.chanHeld ch && (c.chanPoison ch d).isNone then
      (if d.op = 3 then (if x.has d.srcSpace .source && x.has d.dstSpace .second then c.compareNow ch d else c) else c.copyNow ch d)
    else c

/-- A running channel stops: a burst already read whole is written, one still waiting for data is abandoned (R471). -/
def Chip.stopChan (c : Chip) (ch : Nat) : Chip :=
  let c := (c.finishBurst ch).chanDropReads ch
  if (c.chan ch).state == .running then
    ((c.modChan ch (fun x => { x with state := .stopped, left := .running })).chanErr ch).burstEnds ch
  else c.burstEnds ch

/-- Every other running channel stops and keeps its place (R471). -/
def Chip.stopOthers (c : Chip) (ch : Nat) : Chip :=
  (List.range 32).foldl (fun d k => if k != ch && (d.chan k).state == .running then d.stopChan k else d) c

/-- The failing channel: its descriptor receives BUS_ERROR and the channel enters ERROR (R471). -/
def Chip.failChan (c : Chip) (ch done : Nat) : Chip :=
  let c := c.chanDropReads ch
  let c := if (c.chan ch).inDesc then c.endDesc ch 0x09 0 done noDiff
    else (c.set (R.DMA_CH_STATUS_RESULT ch) 0x09).chanErr ch
  (c.modChan ch (fun x => { x with state := .error, desc := none })).burstEnds ch

/-- A bus error of a channel (R471); `kind` is its code in DMA_BERR, `done` the bytes of the descriptor that have been written. -/
def Chip.busError (c : Chip) (ch kind space addr done : Nat) : Chip :=
  let c := if c.on R.DMA_STATUS_BUS_STOP then c
    else { (((c.set R.DMA_BERR_CH ch).set R.DMA_BERR_KIND kind).set R.DMA_BERR_SPACE space).set
        R.DMA_BERR_ADDR_ADDR addr with dma := { c.dma with stopAt := c.now } }
  let c := (c.set R.DMA_STATUS_BUS_STOP 1).bump R.DMA_CNT_BERR_BERR 1
  let c := (c.failChan ch done).stopOthers ch
  (c.event 0x100 ch addr kind space 0).blockCause R.DMA_CTRL_ERR_IRQ_EN R.DMA_CTRL_ERR_VECTOR

/-- Whether an access of a channel can fail now: one of its running or waiting for a line, or a read of host memory that is out. -/
def DmaChan.accessing (x : DmaChan) : Bool := x.state == .running || x.state == .waitReq || !x.out.isEmpty

/-- A burst whose DRAM operands are not poisoned; a bus error where one is. -/
def Chip.sound (c : Chip) (ch : Nat) (d : DmaDesc) (f : Chip → Chip) : Chip :=
  match c.chanPoison ch d with
  | some a => c.busError ch 3 0 a (c.chan ch).moved
  | none => f c

/-! ### What a channel does -/

/-- DESCRIPTOR_READ_REPLY (R460): a released descriptor is checked and performed; one still marked DONE holds the channel. -/
def descriptorReadReply (ch : Nat) (c : Chip) : Chip :=
  let x := c.chan ch
  if x.state == .running && x.phase == .fetching && x.has x.space .descriptor && !c.chanHeld ch then
    if x.space = 0 && c.poisonedAt x.cur 64 then c.busError ch 3 0 x.cur 0
    else
    let bs := c.load (if x.space = 1 then c.chanBuf ch .descriptor else x.cur) 64
    let c := c.modChan ch (fun x => { x with got := [] })
    if bitOf (bs.getD 0x30 0).toNat 0 then
      if x.dbPending then c.chanReread ch else c.modChan ch (fun x => { x with state := .waitDesc })
    else
      let d := parseDesc bs
      let c := c.modChan ch (fun x => { x with phase := .moving, desc := some d, moved := 0, half := false, remain := d.len })
      let r := c.checkDesc ch d
      if r != 0 then c.descError ch r 0
      else if d.paced then c.modChan ch (fun x => { x with state := .waitReq })
      else c
  else c

/-- LINK_READ_REPLY (R460, R462). -/
def linkReadReply (ch : Nat) (c : Chip) : Chip :=
  let x := c.chan ch
  if x.state == .running && x.phase == .linking && x.has x.space .link && !c.chanHeld ch then
    if x.space = 0 && c.poisonedAt (x.cur + 0x28) 8 then c.busError ch 3 0 (x.cur + 0x28) 0
    else
    let w := c.loadNat (if x.space = 1 then c.chanBuf ch .link else x.cur + 0x28) 8
    let c := c.modChan ch (fun x => { x with got := [] })
    if bitOf w 0 then
      let next := w / 64 * 64
      if c.chanFollows ch x.space next then
        (c.modChan ch (fun x => { x with cur := next })).chanRead ch .fetching
      else
        (((c.putSpace x.space (x.cur + 0x31) (natLe 0x04 1)).set (R.DMA_CH_STATUS_RESULT ch) 0x04).chanErr ch).modChan ch
          (fun x => { x with state := .error, desc := none })
    else if x.dbPending then c.chanReread ch
    else c.modChan ch (fun x => { x with state := .waitLink })
  else c

/-- DMA_COPY: one burst of an unpaced COPY (R459, R468). Its source in host memory is read first. -/
def dmaCopy (ch : Nat) (c : Chip) : Chip :=
  match c.chanBusy ch 1 with
  | none => c
  | some d =>
    let x := c.chan ch
    if x.has d.srcSpace .source then (c.served ch).sound ch d (·.copyNow ch d)
    else (c.served ch).chanHostRead ch .source (d.src + x.moved) (x.burstLen d)

/-- DMA_FILL: one burst of a FILL; byte i is byte i mod 8 of SRC (R463). -/
def dmaFill (ch : Nat) (c : Chip) : Chip :=
  match c.chanBusy ch 2 with
  | none => c
  | some d =>
    let x := c.chan ch
    let pat := natLe d.src 8
    (c.served ch).burst ch d ((upFrom x.moved (x.burstLen d)).map (fun i => pat.getD (i % 8) 0))

/-- DMA_COMPARE: one burst of a COMPARE (R464). Operands in host memory are read first. -/
def dmaCompare (ch : Nat) (c : Chip) : Chip :=
  match c.chanBusy ch 3 with
  | none => c
  | some d =>
    let x := c.chan ch
    let n := x.burstLen d
    if x.has d.srcSpace .source && x.has d.dstSpace .second then (c.served ch).sound ch d (·.compareNow ch d)
    else
      let c := if x.has d.srcSpace .source then c.served ch else (c.served ch).chanHostRead ch .source (d.src + x.moved) n
      if x.has d.dstSpace .second then c else c.chanHostRead ch .second (d.dst + x.moved) n

/-- A paced burst (R466, R467, R471): a request present at a burst boundary starts one whole burst, none while BUS_STOP is set.
A source in host memory is read first, and the burst goes on when it has arrived; `srcBytes` are those of a peripheral's FIFO, `recBytes` gives a record's bytes. -/
def Chip.pacedBurst (c : Chip) (ch : Nat) (srcBytes : List Byte) (recBytes : EvRecord → List Byte) : Chip :=
  let x := c.chan ch
  match x.desc.filter (fun d => d.paced && !c.chanHeld ch && !c.on R.DMA_STATUS_BUS_STOP) with
  | none => c
  | some d =>
    let n := x.burstLen d
    let bs := if d.line = 0 then c.exportBytes n recBytes
      else if d.srcSpace = 2 then srcBytes.take n else c.chanBytes ch d.srcSpace (d.src + x.moved) n .source
    let starts := x.state == .waitReq && c.lineReady d.line n && bs.length == n
    let again := x.state == .running && x.phase == .moving && x.out.isEmpty
    if starts || again then
      let c := if starts then c.consumeLine d.line n else c
      if x.has d.srcSpace .source then c.sound ch d (·.burst ch d bs)
      else (c.modChan ch (fun x => { x with state := .running })).chanHostRead ch .source (d.src + x.moved) n
    else c

/-- PACED_BURST. -/
def pacedBurst (ch : Nat) (srcBytes : List Byte) (c : Chip) : Chip := c.pacedBurst ch srcBytes EvRecord.bytes

/-- PACE_TICK (R466): line 8 requests one burst; at most one tick is held. -/
def paceTick (c : Chip) : Chip :=
  if c.get R.DMA_PACE_TICK_TICK = 0 then c else { c with dma := { c.dma with tickHeld := true } }

/-! ### Recovery -/

/-- BUS_STOP cleared (R472): firmware-owned channels resume, and waiting channels make the re-reads they owe. -/
def Chip.clearBusStop (c : Chip) : Chip :=
  (List.range 32).foldl (fun d k =>
    let x := d.chan k
    if !hostOwned k && x.state == .stopped then d.chanReturn k
    else if x.owes then d.chanReread k
    else d) (c.set R.DMA_STATUS_BUS_STOP 0)

/-- BUS_STOP_CLEAR (R472): host software writes 1 to DMA_STATUS.BUS_STOP. -/
def busStopClear (c : Chip) : Chip := if c.on R.DMA_STATUS_BUS_STOP then c.clearBusStop else c

/-- BUS_STOP_TIMEOUT (R472): after 10 ms the control cores clear BUS_STOP. -/
def busStopTimeout (c : Chip) : Chip :=
  if c.on R.DMA_STATUS_BUS_STOP && decide (c.dma.stopAt + 10000000 ≤ c.now) then c.clearBusStop else c

/-- HWIN_LEN_WRITE (R473): the pair of BASE and LEN must lie in the type 6 region, or both keep their previous values. -/
def hwinLenWrite (low : Option Word32) (high : Word32) (c : Chip) : Chip :=
  let f := R.DMA_HWIN_LEN_LEN
  let len := high.toNat * 0x100000000 + ((low.map (·.toNat)).getD (c.lowHalf f))
  let base := c.get R.DMA_HWIN_BASE_BASE
  let c := { c with regs := { c.regs with held := Sparse.set none c.regs.held f.addr none } }
  let ok := len % 0x200000 == 0 && base % 0x200000 == 0 && (len == 0 ||
    (c.carve 6).any (fun r => decide (r.base ≤ base) && decide (base + len ≤ r.base + r.size)))
  if ok then { (c.set f len) with dma := { c.dma with hwBase := base, hwLen := len } }
  else (c.set R.DMA_HWIN_BASE_BASE c.dma.hwBase).invalidEncoding f len

/-- The counters of Table 14-8. -/
def dmaCounters : List Fld :=
  [R.DMA_CNT_BYTES_BYTES, R.DMA_CNT_DESC_DESC, R.DMA_CNT_BERR_BERR, R.DMA_CNT_REREAD_REREAD]

/-- DMA_CNT_CLR. -/
def dmaCntClr (c : Chip) : Chip := c.clearAll dmaCounters

-- EXEC dmaStart dmaPause dmaResume dmaAbort dmaDoorbell descriptorReadReply linkReadReply dmaCopy dmaFill dmaCompare pacedBurst paceTick busStopClear busStopTimeout hwinLenWrite dmaCntClr

/-- DMA_START (R469). -/
def execDmaStart (ch : Chan) (byHost : Bool) (s : State) : Host.Outcome State Fault Refusal :=
  s.runBar2 (decide (ch < 32)) byHost (R.DMA_CH_CMD_CMD ch) (dmaStart ch byHost)

/-- DMA_PAUSE (R469). -/
def execDmaPause (ch : Chan) (byHost : Bool) (s : State) : Host.Outcome State Fault Refusal :=
  s.runBar2 (decide (ch < 32)) byHost (R.DMA_CH_CMD_CMD ch) (dmaPause ch byHost)

/-- DMA_RESUME (R469). -/
def execDmaResume (ch : Chan) (byHost : Bool) (s : State) : Host.Outcome State Fault Refusal :=
  s.runBar2 (decide (ch < 32)) byHost (R.DMA_CH_CMD_CMD ch) (dmaResume ch byHost)

/-- DMA_ABORT (R469). -/
def execDmaAbort (ch : Chan) (byHost : Bool) (s : State) : Host.Outcome State Fault Refusal :=
  s.runBar2 (decide (ch < 32)) byHost (R.DMA_CH_CMD_CMD ch) (dmaAbort ch byHost)

/-- DMA_DOORBELL (R462). -/
def execDmaDoorbell (ch : Chan) (byHost : Bool) (s : State) : Host.Outcome State Fault Refusal :=
  s.runBar2 (decide (ch < 32)) byHost (R.DMA_CH_DOORBELL_RING ch) (dmaDoorbell ch byHost)

/-- DESCRIPTOR_READ_REPLY (R460). -/
def execDescriptorReadReply (ch : Chan) (s : State) : Host.Outcome State Fault Refusal :=
  s.runAwake (decide (ch < 32)) (descriptorReadReply ch)

/-- LINK_READ_REPLY (R462). -/
def execLinkReadReply (ch : Chan) (s : State) : Host.Outcome State Fault Refusal :=
  s.runAwake (decide (ch < 32)) (linkReadReply ch)

/-- DMA_COPY (R459). -/
def execDmaCopy (ch : Chan) (s : State) : Host.Outcome State Fault Refusal :=
  s.runAwake (decide (ch < 32)) (dmaCopy ch)

/-- DMA_FILL (R463). -/
def execDmaFill (ch : Chan) (s : State) : Host.Outcome State Fault Refusal :=
  s.runAwake (decide (ch < 32)) (dmaFill ch)

/-- DMA_COMPARE (R464). -/
def execDmaCompare (ch : Chan) (s : State) : Host.Outcome State Fault Refusal :=
  s.runAwake (decide (ch < 32)) (dmaCompare ch)

/-- PACED_BURST (R467). -/
def execPacedBurst (ch : Chan) (srcBytes : List Byte) (s : State) : Host.Outcome State Fault Refusal :=
  s.runAwake (decide (ch < 32)) (pacedBurst ch srcBytes)

/-- PACE_TICK (R466). -/
def execPaceTick (s : State) : Host.Outcome State Fault Refusal :=
  s.runAwake true paceTick

/-- BUS_STOP_CLEAR (R472). -/
def execBusStopClear (s : State) : Host.Outcome State Fault Refusal :=
  s.runBar2 true true R.DMA_STATUS_BUS_STOP busStopClear

/-- BUS_STOP_TIMEOUT (R472). -/
def execBusStopTimeout (s : State) : Host.Outcome State Fault Refusal :=
  s.runAwake true busStopTimeout

/-- HWIN_LEN_WRITE (R473). -/
def execHwinLenWrite (low : Option Word32) (high : Word32) (s : State) : Host.Outcome State Fault Refusal :=
  s.runBar2 true true R.DMA_HWIN_LEN_LEN (hwinLenWrite low high)

/-- DMA_CNT_CLR (R473). -/
def execDmaCntClr (s : State) : Host.Outcome State Fault Refusal :=
  s.runBar2 true true R.DMA_CNT_CLR_CLR dmaCntClr

-- END EXEC

end Sys2Proof.Machine
end

