-- ==== Sys2Proof/Machine/Root.lean ====
section
/-!
DEFINITION. SEC_ROOT: challenges, tokens, lifecycle, owner keys, trust lists, attestation and JTAG (R520 to R541, R546).
-/
namespace Sys2Proof.Machine

/-! ### The challenge -/

/-- Whether the challenge is valid: 60 s from its making (R529). -/
def Chip.chalValid (c : Chip) : Bool := c.root.challenge.isSome && decide (c.now < c.root.challengeAt + 60000000000)

/-- A challenge made; it replaces any other (R529). -/
def Chip.makeChallenge (c : Chip) : Chip :=
  { c.useFree with root := { c.useFree.root with challenge := some (Config.random c.freeCount % 2 ^ 256), challengeAt := c.now } }

/-- SEC_ROOT_RESULT set. -/
def Chip.rootResult (c : Chip) (code command : Nat) : Chip :=
  (c.startOp R.SEC_ROOT_RESULT_VALID).postResult R.SEC_ROOT_RESULT_VALID
    [(R.SEC_ROOT_RESULT_CODE, code), (R.SEC_ROOT_RESULT_COMMAND, command)]

/-- R542, R546: a command of SEC_ROOT_CMD; refused while debug is requested. -/
def Chip.rootCommand (c : Chip) (f : Chip → Chip) : Chip :=
  if c.root.debug = .requested then (c.set R.SEC_ROOT_STATUS_REFUSED 1).refusedCommand R.SEC_ROOT_CMD_CMD else f c

/-- GET_CHALLENGE (R529). -/
def getChallenge (c : Chip) : Chip := c.rootCommand (fun c => c.makeChallenge.rootResult 0 0)

/-- CHALLENGE_EXPIRY (R529). -/
def challengeExpiry (c : Chip) : Chip := if c.chalValid then c else { c with root := { c.root with challenge := none } }

/-- CLEAR_MAILBOX (R546). -/
def clearMailbox (c : Chip) : Chip :=
  c.rootCommand (fun c => (c.clearAll ((List.range 40).map R.SEC_ROOT_MAILBOX_WORD)).rootResult 0 0)

/-! ### Tokens -/

/-- The 320 bytes of the token submitted (Table 17-4): the mailbox's words, or the bits that JTAG shifted in. -/
def Chip.tokenBytes (c : Chip) : TokenSrc → List Byte
  | .mailbox => (List.range 40).flatMap (fun i => natLe (c.get (R.SEC_ROOT_MAILBOX_WORD i)) 8)
  | .jtag bs => (bs ++ List.replicate 320 0#8).take 320

/-- A token's COMMAND. -/
def tkCommand (bs : List Byte) : Nat := numAt bs 4 1
/-- A token's KEY_INDEX. -/
def tkKey (bs : List Byte) : Nat := numAt bs 5 1
/-- A token's TARGET. -/
def tkTarget (bs : List Byte) : Nat := numAt bs 6 1
/-- A token's ARG, first byte most significant. -/
def tkArg (bs : List Byte) : Nat := bigAt bs 0x30 48

/-- Whether TARGET is one of its command (Table 17-4). -/
def targetOk (cmd t : Nat) : Bool :=
  if cmd = 7 || cmd = 8 then decide (t < 4)
  else if cmd = 9 || cmd = 10 || cmd = 11 then decide (t < 2)
  else t == 0

/-- Step 1 of R530: MAGIC, FORMAT, COMMAND, the reserved bytes, and the fields that Table 17-4 lays down as 0. -/
def tokenForm (bs : List Byte) : Bool :=
  let cmd := tkCommand bs
  numAt bs 0 2 == 0x4B54 && numAt bs 2 2 == 1 && decide (1 ≤ cmd) && decide (cmd ≤ 11) && numAt bs 7 1 == 0 && targetOk cmd (tkTarget bs) &&
  (cmd == 7 || cmd == 9 || cmd == 10 || tkArg bs == 0) && ((bs.drop 0x120).take 32).all (· == 0#8)

/-- Table 17-5: whether an owner slot, and whether the manufacturing key, may sign a command in a lifecycle state; a state in which the
command is not allowed is found by a later step. -/
def keyKinds (cmd life : Nat) : Bool × Bool :=
  match cmd with
  | 1 => if life = 0 then (false, true) else if life = 3 then (true, false) else (true, true)
  | 2 => (false, true)
  | 6 => (true, decide (life < 2))
  | 7 => (true, life != 2)
  | 11 => (true, true)
  | _ => (true, false)

/-- Step 4 of R530. REVOKE_OWNER is signed under another slot than its target (R523). -/
def Chip.tokenKeyOk (c : Chip) (bs : List Byte) : Bool :=
  let k := keyKinds (tkCommand bs) c.lifecycle
  let hash := beNat (sha384 ((bs.drop 0x60).take 96))
  (k.1 && c.ownerUsable (tkKey bs) hash && !(tkCommand bs == 8 && tkKey bs == tkTarget bs)) ||
    (k.2 && tkKey bs == 0x10 && hash == Config.romHash 2)

/-- R525: drained. -/
def Chip.drainedHead (c : Chip) : Bool := c.get R.PWR_STATUS_PHASE == 5 || c.on R.GLB_STATUS_LOADER_ONLY || !c.on R.GLB_STATUS_IMAGE_ACTIVE

/-- Step 6 of R530: Table 17-5 and R525. -/
def Chip.tokenStateOk (c : Chip) (cmd : Nat) : Bool :=
  let l := c.lifecycle
  let closed := c.root.debug == .closed
  match cmd with
  | 1 => (l == 0 || l == 3 || l == 4) && c.isDay && closed
  | 2 => l == 0 && closed
  | 3 => l == 1 && closed && c.drainedHead
  | 4 => l == 2 && closed && c.drainedHead
  | 5 => l == 3 && closed && c.drainedHead
  | 6 => l != 4 && closed && c.drainedHead
  | 7 => l == 1 || l == 2
  | 8 => l == 2 || l == 3
  | 9 | 10 => l == 1 || l == 2 || l == 3
  | _ => decide (l < 4)

/-- The owner slots that are usable (R522). -/
def Chip.usableSlots (c : Chip) : List Nat := (List.range 4).filter (fun s => bitOf c.root.otp.ownerFused s && !bitOf c.root.otp.ownerRevoked s)

/-- Whether a Kilip slot with a valid mark holds an image signed under an owner slot (R523). -/
def Chip.kilipSigned (c : Chip) (slot : Nat) : Bool :=
  (List.range 2).any (fun i => (c.validMark i).isSome && leNat (Mem.read (c.kilip i).bytes 0x2C 1) == slot)

/-- The trust list that a token names (R536): 0 head list, 1 bridge list. -/
def Chip.trustList (c : Chip) (t : Nat) : List Nat := if t = 0 then c.root.mono.headTrust else c.root.mono.bridgeTrust

/-- Step 7 of R530: the command's own preconditions (R523, R526, R531, R532, R536); 0 for none that fails. -/
def Chip.tokenPrecondition (c : Chip) (bs : List Byte) : Nat :=
  let t := tkTarget bs
  let l := c.trustList t
  let arg := tkArg bs
  match tkCommand bs with
  | 3 => if c.usableSlots.isEmpty then 7 else 0
  | 4 => if 31 ≤ c.root.otp.serviceBits then 8 else 0
  | 7 => if bitOf c.root.otp.ownerFused t then 7 else 0
  | 8 => if (c.usableSlots.filter (· != t)).isEmpty || c.kilipSigned t then 7 else 0
  | 9 => if arg = Config.romHash 4 || l.contains arg then 7 else if 7 ≤ l.length then 8 else 0
  | 10 => if arg = Config.romHash 4 || !l.contains arg then 7 else 0
  | 11 =>
    let slot := c.boot.fwState == 2 && leNat (Mem.read c.boot.fwSlot 0xD 1) == t
    if bitOf c.root.otp.fwKeyRevoke (1 - t) || slot || Config.loaderKey c.boot.loader0 = t || Config.loaderKey c.boot.loader1 = t then 7 else 0
  | _ => 0

/-- R530: the code of the first step that fails, 0 for none. -/
def Chip.tokenCheck (c : Chip) (bs : List Byte) (challenge : Option Nat) : Nat :=
  if !tokenForm bs then 1
  else if numAt bs 8 8 ≠ c.root.otp.dsn then 2
  else if challenge ≠ some (numAt bs 0x10 32) then 3
  else if !c.tokenKeyOk bs then 4
  else if !Config.ecdsaVerify (bigAt bs 0x60 48) (bigAt bs 0x90 48) (beNat (sha384 (bs.take 0xC0))) (bigAt bs 0xC0 48) (bigAt bs 0xF0 48) then 5
  else if !c.tokenStateOk (tkCommand bs) then 6
  else c.tokenPrecondition bs

/-- A token ends with a code (Tables 17-12 and 17-14); a refused one is recorded (Table 19-2). -/
def Chip.tokenEnd (c : Chip) (bs : List Byte) (code : Nat) : Chip :=
  let c := c.rootResult code (tkCommand bs)
  if code = 0 then c.bump R.SEC_ROOT_CNT_TOKENS_OK_TOKENS_OK 1 else (c.bump R.SEC_ROOT_CNT_TOKENS_BAD_TOKENS_BAD 1).event 0x341 0 0 code 0 0

/-- SUBMIT of a token (R529, R530): the challenge serves this SUBMIT and no other; an accepted token is acted on by `act`. A well-formed
token of another command than `cmd` is the business of that command's own row. -/
def Chip.submit (c : Chip) (src : TokenSrc) (cmd : Nat) (act : List Byte → Chip → Chip) : Chip :=
  let bs := c.tokenBytes src
  if tokenForm bs && tkCommand bs != cmd then c
  else c.rootCommand (fun c =>
    let challenge := if c.chalValid then c.root.challenge else none
    let c := { c with root := { c.root with challenge := none } }
    match c.tokenCheck bs challenge with
    | 0 => act bs c
    | k => c.tokenEnd bs k)

/-! ### Zeroization -/

/-- R542 step 2: every key of the head's key store and ports zeroized; peer and bridge sessions end. -/
def Chip.zeroizeKeys (c : Chip) : Chip :=
  let c := c.breakSession
  { c with
    cpe := { c.cpe with slots := c.cpe.slots.map (fun (s : Nat × KeySlot) => (s.1, s.2.afterReset)), internal := [], ops := [] }
    dge := { c.dge with stateKey := c.dge.stateKey + 1 }
    isf := { c.isf with strings := c.isf.strings.map (fun (s : Nat × Strg) =>
      (s.1, { s.2 with
        key := 0
        nextKey := none
        peerEnd := s.2.peerEnd.broken
        views := s.2.views.map (fun (v : Nat × BridgeView) => (v.1, { v.2 with state := 0, lend := v.2.lend.broken })) })) } }

/-- R542 step 3, R533: the secret part of both copies erased. -/
def Chip.eraseSecrets (c : Chip) : Chip := c.sealSecret (fun _ => {})

/-- R542 step 4: DRAM written with zeros, the caches invalidated; what lay in DRAM is gone. -/
def Chip.wipeMemory (c : Chip) : Chip :=
  let c := { c with
    dram := []
    mem := { c.mem with poisoned := [], sets := [], evict := [], snoops := [] }
    boot := { c.boot with download := [], pieces := [], healBuf := [], healPieces := [] }
    kcf := { c.kcf with staged := none, stagedLen := 0, valid := none, activeStaging := none } }
  ({ c with dd := { c.dd with gens := [], overfillDone := false } } : Chip).setAll
    [(R.CMP_DD_FILTER_OPEN_GEN, 0), (R.CMP_DD_GEN_FILL_FILL, 0), (R.KCF_STATUS_STATE, 0), (R.KCF_SERIAL_STAGED_SERIAL, 0)]

/-- Steps 2 to 4 of R542. -/
def Chip.zeroize (c : Chip) : Chip := c.zeroizeKeys.eraseSecrets.wipeMemory

/-- R533, R534: a transport key generated. -/
def Chip.makeTransport (c : Chip) : Chip :=
  let key := Config.random c.freeCount
  c.useFree.seal (fun r => { r with
    secret := { r.secret with transport := some key }, mono := { r.mono with ktSerial := r.mono.ktSerial + 1 } })

/-! ### The lifecycle -/

/-- R525: an accepted transition: what its row states, the fuse, its read-back, and the warm reset. -/
def Chip.transition (c : Chip) (bs : List Byte) (readBackOk : Bool) (blow : Otp → Otp) : Chip :=
  if readBackOk then
    (((({ c with root := { c.root with otp := blow c.root.otp } } : Chip).measureState 3).tokenEnd bs 0)).warmReset
  else c.tokenEnd bs 9

/-- A LIFECYCLE row blown. -/
def Otp.blowRow (row : Nat) (o : Otp) : Otp := { o with rows := if o.rows.contains row then o.rows else row :: o.rows }

/-- One more SERVICE_ROW bit blown. -/
def Otp.blowService (o : Otp) : Otp := { o with serviceBits := o.serviceBits + 1 }

/-- PROVISION (R525). -/
def provision (src : TokenSrc) (readBackOk : Bool) (c : Chip) : Chip := c.submit src 2 (fun bs c => c.transition bs readBackOk (Otp.blowRow 0))

/-- DEPLOY (R525, R533). -/
def deploy (src : TokenSrc) (readBackOk : Bool) (c : Chip) : Chip :=
  c.submit src 3 (fun bs c =>
    let c : Chip := { c with cpe := { c.cpe with slots := c.cpe.slots.map (fun (s : Nat × KeySlot) => (s.1, s.2.afterReset)) } }
    c.makeTransport.transition bs readBackOk (Otp.blowRow 1))

/-- SERVICE (R415, R525). -/
def service (src : TokenSrc) (readBackOk : Bool) (c : Chip) : Chip :=
  c.submit src 4 (fun bs c => c.sendDepart.transition bs readBackOk Otp.blowService)

/-- RETURN (R525). -/
def returnToken (src : TokenSrc) (readBackOk : Bool) (c : Chip) : Chip := c.submit src 5 (fun bs c => c.transition bs readBackOk Otp.blowService)

/-- RETIRE (R525). -/
def retire (src : TokenSrc) (readBackOk : Bool) (c : Chip) : Chip :=
  c.submit src 6 (fun bs c => c.zeroize.transition bs readBackOk (Otp.blowRow 2))

/-! ### Owner keys, trust lists, firmware keys -/

/-- The OTP changed, and measured (R537, R538). -/
def Chip.blow (c : Chip) (f : Otp → Otp) : Chip := ({ c with root := { c.root with otp := f c.root.otp } } : Chip).measureOtp 5

/-- FUSE_OWNER (R531). -/
def fuseOwner (src : TokenSrc) (readBackOk : Bool) (c : Chip) : Chip :=
  c.submit src 7 (fun bs c =>
    let t := tkTarget bs
    let c := c.blow (fun o => { o with
      ownerHash := Sparse.set 0 o.ownerHash t (tkArg bs), ownerFused := setBit o.ownerFused t,
      ownerRevoked := if readBackOk then o.ownerRevoked else setBit o.ownerRevoked t })
    c.tokenEnd bs (if readBackOk then 0 else 9))

/-- REVOKE_OWNER (R523). A bit that does not read back is taken as blown. -/
def revokeOwner (src : TokenSrc) (readBackOk : Bool) (c : Chip) : Chip :=
  c.submit src 8 (fun bs c =>
    (c.blow (fun o => { o with ownerRevoked := setBit o.ownerRevoked (tkTarget bs) })).tokenEnd bs (if readBackOk then 0 else 9))

/-- A trust list changed, and measured (R536 to R538). -/
def Chip.modTrust (c : Chip) (t : Nat) (f : List Nat → List Nat) : Chip :=
  (c.sealMono (fun m => if t = 0 then { m with headTrust := f m.headTrust } else { m with bridgeTrust := f m.bridgeTrust })).measureOtp 5

/-- TRUST_ADD (R536). -/
def trustAdd (src : TokenSrc) (c : Chip) : Chip :=
  c.submit src 9 (fun bs c => (c.modTrust (tkTarget bs) (fun l => l ++ [tkArg bs])).tokenEnd bs 0)

/-- TRUST_REMOVE (R536). -/
def trustRemove (src : TokenSrc) (c : Chip) : Chip :=
  c.submit src 10 (fun bs c => (c.modTrust (tkTarget bs) (fun l => l.filter (· != tkArg bs))).tokenEnd bs 0)

/-- REVOKE_FW_KEY (R532). A bit that does not read back is treated as blown. -/
def revokeFwKey (src : TokenSrc) (readBackOk : Bool) (c : Chip) : Chip :=
  c.submit src 11 (fun bs c =>
    (c.blow (fun o => { o with fwKeyRevoke := setBit o.fwKeyRevoke (tkTarget bs) })).tokenEnd bs (if readBackOk then 0 else 9))

/-- SEC_ROOT_CNT_CLR (R546). -/
def secRootCntClr (c : Chip) : Chip := c.clearAll [R.SEC_ROOT_CNT_TOKENS_OK_TOKENS_OK, R.SEC_ROOT_CNT_TOKENS_BAD_TOKENS_BAD]

/-! ### SPDM -/

/-- A transport's connection. -/
def Chip.conn (c : Chip) : Transport → SpdmConn
  | .pcie => c.root.pcie
  | .i3c => c.root.i3c

/-- A connection changed. -/
def Chip.modConn (c : Chip) (tr : Transport) (f : SpdmConn → SpdmConn) : Chip :=
  { c with root := match tr with
    | .pcie => { c.root with pcie := f c.root.pcie }
    | .i3c => { c.root with i3c := f c.root.i3c } }

/-- R545, R558: SPDM is served from the end of Dawn, and by a loader-only head; over PCI Express while the link is up, and over I3C once the
target has an address (R614). -/
def Chip.spdmUp (c : Chip) (tr : Transport) : Bool :=
  (c.inService || (c.awake && c.on R.GLB_STATUS_LOADER_ONLY)) && (match tr with
    | .pcie => c.epc.link == .l0
    | .i3c => c.pwr.i3c.isSome)

/-- A request served: the transport takes the next one (R539). -/
def Chip.spdmReply (c : Chip) (tr : Transport) (r : SpdmRsp) : Chip := (c.modConn tr (fun x => { x with busy := false })).emit (.spdm tr r)

/-- A request that R539 serves only when what it needs has been agreed; otherwise ERROR UnexpectedRequest (DSP0274, log entry 15). -/
def Chip.spdmServe (c : Chip) (tr : Transport) (ready : Bool) (f : Chip → Chip) : Chip :=
  if !c.spdmUp tr then c else if ready then f c else c.spdmReply tr (.error 4)

/-- GET_VERSION (R539): the connection begins anew. -/
def getVersion (tr : Transport) (c : Chip) : Chip :=
  c.spdmServe tr true (fun c => (c.modConn tr (fun _ => { version := true })).spdmReply tr .version)

/-- GET_CAPABILITIES (R539). -/
def getCapabilities (tr : Transport) (c : Chip) : Chip :=
  c.spdmServe tr (c.conn tr).version (fun c => (c.modConn tr (fun x => { x with caps := true })).spdmReply tr .capabilities)

/-- NEGOTIATE_ALGORITHMS (R539): of what the requester offers, ECDSA P-384 and SHA-384 are chosen. -/
def negotiateAlgorithms (tr : Transport) (p384 sha384 : Bool) (c : Chip) : Chip :=
  c.spdmServe tr (c.conn tr).caps (fun c => (c.modConn tr (fun x => { x with algs := p384 && sha384 })).spdmReply tr (.algorithms p384 sha384))

/-- The chain of a certificate slot; slot 1 is empty until a transport key exists (Table 17-8). -/
def Chip.chain (c : Chip) (slot : Nat) : Option (List Byte) :=
  if slot = 0 then some (Config.certChain 0 0)
  else if slot = 1 && c.root.secret.transport.isSome then some (Config.certChain 1 c.root.mono.ktSerial)
  else none

/-- GET_DIGESTS (R539). -/
def getDigests (tr : Transport) (c : Chip) : Chip :=
  let d := fun s => (c.chain s).map (fun b => beNat (sha384 b))
  c.spdmServe tr (c.conn tr).algs (fun c => c.spdmReply tr (.digests (d 0) (d 1)))

/-- GET_CERTIFICATE (R539). -/
def getCertificate (tr : Transport) (slot ofs len : Nat) (c : Chip) : Chip :=
  c.spdmServe tr (c.conn tr).algs (fun c =>
    match c.chain slot with
    | none => c.spdmReply tr (.error 1)
    | some b =>
      if b.length ≤ ofs then c.spdmReply tr (.error 1)
      else c.spdmReply tr (.certificate slot ((b.drop ofs).take len) (b.length - ofs - len)))

/-- A measurement register's bytes. -/
def Chip.measBytes (c : Chip) (i : Nat) : List Byte := natBe (c.meas i) 48

/-- The measurement indices served: a loader-only head serves 1 to 3, 5 and 6 (R558). -/
def Chip.measured (c : Chip) : List Nat := if c.on R.GLB_STATUS_LOADER_ONLY then [1, 2, 3, 5, 6] else [1, 2, 3, 4, 5, 6]

/-- A DevID signature, which is randomised: a free value (log entry 4). -/
def Chip.signed (c : Chip) (f : Nat → Chip → Chip) : Chip := f c.freeNow c.useFree

/-- CHALLENGE (R539): signed by the DevID; the summary hash covers every measurement, or none. -/
def spdmChallenge (tr : Transport) (slot summary _nonce : Nat) (c : Chip) : Chip :=
  c.spdmServe tr (c.conn tr).algs (fun c =>
    if (c.chain slot).isNone then c.spdmReply tr (.error 1)
    else
      let sum := if summary = 0 then 0 else beNat (sha384 (c.measured.flatMap c.measBytes))
      c.signed (fun sig c => c.spdmReply tr (.challengeAuth slot sum sig)))

/-- An entry of the measurement log as R538 lays it out. -/
def MeasEntry.bytes (e : MeasEntry) : List Byte :=
  natLe e.index 1 ++ natLe e.event 1 ++ natLe e.epoch 6 ++ natLe e.time 8 ++ natLe e.serial 8 ++ natBe e.digest 48 ++ List.replicate 8 0#8

/-- The measurement log with its header (R538). -/
def Chip.measLog (c : Chip) : List Byte :=
  natLe c.root.logCount 4 ++ natLe c.root.logDropped 4 ++
  (List.range 6).flatMap (fun i => natBe (Sparse.get 0 c.root.logBase (i + 1)) 48) ++ c.root.log.flatMap MeasEntry.bytes

/-- A measurement block (Table 17-8), none for an index not served. -/
def Chip.measBlock (c : Chip) (index : Nat) (raw : Bool) : Option (List (Nat × List Byte)) :=
  if index = 0 then some []
  else if index = 0xFF then some (c.measured.map (fun i => (i, c.measBytes i)))
  else if index = 0xFD then some [(0xFD, c.measLog)]
  else if index = 5 && raw then some [(5, c.stateRecord)]
  else if c.measured.contains index then some [(index, c.measBytes index)]
  else none

/-- GET_MEASUREMENTS (R539). -/
def getMeasurements (tr : Transport) (index : Nat) (signed raw : Bool) (_nonce : Nat) (c : Chip) : Chip :=
  c.spdmServe tr (c.conn tr).algs (fun c =>
    match c.measBlock index raw with
    | none => c.spdmReply tr (.error 1)
    | some l =>
      if signed then c.signed (fun sig c => c.spdmReply tr (.measurements l (some sig)))
      else c.spdmReply tr (.measurements l none))

/-- The request codes of the SPDM messages supported (Table 17-8; DSP0274, log entry 15). -/
def spdmSupported : List Nat := [0x81, 0x82, 0x83, 0x84, 0xE0, 0xE1, 0xE3]

/-- MCTP_MESSAGE (R69, R539): an NVMe-MI request goes to its own processor; an SPDM request is taken, or answered with ERROR Busy while
another is in progress on the transport. A message that Table 17-8 does not list is answered with ERROR UnsupportedRequest. -/
def mctpMessage (tr : Transport) (body : MctpBody) (c : Chip) : Chip :=
  if !c.spdmUp tr then c
  else match body with
    | .nvmeMi r => c.emit (.nvmeMi tr r)
    | .spdm r =>
      if (c.conn tr).busy then c.emit (.spdm tr (.error 3))
      else if !spdmSupported.contains (leNat ((r.drop 1).take 1)) then c.emit (.spdm tr (.error 7))
      else c.modConn tr (fun x => { x with busy := true })

/-! ### JTAG -/

/-- The bits of a value, least significant first. -/
def bitsLe (v n : Nat) : List Bool := (List.range n).map (bitOf v)

/-- SEC_ROOT_STATUS (Table 17-12). -/
def Chip.rootStatus (c : Chip) : Nat :=
  c.lifecycle + 16 * (DebugState.code c.root.debug) + 2 ^ 8 * c.get R.SEC_ROOT_STATUS_BUSY + 2 ^ 9 * flag c.chalValid + 2 ^ 10 * c.get R.SEC_ROOT_STATUS_REFUSED +
  2 ^ 11 * flag c.root.mono.zeroizePending + 2 ^ 12 * flag c.root.secret.transport.isSome

/-- SEC_ROOT_RESULT (Table 17-12). -/
def Chip.rootResultWord (c : Chip) : Nat :=
  c.get R.SEC_ROOT_RESULT_VALID + 2 ^ 8 * c.get R.SEC_ROOT_RESULT_CODE + 2 ^ 16 * c.get R.SEC_ROOT_RESULT_COMMAND

/-- An instruction selected, and how boundary scan then has the pins. -/
def Chip.jtagSelect (c : Chip) (i : JtagInstr) (p : PinMode) : Chip := { c with root := { c.root with jtag := i, pins := p } }

/-- Bits shifted through the bypass register, which captures 0. -/
def Chip.bypassShift (c : Chip) (tdi : List Bool) : Chip :=
  ({ c with root := { c.root with bypassBit := tdi.getLastD false } } : Chip).emit (.jtag ((false :: tdi).take tdi.length))

/-- R541: the port has power in Dawn, Day and Dusk. -/
def Chip.jtagOn (c : Chip) (f : Chip → Chip) : Chip := if c.awake then f c else c

/-- BYPASS (R541). -/
def jtagBypass (tdi : List Bool) (c : Chip) : Chip := c.jtagOn (fun c => (c.jtagSelect .bypass .functional).bypassShift tdi)

/-- IDCODE (R541). -/
def jtagIdcode (c : Chip) : Chip := c.jtagOn (fun c => (c.jtagSelect .idcode .functional).emit (.jtag (bitsLe 0x20960B37 32)))

/-- SAMPLE/PRELOAD (R541): the cells sampled shift out, the preload shifts in. -/
def jtagSamplePreload (cells preload : List Bool) (c : Chip) : Chip :=
  c.jtagOn (fun c =>
    ({ (c.jtagSelect .samplePreload .functional) with root := { (c.jtagSelect .samplePreload .functional).root with boundary := preload } } : Chip).emit
      (.jtag cells))

/-- Whether EXTEST, CLAMP and HIGHZ are allowed (Table 17-9). -/
def Chip.scanAllowed (c : Chip) : Bool := c.lifecycle == 0 || c.root.debug == .opened

/-- EXTEST (R541). -/
def jtagExtest (cells preload : List Bool) (c : Chip) : Chip :=
  c.jtagOn (fun c =>
    if c.scanAllowed then
      let c := c.jtagSelect .extest .driven
      ({ c with root := { c.root with boundary := preload } } : Chip).emit (.jtag cells)
    else (c.jtagSelect .bypass .functional).bypassShift preload)

/-- CLAMP (R541). -/
def jtagClamp (tdi : List Bool) (c : Chip) : Chip :=
  c.jtagOn (fun c => (if c.scanAllowed then c.jtagSelect .clamp .driven else c.jtagSelect .bypass .functional).bypassShift tdi)

/-- HIGHZ (R541). -/
def jtagHighz (tdi : List Bool) (c : Chip) : Chip :=
  c.jtagOn (fun c => (if c.scanAllowed then c.jtagSelect .highz .floating else c.jtagSelect .bypass .functional).bypassShift tdi)

/-- DBG_CHALLENGE (R529, R541). -/
def dbgChallenge (c : Chip) : Chip :=
  c.jtagOn (fun c => (c.jtagSelect .dbgChallenge .functional).rootCommand (fun c =>
    let c := c.makeChallenge.rootResult 0 0
    c.emit (.jtag (bitsLe (c.root.challenge.getD 0) 256))))

/-- DBG_STATUS (R541); the ROM serves it too where no loader copy verifies (R554). -/
def dbgStatus (c : Chip) : Chip :=
  if c.awake || (c.pwr.mode == .held && c.pwr.hold == .rom) then
    (c.jtagSelect .dbgStatus .functional).emit (.jtag (bitsLe c.rootResultWord 32 ++ bitsLe c.rootStatus 32))
  else c

-- EXEC getChallenge challengeExpiry clearMailbox provision deploy service returnToken retire fuseOwner revokeOwner trustAdd trustRemove revokeFwKey secRootCntClr getVersion getCapabilities negotiateAlgorithms getDigests getCertificate spdmChallenge getMeasurements mctpMessage jtagBypass jtagIdcode jtagSamplePreload jtagExtest jtagClamp jtagHighz dbgChallenge dbgStatus

/-- GET_CHALLENGE (R529). -/
def execGetChallenge (s : State) : Host.Outcome State Fault Refusal :=
  s.runBar2 true true R.SEC_ROOT_CMD_CMD getChallenge

/-- CHALLENGE_EXPIRY (R529). -/
def execChallengeExpiry (s : State) : Host.Outcome State Fault Refusal :=
  s.runAwake true challengeExpiry

/-- CLEAR_MAILBOX (R546). -/
def execClearMailbox (s : State) : Host.Outcome State Fault Refusal :=
  s.runBar2 true true R.SEC_ROOT_CMD_CMD clearMailbox

/-- PROVISION (R525). -/
def execProvision (src : TokenSrc) (readBackOk : Bool) (s : State) : Host.Outcome State Fault Refusal :=
  s.runBar2 true (src == .mailbox) R.SEC_ROOT_CMD_CMD (provision src readBackOk)

/-- DEPLOY (R525). -/
def execDeploy (src : TokenSrc) (readBackOk : Bool) (s : State) : Host.Outcome State Fault Refusal :=
  s.runBar2 true (src == .mailbox) R.SEC_ROOT_CMD_CMD (deploy src readBackOk)

/-- SERVICE (R525). -/
def execService (src : TokenSrc) (readBackOk : Bool) (s : State) : Host.Outcome State Fault Refusal :=
  s.runBar2 true (src == .mailbox) R.SEC_ROOT_CMD_CMD (service src readBackOk)

/-- RETURN (R525). -/
def execReturnToken (src : TokenSrc) (readBackOk : Bool) (s : State) : Host.Outcome State Fault Refusal :=
  s.runBar2 true (src == .mailbox) R.SEC_ROOT_CMD_CMD (returnToken src readBackOk)

/-- RETIRE (R525). -/
def execRetire (src : TokenSrc) (readBackOk : Bool) (s : State) : Host.Outcome State Fault Refusal :=
  s.runBar2 true (src == .mailbox) R.SEC_ROOT_CMD_CMD (retire src readBackOk)

/-- FUSE_OWNER (R531). -/
def execFuseOwner (src : TokenSrc) (readBackOk : Bool) (s : State) : Host.Outcome State Fault Refusal :=
  s.runBar2 true (src == .mailbox) R.SEC_ROOT_CMD_CMD (fuseOwner src readBackOk)

/-- REVOKE_OWNER (R523). -/
def execRevokeOwner (src : TokenSrc) (readBackOk : Bool) (s : State) : Host.Outcome State Fault Refusal :=
  s.runBar2 true (src == .mailbox) R.SEC_ROOT_CMD_CMD (revokeOwner src readBackOk)

/-- TRUST_ADD (R536). -/
def execTrustAdd (src : TokenSrc) (s : State) : Host.Outcome State Fault Refusal :=
  s.runBar2 true (src == .mailbox) R.SEC_ROOT_CMD_CMD (trustAdd src)

/-- TRUST_REMOVE (R536). -/
def execTrustRemove (src : TokenSrc) (s : State) : Host.Outcome State Fault Refusal :=
  s.runBar2 true (src == .mailbox) R.SEC_ROOT_CMD_CMD (trustRemove src)

/-- REVOKE_FW_KEY (R532). -/
def execRevokeFwKey (src : TokenSrc) (readBackOk : Bool) (s : State) : Host.Outcome State Fault Refusal :=
  s.runBar2 true (src == .mailbox) R.SEC_ROOT_CMD_CMD (revokeFwKey src readBackOk)

/-- SEC_ROOT_CNT_CLR (R546). -/
def execSecRootCntClr (s : State) : Host.Outcome State Fault Refusal :=
  s.runBar2 true true R.SEC_ROOT_CNT_CLR_CLR secRootCntClr

/-- GET_VERSION (R539). -/
def execGetVersion (tr : Transport) (s : State) : Host.Outcome State Fault Refusal :=
  s.runAwake true (getVersion tr)

/-- GET_CAPABILITIES (R539). -/
def execGetCapabilities (tr : Transport) (s : State) : Host.Outcome State Fault Refusal :=
  s.runAwake true (getCapabilities tr)

/-- NEGOTIATE_ALGORITHMS (R539). -/
def execNegotiateAlgorithms (tr : Transport) (p384 : Bool) (sha384 : Bool) (s : State) : Host.Outcome State Fault Refusal :=
  s.runAwake true (negotiateAlgorithms tr p384 sha384)

/-- GET_DIGESTS (R539). -/
def execGetDigests (tr : Transport) (s : State) : Host.Outcome State Fault Refusal :=
  s.runAwake true (getDigests tr)

/-- GET_CERTIFICATE (R539). -/
def execGetCertificate (tr : Transport) (slot : Nat) (ofs : Nat) (len : Nat) (s : State) : Host.Outcome State Fault Refusal :=
  s.runAwake true (getCertificate tr slot ofs len)

/-- CHALLENGE (R539). -/
def execSpdmChallenge (tr : Transport) (slot : Nat) (summary : Nat) (nonce : Nat) (s : State) : Host.Outcome State Fault Refusal :=
  s.runAwake true (spdmChallenge tr slot summary nonce)

/-- GET_MEASUREMENTS (R539). -/
def execGetMeasurements (tr : Transport) (index : Nat) (signed : Bool) (raw : Bool) (nonce : Nat) (s : State) : Host.Outcome State Fault Refusal :=
  s.runAwake true (getMeasurements tr index signed raw nonce)

/-- MCTP_MESSAGE (R539). -/
def execMctpMessage (tr : Transport) (body : MctpBody) (s : State) : Host.Outcome State Fault Refusal :=
  s.runAwake true (mctpMessage tr body)

/-- BYPASS (R541). -/
def execJtagBypass (tdi : List Bool) (s : State) : Host.Outcome State Fault Refusal :=
  s.run true (jtagBypass tdi)

/-- IDCODE (R541). -/
def execJtagIdcode (s : State) : Host.Outcome State Fault Refusal :=
  s.run true jtagIdcode

/-- SAMPLE_PRELOAD (R541). -/
def execJtagSamplePreload (cells : List Bool) (preload : List Bool) (s : State) : Host.Outcome State Fault Refusal :=
  s.run true (jtagSamplePreload cells preload)

/-- EXTEST (R541). -/
def execJtagExtest (cells : List Bool) (preload : List Bool) (s : State) : Host.Outcome State Fault Refusal :=
  s.run true (jtagExtest cells preload)

/-- CLAMP (R541). -/
def execJtagClamp (tdi : List Bool) (s : State) : Host.Outcome State Fault Refusal :=
  s.run true (jtagClamp tdi)

/-- HIGHZ (R541). -/
def execJtagHighz (tdi : List Bool) (s : State) : Host.Outcome State Fault Refusal :=
  s.run true (jtagHighz tdi)

/-- DBG_CHALLENGE (R541). -/
def execDbgChallenge (s : State) : Host.Outcome State Fault Refusal :=
  s.run true dbgChallenge

/-- DBG_STATUS (R541). -/
def execDbgStatus (s : State) : Host.Outcome State Fault Refusal :=
  s.run true dbgStatus

-- END EXEC

end Sys2Proof.Machine
end

