-- ==== Sys2Proof/Machine/Dawn.lean ====
section
/-!
DEFINITION. Dawn: clocks, loader and firmware, the Kilip image, the vault replay, and Day (R60, R61, R139, R172, R411, R507, R512, R513,
R554 to R558, R591, R624).
-/
namespace Sys2Proof.Machine

/-! ### Step 5: units, clusters, strings -/

/-- The units of a kind in service at a Dawn: those not out of service already (R139). -/
def unitsOf (n : Nat) (failing : List Nat) : List Nat := (List.range n).filter (fun u => !failing.contains u)

/-- R139: every core and unit tested; `failed` lists those that do not pass. -/
def Chip.testUnits (c : Chip) (failed : List (Nat × Nat)) : Chip :=
  let c := { c with
    dge := { c.dge with up := unitsOf 32 c.dge.failing }
    cpe := { c.cpe with up := unitsOf 64 c.cpe.failing }
    cmp := { c.cmp with compUp := unitsOf 48 c.cmp.compFailing, dcmpUp := unitsOf 48 c.cmp.dcmpFailing }
    rde := { c.rde with up := unitsOf 8 c.rde.failing } }
  let c := failed.foldl (fun d p => (d.takeOut p.1 p.2).event 0x004 0 0 (if p.1 = 4 then 4 else 3) p.2 0) c
  c.reservationCheck

/-- R454, R555: the clusters' programs loaded; a cluster whose program does not load is out of service (R66). -/
def Chip.startClusters (c : Chip) : Chip :=
  if c.kcf.active.isNone then c
  else
    let c := (List.range 24).foldl (fun (d : Chip) n =>
      let r := d.startCluster n
      if r.2 then r.1 else r.1.failCluster n) c
    c.checkPools

/-- Step 5 of Table 16-4, with the peer link's bring-up, which begins in it. -/
def Chip.dawnFive (c : Chip) : Chip :=
  let c := (c.testUnits c.boot.failedUnits).startClusters
  let c := if c.mayLink then c.trainPeer else c
  { c with boot := { c.boot with failedUnits := [] }, pwr := { c.pwr with dawnStep := 6 } }

/-! ### The Kilip image -/

/-- What a clock plan sets PLL `p` to (Table 16-6). -/
def pllFreq (k : Clocks) (p : Nat) : Nat := if p < 2 then 0 else if p < 6 then k.cluster else if p = 6 then k.accel else k.ddr

/-- R60, R61: the image in a Kilip slot, where it passes checks 1 to 10, R48, Table 2-14, and the clocks have not failed at its plan. -/
def Chip.imageAt (c : Chip) (slot : Nat) : Option ImageData :=
  let k := c.kilip slot
  match c.checkImage (Mem.read k.bytes 0 k.length) k.length with
  | .error _ => none
  | .ok i =>
    let conflict := c.boot.lastImage.any (fun a => (c.liveConflict a i).isSome)
    let unlocked := [2, 3, 4, 5, 6].any (fun p => c.bit R.PWR_PLL_FAIL p && pllFreq c.pwr.plan p == pllFreq i.clocks p)
    if conflict || unlocked then none else some i

/-- R61: a slot whose image fails at Dawn. -/
def Chip.failImage (c : Chip) (slot : Nat) : Chip :=
  ((c.modKilip slot (fun k => { k with mark := none, bad := true })).event 0x081 slot 0 0 0 0).set R.KCF_STATUS_FELL_BACK 1

/-- The filter region of an image (R206, R207, R209, R210). -/
def Chip.openFilter (c : Chip) (i : ImageData) : Chip :=
  let r := ((i.carve.filter (fun r => r.typ == 4)).head?).getD {}
  let c := if c.boot.lastImage.any (fun a => a.sec 5 == i.sec 5) then c else c.emptyFilter
  let c := { c with dd := { c.dd with filterBlocks := r.size / 16 / 64 } }
  c.setAll [(R.CMP_STATUS_FILTER_READY, 1), (R.CMP_DD_FILTER_GEN_EPOCHS, ceilDiv r.param 15), (R.CMP_DD_GEN_CAP_CAP, r.size / 16 * 8 / 24)]

/-- R60: the image applied, and its CLOCKS section stored in the Nightwatch domain (R512). An armed image that is adopted because the other
slot failed is armed no longer. -/
def Chip.adoptImage (c : Chip) (slot : Nat) (i : ImageData) : Chip :=
  let c := if c.get R.KCF_STATUS_STATE = 5 && c.kcf.persistSlot = slot then
      ({ c with kcf := { c.kcf with valid := none, activeStaging := c.kcf.staged } } : Chip).setAll [(R.KCF_STATUS_STATE, 0), (R.KCF_STATUS_NEEDS_RESET, 0)]
    else c
  let c := c.openFilter i
  let c := { c with
    kcf := { c.kcf with active := some i, persistSlot := 1 - slot }
    boot := { c.boot with candidate := none, lastImage := some i }
    pwr := { c.pwr with plan := i.clocks, nwClocks := (c.kilip slot).mark.map (fun m => (i.clocks, slot, m)) } }
  (c.activated i).setAll [(R.GLB_HEAD_HEAD_ID, i.effectiveId c.pos), (R.KCF_STATUS_NO_IMAGE, 0)]

/-- The PLLs of the image's plan that lock anew: they unlock, and their rates are the image's (R512). -/
def Chip.relock (c : Chip) (i : ImageData) : Chip :=
  let ps := (List.range 10).filter (fun p => pllFreq c.pwr.plan p != pllFreq i.clocks p)
  let c := ps.foldl (fun (d : Chip) p => (d.lower R.PWR_PLL_LOCK p).lower R.PWR_PLL_FAIL p) c
  let c := if c.pwr.plan.ddr = i.clocks.ddr then c else c.set R.MEM_INFO_MTS i.clocks.ddr
  { c with pwr := { c.pwr with
    plan := i.clocks
    pllTries := c.pwr.pllTries.filter (fun t => !ps.contains t.1)
    pllAt := c.pwr.pllAt.map (fun t => if ps.contains t.1 then (t.1, c.now) else t) } }

/-- Whether every core PLL is locked. -/
def Chip.allLocked (c : Chip) : Bool := c.get R.PWR_PLL_LOCK == 0x3FF

/-- The candidate adopted once every PLL has locked to its plan, and step 5. -/
def Chip.adoptIfLocked (c : Chip) : Chip :=
  match c.boot.candidate with
  | some (slot, i) => if c.allLocked then (c.adoptImage slot i).dawnFive else c
  | none => c

/-- R60, R61: the images tried in turn, newest mark first; with none, the head runs without an image. A retired head reads none. -/
def Chip.chooseImage : Nat → Chip → Chip
  | 0, c => (c.setAll [(R.KCF_STATUS_FELL_BACK, 0), (R.KCF_STATUS_NO_IMAGE, 1)]).dawnFive
  | n + 1, c =>
    match if c.lifecycle = 4 then none else c.bootSlot with
    | none => (c.setAll [(R.KCF_STATUS_FELL_BACK, 0), (R.KCF_STATUS_NO_IMAGE, 1)]).dawnFive
    | some slot =>
      match c.imageAt slot with
      | none => (c.failImage slot).chooseImage n
      | some i => (({ c with boot := { c.boot with candidate := some (slot, i) } } : Chip).relock i).adoptIfLocked

/-! ### The loader and the firmware -/

/-- R543: a zeroization that a reset interrupted runs before anything else reaches DRAM or a key. -/
def Chip.finishZeroize (c : Chip) : Chip :=
  if c.root.mono.zeroizePending then c.zeroize.sealMono (fun m => { m with zeroizePending := false }) else c

/-- R236, R245, R246: persistent keys present again in a deployed head, and what the sealed store says of every slot. -/
def Chip.reloadKeys (c : Chip) : Chip :=
  c.root.mono.slots.foldl (fun (d : Chip) e =>
    let key := Sparse.get 0 d.root.secret.keys e.1
    let r := e.2
    let live := r.persist && key != 0 && d.lifecycle == 2
    d.modSlot e.1 (fun s => { s with
      erased := r.erased, eraseEpoch := r.eraseEpoch, persist := r.persist && live
      state := if r.erasing then .erasing else if live then .loaded else .empty
      key := if live then key else 0 })) c

/-- Step 4 of Table 18-5: the firmware checked, measured and started. A loader-only head trains its peer link (R558, R567). -/
def Chip.startFirmware (c : Chip) : Option Chip :=
  let bs := Mem.read c.boot.fwSlot 0 c.boot.fwHeader.length
  if c.boot.fwState ≠ 2 then none
  else if c.checkFw bs true ≠ 0 then none
  else
    let h := fwHeaderOf bs
    let c := (c.measure 3 1 0 (beNat (sha384 bs))).setAll
      [(R.BOOT_STATUS_STAGE, 2), (R.BOOT_FW_RUNNING_SERIAL, h.serial), (R.BOOT_GEN_WRITE_GEN, h.writeGen), (R.BOOT_GEN_READ_MIN_GEN, h.readMinGen),
       (R.BOOT_STATUS_FW_PENDING, flag (!c.boot.confirmed)), (R.BOOT_LO_CAUSE, 0)]
    let c : Chip := { c with boot := { c.boot with running := some h } }
    some ((c.bump R.BOOT_CNT_DAWNS_DAWNS 1).showPending)

/-- The check that the slot fails, for BOOT_VERIFY and the boot-failure event. -/
def Chip.slotCheck (c : Chip) : Nat := if c.boot.fwState = 2 then c.checkFw (Mem.read c.boot.fwSlot 0 c.boot.fwHeader.length) true else 0

/-- The loader-only state, with the peer link's training. -/
def Chip.stayInLoader (c : Chip) (cause check : Nat) : Chip :=
  let c := c.enterLoaderOnly cause check
  if c.mayLink then c.trainPeer else c

/-- ROM: the loader copy of higher serial that verifies: its number and serial. -/
def Chip.loaderCopy (c : Chip) (copy0 copy1 : Bool) : Option (Nat × Nat) :=
  if copy1 && (!copy0 || decide (c.boot.loader0 < c.boot.loader1)) then some (1, c.boot.loader1)
  else if copy0 then some (0, c.boot.loader0)
  else none

/-- Steps 1 and 2 of Table 18-5 and what every Dawn measures and shows. -/
def Chip.startLoader (c : Chip) (copy serial : Nat) (sramOk : Bool) : Chip :=
  let c := (c.measure 1 1 0 (Config.romHash 3)).measure 2 1 0 (Config.loaderHash serial)
  let c := (c.finishZeroize.dawnRecorder sramOk).setAll [(R.BOOT_STATUS_LOADER_COPY, copy), (R.BOOT_STATUS_STAGE, 1)]
  let c := if c.pwr.faultCause = 0 then c
    else ({ (c.event 0x003 0 0 (c.pwr.faultCause - 1) 0 0) with pwr := { (c.event 0x003 0 0 (c.pwr.faultCause - 1) 0 0).pwr with faultCause := 0 } } : Chip)
  let c := (c.measureState 1).measureOtp 1
  let c : Chip := { c with boot := { c.boot with boardUsed := c.boot.boardRec } }
  match c.boot.boardRec with
  | some r => c.setAll [(R.BOOT_BOARD_SSVID, r.ssvid), (R.BOOT_BOARD_SSID, r.ssid), (R.BOOT_BOARD_SERIAL_SERIAL, r.serial)]
  | none => c

/-- FIRMWARE_START (R554, R60, R139): ROM, loader and firmware, and the image; a PLL or memory failure has left the head in the loader. -/
def firmwareStart (copy0 copy1 sramOk : Bool) (failedUnits : List (Nat × Nat)) (c : Chip) : Chip :=
  if c.pwr.mode ≠ .dawn || c.pwr.dawnStep ≠ 4 || c.boot.started then c
  else
    match c.loaderCopy copy0 copy1 with
    | none => ({ c with epc := { c.epc with link := .down } } : Chip).holdReset .rom true
    | some (copy, serial) =>
      let c := { c with boot := { c.boot with started := true, failedUnits := failedUnits } }
      let c := c.startLoader copy serial sramOk
      if c.on R.GLB_STATUS_LOADER_ONLY then (if c.mayLink then c.trainPeer else c)
      else
        let trial := c.boot.fwState == 2 && !c.boot.confirmed
        if trial && decide (3 ≤ c.boot.attempts) then c.stayInLoader 2 0
        else
          let c := if trial then c.slotTable (fun b => { b with attempts := b.attempts + 1 }) else c
          match c.startFirmware with
          | none =>
            let check := c.slotCheck
            (c.verifyFailed check 1).stayInLoader 1 check
          | some c =>
            let c := if c.lifecycle = 2 && c.root.secret.transport.isNone then c.makeTransport else c
            (c.reloadKeys.setAll [(R.KCF_STATUS_FELL_BACK, 0), (R.KCF_STATUS_NO_IMAGE, 0)]).chooseImage 2

/-! ### Clocks -/

/-- Whether a PLL's failure leaves the head in the loader (R513): SYS, CPU and the DDR PLLs. -/
def vitalPll (p : Nat) : Bool := decide (p < 2) || decide (6 < p)

/-- Step 2 over: every PLL has locked or failed. -/
def Chip.clocksSettled (c : Chip) : Chip :=
  if c.pwr.dawnStep = 2 && (List.range 10).all (fun p => c.bit R.PWR_PLL_LOCK p || c.bit R.PWR_PLL_FAIL p) then
    if (List.range 10).any (fun p => vitalPll p && c.bit R.PWR_PLL_FAIL p) then
      ({ c with pwr := { c.pwr with dawnStep := 4 } } : Chip).enterLoaderOnly 4 0
    else { c with pwr := { c.pwr with dawnStep := 3 } }
  else c

/-- PLL_LOCKED (R512, R513). -/
def pllLocked (p : Nat) (c : Chip) : Chip :=
  if 10 ≤ p || c.pwr.dawnStep < 2 || c.bit R.PWR_PLL_LOCK p || c.bit R.PWR_PLL_FAIL p then c
  else (c.raise R.PWR_PLL_LOCK p).clocksSettled.adoptIfLocked

/-- A PLL given up: at step 2, or while it locks to an image's plan, whose image then fails (R61, R513). -/
def Chip.pllFails (c : Chip) (p : Nat) : Chip :=
  let c := (c.raise R.PWR_PLL_FAIL p).event 0x304 p 0 0 0 0
  match c.boot.candidate with
  | none => c.clocksSettled
  | some (slot, _) =>
    let c : Chip := { c with boot := { c.boot with candidate := none } }
    if vitalPll p then c.stayInLoader 4 0 else (c.failImage slot).chooseImage 2

/-- PLL_LOCK_TIMEOUT (R513): tried three times, 1 ms each. -/
def pllLockTimeout (p : Nat) (c : Chip) : Chip :=
  let busy := c.pwr.mode == .dawn && (c.pwr.dawnStep == 2 || c.boot.candidate.isSome)
  let at_ := Sparse.get 0 c.pwr.pllAt p
  if 10 ≤ p || !busy || c.bit R.PWR_PLL_LOCK p || c.bit R.PWR_PLL_FAIL p || decide (c.now < at_ + 1000000) then c
  else
    let tries := Sparse.get 0 c.pwr.pllTries p + 1
    let c := { c with pwr := { c.pwr with pllTries := Sparse.set 0 c.pwr.pllTries p tries, pllAt := Sparse.set 0 c.pwr.pllAt p c.now } }
    if tries < 3 then c else c.pllFails p

/-! ### The vault -/

/-- R411: the epoch that a head holds after a cold reset; `sealMax` is the largest epoch of the seal records on the catalogue shelves. -/
def Chip.coldEpoch (c : Chip) (sealMax : Nat) : Chip :=
  if c.pwr.coldDawn then c.set R.GLB_EPOCH_EPOCH (1 + max c.root.mono.maxEpoch (max c.ing.vault.sealEpoch sealMax)) else c

/-- Whether a piece's map record is among the records. -/
def hasMapRec (recs : List JRec) (wid piece : Nat) : Bool := recs.any (fun r => r.kind == .map wid piece)

/-- The pieces of a data record that the image holds no map record of (R172). -/
def uncovered (recs : List JRec) (w : WrBuf) : List Piece := w.pieces.filter (fun p => !p.lost && !hasMapRec recs w.wid p.index)

/-- One metadata record applied (R172); `drop` lists the pieces that are ingested again. -/
def Chip.replayRec (drop : List (Nat × Nat)) (c : Chip) (r : JRec) : Chip :=
  match r.kind with
  | .map _ _ => (c.ftm.mapRecs.filter (fun m => m.rsn == r.rsn && !m.fromPeer)).foldl (fun d m => d.applyRec m) c
  | .catalogue wid piece =>
    let mine := fun (u : CatUpdate) => u.wid == wid && u.piece == piece && !u.fromPeer
    if drop.contains (wid, piece) then c
    else
      let us := c.dd.updates.filter mine
      us.foldl (fun d u => d.applyCat true u.change) { c with dd := { c.dd with updates := c.dd.updates.filter (fun u => !mine u) } }
  | .nsChange nsid => (c.nvm.pendingNs.filter (fun p => p.nsid == nsid)).foldl (fun d p => d.takeNs nsid (p.change.apply (d.nsOf nsid)) p.change.wipes) c
  | _ => c

/-- A data record's uncovered pieces ingested again (R172): its bytes in the write buffer, its data record in the journal, and its blocks
scanned. -/
def Chip.reingest (recs : List JRec) (c : Chip) (v : VaultWrite) : Chip :=
  let again := uncovered recs v.write
  if again.isEmpty then c
  else
    let n := v.write.bytes + v.write.metaBytes
    let g := c.findGranule v.write.fn n
    let base := (g.map (fun g => c.wbBase + g * 0x400000 + (c.granule g).used)).getD v.write.base
    let c := match g with
      | some g => c.modGranule g (fun x => { x with used := x.used + n, live := x.live + n })
      | none => c
    let ps := v.write.pieces.map (fun p =>
      if again.contains p then { p with placed := 0, mapRsn := none, durable := false } else { p with mapRsn := some placedByPeer, durable := true })
    let seq := c.ing.postSeq + 1
    let w := { v.write with
      base := base, mbase := base + v.write.bytes, own := true, arrived := true, passed := true, mirrored := true, journalled := true
      completed := some seq, exposed := true, pieces := ps }
    let c := { c with ing := { c.ing with postSeq := seq, ownUsed := c.ing.ownUsed + n, writes := c.ing.writes ++ [w] } }
    (((c.store base v.data).store w.mbase v.mdata).append (.data w.wid)).rescan w

/-- A data record put in its place among those in the order in which their writes completed. -/
def putByCompletion (v : VaultWrite) : List VaultWrite → List VaultWrite
  | [] => [v]
  | x :: l => if v.write.completed.getD 0 < x.write.completed.getD 0 then v :: x :: l else x :: putByCompletion v l

/-- Data records in the order in which their writes completed (R172). -/
def byCompletion (l : List VaultWrite) : List VaultWrite := l.foldl (fun a v => putByCompletion v a) []

/-- What a vault image yields (R172, R535): its records and data records, where its key opens it: all of them under a valid seal, but for records that
fail their check; else those up to the last record that passes. -/
def Vault.readable (v : Vault) (key : Option Nat) (sealOk : Bool) (bad : List Nat) : List JRec × List VaultWrite :=
  if v.key != key then ([], [])
  else if sealOk then (v.recs.filter (fun r => !bad.contains r.rsn), v.writes)
  else
    let recs := v.recs.takeWhile (fun r => !bad.contains r.rsn)
    (recs, v.writes.filter (fun w => recs.any (fun r => r.kind == .data w.write.wid)))

/-- The records replayed in sequence order and the data records ingested in the order of their completion (R172). `failed` lists the writes
whose data record fails its check. -/
def Chip.replay (c : Chip) (recs : List JRec) (writes : List VaultWrite) (failed : List Nat) : Chip :=
  let drop := writes.flatMap (fun v => (uncovered recs v.write).map (fun p => (v.write.wid, p.index)))
  let c := recs.foldl (Chip.replayRec drop) c
  let c := { c with
    ing := { c.ing with journal := [], writes := [], ownUsed := 0, vault := { mark := .live } }
    ftm := { c.ftm with mapRecs := [] }
    dd := { c.dd with updates := [] }
    nvm := { c.nvm with pendingNs := [] } }
  let c := c.splitGranules c.wbSize (fun _ => true)
  let bad := writes.filter (fun v => failed.contains v.write.wid)
  let c := bad.foldl (fun d v => (uncovered recs v.write).foldl (fun d p => d.loseRange v.write.nsid p.slba p.blocks 4) d) c
  (byCompletion (writes.filter (fun v => !failed.contains v.write.wid))).foldl (Chip.reingest recs) c

/-- VAULT_REPLAY (R172, R411, R591): step 6 of Table 16-4. `superseded` says that the survivor has superseded the image (R149), `sealOk` that its seal
passes its check, `bad` lists the numbers of the records that fail theirs, and `failed` the writes whose data record fails it. -/
def vaultReplay (superseded : Bool) (sealMax : Nat) (failed : List Nat) (sealOk : Bool) (bad : List Nat) (c : Chip) : Chip :=
  if c.pwr.mode ≠ .dawn || c.pwr.dawnStep ≠ 6 then c
  else
    let v := c.ing.vault
    let c := if c.pwr.cancelled then c else c.coldEpoch sealMax
    let c := { c with pwr := { c.pwr with dawnStep := 7 } }
    if c.kcf.active.isNone then c
    else
      let gone := v.mark == .superseded || v.mark == .closed || (superseded && v.withPeer)
      let lost := c.on R.MEM_STATUS_CONTENT_LOST
      if gone then c.replay [] [] []
      else if v.mark = .sealed then
        let p := v.readable c.root.secret.vault sealOk bad
        c.replay p.1 p.2 failed
      else if !lost then c.replay c.ing.journal c.exposedData failed
      else
        let ws := c.ing.writes.filter (fun w => w.own && w.exposed)
        ws.foldl (fun d w => d.loseRange w.nsid w.slba w.nlb 4) (c.replay v.recs [] [])

/-! ### Day -/

/-- R245: an erase that a reset interrupted goes on: the key is zeroized before any I/O queue is served, once no chunk of an earlier write
waits for it. -/
def Chip.finishErases (c : Chip) : Chip :=
  let slots := (c.root.mono.slots.filter (fun e => e.2.erasing)).map (·.1)
  slots.foldl (fun (d : Chip) k =>
    let waits := d.chunksWait k
    let op : KeyOp := { slot := k, id := ⟨0, 0, 0⟩, load := false, key := 0, persist := false, opid := 0, remote := true, agreed := true,
                        chunksLeft := waits, zeroized := !waits }
    let d := if waits then d else d.zeroizeSlot k
    if d.cpe.ops.any (fun o => o.slot == k) then d else { d with cpe := { d.cpe with ops := d.cpe.ops ++ [op] } }) c

/-- R406: the boundary that falls as the head reaches Day; a head at position 1 whose pair waits opens no epoch of its own (R400), and one that
is being readmitted takes the survivor's (R420). -/
def Chip.dayEpoch (c : Chip) : Chip :=
  if (c.pos = 1 && c.zbl.pairEpoch.isSome) || (c.zbl.state == .joining && c.zbl.pairEpoch.isNone) then c
  else (c.anchorNow c.nextEpoch).openEpoch c.nextEpoch

/-- DAY_REACHED (R505, R507, R556, R624). -/
def dayReached (c : Chip) : Chip :=
  if c.pwr.mode ≠ .dawn || c.pwr.dawnStep ≠ 7 || c.on R.GLB_STATUS_LOADER_ONLY || !c.holdupGood then c
  else
    let back := c.pwr.cancelled
    let c := { c with pwr := { c.pwr with mode := .day, dayAt := c.now, cancelled := false } }
    let c := if c.boot.attempts = 0 then c else c.slotTable (fun b => { b with attempts := 0 })
    let c := (c.set R.PWR_STATUS_PHASE 0).dayEpoch
    let c := c.finishErases
    let c := if c.zbl.state = .sole then (c.takeStrings 0xFFFF false).askFirst else c
    let c := if c.mayLink && !c.linkUp && !c.zbl.training && !back then c.trainPeer else c
    if back then c.pwrEnd 1 else c

-- EXEC pllLocked pllLockTimeout firmwareStart vaultReplay dayReached

/-- PLL_LOCKED (R513). -/
def execPllLocked (pll : Nat) (s : State) : Host.Outcome State Fault Refusal :=
  s.runAwake true (pllLocked pll)

/-- PLL_LOCK_TIMEOUT (R513). -/
def execPllLockTimeout (pll : Nat) (s : State) : Host.Outcome State Fault Refusal :=
  s.runAwake true (pllLockTimeout pll)

/-- FIRMWARE_START (R554). -/
def execFirmwareStart (copy0 : Bool) (copy1 : Bool) (sramOk : Bool) (failedUnits : List (Nat × Nat)) (s : State) : Host.Outcome State Fault Refusal :=
  s.runAwake true (firmwareStart copy0 copy1 sramOk failedUnits)

/-- VAULT_REPLAY (R172). -/
def execVaultReplay (superseded : Bool) (sealMax : Nat) (failed : List Nat) (sealOk : Bool) (bad : List Nat) (s : State) : Host.Outcome State Fault Refusal :=
  s.runAwake true (vaultReplay superseded sealMax failed sealOk bad)

/-- DAY_REACHED (R507). -/
def execDayReached (s : State) : Host.Outcome State Fault Refusal :=
  s.runAwake true dayReached

-- END EXEC

end Sys2Proof.Machine
end

