-- ==== Sys2Proof/Machine/Endpoint.lean ====
section
/-!
DEFINITION. The PCI Express endpoint (chapter 3): link, resets of functions and of the endpoint, SR-IOV, MSI-X, errors, and the completions
of the head's reads of host memory; clearing CC.EN and abrupt shutdown (R104, R105).
-/
namespace Sys2Proof.Machine

/-! ### Disposing of a function's work -/

/-- The name that work kept beyond its function's reset goes under: no command in flight bears it, so no completion is sent (Table 3-9). -/
def goneId (i : CmdId) : CmdId := { i with sq := 65536 }

/-- Whether a transfer serves a command or a fetch of the functions given. -/
def servesFn (p : Nat → Bool) (x : Xfer) : Bool :=
  p x.fn && (match x.purpose with
    | .kcfLoad => false
    | .dmaChannel .. => false
    | _ => true)

/-- Key operations of the functions whose proposal is not committed are abandoned (Table 3-9, R401). -/
def Chip.dropKeyOps (c : Chip) (p : Nat → Bool) : Chip :=
  let idle := c.cpe.ops.filter (fun o => !o.remote && p o.id.fn && c.zbl.proposals.any (fun a => a.opid == o.opid && !a.committed))
  let c := idle.foldl (fun d o => d.dropProposal o.opid) c
  let ops := (c.cpe.ops.filter (fun o => !idle.contains o)).map (fun o => if p o.id.fn && !o.remote then { o with id := goneId o.id } else o)
  { c with cpe := { c.cpe with ops := ops } }

/-- Table 3-9: the commands in flight of the functions given. Arrived writes go on without a completion, other writes are discarded, reads and
changes not yet made are abandoned. -/
def Chip.dispose (c : Chip) (p : Nat → Bool) : Chip :=
  let c := { c with nvm := { c.nvm with
    inflight := c.nvm.inflight.filter (fun i => !p i.id.fn)
    pendingNs := (c.nvm.pendingNs.filter (fun (n : PendingNs) => !p n.id.fn || decide (n.epoch < c.epoch))).map (fun (n : PendingNs) =>
      if p n.id.fn then { n with id := goneId n.id } else n) } }
  let c := c.dropXfers (servesFn p)
  let mine := fun (w : WrBuf) => w.own && p w.id.fn
  let c := (c.ing.writes.filter (fun w => mine w && !w.arrived)).foldl (fun d w => d.discardWrite w.wid) c
  let c := (c.ing.writes.filter (fun w => mine w && !w.passed)).foldl (fun d w => writeDataArrived w.id d) c
  let c := ({ c with ing := { c.ing with
    reads := c.ing.reads.filter (fun r => !p r.id.fn)
    walks := c.ing.walks.filter (fun w => !p w.id.fn)
    writes := c.ing.writes.map (fun w => if mine w then { w with id := goneId w.id } else w) } } : Chip).keepWanted
  let writer := match c.boot.writer with
    | some (.commit id) => if p id.fn then some (FwWriter.commit (goneId id)) else c.boot.writer
    | w => w
  let waiting := c.boot.commitWaiting.filter (fun id => !p id.fn)
  ({ c with boot := { c.boot with writer := writer, commitWaiting := waiting } } : Chip).dropKeyOps p

/-- The reset of the controllers of the functions given: their queues go, and with the PF's its download buffer (R559) and a short self-test,
which the NVMe specification ends at a controller's reset (log entry 15). -/
def Chip.resetCtrls (c : Chip) (p : Nat → Bool) : Chip :=
  let c := c.dispose p
  let c := { c with nvm := { c.nvm with ctrls := c.nvm.ctrls.filter (fun e => !p e.1) } }
  if p 0 then
    let c := { c with boot := { c.boot with download := [], pieces := [] } }
    match c.nvm.selfTest with
    | some t => if t.code = 1 then (c.logTest t 0x2).startDusk else c
    | none => c
  else c

/-- The function whose configuration space, controller registers or MSI-X table an address lies in (log entry 6). -/
def fnOfAddr (a : Nat) : Option Nat :=
  if 0x40000000 ≤ a && a < 0x40400000 then some ((a - 0x40000000) / 0x1000)
  else if 0x80000000 ≤ a && a < 0x81000000 then some ((a - 0x80000000) / 0x4000)
  else if 0xC0000000 ≤ a && a < 0xC4000000 then some ((a - 0xC0000000) / 0x10000)
  else none

/-- The registers of the functions given at their reset values, and their Pending bits clear (R79, R80); kept fields stay. -/
def Chip.resetFnRegs (c : Chip) (p : Nat → Bool) : Chip :=
  let stays := fun a => !((fnOfAddr a).any p)
  { c with
    regs := { c.regs with
      vol := c.regs.vol.filter (fun e => stays (e.1 / 64))
      held := c.regs.held.filter (fun e => stays e.1)
      shadow := c.regs.shadow.filter (fun e => stays e.1) }
    epc := { c.epc with pending := c.epc.pending.filter (fun e => !p (e.1 / 4096)), pme := c.epc.pme && !p 0 } }

/-- The reset of functions: controller, MSI-X table, configuration space. -/
def Chip.resetFns (c : Chip) (p : Nat → Bool) : Chip := (c.resetCtrls p).resetFnRegs p

/-- What a reset of the PF and a link loss end beside the functions: a KCF LOAD (R56) and the host-owned chains (R458). -/
def Chip.endHostWork (c : Chip) : Chip :=
  let c := if c.kcfState = 1 then c.endLoad false else c
  c.abortHostChains

/-- Whether a host read request belongs to a channel of the control cores (R457): such a channel outlives the host's functions. -/
def Chip.firmwareRead (c : Chip) (r : ReadReq) : Bool :=
  c.epc.xfers.any (fun x => x.id == r.xfer && (match x.purpose with
    | .dmaChannel ch _ => !hostOwned ch
    | _ => false))

/-- The endpoint reset (Table 18-1): every function, as a conventional reset resets it (R96). The link carries nothing from the first moment on
(R97), and completions that were on it are lost. -/
def Chip.endpointReset (c : Chip) (link : LinkState) : Chip :=
  let c := ({ c with epc := { c.epc with link := .down } } : Chip)
  let c := (c.endHostWork.resetFns (fun _ => true))
  { c with epc := { c.epc with link := link, cfgReady := false, reqs := c.epc.reqs.filter c.firmwareRead, abandoned := [], pending := [] } }

/-! ### Lists in host memory -/

/-- A walk's result used. -/
def Chip.walkEnds (c : Chip) (w : ListWalk) (res : Except Status HostBuf) : Chip :=
  match w.goal with
  | .write => c.fetchData w.id res
  | .input => c.readInput w.id res
  | .send spans st page rd => c.sendSpans w.id spans st page rd res

/-- A read of a list has arrived: the walk goes on. -/
def Chip.listArrived (c : Chip) (id : CmdId) : Chip :=
  match c.ing.walks.find? (fun w => w.id == id && !w.ready) with
  | none => c
  | some w =>
    let p := (c.dropWalk id).walk w (w.take (c.load (c.listBuf w.slot) w.bytes))
    match p.2 with
    | none => p.1
    | some res => p.1.walkEnds w res

/-- A read of a list has failed: the command completes with Data Transfer Error, and what was held for it goes (Table 3-6). -/
def Chip.listFails (c : Chip) (id : CmdId) : Chip :=
  match c.ing.walks.find? (fun w => w.id == id && !w.ready) with
  | none => c
  | some w => (c.dropWalk id).walkEnds w (.error stXfer)

/-! ### The link -/

/-- Bytes that waited until their function may issue requests are sent (R81). -/
def Chip.sendReady (c : Chip) (fn : Nat) : Chip :=
  (c.ing.walks.filter (fun w => w.id.fn == fn && w.ready)).foldl (fun d w => (d.dropWalk w.id).walkEnds w (.ok w.found)) c

/-- What waited for the link, for Bus Master Enable or for D0 goes on (R69, R81): reads, bytes to send, completions and messages. -/
def Chip.requestsResume (c : Chip) : Chip :=
  ((c.nvm.ctrls.foldl (fun d e => if d.mayRequest e.1 then d.sendReady e.1 else d) c.sendReads).resumePosts).flushAll

/-- R96, R97: the loss of the host link: counted and recorded, the peer told, every function reset; from Dusk phase 5 the head enters Night
(R504). -/
def Chip.linkLost (c : Chip) (link : LinkState) : Chip :=
  let c := ((c.bumpHold R.EPC_CNT_LINKLOSS_LINKLOSS 1).set R.EPC_STATUS_HOST_LOST 1).event 0x041 0 0 0 0 0
  let c := (c.endpointReset link).notice 1 0
  let at_ := c.now
  let c : Chip := { c with epc := { c.epc with hadLink := false }, pwr := { c.pwr with hostLostAt := some at_ } }
  if c.phase = 5 then c.enterNight else c

/-- DL_DOWN (R96 to R98, R504): a link that has been up is lost; the head trains again at once unless PERST# is asserted. -/
def dlDown (c : Chip) : Chip := if c.epc.hadLink then c.linkLost (if c.epc.perstLow then .down else .training) else c

/-- HOT_RESET (R98). -/
def hotReset (c : Chip) : Chip := if c.epc.hadLink && c.epc.link == .l0 then c.endpointReset .training else c

/-- PME_TURN_OFF (R501, R504): answered with PME_TO_Ack; the link enters L2, which is link loss. -/
def pmeTurnOff (c : Chip) : Chip := if c.epc.link == .l0 then (c.emit .pmeAck).linkLost .l2 else c

/-- PERST_ASSERT (R504, R547, R548): the endpoint reset; from Dusk phase 5 the head enters Night. -/
def perstAssert (c : Chip) : Chip :=
  if c.epc.perstLow then c
  else
    let c := { c with epc := { c.epc with perstLow := true, perstAt := c.now } }
    if !c.awake then c
    else
      let c := c.endpointReset .down
      if c.phase = 5 then c.enterNight else c

/-- PERST_DEASSERT (R98, R498, R592): link training begins; a head in Night wakes; one held after repeated head faults leaves its reset after at
least 1 s of assertion. -/
def perstDeassert (c : Chip) : Chip :=
  if !c.epc.perstLow then c
  else
    let long := decide (c.epc.perstAt + 1000000000 ≤ c.now)
    let c := { c with epc := { c.epc with perstLow := false } }
    if c.awake then ({ c with epc := { c.epc with link := .training } } : Chip).joinWake 0 0
    else if c.pwr.mode == .held && c.pwr.hold == .faults then (if long then c.warmReset else c)
    else c.wake 0 0

/-- LINK_L0_REACHED (R68, R98). -/
def linkL0Reached (rate width : Nat) (flit : Bool) (c : Chip) : Chip :=
  if c.epc.link ≠ .training || c.epc.perstLow || rate = 0 || 6 < rate || !([1, 2, 4, 8, 16].contains width) || (rate = 6 && !flit) then c
  else
    let c := { c with epc := { c.epc with link := .l0, hadLink := true }, pwr := { c.pwr with hostLostAt := none } }
    (c.setAll [(R.EPC_STATUS_RATE, rate), (R.EPC_STATUS_WIDTH, width), (R.EPC_STATUS_FLIT, flag flit)]).requestsResume

/-- CONFIG_SPACE_READY (R98): the Device Readiness Status message. -/
def configSpaceReady (c : Chip) : Chip :=
  if c.epc.link == .l0 && !c.epc.cfgReady then ({ c with epc := { c.epc with cfgReady := true } } : Chip).emit .deviceReady else c

/-- LINK_ERROR (R93, Table 3-7): logged in the PF, or in the function concerned; a fatal protocol error retrains the link. An uncorrectable
internal error leaves the host path unusable, so that no controller can post (R106). Status bits are those of the PCI Express specification (log
entry 14). -/
def linkError (err : LinkErr) (fn : Nat) (replayed : Bool) (c : Chip) : Chip :=
  if c.epc.perstLow then c
  else
    let c := if replayed then c.bumpHold R.EPC_CNT_REPLAY_REPLAY 1 else c
    let retrain := fun (d : Chip) => ({ d with epc := { d.epc with link := .training } } : Chip).setAll
      [(R.EPC_STATUS_RATE, 0), (R.EPC_STATUS_WIDTH, 0), (R.EPC_STATUS_FLIT, 0)]
    match err with
    | .receiverError => c.logAer 0 .correctable 0
    | .badTlp => c.logAer 0 .correctable 6
    | .badDllp => c.logAer 0 .correctable 7
    | .replayRollover => c.logAer 0 .correctable 8
    | .replayTimeout => c.logAer 0 .correctable 12
    | .advisoryNonFatal => c.logAer fn .correctable 13
    | .correctedInternal => c.logAer 0 .correctable 14
    | .headerLogOverflow => c.logAer fn .correctable 15
    | .fecCorrected => c.bumpHold R.EPC_CNT_FEC_FEC 1
    | .poisonedTlp => ((c.bumpHold R.EPC_CNT_POISON_POISON 1).poisonSeen fn false).logAer fn .nonFatal 12
    | .ecrc =>
      if c.on (R.CFG_AER_CTRL_CHECK_ENABLE 0) then ((c.bumpHold R.EPC_CNT_POISON_POISON 1).poisonSeen fn false).logAer fn .nonFatal 19 else c
    | .dataLinkProtocol => retrain (c.logAer 0 .fatal 4)
    | .flowControlProtocol => retrain (c.logAer 0 .fatal 13)
    | .receiverOverflow => retrain (c.logAer 0 .fatal 17)
    | .malformedTlp => retrain (c.logAer 0 .fatal 18)
    | .uncorrectableInternal => c.enabledFns.foldl (fun d f => d.ctrlFails f) (c.logAer 0 .fatal 22)

/-! ### Configuration writes -/

/-- The invalid-encoding event of a configuration register: its offset, the value written and the function (R573). -/
def Chip.badCfg (c : Chip) (fn ofs v : Nat) : Chip := c.event 0x012 19 ofs v fn 0

/-- DEVICE_CONTROL_WRITE (R70): sizes the head does not support keep their previous value. -/
def deviceControlWrite (fn value : Nat) (c : Chip) : Chip :=
  let mps := bitsOf value 5 3
  let mrrs := bitsOf value 12 3
  let c := c.setAll [(R.CFG_DEVCTL_CERE fn, bitsOf value 0 1), (R.CFG_DEVCTL_NFERE fn, bitsOf value 1 1), (R.CFG_DEVCTL_FERE fn, bitsOf value 2 1),
    (R.CFG_DEVCTL_URRE fn, bitsOf value 3 1), (R.CFG_DEVCTL_RELAX fn, bitsOf value 4 1)]
  let c := if mps ≤ 2 then c.set (R.CFG_DEVCTL_MPS fn) mps else c.badCfg fn 0x58 value
  if mrrs ≤ 5 then c.set (R.CFG_DEVCTL_MRRS fn) mrrs else c.badCfg fn 0x58 value

/-- NUMVFS_WRITE (R73, R77). -/
def numvfsWrite (value : Nat) (c : Chip) : Chip :=
  if c.on R.CFG_SRIOV_CTRL_VF_ENABLE then c
  else if 1023 < value || (!c.on R.CFG_SRIOV_CTRL_ARI && decide (7 < value)) then c.badCfg 0 0x168 value
  else c.set R.CFG_SRIOV_NUMVFS_NUMVFS value

/-- SYSTEM_PAGE_SIZE_WRITE (R77): exactly one bit of Supported Page Sizes, and only while VF Enable is 0. -/
def systemPageSizeWrite (value : Nat) (c : Chip) : Chip :=
  if c.on R.CFG_SRIOV_CTRL_VF_ENABLE || !([1, 2, 4, 8, 16].contains value) then c.badCfg 0 0x178 value
  else
    let c := c.set R.CFG_SRIOV_SYSPAGE_PAGE value
    c.setAll [(R.CFG_VFBAR0_ADDR, c.vfBarBase R.CFG_VFBAR0_ADDR (c.get R.CFG_VFBAR0_ADDR)),
      (R.CFG_VFBAR4_ADDR, c.vfBarBase R.CFG_VFBAR4_ADDR (c.get R.CFG_VFBAR4_ADDR))]

/-- VF_ENABLE_SET (R78). -/
def vfEnableSet (c : Chip) : Chip := c.set R.CFG_SRIOV_CTRL_VF_ENABLE 1

/-- VF_ENABLE_CLEAR (R78): every VF goes as by a Function Level Reset. -/
def vfEnableClear (c : Chip) : Chip :=
  if c.on R.CFG_SRIOV_CTRL_VF_ENABLE then (c.resetFns (fun fn => fn != 0)).set R.CFG_SRIOV_CTRL_VF_ENABLE 0 else c

/-- VF_FLR (R79). -/
def vfFlr (fn : Nat) (c : Chip) : Chip := if fn = 0 then c else c.resetFns (fun f => f == fn)

/-- PF_FLR (R80): the PF and every VF; the BAR2 blocks stay, and what EPC_STATUS says of the link. -/
def pfFlr (c : Chip) : Chip :=
  let link := [(R.EPC_STATUS_RATE, c.get R.EPC_STATUS_RATE), (R.EPC_STATUS_WIDTH, c.get R.EPC_STATUS_WIDTH), (R.EPC_STATUS_FLIT, c.get R.EPC_STATUS_FLIT)]
  (c.endHostWork.resetFns (fun _ => true)).setAll link

/-- BUS_MASTER_ENABLE_WRITE (R81): what waited for the bit goes on. -/
def busMasterEnableWrite (fn : Nat) (on : Bool) (c : Chip) : Chip :=
  let c := c.setFlag (R.CFG_COMMAND_BME fn) on
  if on then c.requestsResume else c

/-- EPC_CLR_CNT (R99). -/
def epcClrCnt (c : Chip) : Chip :=
  c.clearAll [R.EPC_CNT_FEC_FEC, R.EPC_CNT_REPLAY_REPLAY, R.EPC_CNT_CTO_CTO, R.EPC_CNT_POISON_POISON, R.EPC_CNT_CA_UR_CA_UR, R.EPC_CNT_UC_UC,
    R.EPC_CNT_LINKLOSS_LINKLOSS]

/-! ### MSI-X -/

/-- Where an MSIX_MASK_WRITE is served: a vector's Mask bit lies in BAR4, the Function Mask in configuration space. -/
def Chip.maskOpen (c : Chip) (fn : Nat) (vec : Option Nat) : Bool := if vec.isSome then c.barOpen fn else c.cfgOpen fn

/-- MSIX_MASK_WRITE (R83 to R86): the Mask bit of a vector, or the Function Mask. -/
def msixMaskWrite (fn : Nat) (vec : Option Nat) (mask : Bool) (c : Chip) : Chip :=
  if !c.maskOpen fn vec then (if vec.isSome then c.barRefused fn else c.cfgRefused fn)
  else match vec with
  | some v => if v < msixEntries fn then (c.setFlag (R.MSX_CTRL_MASK fn v) mask).flushVector fn v else c
  | none => (c.setFlag (R.CFG_MSIX_CTRL_FMASK fn) mask).flushVectors fn

/-- MSIX_ENABLE_WRITE (R83). -/
def msixEnableWrite (fn : Nat) (on : Bool) (c : Chip) : Chip := (c.setFlag (R.CFG_MSIX_CTRL_ENABLE fn) on).flushVectors fn

/-- The field of word 0 to 2 of an MSI-X entry. -/
def msixWord (fn vec word : Nat) : Fld :=
  match word with
  | 0 => R.MSX_ADDR_ADDR fn vec
  | 1 => R.MSX_UPPER_ADDR fn vec
  | _ => R.MSX_DATA_DATA fn vec

/-- MSIX_MESSAGE_WRITE (R82, R86): bits 1:0 of the Message Address stay 0; a change of an unmasked entry is recorded. -/
def msixMessageWrite (fn vec word value : Nat) (c : Chip) : Chip :=
  if msixEntries fn ≤ vec || 3 ≤ word then c
  else
    let f := msixWord fn vec word
    let v := trunc 32 (if word = 0 then value - value % 4 else value)
    let c := if c.vecOpen fn vec && c.get f != v then c.event 0x044 fn (16 * vec + 4 * word) v 0 0 else c
    c.set f v

/-! ### Completions of host reads -/

/-- R89, R91, Table 3-6: the request at `addr` failed: its transfer fails with it. -/
def Chip.readFailed (c : Chip) (x : Xfer) (addr : Nat) (why : ReadFail) : Chip :=
  let c := (c.logReadFail x.fn x.purpose why).dropXfer x.id
  match x.purpose with
  | .entryFetch fn sq head count tries =>
    match c.sqOf fn sq with
    | none => c
    | some q =>
      if 2 ≤ tries then c.ctrlFails fn
      else c.startRead fn (.entryFetch fn sq head count (tries + 1)) [(q.base + 64 * head, 64 * count)] x.dest
  | .list id => c.listFails id
  | .cmdData id => c.finish id stXfer
  | .writeData id =>
    let c := (c.ing.writes.filter (fun w => w.own && w.id == id)).foldl (fun d w => d.discardWrite w.wid) c
    c.finish id stXfer
  | .readList id => c.listFails id
  | .kcfLoad => c.endLoad false
  | .dmaChannel ch _ => c.busError ch 1 1 addr (c.chan ch).moved

/-- The cost of an I/O command in the deficit round robin (R114): its data length, which a Read, a Write and a Verify (R196) give in blocks. -/
def entryCost (opc : Nat) (entry : List Byte) : Nat :=
  if opc = 1 || opc = 2 || opc = 0x0C then 4096 * (leNat ((entry.drop 48).take 2) + 1) else 4096

/-- Fields with which an entry is no command of the head: FUSE or PSDT (R120), a security protocol or SPSP not listed (R118, R238), a SEL that
Namespace Management and Attachment do not have (log entry 41). A Security Send of protocol 0xF1 with such an SPSP ends with FORMAT (R243). -/
def Chip.answerFields (c : Chip) (i : Inflight) : Chip :=
  let secp := i.dw 10 / 2 ^ 24
  let spsp := bitsOf (i.dw 10) 8 16
  if i.dw 0 / 256 % 4 ≠ 0 || i.dw 0 / 16384 % 4 = 3 then c.finish i.id stField
  else if !i.admin then c
  else if i.opc = 0x81 then
    if secp ≠ 0xF1 then c.finish i.id stField
    else if spsp = 1 || spsp = 2 then c
    else c.ktEnd i.id spsp 0xFFFF 1
  else if i.opc = 0x82 then
    if secp = 0 || (secp = 0xF1 && decide (1 ≤ spsp) && decide (spsp ≤ 3)) then c else c.finish i.id stField
  else if (i.opc = 0x0D || i.opc = 0x15) && 1 < i.dw 10 % 16 then c.finish i.id stField
  else c

/-- One submission entry delivered: a command in flight; an opcode not listed is answered at once (R100), and so are fields that no
command has (R121). -/
def Chip.takeEntry (fn sq : Nat) (c : Chip) (entry : List Byte) : Chip :=
  let opc := leNat (entry.take 1)
  let id : CmdId := ⟨fn, sq, leNat ((entry.drop 2).take 2)⟩
  let i : Inflight := { id := id, admin := sq == 0, opc := opc, nsid := leNat ((entry.drop 4).take 4), bytes := 0, started := false,
                        abandoned := false, entry := entry, sect := c.kcf.switches }
  let c := { c with nvm := { c.nvm with inflight := c.nvm.inflight ++ [i] } }
  let c := if sq = 0 then c else c.modCtrl fn (fun k => { k with deficit := k.deficit + entryCost opc entry })
  if !(if sq = 0 then adminOpcodes fn else ioOpcodes).contains opc then c.finish id (stat 0 0x01 true)
  else c.answerFields i

/-- A fetch complete: the queue's head moves on, and its entries are commands in flight (R88, R114). -/
def Chip.takeEntries (c : Chip) (x : Xfer) (fn sq count : Nat) : Chip :=
  let bs := c.load x.dest (64 * count)
  let c := c.modSq fn sq (fun q => { q with head := (q.head + count) % q.size })
  (List.range count).foldl (fun d i => d.takeEntry fn sq ((bs.drop (64 * i)).take 64)) (c.dropXfer x.id)

/-- The arrived fetch of a queue that begins at its head. -/
def Chip.fetchAtHead (c : Chip) (fn sq : Nat) : Option (Xfer × Nat) :=
  match c.sqOf fn sq with
  | none => none
  | some q => c.epc.xfers.findSome? (fun x => match x.purpose with
      | .entryFetch f s h n _ => if f == fn && s == sq && h == q.head && x.left == 0 then some (x, n) else none
      | _ => none)

/-- Arrived fetches of a queue taken in the order of its ring, at most `fuel` of them. -/
def Chip.takeFetches (c : Chip) (fn sq : Nat) : Nat → Chip
  | 0 => c
  | fuel + 1 =>
    match c.fetchAtHead fn sq with
    | none => c
    | some p => Chip.takeFetches (c.takeEntries p.1 fn sq p.2) fn sq fuel

/-- The data of a write has arrived (R88): its copy leaves for the peer (R145, R404) as it stands in the buffer. -/
def Chip.dataArrived (c : Chip) (id : CmdId) : Chip :=
  match c.ing.writes.find? (fun w => w.own && w.id == id && !w.arrived) with
  | none => c
  | some w =>
    let c := c.modWr w.wid (fun w => { w with arrived := true })
    if w.mirrored then c
    else
      let n := w.bytes + w.metaBytes
      (List.range (ceilDiv n 4096)).foldl (fun (d : Chip) i =>
        d.peerSend 2 0 (.mirrorData w.wid (w.base - d.wbBase + 4096 * i) (d.load (w.base + 4096 * i) (min 4096 (n - 4096 * i))))) c

/-- A transfer complete: what it was for goes on. The bytes of a KCF LOAD wait for KCF_LOAD_DONE. -/
def Chip.xferDone (c : Chip) (x : Xfer) : Chip :=
  match x.purpose with
  | .entryFetch fn sq .. => c.takeFetches fn sq c.epc.xfers.length
  | .writeData id => (c.dropXfer x.id).dataArrived id
  | .cmdData id => (c.dropXfer x.id).inputArrived id
  | .kcfLoad => c
  | .list id => (c.dropXfer x.id).listArrived id
  | .readList id => (c.dropXfer x.id).listArrived id
  | .dmaChannel ch what => (c.dropXfer x.id).chanArrived ch what

/-- R88: a piece of a request's data written into DRAM; a request whose last byte has arrived is done. -/
def Chip.takePiece (c : Chip) (r : ReadReq) (x : Xfer) (data : List Byte) : Chip :=
  let n := data.length
  let c := c.store (r.dest + r.got) data
  let same := fun (q : ReadReq) => q.tag == r.tag
  let reqs := if r.got + n = r.len then c.epc.reqs.filter (fun q => !same q)
    else c.epc.reqs.map (fun q => if same q then { q with got := q.got + n } else q)
  let xfers := c.epc.xfers.map (fun y => if y.id = x.id then { y with left := y.left - n } else y)
  let c := { c with epc := { c.epc with reqs := reqs, xfers := xfers } }
  (if x.left ≤ n then c.xferDone { x with left := 0 } else c).sendReads

/-- An Unexpected Completion: discarded (R92, R93). -/
def Chip.unexpected (c : Chip) : Chip := (c.bumpHold R.EPC_CNT_UC_UC 1).logAdvisory 0 16 true

/-- How a completion fails its request (R89), if it does; one whose ECRC is wrong is treated as poisoned where checking is enabled (R93). -/
def Chip.pieceFail (c : Chip) (r : ReadReq) (status : CplStatus) (poisoned badCount ecrcBad : Bool) (data : List Byte) : Option ReadFail :=
  if ecrcBad && c.on (R.CFG_AER_CTRL_CHECK_ENABLE 0) then some .ecrc
  else match status with
  | .ur => some .ur
  | .ca => some .ca
  | .rrs => some .rrs
  | .sc =>
    if poisoned then some .poisoned
    else if badCount || data.isEmpty || r.len < r.got + data.length then some .length
    else none

/-- READ_COMPLETION (R88, R89, R91, R92). -/
def readCompletion (tag : Nat) (status : CplStatus) (poisoned badCount ecrcBad : Bool) (data : List Byte) (c : Chip) : Chip :=
  match c.epc.reqs.find? (fun r => r.tag == some tag) with
  | none => c.unexpected
  | some r =>
    match c.epc.xfers.find? (fun x => x.id == r.xfer) with
    | none => c.unexpected
    | some x =>
      match c.pieceFail r status poisoned badCount ecrcBad data with
      | some why => (c.readFailed x r.addr why).sendReads
      | none => c.takePiece r x data

/-- DMA_BUS_ERROR (R471): an access of a channel fails. A host read fails with its request: a timeout only once its time is over (R90), and its place
is the request's own; otherwise `done` bytes of the descriptor have been written. -/
def dmaBusError (ch : Nat) (kind : BusErr) (space addr done : Nat) (c : Chip) : Chip :=
  let x := c.chan ch
  match kind with
  | .hostRead why =>
    (match c.epc.reqs.findSome? (fun r => (c.epc.xfers.find? (fun y => y.id == r.xfer && (match y.purpose with
        | .dmaChannel k _ => k == ch
        | _ => false))).map (fun y => (r, y))) with
    | none => c
    | some (r, y) =>
      if r.tag.isNone || (why == .timeout && decide (c.now < r.sentAt + c.ctoNs 0)) then c else (c.readFailed y r.addr why).sendReads)
  | k =>
    if !x.accessing then c
    else c.busError ch (busErrCode k) space addr (max x.moved (min done (x.moved + (x.desc.map x.burstLen).getD 0)))

/-- COMPLETION_TIMEOUT (R90, R91). -/
def completionTimeout (tag : Nat) (c : Chip) : Chip :=
  match c.epc.reqs.find? (fun r => r.tag == some tag) with
  | none => c
  | some r =>
    match c.epc.xfers.find? (fun x => x.id == r.xfer) with
    | none => c
    | some x => if r.sentAt + c.ctoNs r.fn ≤ c.now then (c.readFailed x r.addr .timeout).sendReads else c

/-! ### Controllers -/

/-- CC_EN_CLEAR (R102, R104). -/
def ccEnClear (fn : Nat) (c : Chip) : Chip :=
  if c.on (R.NVM_CC_EN fn) then
    (c.resetCtrls (fun f => f == fn)).clearAll [R.NVM_CC_EN fn, R.NVM_CSTS_RDY fn, R.NVM_CSTS_CFS fn, R.NVM_CSTS_SHST fn]
  else c

/-- ABRUPT_SHUTDOWN (R105): nothing more is fetched or posted. -/
def abruptShutdown (fn : Nat) (c : Chip) : Chip :=
  ((c.dispose (fun f => f == fn)).modCtrl fn (fun k => { k with
    stopped := true, shutting := false, aers := [], cqs := k.cqs.map (fun q => { q with waiting := [] }) })).setAll
    [(R.NVM_CC_SHN fn, 2), (R.NVM_CSTS_SHST fn, 2)]

-- EXEC perstDeassert perstAssert linkL0Reached configSpaceReady dlDown hotReset pmeTurnOff linkError deviceControlWrite numvfsWrite systemPageSizeWrite vfEnableSet vfEnableClear vfFlr pfFlr busMasterEnableWrite msixMaskWrite msixEnableWrite msixMessageWrite inboundUnsupportedRequest readCompletion dmaBusError completionTimeout epcClrCnt ccEnClear abruptShutdown

/-- PERST_DEASSERT (R98). -/
def execPerstDeassert (s : State) : Host.Outcome State Fault Refusal :=
  s.run true perstDeassert

/-- PERST_ASSERT (R547). -/
def execPerstAssert (s : State) : Host.Outcome State Fault Refusal :=
  s.run true perstAssert

/-- LINK_L0_REACHED (R98). -/
def execLinkL0Reached (rate : Nat) (width : Nat) (flit : Bool) (s : State) : Host.Outcome State Fault Refusal :=
  s.runAwake true (linkL0Reached rate width flit)

/-- CONFIG_SPACE_READY (R98). -/
def execConfigSpaceReady (s : State) : Host.Outcome State Fault Refusal :=
  s.runAwake true configSpaceReady

/-- DL_DOWN (R96). -/
def execDlDown (s : State) : Host.Outcome State Fault Refusal :=
  s.runAwake true dlDown

/-- HOT_RESET (R98). -/
def execHotReset (s : State) : Host.Outcome State Fault Refusal :=
  s.runAwake true hotReset

/-- PME_TURN_OFF (R501). -/
def execPmeTurnOff (s : State) : Host.Outcome State Fault Refusal :=
  s.runAwake true pmeTurnOff

/-- LINK_ERROR (R93). -/
def execLinkError (err : LinkErr) (fn : Fn) (replayed : Bool) (s : State) : Host.Outcome State Fault Refusal :=
  s.runAwake (decide (fn < 1024)) (linkError err fn replayed)

/-- DEVICE_CONTROL_WRITE (R70). -/
def execDeviceControlWrite (fn : Fn) (value : Nat) (s : State) : Host.Outcome State Fault Refusal :=
  s.runCfg (decide (fn < 1024)) fn (deviceControlWrite fn value)

/-- NUMVFS_WRITE (R73). -/
def execNumvfsWrite (value : Nat) (s : State) : Host.Outcome State Fault Refusal :=
  s.runCfg true 0 (numvfsWrite value)

/-- SYSTEM_PAGE_SIZE_WRITE (R77). -/
def execSystemPageSizeWrite (value : Nat) (s : State) : Host.Outcome State Fault Refusal :=
  s.runCfg true 0 (systemPageSizeWrite value)

/-- VF_ENABLE_SET (R78). -/
def execVfEnableSet (s : State) : Host.Outcome State Fault Refusal :=
  s.runCfg true 0 vfEnableSet

/-- VF_ENABLE_CLEAR (R78). -/
def execVfEnableClear (s : State) : Host.Outcome State Fault Refusal :=
  s.runCfg true 0 vfEnableClear

/-- VF_FLR (R79). -/
def execVfFlr (fn : Fn) (s : State) : Host.Outcome State Fault Refusal :=
  s.runCfg (decide (fn < 1024)) fn (vfFlr fn)

/-- PF_FLR (R80). -/
def execPfFlr (s : State) : Host.Outcome State Fault Refusal :=
  s.runCfg true 0 pfFlr

/-- BUS_MASTER_ENABLE_WRITE (R81). -/
def execBusMasterEnableWrite (fn : Fn) (on : Bool) (s : State) : Host.Outcome State Fault Refusal :=
  s.runCfg (decide (fn < 1024)) fn (busMasterEnableWrite fn on)

/-- MSIX_MASK_WRITE (R85). -/
def execMsixMaskWrite (fn : Fn) (vec : Option Nat) (mask : Bool) (s : State) : Host.Outcome State Fault Refusal :=
  s.runAwake (decide (fn < 1024)) (msixMaskWrite fn vec mask)

/-- MSIX_ENABLE_WRITE (R83). -/
def execMsixEnableWrite (fn : Fn) (on : Bool) (s : State) : Host.Outcome State Fault Refusal :=
  s.runCfg (decide (fn < 1024)) fn (msixEnableWrite fn on)

/-- MSIX_MESSAGE_WRITE (R86). -/
def execMsixMessageWrite (fn : Fn) (vec : Nat) (word : Nat) (value : Nat) (s : State) : Host.Outcome State Fault Refusal :=
  s.runBar (decide (fn < 1024)) fn (msixMessageWrite fn vec word value)

/-- INBOUND_UNSUPPORTED_REQUEST (R94). -/
def execInboundUnsupportedRequest (kind : BadRequest) (fn : Fn) (s : State) : Host.Outcome State Fault Refusal :=
  s.runAwake (decide (fn < 1024)) (inboundUnsupportedRequest kind fn)

/-- READ_COMPLETION (R88). -/
def execReadCompletion (tag : Nat) (status : CplStatus) (poisoned : Bool) (badCount : Bool) (ecrcBad : Bool) (data : List Byte) (s : State) : Host.Outcome State Fault Refusal :=
  s.runAwake true (readCompletion tag status poisoned badCount ecrcBad data)

/-- DMA_BUS_ERROR (R471). -/
def execDmaBusError (ch : Chan) (kind : BusErr) (space : Nat) (addr : Nat) (done : Nat) (s : State) : Host.Outcome State Fault Refusal :=
  s.runAwake (decide (ch < 32)) (dmaBusError ch kind space addr done)

/-- COMPLETION_TIMEOUT (R90). -/
def execCompletionTimeout (tag : Nat) (s : State) : Host.Outcome State Fault Refusal :=
  s.runAwake true (completionTimeout tag)

/-- EPC_CLR_CNT (R99). -/
def execEpcClrCnt (s : State) : Host.Outcome State Fault Refusal :=
  s.runCfg true 0 epcClrCnt

/-- CC_EN_CLEAR (R104). -/
def execCcEnClear (fn : Fn) (s : State) : Host.Outcome State Fault Refusal :=
  s.runBar (decide (fn < 1024)) fn (ccEnClear fn)

/-- ABRUPT_SHUTDOWN (R105). -/
def execAbruptShutdown (fn : Fn) (s : State) : Host.Outcome State Fault Refusal :=
  s.runBar (decide (fn < 1024)) fn (abruptShutdown fn)

-- END EXEC

end Sys2Proof.Machine
end

