-- ==== Sys2Proof/Machine/Views.lean ====
section
/-!
DEFINITION. What the register fields read as whose values are held elsewhere in the machine: one function per block, and
`Chip.shown`, which picks the block by the field's address.
-/
namespace Sys2Proof.Machine

/-- The first field of a list that is the one read, with its value; 0 where none is. -/
def pick (f : Fld) : List (Fld × Nat) → Nat
  | [] => 0
  | p :: l => if p.1 = f then p.2 else pick f l

/-- GLB (R38). -/
def Chip.shownGlb (c : Chip) (f : Fld) : Nat :=
  pick f [(R.GLB_STATUS_PSTATE, c.pwr.mode.code),
    (R.GLB_STATUS_ALERT, flag (c.on R.EVR_ALERT_PENDING || c.pwr.alertHeld)),
    (R.GLB_STATUS_LIFECYCLE, c.lifecycle)]

/-- KCF (R67): the floor, and the six words of the active image's digest, the most significant first. -/
def Chip.shownKcf (c : Chip) (f : Fld) : Nat :=
  if f = R.KCF_FLOOR_FLOOR then c.root.mono.kilipFloor
  else bitsOf ((c.kcf.active.map (·.digest)).getD 0) (320 - 64 * ((f.addr - 0x100060) / 8)) 64

/-- EVR: the bucket of the code in EVR_RL_SEL (R582), the window (R576) and the fallback store (R587). -/
def Chip.shownEvr (c : Chip) (f : Fld) : Nat :=
  if 0x220000 ≤ f.addr then c.fallbackWord ((f.addr - 0x220000) / 8)
  else if 0x210000 ≤ f.addr then c.windowWord ((f.addr - 0x210000) / 8)
  else
    let code := c.get R.EVR_RL_SEL_CODE
    match eventSeverity code with
    | none => 0
    | some sev =>
      let b := c.bucket code
      pick f [(R.EVR_RL_CFG_RATE, b.rateOf sev), (R.EVR_RL_CFG_BURST, b.burstOf sev),
        (R.EVR_RL_INFO_TOKENS, (b.burstOf sev * 1000000000 - b.spentAt sev c.now) / 1000000000),
        (R.EVR_RL_INFO_SEVERITY, sev), (R.EVR_RL_INFO_SUPPRESSED, b.suppressed)]

/-- The states of DMA_CH_STATUS (Table 14-7). -/
def ChState.code : ChState → Nat
  | .idle => 0
  | .running => 1
  | .waitReq => 2
  | .waitLink => 3
  | .waitDesc => 4
  | .paused => 5
  | .stopped => 6
  | .error => 7

/-- DMA (R473). -/
def Chip.shownDma (c : Chip) (f : Fld) : Nat :=
  if f = R.DMA_ACTIVE_ACTIVE then maskOf ((List.range 32).filter (fun n => (c.chan n).state != .idle))
  else
    let n := (f.addr - 0x301000) / 0x100
    let x := c.chan n
    pick f [(R.DMA_CH_STATUS_STATE n, x.state.code), (R.DMA_CH_STATUS_DIFF_STOP n, flag x.diffStop),
      (R.DMA_CH_STATUS_DB_PENDING n, flag x.dbPending), (R.DMA_CH_CUR_CUR n, x.cur), (R.DMA_CH_REMAIN_REMAIN n, x.remain)]

/-- The states of SEC_CL_STATUS (Table 13-19). -/
def ClState.code : ClState → Nat
  | .spare => 0
  | .inService => 1
  | .quiescing => 2
  | .offline => 3
  | .failed => 4

/-- The states of SEC_ENG_STATUS (Table 13-20). -/
def EngState.code : EngState → Nat
  | .notLoaded => 0
  | .running => 1
  | .stalled => 2
  | .waiting => 3
  | .halting => 4
  | .halted => 5
  | .faulted => 6
  | .gated => 7

/-- The words of a cancel-log entry (Table 13-22): bytes 0 to 31, eight at a time. -/
def CLogEntry.word (e : CLogEntry) (w : Nat) : Nat :=
  if w = 0 then e.phase + 2 ^ 8 * e.engine + 2 ^ 16 * e.cls + 2 ^ 24 * 0x0A + 2 ^ 32 * e.ticket
  else if w = 1 then e.workId
  else if w = 2 then bitsOf e.nonce 0 64
  else bitsOf e.nonce 64 32

/-- The cancel log of a cluster; an entry not yet written reads 0. -/
def Chip.clogWord (c : Chip) (n j : Nat) : Nat :=
  match (c.clusAt n).clog.find? (fun e => e.1 == j / 4) with
  | some e => e.2.word (j % 4)
  | none => 0

/-- The program of a cluster's PARTITION entry. -/
def Chip.progOf (c : Chip) (n : Nat) : Nat := (c.kcf.active.map (fun i => (i.clusters.getD n {}).prog)).getD 0

/-- An engine's page (Tables 13-20 and 13-23). -/
def Chip.shownEng (c : Chip) (n e : Nat) (f : Fld) : Nat :=
  let x := c.engAt (engKey n e)
  pick f [(R.SEC_ENG_STATUS_STATE n e, x.state.code), (R.SEC_ENG_STATUS_STALL n e, if x.state = .stalled then x.stall else 0),
    (R.SEC_ENG_STATUS_IN_HANDLER n e, flag x.inHandler), (R.SEC_ENG_STATUS_JOBS n e, (c.jobsOut (engKey n e)).length),
    (R.SEC_ENG_STATUS_STREAM n e, flag (x.stream && x.state == .halted)), (R.SEC_ENG_PC_PC n e, x.pc), (R.SEC_ENG_FAULT_ECAUSE n e, x.faultCause),
    (R.SEC_ENG_FADDR_EADDR n e, x.faultAddr), (R.SEC_ENG_WORK_WORK_ID n e, (x.item.map (fun (i : WorkItem) => i.workId)).getD 0),
    (R.SEC_ENG_EPC_EPC n e, x.faultEpc), (R.SEC_ENG_CNT_CYCLES_CYCLES n e, x.cyc.cycles),
    (R.SEC_ENG_CNT_STALL_DEP_STALL_DEP n e, x.cyc.stallDep), (R.SEC_ENG_CNT_STALL_DRAM_STALL_DRAM n e, x.cyc.stallDram),
    (R.SEC_ENG_CNT_STALL_PORT_STALL_PORT n e, x.cyc.stallPort), (R.SEC_ENG_CNT_STALL_AWAIT_STALL_AWAIT n e, x.cyc.stallAwait),
    (R.SEC_ENG_CNT_IDLE_WFW_IDLE_WFW n e, x.cyc.idle), (R.SEC_ENG_CNT_MISPREDICT_MISPREDICT n e, x.cyc.mispredict)]

/-- SEC (R456). -/
def Chip.shownSec (c : Chip) (f : Fld) : Nat :=
  let n := (f.addr - 0x400000) / 0x10000
  let ofs := (f.addr - 0x400000) % 0x10000
  if 0x8000 ≤ ofs then c.clogWord n ((ofs - 0x8000) / 8)
  else if 0x1000 ≤ ofs then c.shownEng n ((ofs - 0x1000) / 0x800) f
  else
    let halted := (List.range 8).filter (fun e => [EngState.halted, .faulted, .gated].contains (c.engAt (engKey n e)).state)
    pick f [(R.SEC_CL_STATUS_STATE n, (c.clusAt n).state.code), (R.SEC_CL_STATUS_POOL n, c.poolOf n),
      (R.SEC_CL_STATUS_PROG_ID n, c.progOf n), (R.SEC_CL_STATUS_HALTED n, maskOf halted),
      (R.SEC_CL_PORTS_INFLIGHT n, sumOf ((List.range 4).map (fun p => 256 ^ p * (c.inFlight n p).length))),
      (R.SEC_CL_CLOG_TAIL n, (c.clusAt n).clogTail)]

/-- DGE (R269). -/
def Chip.shownDge (c : Chip) (f : Fld) : Nat :=
  pick f [(R.DGE_STATUS_CORES_UP, c.dge.up.length),
    (R.DGE_STATUS_PREFIX_READY, flag (c.inService && c.kcf.active.isSome && c.root.secret.dedup.isSome)),
    (R.DGE_CORE_FAIL_FAIL, maskOf c.dge.failing)]

/-- CPE (R269). OWNER is valid only when OWNED is 1; otherwise it is a free value. -/
def Chip.shownCpe (c : Chip) (f : Fld) : Nat :=
  let k := c.get R.CPE_SLOT_CTRL_SLOT
  let s := c.slot k
  pick f [(R.CPE_STATUS_CORES_UP, c.cpe.up.length),
    (R.CPE_STATUS_SLOTS_LOADED, (c.cpe.slots.filter (fun e => decide (e.1 < 4096) && e.2.state == .loaded)).length),
    (R.CPE_CORE_FAIL_FAIL, maskOf c.cpe.failing), (R.CPE_SLOT_INFO_STATE, s.state.code), (R.CPE_SLOT_INFO_PERSIST, flag s.persist),
    (R.CPE_SLOT_INFO_ERASED, flag s.erased), (R.CPE_SLOT_INFO_OWNER, (c.slotOwner k).getD c.freeNow),
    (R.CPE_SLOT_INFO_OWNED, flag (c.slotOwner k).isSome), (R.CPE_SLOT_INFO_ERASE_EPOCH, s.eraseEpoch)]

/-- CMP (R233). -/
def Chip.shownCmp (c : Chip) (f : Fld) : Nat :=
  pick f [(R.CMP_STATUS_COMP_UP, c.cmp.compUp.length), (R.CMP_STATUS_DCMP_UP, c.cmp.dcmpUp.length),
    (R.CMP_COMP_FAIL_FAIL, maskOf c.cmp.compFailing), (R.CMP_DCMP_FAIL_FAIL, maskOf c.cmp.dcmpFailing)]

/-- The media operations of a string that have a frame on it, and those that wait. -/
def Chip.stringOps (c : Chip) (str : Nat) : List MediaOp × List MediaOp :=
  let under := (c.strg str).views.flatMap (fun v => v.2.lend.ops.map (·.2))
  (c.ftm.ops.filter (fun o => c.strOf o.shelf == str)).partition (fun o => under.contains o.tag)

/-- FTM (R310), for the shelf in FTM_SHELF_SEL. -/
def Chip.shownFtm (c : Chip) (f : Fld) : Nat :=
  let s := c.shelf (c.get R.FTM_SHELF_SEL_SHELF)
  if 0x900080 ≤ f.addr then
    let n := (f.addr - 0x900080) / 8
    pick f [(R.FTM_SEQ_STATUS_QUEUED n, (c.stringOps n).2.length), (R.FTM_SEQ_STATUS_BUSY n, flag (!(c.stringOps n).1.isEmpty))]
  else pick f [(R.FTM_STATUS_CACHE_SHORT, flag c.cacheShort), (R.FTM_STATUS_SPACE_LOW, flag c.spaceLow),
    (R.FTM_SHELF_INFO_STATE, s.state), (R.FTM_SHELF_INFO_SPARE_LOW, flag s.spareLow),
    (R.FTM_SHELF_INFO_FREE_BANDS, (s.bands.filter (fun b => b.2.state == 0)).length), (R.FTM_SHELF_INFO_WEAR_PCT, s.wearPct),
    (R.FTM_SHELF_INFO_RETIRED, s.retired), (R.FTM_SHELF_SEQ_SEQ, s.maxSeq), (R.FTM_SCAN_PROG_DONE, s.scanDone),
    (R.FTM_SCAN_PROG_TOTAL, s.scanTotal), (R.FTM_CACHE_NEED_NEED, c.cacheNeed)]

/-- A lost-table entry as Table 10-8 lays it out. -/
def LostEnt.bytes (e : LostEnt) : List Byte :=
  natLe e.kind 1 ++ natLe e.cohort 1 ++ natLe e.strip 1 ++ natLe e.cause 1 ++ natLe e.id 4 ++ natLe e.firstPage 2 ++ natLe e.count 2 ++
  natLe e.blocks 4 ++ natLe e.firstLba 8 ++ natLe e.epoch 6 ++ natLe 0 2

/-- RDE (R345), for the cohort in RDE_SCRUB_SEL and the entry in RDE_LOST_IDX. -/
def Chip.shownRde (c : Chip) (f : Fld) : Nat :=
  let k := c.get R.RDE_SCRUB_SEL_COHORT
  if 0xA00070 ≤ f.addr then
    match c.rde.lost[c.get R.RDE_LOST_IDX_IDX]? with
    | some e => leNat ((e.bytes.drop (f.addr - 0xA00070)).take 8)
    | none => 0
  else pick f [(R.RDE_STATUS_UNITS_UP, c.rde.up.length), (R.RDE_STATUS_REBUILDING, flag (c.ftm.stripes.any (fun s => s.missing != 0))),
    (R.RDE_STATUS_LOST_PRESENT, flag (!c.rde.lost.isEmpty)), (R.RDE_STATUS_LOST_WARN, flag (decide (943718 ≤ c.rde.lost.length))),
    (R.RDE_UNIT_FAIL_FAIL, maskOf c.rde.failing), (R.RDE_SCRUB_INFO_CURSOR, (c.scrubOf k).1),
    (R.RDE_SCRUB_INFO_ACTIVE, flag (c.rde.scrubActive.contains k)), (R.RDE_SCRUB_INFO_AGE_H, (c.now - (c.scrubOf k).2) / 3600000000000),
    (R.RDE_LOST_COUNT_COUNT, c.rde.lost.length)]

/-- ISF (R387). SHELF is valid from enrolled onward; before that it is a free value. -/
def Chip.shownIsf (c : Chip) (f : Fld) : Nat :=
  let states := fun (p : Nat → Bool) => (List.range 16).filter (fun n => p (c.get (R.ISF_STR_STATUS_STATE n)))
  if 0xB10000 ≤ f.addr then
    pick f [(R.ISF_STATUS_UP, maskOf (states (fun s => s == 2 || s == 3))), (R.ISF_STATUS_OWNED, maskOf (states (fun s => s == 3)))]
  else
    let n := (f.addr - 0xB00000) / 0x1000
    let pos := c.get (R.ISF_STR_BSEL_POS n)
    let v := c.view n pos
    let shelf := (c.topology.find? (fun e => e.2.str == n && e.2.pos == pos)).map (·.1)
    pick f [(R.ISF_STR_BINFO_STATE n, v.state), (R.ISF_STR_BINFO_SHELF n, if v.state < 3 then c.freeNow else shelf.getD c.freeNow),
      (R.ISF_STR_BINFO_SESSION n, v.lend.session), (R.ISF_STR_BINFO_FP_LOW n, bitsOf v.fp 0 32)]

/-- ZBL (R422). -/
def Chip.shownZbl (c : Chip) (f : Fld) : Nat :=
  pick f [(R.ZBL_STATUS_TIMEKEEPER, flag c.timekeeper), (R.ZBL_STATUS_MSYNC_USED, flag (c.timekeeper && c.msync)),
    (R.ZBL_WB_TOTAL, c.zbl.total), (R.ZBL_WB_HELD, (c.zbl.granules.filter (fun g => g.2.mine)).length), (R.ZBL_WB_RESERVE, c.zbl.reserve)]

/-- MEM (R495). -/
def Chip.shownMem (c : Chip) (_f : Fld) : Nat := flag ((List.range 12).any (fun n => c.on (R.MEM_CH_STATUS_CE_HIGH n)))

/-- The clock of a cluster in units of 10 MHz (R516, R519): that of the plan, or lower while a cap holds it; 0 for a spare cluster. -/
def Chip.clusterClock (c : Chip) (n : Nat) : Nat :=
  if (c.clusAt n).state = .spare then 0 else min c.pwr.plan.cluster (min c.pwr.thermalCap c.pwr.powerCap) / 10

/-- R512, R515, Table 16-6: the clock of a domain in kHz, 0 where it stands: a spare cluster's, one that idle gating has stopped, and those of a
memory channel, a string or a quad that is not up. Those of the control cores and the fabric run while the head does. -/
def Chip.domainClock (c : Chip) (d : Nat) : Nat :=
  if !c.awake || c.pwr.gated.contains d then 0
  else if d < 24 then c.clusterClock d * 10000
  else if d < 56 then c.pwr.plan.accel * 1000
  else if d < 68 then (if c.bit R.MEM_STATUS_CH_UP (d - 56) then c.pwr.plan.ddr * 500 else 0)
  else if d < 80 then (if c.bit R.MEM_STATUS_CH_UP (d - 68) then c.pwr.plan.ddr * 250 else 0)
  else if d < 96 then (if 2 ≤ c.get (R.ISF_STR_STATUS_STATE (d - 80)) then 875000 else 0)
  else if d < 100 then (if bitOf (c.get R.ZBL_STATUS_QUADS) (d - 96) then 1750000 else 0)
  else if d < 108 then 2400000
  else if d < 110 then 2000000
  else if d = 110 then 1000000
  else if d = 111 then 500000
  else 0

/-- PWR (R519). -/
def Chip.shownPwr (c : Chip) (f : Fld) : Nat :=
  if f = R.PWR_STATUS_STATE then c.pwr.mode.code
  else
    let g := (f.addr - 0xE00040) / 8
    sumOf ((List.range 8).map (fun i => 256 ^ i * c.clusterClock (8 * g + i)))

/-- SEC_ROOT (R546), for the measurement register in SEC_ROOT_MEAS_SEL. The challenge words are valid only while CHAL_VALID is 1; otherwise
they are free values. -/
def Chip.shownRoot (c : Chip) (f : Fld) : Nat :=
  if 0xF00060 ≤ f.addr && decide (f.addr < 0xF00080) then
    if c.chalValid then bitsOf (c.root.challenge.getD 0) (8 * (f.addr - 0xF00060)) 64 else c.freeNow
  else if 0xF00030 ≤ f.addr && decide (f.addr < 0xF00060) then
    leNat (((c.measBytes (c.get R.SEC_ROOT_MEAS_SEL_INDEX)).drop (f.addr - 0xF00030)).take 8)
  else pick f [(R.SEC_ROOT_STATUS_LIFECYCLE, c.lifecycle), (R.SEC_ROOT_STATUS_DEBUG, (DebugState.code c.root.debug)),
    (R.SEC_ROOT_STATUS_CHAL_VALID, flag c.chalValid), (R.SEC_ROOT_STATUS_ZEROIZE_PENDING, flag c.root.mono.zeroizePending),
    (R.SEC_ROOT_STATUS_SECRETS, flag c.root.secret.transport.isSome), (R.SEC_ROOT_OTP_OWNER_FUSED, c.root.otp.ownerFused),
    (R.SEC_ROOT_OTP_OWNER_REVOKED, c.root.otp.ownerRevoked), (R.SEC_ROOT_OTP_FW_KEY_REVOKE, c.root.otp.fwKeyRevoke),
    (R.SEC_ROOT_OTP_SERVICE_LEFT, c.serviceLeft), (R.SEC_ROOT_DSN_DSN, c.root.otp.dsn),
    (R.SEC_ROOT_KT_SERIAL_KT_SERIAL, c.root.mono.ktSerial), (R.SEC_ROOT_CNT_OPENS_OPENS, c.root.mono.opens),
    (R.SEC_ROOT_CNT_STORE_STORE_WRITES, c.root.writes)]

/-- BOOT (R570). -/
def Chip.shownBoot (c : Chip) (f : Fld) : Nat :=
  pick f [(R.BOOT_FW_SLOT_SERIAL, c.boot.fwSerial), (R.BOOT_FW_FLOOR_FLOOR, c.root.mono.fwFloor), (R.BOOT_GEN_AWG, c.root.mono.awg),
    (R.BOOT_LO_ATTEMPTS, c.boot.attempts)]

/-- The identity registers of configuration space (R74), the MSI-X table size (R82) and the serial number. -/
def Chip.shownCfg (c : Chip) (f : Fld) : Nat :=
  let fn := (f.addr - 0x40000000) / 0x1000
  pick f [(R.CFG_ID_WORD fn, if fn = 0 then 0x09601E9A else 0xFFFFFFFF), (R.CFG_REVCLASS_WORD fn, 0x01080221),
    (R.CFG_SUBSYS_WORD fn, c.subsys.1 + 0x10000 * c.subsys.2), (R.CFG_MSIX_CTRL_TSIZE fn, msixEntries fn - 1), (R.CFG_DSN_DSN, c.root.otp.dsn),
    (R.CFG_PMCSR_PME_STATUS, flag c.epc.pme), (R.CFG_DEVCTL_TRANS fn, flag (c.epc.reqs.any (fun r => r.fn == fn && r.tag.isSome))), (R.CFG_LINKCTL_SPEED, c.get R.EPC_STATUS_RATE),
    (R.CFG_LINKCTL_WIDTH, c.get R.EPC_STATUS_WIDTH), (R.CFG_LINKCTL2_FLIT, c.get R.EPC_STATUS_FLIT)]

/-- The value of a field held elsewhere. -/
def Chip.shown (c : Chip) (f : Fld) : Nat :=
  if 0x40000000 ≤ f.addr then c.shownCfg f
  else match f.addr / 0x100000 with
  | 0 => c.shownGlb f
  | 1 => c.shownKcf f
  | 2 => c.shownEvr f
  | 3 => c.shownDma f
  | 6 => c.shownDge f
  | 7 => c.shownCpe f
  | 8 => c.shownCmp f
  | 9 => c.shownFtm f
  | 10 => c.shownRde f
  | 11 => c.shownIsf f
  | 12 => c.shownZbl f
  | 13 => c.shownMem f
  | 14 => c.shownPwr f
  | 15 => c.shownRoot f
  | 16 => c.shownBoot f
  | _ => c.shownSec f

/-- Result fields whose content R13 leaves undefined while a VALID bit is clear, with that bit: a register and the registers it speaks for. -/
def validOf (f : Fld) : Option Fld :=
  let eng := (f.addr - 0x401000) % 0x10000
  let n := (f.addr - 0x400000) / 0x10000
  if f = R.KCF_RESULT_CODE || f = R.KCF_RESULT_SECTION || f = R.KCF_RESULT_OFS_OFS then some R.KCF_RESULT_VALID
  else if f = R.EVR_RESULT_CODE then some R.EVR_RESULT_VALID
  else if f = R.MEM_WAY_RESULT_CODE || f = R.MEM_WAY_RESULT_WAY then some R.MEM_WAY_RESULT_VALID
  else if f = R.PWR_RESULT_CODE then some R.PWR_RESULT_VALID
  else if f = R.SEC_ROOT_RESULT_CODE || f = R.SEC_ROOT_RESULT_COMMAND then some R.SEC_ROOT_RESULT_VALID
  else if f = R.BOOT_RESULT_CODE then some R.BOOT_RESULT_VALID
  else if f = R.RDE_RESHAPE_STATUS_CODE then some R.RDE_RESHAPE_STATUS_VALID
  else if 0x400000 ≤ f.addr && decide (f.addr < 0x580000) then
    if f = R.SEC_CL_RESULT_CODE n then some (R.SEC_CL_RESULT_VALID n)
    else if f = R.SEC_ENG_RESULT_CODE n (eng / 0x800) then some (R.SEC_ENG_RESULT_VALID n (eng / 0x800))
    else none
  else none

/-- What a read of a field returns (Table 0-3): 0 for a write-only field, the value held elsewhere, a free value for a result whose VALID
bit is clear (R13), or the value held. -/
def Chip.readField (c : Chip) (f : Fld) : Nat :=
  if f.acc = .wo then 0
  else if f.view then trunc f.width (c.shown f)
  else match validOf f with
    | some v => if c.on v then c.get f else trunc f.width c.freeNow
    | none => c.get f

end Sys2Proof.Machine
end

