-- ==== Sys2Proof/Machine/Registers.lean ====
section
/-!
DEFINITION. Reads and writes of registers (chapter 0, R3 to R10, R76, R457): which register an address names, 4- and 8-byte accesses,
the shadows and held halves of 64-bit registers, and the access codes.
-/
namespace Sys2Proof.Machine

/-- A register found at an address. -/
structure RegAt where
  base : Nat
  bytes : Nat
  fields : List Fld

/-- The instance of a map row that holds an address. -/
def RegDesc.at (d : RegDesc) (a : Nat) : Option RegAt :=
  let o := a - d.base
  let i := if d.stride = 0 then 0 else o / d.stride
  let j := if d.stride2 = 0 then 0 else (o - i * d.stride) / d.stride2
  let b := d.base + i * d.stride + j * d.stride2
  if d.base ≤ a && decide (i < d.n) && decide (j < d.m) && decide (a < b + d.bytes) then some ⟨b, d.bytes, d.fields i j⟩ else none

/-- The register that occupies an address, if one does. -/
def findReg (a : Nat) : Option RegAt := regMap.findSome? (fun d => d.at a)

/-! ### Where an access falls -/

/-- The address, in the numbering of log entry 6, of an offset in a space. -/
def spaceAddr (sp : Space) (ofs : Nat) : Nat :=
  match sp with
  | .bar2 => ofs
  | .cores => ofs
  | .bar0 fn => 0x80000000 + 0x4000 * fn + ofs
  | .bar4 fn => 0xC0000000 + 0x10000 * fn + ofs
  | .cfg fn => 0x40000000 + 0x1000 * fn + ofs

/-- The bytes that a space spans (Table 3-3). -/
def Chip.spaceSize (c : Chip) (sp : Space) : Nat :=
  match sp with
  | .bar2 => 0x10000000
  | .cores => 0x10000000
  | .bar0 fn => if fn = 0 then 0x4000 else c.vfBarSize 0x4000
  | .bar4 fn => if fn = 0 then 0x10000 else c.vfBarSize 0x8000
  | .cfg _ => 0x1000

/-- Whether a space is a configuration space. -/
def isCfg (sp : Space) : Bool :=
  match sp with
  | .cfg _ => true
  | _ => false

/-- Whether an access to a space is served (R94, R98). -/
def Chip.spaceOpen (c : Chip) (sp : Space) : Bool :=
  match sp with
  | .bar2 => c.barOpen 0
  | .cores => true
  | .bar0 fn => c.barOpen fn
  | .bar4 fn => c.barOpen fn
  | .cfg fn => c.cfgOpen fn

/-- An event of group 0x010 for an access (R573): a block's own INDEX, or that of the function's space. -/
def Chip.accessEvent (c : Chip) (code : Nat) (sp : Space) (ofs value : Nat) : Chip :=
  match sp with
  | .bar2 => c.event code (blockIndex ofs) ofs value 0 0
  | .cores => c.event code (blockIndex ofs) ofs value 0 0
  | .bar0 fn => c.event code 17 ofs value fn 0
  | .bar4 fn => c.event code 18 ofs value fn 0
  | .cfg fn => c.event code 19 ofs value fn 0

/-- First byte and end of a function's PBA (R76, R82). -/
def pbaRange (fn : Nat) : Nat × Nat := if fn = 0 then (0x8000, 0x8100) else (0x6000, 0x6088)

/-- Whether an offset that no register occupies is one of R7 or R76, which record it: in BAR2, and in BAR4 outside the MSI-X table and the PBA. -/
def recordsUnmapped (sp : Space) (ofs : Nat) : Bool :=
  match sp with
  | .bar2 => true
  | .cores => true
  | .bar0 _ => false
  | .bar4 fn => decide (16 * msixEntries fn ≤ ofs) && !(decide ((pbaRange fn).1 ≤ ofs) && decide (ofs < (pbaRange fn).2))
  | .cfg _ => false

/-- The register that serves an access, or none: outside the function's MSI-X table, and in a window that a loader-only head does not serve (R558). -/
def Chip.regFor (c : Chip) (sp : Space) (ofs : Nat) : Option RegAt :=
  match sp with
  | .bar2 => if c.windowOpen ofs then findReg ofs else none
  | .cores => findReg ofs
  | .bar4 fn => if ofs < 16 * msixEntries fn then findReg (spaceAddr sp ofs) else none
  | .bar0 _ => if ofs < 0x4000 then findReg (spaceAddr sp ofs) else none
  | .cfg _ => findReg (spaceAddr sp ofs)

/-! ### Reads -/

/-- The value of a register. -/
def Chip.readReg (c : Chip) (r : RegAt) : Nat := sumOf (r.fields.map (fun f => 2 ^ f.lsb * c.readField f))

/-- 32 Pending bits of a function's PBA. -/
def Chip.pbaWord (c : Chip) (fn ofs : Nat) : Nat :=
  maskOf ((List.range 32).filter (fun i => decide (8 * (ofs - (pbaRange fn).1) + i < msixEntries fn) && c.vecPending fn (8 * (ofs - (pbaRange fn).1) + i)))

/-- Offsets of configuration space whose contents the PCI Express specification has and this one leaves open: the header log of AER, and the
PF's registers of the link capabilities (log entry 26). -/
def openCfg (fn ofs : Nat) : Bool :=
  (decide (0x11C ≤ ofs) && decide (ofs < 0x148)) || (fn == 0 && decide (0x1A4 ≤ ofs) && decide (ofs < 0x280))

/-- What a read that finds no register returns: 0, the Pending bits, or a free value. -/
def Chip.readGap (c : Chip) (sp : Space) (ofs : Nat) : Chip × Nat :=
  match sp with
  | .bar4 fn => if recordsUnmapped sp ofs then (c.accessEvent 0x011 sp ofs 0, 0) else (c, c.pbaWord fn ofs)
  | .cfg fn => (c, if openCfg fn ofs then trunc 32 c.freeNow else 0)
  | _ => (if recordsUnmapped sp ofs then c.accessEvent 0x011 sp ofs 0 else c, 0)

/-- A 4-byte read (R9): the low half of a 64-bit register latches the high half, which the next read of the high half returns. -/
def Chip.read4 (c : Chip) (sp : Space) (ofs : Nat) : Chip × Nat :=
  match c.regFor sp ofs with
  | none => c.readGap sp ofs
  | some r =>
    let v := c.readReg r
    let setShadow := fun (x : Option Nat) => ({ c with regs := { c.regs with shadow := Sparse.set none c.regs.shadow r.base x } } : Chip)
    if r.bytes = 4 then (c, v)
    else if spaceAddr sp ofs = r.base then (setShadow (some (v / 0x100000000)), v % 0x100000000)
    else (setShadow none, (Sparse.get none c.regs.shadow r.base).getD (v / 0x100000000))

/-- An 8-byte read (R6, R9): a 64-bit register at once, anything else as two 4-byte reads, the lower address first. -/
def Chip.read8 (c : Chip) (sp : Space) (ofs : Nat) : Chip × Nat :=
  match c.regFor sp ofs with
  | some r =>
    if r.bytes = 8 && r.base == spaceAddr sp ofs then (c, c.readReg r)
    else
      let lo := c.read4 sp ofs
      let hi := lo.1.read4 sp (ofs + 4)
      (hi.1, lo.2 + 0x100000000 * hi.2)
  | none =>
    let lo := c.read4 sp ofs
    let hi := lo.1.read4 sp (ofs + 4)
    (hi.1, lo.2 + 0x100000000 * hi.2)

/-- Whether R6 and R76 accept an access: aligned, of 4 or 8 bytes. A configuration request names one, two or four bytes of a word. -/
def accepted (sp : Space) (ofs size : Nat) : Bool :=
  match sp with
  | .cfg _ => (size == 1 || size == 2 || size == 4) && ofs % size == 0
  | _ => (size == 4 || size == 8) && ofs % size == 0

/-- The kind of a request that is not served. -/
def refusedKind (sp : Space) (write : Bool) : BadRequest :=
  match sp with
  | .cfg _ => .cfgRequest
  | _ => if write then .memWrite else .memRead

/-- The function that an access names. -/
def spaceFn (sp : Space) : Nat :=
  match sp with
  | .bar2 => 0
  | .cores => 0
  | .bar0 fn => fn
  | .bar4 fn => fn
  | .cfg fn => fn

/-- A read's data given to the reader. The free value it may have taken is used up (log entry 4). -/
def Chip.readEnds (p : Chip × Nat) : Chip := { p.1.useFree with regs := { p.1.useFree.regs with readData := p.2 } }

/-- An access that is not served (R94): an Unsupported Request, or for a configuration request that comes too early its retry status (R98). -/
def Chip.spaceRefused (c : Chip) (sp : Space) (write : Bool) : Chip :=
  match sp with
  | .cfg fn => c.cfgRefused fn
  | _ => inboundUnsupportedRequest (refusedKind sp write) (spaceFn sp) c

/-- A read of 4 or 8 bytes of a space. -/
def Chip.readSpace (c : Chip) (sp : Space) (ofs size : Nat) : Chip :=
  if !c.spaceOpen sp || decide (c.spaceSize sp ≤ ofs) then c.spaceRefused sp false
  else if !accepted sp ofs size then
    Chip.readEnds (if isCfg sp then (c, trunc (8 * size) c.freeNow) else (c.accessEvent 0x010 sp ofs 0, 2 ^ (8 * size) - 1))
  else if size = 8 then Chip.readEnds (c.read8 sp ofs)
  else if size = 4 then Chip.readEnds (c.read4 sp ofs)
  else
    let p := c.read4 sp (ofs - ofs % 4)
    Chip.readEnds (p.1, bitsOf p.2 (8 * (ofs % 4)) (8 * size))

/-- LOW_HALF_READ (R9), and every other read. -/
def lowHalfRead (sp : Space) (ofs size : Nat) (c : Chip) : Chip := c.readSpace sp ofs size

/-! ### Writes -/

/-- The bits of `mask` in `old` replaced by those of `new`. -/
def mergeBits (old new mask : Nat) : Nat := (old ^^^ (old &&& mask)) ||| (new &&& mask)

/-- The counters of FTM (Table 9-13). -/
def ftmCounters : List Fld :=
  [R.FTM_CNT_READS_READS, R.FTM_CNT_PROGRAMS_PROGRAMS, R.FTM_CNT_ERASES_ERASES, R.FTM_CNT_RETRIES_RETRIES, R.FTM_CNT_UNCORR_UNCORR,
   R.FTM_CNT_RETIRED_RETIRED, R.FTM_CNT_PROMOTE_PROMOTE, R.FTM_CNT_DEMOTE_DEMOTE, R.FTM_CNT_GC_RECORDS_GC_RECORDS,
   R.FTM_CNT_GC_BANDS_GC_BANDS, R.FTM_CNT_SCANS_SCANS, R.FTM_CNT_TIMEOUTS_TIMEOUTS, R.FTM_CNT_DEFERRED_DEFERRED]

/-- R5: the undefined encoding recorded; the field keeps its value. In configuration space R573 records only what R70, R73 and Table 3-4
refuse, so a power state that the function lacks is not recorded (log entry 37). -/
def Chip.badEncoding (c : Chip) (sp : Space) (f : Fld) (v : Nat) : Chip :=
  match sp with
  | .cfg _ => c
  | _ => c.invalidEncoding f v

/-- R225: the effort of each pool kept where the new one is 0; pool 15 has none. -/
def effortMerge (old new : Nat) : Nat :=
  sumOf ((List.range 16).map (fun p => 4 ^ p * (if p = 15 || bitsOf new (2 * p) 2 = 0 then bitsOf old (2 * p) 2 else bitsOf new (2 * p) 2)))

/-- Whether a pool's effort in a written value is 0. -/
def effortBad (new : Nat) : Bool := (List.range 15).any (fun p => bitsOf new (2 * p) 2 == 0)

/-- RATE and BURST of the code in EVR_RL_SEL (R582); the tokens in the bucket stay, up to the new BURST. -/
def Chip.writeLimit (c : Chip) (f : Fld) (v : Nat) : Chip :=
  let code := c.get R.EVR_RL_SEL_CODE
  match eventSeverity code with
  | none => c
  | some sev =>
    let b := c.bucket code
    let isRate := f == R.EVR_RL_CFG_RATE
    let floor := if isRate then (bucketFloor sev).1 else (bucketFloor sev).2
    if v < floor then c.invalidEncoding f v
    else
      let tokens := b.burstOf sev * 1000000000 - b.spentAt sev c.now
      let burst := if isRate then b.burstOf sev else v
      c.setBucket code { b with
        set := true, rate := if isRate then v else b.rateOf sev, burst := burst
        spent := burst * 1000000000 - tokens, stamp := c.now }

/-- A value written to a read-write field: set where the field's table defines it (R5), with what single fields add to that. -/
def Chip.writeRw (c : Chip) (sp : Space) (f : Fld) (v : Nat) : Chip :=
  if f.view then c.writeLimit f v
  else if !f.admits v then c.badEncoding sp f v
  else if f = R.PWR_WAKE_EN_EN then c.set f (setBit v 0)
  else if f = R.CFG_PMCSR_POWER_STATE then (c.set f v).requestsResume
  else if f = R.CFG_VFBAR0_ADDR || f = R.CFG_VFBAR4_ADDR then c.set f (c.vfBarBase f v)
  else if f = R.CMP_EFFORT_EFFORT then
    (if effortBad v then c.invalidEncoding f v else c).set f (effortMerge (c.get f) v)
  else if f = R.RDE_REBUILD_CTRL_URGENT_SHARE && decide (v < c.get R.RDE_REBUILD_CTRL_SHARE) then c.invalidEncoding f v
  else c.set f v

/-- 1 bits clear a W1C field's bits, PME Status among them (R69); clearing NEW starts its count afresh (R584). -/
def Chip.writeW1c (c : Chip) (f : Fld) (ones : Nat) : Chip :=
  let c := c.set f (mergeBits (c.get f) 0 ones)
  if f = R.CFG_PMCSR_PME_STATUS && bitOf ones 0 then { c with epc := { c.epc with pme := false } } else
  if f = R.EVR_IRQ_STATUS_CAUSES && bitOf ones 0 then { c with evr := { c.evr with newCount := 0 } } else c

/-- A value written to a field that a command of its own acts on. That command is another row; an encoding that names no command is
one of R5, or refused by KCF (R55). FTM_CNT_CLR has no row but this one. -/
def Chip.writeOwn (c : Chip) (f : Fld) (v : Nat) : Chip :=
  if f = R.FTM_CNT_CLR_CLR then c.clearAll ftmCounters
  else if f = R.KCF_CMD_CMD then (if [1, 2, 3, 4, 6].contains v then c else c.kcfRefuse)
  else if f.acc = .wo && !f.admits v then c.invalidEncoding f v
  else c

/-- One field of a written register: `x` are its bits of the value, `m` those of them that the access names. -/
def Chip.writeField (c : Chip) (sp : Space) (f : Fld) (x m : Nat) : Chip :=
  if m = 0 then c
  else if f.own then c.writeOwn f x
  else
    match f.acc with
    | .rw => c.writeRw sp f (mergeBits (c.get f) x m)
    | .w1c => c.writeW1c f (x &&& m)
    | .w1s => c.set f (c.get f ||| (x &&& m))
    | .wo => c
    | .ro => c
    | .rc => c

/-- R510: whether every shelf of a cohort can be awake in time. -/
def Chip.staggerOk (c : Chip) : Bool :=
  decide ((ceilDiv 16 (c.get R.PWR_SHELF_CTRL_STAGGER_N) - 1) * c.get R.PWR_SHELF_CTRL_STAGGER_MS ≤ 900)

/-- A register written: each field as its access code says (R3). -/
def Chip.writeReg (c : Chip) (sp : Space) (r : RegAt) (v m : Nat) : Chip :=
  let d := r.fields.foldl (fun d f => d.writeField sp f (bitsOf v f.lsb f.width) (bitsOf m f.lsb f.width)) c
  if r.base = 0xE0001C && !d.staggerOk then c.invalidEncoding R.PWR_SHELF_CTRL_STAGGER_N v else d

/-- R457: a register of a firmware-owned channel, written through BAR2. -/
def firmwareChannel (sp : Space) (r : RegAt) : Option Nat :=
  match sp with
  | .bar2 => if 0x302800 ≤ r.base && decide (r.base < 0x303000) then some ((r.base - 0x301000) / 0x100) else none
  | _ => none

/-- A write of a doorbell (R111): an even word is a submission queue's tail, an odd one a completion queue's head. A doorbell holds 16 bits. -/
def doorbellWrite (fn word v : Nat) (c : Chip) : Chip :=
  if word % 2 = 0 then sqTailDoorbell fn (word / 2) (trunc 16 v) c else cqHeadDoorbell fn (word / 2) (trunc 16 v) c

/-- A write that finds no register: a doorbell of BAR0 (R76), else discarded, and recorded where R7 and R76 say so. -/
def Chip.writeGap (c : Chip) (sp : Space) (ofs v : Nat) : Chip :=
  match sp with
  | .bar0 fn => if 0x1000 ≤ ofs && decide (ofs < 0x3008) then doorbellWrite fn ((ofs - 0x1000) / 4) v c else c
  | _ => if recordsUnmapped sp ofs then c.accessEvent 0x011 sp ofs 0 else c

/-- A 4-byte write with a mask of the bits it names (R10): the low half of a 64-bit register is held until the high half is written. -/
def Chip.write4 (c : Chip) (sp : Space) (ofs v m : Nat) : Chip :=
  match c.regFor sp ofs with
  | none => c.writeGap sp ofs v
  | some r =>
    let setHeld := fun (x : Option Nat) => ({ c with regs := { c.regs with held := Sparse.set none c.regs.held r.base x } } : Chip)
    match firmwareChannel sp r with
    | some ch => c.event 0x014 3 ofs 0 ch 0
    | none =>
      if r.bytes = 4 then c.writeReg sp r v m
      else if spaceAddr sp ofs = r.base then setHeld (some v)
      else if r.fields.all (fun f => f.own && f.acc == .rw) then c
      else
        match Sparse.get none c.regs.held r.base with
        | some lo => (setHeld none).writeReg sp r (lo + 0x100000000 * v) (2 ^ 64 - 1)
        | none => c.writeReg sp r (0x100000000 * v) (0x100000000 * m)

/-- An 8-byte write (R6, R10): a 64-bit register at once, dropping a held half; anything else as two 4-byte writes. -/
def Chip.write8 (c : Chip) (sp : Space) (ofs v : Nat) : Chip :=
  let halves := fun (_ : Unit) => (c.write4 sp ofs (v % 0x100000000) 0xFFFFFFFF).write4 sp (ofs + 4) (v / 0x100000000) 0xFFFFFFFF
  match c.regFor sp ofs with
  | none => halves ()
  | some r =>
    match firmwareChannel sp r with
    | some ch => if r.bytes = 8 && r.base == spaceAddr sp ofs then c.event 0x014 3 ofs 0 ch 0 else halves ()
    | none =>
      if r.bytes = 8 && r.base == spaceAddr sp ofs then
        if r.fields.all (fun f => f.own && f.acc == .rw) then c
        else ({ c with regs := { c.regs with held := Sparse.set none c.regs.held r.base none } } : Chip).writeReg sp r v (2 ^ 64 - 1)
      else halves ()

/-- A write of a space. -/
def Chip.writeSpace (c : Chip) (sp : Space) (ofs size v : Nat) : Chip :=
  if !c.spaceOpen sp || decide (c.spaceSize sp ≤ ofs) then c.spaceRefused sp true
  else if !accepted sp ofs size then (if isCfg sp then c else c.accessEvent 0x010 sp ofs 0)
  else if size = 8 then c.write8 sp ofs v
  else c.write4 sp (ofs - ofs % 4) (2 ^ (8 * (ofs % 4)) * trunc (8 * size) v) (2 ^ (8 * (ofs % 4)) * (2 ^ (8 * size) - 1))

/-- REGISTER_WRITE (R3 to R7, R10). -/
def registerWrite (sp : Space) (ofs size : Nat) (value : Word64) (c : Chip) : Chip := c.writeSpace sp ofs size value.toNat

/-- LOW_HALF_WRITE (R10). -/
def lowHalfWrite (sp : Space) (ofs : Nat) (value : Word32) (c : Chip) : Chip := c.writeSpace sp ofs 4 value.toNat

-- EXEC registerWrite lowHalfRead lowHalfWrite

/-- REGISTER_WRITE (R3). -/
def execRegisterWrite (sp : Space) (ofs : Nat) (size : Nat) (value : Word64) (s : State) : Host.Outcome State Fault Refusal :=
  s.runAwake (sp.wf) (registerWrite sp ofs size value)

/-- LOW_HALF_READ (R9). -/
def execLowHalfRead (sp : Space) (ofs : Nat) (size : Nat) (s : State) : Host.Outcome State Fault Refusal :=
  s.runAwake (sp.wf) (lowHalfRead sp ofs size)

/-- LOW_HALF_WRITE (R10). -/
def execLowHalfWrite (sp : Space) (ofs : Nat) (value : Word32) (s : State) : Host.Outcome State Fault Refusal :=
  s.runAwake (sp.wf) (lowHalfWrite sp ofs value)

-- END EXEC

end Sys2Proof.Machine
end

