-- ==== Sys2Proof/Machine/Debug.lean ====
section
/-!
DEFINITION. Opening debug (R542, R543), tokens through JTAG and the debug access port (R541), and the acknowledgement of a peer-link channel
that nothing else has carried (R393).
-/
namespace Sys2Proof.Machine

/-! ### The debug gate -/

/-- The image that the restarted firmware takes, as at a warm reset (R60, R61), with its clock plan; a Retired head reads none (Table 17-11). -/
def Chip.restartImage : Nat → Chip → Chip
  | 0, c => c.set R.KCF_STATUS_NO_IMAGE 1
  | n + 1, c =>
    match if c.retired then none else c.bootSlot with
    | none => c.set R.KCF_STATUS_NO_IMAGE 1
    | some slot =>
      match c.imageAt slot with
      | none => (c.failImage slot).restartImage n
      | some i => (c.adoptImage slot i).startClusters

/-- What a restart of the firmware ends: the image in use, the engines' programs and their jobs. -/
def Chip.stopFirmware (c : Chip) : Chip :=
  { c.set R.GLB_STATUS_IMAGE_ACTIVE 0 with
    kcf := { persistSlot := c.kcf.persistSlot }
    sec := c.sec.afterReset
    dge := { c.dge with jobs := [], results := [] }
    cpe := { c.cpe with jobs := [], results := [] }
    cmp := { c.cmp with jobs := [], results := [] }
    rde := { c.rde with jobs := [], results := [] } }

/-- R542: the debug state set, and its event. -/
def Chip.debugState (c : Chip) (d : DebugState) : Chip :=
  ({ c with root := { c.root with debug := d } } : Chip).event 0x340 0 0 d.code 0 0

/-- DEBUG_OPEN (R542). A firmware that no longer verifies leaves the head in its loader with debug closed. -/
def debugOpen (src : TokenSrc) (c : Chip) : Chip :=
  c.submit src 1 (fun bs c =>
    let c := (c.debugState .requested).sealMono (fun m => { m with zeroizePending := true })
    match c.zeroize.stopFirmware.startFirmware with
    | none =>
      let d := (c.zeroize.stopFirmware.debugState .closed).tokenEnd bs 0
      d.stayInLoader 1 d.slotCheck
    | some d =>
      let d := (d.reloadKeys.setAll [(R.KCF_STATUS_FELL_BACK, 0), (R.KCF_STATUS_NO_IMAGE, 0)]).restartImage 2
      let d := d.sealMono (fun m => { m with zeroizePending := false, opens := m.opens + 1 })
      (((d.debugState .opened).measureState 4).set R.GLB_STATUS_DEBUG_OPEN 1).tokenEnd bs 0)

/-- DBG_TOKEN (R541): a token shifted in is submitted at Update-DR, and acted on by its command. -/
def dbgToken (bytes : List Byte) (readBackOk : Bool) (c : Chip) : Chip :=
  c.jtagOn (fun c =>
    let c := c.jtagSelect .dbgToken .functional
    let src := TokenSrc.jtag bytes
    match tkCommand (c.tokenBytes src) with
    | 2 => provision src readBackOk c
    | 3 => deploy src readBackOk c
    | 4 => service src readBackOk c
    | 5 => returnToken src readBackOk c
    | 6 => retire src readBackOk c
    | 7 => fuseOwner src readBackOk c
    | 8 => revokeOwner src readBackOk c
    | 9 => trustAdd src c
    | 10 => trustRemove src c
    | 11 => revokeFwKey src readBackOk c
    | _ => debugOpen src c)

/-- Where bit 47 of a debug address is set, the rest is a BAR2 address; otherwise it is a DRAM address. -/
def debugBar2 (addr : Nat) : Option Nat := if bitOf addr 47 then some (addr % 2 ^ 47) else none

/-- One access of the debug access port: a BAR2 block other than SEC_ROOT, or DRAM. -/
def Chip.debugAccess (c : Chip) (addr size : Nat) (write : Option Nat) : Chip :=
  match debugBar2 addr with
  | some ofs =>
    if blockIndex ofs = 14 then c
    else match write with
      | some v => c.writeSpace .cores ofs size v
      | none => (c.readSpace .cores ofs size).emit (.debugData (c.readSpace .cores ofs size).regs.readData)
  | none =>
    if c.dramSize < addr + size then c
    else match write with
      | some v => c.store addr (natLe v size)
      | none => c.emit (.debugData (c.loadNat addr size))

/-- DBG_ACCESS (R541): with debug open; otherwise it selects the bypass register. -/
def dbgAccess (addr size : Nat) (write : Option Nat) (c : Chip) : Chip :=
  c.jtagOn (fun c =>
    if c.root.debug = .opened then (c.jtagSelect .dbgAccess .functional).debugAccess addr size write
    else c.jtagSelect .bypass .functional)

/-! ### The peer link -/

/-- STANDALONE_ACK (R393): an ACK frame for a channel whose E nothing has carried. -/
def standaloneAck (ch : Nat) (c : Chip) : Chip :=
  if c.linkUp && (c.zch ch).ackOwed then c.sendAck 0 else c

-- EXEC debugOpen dbgToken dbgAccess standaloneAck

/-- DEBUG_OPEN (R542). -/
def execDebugOpen (src : TokenSrc) (s : State) : Host.Outcome State Fault Refusal :=
  s.runBar2 true (src == .mailbox) R.SEC_ROOT_CMD_CMD (debugOpen src)

/-- DBG_TOKEN (R541). -/
def execDbgToken (bytes : List Byte) (readBackOk : Bool) (s : State) : Host.Outcome State Fault Refusal :=
  s.run true (dbgToken bytes readBackOk)

/-- DBG_ACCESS (R541). -/
def execDbgAccess (addr : Nat) (size : Nat) (write : Option Nat) (s : State) : Host.Outcome State Fault Refusal :=
  s.run true (dbgAccess addr size write)

/-- STANDALONE_ACK (R393). -/
def execStandaloneAck (ch : Nat) (s : State) : Host.Outcome State Fault Refusal :=
  s.runAwake true (standaloneAck ch)

-- END EXEC

end Sys2Proof.Machine
end

