-- ==== Sys2Proof/Machine/Dispatch.lean ====
section
/-!
DEFINITION. One arm per command: each calls its meaning.
-/
namespace Sys2Proof.Machine

/-- What each command does. -/
def exec (i : Instr) (s : State) : Host.Outcome State Fault Refusal :=
  match i with
  | .registerWrite sp ofs size value => Sys2Proof.Machine.execRegisterWrite sp ofs size value s
  | .lowHalfRead sp ofs size => Sys2Proof.Machine.execLowHalfRead sp ofs size s
  | .lowHalfWrite sp ofs value => Sys2Proof.Machine.execLowHalfWrite sp ofs value s
  | .nightwatchTick => Sys2Proof.Machine.execNightwatchTick s
  | .porNAssert => Sys2Proof.Machine.execPorNAssert s
  | .crystalRunning => Sys2Proof.Machine.execCrystalRunning s
  | .headSelSample pos => Sys2Proof.Machine.execHeadSelSample pos s
  | .sysRstNAssert => Sys2Proof.Machine.execSysRstNAssert s
  | .pwrgdRise => Sys2Proof.Machine.execPwrgdRise s
  | .pwrgdFall => Sys2Proof.Machine.execPwrgdFall s
  | .pllLockTimeout pll => Sys2Proof.Machine.execPllLockTimeout pll s
  | .firmwareStart copy0 copy1 sramOk failedUnits => Sys2Proof.Machine.execFirmwareStart copy0 copy1 sramOk failedUnits s
  | .vaultReplay superseded sealMax failed sealOk bad => Sys2Proof.Machine.execVaultReplay superseded sealMax failed sealOk bad s
  | .dayReached => Sys2Proof.Machine.execDayReached s
  | .kcfLoad => Sys2Proof.Machine.execKcfLoad s
  | .kcfLoadDone => Sys2Proof.Machine.execKcfLoadDone s
  | .kcfValidate => Sys2Proof.Machine.execKcfValidate s
  | .kcfValidateDone => Sys2Proof.Machine.execKcfValidateDone s
  | .kcfActivate => Sys2Proof.Machine.execKcfActivate s
  | .kcfPersistDone ok => Sys2Proof.Machine.execKcfPersistDone ok s
  | .kcfAbort => Sys2Proof.Machine.execKcfAbort s
  | .kcfRetry => Sys2Proof.Machine.execKcfRetry s
  | .kcfActTimeout => Sys2Proof.Machine.execKcfActTimeout s
  | .clusterDrained n ok => Sys2Proof.Machine.execClusterDrained n ok s
  | .kcfQuiesceTimeout n ok => Sys2Proof.Machine.execKcfQuiesceTimeout n ok s
  | .perstDeassert => Sys2Proof.Machine.execPerstDeassert s
  | .perstAssert => Sys2Proof.Machine.execPerstAssert s
  | .linkL0Reached rate width flit => Sys2Proof.Machine.execLinkL0Reached rate width flit s
  | .configSpaceReady => Sys2Proof.Machine.execConfigSpaceReady s
  | .dlDown => Sys2Proof.Machine.execDlDown s
  | .hotReset => Sys2Proof.Machine.execHotReset s
  | .pmeTurnOff => Sys2Proof.Machine.execPmeTurnOff s
  | .linkError err fn replayed => Sys2Proof.Machine.execLinkError err fn replayed s
  | .deviceControlWrite fn value => Sys2Proof.Machine.execDeviceControlWrite fn value s
  | .numvfsWrite value => Sys2Proof.Machine.execNumvfsWrite value s
  | .systemPageSizeWrite value => Sys2Proof.Machine.execSystemPageSizeWrite value s
  | .vfEnableSet => Sys2Proof.Machine.execVfEnableSet s
  | .vfEnableClear => Sys2Proof.Machine.execVfEnableClear s
  | .vfFlr fn => Sys2Proof.Machine.execVfFlr fn s
  | .pfFlr => Sys2Proof.Machine.execPfFlr s
  | .busMasterEnableWrite fn on => Sys2Proof.Machine.execBusMasterEnableWrite fn on s
  | .msixMaskWrite fn vec mask => Sys2Proof.Machine.execMsixMaskWrite fn vec mask s
  | .msixEnableWrite fn on => Sys2Proof.Machine.execMsixEnableWrite fn on s
  | .msixMessageWrite fn vec word value => Sys2Proof.Machine.execMsixMessageWrite fn vec word value s
  | .inboundUnsupportedRequest kind fn => Sys2Proof.Machine.execInboundUnsupportedRequest kind fn s
  | .readCompletion tag status poisoned badCount ecrcBad data => Sys2Proof.Machine.execReadCompletion tag status poisoned badCount ecrcBad data s
  | .completionTimeout tag => Sys2Proof.Machine.execCompletionTimeout tag s
  | .epcClrCnt => Sys2Proof.Machine.execEpcClrCnt s
  | .ccEnSet fn => Sys2Proof.Machine.execCcEnSet fn s
  | .controllerReady fn => Sys2Proof.Machine.execControllerReady fn s
  | .ccEnClear fn => Sys2Proof.Machine.execCcEnClear fn s
  | .normalShutdown fn => Sys2Proof.Machine.execNormalShutdown fn s
  | .abruptShutdown fn => Sys2Proof.Machine.execAbruptShutdown fn s
  | .sqTailDoorbell fn qid value => Sys2Proof.Machine.execSqTailDoorbell fn qid value s
  | .cqHeadDoorbell fn qid value => Sys2Proof.Machine.execCqHeadDoorbell fn qid value s
  | .sqFetchIssue load busyPools => Sys2Proof.Machine.execSqFetchIssue load busyPools s
  | .coalescingTimer fn vec => Sys2Proof.Machine.execCoalescingTimer fn vec s
  | .deleteIoSubmissionQueue id qid => Sys2Proof.Machine.execDeleteIoSubmissionQueue id qid s
  | .createIoSubmissionQueue id qid qsize cqid pc prp1 => Sys2Proof.Machine.execCreateIoSubmissionQueue id qid qsize cqid pc prp1 s
  | .getLogPage id lid ofs len rae dptr => Sys2Proof.Machine.execGetLogPage id lid ofs len rae dptr s
  | .deleteIoCompletionQueue id qid => Sys2Proof.Machine.execDeleteIoCompletionQueue id qid s
  | .createIoCompletionQueue id qid qsize vec pc ien prp1 => Sys2Proof.Machine.execCreateIoCompletionQueue id qid qsize vec pc ien prp1 s
  | .identify id cns csi nsid dptr => Sys2Proof.Machine.execIdentify id cns csi nsid dptr s
  | .nvmeAbort id target => Sys2Proof.Machine.execNvmeAbort id target s
  | .setFeatures id fid dw11 save => Sys2Proof.Machine.execSetFeatures id fid dw11 save s
  | .getFeatures id fid sel => Sys2Proof.Machine.execGetFeatures id fid sel s
  | .asynchronousEventRequest id => Sys2Proof.Machine.execAsynchronousEventRequest id s
  | .namespaceManagement id act => Sys2Proof.Machine.execNamespaceManagement id act s
  | .namespaceAttachment id nsid attach => Sys2Proof.Machine.execNamespaceAttachment id nsid attach s
  | .formatNvm id nsid lbaf ses dps ext => Sys2Proof.Machine.execFormatNvm id nsid lbaf ses dps ext s
  | .deviceSelfTest id stc => Sys2Proof.Machine.execDeviceSelfTest id stc s
  | .selfTestStep failedUnit last => Sys2Proof.Machine.execSelfTestStep failedUnit last s
  | .firmwareImageDownload id ofs len => Sys2Proof.Machine.execFirmwareImageDownload id ofs len s
  | .firmwareCommit id ca fs peerUnconfirmed => Sys2Proof.Machine.execFirmwareCommit id ca fs peerUnconfirmed s
  | .fwSlotWriteDone ok => Sys2Proof.Machine.execFwSlotWriteDone ok s
  | .loadKey id nssf tl => Sys2Proof.Machine.execLoadKey id nssf tl s
  | .eraseKey id nssf tl => Sys2Proof.Machine.execEraseKey id nssf tl s
  | .eraseChunksEncrypted slot => Sys2Proof.Machine.execEraseChunksEncrypted slot s
  | .transportKey id nssf alloc dptr => Sys2Proof.Machine.execTransportKey id nssf alloc dptr s
  | .slotStatus id nssf alloc dptr => Sys2Proof.Machine.execSlotStatus id nssf alloc dptr s
  | .lastResult id nssf alloc dptr => Sys2Proof.Machine.execLastResult id nssf alloc dptr s
  | .securityProtocolInfo id spsp nssf alloc dptr => Sys2Proof.Machine.execSecurityProtocolInfo id spsp nssf alloc dptr s
  | .write id nsid slba nlb form pr => Sys2Proof.Machine.execWrite id nsid slba nlb form pr s
  | .writeDataArrived id => Sys2Proof.Machine.execWriteDataArrived id s
  | .read id nsid slba nlb form pr => Sys2Proof.Machine.execRead id nsid slba nlb form pr s
  | .verify id nsid slba nlb form pr => Sys2Proof.Machine.execVerify id nsid slba nlb form pr s
  | .writeZeroes id nsid slba nlb deac pr => Sys2Proof.Machine.execWriteZeroes id nsid slba nlb deac pr s
  | .datasetManagement id nsid ad nr => Sys2Proof.Machine.execDatasetManagement id nsid ad nr s
  | .flush id nsid => Sys2Proof.Machine.execFlush id nsid s
  | .segmentIdleTimeout seg => Sys2Proof.Machine.execSegmentIdleTimeout seg s
  | .stripeAgeTimeout cls => Sys2Proof.Machine.execStripeAgeTimeout cls s
  | .journalRecordVaulted region rsn => Sys2Proof.Machine.execJournalRecordVaulted region rsn s
  | .holdupNFall => Sys2Proof.Machine.execHoldupNFall s
  | .flushSeal => Sys2Proof.Machine.execFlushSeal s
  | .holdupNRise => Sys2Proof.Machine.execHoldupNRise s
  | .holdupStable => Sys2Proof.Machine.execHoldupStable s
  | .gatherEnd => Sys2Proof.Machine.execGatherEnd s
  | .dwellEnd => Sys2Proof.Machine.execDwellEnd s
  | .shelfPageIn sh rootOk mapOk => Sys2Proof.Machine.execShelfPageIn sh rootOk mapOk s
  | .parkTimeout sh => Sys2Proof.Machine.execParkTimeout sh s
  | .shelfWakeTimeout sh => Sys2Proof.Machine.execShelfWakeTimeout sh s
  | .dedupDecide eng chunk dom cls blocks fp compares => Sys2Proof.Machine.execDedupDecide eng chunk dom cls blocks fp compares s
  | .bucketReadDone bucket copy0Ok copy1Ok compares => Sys2Proof.Machine.execBucketReadDone bucket copy0Ok copy1Ok compares s
  | .cmpCompress eng pool noFallback srcLen srcAddr dstAddr dstCap resAddr => Sys2Proof.Machine.execCmpCompress eng pool noFallback srcLen srcAddr dstAddr dstCap resAddr s
  | .cmpCompressToCipher eng pool noFallback srcLen srcAddr cpeJob resAddr => Sys2Proof.Machine.execCmpCompressToCipher eng pool noFallback srcLen srcAddr cpeJob resAddr s
  | .cmpDecompress eng pool srcLen srcAddr dstAddr dstCap resAddr => Sys2Proof.Machine.execCmpDecompress eng pool srcLen srcAddr dstAddr dstCap resAddr s
  | .accelJobStart unit core => Sys2Proof.Machine.execAccelJobStart unit core s
  | .cmpJobEnd handle out => Sys2Proof.Machine.execCmpJobEnd handle out s
  | .cmpCntClr => Sys2Proof.Machine.execCmpCntClr s
  | .encrypt eng pool desc => Sys2Proof.Machine.execEncrypt eng pool desc s
  | .encryptStreamed eng pool desc => Sys2Proof.Machine.execEncryptStreamed eng pool desc s
  | .decrypt eng pool desc => Sys2Proof.Machine.execDecrypt eng pool desc s
  | .decryptDecompress eng pool desc => Sys2Proof.Machine.execDecryptDecompress eng pool desc s
  | .cipherJobEnd handle busError dcmp => Sys2Proof.Machine.execCipherJobEnd handle busError dcmp s
  | .instTake shelfMax writable => Sys2Proof.Machine.execInstTake shelfMax writable s
  | .cpeCntClr => Sys2Proof.Machine.execCpeCntClr s
  | .hash eng pool desc => Sys2Proof.Machine.execHash eng pool desc s
  | .compare eng pool desc => Sys2Proof.Machine.execCompare eng pool desc s
  | .digestJobEnd handle busError compareFault => Sys2Proof.Machine.execDigestJobEnd handle busError compareFault s
  | .dgeCntClr => Sys2Proof.Machine.execDgeCntClr s
  | .mediaRead sh ppa retry nand => Sys2Proof.Machine.execMediaRead sh ppa retry nand s
  | .mediaReadHdr sh ppa nand => Sys2Proof.Machine.execMediaReadHdr sh ppa nand s
  | .mediaProgram sh ppa hdr data fails => Sys2Proof.Machine.execMediaProgram sh ppa hdr data fails s
  | .mediaErase sh ppa fails => Sys2Proof.Machine.execMediaErase sh ppa fails s
  | .mediaCopy sh src dst seq band epoch nand fails => Sys2Proof.Machine.execMediaCopy sh src dst seq band epoch nand fails s
  | .mediaBlockInfo sh ppa => Sys2Proof.Machine.execMediaBlockInfo sh ppa s
  | .mediaRetire sh ppa => Sys2Proof.Machine.execMediaRetire sh ppa s
  | .mediaGeometry sh => Sys2Proof.Machine.execMediaGeometry sh s
  | .mediaRootGet sh => Sys2Proof.Machine.execMediaRootGet sh s
  | .mediaRootSet sh slot ppa seq => Sys2Proof.Machine.execMediaRootSet sh slot ppa seq s
  | .mediaResponse tag status corr hdr data => Sys2Proof.Machine.execMediaResponse tag status corr hdr data s
  | .mediaOpTimeout tag => Sys2Proof.Machine.execMediaOpTimeout tag s
  | .writebackDue sh page => Sys2Proof.Machine.execWritebackDue sh page s
  | .fullScanRebuild sh => Sys2Proof.Machine.execFullScanRebuild sh s
  | .stripeCompaction c => Sys2Proof.Machine.execStripeCompaction c s
  | .bandCompaction sh => Sys2Proof.Machine.execBandCompaction sh s
  | .rebuildGraceTimeout sh => Sys2Proof.Machine.execRebuildGraceTimeout sh s
  | .rebuildStripe c seid => Sys2Proof.Machine.execRebuildStripe c seid s
  | .repairPage c seid strip page => Sys2Proof.Machine.execRepairPage c seid strip page s
  | .scrubStripe c => Sys2Proof.Machine.execScrubStripe c s
  | .scrubAgeRequest c => Sys2Proof.Machine.execScrubAgeRequest c s
  | .encode eng pool desc => Sys2Proof.Machine.execEncode eng pool desc s
  | .accumulate eng pool desc => Sys2Proof.Machine.execAccumulate eng pool desc s
  | .reconstruct eng pool desc => Sys2Proof.Machine.execReconstruct eng pool desc s
  | .rdeVerify eng pool desc => Sys2Proof.Machine.execRdeVerify eng pool desc s
  | .rdeJobEnd handle busError => Sys2Proof.Machine.execRdeJobEnd handle busError s
  | .reshapeStart => Sys2Proof.Machine.execReshapeStart s
  | .reshapeAbort => Sys2Proof.Machine.execReshapeAbort s
  | .reshapeBatchCopied => Sys2Proof.Machine.execReshapeBatchCopied s
  | .reshapeCopyDone => Sys2Proof.Machine.execReshapeCopyDone s
  | .rdeCntClr => Sys2Proof.Machine.execRdeCntClr s
  | .hubCodeword str ports => Sys2Proof.Machine.execHubCodeword str ports s
  | .attachmentTraining str att lanes echoes => Sys2Proof.Machine.execAttachmentTraining str att lanes echoes s
  | .beaconTransmit str collides => Sys2Proof.Machine.execBeaconTransmit str collides s
  | .beaconReceive str att b trailer => Sys2Proof.Machine.execBeaconReceive str att b trailer s
  | .dataSlotTransmit str att slot => Sys2Proof.Machine.execDataSlotTransmit str att slot s
  | .slotReceive str att slot sos frames corrected uncorrectable colliders => Sys2Proof.Machine.execSlotReceive str att slot sos frames corrected uncorrectable colliders s
  | .holdoverEntry str pos => Sys2Proof.Machine.execHoldoverEntry str pos s
  | .holdoverTimeout str pos => Sys2Proof.Machine.execHoldoverTimeout str pos s
  | .stringDark str => Sys2Proof.Machine.execStringDark str s
  | .contentionAttempt str pos slot2 wakeReason => Sys2Proof.Machine.execContentionAttempt str pos slot2 wakeReason s
  | .backoffExpiry str pos => Sys2Proof.Machine.execBackoffExpiry str pos s
  | .enrol str slot2 pos blank vendor model fwVersion arrayTag hdr => Sys2Proof.Machine.execEnrol str slot2 pos blank vendor model fwVersion arrayTag hdr s
  | .stringSpdm str pos hdr bytes msg => Sys2Proof.Machine.execStringSpdm str pos hdr bytes msg s
  | .enrolmentTimeout str => Sys2Proof.Machine.execEnrolmentTimeout str s
  | .quarantineExpiry str pos => Sys2Proof.Machine.execQuarantineExpiry str pos s
  | .isfAck str pos byHead head value => Sys2Proof.Machine.execIsfAck str pos byHead head value s
  | .isfRetxTimeout str pos byHead head => Sys2Proof.Machine.execIsfRetxTimeout str pos byHead head s
  | .sessionStart str pos head session opidNext keep reqKey rspKey => Sys2Proof.Machine.execSessionStart str pos head session opidNext keep reqKey rspKey s
  | .keys str pos keygen key => Sys2Proof.Machine.execKeys str pos keygen key s
  | .park str pos head => Sys2Proof.Machine.execPark str pos head s
  | .parkDone str pos => Sys2Proof.Machine.execParkDone str pos s
  | .echo str pos head data => Sys2Proof.Machine.execEcho str pos head data s
  | .echoReply str pos data => Sys2Proof.Machine.execEchoReply str pos data s
  | .bridgeNandPowered str pos => Sys2Proof.Machine.execBridgeNandPowered str pos s
  | .bridgeWake str slot2 pos reason detail hdr => Sys2Proof.Machine.execBridgeWake str slot2 pos reason detail hdr s
  | .bridgeWakeTone str pos => Sys2Proof.Machine.execBridgeWakeTone str pos s
  | .bridgeLost str pos => Sys2Proof.Machine.execBridgeLost str pos s
  | .stringOutOfService str => Sys2Proof.Machine.execStringOutOfService str s
  | .stringRetrainRetry str ok => Sys2Proof.Machine.execStringRetrainRetry str ok s
  | .isfStrCntClr str => Sys2Proof.Machine.execIsfStrCntClr str s
  | .laneFailed lane => Sys2Proof.Machine.execLaneFailed lane s
  | .rewidth quads => Sys2Proof.Machine.execRewidth quads s
  | .quadRetrain quad ok => Sys2Proof.Machine.execQuadRetrain quad ok s
  | .zblBringup quads authOk session txKey rxKey => Sys2Proof.Machine.execZblBringup quads authOk session txKey rxKey s
  | .zblWakeToneSend => Sys2Proof.Machine.execZblWakeToneSend s
  | .hello h msg => Sys2Proof.Machine.execHello h msg s
  | .aloneTimeout => Sys2Proof.Machine.execAloneTimeout s
  | .heartbeatSend => Sys2Proof.Machine.execHeartbeatSend s
  | .heartbeatReceive h tx echoTx echoRx st => Sys2Proof.Machine.execHeartbeatReceive h tx echoTx echoRx st s
  | .watchdogLapse => Sys2Proof.Machine.execWatchdogLapse s
  | .zblAck h acks wins nak => Sys2Proof.Machine.execZblAck h acks wins nak s
  | .zblRetxTimeout ch => Sys2Proof.Machine.execZblRetxTimeout ch s
  | .opRetryTimeout opid => Sys2Proof.Machine.execOpRetryTimeout opid s
  | .hostDown h time => Sys2Proof.Machine.execHostDown h time s
  | .hostUp h time => Sys2Proof.Machine.execHostUp h time s
  | .pfail h strings time => Sys2Proof.Machine.execPfail h strings time s
  | .depart h strings time => Sys2Proof.Machine.execDepart h strings time s
  | .peerYield h time => Sys2Proof.Machine.execPeerYield h time s
  | .mnSync h time epoch shift => Sys2Proof.Machine.execMnSync h time epoch shift s
  | .recCopy h rsn epoch image body => Sys2Proof.Machine.execRecCopy h rsn epoch image body s
  | .mnClose h epoch count lastSeq digest effective => Sys2Proof.Machine.execMnClose h epoch count lastSeq digest effective s
  | .mnConfirm h epoch digest => Sys2Proof.Machine.execMnConfirm h epoch digest s
  | .propose h p stamp => Sys2Proof.Machine.execPropose h p stamp s
  | .answer h res => Sys2Proof.Machine.execAnswer h res s
  | .commit h proposal kind => Sys2Proof.Machine.execCommit h proposal kind s
  | .doneMsg h proposal status => Sys2Proof.Machine.execDoneMsg h proposal status s
  | .proposalLapse opid => Sys2Proof.Machine.execProposalLapse opid s
  | .acceptedProposalDiscard opid => Sys2Proof.Machine.execAcceptedProposalDiscard opid s
  | .lease h msg => Sys2Proof.Machine.execLease h msg s
  | .mapwalk h msg => Sys2Proof.Machine.execMapwalk h msg s
  | .stateMsg h msg => Sys2Proof.Machine.execStateMsg h msg s
  | .mirrorData h wid ofs data => Sys2Proof.Machine.execMirrorData h wid ofs data s
  | .mirrorEnd h wid tenant nsid slba nlb len => Sys2Proof.Machine.execMirrorEnd h wid tenant nsid slba nlb len s
  | .mirrorDrop h wid => Sys2Proof.Machine.execMirrorDrop h wid s
  | .epochBoundary => Sys2Proof.Machine.execEpochBoundary s
  | .midnightComplete epoch => Sys2Proof.Machine.execMidnightComplete epoch s
  | .midnightSyncEdge => Sys2Proof.Machine.execMidnightSyncEdge s
  | .peerSilent => Sys2Proof.Machine.execPeerSilent s
  | .fenceComplete => Sys2Proof.Machine.execFenceComplete s
  | .bringupRetry => Sys2Proof.Machine.execBringupRetry s
  | .zblCntClr => Sys2Proof.Machine.execZblCntClr s
  | .alu n e w => Sys2Proof.Machine.execAlu n e w s
  | .addi n e w => Sys2Proof.Machine.execAddi n e w s
  | .andi n e w => Sys2Proof.Machine.execAndi n e w s
  | .ori n e w => Sys2Proof.Machine.execOri n e w s
  | .xori n e w => Sys2Proof.Machine.execXori n e w s
  | .slli n e w => Sys2Proof.Machine.execSlli n e w s
  | .srli n e w => Sys2Proof.Machine.execSrli n e w s
  | .srai n e w => Sys2Proof.Machine.execSrai n e w s
  | .muli n e w => Sys2Proof.Machine.execMuli n e w s
  | .cmpi n e w => Sys2Proof.Machine.execCmpi n e w s
  | .movw n e w => Sys2Proof.Machine.execMovw n e w s
  | .shor n e w => Sys2Proof.Machine.execShor n e w s
  | .loadInstruction n e w ecc => Sys2Proof.Machine.execLoadInstruction n e w ecc s
  | .storeInstruction n e w busError => Sys2Proof.Machine.execStoreInstruction n e w busError s
  | .dramLoadReply n e busError => Sys2Proof.Machine.execDramLoadReply n e busError s
  | .bc n e w => Sys2Proof.Machine.execBc n e w s
  | .brz n e w => Sys2Proof.Machine.execBrz n e w s
  | .brnz n e w => Sys2Proof.Machine.execBrnz n e w s
  | .jal n e w => Sys2Proof.Machine.execJal n e w s
  | .jalr n e w => Sys2Proof.Machine.execJalr n e w s
  | .sld n e w busError => Sys2Proof.Machine.execSld n e w busError s
  | .sst n e w ecc busError => Sys2Proof.Machine.execSst n e w ecc busError s
  | .scrc16 n e w ecc => Sys2Proof.Machine.execScrc16 n e w ecc s
  | .scrc64 n e w ecc => Sys2Proof.Machine.execScrc64 n e w ecc s
  | .shcut n e w ecc => Sys2Proof.Machine.execShcut n e w ecc s
  | .engNop n e w => Sys2Proof.Machine.execEngNop n e w s
  | .fence n e w => Sys2Proof.Machine.execFence n e w s
  | .ifence n e w => Sys2Proof.Machine.execIfence n e w s
  | .wfw n e w => Sys2Proof.Machine.execWfw n e w s
  | .brk n e w => Sys2Proof.Machine.execBrk n e w s
  | .eret n e w => Sys2Proof.Machine.execEret n e w s
  | .mfs n e w => Sys2Proof.Machine.execMfs n e w s
  | .mts n e w => Sys2Proof.Machine.execMts n e w s
  | .aiss n e w => Sys2Proof.Machine.execAiss n e w s
  | .await n e w => Sys2Proof.Machine.execAwait n e w s
  | .acan n e w => Sys2Proof.Machine.execAcan n e w s
  | .afence n e w => Sys2Proof.Machine.execAfence n e w s
  | .workItemDelivery n e item => Sys2Proof.Machine.execWorkItemDelivery n e item s
  | .workItemTimeout n e toN toE => Sys2Proof.Machine.execWorkItemTimeout n e toN toE s
  | .engineFaultRecovery n e toN toE => Sys2Proof.Machine.execEngineFaultRecovery n e toN toE s
  | .ctlDone n e work sct sc failing => Sys2Proof.Machine.execCtlDone n e work sct sc failing s
  | .ctlChunk n e work lba blocks duplicate locator => Sys2Proof.Machine.execCtlChunk n e work lba blocks duplicate locator s
  | .ctlPacked n e work lba blocks locator => Sys2Proof.Machine.execCtlPacked n e work lba blocks locator s
  | .ctlOpen n e work cls => Sys2Proof.Machine.execCtlOpen n e work cls s
  | .ctlSealed n e work seid strips => Sys2Proof.Machine.execCtlSealed n e work seid strips s
  | .ctlEvent n e work code a0 a1 a2 a3 => Sys2Proof.Machine.execCtlEvent n e work code a0 a1 a2 a3 s
  | .engHalt n e => Sys2Proof.Machine.execEngHalt n e s
  | .engResume n e => Sys2Proof.Machine.execEngResume n e s
  | .engineLoad n e prog => Sys2Proof.Machine.execEngineLoad n e prog s
  | .cancelAll n e => Sys2Proof.Machine.execCancelAll n e s
  | .clusterOffline n => Sys2Proof.Machine.execClusterOffline n s
  | .clusterOnline n => Sys2Proof.Machine.execClusterOnline n s
  | .cancelLogRelease n head => Sys2Proof.Machine.execCancelLogRelease n head s
  | .secClCntClr n => Sys2Proof.Machine.execSecClCntClr n s
  | .secEngCntClr n e => Sys2Proof.Machine.execSecEngCntClr n e s
  | .dmaStart ch byHost => Sys2Proof.Machine.execDmaStart ch byHost s
  | .dmaPause ch byHost => Sys2Proof.Machine.execDmaPause ch byHost s
  | .dmaResume ch byHost => Sys2Proof.Machine.execDmaResume ch byHost s
  | .dmaAbort ch byHost => Sys2Proof.Machine.execDmaAbort ch byHost s
  | .dmaDoorbell ch byHost => Sys2Proof.Machine.execDmaDoorbell ch byHost s
  | .descriptorReadReply ch => Sys2Proof.Machine.execDescriptorReadReply ch s
  | .linkReadReply ch => Sys2Proof.Machine.execLinkReadReply ch s
  | .dmaCopy ch => Sys2Proof.Machine.execDmaCopy ch s
  | .dmaFill ch => Sys2Proof.Machine.execDmaFill ch s
  | .dmaCompare ch => Sys2Proof.Machine.execDmaCompare ch s
  | .pacedBurst ch srcBytes => Sys2Proof.Machine.execPacedBurst ch srcBytes s
  | .paceTick => Sys2Proof.Machine.execPaceTick s
  | .dmaBusError ch kind space addr done => Sys2Proof.Machine.execDmaBusError ch kind space addr done s
  | .busStopClear => Sys2Proof.Machine.execBusStopClear s
  | .busStopTimeout => Sys2Proof.Machine.execBusStopTimeout s
  | .hwinLenWrite low high => Sys2Proof.Machine.execHwinLenWrite low high s
  | .dmaCntClr => Sys2Proof.Machine.execDmaCntClr s
  | .cacheAccess who acc addr snooped crosses queued dram sram prefetch => Sys2Proof.Machine.execCacheAccess who acc addr snooped crosses queued dram sram prefetch s
  | .coreWritebackArrive core line data => Sys2Proof.Machine.execCoreWritebackArrive core line data s
  | .snoopWb core line => Sys2Proof.Machine.execSnoopWb core line s
  | .evictionWriteAccepted line => Sys2Proof.Machine.execEvictionWriteAccepted line s
  | .patrolScrub found => Sys2Proof.Machine.execPatrolScrub found s
  | .dimmTemperatureReading ch temp => Sys2Proof.Machine.execDimmTemperatureReading ch temp s
  | .wayPowerDown way byHost => Sys2Proof.Machine.execWayPowerDown way byHost s
  | .waySweepDone way snooped => Sys2Proof.Machine.execWaySweepDone way snooped s
  | .wayPowerUp way byHost => Sys2Proof.Machine.execWayPowerUp way byHost s
  | .memCntClr => Sys2Proof.Machine.execMemCntClr s
  | .pwrDusk => Sys2Proof.Machine.execPwrDusk s
  | .pwrCancel => Sys2Proof.Machine.execPwrCancel s
  | .hostlessTimeout => Sys2Proof.Machine.execHostlessTimeout s
  | .duskDrained => Sys2Proof.Machine.execDuskDrained s
  | .duskFlushed => Sys2Proof.Machine.execDuskFlushed s
  | .duskHandedOver => Sys2Proof.Machine.execDuskHandedOver s
  | .duskClosed => Sys2Proof.Machine.execDuskClosed s
  | .wakeNLow => Sys2Proof.Machine.execWakeNLow s
  | .zblWakeTone => Sys2Proof.Machine.execZblWakeTone s
  | .isfWakeTone str => Sys2Proof.Machine.execIsfWakeTone str s
  | .nightWakeTimer => Sys2Proof.Machine.execNightWakeTimer s
  | .i3cPrivateWrite => Sys2Proof.Machine.execI3cPrivateWrite s
  | .nightwatchSensorCheck highest => Sys2Proof.Machine.execNightwatchSensorCheck highest s
  | .clusterGateIdle domain => Sys2Proof.Machine.execClusterGateIdle domain s
  | .thermalSample temps => Sys2Proof.Machine.execThermalSample temps s
  | .thermalTrip => Sys2Proof.Machine.execThermalTrip s
  | .powerEstimate watts => Sys2Proof.Machine.execPowerEstimate watts s
  | .pllLossOfLock pll => Sys2Proof.Machine.execPllLossOfLock pll s
  | .pwrCntClr => Sys2Proof.Machine.execPwrCntClr s
  | .getChallenge => Sys2Proof.Machine.execGetChallenge s
  | .challengeExpiry => Sys2Proof.Machine.execChallengeExpiry s
  | .clearMailbox => Sys2Proof.Machine.execClearMailbox s
  | .debugOpen src => Sys2Proof.Machine.execDebugOpen src s
  | .provision src readBackOk => Sys2Proof.Machine.execProvision src readBackOk s
  | .deploy src readBackOk => Sys2Proof.Machine.execDeploy src readBackOk s
  | .service src readBackOk => Sys2Proof.Machine.execService src readBackOk s
  | .returnToken src readBackOk => Sys2Proof.Machine.execReturnToken src readBackOk s
  | .retire src readBackOk => Sys2Proof.Machine.execRetire src readBackOk s
  | .fuseOwner src readBackOk => Sys2Proof.Machine.execFuseOwner src readBackOk s
  | .revokeOwner src readBackOk => Sys2Proof.Machine.execRevokeOwner src readBackOk s
  | .trustAdd src => Sys2Proof.Machine.execTrustAdd src s
  | .trustRemove src => Sys2Proof.Machine.execTrustRemove src s
  | .revokeFwKey src readBackOk => Sys2Proof.Machine.execRevokeFwKey src readBackOk s
  | .secRootCntClr => Sys2Proof.Machine.execSecRootCntClr s
  | .getVersion tr => Sys2Proof.Machine.execGetVersion tr s
  | .getCapabilities tr => Sys2Proof.Machine.execGetCapabilities tr s
  | .negotiateAlgorithms tr p384 sha384 => Sys2Proof.Machine.execNegotiateAlgorithms tr p384 sha384 s
  | .getDigests tr => Sys2Proof.Machine.execGetDigests tr s
  | .getCertificate tr slot ofs len => Sys2Proof.Machine.execGetCertificate tr slot ofs len s
  | .spdmChallenge tr slot summary nonce => Sys2Proof.Machine.execSpdmChallenge tr slot summary nonce s
  | .getMeasurements tr index signed raw nonce => Sys2Proof.Machine.execGetMeasurements tr index signed raw nonce s
  | .jtagBypass tdi => Sys2Proof.Machine.execJtagBypass tdi s
  | .jtagIdcode => Sys2Proof.Machine.execJtagIdcode s
  | .jtagSamplePreload cells preload => Sys2Proof.Machine.execJtagSamplePreload cells preload s
  | .jtagExtest cells preload => Sys2Proof.Machine.execJtagExtest cells preload s
  | .jtagClamp tdi => Sys2Proof.Machine.execJtagClamp tdi s
  | .jtagHighz tdi => Sys2Proof.Machine.execJtagHighz tdi s
  | .dbgChallenge => Sys2Proof.Machine.execDbgChallenge s
  | .dbgToken bytes readBackOk => Sys2Proof.Machine.execDbgToken bytes readBackOk s
  | .dbgStatus => Sys2Proof.Machine.execDbgStatus s
  | .dbgAccess addr size write => Sys2Proof.Machine.execDbgAccess addr size write s
  | .bootConfirm => Sys2Proof.Machine.execBootConfirm s
  | .confirmTimeout => Sys2Proof.Machine.execConfirmTimeout s
  | .resetWarm => Sys2Proof.Machine.execResetWarm s
  | .saveBoard ok => Sys2Proof.Machine.execSaveBoard ok s
  | .fwReq h floor awg empty => Sys2Proof.Machine.execFwReq h floor awg empty s
  | .fwData h ofs data => Sys2Proof.Machine.execFwData h ofs data s
  | .fwEnd h length serial => Sys2Proof.Machine.execFwEnd h length serial s
  | .bootCntClr => Sys2Proof.Machine.execBootCntClr s
  | .eventRecordArrive sram => Sys2Proof.Machine.execEventRecordArrive sram s
  | .suppressionPeriodEnd code => Sys2Proof.Machine.execSuppressionPeriodEnd code s
  | .evrFreeze => Sys2Proof.Machine.execEvrFreeze s
  | .evrThaw => Sys2Proof.Machine.execEvrThaw s
  | .freezeLapse => Sys2Proof.Machine.execFreezeLapse s
  | .clearFb => Sys2Proof.Machine.execClearFb s
  | .evrCPtrWrite value => Sys2Proof.Machine.execEvrCPtrWrite value s
  | .evrCntClr => Sys2Proof.Machine.execEvrCntClr s
  | .headFault cause endpointAlive => Sys2Proof.Machine.execHeadFault cause endpointAlive s
  | .i3cEntdaa addr => Sys2Proof.Machine.execI3cEntdaa addr s
  | .mctpMessage tr body => Sys2Proof.Machine.execMctpMessage tr body s
  | .nightwatchSupplyLoss => Sys2Proof.Machine.execNightwatchSupplyLoss s
  | .dimmSupplyLoss => Sys2Proof.Machine.execDimmSupplyLoss s
  | .pllLocked pll => Sys2Proof.Machine.execPllLocked pll s
  | .dramTrainingDone trained dimms canaryBad => Sys2Proof.Machine.execDramTrainingDone trained dimms canaryBad s
  | .ceHourWindow ch => Sys2Proof.Machine.execCeHourWindow ch s
  | .standaloneAck ch => Sys2Proof.Machine.execStandaloneAck ch s
  | .illegalInstruction n e w => Sys2Proof.Machine.execIllegalInstruction n e w s
  | .fetchFault n e => Sys2Proof.Machine.execFetchFault n e s
  | .zblTrainingRestart => Sys2Proof.Machine.execZblTrainingRestart s

end Sys2Proof.Machine
end

