-- ==== Sys2Proof/Safety.lean ====
section
/-!
DEFINITION. What counts as a safe run: no command stops the machine. And the terms the claims use: a command that completes with
its effect on the chip, register fields that stay as they were, and what an instruction of a stream engine leaves.
-/
namespace Sys2Proof

open Sys2Proof.Machine

/-- Whether every command waiting names units that the head has. -/
def Machine.State.wellFormed (s : Machine.State) : Prop := ∀ c ∈ s.pending, c.wf = true

/-- A step that stops neither with a fault nor with a refusal. -/
def Machine.State.advances (s : Machine.State) : Prop := ∃ t, Machine.step s = .next t

/-- The state that `n` steps lead to, none where one of them stops. -/
def Machine.State.after (s : Machine.State) : Nat → Option Machine.State
  | 0 => some s
  | n + 1 => match s.after n with
    | some t => match Machine.step t with
      | .next u => some u
      | _ => none
    | none => none

/-- The command answers a next state whose queue is as it was and whose chip satisfies `P`. -/
def Completes (c : Instr) (s : State) (P : Chip → Prop) : Prop := ∃ d, exec c s = .next { s with chip := d } ∧ P d

/-- The command answers the next state whose chip is `d`: everything that the rules change is in `d`, the queue is as it was, and every
part of the chip that `d` does not name anew is as before. -/
def Yields (c : Instr) (s : State) (d : Chip) : Prop := exec c s = .next { s with chip := d }

/-- The host's writes of BAR2 registers reach every block: the head's logic is clocked, the function's BARs are open (R94), and the head is
not loader-only (R558). -/
def Served (s : State) : Prop :=
  s.chip.awake = true ∧ s.chip.barOpen 0 = true ∧ s.chip.on R.GLB_STATUS_LOADER_ONLY = false

/-- No earlier result of a unit waits to be shown by the VALID bit `valid` (R15). -/
def NoneWaits (c : Chip) (valid : Fld) : Prop := c.regs.later.find? (fun p => p.1 == valid) = none

/-- Every register field reads as before, but for the fields listed; no half-written or shadowed register changes, nor what the last
register read returned. -/
def RegsSame (c d : Chip) (l : List Fld) : Prop :=
  (∀ f : Fld, f.key ∉ l.map Fld.key → d.get f = c.get f) ∧ d.regs.held = c.regs.held ∧ d.regs.shadow = c.regs.shadow ∧
  d.regs.readData = c.regs.readData

/-- What an instruction of engine `e` of cluster `n` leaves when it commits: engine state `f` of what it was, the next PC, the engine
running, one instruction more counted; every other engine, cluster, block and register field as it was. (The cycle counts advance by
a free value, log entry 12.) `latch` holds the old copies of the next word where the instruction stored to IMEM (R441). -/
def CommitsLatch (c d : Chip) (n e : Nat) (f : Eng → Eng) (next : Nat) (latch : Option (Nat × List Word32)) : Prop :=
  let k := engKey n e
  d.engAt k = { f (c.engAt k) with
    pc := next, instret := (c.engAt k).instret + 1, state := .running, stall := 0, latched := latch, cyc := (d.engAt k).cyc } ∧
  (∀ j, j ≠ k → d.engAt j = c.engAt j) ∧
  d.get (R.SEC_ENG_CNT_INSTRET_INSTRET n e) =
    trunc (R.SEC_ENG_CNT_INSTRET_INSTRET n e).width (c.get (R.SEC_ENG_CNT_INSTRET_INSTRET n e) + 1) ∧
  RegsSame c d [R.SEC_ENG_CNT_INSTRET_INSTRET n e] ∧
  d.sec.clusters = c.sec.clusters ∧ d.sec.waiting = c.sec.waiting ∧
  d = { c with regs := d.regs, sec := d.sec, freeCount := c.freeCount + 1 }

/-- What an instruction that does not store to IMEM leaves when it commits. -/
def Commits (c d : Chip) (n e : Nat) (f : Eng → Eng) (next : Nat) : Prop := CommitsLatch c d n e f next none

/-- What an exception of engine `e` of cluster `n` leaves when the commit queue holds nothing else (R442, R443): EPC, ECAUSE and EADDR
written; the handler entered where ETVEC names one, the cause allows it and no handler runs; otherwise the engine faulted, with the
fault's cause, PC and address kept and one fault more counted for its cluster. DIV_ZERO sets DZ. -/
def Raises (c d : Chip) (n e cause pc addr : Nat) : Prop :=
  let k := engKey n e
  let g := c.engAt k
  let handled := g.etvec != 0 && handlerAllowed cause && !g.inHandler
  let fl : EFlags := if cause = 0x06 then { g.flags with dz := true } else g.flags
  let x : Eng := { g with
    epc := pc, ecause := cause, eaddr := addr, flags := fl, stream := false, latched := none, stall := 0, queue := [],
    cyc := (d.engAt k).cyc }
  d.engAt k = (if handled then { x with inHandler := true, pc := g.etvec, state := .running }
    else { x with state := .faulted, pc := pc, faultCause := cause, faultEpc := pc, faultAddr := addr }) ∧
  (∀ j, j ≠ k → d.engAt j = c.engAt j) ∧
  (handled = true → RegsSame c d []) ∧
  (handled = false → RegsSame c d [R.SEC_CL_CNT_FAULTS_FAULTS n] ∧
    d.get (R.SEC_CL_CNT_FAULTS_FAULTS n) =
      trunc (R.SEC_CL_CNT_FAULTS_FAULTS n).width (c.get (R.SEC_CL_CNT_FAULTS_FAULTS n) + 1)) ∧
  d.sec.clusters = c.sec.clusters ∧ d.sec.waiting = c.sec.waiting ∧
  d = { c with regs := d.regs, sec := d.sec, freeCount := c.freeCount + 1 }

/-- What one 64-byte unit of a stream instruction leaves (R435): engine state `f` of what it was, the engine running inside a stream
instruction, and 64 bytes more counted. -/
def StreamUnit (c d : Chip) (n e : Nat) (f : Eng → Eng) : Prop :=
  let k := engKey n e
  d.engAt k = { f (c.engAt k) with state := .running, stall := 0, stream := true } ∧
  (∀ j, j ≠ k → d.engAt j = c.engAt j) ∧
  d.get (R.SEC_ENG_CNT_STREAM_STREAM_BYTES n e) =
    trunc (R.SEC_ENG_CNT_STREAM_STREAM_BYTES n e).width (c.get (R.SEC_ENG_CNT_STREAM_STREAM_BYTES n e) + 64) ∧
  RegsSame c d [R.SEC_ENG_CNT_STREAM_STREAM_BYTES n e] ∧
  d.sec.clusters = c.sec.clusters ∧ d.sec.waiting = c.sec.waiting ∧ d = { c with regs := d.regs, sec := d.sec }

/-- Engine `e` of cluster `n` is about to execute the word `w`, its commit queue empty: the engine exists, the head's logic is clocked, and
the fetch at its PC gives `w`. -/
def Fetched (s : State) (n e : Nat) (w : Word32) : Prop :=
  n < 24 ∧ e < 8 ∧ s.chip.awake = true ∧ (s.chip.engAt (engKey n e)).ready w = true ∧
  (s.chip.engAt (engKey n e)).queue = []

/-- The controller has fetched command `id` with opcode `opc` (of the admin queue or of an I/O queue) and has not begun it; `i` is its context. The
function offers an admin command (R107), and the sections in force at the fetch are still in force (R63). -/
def Fetching (s : State) (id : CmdId) (admin : Bool) (opc : Nat) (i : Inflight) : Prop :=
  s.chip.awake = true ∧ id.fn < 1024 ∧ s.chip.fetched id admin opc = some i ∧ (admin = true → s.chip.offers id.fn opc = true) ∧
  s.chip.kcf.prevs.find? (fun p => p.1 == i.sect) = none

/-- The data that command `id` brings has all arrived, in buffer `slot`, and the command has not begun; `i` is its context (R88). -/
def Delivered (s : State) (id : CmdId) (admin : Bool) (opc : Nat) (i : Inflight) (slot : Nat) : Prop :=
  s.chip.awake = true ∧ id.fn < 1024 ∧ s.chip.fetched id admin opc = some i ∧ i.input = some (slot, true) ∧
  s.chip.kcf.prevs.find? (fun p => p.1 == i.sect) = none

/-- Command `id` has been fetched and nothing of the `bytes` that it brings has been asked for; the form of its buffer is good (R120). -/
def Bringing (s : State) (id : CmdId) (admin : Bool) (opc bytes : Nat) (i : Inflight) : Prop :=
  Fetching s id admin opc i ∧ i.input = none ∧ badForm i.form bytes = false

/-- The chip with command `id` running, its data taken from its buffer. -/
def Machine.Chip.taken (c : Chip) (id : CmdId) : Chip := c.modFlight id (fun i => { i with running := true, input := none })

/-- The chip with command `id` running. -/
def Machine.Chip.begun (c : Chip) (id : CmdId) : Chip := c.modFlight id (fun i => { i with running := true })

end Sys2Proof
end

