-- ==== Sys2Proof/Certificates/Slice0/Obligations.lean ====
section
/-!
DEFINITION. The statements for the provers, family by family of the opcode table in its order, then the rules of the whole machine.
-/
open Sys2Proof Sys2Proof.Machine

/-- The immediate instructions commit their result: R429 (Table 13-3), R431 (flags), R433 (a shift amount is the whole IMM15). -/
def Obligations.EngineImmediateInstructionsCommit : Prop :=
  ∀ (s : State) (n e : Nat) (w : Word32), Fetched s n e w → legalWord w = true →
    let g := s.chip.engAt (engKey n e)
    let a := g.reg (xaOf w)
    let i := sext w 15
    let z := zext w 15
    let did (v : Word64) (k o : Bool) (d : Chip) : Prop :=
      Commits s.chip d n e (fun g => { g.setReg (xdOf w) v with
        flags := if sImm w then { g.flags with z := v == 0, m := v.msb, k := k, v := o } else g.flags }) (g.pc + 4)
    (opOf w = 0x02 → Completes (.addi n e w) s (did (a + i) (decide (2 ^ 64 ≤ a.toNat + i.toNat)) (overflows (a.toInt + i.toInt)))) ∧
    (opOf w = 0x03 → Completes (.andi n e w) s (did (a &&& z) false false)) ∧
    (opOf w = 0x04 → Completes (.ori n e w) s (did (a ||| z) false false)) ∧
    (opOf w = 0x05 → Completes (.xori n e w) s (did (a ^^^ z) false false)) ∧
    (opOf w = 0x06 → Completes (.slli n e w) s (did (if 64 ≤ z.toNat then 0 else a <<< z.toNat) false false)) ∧
    (opOf w = 0x07 → Completes (.srli n e w) s (did (if 64 ≤ z.toNat then 0 else a >>> z.toNat) false false)) ∧
    (opOf w = 0x08 → Completes (.srai n e w) s
      (did (if 64 ≤ z.toNat then (if a.msb then BitVec.allOnes 64 else 0) else a.sshiftRight z.toNat) false false)) ∧
    (opOf w = 0x09 → Completes (.muli n e w) s (did (a * i) (decide (2 ^ 64 ≤ a.toNat * i.toNat)) (overflows (a.toInt * i.toInt)))) ∧
    (opOf w = 0x0A → Completes (.cmpi n e w) s (fun d =>
      Commits s.chip d n e (fun g => { g with flags := { g.flags with
        z := a - i == 0, m := (a - i).msb, k := decide (a.toNat < i.toNat), v := overflows (a.toInt - i.toInt) } }) (g.pc + 4)))

/-- The ALU functions: R430 (Table 13-4), R431 and R432 (flags), R433 (edge results, and the DIV_ZERO trap). -/
def Obligations.EngineAluFunctionsCommit : Prop :=
  ∀ (s : State) (n e : Nat) (w : Word32), Fetched s n e w → legalWord w = true → opOf w = 0x01 →
    let g := s.chip.engAt (engKey n e)
    let a := g.reg (xaOf w)
    let b := g.reg (xbOf w)
    let did (v : Word64) (always k o dz : Bool) : Prop := Completes (.alu n e w) s (fun d =>
      Commits s.chip d n e (fun g => { g.setReg (xdOf w) v with
        flags := if sOf w || always then { g.flags with z := v == 0, m := v.msb, k := k, v := o, dz := g.flags.dz || dz } else g.flags })
        (g.pc + 4))
    let trap : Prop := Completes (.alu n e w) s (fun d => Raises s.chip d n e 0x06 g.pc 0)
    (fnOf w = 0x000 → did (a + b) false (decide (2 ^ 64 ≤ a.toNat + b.toNat)) (overflows (a.toInt + b.toInt)) false) ∧
    (fnOf w = 0x001 → did (a - b) false (decide (a.toNat < b.toNat)) (overflows (a.toInt - b.toInt)) false) ∧
    (fnOf w = 0x002 → did (a &&& b) false false false false) ∧
    (fnOf w = 0x003 → did (a ||| b) false false false false) ∧
    (fnOf w = 0x004 → did (a ^^^ b) false false false false) ∧
    (fnOf w = 0x005 → did (a &&& ~~~b) false false false false) ∧
    (fnOf w = 0x008 → did (if 64 ≤ b.toNat then 0 else a <<< b.toNat) false false false false) ∧
    (fnOf w = 0x009 → did (if 64 ≤ b.toNat then 0 else a >>> b.toNat) false false false false) ∧
    (fnOf w = 0x00A → did (if 64 ≤ b.toNat then (if a.msb then BitVec.allOnes 64 else 0) else a.sshiftRight b.toNat) false false false false) ∧
    (fnOf w = 0x00B → did (a.rotateLeft (b.toNat % 64)) false false false false) ∧
    (fnOf w = 0x010 → did (a * b) false (decide (2 ^ 64 ≤ a.toNat * b.toNat)) (overflows (a.toInt * b.toInt)) false) ∧
    (fnOf w = 0x011 → did (BitVec.ofNat 64 (a.toNat * b.toNat / 2 ^ 64)) false false false false) ∧
    (fnOf w = 0x012 → did (BitVec.ofInt 64 (a.toInt * b.toInt / 2 ^ 64)) false false false false) ∧
    (fnOf w = 0x020 → did (0 - a) true (decide (0 < a.toNat)) (overflows (0 - a.toInt)) false) ∧
    (fnOf w = 0x028 → did (BitVec.ofNat 64 (clz a)) false false false false) ∧
    (fnOf w = 0x029 → did (BitVec.ofNat 64 (popcount a)) false false false false) ∧
    (fnOf w = 0x02A → did (byteSwap a) false false false false) ∧
    (fnOf w = 0x030 → did (if a.toNat < b.toNat then a else b) false false false false) ∧
    (fnOf w = 0x031 → did (if a.toNat < b.toNat then b else a) false false false false) ∧
    (fnOf w = 0x032 → did (if a.toInt < b.toInt then a else b) false false false false) ∧
    (fnOf w = 0x033 → did (if a.toInt < b.toInt then b else a) false false false false) ∧
    (b ≠ 0 →
      (fnOf w = 0x018 → did (BitVec.ofNat 64 (a.toNat / b.toNat)) true false false false) ∧
      (fnOf w = 0x019 → did (BitVec.ofInt 64 (a.toInt.tdiv b.toInt)) true false (overflows (a.toInt.tdiv b.toInt)) false) ∧
      (fnOf w = 0x01A → did (BitVec.ofNat 64 (a.toNat % b.toNat)) true false false false) ∧
      (fnOf w = 0x01B → did (BitVec.ofInt 64 (a.toInt.tmod b.toInt)) true false (overflows (a.toInt.tdiv b.toInt)) false)) ∧
    (b = 0 → g.flags.dze = false →
      (fnOf w = 0x018 ∨ fnOf w = 0x019 → did (BitVec.allOnes 64) true false false true) ∧
      (fnOf w = 0x01A ∨ fnOf w = 0x01B → did a true false false true)) ∧
    (b = 0 → g.flags.dze = true → 0x018 ≤ fnOf w → fnOf w ≤ 0x01B → trap)

/-- Moves and jumps: R429 (Table 13-3), R434 (Table 13-6), R424 (JAL writes X31), R436 (NOP). -/
def Obligations.EngineMovesAndJumpsCommit : Prop :=
  ∀ (s : State) (n e : Nat) (w : Word32), Fetched s n e w → legalWord w = true →
    let g := s.chip.engAt (engKey n e)
    let pc := g.pc
    let dest (o : Word64) : Nat := (BitVec.ofNat 64 pc + 4#64 * o).toNat
    let goes (next : Nat) (d : Chip) : Prop := Commits s.chip d n e (fun g => g) next
    let writes (r : Nat) (v : Word64) (next : Nat) (d : Chip) : Prop := Commits s.chip d n e (fun g => g.setReg r v) next
    (opOf w = 0x0B → Completes (.movw n e w) s (writes (xdOf w) (sext w 21) (pc + 4))) ∧
    (opOf w = 0x0C → Completes (.shor n e w) s (writes (xdOf w) ((g.reg (xdOf w) <<< 21) ||| zext w 21) (pc + 4))) ∧
    (opOf w = 0x20 →
      let f := g.flags
      let holds (p : Bool) : Prop := Completes (.bc n e w) s (goes (if p then dest (sext w 22) else pc + 4))
      (fld w 22 4 = 0 → holds f.z) ∧ (fld w 22 4 = 1 → holds f.m) ∧ (fld w 22 4 = 2 → holds f.k) ∧ (fld w 22 4 = 3 → holds f.v) ∧
      (fld w 22 4 = 4 → holds (f.k || f.z)) ∧ (fld w 22 4 = 5 → holds (f.m != f.v)) ∧ (fld w 22 4 = 6 → holds (f.z || f.m != f.v)) ∧
      (fld w 22 4 = 7 → holds true) ∧ (fld w 22 4 = 8 → holds (!f.z)) ∧ (fld w 22 4 = 9 → holds (!f.m)) ∧
      (fld w 22 4 = 10 → holds (!f.k)) ∧ (fld w 22 4 = 11 → holds (!f.v)) ∧ (fld w 22 4 = 12 → holds (!f.k && !f.z)) ∧
      (fld w 22 4 = 13 → holds (f.m == f.v)) ∧ (fld w 22 4 = 14 → holds (!f.z && f.m == f.v))) ∧
    (opOf w = 0x21 → Completes (.brz n e w) s (goes (if g.reg (xdOf w) = 0 then dest (sext w 21) else pc + 4))) ∧
    (opOf w = 0x22 → Completes (.brnz n e w) s (goes (if g.reg (xdOf w) = 0 then pc + 4 else dest (sext w 21)))) ∧
    (opOf w = 0x23 → Completes (.jal n e w) s (writes 31 (BitVec.ofNat 64 (pc + 4)) (dest (sext w 26)))) ∧
    (opOf w = 0x24 → Completes (.jalr n e w) s
      (writes (xdOf w) (BitVec.ofNat 64 (pc + 4)) (g.reg (xaOf w) + sext w 15).toNat)) ∧
    (opOf w = 0x38 → fn11 w = 0 → Completes (.engNop n e w) s (goes (pc + 4)))

/-- System instructions: R436 (Table 13-8), R437 (Table 13-9), R441 (IFENCE), R443 (ERET). -/
def Obligations.EngineSystemInstructionsCommit : Prop :=
  ∀ (s : State) (n e : Nat) (w : Word32), Fetched s n e w → legalWord w = true → opOf w = 0x38 →
    let g := s.chip.engAt (engKey n e)
    let pc := g.pc
    let reads (v : Nat) : Prop := Completes (.mfs n e w) s (fun d =>
      Commits s.chip d n e (fun g => g.setReg (xdOf w) (BitVec.ofNat 64 v)) (pc + 4))
    let writes (f : Word64 → Eng → Eng) : Prop := Completes (.mts n e w) s (fun d =>
      Commits s.chip d n e (f (g.reg (xaOf w))) (pc + 4))
    (fn11 w = 6 →
      (xbOf w = 0 → reads (flag g.flags.z + 2 * flag g.flags.m + 4 * flag g.flags.k + 8 * flag g.flags.v +
        256 * flag g.flags.dz + 65536 * flag g.flags.dze)) ∧
      (xbOf w = 1 → reads g.epc) ∧ (xbOf w = 2 → reads g.ecause) ∧ (xbOf w = 3 → reads g.eaddr) ∧
      (xbOf w = 4 → reads g.etvec) ∧ (xbOf w = 5 → reads (flag g.inHandler)) ∧
      (xbOf w = 8 → reads (e + 256 * n + 65536 * s.chip.poolOf n)) ∧
      (xbOf w = 9 → reads g.cyc.sinceLoad) ∧ (xbOf w = 10 → reads g.instret) ∧
      (xbOf w = 11 → reads s.chip.now) ∧ (xbOf w = 12 → reads s.chip.epoch) ∧ (xbOf w = 13 → reads g.progId) ∧
      (xbOf w = 6 ∨ xbOf w = 7 ∨ 13 < xbOf w → Completes (.mfs n e w) s (fun d => Raises s.chip d n e 0x01 pc 0))) ∧
    (fn11 w = 7 →
      (xbOf w = 0 → writes (fun v g => { g with flags := {
        z := bitOf v.toNat 0, m := bitOf v.toNat 1, k := bitOf v.toNat 2, v := bitOf v.toNat 3, dz := bitOf v.toNat 8,
        dze := bitOf v.toNat 16 } })) ∧
      (xbOf w = 1 → writes (fun v g => { g with epc := v.toNat })) ∧
      (xbOf w = 4 → writes (fun v g => { g with etvec := v.toNat })) ∧
      (xbOf w ≠ 0 → xbOf w ≠ 1 → xbOf w ≠ 4 → Completes (.mts n e w) s (fun d => Raises s.chip d n e 0x01 pc 0))) ∧
    (fn11 w = 5 → Completes (.eret n e w) s (fun d => Commits s.chip d n e (fun g => { g with inHandler := false }) g.epc)) ∧
    (fn11 w = 1 → Completes (.fence n e w) s (fun d => Commits s.chip d n e (fun g => g) (pc + 4))) ∧
    (fn11 w = 2 → Completes (.ifence n e w) s (fun d => Commits s.chip d n e (fun g => { g with stale := [] }) (pc + 4)))

/-- Exceptions: R429 (ILLEGAL), R436 (BRK), R442 (FETCH) and R443 (what taking one does). -/
def Obligations.EngineExceptionsAreTaken : Prop :=
  ∀ (s : State) (n e : Nat),
    let g := s.chip.engAt (engKey n e)
    (∀ w : Word32, Fetched s n e w →
      (legalWord w = true → opOf w = 0x38 → fn11 w = 4 →
        Completes (.brk n e w) s (fun d => Raises s.chip d n e 0x09 g.pc 0)) ∧
      (legalWord w = false → Completes (.illegalInstruction n e w) s (fun d => Raises s.chip d n e 0x01 g.pc 0))) ∧
    (n < 24 → e < 8 → s.chip.awake = true → g.state = .running ∨ g.state = .stalled → g.queue = [] →
      (0x8000 < g.pc + 4 ∨ g.pc % 4 ≠ 0) →
        Completes (.fetchFault n e) s (fun d => Raises s.chip d n e 0x02 g.pc 0))

/-- Loads: R425 to R427, R439, and the reply of an aperture load: R442. In the reply's clauses `d.useFree` stands for the answer, since a
reply takes no free value. -/
def Obligations.EngineLoadsCommitOrTrap : Prop :=
  (∀ (s : State) (n e : Nat) (w : Word32) (ecc : EccIn), Fetched s n e w → legalWord w = true → 0x10 ≤ opOf w → opOf w ≤ 0x16 →
    let g := s.chip.engAt (engKey n e)
    let pc := g.pc
    let a := (g.reg (xaOf w) + sext w 16).toNat
    let size := if opOf w = 0x10 ∨ opOf w = 0x14 then 1 else if opOf w = 0x11 ∨ opOf w = 0x15 then 2
      else if opOf w = 0x12 ∨ opOf w = 0x16 then 4 else 8
    let sg := decide (0x14 ≤ opOf w)
    let ram := a + size ≤ 0x8000 ∨ 0x10000 ≤ a ∧ a + size ≤ 0x30000
    let ecr := 0x80000 ≤ a ∧ a + size ≤ 0x80100
    let aperture := 0x100000000000 ≤ a ∧ a + size ≤ 0x200000000000
    let loads (c : Chip) : Prop := Completes (.loadInstruction n e w ecc) s (fun d =>
      Commits c d n e (fun g => g.setReg (xdOf w) (extendLoad size sg (leNat (g.readMem a size)))) (pc + 4))
    let traps (cause : Nat) : Prop := Completes (.loadInstruction n e w ecc) s (fun d => Raises s.chip d n e cause pc a)
    (a % size = 0 → ram ∨ ecr → ecc = .clean → loads s.chip) ∧
    (a % size = 0 → ram → ecc = .corrected → loads (s.chip.bump (R.SEC_ENG_CNT_ECC_ECC n e) 1)) ∧
    (a % size = 0 → ram → ecc = .uncorrectable → traps 0x0A) ∧
    (a % size = 0 → aperture → ecc = .clean → windowsAllow g.windows (dramOf a) size false = true →
      Completes (.loadInstruction n e w ecc) s (fun d =>
        d.engAt (engKey n e) = { g with
          state := .running, stall := 0, latched := none, cyc := (d.engAt (engKey n e)).cyc
          queue := [⟨pc, pc + 4, some ⟨xdOf w, dramOf a, size, sg⟩, none, []⟩] } ∧
        (∀ j, j ≠ engKey n e → d.engAt j = s.chip.engAt j) ∧
        d.sec.clusters = s.chip.sec.clusters ∧ d.sec.waiting = s.chip.sec.waiting ∧
        d = { s.chip with sec := d.sec, freeCount := s.chip.freeCount + 1 })) ∧
    (ecc = .clean → a % size ≠ 0 → traps 0x03) ∧
    (ecc = .clean → a % size = 0 → aperture → windowsAllow g.windows (dramOf a) size false = false → traps 0x04) ∧
    (ecc = .clean → a % size = 0 → ¬ ram → ¬ ecr → ¬ aperture → traps 0x04)) ∧
  (∀ (s : State) (n e : Nat) (busError : Bool) (pc next : Nat) (l : DramLoad),
    let g := s.chip.engAt (engKey n e)
    n < 24 → e < 8 → s.chip.awake = true → g.state = .running ∨ g.state = .stalled →
    g.queue = [⟨pc, next, some l, none, []⟩] →
      (busError = false → s.chip.poisonedAt l.addr l.size = false →
        Completes (.dramLoadReply n e busError) s (fun d => Commits s.chip d.useFree n e (fun g =>
          { g.setReg l.dest (extendLoad l.size l.signed (s.chip.loadNat l.addr l.size)) with queue := [] }) next)) ∧
      (busError = true ∨ s.chip.poisonedAt l.addr l.size = true →
        Completes (.dramLoadReply n e busError) s (fun d =>
          Raises s.chip d.useFree n e 0x05 pc (apertureOf l.addr))))

/-- Stores: R425 to R427, R439 (a store takes place at its commit), R441 (a store to IMEM). -/
def Obligations.EngineStoresCommitOrTrap : Prop :=
  ∀ (s : State) (n e : Nat) (w : Word32) (busError : Bool), Fetched s n e w → legalWord w = true → 0x18 ≤ opOf w → opOf w ≤ 0x1B →
    let g := s.chip.engAt (engKey n e)
    let pc := g.pc
    let a := (g.reg (xaOf w) + sext w 16).toNat
    let size := if opOf w = 0x18 then 1 else if opOf w = 0x19 then 2 else if opOf w = 0x1A then 4 else 8
    let bytes := natLe (g.reg (xdOf w)).toNat size
    let imem := a + size ≤ 0x8000
    let dmem := 0x10000 ≤ a ∧ a + size ≤ 0x30000
    let aperture := 0x100000000000 ≤ a ∧ a + size ≤ 0x200000000000
    let traps (cause : Nat) : Prop := Completes (.storeInstruction n e w busError) s (fun d => Raises s.chip d n e cause pc a)
    (a % size = 0 → dmem → Completes (.storeInstruction n e w busError) s (fun d =>
      Commits s.chip d n e (fun g => { g with dmem := Mem.write g.dmem a bytes }) (pc + 4) ∧
      ∀ x, x < a ∨ a + size ≤ x → Mem.byte (d.engAt (engKey n e)).dmem x = Mem.byte g.dmem x)) ∧
    (a % size = 0 → imem → Completes (.storeInstruction n e w busError) s (fun d =>
      CommitsLatch s.chip d n e (fun g => { g with
        imem := Mem.write g.imem a bytes, stale := (d.engAt (engKey n e)).stale }) (pc + 4) (some (pc + 4, g.copiesAt (pc + 4))) ∧
      (a / 4 * 4, g.wordAt (a / 4 * 4)) ∈ (d.engAt (engKey n e)).stale ∧
      (∀ y ∈ g.stale, y ∈ (d.engAt (engKey n e)).stale) ∧
      ∀ x, x < a ∨ a + size ≤ x → Mem.byte (d.engAt (engKey n e)).imem x = Mem.byte g.imem x)) ∧
    (a % size = 0 → aperture → windowsAllow g.windows (dramOf a) size true = true → busError = false →
      Completes (.storeInstruction n e w busError) s (fun d =>
        Commits (s.chip.store (dramOf a) bytes) d n e (fun g => g) (pc + 4))) ∧
    (a % size = 0 → aperture → windowsAllow g.windows (dramOf a) size true = true → busError = true → traps 0x05) ∧
    (a % size = 0 → aperture → windowsAllow g.windows (dramOf a) size true = false → traps 0x04) ∧
    (a % size = 0 → ¬ imem → ¬ dmem → ¬ aperture → traps 0x04) ∧
    (a % size ≠ 0 → traps 0x03)

/-- Stream instructions: R435 (Table 13-7), the windows of R427, the guard CRCs of R150 and the cut hash of R156. -/
def Obligations.EngineStreamInstructionsRun : Prop :=
  ∀ (s : State) (n e : Nat) (w : Word32), Fetched s n e w → legalWord w = true → opOf w = 0x28 →
    let g := s.chip.engAt (engKey n e)
    let pc := g.pc
    let x := (g.reg (xaOf w)).toNat
    let y := (g.reg (xbOf w)).toNat
    let z := (g.reg (xdOf w)).toNat
    let dmem (a : Nat) : Prop := 0x10000 ≤ a ∧ a + 64 ≤ 0x30000
    let unit (c : Instr) (from_ : Chip) (len : Nat) (f : Eng → Eng) : Prop := Completes c s (fun d => ∃ c1,
      StreamUnit from_ c1 n e f ∧
      (len = 64 → Commits c1 d n e (fun g => { g with stream := false }) (pc + 4)) ∧ (len ≠ 64 → d = c1))
    let ends (c : Instr) : Prop := Completes c s (fun d => Commits s.chip d n e (fun g => { g with stream := false }) (pc + 4))
    let traps (c : Instr) (cause addr : Nat) : Prop := Completes c s (fun d => Raises s.chip d n e cause pc addr)
    (fn11 w = 0 → ∀ busError,
      (z = 0 → ends (.sld n e w busError)) ∧
      (z % 64 ≠ 0 → traps (.sld n e w busError) 0x03 0) ∧
      (z ≠ 0 → z % 64 = 0 → x % 64 ≠ 0 → traps (.sld n e w busError) 0x03 x) ∧
      (z ≠ 0 → z % 64 = 0 → x % 64 = 0 → y % 64 ≠ 0 → traps (.sld n e w busError) 0x03 y) ∧
      (z ≠ 0 → z % 64 = 0 → x % 64 = 0 → y % 64 = 0 → windowsAllow g.windows x 64 false = false →
        traps (.sld n e w busError) 0x04 x) ∧
      (z ≠ 0 → z % 64 = 0 → x % 64 = 0 → y % 64 = 0 → windowsAllow g.windows x 64 false = true → dmem y →
        busError = false → s.chip.poisonedAt x 64 = false →
        unit (.sld n e w busError) s.chip z (fun g =>
          ({ g with dmem := Mem.write g.dmem y (s.chip.load x 64) } : Eng).advance [xaOf w, xbOf w] (xdOf w)))) ∧
    (fn11 w = 1 → ∀ busError,
      (z = 0 → ends (.sst n e w .clean busError)) ∧
      (z % 64 ≠ 0 → traps (.sst n e w .clean busError) 0x03 0) ∧
      (z ≠ 0 → z % 64 = 0 → x % 64 = 0 → y % 64 = 0 → windowsAllow g.windows x 64 true = false →
        traps (.sst n e w .clean busError) 0x04 x) ∧
      (z ≠ 0 → z % 64 = 0 → x % 64 = 0 → y % 64 = 0 → windowsAllow g.windows x 64 true = true → dmem y →
        traps (.sst n e w .uncorrectable busError) 0x0A y) ∧
      (z ≠ 0 → z % 64 = 0 → x % 64 = 0 → y % 64 = 0 → windowsAllow g.windows x 64 true = true → dmem y → busError = false →
        unit (.sst n e w .clean busError) (s.chip.store x (Mem.read g.dmem y 64)) z
          (fun g => g.advance [xaOf w, xbOf w] (xdOf w)))) ∧
    (fn11 w = 2 →
      (y = 0 → ends (.scrc16 n e w .clean)) ∧
      (y % 64 ≠ 0 → traps (.scrc16 n e w .clean) 0x03 0) ∧
      (y ≠ 0 → y % 64 = 0 → x % 64 = 0 → dmem x → unit (.scrc16 n e w .clean) s.chip y (fun g =>
        (g.setReg (xdOf w) (BitVec.ofNat 64 (crc16From (z % 0x10000) (Mem.read g.dmem x 64)))).advance [xaOf w] (xbOf w)))) ∧
    (fn11 w = 3 →
      (y = 0 → ends (.scrc64 n e w .clean)) ∧
      (y % 64 ≠ 0 → traps (.scrc64 n e w .clean) 0x03 0) ∧
      (y ≠ 0 → y % 64 = 0 → x % 64 = 0 → dmem x → unit (.scrc64 n e w .clean) s.chip y (fun g =>
        (g.setReg (xdOf w) (BitVec.ofNat 64 (crc64From z (Mem.read g.dmem x 64)))).advance [xaOf w] (xbOf w)))) ∧
    (fn11 w = 4 →
      (x % 64 ≠ 0 → traps (.shcut n e w .clean) 0x03 x) ∧
      (x % 64 = 0 → dmem x → Completes (.shcut n e w .clean) s (fun d => ∃ c1,
        Commits s.chip c1 n e (fun g => g.setReg (xdOf w) (BitVec.ofNat 64 (cutHash (Mem.read g.dmem x 64)))) (pc + 4) ∧
        d = c1.bump (R.SEC_ENG_CNT_STREAM_STREAM_BYTES n e) 64)))

/-- Accelerator instructions and WFW: R445, R447 to R449, R451 (Tables 13-15 and 13-17). -/
def Obligations.EngineAcceleratorInstructionsRun : Prop :=
  ∀ (s : State) (n e : Nat) (w : Word32), Fetched s n e w → legalWord w = true →
    let k := engKey n e
    let g := s.chip.engAt k
    let pc := g.pc
    (opOf w = 0x30 → fld w 0 3 = 0 →
      let port := fld w 3 2
      let cls := fld w 5 4
      let desc := (g.reg (xaOf w)).toNat
      let res := (g.reg (xbOf w)).toNat
      let raw := g.readMem desc (descBytes cls)
      let pool := s.chip.poolOf n
      let body := raw.take 2 ++ natLe pool 1 ++ raw.drop 3
      (bitOf g.ports port = false ∨ cls = 0 ∨ 6 < cls → Completes (.aiss n e w) s (fun d => Raises s.chip d n e 0x07 pc 0)) ∧
      (∀ entry, aissExc g cls port desc res = none → s.chip.freeEntry n port = some entry → (s.chip.jobsHeld k).length < 8 →
        s.chip.unitRoom cls pool raw = true →
        let seq := (Sparse.get 0 (s.chip.clusAt n).seqs (port * 64 + entry) + 1) % 0x1000000
        let ticket := port + 4 * entry + 256 * seq
        s.chip.portAllows ⟨some k, ticket, res, true⟩ cls pool body = true →
        Completes (.aiss n e w) s (fun d =>
          (d.engAt k).pc = pc + 4 ∧ (d.engAt k).queue = [] ∧ (d.engAt k).instret = g.instret + 1 ∧
          (xdOf w ≠ 0 → (cls ≠ 2 ∨ bsNat body 0 1 ≠ 2) → (d.engAt k).reg (xdOf w) = BitVec.ofNat 64 ticket) ∧
          (∀ r, r ≠ xdOf w → (d.engAt k).reg r = g.reg r) ∧
          (∃ j ∈ (d.clusAt n).jobs, j.port = port ∧ j.entry = entry ∧ j.seq = seq ∧ j.eng = k ∧ j.cls = cls ∧
            j.resAddr = res ∧ j.state = .committed ∧ j.windows = g.windows) ∧
          d.get (R.SEC_ENG_CNT_JOBS_JOBS n e) =
            trunc (R.SEC_ENG_CNT_JOBS_JOBS n e).width (s.chip.get (R.SEC_ENG_CNT_JOBS_JOBS n e) + 1) ∧
          (∀ i, i ≠ k → d.engAt i = s.chip.engAt i)))) ∧
    (opOf w = 0x30 → fld w 0 3 = 1 →
      let ticket := (g.reg (xaOf w)).toNat % 2 ^ 32
      (s.chip.jobOf k ticket = none → Completes (.await n e w) s (fun d =>
        Commits s.chip d n e (fun g => g.setReg (xdOf w) 0xFF) (pc + 4))) ∧
      (∀ j, s.chip.jobOf k ticket = some j → j.state = .ended → Completes (.await n e w) s (fun d =>
        Commits s.chip d n e (fun g => g.setReg (xdOf w) (BitVec.ofNat 64 j.status)) (pc + 4))) ∧
      (∀ j, s.chip.jobOf k ticket = some j → j.state ≠ .ended → Completes (.await n e w) s (fun d =>
        d.engAt k = { g with state := .stalled, stall := 7, cyc := (d.engAt k).cyc } ∧ (∀ i, i ≠ k → d.engAt i = s.chip.engAt i) ∧
        d = { s.chip with sec := d.sec, freeCount := s.chip.freeCount + 1 }))) ∧
    (opOf w = 0x30 → fld w 0 3 = 2 → ∀ d0, d0 = s.chip.cancelJob k ((g.reg (xaOf w)).toNat % 2 ^ 32) →
      (s.chip.jobOf k ((g.reg (xaOf w)).toNat % 2 ^ 32) = none →
        Completes (.acan n e w) s (fun d => Commits s.chip d n e (fun g => g) (pc + 4))) ∧
      ((d0.engAt k).queue = [] → Completes (.acan n e w) s (fun d => Commits d0 d n e (fun g => g) (pc + 4)))) ∧
    (opOf w = 0x30 → fld w 0 3 = 3 →
      (s.chip.jobsOut k = [] → Completes (.afence n e w) s (fun d => Commits s.chip d n e (fun g => g) (pc + 4))) ∧
      (s.chip.jobsOut k ≠ [] → Completes (.afence n e w) s (fun d =>
        d.engAt k = { g with state := .stalled, stall := 7, cyc := (d.engAt k).cyc } ∧ (∀ i, i ≠ k → d.engAt i = s.chip.engAt i) ∧
        d = { s.chip with sec := d.sec, freeCount := s.chip.freeCount + 1 }))) ∧
    (opOf w = 0x38 → fn11 w = 3 → g.item = none ∨ g.doneSent = true →
      (g.queued = none → Completes (.wfw n e w) s (fun d =>
        d.engAt k = { g with
          item := none, doneSent := false, wfwDest := xdOf w, state := .waiting, stall := 0, cyc := (d.engAt k).cyc } ∧
        (∀ i, i ≠ k → d.engAt i = s.chip.engAt i) ∧ d.sec.clusters = s.chip.sec.clusters ∧
        d.sec.waiting = s.chip.sec.waiting ∧ d = { s.chip with sec := d.sec, freeCount := s.chip.freeCount + 1 })) ∧
      (∀ i, g.queued = some i → Completes (.wfw n e w) s (fun d =>
        Commits { s.chip with sec := { s.chip.sec with waiting := s.chip.sec.waiting.filter (fun x => x.workId != i.workId) } } d n e
          (fun g => { g.setReg (xdOf w) (BitVec.ofNat 64 i.kind) with
            item := some i, doneSent := false, queued := none, wfwDest := xdOf w }) (pc + 4))))

/-- Engine commands: R452 to R454; cluster commands: R455; the cancel log and the counters: R456. -/
def Obligations.EngineAndClusterCommandsComplete : Prop :=
  ∀ (s : State) (n e : Nat), n < 24 → e < 8 → Served s →
    let c := s.chip
    let k := engKey n e
    let g := c.engAt k
    let off := (c.clusAt n).state = .offline
    let free := NoneWaits c (R.SEC_ENG_RESULT_VALID n e)
    let clFree := NoneWaits c (R.SEC_CL_RESULT_VALID n)
    let refused (i : Instr) (code : Nat) : Prop := Completes i s (fun d =>
      d = ((c.set (R.SEC_ENG_RESULT_REFUSED n e) 1).set (R.SEC_ENG_RESULT_REFUSE_CODE n e) code).event 0x013
        (blockIndex (R.SEC_ENG_CMD_CMD n e).addr) (R.SEC_ENG_CMD_CMD n e).addr 0 0 0)
    let clRefused (i : Instr) (code : Nat) : Prop := Completes i s (fun d =>
      d = ((c.set (R.SEC_CL_RESULT_REFUSED n) 1).set (R.SEC_CL_RESULT_REFUSE_CODE n) code).event 0x013
        (blockIndex (R.SEC_CL_CMD_CMD n).addr) (R.SEC_CL_CMD_CMD n).addr 0 0 0)
    let posted (d : Chip) : Prop := d.get (R.SEC_ENG_RESULT_VALID n e) = 1 ∧ d.get (R.SEC_ENG_RESULT_CODE n e) = 0 ∧
      RegsSame c d [R.SEC_ENG_RESULT_VALID n e, R.SEC_ENG_RESULT_CODE n e]
    ((¬ off → refused (.engHalt n e) 1 ∧ refused (.engResume n e) 1 ∧ (∀ p, refused (.engineLoad n e p) 1) ∧
        refused (.cancelAll n e) 1) ∧
      (off → free → g.state ∈ [.running, .stalled, .waiting, .halting] → Yields (.engHalt n e) s
        ((((c.set (R.SEC_ENG_RESULT_VALID n e) 0).haltEng k).set (R.SEC_ENG_RESULT_CODE n e) 0).set (R.SEC_ENG_RESULT_VALID n e) 1)) ∧
      (g.state ∈ [.running, .stalled, .waiting, .halting] →
        ((c.haltEng k).engAt k).state = .halted ∧ ∀ j, j ≠ k → (c.haltEng k).engAt j = c.engAt j) ∧
      (off → free → g.state = .running → g.queue = [] → g.queued = none → Completes (.engHalt n e) s (fun d =>
        posted d ∧ d = { c with regs := d.regs, sec := d.sec } ∧
        d.engAt k = { g with state := .halted, stall := 0, latched := none } ∧ ∀ j, j ≠ k → d.engAt j = c.engAt j)) ∧
      (off → free → g.state = .halted → Yields (.engHalt n e) s
        (((c.set (R.SEC_ENG_RESULT_VALID n e) 0).set (R.SEC_ENG_RESULT_CODE n e) 0).set (R.SEC_ENG_RESULT_VALID n e) 1)) ∧
      (off → free → g.state = .halted → Completes (.engResume n e) s (fun d =>
        posted d ∧ d = { c with regs := d.regs, sec := d.sec } ∧
        d.engAt k = { g with state := .running } ∧ ∀ j, j ≠ k → d.engAt j = c.engAt j)) ∧
      (off → g.state ≠ .halted → refused (.engResume n e) 2) ∧
      (∀ prog p, off → free → g.state ∈ [.halted, .faulted, .gated] → c.jobsOut k = [] → c.program prog = some p → Completes (.engineLoad n e prog) s (fun d =>
        d.get (R.SEC_ENG_RESULT_VALID n e) = 1 ∧ d.get (R.SEC_ENG_RESULT_CODE n e) = 0 ∧
        d.get (R.SEC_ENG_CNT_INSTRET_INSTRET n e) = 0 ∧ d = { c with regs := d.regs, sec := d.sec } ∧
        d.engAt k = { state := .halted, pc := p.entry, progId := p.id, ports := p.ports, entry := p.entry
                      faultCause := g.faultCause, faultEpc := g.faultEpc, faultAddr := g.faultAddr
                      imem := Mem.write [] 0 p.imem, dmem := Mem.write [] 0x10000 p.dmem } ∧ ∀ j, j ≠ k → d.engAt j = c.engAt j)) ∧
      (∀ prog, off → g.state ∉ [.halted, .faulted, .gated] → refused (.engineLoad n e prog) 2) ∧
      (∀ prog, off → g.state = .halted → c.jobsOut k ≠ [] → refused (.engineLoad n e prog) 3) ∧
      (∀ prog, off → g.state = .halted → c.jobsOut k = [] → c.program prog = none → refused (.engineLoad n e prog) 4) ∧
      (off → free → g.state = .halted ∨ g.state = .faulted → Completes (.cancelAll n e) s (fun d =>
        d.get (R.SEC_ENG_RESULT_VALID n e) = 1 ∧ d.get (R.SEC_ENG_RESULT_CODE n e) = 0 ∧
        (c.jobsOut k = [] → posted d ∧ d = { c with regs := d.regs }) ∧
        (∀ j, c.jobsOut k = [j] → d = (((c.set (R.SEC_ENG_RESULT_VALID n e) 0).cancelJob k j.ticket).set
          (R.SEC_ENG_RESULT_CODE n e) 0).set (R.SEC_ENG_RESULT_VALID n e) 1))) ∧
      (off → g.state = .halted ∨ g.state = .faulted → Yields (.cancelAll n e) s
        (((c.startOp (R.SEC_ENG_RESULT_VALID n e)).cancelJobs k).postResult (R.SEC_ENG_RESULT_VALID n e) [(R.SEC_ENG_RESULT_CODE n e, 0)])) ∧
      (off → g.state ≠ .halted → g.state ≠ .faulted → refused (.cancelAll n e) 2) ∧
      Completes (.secEngCntClr n e) s (fun d =>
        d.engAt k = { g with cyc := { sinceLoad := g.cyc.sinceLoad } } ∧ (∀ j, j ≠ k → d.engAt j = c.engAt j) ∧
        (∀ f ∈ engCounters n e, d.get f = 0) ∧ RegsSame c d (engCounters n e) ∧
        d = { c with regs := d.regs, sec := d.sec })) ∧
    ((c.get R.KCF_STATUS_STATE = 7 → clRefused (.clusterOffline n) 5 ∧ clRefused (.clusterOnline n) 5) ∧
      (c.get R.KCF_STATUS_STATE ≠ 7 → (c.clusAt n).state = .spare → clRefused (.clusterOffline n) 6 ∧ clRefused (.clusterOnline n) 6) ∧
      (c.get R.KCF_STATUS_STATE ≠ 7 → clFree → (c.clusAt n).state = .inService → c.clusterBusy n = true → Completes (.clusterOffline n) s (fun d =>
        d.get (R.SEC_CL_RESULT_VALID n) = 0 ∧ RegsSame c d [R.SEC_CL_RESULT_VALID n] ∧
        d.clusAt n = { c.clusAt n with state := .quiescing, hostDrain := true, drainAt := c.now, drainTmo := c.get R.KCF_QUIESCE_TMO_QUIESCE_TMO } ∧
        (∀ j, d.engAt j = c.engAt j) ∧ d = { c with regs := d.regs, sec := d.sec })) ∧
      (c.get R.KCF_STATUS_STATE ≠ 7 → clFree → (c.clusAt n).state = .inService → c.clusterBusy n = false → Completes (.clusterOffline n) s (fun d =>
        (d.clusAt n).state = .offline ∧ d.get (R.SEC_CL_RESULT_VALID n) = 1 ∧ d.get (R.SEC_CL_RESULT_CODE n) = 0)) ∧
      (c.get R.KCF_STATUS_STATE ≠ 7 → clFree → off →
        (Completes (.clusterOffline n) s (fun d => d.get (R.SEC_CL_RESULT_VALID n) = 1 ∧ d.get (R.SEC_CL_RESULT_CODE n) = 0 ∧
          RegsSame c d [R.SEC_CL_RESULT_VALID n, R.SEC_CL_RESULT_CODE n] ∧ d = { c with regs := d.regs })) ∧
        (∀ d0, ((c.set (R.SEC_CL_RESULT_VALID n) 0).stopCluster n).startCluster n = (d0, true) →
          Completes (.clusterOnline n) s (fun d =>
            d = ((d0.lower R.KCF_CLUSTER_FAIL_FAIL n).set (R.SEC_CL_RESULT_CODE n) 0).set (R.SEC_CL_RESULT_VALID n) 1))) ∧
      (c.get R.KCF_STATUS_STATE ≠ 7 → (c.clusAt n).state ≠ .spare →
        let x := ((c.startOp (R.SEC_CL_RESULT_VALID n)).stopCluster n).startCluster n
        Yields (.clusterOnline n) s (if x.2 then (x.1.lower R.KCF_CLUSTER_FAIL_FAIL n).clEnd n else (x.1.failCluster n).checkPools.clEnd n)) ∧
      (∀ head, head % 256 ≠ c.get (R.SEC_CL_CLOG_HEAD n) → Completes (.cancelLogRelease n head) s (fun d =>
        d.get (R.SEC_CL_CLOG_HEAD n) = head % 256 ∧ RegsSame c d [R.SEC_CL_CLOG_HEAD n] ∧
        d.clusAt n = { c.clusAt n with clogFull := false } ∧ (∀ j, d.engAt j = c.engAt j) ∧
        d = { c with regs := d.regs, sec := d.sec })) ∧
      Completes (.secClCntClr n) s (fun d =>
        let l := [R.SEC_CL_CNT_FAULTS_FAULTS n, R.SEC_CL_CNT_CANCEL_CANCELLED n, R.SEC_CL_CNT_BURNED_BURNED n,
          R.SEC_CL_CNT_CLOG_LOST_CLOG_LOST n]
        (∀ f ∈ l, d.get f = 0) ∧ RegsSame c d l ∧ d = { c with regs := d.regs }))

/-- R6, R9, R10: the read halves and the written halves of a 64-bit register. Every register read uses up one free value (log entry 4). -/
def Obligations.RegisterAccessesActAsTheAccessRulesSay : Prop :=
  ∀ (s : State) (sp : Space) (ofs : Nat) (r : RegAt), s.chip.awake = true → sp.wf = true → s.chip.spaceOpen sp = true →
    ofs < s.chip.spaceSize sp → s.chip.regFor sp ofs = some r → (∀ fn, sp ≠ .cfg fn) → ofs % 4 = 0 →
    let c := s.chip
    let held (c : Chip) (x : Option Nat) : Chip := { c with regs := { c.regs with held := Sparse.set none c.regs.held r.base x } }
    let latch (x : Option Nat) : Chip := { c with regs := { c.regs with shadow := Sparse.set none c.regs.shadow r.base x } }
    let given (d : Chip) (v : Nat) : Chip := { d with freeCount := c.freeCount + 1, regs := { d.regs with readData := v } }
    (r.bytes = 4 → Yields (.lowHalfRead sp ofs 4) s (given c (c.readReg r))) ∧
    (r.bytes = 8 → spaceAddr sp ofs = r.base → ofs % 8 = 0 →
      Yields (.lowHalfRead sp ofs 8) s (given c (c.readReg r)) ∧
      Yields (.lowHalfRead sp ofs 4) s (given (latch (some (c.readReg r / 2 ^ 32))) (c.readReg r % 2 ^ 32))) ∧
    (r.bytes = 8 → spaceAddr sp ofs ≠ r.base →
      Yields (.lowHalfRead sp ofs 4) s
        (given (latch none) ((Sparse.get none c.regs.shadow r.base).getD (c.readReg r / 2 ^ 32)))) ∧
    (firmwareChannel sp r = none →
      (r.bytes = 4 → ∀ v : Word64, Yields (.registerWrite sp ofs 4 v) s (c.writeReg sp r (v.toNat % 2 ^ 32) (2 ^ 32 - 1))) ∧
      (r.bytes = 8 → r.fields.all (fun f => f.own && f.acc == .rw) = false →
        (spaceAddr sp ofs = r.base → ofs % 8 = 0 →
          (∀ v : Word64, Yields (.registerWrite sp ofs 8 v) s ((held c none).writeReg sp r v.toNat (2 ^ 64 - 1))) ∧
          ∀ v : Word32, Yields (.lowHalfWrite sp ofs v) s (held c (some v.toNat))) ∧
        (spaceAddr sp ofs ≠ r.base →
          (∀ (v : Word32) lo, Sparse.get none c.regs.held r.base = some lo →
            Yields (.lowHalfWrite sp ofs v) s ((held c none).writeReg sp r (lo + 2 ^ 32 * v.toNat) (2 ^ 64 - 1))) ∧
          ∀ v : Word32, Sparse.get none c.regs.held r.base = none →
            Yields (.lowHalfWrite sp ofs v) s (c.writeReg sp r (2 ^ 32 * v.toNat) (2 ^ 32 * (2 ^ 32 - 1)))))) ∧
    (∀ ch, firmwareChannel sp r = some ch → ∀ v : Word32, Yields (.lowHalfWrite sp ofs v) s (c.event 0x014 3 ofs 0 ch 0))

/-- The pins: R28, R508, R548, R592, R602, R603, R605 to R607. The nanosecond that some ticks add is a free value (log entry 4). -/
def Obligations.PowerInputsAct : Prop :=
  ∀ s : State,
    let c := s.chip
    let p := c.pwr
    (p.mode = .night ∨ p.mode = .held → p.nightExtra ≤ 37 → Completes .nightwatchTick s (fun d =>
      ∃ x ≤ 1, d.get R.GLB_TIME_TIME = trunc 64 (c.get R.GLB_TIME_TIME + 30517 + x) ∧
        (p.nightTicks + 1 = 64 → 36 ≤ p.nightExtra → p.nightExtra + x = 37) ∧
        (p.mode = .held → d.get R.PWR_CNT_NIGHT_MS_NIGHT_MS = trunc 64 (c.get R.PWR_CNT_NIGHT_MS_NIGHT_MS)) ∧
        RegsSame c d [R.GLB_TIME_TIME, R.PWR_CNT_NIGHT_MS_NIGHT_MS] ∧
        d = { c with regs := d.regs, freeCount := c.freeCount + 1, pwr := { p with
          nightTicks := (p.nightTicks + 1) % 64, nightExtra := if p.nightTicks + 1 = 64 then 0 else p.nightExtra + x } })) ∧
    (p.mode ≠ .night → p.mode ≠ .held → Yields .nightwatchTick s c) ∧
    Yields .porNAssert s { c.coldReset with pwr := { c.coldReset.pwr with porN := false, pwrReq := false } } ∧
    (p.mode = .coldReset → -40 ≤ p.highest → Yields .crystalRunning s
      (({ c with pwr := { p with porN := true } } : Chip).beginDawn true)) ∧
    (p.mode = .coldReset → p.highest < -40 → Yields .crystalRunning s
      { c with pwr := { p with porN := true, wakeHeld := true } }) ∧
    (∀ pos, p.sampled = false → Yields (.headSelSample pos) s
      (({ c with pwr := { p with sampled := true } } : Chip).setFlag R.GLB_HEAD_POS pos)) ∧
    (∀ pos, p.sampled = true → Yields (.headSelSample pos) s c) ∧
    (p.mode = .night ∨ p.mode = .held ∧ (p.hold = .flushed ∨ p.hold = .rom ∨ p.hold = .trip ∧ p.highest < 125) ∨
      p.mode = .dawn ∨ c.awake = true ∧ c.mayFlush = false → Yields .sysRstNAssert s c.warmReset) ∧
    (p.mode = .coldReset ∨ p.mode = .held ∧ p.hold = .trip ∧ 125 ≤ p.highest → Yields .sysRstNAssert s c) ∧
    (p.mode = .day → c.mayFlush = true → Yields .sysRstNAssert s (c.startFlush 1)) ∧
    (p.mode = .dawn → p.dawnStep = 1 → p.pwrReq = false → Yields .pwrgdRise s { c with pwr := { p with pwrgd := true } }) ∧
    (p.mode = .dawn → p.dawnStep = 1 → p.pwrReq = true → Yields .pwrgdRise s
      { c with pwr := { p with pwrgd := true, dawnStep := 2, pllAt := (List.range 10).map (fun k => (k, c.now)) } }) ∧
    (p.mode = .held → p.hold = .pwrgd → Yields .pwrgdRise s (({ c with pwr := { p with pwrgd := true } } : Chip).beginDawn false)) ∧
    (p.pwrReq = true → p.pwrgd = true → c.awake = true → Completes .pwrgdFall s (fun d =>
      d.pwr.mode = .held ∧ (d.pwr.hold = .pwrgd ∨ d.pwr.hold = .faults) ∧ d.mem.contentKept = false ∧
      d.mem.opened = false ∧ d.cpe.instPending = true ∧ d.pwr.faultCause = c.freeNow + 1)) ∧
    (p.pwrReq = true → p.pwrgd = true → c.awake = false → Yields .pwrgdFall s
      { c with pwr := { p with pwrgd := false }, mem := { c.mem with contentKept := false } })

/-- Table 16-4: R60, R139, R172, R411, R505, R513, R554, R556, R591, R624. -/
def Obligations.DawnStepsAdvance : Prop :=
  ∀ s : State, s.chip.awake = true →
    let c := s.chip
    let p := c.pwr
    (∀ k, k < 10 → p.mode = .dawn → p.dawnStep = 2 → c.bit R.PWR_PLL_LOCK k = false → c.bit R.PWR_PLL_FAIL k = false →
      Sparse.get 0 p.pllAt k + 1000000 ≤ c.now →
      let n := Sparse.get 0 p.pllTries k + 1
      let d : Chip := { c with pwr := { p with pllTries := Sparse.set 0 p.pllTries k n, pllAt := Sparse.set 0 p.pllAt k c.now } }
      Yields (.pllLockTimeout k) s (if n < 3 then d else d.pllFails k)) ∧
    (∀ k, c.now < Sparse.get 0 p.pllAt k + 1000000 → Yields (.pllLockTimeout k) s c) ∧
    (p.mode = .dawn → p.dawnStep = 4 → c.boot.started = false → ∀ sram l,
      Yields (.firmwareStart false false sram l) s (({ c with epc := { c.epc with link := .down } } : Chip).holdReset .rom true)) ∧
    (p.mode = .dawn → p.dawnStep = 4 → c.boot.started = false → ∀ copy0 copy1 sram l n serial,
      c.loaderCopy copy0 copy1 = some (n, serial) →
      let d := ({ c with boot := { c.boot with started := true, failedUnits := l } } : Chip).startLoader n serial sram
      (d.on R.GLB_STATUS_LOADER_ONLY = true →
        Yields (.firmwareStart copy0 copy1 sram l) s (if d.mayLink then d.trainPeer else d)) ∧
      (d.on R.GLB_STATUS_LOADER_ONLY = false → d.boot.fwState = 2 → d.boot.confirmed = false → 3 ≤ d.boot.attempts →
        Yields (.firmwareStart copy0 copy1 sram l) s (d.stayInLoader 2 0)) ∧
      (d.on R.GLB_STATUS_LOADER_ONLY = false → d.boot.fwState = 2 → d.boot.confirmed = true ∨ d.boot.attempts < 3 →
        let t := if d.boot.confirmed then d else d.slotTable (fun b => { b with attempts := b.attempts + 1 })
        (t.checkFw (Mem.read t.boot.fwSlot 0 t.boot.fwHeader.length) true = 0 → ∃ e, t.startFirmware = some e ∧
          let f := if e.lifecycle = 2 && e.root.secret.transport.isNone then e.makeTransport else e
          Yields (.firmwareStart copy0 copy1 sram l) s
            ((f.reloadKeys.setAll [(R.KCF_STATUS_FELL_BACK, 0), (R.KCF_STATUS_NO_IMAGE, 0)]).chooseImage 2)) ∧
        (∀ check, check = t.checkFw (Mem.read t.boot.fwSlot 0 t.boot.fwHeader.length) true → check ≠ 0 →
          Yields (.firmwareStart copy0 copy1 sram l) s ((t.verifyFailed check 1).stayInLoader 1 check))) ∧
      (d.on R.GLB_STATUS_LOADER_ONLY = false → d.boot.fwState ≠ 2 →
        Yields (.firmwareStart copy0 copy1 sram l) s ((d.verifyFailed 0 1).stayInLoader 1 0))) ∧
    (p.mode ≠ .dawn ∨ p.dawnStep ≠ 4 ∨ c.boot.started = true → ∀ a b m l, Yields (.firmwareStart a b m l) s c) ∧
    (p.mode = .dawn → p.dawnStep = 6 → ∀ sup most failed ok bad,
      let d : Chip := { (if p.cancelled then c else c.coldEpoch most) with
        pwr := { (if p.cancelled then c else c.coldEpoch most).pwr with dawnStep := 7 } }
      let v := c.ing.vault
      let gone := v.mark = .superseded ∨ v.mark = .closed ∨ sup = true ∧ v.withPeer = true
      let lost := (d.ing.writes.filter (fun w => w.own && w.exposed)).foldl (fun x w => x.loseRange w.nsid w.slba w.nlb 4) (d.replay v.recs [] [])
      (d.kcf.active = none → Yields (.vaultReplay sup most failed ok bad) s d) ∧
      (d.kcf.active ≠ none → gone → Yields (.vaultReplay sup most failed ok bad) s (d.replay [] [] [])) ∧
      (d.kcf.active ≠ none → ¬ gone → v.mark = .sealed → Yields (.vaultReplay sup most failed ok bad) s
        (d.replay (v.readable d.root.secret.vault ok bad).1 (v.readable d.root.secret.vault ok bad).2 failed)) ∧
      (d.kcf.active ≠ none → ¬ gone → v.mark ≠ .sealed →
        (d.on R.MEM_STATUS_CONTENT_LOST = false → Yields (.vaultReplay sup most failed ok bad) s
          (d.replay d.ing.journal d.exposedData failed)) ∧
        (d.on R.MEM_STATUS_CONTENT_LOST = true → Yields (.vaultReplay sup most failed ok bad) s lost))) ∧
    (p.mode ≠ .dawn ∨ p.dawnStep ≠ 6 → ∀ sup most failed ok bad, Yields (.vaultReplay sup most failed ok bad) s c) ∧
    (p.mode = .dawn → p.dawnStep = 7 → c.on R.GLB_STATUS_LOADER_ONLY = false → c.holdupGood = true →
      let e : Chip := { c with pwr := { p with mode := .day, dayAt := c.now, cancelled := false } }
      let d := (((if c.boot.attempts = 0 then e else e.slotTable (fun b => { b with attempts := 0 })).set R.PWR_STATUS_PHASE 0).dayEpoch).finishErases
      let d := if d.zbl.state = .sole then (d.takeStrings 0xFFFF false).askFirst else d
      (p.cancelled = false → Yields .dayReached s (if d.mayLink && !d.linkUp && !d.zbl.training then d.trainPeer else d)) ∧
      (p.cancelled = true → Yields .dayReached s (d.pwrEnd 1))) ∧
    (p.mode ≠ .dawn ∨ p.dawnStep ≠ 7 ∨ c.holdupGood = false → Yields .dayReached s c)

/-- Table 2-15: R51, R53, R55 to R58, R542. -/
def Obligations.KcfCommandsAct : Prop :=
  ∀ s : State, Served s →
    let c := s.chip
    let st := c.kcfState
    let refused : Chip := (c.set R.KCF_STATUS_REFUSED 1).event 0x013 (blockIndex R.KCF_CMD_CMD.addr) R.KCF_CMD_CMD.addr 0 0 0
    let e := c.startOp R.KCF_RESULT_VALID
    let slot := if c.kcf.activeStaging = some 0 then 1 else 0
    let blank : Chip := ({ e with kcf := { e.kcf with staged := none, stagedLen := 0, valid := none } } : Chip).set R.KCF_SERIAL_STAGED_SERIAL 0
    (c.root.debug = .requested → Yields .kcfLoad s refused ∧ Yields .kcfValidate s refused ∧ Yields .kcfActivate s refused ∧
      Yields .kcfAbort s refused ∧ Yields .kcfRetry s refused) ∧
    (st ∉ [0, 2, 4, 8] ∨ c.lifecycle = 4 → Yields .kcfLoad s refused) ∧ (st ≠ 2 → Yields .kcfValidate s refused) ∧
    (st ≠ 4 → Yields .kcfActivate s refused) ∧
    (st ∉ [1, 3, 9, 5, 6] ∨ st = 6 ∧ c.on R.KCF_STATUS_AGREED = true → Yields .kcfAbort s refused) ∧
    (st ≠ 0 ∨ c.on R.KCF_STATUS_PARTIAL = false → Yields .kcfRetry s refused) ∧
    (c.root.debug ≠ .requested → e.kcfState = st →
      (st ∈ [0, 2, 4, 8] → c.lifecycle ≠ 4 →
        (blank.get R.KCF_SRC_ADDR_ADDR = e.get R.KCF_SRC_ADDR_ADDR) ∧
        (e.get R.KCF_SRC_ADDR_ADDR % 64 ≠ 0 → Yields .kcfLoad s (blank.kcfEnd 8 2 0xFF 0)) ∧
        (e.get R.KCF_SRC_ADDR_ADDR % 64 = 0 → Yields .kcfLoad s
          ((({ blank with kcf := { blank.kcf with
              staged := some slot, stagedLen := e.get R.KCF_SRC_LEN_LEN, loadXfer := c.epc.nextXfer } } : Chip).set
            R.KCF_STATUS_STATE 1).startRead 0 .kcfLoad [(e.get R.KCF_SRC_ADDR_ADDR, e.get R.KCF_SRC_LEN_LEN)] (c.stagingAt slot)))) ∧
      (st = 2 → Yields .kcfValidate s (e.set R.KCF_STATUS_STATE 3)) ∧
      (st = 4 → c.kcf.valid = none → Yields .kcfActivate s (e.kcfEnd 8 0x14 0xFF 0)) ∧
      (st = 4 → ∀ i typ ofs, c.kcf.valid = some i → e.liveCheck i = some (typ, ofs) →
        let d := secOf (imgDir e.stagedBytes) typ
        Yields .kcfActivate s (e.kcfEnd 8 0xD d.idx (d.ofs + ofs))) ∧
      (st = 4 → ∀ i, c.kcf.valid = some i → e.liveCheck i = none → Yields .kcfActivate s
        ((({ e with kcf := { e.kcf with abortPending := false } } : Chip).set R.KCF_STATUS_STATE 9).set
          R.BOOT_STATUS_WRITING 1 |>.unmarkKilip c.kcf.persistSlot)) ∧
      (st = 9 → Yields .kcfAbort s { e with kcf := { e.kcf with abortPending := true } }) ∧
      (st = 1 → Yields .kcfAbort s (({ (e.dropXfer c.kcf.loadXfer) with
        kcf := { e.kcf with staged := none, stagedLen := 0 } } : Chip).kcfEnd 0 0x13 0xFF 0)) ∧
      (st = 3 → Yields .kcfAbort s (e.kcfEnd 0 0x13 0xFF 0)) ∧
      (st = 5 → Yields .kcfAbort s (((e.unmarkKilip c.kcf.persistSlot).set R.KCF_STATUS_NEEDS_RESET 0).kcfEnd 0 0x13 0xFF 0)) ∧
      (st = 6 → c.on R.KCF_STATUS_AGREED = false → Yields .kcfAbort s (e.disarm 0 0x13)) ∧
      (st = 0 → c.on R.KCF_STATUS_PARTIAL = true →
        Yields .kcfRetry s (e.beginPass (bitsSet (e.get R.KCF_CLUSTER_FAIL_FAIL) 24) true)))

/-- R51, R56 to R58, R62, R65, R455, R549. -/
def Obligations.KcfStepsComplete : Prop :=
  ∀ s : State, s.chip.awake = true →
    let c := s.chip
    let st := c.kcfState
    (st = 1 → c.epc.xfers.any (fun x => x.id == c.kcf.loadXfer && x.left == 0) = true → Yields .kcfLoadDone s
      (((c.dropXfer c.kcf.loadXfer).set R.KCF_SERIAL_STAGED_SERIAL (numAt c.stagedBytes 0x10 8)).kcfEnd 2 0 0xFF 0)) ∧
    (st ≠ 1 → Yields .kcfLoadDone s c) ∧
    (st = 3 → ∀ i, c.checkImage c.stagedBytes c.kcf.stagedLen = .ok i →
      Yields .kcfValidateDone s (({ c with kcf := { c.kcf with valid := some i } } : Chip).kcfEnd 4 0 0xFF 0)) ∧
    (st = 3 → ∀ code sec ofs, c.checkImage c.stagedBytes c.kcf.stagedLen = .error (code, sec, ofs) →
      Yields .kcfValidateDone s (c.kcfEnd 8 code sec ofs)) ∧
    (st ≠ 3 → Yields .kcfValidateDone s c) ∧
    (st = 9 → c.boot.writer = none → c.boot.commitWaiting = none → c.kcf.abortPending = false →
      let d := (c.set R.BOOT_STATUS_WRITING 0).event 0x381 0 0 0 0 0
      let g := (c.set R.BOOT_STATUS_WRITING 0).persistStaged
      (d.boot.commitWaiting = none → d.kcf.abortPending = false → (d.kcfEnd 8 0x14 0xFF 0).boot.commitWaiting = none →
        Yields (.kcfPersistDone false) s (d.kcfEnd 8 0x14 0xFF 0)) ∧
      (g.kcf.abortPending = false → ∀ i, g.kcf.valid = some i → g.liveOnly i = false →
        let t := ((g.markKilip g.kcf.persistSlot).set R.KCF_STATUS_NEEDS_RESET 1).kcfEnd 5 0 0xFF 0
        t.boot.commitWaiting = none → Yields (.kcfPersistDone true) s t) ∧
      (g.kcf.abortPending = false → ∀ i, g.kcf.valid = some i → g.liveOnly i = true → g.armLive.boot.commitWaiting = none →
        Yields (.kcfPersistDone true) s g.armLive)) ∧
    (st = 6 → c.on R.KCF_STATUS_AGREED = false → c.get R.KCF_ACT_EPOCH_EPOCH = 0 →
      c.kcf.armedAt + c.kcf.actTmo * 1000 ≤ c.now → Yields .kcfActTimeout s (c.disarm 4 0xF)) ∧
    (st ≠ 6 ∨ c.now < c.kcf.armedAt + c.kcf.actTmo * 1000 → Yields .kcfActTimeout s c) ∧
    (∀ n ok, n < 24 →
      (c.clusterBusy n = false → c.kcf.draining = some n → Yields (.clusterDrained n ok) s (c.takeCluster n ok).startDusk) ∧
      (c.clusterBusy n = false → c.kcf.draining ≠ some n → (c.clusAt n).hostDrain = true →
        Yields (.clusterDrained n ok) s (c.goOffline n).startDusk) ∧
      (c.clusterBusy n = true → Yields (.clusterDrained n ok) s c.startDusk) ∧
      ((c.clusAt n).drainAt + (c.clusAt n).drainTmo * 1000 ≤ c.now →
        (c.kcf.draining = some n → Yields (.kcfQuiesceTimeout n ok) s (c.takeCluster n ok).startDusk) ∧
        (c.kcf.draining ≠ some n → (c.clusAt n).hostDrain = true →
          Yields (.kcfQuiesceTimeout n ok) s (c.goOffline n).startDusk)) ∧
      (c.now < (c.clusAt n).drainAt + (c.clusAt n).drainTmo * 1000 →
        Yields (.kcfQuiesceTimeout n ok) s c.startDusk))

/-- R68, R93, R96 to R98, R106, R501, R504, R592 and Table 3-7; the AER bits are log entry 14. -/
def Obligations.EndpointLinkEventsAct : Prop :=
  ∀ s : State,
    let c := s.chip
    let ep := c.epc
    let high : Chip := { c with epc := { ep with perstLow := false } }
    let low : Chip := { c with epc := { ep with perstLow := true, perstAt := c.now } }
    (ep.perstLow = false → Yields .perstDeassert s c) ∧ (ep.perstLow = true → Yields .perstAssert s c) ∧
    (ep.perstLow = true → c.awake = true →
      Yields .perstDeassert s (({ c with epc := { ep with perstLow := false, link := .training } } : Chip).joinWake 0 0)) ∧
    (ep.perstLow = true → c.pwr.mode = .night → Yields .perstDeassert s (high.wake 0 0)) ∧
    (ep.perstLow = true → c.pwr.mode = .held → c.pwr.hold = .faults →
      Yields .perstDeassert s (if ep.perstAt + 1000000000 ≤ c.now then high.warmReset else high)) ∧
    (ep.perstLow = false → c.awake = false → Yields .perstAssert s low) ∧
    (ep.perstLow = false → c.awake = true → (low.endpointReset .down).phase ≠ 5 → Yields .perstAssert s (low.endpointReset .down)) ∧
    (ep.perstLow = false → c.awake = true → (low.endpointReset .down).phase = 5 →
      Yields .perstAssert s (low.endpointReset .down).enterNight) ∧
    (c.awake = true →
      (∀ rate width flit, ep.link = .training → ep.perstLow = false → 1 ≤ rate → rate ≤ 6 → width ∈ [1, 2, 4, 8, 16] →
        (rate = 6 → flit = true) →
        Yields (.linkL0Reached rate width flit) s ((({ c with
          epc := { ep with link := .l0, hadLink := true }, pwr := { c.pwr with hostLostAt := none } } : Chip).setAll
          [(R.EPC_STATUS_RATE, rate), (R.EPC_STATUS_WIDTH, width), (R.EPC_STATUS_FLIT, flag flit)]).requestsResume)) ∧
      (∀ rate width flit, ep.link ≠ .training → Yields (.linkL0Reached rate width flit) s c) ∧
      (ep.link = .l0 → ep.cfgReady = false →
        Yields .configSpaceReady s { c with epc := { ep with cfgReady := true }, out := .deviceReady :: c.out }) ∧
      (ep.cfgReady = true → Yields .configSpaceReady s c) ∧
      (ep.hadLink = true → Yields .dlDown s (c.linkLost (if ep.perstLow then .down else .training))) ∧
      (ep.hadLink = false → Yields .dlDown s c) ∧
      (ep.hadLink = true → ep.link = .l0 → Yields .hotReset s (c.endpointReset .training)) ∧
      (ep.link ≠ .l0 → Yields .hotReset s c ∧ Yields .pmeTurnOff s c) ∧
      (ep.link = .l0 → Yields .pmeTurnOff s (({ c with out := .pmeAck :: c.out } : Chip).linkLost .l2)) ∧
      (ep.perstLow = true → ∀ err fn r, fn < 1024 → Yields (.linkError err fn r) s c) ∧
      (ep.perstLow = false → ∀ (fn : Nat) (r : Bool), fn < 1024 →
        let d := if r then c.bumpHold R.EPC_CNT_REPLAY_REPLAY 1 else c
        let retrain (d : Chip) : Chip := ({ d with epc := { d.epc with link := .training } } : Chip).setAll
          [(R.EPC_STATUS_RATE, 0), (R.EPC_STATUS_WIDTH, 0), (R.EPC_STATUS_FLIT, 0)]
        (∀ x ∈ [(LinkErr.receiverError, 0), (.badTlp, 6), (.badDllp, 7), (.replayRollover, 8), (.replayTimeout, 12),
          (.correctedInternal, 14)], Yields (.linkError x.1 fn r) s (d.logAer 0 .correctable x.2)) ∧
        (∀ x ∈ [(LinkErr.advisoryNonFatal, 13), (.headerLogOverflow, 15)],
          Yields (.linkError x.1 fn r) s (d.logAer fn .correctable x.2)) ∧
        Yields (.linkError .fecCorrected fn r) s (d.bumpHold R.EPC_CNT_FEC_FEC 1) ∧
        Yields (.linkError .poisonedTlp fn r) s (((d.bumpHold R.EPC_CNT_POISON_POISON 1).poisonSeen fn false).logAer fn .nonFatal 12) ∧
        (d.on (R.CFG_AER_CTRL_CHECK_ENABLE 0) = true → Yields (.linkError .ecrc fn r) s
          (((d.bumpHold R.EPC_CNT_POISON_POISON 1).poisonSeen fn false).logAer fn .nonFatal 19)) ∧
        (d.on (R.CFG_AER_CTRL_CHECK_ENABLE 0) = false → Yields (.linkError .ecrc fn r) s d) ∧
        (∀ x ∈ [(LinkErr.dataLinkProtocol, 4), (.flowControlProtocol, 13), (.receiverOverflow, 17), (.malformedTlp, 18)],
          Yields (.linkError x.1 fn r) s (retrain (d.logAer 0 .fatal x.2))) ∧
        Yields (.linkError .uncorrectableInternal fn r) s (c.enabledFns.foldl (fun e f => e.ctrlFails f) (d.logAer 0 .fatal 22))))

/-- R70, R73, R77 to R86, R98, R99. -/
def Obligations.ConfigurationWritesAct : Prop :=
  ∀ s : State, s.chip.awake = true → ∀ fn, fn < 1024 →
    let c := s.chip
    (c.cfgOpen fn = true →
      (∀ v,
        let d := c.setAll [(R.CFG_DEVCTL_CERE fn, bitsOf v 0 1), (R.CFG_DEVCTL_NFERE fn, bitsOf v 1 1), (R.CFG_DEVCTL_FERE fn, bitsOf v 2 1),
          (R.CFG_DEVCTL_URRE fn, bitsOf v 3 1), (R.CFG_DEVCTL_RELAX fn, bitsOf v 4 1)]
        let d := if bitsOf v 5 3 ≤ 2 then d.set (R.CFG_DEVCTL_MPS fn) (bitsOf v 5 3) else d.event 0x012 19 0x58 v fn 0
        Yields (.deviceControlWrite fn v) s
          (if bitsOf v 12 3 ≤ 5 then d.set (R.CFG_DEVCTL_MRRS fn) (bitsOf v 12 3) else d.event 0x012 19 0x58 v fn 0)) ∧
      (fn ≠ 0 → Yields (.vfFlr fn) s (c.resetFns (fun f => f == fn))) ∧
      Yields (.busMasterEnableWrite fn false) s (c.set (R.CFG_COMMAND_BME fn) 0) ∧
      Yields (.busMasterEnableWrite fn true) s
        (c.set (R.CFG_COMMAND_BME fn) 1).requestsResume ∧
      (∀ on, Yields (.msixEnableWrite fn on) s ((c.setFlag (R.CFG_MSIX_CTRL_ENABLE fn) on).flushVectors fn))) ∧
    (∀ mask, c.maskOpen fn none = true →
      Yields (.msixMaskWrite fn none mask) s ((c.setFlag (R.CFG_MSIX_CTRL_FMASK fn) mask).flushVectors fn)) ∧
    (∀ v mask, c.maskOpen fn (some v) = true → v < msixEntries fn →
      Yields (.msixMaskWrite fn (some v) mask) s ((c.setFlag (R.MSX_CTRL_MASK fn v) mask).flushVector fn v)) ∧
    (∀ v mask, c.maskOpen fn (some v) = false → Yields (.msixMaskWrite fn (some v) mask) s (c.barRefused fn)) ∧
    (∀ mask, c.maskOpen fn none = false → Yields (.msixMaskWrite fn none mask) s (c.cfgRefused fn)) ∧
    (∀ v mask, c.maskOpen fn (some v) = true → msixEntries fn ≤ v → Yields (.msixMaskWrite fn (some v) mask) s c) ∧
    (∀ vec word value, c.barOpen fn = false → c.epc.link = .l0 →
      Yields (.msixMessageWrite fn vec word value) s (inboundUnsupportedRequest .memWrite fn c)) ∧
    (c.barOpen fn = true → ∀ vec word value, vec < msixEntries fn → word < 3 →
      let v := if word = 0 then (value - value % 4) % 2 ^ 32 else value % 2 ^ 32
      Yields (.msixMessageWrite fn vec word value) s
        ((if c.vecOpen fn vec = true ∧ c.get (msixWord fn vec word) ≠ v then c.event 0x044 fn (16 * vec + 4 * word) v 0 0 else c).set
          (msixWord fn vec word) v)) ∧
    (c.epc.link = .l0 → c.epc.cfgReady = false →
      (∀ i ∈ [Instr.vfFlr fn, .msixEnableWrite fn true, .msixEnableWrite fn false, .busMasterEnableWrite fn true,
        .busMasterEnableWrite fn false], Yields i s (c.emit (.retryStatus fn))) ∧
      (∀ v, Yields (.deviceControlWrite fn v) s (c.emit (.retryStatus fn))) ∧
      (∀ v, ∀ i ∈ [Instr.numvfsWrite v, .systemPageSizeWrite v, .vfEnableSet, .vfEnableClear, .pfFlr, .epcClrCnt],
        Yields i s (c.emit (.retryStatus 0)))) ∧
    (c.cfgOpen 0 = true →
      (∀ v, c.on R.CFG_SRIOV_CTRL_VF_ENABLE = false → v ≤ 1023 → (c.on R.CFG_SRIOV_CTRL_ARI = false → v ≤ 7) →
        Yields (.numvfsWrite v) s (c.set R.CFG_SRIOV_NUMVFS_NUMVFS v)) ∧
      (∀ v, c.on R.CFG_SRIOV_CTRL_VF_ENABLE = true → Yields (.numvfsWrite v) s c) ∧
      (∀ v, c.on R.CFG_SRIOV_CTRL_VF_ENABLE = false → 1023 < v ∨ (c.on R.CFG_SRIOV_CTRL_ARI = false ∧ 7 < v) →
        Yields (.numvfsWrite v) s (c.event 0x012 19 0x168 v 0 0)) ∧
      (∀ v, c.on R.CFG_SRIOV_CTRL_VF_ENABLE = true ∨ v ∉ [1, 2, 4, 8, 16] →
        Yields (.systemPageSizeWrite v) s (c.event 0x012 19 0x178 v 0 0)) ∧
      (∀ v, c.on R.CFG_SRIOV_CTRL_VF_ENABLE = false → v ∈ [1, 2, 4, 8, 16] →
        let d := c.set R.CFG_SRIOV_SYSPAGE_PAGE v
        Yields (.systemPageSizeWrite v) s (d.setAll [(R.CFG_VFBAR0_ADDR, d.vfBarBase R.CFG_VFBAR0_ADDR (d.get R.CFG_VFBAR0_ADDR)),
          (R.CFG_VFBAR4_ADDR, d.vfBarBase R.CFG_VFBAR4_ADDR (d.get R.CFG_VFBAR4_ADDR))])) ∧
      Yields .vfEnableSet s (c.set R.CFG_SRIOV_CTRL_VF_ENABLE 1) ∧
      (c.on R.CFG_SRIOV_CTRL_VF_ENABLE = true →
        Yields .vfEnableClear s ((c.resetFns (fun f => f != 0)).set R.CFG_SRIOV_CTRL_VF_ENABLE 0)) ∧
      (c.on R.CFG_SRIOV_CTRL_VF_ENABLE = false → Yields .vfEnableClear s c) ∧
      Yields .pfFlr s ((c.endHostWork.resetFns (fun _ => true)).setAll [(R.EPC_STATUS_RATE, c.get R.EPC_STATUS_RATE),
        (R.EPC_STATUS_WIDTH, c.get R.EPC_STATUS_WIDTH), (R.EPC_STATUS_FLIT, c.get R.EPC_STATUS_FLIT)]) ∧
      Completes .epcClrCnt s (fun d =>
        let l := [R.EPC_CNT_FEC_FEC, R.EPC_CNT_REPLAY_REPLAY, R.EPC_CNT_CTO_CTO, R.EPC_CNT_POISON_POISON, R.EPC_CNT_CA_UR_CA_UR,
          R.EPC_CNT_UC_UC, R.EPC_CNT_LINKLOSS_LINKLOSS]
        (∀ f ∈ l, d.get f = 0) ∧ RegsSame c d l ∧ d = { c with regs := d.regs }))

/-- R88 to R94. -/
def Obligations.BusRepliesAct : Prop :=
  ∀ s : State, s.chip.awake = true →
    let c := s.chip
    (∀ fn, fn < 1024 →
      let at_ := if c.present fn then fn else 0
      Yields (.inboundUnsupportedRequest .msgType1 fn) s c ∧
      Yields (.inboundUnsupportedRequest .memWrite fn) s (c.logUnsupported at_ false) ∧
      Yields (.inboundUnsupportedRequest .msgType0 fn) s ((c.logUnsupported at_ false).emit (.unsupportedRequest .msgType0 fn)) ∧
      (∀ kind ∈ [BadRequest.memRead, .cfgRequest, .ioRequest, .lockedRead, .atomicOp], Yields (.inboundUnsupportedRequest kind fn) s
        ((c.logUnsupported at_ true).emit (.unsupportedRequest kind fn)))) ∧
    (∀ tag st po bad ecrc data, c.epc.reqs.find? (fun r => r.tag == some tag) = none →
      Yields (.readCompletion tag st po bad ecrc data) s ((c.bumpHold R.EPC_CNT_UC_UC 1).logAdvisory 0 16 true)) ∧
    (∀ tag, c.epc.reqs.find? (fun r => r.tag == some tag) = none → Yields (.completionTimeout tag) s c) ∧
    (∀ tag r x, c.epc.reqs.find? (fun r => r.tag == some tag) = some r → c.epc.xfers.find? (fun y => y.id == r.xfer) = some x →
      (∀ st po bad data, c.on (R.CFG_AER_CTRL_CHECK_ENABLE 0) = true →
        Yields (.readCompletion tag st po bad true data) s (c.readFailed x r.addr .ecrc).sendReads) ∧
      (∀ ecrc, ecrc = false ∨ c.on (R.CFG_AER_CTRL_CHECK_ENABLE 0) = false →
        (∀ po bad data, Yields (.readCompletion tag .ur po bad ecrc data) s (c.readFailed x r.addr .ur).sendReads ∧
          Yields (.readCompletion tag .ca po bad ecrc data) s (c.readFailed x r.addr .ca).sendReads ∧
          Yields (.readCompletion tag .rrs po bad ecrc data) s (c.readFailed x r.addr .rrs).sendReads) ∧
        (∀ bad data, Yields (.readCompletion tag .sc true bad ecrc data) s (c.readFailed x r.addr .poisoned).sendReads) ∧
        (∀ bad data, bad = true ∨ data = [] ∨ r.len < r.got + data.length →
          Yields (.readCompletion tag .sc false bad ecrc data) s (c.readFailed x r.addr .length).sendReads) ∧
        (∀ data, data ≠ [] → r.got + data.length ≤ r.len →
          Yields (.readCompletion tag .sc false false ecrc data) s (c.takePiece r x data))) ∧
      (r.sentAt + c.ctoNs r.fn ≤ c.now → Yields (.completionTimeout tag) s (c.readFailed x r.addr .timeout).sendReads) ∧
      (c.now < r.sentAt + c.ctoNs r.fn → Yields (.completionTimeout tag) s c))

/-- R102 to R105, R111 to R117, R195, R415. -/
def Obligations.ControllersAct : Prop :=
  ∀ s : State, s.chip.awake = true → ∀ fn, fn < 1024 →
    let c := s.chip
    (c.barOpen fn = true →
      (c.present fn = true → c.on (R.NVM_CC_EN fn) = false →
        let e := c.set (R.NVM_CC_EN fn) 1
        (e.ccValid fn = false → Yields (.ccEnSet fn) s ((e.set (R.NVM_CSTS_CFS fn) 1).event 0x012 20 0x14 1 fn 0)) ∧
        (e.ccValid fn = true → ¬ (fn = 0 ∧ c.epc.link = .l0) → Yields (.ccEnSet fn) s (e.modCtrl fn (fun k => { k with
          sqs := [⟨0, e.get (R.NVM_AQA_ASQS fn) + 1, e.get (R.NVM_ASQ_ASQB fn), 0, 0, 0, 0, none⟩]
          cqs := [⟨0, e.get (R.NVM_AQA_ACQS fn) + 1, e.get (R.NVM_ACQ_ACQB fn), 0, true, 0, 0, 1, []⟩]
          enAt := some e.now })))) ∧
      (c.on (R.NVM_CC_EN fn) = true →
        Yields (.ccEnSet fn) s c ∧
        Yields (.ccEnClear fn) s
          ((c.resetCtrls (fun f => f == fn)).clearAll [R.NVM_CC_EN fn, R.NVM_CSTS_RDY fn, R.NVM_CSTS_CFS fn, R.NVM_CSTS_SHST fn])) ∧
      Yields (.normalShutdown fn) s (((((c.set (R.NVM_CC_SHN fn) 1).set (R.NVM_CSTS_SHST fn) 1).modCtrl fn
        (fun k => { k with shutting := true, stopped := true })).dropFetches fn).endShutdown fn) ∧
      Yields (.abruptShutdown fn) s (((c.dispose (fun f => f == fn)).modCtrl fn (fun k => { k with
        stopped := true, shutting := false, aers := [], cqs := k.cqs.map (fun q => { q with waiting := [] }) })).setAll
        [(R.NVM_CC_SHN fn, 2), (R.NVM_CSTS_SHST fn, 2)]) ∧
      (c.on (R.NVM_CC_EN fn) = false → Yields (.ccEnClear fn) s c) ∧
      (∀ qid v, c.sqOf fn qid = none → Yields (.sqTailDoorbell fn qid v) s (c.asyncEvent fn 0 0 1)) ∧
      (∀ qid v q, c.sqOf fn qid = some q →
        (q.size ≤ v → Yields (.sqTailDoorbell fn qid v) s (c.asyncEvent fn 0 1 1)) ∧
        (v < q.size → Yields (.sqTailDoorbell fn qid v) s (c.modSq fn qid (fun q => { q with tail := v })))) ∧
      (∀ qid v, c.cqOf fn qid = none → Yields (.cqHeadDoorbell fn qid v) s (c.asyncEvent fn 0 0 1)) ∧
      (∀ qid v q, c.cqOf fn qid = some q →
        let moved := (v + q.size - q.head) % q.size
        let used := (q.tail + q.size - q.head) % q.size
        (q.size ≤ v ∨ used < moved → Yields (.cqHeadDoorbell fn qid v) s (c.asyncEvent fn 0 1 1)) ∧
        (v < q.size → moved ≤ used → Yields (.cqHeadDoorbell fn qid v) s
          (((c.modCq fn qid (fun q => { q with head := v })).drainCq fn qid q.waiting.length).postsDone fn)))) ∧
    (c.on (R.NVM_CC_EN fn) = true → c.on (R.NVM_CSTS_CFS fn) = false → c.inService = true ∨ c.on R.GLB_STATUS_LOADER_ONLY = true →
      Yields (.controllerReady fn) s (c.set (R.NVM_CSTS_RDY fn) 1)) ∧
    (c.on (R.NVM_CC_EN fn) = false ∨ c.on (R.NVM_CSTS_CFS fn) = true → Yields (.controllerReady fn) s c) ∧
    (∀ load busy, let e : Chip := { c with nvm := { c.nvm with hold := c.heldBy load } }
      (∀ f q, e.adminReady = some f → e.sqOf f 0 = some q → Yields (.sqFetchIssue load busy) s
        (if fetchCount q (8 - e.adminBusy f) = 0 then e else e.issueFetch f q (fetchCount q (8 - e.adminBusy f)))) ∧
      (e.adminReady = none → 262144 ≤ e.ioAll → Yields (.sqFetchIssue load busy) s e) ∧
      (∀ pool f q, e.adminReady = none → e.ioAll < 262144 → (e.fetchesOf (fun _ sq => sq != 0)).length < 480 →
        ((upFrom e.nvm.fetchPool 15).map (· % 15)).find? (fun p => !busy.contains p && !(e.poolFns p).isEmpty) = some pool →
        (e.poolFns pool).find? (fun f => ((e.payRounds (e.poolFns pool)).ctrl f).deficit == 0) = some f →
        ((e.payRounds (e.poolFns pool)).ioQueues f).head? = some q →
        let d := e.payRounds (e.poolFns pool)
        let room := min (burstOf (d.ctrl f).arb) (min (32768 - d.ioBusy f) (262144 - d.ioAll))
        let d : Chip := { d with nvm := { d.nvm with fetchPool := (pool + 1) % 15, fetchFn := f } }
        Yields (.sqFetchIssue load busy) s ((d.modCtrl f (fun k => { k with nextSq := q.qid })).fetchVisit f q.qid room
          (480 - (e.fetchesOf (fun _ sq => sq != 0)).length)))) ∧
    (∀ vec, let k := c.ctrl fn
      (Sparse.get 0 k.coalCount vec = 0 ∨ c.now < Sparse.get 0 k.coalAt vec + bitsOf k.coal 8 8 * 100000 →
        Yields (.coalescingTimer fn vec) s c) ∧
      (Sparse.get 0 k.coalCount vec ≠ 0 → Sparse.get 0 k.coalAt vec + bitsOf k.coal 8 8 * 100000 ≤ c.now →
        Yields (.coalescingTimer fn vec) s ((c.modCtrl fn (fun k => { k with coalCount := Sparse.set 0 k.coalCount vec 0 })).cause fn vec)))

/-- R109, R110, R114, R117, R122, R123; the statuses of the Deletes and completion queue 0 are log entry 97. -/
def Obligations.AdminQueueCommandsComplete : Prop :=
  ∀ (s : State) (id : CmdId) (i : Inflight),
    let e := s.chip.begun id
    let done (sct sc : Nat) : Chip := e.finish id ⟨sct, sc, true⟩
    (s.chip.awake = true → id.fn < 1024 → s.chip.fetched id true 0x01 = none → ∀ a b d pc base,
      Yields (.createIoSubmissionQueue id a b d pc base) s s.chip) ∧
    (Fetching s id true 0x01 i → ∀ qid qsize cqid pc base,
      let row := Instr.createIoSubmissionQueue id qid qsize cqid pc base
      let bad := qid = 0 ∨ (e.tenantOf id.fn).maxQp < qid ∨ (e.sqOf id.fn qid).isSome = true
      (bad → Yields row s (done 1 0x01)) ∧
      (¬ bad → qsize = 0 ∨ 0xFFFF < qsize → Yields row s (done 1 0x02)) ∧
      (¬ bad → 1 ≤ qsize → qsize ≤ 0xFFFF →
        (pc = false ∨ base % e.pageSize id.fn ≠ 0 → Yields row s (done 0 0x02)) ∧
        (pc = true → base % e.pageSize id.fn = 0 →
          (cqid = 0 ∨ e.cqOf id.fn cqid = none → Yields row s (done 1 0x00)) ∧
          (cqid ≠ 0 → e.cqOf id.fn cqid ≠ none → Yields row s
            ((e.modCtrl id.fn (fun k => { k with
              createdIo := true, sqs := k.sqs ++ [⟨qid, qsize + 1, base, cqid, 0, 0, 0, none⟩] })).finish id ⟨0, 0, false⟩))))) ∧
    (Fetching s id true 0x05 i → ∀ qid qsize vec pc ien base,
      let row := Instr.createIoCompletionQueue id qid qsize vec pc ien base
      let bad := qid = 0 ∨ (e.tenantOf id.fn).maxQp < qid ∨ (e.cqOf id.fn qid).isSome = true
      (bad → Yields row s (done 1 0x01)) ∧
      (¬ bad → qsize = 0 ∨ 0xFFFF < qsize → Yields row s (done 1 0x02)) ∧
      (¬ bad → 1 ≤ qsize → qsize ≤ 0xFFFF →
        (pc = false ∨ base % e.pageSize id.fn ≠ 0 → Yields row s (done 0 0x02)) ∧
        (pc = true → base % e.pageSize id.fn = 0 →
          (1024 < vec → Yields row s (done 1 0x08)) ∧
          (vec ≤ 1024 → Yields row s
            ((e.modCtrl id.fn (fun k => { k with
              createdIo := true, cqs := k.cqs ++ [⟨qid, qsize + 1, base, vec, ien, 0, 0, 1, []⟩] })).finish id ⟨0, 0, false⟩))))) ∧
    (Fetching s id true 0x04 i → ∀ qid,
      let bad := qid = 0 ∨ e.cqOf id.fn qid = none
      let used := (e.ctrl id.fn).sqs.any (fun q => q.cq == qid)
      (bad → Yields (.deleteIoCompletionQueue id qid) s (done 1 0x01)) ∧
      (¬ bad → used = true → Yields (.deleteIoCompletionQueue id qid) s (done 1 0x0C)) ∧
      (¬ bad → used = false → Yields (.deleteIoCompletionQueue id qid) s
        ((e.modCtrl id.fn (fun k => { k with cqs := k.cqs.filter (fun q => q.qid != qid) })).finish id ⟨0, 0, false⟩))) ∧
    (Fetching s id true 0x00 i → ∀ qid,
      (e.sqOf id.fn qid = none ∨ qid = 0 → Yields (.deleteIoSubmissionQueue id qid) s (done 1 0x01)) ∧
      (∀ q, e.sqOf id.fn qid = some q → qid ≠ 0 → (q.deleting.isSome = true → Yields (.deleteIoSubmissionQueue id qid) s (done 1 0x01)) ∧
        (q.deleting = none →
          let d := e.modSq id.fn qid (fun q => { q with deleting := some id.cid })
          let idle := (d.flights id.fn).filter (fun j => j.id.sq == qid && !j.started)
          let isIdle (k : CmdId) : Bool := idle.any (fun j => j.id == k)
          let d := d.dropXfers (fun x => match x.purpose with
            | .entryFetch f n _ _ _ => f == id.fn && n == qid
            | .list k => isIdle k
            | _ => false)
          let d := ({ d with ing := { d.ing with
            reads := d.ing.reads.filter (fun r => !isIdle r.id), walks := d.ing.walks.filter (fun w => !isIdle w.id) } } : Chip).keepWanted
          Yields (.deleteIoSubmissionQueue id qid) s ((idle.foldl (fun d j => d.finish j.id ⟨0, 0x08, true⟩) d).endDeletes id.fn)))) ∧
    (Fetching s id true 0x08 i → ∀ target : CmdId, target.fn < 1024 →
      let out := (((e.flights id.fn).takeWhile (fun j => j.id != id)).filter (fun j => j.admin && j.opc == 0x08)).length
      (4 ≤ out → Yields (.nvmeAbort id target) s (done 1 0x03)) ∧
      (out < 4 → Yields (.nvmeAbort id target) s (e.finishWith id 1 ⟨0, 0, false⟩))) ∧
    (Fetching s id true 0x0C i →
      (4 ≤ (e.ctrl id.fn).aers.length → Yields (.asynchronousEventRequest id) s (done 1 0x05)) ∧
      ((e.ctrl id.fn).aers.length < 4 → Yields (.asynchronousEventRequest id) s
        (((e.dropFlight id).modCtrl id.fn (fun k => { k with aers := k.aers ++ [id.cid] })).flushAsync id.fn)))

/-- R108, R113, R120, R121, R123, R141; the capabilities of Get Features are log entry 98. -/
def Obligations.AdminInformationCommandsComplete : Prop :=
  ∀ (s : State) (id : CmdId) (i : Inflight),
    let e := s.chip.begun id
    let fn := id.fn
    let field : Chip := e.finish id ⟨0, 0x02, true⟩
    let ok (d : Chip) : Chip := d.finish id ⟨0, 0, false⟩
    (Fetching s id true 0x02 i → ∀ lid ofs len buf rae,
      let row := Instr.getLogPage id lid ofs len rae buf
      let badBuf := badForm { i.form with dptr := buf } len
      (badBuf = true → Yields row s field) ∧
      (badBuf = false →
        (e.logPage fn lid = none → Yields row s (e.finish id ⟨1, 0x09, true⟩)) ∧
        (∀ bs, e.logPage fn lid = some bs →
          (bs.length < ofs → Yields row s field) ∧
          (ofs ≤ bs.length → Yields row s
            (e.returnData id i buf len ((bs.drop ofs).take len) (if rae then none else some lid)))))) ∧
    (Fetching s id true 0x06 i → ∀ cns csi nsid buf,
      let row := Instr.identify id cns csi nsid buf
      let bad := badForm { i.form with dptr := buf } 4096 = true ∨ identifies fn cns csi = false
      let noNs := (cns ∈ [0x00, 0x03, 0x05, 0x11, 0x12] ∧ (nsid = 0 ∨ 4096 < nsid)) ∨ (cns = 3 ∧ e.attached fn nsid = false)
      (bad → Yields row s field) ∧
      (¬ bad → noNs → Yields row s (e.finish id ⟨0, 0x0B, true⟩)) ∧
      (¬ bad → ¬ noNs → Yields row s (e.returnData id i buf 4096 (e.identifyData fn cns nsid (i.dw 10 / 65536)) none))) ∧
    (Fetching s id true 0x09 i → ∀ dw,
      (∀ fid sv, fid ∉ features → Yields (.setFeatures id fid dw sv) s field) ∧
      (∀ fid, fid ∈ features → Yields (.setFeatures id fid dw true) s (e.finish id ⟨1, 0x0D, true⟩)) ∧
      Yields (.setFeatures id 0x01 dw false) s (ok (e.modCtrl fn (fun k => { k with arb := dw }))) ∧
      (dw % 32 = 0 → Yields (.setFeatures id 0x02 dw false) s (ok e)) ∧
      (dw % 32 ≠ 0 → Yields (.setFeatures id 0x02 dw false) s field) ∧
      let sensor := 1 ≤ bitsOf dw 16 4 ∧ bitsOf dw 16 4 ≤ 8
      (sensor → Yields (.setFeatures id 0x04 dw false) s field) ∧
      (¬ sensor → bitsOf dw 20 2 = 0 → Yields (.setFeatures id 0x04 dw false) s (ok (e.modCtrl fn (fun k => { k with tempOver := dw % 65536 })))) ∧
      (¬ sensor → bitsOf dw 20 2 = 1 → Yields (.setFeatures id 0x04 dw false) s (ok (e.modCtrl fn (fun k => { k with tempUnder := dw % 65536 })))) ∧
      (1 < bitsOf dw 20 2 → Yields (.setFeatures id 0x04 dw false) s field) ∧
      ((e.tenantOf fn).maxQp = 0 → Yields (.setFeatures id 0x07 dw false) s field) ∧
      ((e.tenantOf fn).maxQp ≠ 0 → (e.ctrl fn).createdIo = false → Yields (.setFeatures id 0x07 dw false) s
        (e.finishWith id (((e.tenantOf fn).maxQp - 1) * 65537) ⟨0, 0, false⟩)) ∧
      ((e.tenantOf fn).maxQp ≠ 0 → (e.ctrl fn).createdIo = true →
        Yields (.setFeatures id 0x07 dw false) s (e.finish id ⟨0, 0x0C, true⟩)) ∧
      Yields (.setFeatures id 0x08 dw false) s (ok (e.modCtrl fn (fun k => { k with coal := dw % 65536 }))) ∧
      (1024 < dw % 65536 → Yields (.setFeatures id 0x09 dw false) s field) ∧
      (dw % 65536 ≤ 1024 → Yields (.setFeatures id 0x09 dw false) s (ok (e.modCtrl fn (fun k =>
        let others := k.coalOff.filter (· != dw % 65536)
        { k with coalOff := if bitOf dw 16 then dw % 65536 :: others else others })))) ∧
      Yields (.setFeatures id 0x0B dw false) s (ok ((e.modCtrl fn (fun k => { k with aeCfg := dw })).flushAsync fn))) ∧
    (Fetching s id true 0x0A i → ∀ fid,
      let has := fid ∈ features ∧ (fid = 7 → (e.tenantOf fn).maxQp ≠ 0)
      (¬ has → ∀ sel, Yields (.getFeatures id fid sel) s field) ∧
      (has →
        Yields (.getFeatures id fid 0) s (e.finishWith id (e.featureNow fn fid (i.dw 11)) ⟨0, 0, false⟩) ∧
        Yields (.getFeatures id fid 1) s (e.finishWith id (e.featureDefault fn fid (i.dw 11)) ⟨0, 0, false⟩) ∧
        Yields (.getFeatures id fid 2) s (e.finishWith id (e.featureDefault fn fid (i.dw 11)) ⟨0, 0, false⟩) ∧
        Yields (.getFeatures id fid 3) s (e.finishWith id (if fid = 2 ∨ fid = 7 then 0 else 4) ⟨0, 0, false⟩) ∧
        ∀ sel, 3 < sel → Yields (.getFeatures id fid sel) s field))

/-- R100, R107, R124 to R126, R128, R136 to R139, R502; log entry 99. -/
def Obligations.NamespaceCommandsComplete : Prop :=
  ∀ (s : State) (id : CmdId) (i : Inflight),
    let c := s.chip
    let e := c.begun id
    let done (sct sc : Nat) : Chip := e.finish id ⟨sct, sc, true⟩
    let field : Chip := c.finish id ⟨0, 0x02, true⟩
    (∀ entry, id.fn ≠ 0 → leNat (entry.take 1) ∈ [0x0D, 0x10, 0x11, 0x14, 0x15] →
      let id : CmdId := ⟨id.fn, 0, leNat ((entry.drop 2).take 2)⟩
      let j : Inflight := ⟨id, true, leNat (entry.take 1), leNat ((entry.drop 4).take 4), 0, false, false, entry, false, c.kcf.switches, none⟩
      c.takeEntry id.fn 0 entry = ({ c with nvm := { c.nvm with inflight := c.nvm.inflight ++ [j] } } : Chip).finish id ⟨0, 0x01, true⟩) ∧
    (c.awake = true → id.fn < 1024 → c.ringOpen = true → ∀ k n fs ses dps ext at_ u,
      (∀ x ∈ [(0x0D, Instr.namespaceManagement id (.delete k)), (0x0D, .namespaceManagement id .create), (0x15, .namespaceAttachment id k at_),
        (0x80, .formatNvm id k n ses dps ext), (0x10, .firmwareCommit id n fs u), (0x11, .firmwareImageDownload id k n)],
        c.fetched id true x.1 = some i → i.input = none → c.offers id.fn x.1 = false → Yields x.2 s field) ∧
      (c.fetched id true 0x14 = some i → c.offers id.fn 0x14 = false → Yields (.deviceSelfTest id n) s field.startDusk)) ∧
    (c.ringOpen = false → c.awake = true → id.fn < 1024 → ∀ n act lbaf ses dps ext at_,
      Yields (.namespaceManagement id act) s c ∧ Yields (.namespaceAttachment id n at_) s c ∧
      Yields (.formatNvm id n lbaf ses dps ext) s c) ∧
    (c.ringOpen = true →
      (∀ slot, Bringing s id true 0x0D 4096 i → c.inputSlot = some slot →
        Yields (.namespaceManagement id .create) s (c.beginInput id i 4096 slot)) ∧
      (∀ slot, Delivered s id true 0x0D i slot →
        let e := c.taken id
        let n := nsSpecOf (c.load (c.inputBuf slot) 4096)
        let row := Instr.namespaceManagement id .create
        (∀ st, e.createCheck n = some st → Yields row s (e.finish id st)) ∧
        (e.createCheck n = none → e.freeNsid = none → Yields row s (e.finish id ⟨1, 0x16, true⟩)) ∧
        (∀ k, e.createCheck n = none → e.freeNsid = some k → Yields row s (e.queueNs id k (.create (e.createdNs k n))))) ∧
      (Fetching s id true 0x0D i →
        Yields (.namespaceManagement id (.delete 0xFFFFFFFF)) s (done 0 0x02) ∧
        (∀ k, k ≠ 0xFFFFFFFF → (e.futureNs k).present = false → Yields (.namespaceManagement id (.delete k)) s (done 0 0x0B)) ∧
        (∀ k, k ≠ 0xFFFFFFFF → (e.futureNs k).present = true →
          Yields (.namespaceManagement id (.delete k)) s (e.queueNs id k .delete))) ∧
      (∀ k at_, Bringing s id true 0x15 4096 i →
        ((c.futureNs k).present = false → Yields (.namespaceAttachment id k at_) s (c.finish id ⟨0, 0x0B, true⟩)) ∧
        (∀ slot, (c.futureNs k).present = true → c.inputSlot = some slot →
          Yields (.namespaceAttachment id k at_) s (c.beginInput id i 4096 slot))) ∧
      (∀ slot, Delivered s id true 0x15 i slot → ∀ k,
        let e := c.taken id
        let done (sct sc : Nat) : Chip := e.finish id ⟨sct, sc, true⟩
        let l := ctrlsOf (c.load (c.inputBuf slot) 4096)
        let n := e.futureNs k
        let good := l ≠ [] ∧ ∀ x ∈ l, x = n.owner ∨ x = 0x400 + n.owner
        let inUse := ((upFrom 1 4096).filter (fun j => (e.futureNs j).present && (e.futureNs j).attached &&
          (e.futureNs j).owner == n.owner)).length
        (n.present = false → ∀ at_, Yields (.namespaceAttachment id k at_) s (done 0 0x0B)) ∧
        (n.present = true → ¬ good → ∀ at_, Yields (.namespaceAttachment id k at_) s (done 1 0x1C)) ∧
        (n.present = true → good →
          (n.attached = true → Yields (.namespaceAttachment id k true) s (done 1 0x18) ∧
            Yields (.namespaceAttachment id k false) s (e.queueNs id k .detach)) ∧
          (n.attached = false → Yields (.namespaceAttachment id k false) s (done 1 0x1A)) ∧
          (n.attached = false → (e.tenantOf n.owner).maxNs ≤ inUse → Yields (.namespaceAttachment id k true) s (done 1 0x27)) ∧
          (n.attached = false → inUse < (e.tenantOf n.owner).maxNs →
            Yields (.namespaceAttachment id k true) s (e.queueNs id k .attach)))) ∧
      (Fetching s id true 0x80 i → ∀ k lbaf ses dps ext,
        let row := Instr.formatNvm id k lbaf ses dps ext
        let n := e.futureNs k
        let bad := k = 0xFFFFFFFF ∨ 1 < ses ∨ 2 < lbaf ∨ dpsOk lbaf dps = false
        (bad → Yields row s (done 0 0x02)) ∧
        (¬ bad → n.present = false ∨ id.fn ≠ 0 ∧ n.owner ≠ id.fn → Yields row s (done 0 0x0B)) ∧
        (¬ bad → n.present = true → id.fn = 0 ∨ n.owner = id.fn → Yields row s (e.queueNs id k (.format lbaf (dps % 16) ext))))) ∧
    (Fetching s id true 0x14 i →
      (∀ k, k = 1 ∨ k = 2 →
        (e.nvm.selfTest = none → Yields (.deviceSelfTest id k) s
          ((({ e with nvm := { e.nvm with selfTest := some ⟨k, 0, 1, [], none, 0⟩ } } : Chip).finish id ⟨0, 0, false⟩).startDusk)) ∧
        (e.nvm.selfTest ≠ none → Yields (.deviceSelfTest id k) s (e.finish id ⟨1, 0x1D, false⟩).startDusk)) ∧
      (∀ t, e.nvm.selfTest = some t → Yields (.deviceSelfTest id 0xF) s (((e.logTest t 1).finish id ⟨0, 0, false⟩).startDusk)) ∧
      (e.nvm.selfTest = none → Yields (.deviceSelfTest id 0xF) s (e.finish id ⟨0, 0, false⟩).startDusk) ∧
      (∀ k, k ∉ [1, 2, 0xF] → Yields (.deviceSelfTest id k) s (done 0 0x02).startDusk)) ∧
    (c.awake = true →
      (c.nvm.selfTest = none → ∀ u l, Yields (.selfTestStep u l) s c.startDusk) ∧
      (∀ t failed last, c.nvm.selfTest = some t →
        let skip := !c.segmentRuns t.segment
        let u := { t with
          step := t.step + 1, notRun := if skip && !t.notRun.contains t.segment then t.notRun ++ [t.segment] else t.notRun }
        let p : Chip × SelfTest := match failed with
          | some (k, n) => if skip then (c, u) else ((c.takeOut k n).event 0x004 0 0 t.segment n 0,
              { u with firstFail := some (t.firstFail.getD t.segment)
                       shelf := if t.firstFail.isNone && k = 5 && 8 ≤ t.segment then n else t.shelf })
          | none => (c, u)
        let ends := if t.code = 1 then (t.step + 1) % 200 = 0 else last = true ∨ skip = true
        (¬ ends → Yields (.selfTestStep failed last) s
          (({ p.1 with nvm := { p.1.nvm with selfTest := some p.2 } } : Chip).startDusk)) ∧
        (ends → t.segment ≠ lastSegment t.code → Yields (.selfTestStep failed last) s
          (({ p.1 with nvm := { p.1.nvm with selfTest := some { p.2 with segment := t.segment + 1 } } } : Chip).startDusk)) ∧
        (ends → t.segment = lastSegment t.code → Yields (.selfTestStep failed last) s
          ((p.1.logTest p.2 (if p.2.firstFail.isSome then 7 else 0)).startDusk))))

/-- R549, R559 to R562, R568. -/
def Obligations.FirmwareCommandsComplete : Prop :=
  ∀ (s : State) (id : CmdId) (i : Inflight),
    let c := s.chip
    let e := c.begun id
    let done (sct sc : Nat) : Chip := e.finish id ⟨sct, sc, true⟩
    let writing := e.boot.writer.isSome = true ∨ e.boot.commitWaiting.isSome = true
    (∀ ofs n st, Bringing s id true 0x11 n i → c.downloadCheck ofs n = some st →
      Yields (.firmwareImageDownload id ofs n) s (c.finish id st)) ∧
    (∀ ofs n slot, Bringing s id true 0x11 n i → c.downloadCheck ofs n = none → c.inputSlot = some slot →
      Yields (.firmwareImageDownload id ofs n) s (c.beginInput id i n slot)) ∧
    (∀ ofs n,
      let odd := n = 0 ∨ n % 4096 ≠ 0 ∨ ofs % 4096 ≠ 0 ∨ 0x2000000 < ofs + n
      let busy := c.boot.writer.isSome = true ∨ c.boot.commitWaiting.isSome = true
      (busy → c.downloadCheck ofs n = some ⟨0, 0x0C, true⟩) ∧
      (¬ busy → odd → c.downloadCheck ofs n = some ⟨0, 0x02, true⟩) ∧
      (¬ busy → ¬ odd → c.boot.pieces.any (rangesMeet (ofs, n)) = true → c.downloadCheck ofs n = some ⟨1, 0x14, true⟩) ∧
      (¬ busy → ¬ odd → c.boot.pieces.any (rangesMeet (ofs, n)) = false → c.downloadCheck ofs n = none)) ∧
    (∀ ofs n slot, Delivered s id true 0x11 i slot →
      let e := c.taken id
      (∀ st, e.downloadCheck ofs n = some st → Yields (.firmwareImageDownload id ofs n) s (e.finish id st)) ∧
      (e.downloadCheck ofs n = none → Yields (.firmwareImageDownload id ofs n) s
        (({ e with boot := { e.boot with
          download := Mem.write e.boot.download ofs (c.load (c.inputBuf slot) n), pieces := e.boot.pieces ++ [(ofs, n)] } } : Chip).finish id
          ⟨0, 0, false⟩))) ∧
    (Fetching s id true 0x10 i → ∀ ca fs u,
      let row := Instr.firmwareCommit id ca fs u
      (ca ≠ 1 → ca ≠ 2 → Yields row s (done 0 0x02)) ∧
      (ca = 1 ∨ ca = 2 → 1 < fs → Yields row s (done 1 0x06)) ∧
      (ca = 2 → fs ≤ 1 →
        (e.otherImage = true → Yields row s (done 1 0x0B)) ∧
        (e.otherImage = false → e.boot.fwState = 2 → Yields row s (e.finish id ⟨0, 0, false⟩)) ∧
        (e.otherImage = false → e.boot.fwState ≠ 2 → Yields row s (done 1 0x07))) ∧
      (ca = 1 → fs ≤ 1 →
        (e.commitProhibited u = true → Yields row s (e.finish id ⟨1, 0x13, false⟩)) ∧
        (e.commitProhibited u = false → writing → Yields row s (done 0 0x0C)) ∧
        (e.commitProhibited u = false → ¬ writing → e.kcfState = 9 → Yields row s
          { e with boot := { e.boot with commitWaiting := some id } }) ∧
        (e.commitProhibited u = false → ¬ writing → e.kcfState ≠ 9 → Yields row s (e.runCommit id)))) ∧
    (c.awake = true →
      let d := (c.setFlag R.BOOT_STATUS_WRITING (c.kcfState == 9)).set R.BOOT_STATUS_HEALING 0
      let good (confirmed : Bool) : Chip := (d.slotTable (fun b => { b with
          fwState := 2, fwSerial := b.newHeader.serial, attempts := 0, confirmed := confirmed, fwSlot := b.newBytes, fwHeader := b.newHeader })).bump
          R.BOOT_CNT_COMMITS_COMMITS 1
      let clean (d : Chip) : Chip := ({ d with boot := { d.boot with writer := none, newBytes := [], newHeader := {} } } : Chip).showPending
      (c.boot.writer = none → ∀ ok, Yields (.fwSlotWriteDone ok) s c) ∧
      (∀ j, c.boot.writer = some (.commit j) → Yields (.fwSlotWriteDone true) s ((clean (good false)).finish j ⟨1, 0x0B, true⟩) ∧
        Yields (.fwSlotWriteDone false) s ((clean (d.event 0x381 0 0 0 0 0)).finish j ⟨1, 0x07, true⟩)) ∧
      (c.boot.writer = some .heal → Yields (.fwSlotWriteDone true) s ((clean (good true)).bump R.BOOT_CNT_HEALS_HEALS 1).warmReset ∧
        Yields (.fwSlotWriteDone false) s { clean (d.event 0x381 0 0 0 0 0) with
          boot := { (clean (d.event 0x381 0 0 0 0 0)).boot with healOff := true } }))

/-- R88, R161, R238 to R245 and Table 8-4. -/
def Obligations.KeyCommandsComplete : Prop :=
  ∀ (s : State) (id : CmdId) (i : Inflight),
    let c := s.chip
    let e := c.begun id
    let ended (d : Chip) (j : CmdId) (spsp slot reason : Nat) : Chip :=
      ({ d with cpe := { d.cpe with lastResult := Sparse.set {} d.cpe.lastResult j.fn ⟨spsp, slot, reason, d.epoch⟩ } } : Chip).finish j
        ⟨0, if reason = 0 then 0 else 2, reason ≠ 0⟩
    let given (nssf alloc : Nat) (buf : DPtr) (data : List Byte) : Chip :=
      if badForm { i.form with dptr := buf } alloc = true ∨ nssf ≠ 0 then e.finish id ⟨0, 2, true⟩
      else e.returnData id i buf alloc (data.take alloc) none
    let start (e : Chip) (o : KeyOp) (body : Proposal) : Chip :=
      if e.peerIn then { (e.propose body).1 with cpe := { (e.propose body).1.cpe with
        ops := (e.propose body).1.cpe.ops ++ [{ o with opid := (e.propose body).2 }] } }
      else ({ e with cpe := { e.cpe with ops := e.cpe.ops ++ [o] } } : Chip).applyKeyOp o true
    (∀ tl nssf slot, Bringing s id true 0x81 tl i → tl ≠ 0 → c.inputSlot = some slot →
      Yields (.loadKey id nssf tl) s (c.beginInput id i tl slot) ∧ Yields (.eraseKey id nssf tl) s (c.beginInput id i tl slot)) ∧
    (∀ k, Delivered s id true 0x81 i k → ∀ nssf tl,
      let e := c.taken id
      let data := c.load (c.inputBuf k) tl
      let slot := slotNamed data
      (∀ r, e.ktCheck id.fn nssf true data = some r → Yields (.loadKey id nssf tl) s (ended e id 1 slot r)) ∧
      (e.ktCheck id.fn nssf true data = none →
        (e.unwrapKey slot data = none → Yields (.loadKey id nssf tl) s (ended e id 1 slot 5)) ∧
        (∀ key, e.unwrapKey slot data = some key →
          let persist := bitOf (leNat ((data.drop 4).take 1)) 0
          Yields (.loadKey id nssf tl) s
            (start e { slot := slot, id := id, load := true, key := key, persist := persist, opid := 0, remote := false }
              (.keyLoad slot persist ((e.slotOwner slot).getD 0xFFFF) key)))) ∧
      (∀ r, e.ktCheck id.fn nssf false data = some r → Yields (.eraseKey id nssf tl) s (ended e id 2 slot r)) ∧
      (e.ktCheck id.fn nssf false data = none → Yields (.eraseKey id nssf tl) s
        (start e { slot := slot, id := id, load := false, key := 0, persist := false, opid := 0, remote := false } (.keyErase slot)))) ∧
    (c.awake = true → ∀ slot,
      let wanted := fun o : KeyOp => o.slot == slot && !o.load && !o.zeroized && (o.agreed || o.remote)
      (c.cpe.ops.find? wanted = none → Yields (.eraseChunksEncrypted slot) s c) ∧
      (c.chunksWait slot = true → Yields (.eraseChunksEncrypted slot) s c) ∧
      (∀ o, c.cpe.ops.find? wanted = some o → c.chunksWait slot = false →
        let z := c.zeroizeSlot slot
        let z : Chip := { z with cpe := { z.cpe with
          ops := modifyFirst (· == o) (fun x => { x with zeroized := true, chunksLeft := false }) z.cpe.ops } }
        (o.remote = true → Yields (.eraseChunksEncrypted slot) s z) ∧
        (o.remote = false → Yields (.eraseChunksEncrypted slot) s (ended z o.id 2 slot 0)))) ∧
    (Fetching s id true 0x82 i → ∀ nssf alloc buf,
      Yields (.slotStatus id nssf alloc buf) s (given nssf alloc buf ((e.slotsOf id.fn).flatMap (fun k => slotEntry k (e.slot k)))) ∧
      (∀ priv, e.root.secret.transport = some priv → Yields (.transportKey id nssf alloc buf) s (given nssf alloc buf
        (natLe 1 2 ++ natLe 0 6 ++ natLe e.root.mono.ktSerial 8 ++ natLe (Config.publicKey priv).1 48 ++ natLe (Config.publicKey priv).2 48))) ∧
      (e.cpe.lastResult.find? (fun x => x.1 == id.fn) = none →
        Yields (.lastResult id nssf alloc buf) s (given nssf alloc buf (List.replicate 16 0#8))) ∧
      (∀ f r, e.cpe.lastResult.find? (fun x => x.1 == id.fn) = some (f, r) → Yields (.lastResult id nssf alloc buf) s
        (given nssf alloc buf
          (natLe 1 2 ++ natLe r.spsp 2 ++ natLe r.slot 2 ++ natLe r.reason 1 ++ natLe 0 1 ++ natLe r.epoch 6 ++ natLe 0 2))) ∧
      (∀ k, Yields (.securityProtocolInfo id k nssf alloc buf) s
        (given (nssf + k) alloc buf (natBe 0 6 ++ natBe 2 2 ++ [0x00#8, 0xF1#8]))))

/-- R63, R88, R119, R121, R129, R132, R142 to R145, R150, R153, R158, R165, R173, R174, R195, R197. -/
def Obligations.HostCommandsComplete : Prop :=
  ∀ (s : State) (id : CmdId) (i : Inflight),
    let c := s.chip
    let run (d : Chip) : Chip := d.modFlight id (fun i => { i with running := true, started := true })
    let u := c.unblockClasses
    (Fetching s id false 0x01 i → ∀ nsid slba nlb form pr,
      let row := Instr.write id nsid slba nlb form pr
      let n := c.nsOf nsid
      let bytes := nlb * blockStride n pr.pract
      let meta_ := sepMeta n pr.pract nlb
      let checks := u.ioCheck id nsid slba nlb (badForm form bytes || badIlbrt n pr slba) true
      let room := u.hasSpace n.cls (nlb * 4096) && u.indexHasSpace nsid slba nlb
      (u.withheld = true ∨ u.writesHeld = true → Yields row s u) ∧
      (u.withheld = false → u.writesHeld = false →
        (u.classShut id.fn nsid = true → Yields row s (u.classBlocked n.cls)) ∧
        (u.classShut id.fn nsid = false →
          (∀ st, checks = some st → Yields row s (u.finish id st)) ∧
          (checks = none → room = false → Yields row s (u.finish id ⟨0, 0x81, true⟩)) ∧
          (checks = none → room = true →
            (u.findGranule id.fn (bytes + meta_) = none → Yields row s (u.askReserve id.fn (bytes + meta_)).askGranules) ∧
            (∀ g, u.findGranule id.fn (bytes + meta_) = some g →
              let d := u.newWid.1
              let base := d.wbBase + g * 0x400000 + (d.granule g).used
              let w := { mkWrite u.newWid.2 id nsid slba nlb base bytes meta_ n pr (d.slot n.keySlot).gen false false with
                mirrored := !d.peerIn && d.on R.GLB_STATUS_SOLE }
              let d := d.modGranule g (fun x => { x with used := x.used + bytes + meta_, live := x.live + bytes + meta_ })
              let d : Chip := { d with ing := { d.ing with writes := d.ing.writes ++ [w], ownUsed := d.ing.ownUsed + bytes + meta_ } }
              let d := d.modFlight id (fun i => { i with running := true, started := true, bytes := nlb * 4096 })
              let p := d.lookup id form bytes meta_ .write
              (p.2 = none → Yields row s p.1.askGranules) ∧ (∀ res, p.2 = some res → Yields row s (p.1.fetchData id res).askGranules)))))) ∧
    (c.awake = true → id.fn < 1024 →
      let whole := fun w : WrBuf => w.id == id && w.own && w.arrived && !w.passed && !w.zeroes
      (c.ing.writes.find? whole = none → Yields (.writeDataArrived id) s c) ∧
      (∀ w, c.ing.writes.find? whole = some w →
        (∀ k sc, c.scanWrite (c.nsOf w.nsid) w = some (k, sc) →
          Yields (.writeDataArrived id) s (((c.unscan w).discardWrite w.wid).finish w.id ⟨2, sc, true⟩)) ∧
        (c.scanWrite (c.nsOf w.nsid) w = none →
          let d := (c.modWr w.wid (fun w => { w with passed := true })).scanBlocks (c.nsOf w.nsid) w
          Yields (.writeDataArrived id) s (if w.mirrored then d else
            d.peerSend 2 0 (.mirrorEnd w.wid w.fn w.nsid w.slba w.nlb (w.bytes + w.metaBytes))).completeWrites))) ∧
    (∀ nsid slba nlb form pr,
      let stopped := c.ing.fetchStopped = true ∨ c.nvm.suspended = true ∨ c.nvm.hold = .reads ∨ c.on (R.CFG_COMMAND_BME id.fn) = false
      let reading (row : Instr) (ver : Bool) (bytes : Nat) : Prop :=
        let checks := c.ioCheck id nsid slba nlb (badForm form bytes) true
        let d := c.modFlight id (fun i => { i with running := true, bytes := nlb * 4096 })
        let srcs := (List.range nlb).map (fun j => d.sourceOf nsid (slba + j))
        let buffered : Prop := ∀ x ∈ srcs, ∃ wid, x = .buffer wid
        let r : ReadCmd := ⟨id, nsid, slba, nlb, pr, ver, form, srcs, none, d.now, [], false⟩
        (stopped → Yields row s c) ∧
        (¬ stopped → (∀ st, checks = some st → Yields row s (c.finish id st)) ∧
          (checks = none → d.walksElsewhere (c.nsOf nsid) = false ∨ buffered → Yields row s (d.beginRead r)) ∧
          (checks = none → d.walksElsewhere (c.nsOf nsid) = true → ¬ buffered → Yields row s
            (({ d with ing := { d.ing with reads := d.ing.reads ++ [{ r with srcs := [] }] } } : Chip).peerAsk (.walk (.request nsid slba nlb)))))
      (Fetching s id false 0x02 i → reading (.read id nsid slba nlb form pr) false (nlb * blockStride (c.nsOf nsid) pr.pract)) ∧
      (Fetching s id false 0x0C i → reading (.verify id nsid slba nlb form pr) true 0)) ∧
    (Fetching s id false 0x08 i → ∀ nsid slba nlb deac pr,
      let row := Instr.writeZeroes id nsid slba nlb deac pr
      let n := c.nsOf nsid
      let checks := u.ioCheck id nsid slba nlb (decide (65536 < nlb) || badIlbrt n pr slba) true
      (u.withheld = true ∨ u.writesHeld = true ∨ u.ringOpen = false → Yields row s u) ∧
      (u.withheld = false → u.writesHeld = false → u.ringOpen = true →
        (u.classShut id.fn nsid = true → Yields row s (u.classBlocked n.cls)) ∧
        (u.classShut id.fn nsid = false →
          (∀ st, checks = some st → Yields row s (u.finish id st)) ∧
          (checks = none → u.indexHasSpace nsid slba nlb = false → Yields row s (u.finish id ⟨0, 0x81, true⟩)) ∧
          (checks = none → u.indexHasSpace nsid slba nlb = true →
            Yields row s ((run u).recordRange id nsid slba nlb pr deac).completeWrites)))) ∧
    (∀ nsid ad nr,
      let row := Instr.datasetManagement id nsid ad nr
      let checks (c : Chip) (last : Nat) := c.ioCheck id nsid 0 last (decide (256 ≤ nr)) true
      (c.awake = true → id.fn < 1024 → c.withheld = true ∨ c.ringOpen = false → Yields row s c) ∧
      (c.withheld = false → c.ringOpen = true →
        (Bringing s id false 0x09 (16 * (nr + 1)) i →
          (∀ st, checks c 0 = some st → Yields row s (c.finish id st)) ∧
          (∀ slot, checks c 0 = none → c.inputSlot = some slot → Yields row s (c.beginInput id i (16 * (nr + 1)) slot))) ∧
        (∀ slot, Delivered s id false 0x09 i slot →
          let e := c.taken id
          let ranges := rangesOf (nr + 1) (c.load (c.inputBuf slot) (16 * (nr + 1)))
          let last := maxOf (ranges.map (fun r => r.1 + r.2))
          (∀ st, checks e last = some st → Yields row s (e.finish id st)) ∧
          (checks e last = none → ad = false → Yields row s ((e.showRanges nsid).finish id ⟨0, 0, false⟩)) ∧
          (checks e last = none → ad = true → Yields row s
            ((((ranges.filter (fun r => decide (0 < r.2))).foldl (fun d r =>
              d.recordRange ⟨id.fn, id.sq, 0x10000⟩ nsid r.1 r.2 ⟨true, 0, 0, 0, 0⟩ true) e).showRanges nsid).finish id ⟨0, 0, false⟩))))) ∧
    (Fetching s id false 0x00 i → ∀ nsid,
      (∀ st, c.ioCheck id nsid 0 0 false false = some st → Yields (.flush id nsid) s (c.finish id st)) ∧
      (c.ioCheck id nsid 0 0 false false = none → Yields (.flush id nsid) s (c.finish id ⟨0, 0, false⟩))) ∧
    (∀ nsid k old now, c.awake = true → id.fn < 1024 → c.fetched id false 0x00 = some i →
      c.kcf.prevs.find? (fun p => p.1 == i.sect) = some (k, old) → c.kcf.active = some now →
      let d : Chip := { c with kcf := { c.kcf with active := some (now.withSections old) } }
      let e := d.finish id ((d.ioCheck id nsid 0 0 false false).getD ⟨0, 0, false⟩)
      Yields (.flush id nsid) s { e with kcf := { e.kcf with active := some now } })

/-- R91, R120, R128, Tables 3-6 and 4-10; the SGL and PRP formats and the choice among the statuses are log entries 41 and 86. -/
def Obligations.BufferListsAreFollowed : Prop :=
  (∀ (c : Chip) (x : Xfer) (at_ : Nat) (why : ReadFail) (id : CmdId), x.purpose = .list id ∨ x.purpose = .readList id →
    c.readFailed x at_ why = ((c.logReadFail x.fn x.purpose why).dropXfer x.id).listFails id) ∧
  (∀ (c : Chip) (id : CmdId) (w : ListWalk), c.ing.walks.find? (fun x => x.id == id && !x.ready) = some w →
    let d := c.dropWalk id
    (∀ spans st page rd, w.goal = .send spans st page rd → c.listFails id = d.finish id ⟨0, 0x04, false⟩) ∧
    (w.goal = .input → c.listFails id = d.finish id ⟨0, 0x04, false⟩) ∧
    (w.goal = .write → c.listFails id =
      ((d.ing.writes.filter (fun x => x.own && x.id == id)).foldl (fun e x => e.discardWrite x.wid) d).finish id ⟨0, 0x04, false⟩)) ∧
  (∀ w : ListWalk, w.form.psdt = 0 → 0 < w.want →
    let lo := w.form.dptr.lo
    let hi := w.form.dptr.hi
    let first := w.page - lo % w.page
    (w.want ≤ first → w.begin = { w with found := [(lo, w.want)] }.endPart) ∧
    (first < w.want → w.want ≤ first + w.page →
      w.begin = if hi % 4096 = 0 then { w with found := [(lo, first), (hi, w.want - first)] }.endPart else .error ⟨0, 0x13, true⟩) ∧
    (first + w.page < w.want → w.begin = if hi % 8 = 0 then .ok (.inl { w with found := [(lo, first)], addr := hi }) else .error ⟨0, 0x13, true⟩)) ∧
  (∀ page want l addr buf a b, 0 < page → bufLen buf ≤ want → prpTake page want l addr buf = .ok (a, b) →
    bufLen b ≤ want ∧ ∀ p ∈ b, p ∈ buf ∨ (p.1 % 4096 = 0 ∧ 0 < p.2 ∧ p.2 ≤ page)) ∧
  (∀ page want e l addr buf, bufLen buf < want → ((addr + 8) % page ≠ 0 ∨ want ≤ bufLen buf + page) → e % 4096 ≠ 0 →
    prpTake page want (e :: l) addr buf = .error ⟨0, 0x13, true⟩) ∧
  (∀ d l addr rest last buf,
    (d.typ ∉ [0, 2, 3] → sglTake (d :: l) addr rest last buf = .error ⟨0, 0x11, true⟩) ∧
    (d.typ = 0 → d.addr % 4 ≠ 0 ∨ d.len % 4 ≠ 0 → sglTake (d :: l) addr rest last buf = .error ⟨0, 0x02, true⟩) ∧
    (d.typ ∈ [2, 3] → last = true ∨ rest ≠ 16 → sglTake (d :: l) addr rest last buf = .error ⟨0, 0x0D, true⟩)) ∧
  (∀ w : ListWalk,
    (bufLen w.found ≠ w.want → w.endPart = .error ⟨0, 0x0F, true⟩) ∧
    (bufLen w.found = w.want → w.mlen = 0 → w.endPart = .ok (.inr w.found)) ∧
    (bufLen w.found = w.want → w.mlen ≠ 0 → w.form.psdt ≠ 2 → w.endPart = .ok (.inr (w.found ++ [(w.form.mptr, w.mlen)]))) ∧
    (bufLen w.found = w.want → w.mlen ≠ 0 → w.form.psdt = 2 → w.endPart =
      .ok (.inl { w with sgl := true, addr := w.form.mptr, rest := 16, last := false, want := w.want + w.mlen, mlen := 0 })))

/-- R157, R164, R168, R170, R171, R178, R291 to R294, R506, R509, R510. -/
def Obligations.IngestTimersAndFlushAct : Prop :=
  ∀ s : State,
    let c := s.chip
    let fallen : Chip := { c with pwr := { c.pwr with holdupN := false, holdupAt := none } }
    (fallen.mayFlush = false → Yields .holdupNFall s fallen) ∧
    (fallen.mayFlush = true → c.pwr.mode = .day → c.pwr.flushing = false → Yields .holdupNFall s (fallen.startFlush 0)) ∧
    Yields .holdupNRise s { c with pwr := { c.pwr with
      holdupN := true, holdupAt := if c.pwr.holdupN then c.pwr.holdupAt else some c.now } } ∧
    (c.awake = true →
      (∀ k g, c.seg k = some g → g.lastAppend + 1000000 ≤ c.now → Yields (.segmentIdleTimeout k) s (c.closeSeg k)) ∧
      (∀ k, (∀ g, c.seg k = some g → c.now < g.lastAppend + 1000000) → Yields (.segmentIdleTimeout k) s c) ∧
      (∀ cls,
        let old := fun t : OpenStripe => t.cls == cls && !t.shadow && t.firstAt.any (fun a => decide (a + 2000000 ≤ c.now))
        (c.ing.stripes.find? old = none → Yields (.stripeAgeTimeout cls) s c) ∧
        (∀ t, c.ing.stripes.find? old = some t →
          Yields (.stripeAgeTimeout cls) s (c.sealStripe t t.strips))) ∧
      (∀ region rsn, Yields (.journalRecordVaulted region rsn) s (({ c with ing := { c.ing with
        journal := modifyAll (fun r => r.rsn == rsn) (fun r =>
          if region = 0 then { r with vault0 := true } else if region = 1 then { r with vault1 := true } else r) c.ing.journal } } :
        Chip).settle.sendCloses)) ∧
      (c.pwr.flushing = false ∨ c.ing.flushSealed = true → Yields .flushSeal s c) ∧
      (c.pwr.flushing = true → c.ing.flushSealed = false →
        (c.pwr.afterFlush = 0 → c.pwr.holdupN = true → Yields .flushSeal s c.sealVault) ∧
        (c.pwr.afterFlush = 0 → c.pwr.holdupN = false → c.sealVault.sendDepart.pwr.afterFlush = 0 →
          Yields .flushSeal s (c.sealVault.sendDepart.holdReset .flushed false)) ∧
        (c.pwr.afterFlush = 1 → c.sealVault.sendDepart.pwr.afterFlush = 1 → Yields .flushSeal s c.sealVault.sendDepart.warmReset) ∧
        (c.pwr.afterFlush = 2 → c.sealVault.sendDepart.pwr.afterFlush = 2 →
          Yields .flushSeal s (c.sealVault.sendDepart.holdReset .trip true))) ∧
      (c.pwr.flushing = false ∨ c.holdupGood = false → Yields .holdupStable s c) ∧
      (c.pwr.flushing = true → c.ing.flushSealed = true → c.pwr.afterFlush = 0 → c.holdupGood = true →
        c.pwr.flushHalted = [] →
        let d : Chip := { c with
          ing := { c.ing with vault := { mark := .live }, fetchStopped := c.zbl.state == .yielded, noCompletions := false
                              flushStart := none, flushSealed := false }
          pwr := { c.pwr with flushing := false, flushHalted := [] } }
        Yields .holdupStable s (((List.range 16).foldl (fun (d : Chip) k =>
          d.modStrg k (fun x => { x with pf := x.pf && d.zbl.pfailSeen })) d).completeWrites.resumePosts)) ∧
      (c.wanted = none → c.ing.part = .gather → Yields .gatherEnd s { c with ing := { c.ing with part := .none } }) ∧
      (c.wanted = none → c.ing.part ≠ .gather → Yields .gatherEnd s c) ∧
      (∀ k t, c.wanted = some (k, t) → c.ing.part = .gather → c.get R.PWR_STATUS_PHASE < 2 → c.dwellOver = true →
        c.ing.gatherAt + 20000000 ≤ c.now →
        let proposed := (c.zbl.proposals ++ c.zbl.accepted).any (fun a => match a.body with
          | .cohort .. => true
          | _ => false)
        (c.peerIn = false → Yields .gatherEnd s (c.beginSwitch k)) ∧
        (c.peerIn = true → proposed = true → Yields .gatherEnd s c) ∧
        (c.peerIn = true → proposed = false → Yields .gatherEnd s (c.propose (.cohort k t)).1)) ∧
      (∀ k t, c.wanted = some (k, t) → c.ing.part = .none → c.dwellOver = true →
        Yields .dwellEnd s { c with ing := { c.ing with part := .gather, gatherAt := t } }) ∧
      (c.dwellOver = false → Yields .dwellEnd s c) ∧
      (∀ sh r m, sh < 128 → (c.shelf sh).state ≠ 2 → Yields (.shelfPageIn sh r m) s c) ∧
      (∀ sh, sh < 128 → (c.shelf sh).state = 2 →
        let x := c.nandOf sh
        let top := max x.lastSeq0 x.lastSeq1
        let d := c.modShelf sh (fun g => { g with geo := x.geo, maxSeq := max g.maxSeq top, seqCtr := max g.maxSeq top + 2 })
        Yields (.shelfPageIn sh true true) s (d.enterService sh).wakeProgress ∧
        (∀ r m, r = false ∨ m = false → Yields (.shelfPageIn sh r m) s
          (((d.modShelf sh (fun g => { g with state := 4, wakeAt := none, scanDone := 0, scanTotal := g.bands.length })).set
            R.FTM_STATUS_SCANNING 1).wakeProgress))) ∧
      (∀ sh t, sh < 128 → (c.shelf sh).parkAt = some t →
        (c.now < t + 500000000 → Yields (.parkTimeout sh) s c) ∧
        (t + 500000000 ≤ c.now → Yields (.parkTimeout sh) s
          (let e := c.shelfEnt sh
           (((c.event 0x303 sh sh 0 0 0).bump R.PWR_CNT_SHELF_TMO_SHELF_TMO 1).modView e.str e.pos
             (fun v => { v with state := 4, lend := { v.lend with session := 0 } })).shelfAsleep sh))) ∧
      (∀ sh t, sh < 128 → (c.shelf sh).wakeAt = some t → (c.shelf sh).state = 1 →
        (c.now < t + 2500000000 → Yields (.shelfWakeTimeout sh) s c) ∧
        (t + 2500000000 ≤ c.now → Yields (.shelfWakeTimeout sh) s
          ((((c.event 0x303 sh sh 1 0 0).bump R.PWR_CNT_SHELF_TMO_SHELF_TMO 1).leaveService sh).wakeProgress))))

/-- R190, R198, R205, R206, R214 to R217 and R228 to R233, R447; the frame format is log entry 110. -/
def Obligations.DedupAndCompressionComplete : Prop :=
  ∀ s : State, s.chip.awake = true →
    let c := s.chip
    (∀ eng chunk dom cls blocks fp l,
      let q : Query := ⟨eng, chunk, dom, cls, blocks, fp⟩
      let row := Instr.dedupDecide eng chunk dom cls blocks fp l
      (∀ j, c.catJob q = some j →
        let t := c.tenantOf (leNat ((j.body.drop 4).take 2))
        (t.valid = false ∨ t.pool ≠ c.poolOf (eng / 8) → Yields row s (c.tellEngine q statusDenied 0 0 0)) ∧
        (t.valid = true → t.pool = c.poolOf (eng / 8) → Yields row s (c.decideChunk { q with dom := t.dom } l))) ∧
      (c.catJob q = none →
        (bitOf (c.layoutOf cls).opts 1 = false →
          Yields row s (((c.countChunk q).answerChunk { q with fp := 0 } .unique).tellEngine q 0 0 1 0)) ∧
        (bitOf (c.layoutOf cls).opts 1 = true → c.asksFor q = false → Yields row s c) ∧
        (bitOf (c.layoutOf cls).opts 1 = true → c.asksFor q = true →
          (c.rulesOut fp = true → Yields row s ((c.bump R.CMP_DD_RULED_OUT_RULED_OUT 1).answerUnique q 2)) ∧
          (c.rulesOut fp = false →
            let r := c.compareEach ((c.inflightFor q).map (·.place)) l
            (r.2.1 = none → Yields row s (r.1.lookUp q r.2.2)) ∧
            (r.2.1 = some none → Yields row s (r.1.answerUnique q 3)) ∧
            (∀ place, r.2.1 = some (some place) → Yields row s (r.1.answerDuplicate q 3 place (inflightChunk place).isSome)))))) ∧
    (∀ b k0 k1 l,
      let row := Instr.bucketReadDone b k0 k1 l
      let mine := c.dd.waiting.filter (fun w => w.bucket == b)
      let good := (k0 && c.ing.cat0Up) || (k1 && c.ing.cat1Up)
      let both := c.ing.cat0Up && c.ing.cat1Up
      let d := c.bump R.CMP_DD_SHELF_READS_SHELF_READS (chainPages (c.bucket_ b))
      let released (cached : Bool) (d : Chip) : Chip := { d with dd := { d.dd with
        waiting := d.dd.waiting.filter (fun w => w.bucket != b), cached := if cached then b :: d.dd.cached else d.dd.cached } }
      let decided (d : Chip) : Chip := (mine.foldl (fun p w => p.1.searchBucket w.query 5 p.2) (released true d, l)).1
      (mine = [] ∨ c.catServes = false ∨ (good = false ∧ both = false) → Yields row s c) ∧
      (mine ≠ [] → c.catServes = true →
        (good = true → k0 = true → k1 = true → Yields row s (decided d)) ∧
        (good = true → k0 = false ∨ k1 = false → Yields row s (decided (d.setBucketEntries b (c.bucket_ b)))) ∧
        (good = false → both = true → c.ownsBucket b = true → Yields row s (decided
          (((d.setBucketEntries b []).bump R.CMP_DD_LOST_LOST 1).event 0x181 ((mine.headD ⟨0, 0, 0, 0, 0, 0, 0, 0⟩).dom) b 0 0 0))) ∧
        (good = false → both = true → c.ownsBucket b = false → Yields row s
          (mine.foldl (fun d w => (d.bump R.CMP_DD_FALSE_POS_FALSE_POS 1).answerUnique w.query 6) (released false d))))) ∧
    (∀ eng pool nofb len src dst cap res cpeJob,
      let p := c.stampPool eng pool
      let i := issuerOf eng res
      let queued (d : CmpDesc) : Chip := { c with cmp := { c.cmp with
        nextHandle := c.cmp.nextHandle + 1
        jobs := c.cmp.jobs ++ [{ handle := c.cmp.nextHandle, op := d.op, noFallback := d.noFallback, pool := p, srcLen := d.srcLen
                                 srcAddr := d.srcAddr, dstAddr := d.dstAddr, dstCap := d.dstCap, cpeJob := d.cpeJob
                                 engine := i.engine, ticket := 0, resAddr := res, held := false }] } }
      ∀ x ∈ [(Instr.cmpCompress eng pool nofb len src dst cap res, (⟨1, nofb, len, src, dst, cap, 0⟩ : CmpDesc)),
          (.cmpCompressToCipher eng pool nofb len src cpeJob res, ⟨2, nofb, len, src, 0, 0, cpeJob⟩),
          (.cmpDecompress eng pool len src dst cap res, ⟨3, false, len, src, dst, cap, 0⟩)],
        (c.cmpRoom p x.2.op = false → Yields x.1 s c) ∧
        (c.cmpRoom p x.2.op = true → c.cmpAllowed i.engine x.2 = false → Yields x.1 s (c.deny i 3)) ∧
        (c.cmpRoom p x.2.op = true → c.cmpAllowed i.engine x.2 = true → Yields x.1 s (queued x.2))) ∧
    (∀ n, Yields (.accelJobStart .compressor n) s ((c.ungate (36 + n / 8)).startCmp true n) ∧
      Yields (.accelJobStart .decompressor n) s ((c.ungate (42 + n / 8)).startCmp false n) ∧
      Yields (.accelJobStart .cipher n) s ((c.ungate (28 + n / 8)).startCipherCore n) ∧
      Yields (.accelJobStart .digest n) s ((c.ungate (24 + n / 8)).startDigest n) ∧
      Yields (.accelJobStart .rde n) s ((c.ungate (48 + n)).startRde n)) ∧
    (∀ h, c.cmp.jobs.find? (·.handle == h) = none → ∀ out, Yields (.cmpJobEnd h out) s c) ∧
    (∀ h j, c.cmp.jobs.find? (·.handle == h) = some j → j.held = true ∨ j.core = none → ∀ out, Yields (.cmpJobEnd h out) s c) ∧
    (∀ h j, c.cmp.jobs.find? (·.handle == h) = some j → j.held = false → j.core ≠ none →
      (∀ st out, j.limit = some st → Yields (.cmpJobEnd h out) s ((c.failUpstream j.handle).endCmp j st 0 0 0)) ∧
      (j.limit = none → c.poisonedAt j.srcAddr j.srcLen = true → ∀ out,
        Yields (.cmpJobEnd h out) s ((c.failUpstream j.handle).endCmp j 9 0 0 0)) ∧
      (j.limit = none → c.poisonedAt j.srcAddr j.srcLen = false →
        Yields (.cmpJobEnd h .busError) s ((c.failUpstream j.handle).endCmp j 9 0 0 0) ∧
        (∀ bytes, frameMade j.srcLen bytes = false → Yields (.cmpJobEnd h (.frame bytes)) s c) ∧
        (∀ bytes, frameMade j.srcLen bytes = true → j.op = 1 →
          let f := c.chosenForm j bytes
          (j.dstCap < f.2.length → Yields (.cmpJobEnd h (.frame bytes)) s (c.endCmp j 1 f.1 0 j.srcLen)) ∧
          (f.2.length ≤ j.dstCap → Yields (.cmpJobEnd h (.frame bytes)) s
            (((c.store j.dstAddr f.2).countCmp j f.1 f.2.length).endCmp j 0 f.1 f.2.length j.srcLen))) ∧
        (∀ bytes, frameMade j.srcLen bytes = true → j.op = 2 →
          let f := c.chosenForm j bytes
          (c.cpe.jobs.any (claimable j) = false → Yields (.cmpJobEnd h (.frame bytes)) s (c.endCmp j 0x0B 0 0 0)) ∧
          (c.cpe.jobs.any (claimable j) = true → Yields (.cmpJobEnd h (.frame bytes)) s
            ((({ c with cpe := { c.cpe with
              jobs := modifyFirst (claimable j) (fun x => { x with claimed := true, stream := some f }) c.cpe.jobs } } : Chip).countCmp j f.1
                f.2.length).endCmp j 0 f.1 f.2.length j.srcLen))) ∧
        (∀ found bytes used, j.op = 3 →
          let src := c.load j.srcAddr j.srcLen
          let st := frameStatus src found bytes.length j.dstCap
          let out := if 2 ≤ st && decide (st ≤ 4) then [] else bytes.take j.dstCap
          Yields (.cmpJobEnd h (.content found bytes used)) s
            (((((if 2 ≤ st && decide (st ≤ 7) then c.bump R.CMP_CNT_REJECT_REJECT 1 else c).store j.dstAddr out).endCmp j st 1 out.length
              (min used j.srcLen))).opened (fun f => !f.frame.isEmpty && f.frame == src) (j.core.getD 0) (if st ≤ 1 then some bytes else none))))) ∧
    (Served s → Completes .cmpCntClr s (fun d => (∀ f ∈ cmpCounters, d.get f = 0) ∧ RegsSame c d cmpCounters ∧ d = { c with regs := d.regs }))

/-- R247 to R258 and R260 to R269. -/
def Obligations.CipherAndDigestComplete : Prop :=
  ∀ s : State, s.chip.awake = true →
    let c := s.chip
    (∀ eng pool (d : CipherDesc),
      let p := c.stampPool eng pool
      let i := issuerOf eng d.resAddr
      ∀ x ∈ [(Instr.encrypt eng pool d, 1), (.encryptStreamed eng pool d, 2), (.decrypt eng pool d, 3), (.decryptDecompress eng pool d, 4)],
        (c.newHandle p = none → Yields x.1 s c) ∧
        (∀ n h, c.newHandle p = some (n, h) →
          (c.cipherAllowed i.engine x.2 d = false → Yields x.1 s (c.deny i 2)) ∧
          (c.cipherAllowed i.engine x.2 d = true → Yields x.1 s { c with cpe := { c.cpe with
            entrySeqs := Sparse.modify 0 c.cpe.entrySeqs (p * 256 + n) (· + 1)
            jobs := c.cpe.jobs ++ [{ handle := h, op := x.2, pool := p, slot := d.slot, tenant := d.tenant, srcLen := d.srcLen
                                     dstCap := d.dstCap, srcAddr := d.srcAddr, dstAddr := d.dstAddr, hdrAddr := d.hdrAddr
                                     form := d.form, engine := i.engine, ticket := 0, resAddr := d.resAddr, held := false }] } }))) ∧
    (∀ h j, c.cpe.jobs.find? (·.handle == h) = some j → j.held = false →
      (∀ st b o, j.early = some st → Yields (.cipherJobEnd h b o) s (c.endCipher j st 0 0 0)) ∧
      (j.early = none → j.core ≠ none →
        (∀ b o, b = true ∨ c.cipherPoison j = true → Yields (.cipherJobEnd h b o) s ((if j.nonce.isSome then c.burn j.engine else c).endCipher j 9 0 0 0)) ∧
        (∀ o n, c.cipherPoison j = false → j.op ≤ 2 → j.nonce = some n →
          (c.jobKey j = none → Yields (.cipherJobEnd h false o) s ((c.burn j.engine).endCipher j 2 0 0 0)) ∧
          (∀ key, c.jobKey j = some key →
            let ks := aesKeys (keyBytes key)
            let iv := natLe n 12
            let plain := if j.op = 2 then (j.stream.map (·.2)).getD [] else c.load j.srcAddr j.srcLen
            let ct := gcmCrypt ks iv plain
            let hdr := c.filledHeader j n (gcmTag ks iv (c.filledHeader j n zeroTag) ct)
            Yields (.cipherJobEnd h false o) s
              ((((c.store j.hdrAddr hdr).store j.dstAddr ct).bump R.CPE_CNT_ENC_ENC 1).endCipher j 0 j.formOf ct.length 0))) ∧
        (∀ o, c.cipherPoison j = false → j.op = 3 ∨ j.op = 4 →
          let hd := c.load j.hdrAddr 64
          (∀ st, c.decryptCheck j hd = some st → Yields (.cipherJobEnd h false o) s (c.endCipher j st 0 0 0)) ∧
          (c.decryptCheck j hd = none → c.jobKey j = none → Yields (.cipherJobEnd h false o) s (c.endCipher j 2 0 0 0)) ∧
          (∀ key, c.decryptCheck j hd = none → c.jobKey j = some key → Yields (.cipherJobEnd h false o) s (c.finishDecrypt j key hd o))))) ∧
    (∀ h, c.cpe.jobs.find? (·.handle == h) = none → ∀ b o, Yields (.cipherJobEnd h b o) s c) ∧
    (∀ m w,
      let new := max c.sealedInst (max m c.cpe.shelfInst) + 1
      let takes := c.on R.CPE_STATUS_NONCE_READY = false ∧ c.cpe.instPending = true
      (c.on R.CPE_STATUS_NONCE_READY = true → Yields (.instTake m w) s c) ∧
      (c.on R.CPE_STATUS_NONCE_READY = false → c.cpe.instPending = false → Yields (.instTake m w) s
        ((c.set R.CPE_NONCE_INST_INST c.sealedInst).set R.CPE_STATUS_NONCE_READY 1)) ∧
      (takes → 0x3FFFF < new → Yields (.instTake m w) s
        (((c.set R.CPE_STATUS_INST_EXHAUSTED 1).set R.CPE_STATUS_NONCE_READY 0).event 0x142 0 0 0 0 0)) ∧
      (takes → new ≤ 0x3FFFF → w = false → Yields (.instTake m w) s
        (({ c.set R.CPE_STATUS_NONCE_READY 0 with cpe := { c.cpe with instPending := true } } : Chip).event 0x142 0 0 1 0 0)) ∧
      (takes → new < 235929 → w = true → Completes (.instTake m w) s (fun d =>
        d.get R.CPE_NONCE_INST_INST = new ∧ d.get R.CPE_STATUS_NONCE_READY = 1 ∧
        RegsSame c d [R.CPE_NONCE_INST_INST, R.CPE_STATUS_NONCE_READY] ∧
        d = { c with
          regs := d.regs
          cpe := { c.cpe with shelfInst := new, instPending := false, counters := [] }
          root := { c.root with
            writes := c.root.writes + 1
            mono := { c.root.mono with inst := Sparse.set 0 c.root.mono.inst (c.get R.GLB_HEAD_HEAD_ID) new } } }))) ∧
    (∀ eng pool (d : DigestDesc),
      let p := c.stampPool eng pool
      let i := issuerOf eng d.resAddr
      ∀ x ∈ [(Instr.hash eng pool d, 1), (.compare eng pool d, 2)],
        (256 ≤ (c.digestQueued p).length → Yields x.1 s c) ∧
        ((c.digestQueued p).length < 256 →
          (c.digestAllowed (c.digestJob i x.2 p d) = false → Yields x.1 s (c.deny i 1)) ∧
          (c.digestAllowed (c.digestJob i x.2 p d) = true → Yields x.1 s { c with dge := { c.dge with
            jobs := c.dge.jobs ++ [c.digestJob i x.2 p d], nextHandle := c.dge.nextHandle + 1 } }))) ∧
    (∀ h j, c.dge.jobs.find? (·.handle == h) = some j →
      (j.held = true ∨ j.core = none → ∀ b f, Yields (.digestJobEnd h b f) s c) ∧
      (j.held = false → j.core ≠ none →
        (j.op = 2 → ∀ b f, b = true ∨ c.digestPoison j = true → Yields (.digestJobEnd h b f) s (c.endDigest j 9 0 0 [])) ∧
        (j.op = 2 → c.digestPoison j = false → ∀ f, Yields (.digestJobEnd h false f) s (c.endCompare j 0 (c.load j.srcAddr 32) (c.load j.cmpAddr 32) f)) ∧
        (j.op = 1 → c.digestSetupPoison j = true → ∀ b f, Yields (.digestJobEnd h b f) s (c.endDigest j 9 0 0 [])) ∧
        (j.op = 1 → c.digestSetupPoison j = false → ∀ b f st, c.digestLimit j = some st → Yields (.digestJobEnd h b f) s (c.endDigest j st 0 0 [])) ∧
        (j.op = 1 → c.digestSetupPoison j = false → ∀ b f, c.digestLimit j = none → c.digestStart j = none → Yields (.digestJobEnd h b f) s (c.endDigest j 2 0 0 [])) ∧
        (j.op = 1 → c.digestSetupPoison j = false → c.digestPoison j = false → ∀ p f, c.digestLimit j = none → c.digestStart j = some p → j.final = true → j.save = false → j.check = false →
          (c.fragments j).any (fun g => !c.jobReach j.engine j.ticket g.1 g.2 false) = false →
          let msg := (c.fragments j).flatMap (fun g => c.load g.1 g.2)
          let whole := msg.length / digestBlock j.alg * digestBlock j.alg
          let total := p.total + msg.length
          let out := digestFinal j.alg total (digestAbsorb j.alg p.st (msg.take whole)) (msg.drop whole)
          Yields (.digestJobEnd h false f) s
            ((c.bump R.DGE_CNT_BYTES_BYTES (ceilDiv (sumOf ((c.fragments j).map (·.2))) 64)).endDigest j 0 0 total out)))) ∧
    (Served s →
      Completes .cpeCntClr s (fun d => (∀ f ∈ cpeCounters, d.get f = 0) ∧ RegsSame c d cpeCounters ∧ d = { c with regs := d.regs }) ∧
      Completes .dgeCntClr s (fun d => (∀ f ∈ dgeCounters, d.get f = 0) ∧ RegsSame c d dgeCounters ∧ d = { c with regs := d.regs }))

/-- Table 9-12: R184, R286, R290, R305 to R309. -/
def Obligations.MediaCommandsAct : Prop :=
  ∀ s : State,
    let c := s.chip
    (∀ sh, sh < 128 → c.nandServes sh = false → ∀ p q a b e nd f h data,
      (∀ lv, Yields (.mediaRead sh p lv nd) s c) ∧ Yields (.mediaReadHdr sh p nd) s c ∧ Yields (.mediaProgram sh p h data f) s c ∧ Yields (.mediaErase sh p f) s c ∧
      Yields (.mediaCopy sh p q a b e nd f) s c ∧ Yields (.mediaBlockInfo sh p) s c ∧ Yields (.mediaRetire sh p) s c ∧
      Yields (.mediaGeometry sh) s c ∧ Yields (.mediaRootGet sh) s c ∧ Yields (.mediaRootSet sh a p b) s c) ∧
    (∀ sh, sh < 128 → c.nandServes sh = true →
      let x := c.nandOf sh
      let leaves (y : Nand) (req : MediaReq) (r : NandReply) : Chip :=
        (c.modNand sh (fun _ => { y with reply := some r })).bridgeReply sh req (r.rsp req)
      let mayGo (req : MediaReq) (row : Instr) (d : Chip) : Prop :=
        Yields row s (if (c.shelfBridge sh).readFirst req then c else d)
      (∀ p lv nd, 15 < lv → Yields (.mediaRead sh p lv nd) s c) ∧
      (∀ p lv nd st n, lv ≤ 15 → x.readPage p nd = (st, none, n) →
        Yields (.mediaRead sh p lv nd) s (leaves x (.read p lv) { op := 1, status := st, corr := n })) ∧
      (∀ p lv nd st g n, lv ≤ 15 → x.readPage p nd = (st, some g, n) →
        Yields (.mediaRead sh p lv nd) s (leaves { x with pages := Sparse.set none x.pages p (some { g with corr := n }) } (.read p lv)
          ⟨1, st, n, some g.hdr, g.data, []⟩)) ∧
      (∀ p nd st g n, x.readPage p nd = (st, some g, n) →
        Yields (.mediaReadHdr sh p nd) s (leaves x (.readHdr p) { op := 2, status := st, hdr := some g.hdr })) ∧
      (∀ p h data f st, x.bars p = some st → mayGo (.program p h data) (.mediaProgram sh p h data f)
        (leaves x (.program p h data) { op := 3, status := st })) ∧
      (∀ p h data f, x.bars p = none → mayGo (.program p h data) (.mediaProgram sh p h data f)
        (leaves (x.put p h data f) (.program p h data) { op := 3, status := if f then 4 else 0 })) ∧
      (∀ p f, x.isBlock p = false → mayGo (.erase p) (.mediaErase sh p f) (leaves x (.erase p) { op := 4, status := 6 }) ∧
        Yields (.mediaRetire sh p) s (leaves x (.retire p) { op := 7, status := 6 }) ∧
        Yields (.mediaBlockInfo sh p) s (leaves x (.blockInfo p) { op := 6, status := 6 })) ∧
      (∀ p, x.isBlock p = true → (x.block p).state = 0 →
        mayGo (.erase p) (.mediaErase sh p false)
          (leaves (({ x with pages := x.pages.filter (fun e => blockPpa e.1 != p) } : Nand).modBlock p
          (fun b => { b with next := 0, erases := b.erases + 1 })) (.erase p) { op := 4, status := 0, vals := [(x.block p).erases + 1] }) ∧
        mayGo (.erase p) (.mediaErase sh p true) (leaves x (.erase p) { op := 4, status := 5, vals := [(x.block p).erases] }) ∧
        Yields (.mediaRetire sh p) s (leaves (x.modBlock p (fun b => { b with state := 1 })) (.retire p) { op := 7, status := 0 }) ∧
        Yields (.mediaBlockInfo sh p) s (leaves x (.blockInfo p) { op := 6, status := 0, vals := [(x.block p).erases, 0] })) ∧
      (∀ p f, x.isBlock p = true → (x.block p).state ≠ 0 → mayGo (.erase p) (.mediaErase sh p f) (leaves x (.erase p) { op := 4, status := 8 }) ∧
        Yields (.mediaRetire sh p) s (leaves x (.retire p) { op := 7, status := 8 })) ∧
      (∀ p q a b e nd f st n, x.readPage p nd = (st, none, n) → mayGo (.copy p q a b e) (.mediaCopy sh p q a b e nd f)
        (leaves x (.copy p q a b e) { op := 5, status := if st = 3 then 9 else st, corr := n })) ∧
      (∀ p q a b e nd f st g n, x.readPage p nd = (st, some g, n) → g.hdr.check = pageCheck g.hdr g.data → x.bars q = none →
        mayGo (.copy p q a b e) (.mediaCopy sh p q a b e nd f)
          (leaves (x.put q (sealHdr { g.hdr with seq := a, band := b, epoch := e } g.data) g.data f) (.copy p q a b e)
            { op := 5, status := if f then 4 else st, corr := n })) ∧
      (∀ p q a b e nd f st g n, x.readPage p nd = (st, some g, n) → g.hdr.check ≠ pageCheck g.hdr g.data →
        mayGo (.copy p q a b e) (.mediaCopy sh p q a b e nd f) (leaves x (.copy p q a b e) { op := 5, status := 9, corr := n })) ∧
      (∀ p q a b e nd f st g n bar, x.readPage p nd = (st, some g, n) → g.hdr.check = pageCheck g.hdr g.data → x.bars q = some bar →
        mayGo (.copy p q a b e) (.mediaCopy sh p q a b e nd f) (leaves x (.copy p q a b e) { op := 5, status := bar, corr := n })) ∧
      Yields (.mediaGeometry sh) s (leaves x .geometry { op := 8, status := 0, vals :=
        [x.geo.dies, x.geo.planes, x.geo.blocks, x.geo.pages, x.geo.endurance, x.geo.maxRetry, x.geo.headersPerS] }) ∧
      Yields (.mediaRootGet sh) s (leaves x .rootGet { op := 9, status := 0, vals :=
        [x.root0.ppa, x.root0.seq, x.root1.ppa, x.root1.seq, x.lastSeq0, x.lastSeq1] }) ∧
      (∀ p q, Yields (.mediaRootSet sh 0 p q) s (leaves { x with root0 := ⟨p, q, true⟩ } (.rootSet 0 p q) { op := 10, status := 0 }) ∧
        Yields (.mediaRootSet sh 1 p q) s (leaves { x with root1 := ⟨p, q, true⟩ } (.rootSet 1 p q) { op := 10, status := 0 }) ∧
        ∀ n, 1 < n → Yields (.mediaRootSet sh n p q) s (leaves x (.rootSet n p q) { op := 10, status := 6 }))) ∧
    (c.awake = true →
      (∀ tag, c.ftm.ops.find? (fun o => o.tag == tag) = none → (∀ st k h d, Yields (.mediaResponse tag st k h d) s c) ∧
        Yields (.mediaOpTimeout tag) s c) ∧
      (∀ tag o p lv, c.ftm.ops.find? (fun o => o.tag == tag) = some o → o.op = .read p lv →
        (∀ k h d, lv < (c.takeOp tag).retryMax o.shelf →
          Yields (.mediaResponse tag 2 k h d) s ((c.takeOp tag).mediaAgain o p (lv + 1)).sleepSteps) ∧
        (∀ st k h d, st ≠ 2 ∨ (c.takeOp tag).retryMax o.shelf ≤ lv → Yields (.mediaResponse tag st k h d) s
          (((c.takeOp tag).mediaEnd o st h d).modNand o.shelf (fun x => match x.page p with
            | some g => { x with pages := Sparse.set none x.pages p (some { g with corr := k }) }
            | none => x)).sleepSteps) ∧
        (o.sentAt + c.ftmCtl R.FTM_MEDIA_CTRL_OP_TMO * 1000000 ≤ c.now → o.resent = true → Yields (.mediaOpTimeout tag) s
          ((((c.takeOp tag).bump R.FTM_CNT_TIMEOUTS_TIMEOUTS 1).event 0x1C1 (c.strOf o.shelf)
            p 0 o.shelf 0).mediaEnd o 2 none []).sleepSteps)) ∧
      (∀ tag o st k h d, c.ftm.ops.find? (fun o => o.tag == tag) = some o → (∀ p lv, o.op ≠ .read p lv) →
        Yields (.mediaResponse tag st k h d) s ((c.takeOp tag).mediaEnd o st h d).sleepSteps) ∧
      (∀ tag o, c.ftm.ops.find? (fun o => o.tag == tag) = some o →
        (c.now < o.sentAt + c.ftmCtl R.FTM_MEDIA_CTRL_OP_TMO * 1000000 → Yields (.mediaOpTimeout tag) s c) ∧
        (o.sentAt + c.ftmCtl R.FTM_MEDIA_CTRL_OP_TMO * 1000000 ≤ c.now → o.resent = false → Yields (.mediaOpTimeout tag) s
          (let ops := modifyFirst (fun (x : MediaOp) => x.tag == tag) (fun x => { x with resent := true, sentAt := c.now }) c.ftm.ops
           (({ c with ftm := { c.ftm with ops := ops } } : Chip).emit (.media tag o.shelf o.op)).resendOp o))) ∧
      (∀ sh page e, sh < 128 → (c.shelf sh).dirty.find? (fun e => e.1 == page) = some e →
        (e.2 + c.ftmCtl R.FTM_MAP_CTRL_WB_EPOCHS ≤ c.epoch → Yields (.writebackDue sh page) s (c.writeBack sh page)) ∧
        (c.epoch < e.2 + c.ftmCtl R.FTM_MAP_CTRL_WB_EPOCHS → Yields (.writebackDue sh page) s c)))

/-- R294, R301, R302, R318 to R338. -/
def Obligations.RedundancyCommandsAct : Prop :=
  ∀ s : State, s.chip.awake = true →
    let c := s.chip
    (∀ sh, sh < 128 →
      ((c.shelf sh).state = 4 → c.nandServes sh = true → Yields (.fullScanRebuild sh) s ((c.fullScan sh).enterService sh)) ∧
      ((c.shelf sh).state ≠ 4 ∨ c.nandServes sh = false → Yields (.fullScanRebuild sh) s c) ∧
      (c.cohortAwake (c.shelfEnt sh).cohort = true → c.ownsStr (c.strOf sh) = true → (c.shelf sh).state = 3 →
        (c.bandToCompact sh = none → Yields (.bandCompaction sh) s c) ∧
        (∀ b, c.bandToCompact sh = some b → Yields (.bandCompaction sh) s (c.usedFor 1 (fun d => d.compactBand sh b)))) ∧
      (c.cohortAwake (c.shelfEnt sh).cohort = false ∨ c.ownsStr (c.strOf sh) = false ∨ (c.shelf sh).state ≠ 3 →
        Yields (.bandCompaction sh) s c) ∧
      ((c.shelf sh).absentSince = none → Yields (.rebuildGraceTimeout sh) s c) ∧
      (∀ t, (c.shelf sh).absentSince = some t →
        let due := t + c.rdeCtl R.RDE_REBUILD_CTRL_GRACE_S * 1000000000
        ((c.shelf sh).rebuilding = true ∨ c.now < due → Yields (.rebuildGraceTimeout sh) s c) ∧
        ((c.shelf sh).rebuilding = false → due ≤ c.now →
          let str := c.strOf sh
          let names := fun (x : StripeEnt) => x.cohort == (c.shelfEnt sh).cohort && x.state == 2 && (match x.map.idxOf? str with
            | some j => !c.zeroStrip x j
            | none => false)
          let ss := modifyAll names (fun x => { x with missing := setBit x.missing ((x.map.idxOf? str).getD 0) }) c.ftm.stripes
          Yields (.rebuildGraceTimeout sh) s ((((({ c with ftm := { c.ftm with stripes := ss } } : Chip).modShelf sh
            (fun x => { x with rebuilding := true })).set R.RDE_REBUILD_PROG_TOTAL
            (c.ftm.stripes.filter (fun x => names x && c.tends x.seid)).length).set R.RDE_REBUILD_PROG_DONE 0).setDegraded)))) ∧
    (∀ k, k < 8 →
      (c.cohortAwake k = false → Yields (.stripeCompaction k) s c ∧ Yields (.scrubStripe k) s c) ∧
      (c.cohortAwake k = true → leastLive (c.compactable k) = none → Yields (.stripeCompaction k) s c) ∧
      (∀ x, c.cohortAwake k = true → leastLive (c.compactable k) = some x →
        let d := c.modStripe k x.seid (fun y => { y with compacting := true })
        let g := x.liveRecs.foldl (fun d r => d.copyRec x r x.cls none 0) d
        Yields (.stripeCompaction k) s (g.bump R.FTM_CNT_GC_RECORDS_GC_RECORDS (g.ftm.copies.length - d.ftm.copies.length))) ∧
      (∀ seid, c.stripe k seid = none → Yields (.rebuildStripe k seid) s c) ∧
      (∀ seid x, c.stripe k seid = some x →
        (c.missingStrip x = none ∨ c.isDay = false ∨ c.rebuildable x = false ∨ c.rebuildTurn x = false → Yields (.rebuildStripe k seid) s c) ∧
        (∀ j, c.missingStrip x = some j → c.isDay = true → c.rebuildable x = true → c.rebuildTurn x = true →
          (c.rebuildTarget x j = .none → Yields (.rebuildStripe k seid) s ((c.set R.RDE_STATUS_WAITING 1).askEvacuation x)) ∧
          (∀ k2, c.rebuildTarget x j = .evacuate k2 → Yields (.rebuildStripe k seid) s
            (x.liveRecs.foldl (fun d r => d.copyRec x r x.cls (some k2) 0)
              ((c.set R.RDE_STATUS_WAITING 0).modStripe k seid (fun y => { y with compacting := true })))) ∧
          (∀ sh str, c.rebuildTarget x j = .shelf sh str →
            let g := (List.range (c.layoutOf x.cls).pages).foldl (fun d i => if d.offsetLost x i then d.losePages x i 1 else d)
              (c.set R.RDE_STATUS_WAITING 0)
            Yields (.rebuildStripe k seid) s (g.usedFor (if g.margin x = 0 then 4 else 3) (fun d =>
              match d.writeStrip sh x (fun i => d.stripContent x j i) with
              | some e => e.recordRebuilt x j str
              | none => d))))) ∧
      (∀ seid strip page,
        let e := (k, seid, strip * 1024 + page)
        (c.stripe k seid = none → Yields (.repairPage k seid strip page) s (c.dropRepair e)) ∧
        (∀ x, c.stripe k seid = some x →
          (c.rde.repairs.contains e = false ∨ c.cohortAwake k = false → Yields (.repairPage k seid strip page) s c) ∧
          (c.rde.repairs.contains e = true → c.cohortAwake k = true →
            (c.offsetLost x page = true → Yields (.repairPage k seid strip page) s ((c.losePages x page 2).dropRepair e)) ∧
            (c.offsetLost x page = false → c.repaired x strip page = none → Yields (.repairPage k seid strip page) s c) ∧
            (∀ data, c.offsetLost x page = false → c.repaired x strip page = some data → Yields (.repairPage k seid strip page) s
              (((c.usedFor 3 (fun d => d.rewrite x strip page data)).bump R.RDE_CNT_REPAIRED_PAGES 1).dropRepair e))))) ∧
      (c.cohortAwake k = true →
        c.ftm.stripes.filter (fun x => x.cohort == k && x.state == 2 && c.tends x.seid && decide ((c.scrubOf k).1 ≤ x.seid)) = [] →
        Yields (.scrubStripe k) s (c.setScrub k 0 c.now)) ∧
      (let due := (c.scrubOf k).2 + c.rdeCtl R.RDE_SCRUB_CTRL_MAX_DAYS * 86400000000000
       (c.rdeCtl R.RDE_SCRUB_CTRL_MAX_DAYS = 0 ∨ c.cohortAwake k = true ∨ c.now ≤ due → Yields (.scrubAgeRequest k) s c) ∧
       (c.rdeCtl R.RDE_SCRUB_CTRL_MAX_DAYS ≠ 0 → c.cohortAwake k = false → c.cohortShelves k ≠ [] → due < c.now →
         Yields (.scrubAgeRequest k) s (c.askCohort k 2)))) ∧
    (∀ k x, k < 8 → c.cohortAwake k = true →
      let mine := c.ftm.stripes.filter (fun x => x.cohort == k && x.state == 2 && c.tends x.seid && decide ((c.scrubOf k).1 ≤ x.seid))
      mine = [x] →
      let w := c.stripeWidth x
      let n := (c.layoutOf x.cls).pages
      let found := (List.range w).flatMap (fun j =>
        ((List.range n).filter (fun i => c.getPage x j i == .gone && !bitOf x.missing j)).map (fun i => (j, i)))
      let d := found.foldl (fun d e => d.report k x.seid e.1 e.2) (c.bump R.FTM_CNT_READS_READS (w * n))
      let d := (d.usedFor 5 (fun d => (List.range w).foldl (fun d j => d.refreshPages x j)
        ((List.range n).foldl (fun d i => d.scrubOffset x (c.recordFails x) i) d))).bump R.RDE_CNT_SCRUBBED_SCRUBBED 1
      Yields (.scrubStripe k) s (d.setScrub k 0 d.now)) ∧
    (∀ eng pool (d : RdeDesc),
      let p := c.stampPool eng pool
      let i := issuerOf eng d.resAddr
      let full := i.engine ≠ none ∧ 256 ≤ (c.rdeQueued p).length
      ∀ x ∈ [(Instr.encode eng pool d, 1), (.accumulate eng pool d, 2), (.reconstruct eng pool d, 3), (.rdeVerify eng pool d, 4)],
        (full → Yields x.1 s c) ∧
        (¬ full → c.rdeAllowed i.engine x.2 d = false → Yields x.1 s (c.deny i 4)) ∧
        (¬ full → c.rdeAllowed i.engine x.2 d = true → Yields x.1 s { c with rde := { c.rde with
          nextHandle := c.rde.nextHandle + 1
          jobs := c.rde.jobs ++ [{ handle := c.rde.nextHandle, op := x.2, desc := d, pool := p, engine := i.engine
                                   ticket := 0, held := false }] } })) ∧
    (∀ h j, c.rde.jobs.find? (·.handle == h) = some j →
      (j.held = true ∨ j.unit = none → ∀ b, Yields (.rdeJobEnd h b) s c) ∧
      (j.held = false → j.unit ≠ none →
        (∀ st b, j.limit = some st → Yields (.rdeJobEnd h b) s (c.endRdePlain j st)) ∧
        (j.limit = none → j.op = 4 → ∀ b, b = true ∨ c.rdePoison j = true → Yields (.rdeJobEnd h b) s (c.endRdePlain j 9)) ∧
        (j.limit = none → j.op ≠ 4 → ∀ b, b = true ∨ c.rdePoison j = true → Yields (.rdeJobEnd h b) s
          (({ c.store j.desc.dst (natLe c.freeNow (rdeOutputs j.desc j.op * j.desc.len)) with
            freeCount := (c.store j.desc.dst (natLe c.freeNow (rdeOutputs j.desc j.op * j.desc.len))).freeCount + 1 } : Chip).endRdePlain j 9)) ∧
        (j.limit = none → c.listReach j = true → c.rdePoison j = false →
          (j.op = 4 → Yields (.rdeJobEnd h false) s (c.endVerify j)) ∧
          (j.op ≠ 4 → Yields (.rdeJobEnd h false) s ((c.store j.desc.dst ((c.rdeOutput j).flatMap stripOut)).endRdePlain j 0)))))

/-- R339 to R345. -/
def Obligations.ReshapeCommandsAct : Prop :=
  ∀ s : State,
    let c := s.chip
    let valid := R.RDE_RESHAPE_STATUS_VALID
    let done (d : Chip) (code : Nat) : Chip :=
      (({ d with rde := { d.rde with reshape := none } } : Chip).set R.RDE_RESHAPE_STATUS_STATE 0).postResult valid [(R.RDE_RESHAPE_STATUS_CODE, code)]
    (Served s →
      (c.rde.reshape ≠ none → Yields .reshapeStart s
        ((c.setAll [(R.RDE_RESHAPE_STATUS_REFUSED, 1), (R.RDE_RESHAPE_STATUS_REFUSE_CODE, 1)]).event 0x013
          (blockIndex R.RDE_RESHAPE_CMD_CMD.addr) R.RDE_RESHAPE_CMD_CMD.addr 0 0 0)) ∧
      (c.rde.reshape = none →
        let r := reshapeOf c.reshapeArg 0
        (∀ code, c.reshapeBad r = some code → Yields .reshapeStart s (done (c.startOp valid) code)) ∧
        (c.reshapeBad r = none → r.mode = 1 → c.roomBeside r = false → Yields .reshapeStart s (done (c.startOp valid) 4)) ∧
        (c.reshapeBad r = none → r.mode ≠ 1 ∨ c.roomBeside r = true →
          (c.peerIn = false → Yields .reshapeStart s ((c.startOp valid).beginReshape (c.reshapeMode r))) ∧
          (c.peerIn = true →
            let p := c.propose (.reshape c.reshapeArg)
            Yields .reshapeStart s { p.1 with rde := { p.1.rde with reshape := some { c.reshapeMode r with opid := p.2 } } }))) ∧
      (c.rde.reshape = none → Yields .reshapeAbort s c) ∧
      (∀ r, c.rde.reshape = some r → r.running = false → Yields .reshapeAbort s c) ∧
      (∀ r, c.rde.reshape = some r → r.running = true →
        (r.mode = 1 → Yields .reshapeAbort s (done ((c.dropCopies 2).freeShadow) 6)) ∧
        (r.mode ≠ 1 →
          let ss := modifyAll (fun (x : StripeEnt) => c.tends x.seid && r.top.any (fun t => x.seid ≤ t) && x.compacting)
            (fun x => { x with compacting := x.recs.all (fun y => y.live == 0) }) c.ftm.stripes
          Yields .reshapeAbort s (done (({ c with ftm := { c.ftm with stripes := ss } } : Chip).dropCopies 1) 6))) ∧
      Completes .rdeCntClr s (fun d => (∀ f ∈ rdeCounters, d.get f = 0) ∧ RegsSame c d rdeCounters ∧ d = { c with regs := d.regs })) ∧
    (s.chip.awake = true →
      (c.rde.reshape = none → Yields .reshapeBatchCopied s c ∧ Yields .reshapeCopyDone s c) ∧
      (∀ r, c.rde.reshape = some r → r.running = true → c.reshapeAwake r = true → c.isDay = true →
        let todo := (c.reshapeTodo r).filter (fun x => c.cohortAwake x.cohort)
        (r.mode = 2 → r.top = none → (todo.take r.batch).getLast? = none → Yields .reshapeBatchCopied s c) ∧
        (∀ last, r.mode = 2 → r.top = none → (todo.take r.batch).getLast? = some last →
          let batch := todo.take r.batch
          Yields .reshapeBatchCopied s ((batch.foldl (fun d x => d.reshapeStripe r x 1) (c.set R.RDE_RESHAPE_STATUS_STATE 2)).modReshape
            (fun r => { r with top := some last.seid, count := batch.length
                               lostLeft := r.lostLeft || batch.any (fun x => x.recs.any (fun y => y.lost && y.live != 0)) }))) ∧
        (r.mode = 1 → r.switchAt = none →
          let asleep := (c.reshapeTodo r).any (fun x => !c.cohortAwake x.cohort)
          let d := todo.foldl (fun d x => d.reshapeStripe r x 2) c
          let d := (d.ing.stripes.filter (·.shadow)).foldl (fun d os => d.sealStripe os os.strips) d
          let d := d.modReshape (fun r => { r with
            lostLeft := r.lostLeft || todo.any (fun x => x.recs.any (fun y => y.lost && y.live != 0)), count := r.count + todo.length })
          (asleep = true → Yields .reshapeCopyDone s (d.askReshape r)) ∧
          (asleep = false → Yields .reshapeCopyDone s ((d.modReshape (fun r => { r with
            shadow := d.shadowLog, switchAt := some (d.epoch + 2) })).set R.RDE_RESHAPE_STATUS_STATE 3)))))

/-- R347 to R368 and R384. -/
def Obligations.StringSlotsAct : Prop :=
  ∀ (s : State) (k : Nat), k < 16 →
    let c := s.chip
    let g := c.strg k
    (∀ ports,
      let out := hubForward ports
      let d := (c.modStrg k (fun x => { x with hubOut := out })).emit (.hubSend k out)
      ((∀ a b, out ≠ .collide a b) → Yields (.hubCodeword k ports) s d) ∧
      (∀ a mis, out = .collide a mis →
        let t := d.modStrg k (fun x => { x with trained := x.trained.filter (fun a => !bitOf mis a) })
        (bitOf mis t.att = false → Yields (.hubCodeword k ports) s t) ∧
        (bitOf mis t.att = true → Yields (.hubCodeword k ports) s ((t.set (R.ISF_STR_STATUS_STATE k) 1).emit (.strTrain k t.att))))) ∧
    (∀ att lanes echoes, att ≠ c.att →
      let ok := lanes % 16 = 15 ∧ 64 ≤ echoes.length
      (ok → Yields (.attachmentTraining k att lanes echoes) s
        (c.modStrg k (fun x => { x with trained := x.trained.filter (· != att) ++ [att] }))) ∧
      (¬ ok → Yields (.attachmentTraining k att lanes echoes) s
        (c.modStrg k (fun x => { x with trained := x.trained.filter (· != att) ++ [] })))) ∧
    (c.usesLinks = false → ∀ lanes echoes, Yields (.attachmentTraining k c.att lanes echoes) s c) ∧
    (∀ lanes echoes, c.usesLinks = true → lanes % 16 = 15 → 64 ≤ echoes.length →
      let d := c.modStrg k (fun x => { x with trained := x.trained.filter (· != c.att) ++ [c.att] })
      let loop := (echoes.take 64).foldl min (echoes.headD 0)
      Yields (.attachmentTraining k c.att lanes echoes) s ((((d.set (R.ISF_STR_STATUS_LANES k) lanes).set (R.ISF_STR_LOOP_ROUND k) loop).modStrg k
        (fun x => { x with loopPs := loop })).strUp k)) ∧
    (c.awake = true → g.beaconing = false ∨ c.trainedOn k = false → ∀ b, Yields (.beaconTransmit k b) s c) ∧
    (c.awake = true → g.beaconing = true → c.trainedOn k = true → ∀ collides,
      ∃ d : Chip, Yields (.beaconTransmit k collides) s
          (if collides then d.ownershipConflict k else if g.release || g.releaseIn == 1 then d.disownString k else d) ∧
        d.get (R.ISF_STR_STATUS_STATE k) = 3 ∧ (d.strg k).lastBeaconAt = c.now ∧
        (d.strg k).beacons = g.beacons + 1 ∧ (d.strg k).beaconTxc = g.beaconTxc + 1 ∧ (d.strg k).grants = g.nextGrants ∧ (d.strg k).spent = [] ∧
        (∃ b : Beacon, d.out = .beacon k b (b.wire g.key) :: c.out ∧ b.src = c.att ∧ b.cycle = d.get (R.ISF_STR_CYCLE_CYCLE k) ∧
          b.grants = (d.strg k).nextGrants ∧ b.txc = g.beaconTxc + 1 ∧ b.keygen = c.get (R.ISF_STR_STATUS_KEYGEN k)) ∧
        (∀ j, j ≠ k → d.strg j = c.strg j) ∧
        d.get (R.ISF_STR_CYCLE_CYCLE k) = trunc (R.ISF_STR_CYCLE_CYCLE k).width (c.get (R.ISF_STR_CYCLE_CYCLE k) + 1) ∧
        RegsSame c d [R.ISF_STR_CYCLE_CYCLE k, R.ISF_STR_STATUS_STATE k, R.ISF_STR_STATUS_PF k] ∧
        d = { c with regs := d.regs, isf := d.isf, out := d.out }) ∧
    (∀ att b ok, att < 8 → Yields (.beaconReceive k att b ok) s (c.bridgeBeacon k att b ok)) ∧
    (∀ b ok, 8 ≤ c.att → Yields (.beaconReceive k c.att b ok) s (c.headBeacon k b ok)) ∧
    (∀ att b ok, 8 ≤ att → att ≠ c.att → Yields (.beaconReceive k att b ok) s c) ∧
    (∀ att slot, slot < 3 ∨ 64 ≤ slot → Yields (.dataSlotTransmit k att slot) s c) ∧
    (∀ att slot, 3 ≤ slot → slot < 64 → att < 8 →
      let b := c.bridge k att
      (b.present && !b.parked && !b.holdover && b.gotBeacon && b.grants.getD (slot - 3) 15 == att) = true →
      Yields (.dataSlotTransmit k att slot) s ((c.emit (.sos k att slot (min 4095 (b.end8.demand + b.end9.demand)))).bridgeFrames k att)) ∧
    (∀ slot, 3 ≤ slot → slot < 64 → 8 ≤ c.att → c.awake = true → c.trainedOn k = true → g.grants.getD (slot - 3) 15 = c.att →
      Yields (.dataSlotTransmit k c.att slot) s ((c.emit (.sos k c.att slot (c.ownDemand k))).headFrames k)) ∧
    (∀ slot sos fr n u l, c.trainedOn k = false → Yields (.slotReceive k c.att slot sos fr n u l) s c) ∧
    (∀ slot src dem fr n u, c.awake = true → c.trainedOn k = true → c.slotFrom k c.att slot src = true →
      let d := c.countCodewords k src n u
      (d.strg k).quarantine.contains src = false →
      Yields (.slotReceive k c.att slot (some (slot, src, dem)) fr n u []) s
        (fr.foldl (fun d r => d.headHears k src r) (d.signOfLife k src dem))) ∧
    (∀ pos, pos < 8 →
      Yields (.holdoverEntry k pos) s (c.modBridge k pos (fun b => if b.present && !b.parked && !b.holdover && b.keygen != 0 &&
          decide (b.beaconAt + 174080 ≤ c.now) then
        { b with holdover := true, holdAt := c.now, gotBeacon := false, grants := [], nextGrants := [] } else b)) ∧
      Yields (.holdoverTimeout k pos) s (c.modBridge k pos (fun b => if b.holdover && decide (b.holdAt + 10000000000 ≤ c.now) then
        { b with holdover := false, end8 := {}, end9 := {}, keygen := 0, key := 0, prevKeygen := 0, prevKey := 0 } else b)) ∧
      Yields (.backoffExpiry k pos) s (c.modBridge k pos (fun b => { b with backoff := b.backoff.filter (fun t => decide (c.now < t)) })) ∧
      (∀ slot2, (c.bridge k pos).present = true → (c.bridge k pos).quarantined = false → (c.bridge k pos).contending = none →
        (∀ t, (c.bridge k pos).backoff = some t → t ≤ c.now) →
        let slot := if slot2 then 2 else 1
        ((c.bridge k pos).parked = false → Yields (.contentionAttempt k pos slot2 none) s ((c.modBridge k pos
          (fun b => { b with contending := some (slot, 0), slotUsed := slot })).emit (.strEnrol k slot pos))) ∧
        (∀ r, Yields (.contentionAttempt k pos slot2 (some r)) s ((c.modBridge k pos
          (fun b => { b with contending := some (slot, r), slotUsed := slot })).emit (.strWake k slot pos r)))) ∧
      (∀ slot2 r, (c.bridge k pos).present = false ∨ (∃ t, (c.bridge k pos).backoff = some t ∧ c.now < t) → Yields (.contentionAttempt k pos slot2 r) s c)) ∧
    (c.now < g.lastBeaconAt + 1000000000 → Yields (.stringDark k) s c) ∧
    (g.lastBeaconAt + 1000000000 ≤ c.now → Yields (.stringDark k) s
      ((c.modStrg k (fun x => { x with grants := [], nextGrants := [] })).set (R.ISF_STR_STATUS_STATE k) 0))

/-- R369 to R384, R509. -/
def Obligations.BridgeSessionsAct : Prop :=
  ∀ (s : State) (k pos : Nat), k < 16 → pos < 8 →
    let c := s.chip
    let g := c.strg k
    let b := c.bridge k pos
    let v := c.view k pos
    (c.awake = true →
      (∀ s2 bl ven m fw tag hdr,
        (hdr.dst ≠ c.att → hdr.dst ≠ 15 → Yields (.enrol k s2 pos bl ven m fw tag hdr) s c) ∧
        (hdr.dst = c.att ∨ hdr.dst = 15 →
          (hdr.verifies pos 7 (enrolBytes pos bl ven m fw tag) = false → Yields (.enrol k s2 pos bl ven m fw tag hdr) s
            ((c.bump (R.ISF_STR_CNT_TAG_TAG k) 1).strEvent 0x24A k pos 0 0)) ∧
          (hdr.verifies pos 7 (enrolBytes pos bl ven m fw tag) = true →
            (g.beaconing = false ∨ g.quarantine.contains pos = true ∨ v.state = 3 → Yields (.enrol k s2 pos bl ven m fw tag hdr) s c) ∧
            (g.beaconing = true → g.quarantine.contains pos = false → v.state ≠ 3 →
              Yields (.enrol k s2 pos bl ven m fw tag hdr) s ((c.cack k pos s2).wantEnrol k pos))))) ∧
      (g.enrolling = none → Yields (.enrolmentTimeout k) s c) ∧
      (∀ hdr bs m, hdr.dst = c.att ∨ hdr.dst = 15 → hdr.verifies pos 5 bs = false →
        Yields (.stringSpdm k pos hdr bs m) s ((c.bump (R.ISF_STR_CNT_TAG_TAG k) 1).strEvent 0x24A k pos 0 0)) ∧
      (g.enrolling = none → ∀ hdr bs m, hdr.verifies pos 5 bs = true → Yields (.stringSpdm k pos hdr bs m) s c) ∧
      (∀ e, g.enrolling = some e →
        (e.since + 300000000 ≤ c.now ∨ e.askedAt + 100000000 ≤ c.now → Yields (.enrolmentTimeout k) s (c.enrolFailed k e.pos 32)) ∧
        (c.now < e.since + 300000000 → c.now < e.askedAt + 100000000 → Yields (.enrolmentTimeout k) s c) ∧
        (∀ hdr bs, hdr.dst = c.att ∨ hdr.dst = 15 → hdr.verifies pos 5 bs = true →
          let spdm := fun m => Instr.stringSpdm k pos hdr bs m
          (e.pos ≠ pos → ∀ m, Yields (spdm m) s c) ∧
          (e.pos = pos →
            (e.step = 0 → Yields (spdm .version) s (c.enrolStep k pos 1 id)) ∧
            (e.step = 1 → Yields (spdm .capabilities) s (c.enrolStep k pos 2 id)) ∧
            (e.step = 2 → Yields (spdm (.algorithms true)) s (c.enrolStep k pos 3 id)) ∧
            (e.step = 3 → ∀ d, v.cachedDigest = 0 ∨ v.cachedDigest ≠ d → Yields (spdm (.digests d)) s (c.enrolStep k pos 4 id)) ∧
            (e.step = 3 → v.cachedDigest ≠ 0 → Yields (spdm (.digests v.cachedDigest)) s
              (c.enrolStep k pos 5 (fun e => { e with rootOk := true, fp := v.fp }))) ∧
            (e.step = 4 → ∀ fp d, Yields (spdm (.certificate true fp d)) s
              ((c.modView k pos (fun v => { v with cachedDigest := d, fp := fp })).enrolStep k pos 5 (fun e => { e with rootOk := true, fp := fp }))) ∧
            (e.step = 5 → Yields (spdm (.keyExchangeRsp true)) s (c.enrolStep k pos 6 id)) ∧
            (e.step = 6 → Yields (spdm .encapsulatedRequest) s (c.enrolStep k pos 7 id)) ∧
            (e.step = 7 → ∀ hv rq rp, c.admitCheck k e hv = none → Yields (spdm (.finishRsp hv rq rp)) s (c.enrolAdmit k pos e.fp rq rp)) ∧
            (e.step = 7 → ∀ hv rq rp n, c.admitCheck k e hv = some n → Yields (spdm (.finishRsp hv rq rp)) s (c.enrolFailed k pos n)) ∧
            (e.step ≠ 0 → Yields (spdm .version) s (c.enrolFailed k pos (16 + e.step)))))) ∧
      (let due := v.quarantineAt + c.get R.ISF_TIMERS_QUARANTINE_S * 1000000000
       (g.quarantine.contains pos = false ∨ c.now < due → Yields (.quarantineExpiry k pos) s c) ∧
       (g.quarantine.contains pos = true → due ≤ c.now → Yields (.quarantineExpiry k pos) s
         ((c.modStrg k (fun x => { x with quarantine := x.quarantine.filter (· != pos) })).modView k pos
           (fun v => { v with state := if v.state = 5 then 0 else v.state })))) ∧
      Yields (.parkDone k pos) s (c.parkAnswered k pos)) ∧
    (∀ h val, Yields (.isfAck k pos true h val) s (c.modBridge k pos (fun b => b.modEnd h (fun l =>
      if l.ackInRange val then (l.acked val c.now).getD l else l)))) ∧
    (∀ h val, h ≠ c.att → Yields (.isfAck k pos false h val) s c) ∧
    (∀ val, v.lend.session = 0 → Yields (.isfAck k pos false c.att val) s c) ∧
    (∀ val, v.lend.session ≠ 0 → v.lend.ackInRange val = false →
      Yields (.isfAck k pos false c.att val) s (c.bump (R.ISF_STR_CNT_ACKBAD_ACKBAD k) 1)) ∧
    (∀ val, v.lend.session ≠ 0 → v.lend.ackInRange val = true → Yields (.isfAck k pos false c.att val) s
      ((c.modView k pos (fun v => { v with lend := (c.view k pos |>.lend.acked val c.now).getD (c.view k pos).lend, silentCycles := 0 })).keysAcked
        k pos)) ∧
    (let cyc := c.get R.ISF_TIMERS_RETX_CYC
     (v.lend.retxDue cyc c.now = false → Yields (.isfRetxTimeout k pos true c.att) s c) ∧
     (v.lend.retxDue cyc c.now = true → v.lend.worn = true → Yields (.isfRetxTimeout k pos true c.att) s (c.sessionBroken k pos)) ∧
     (v.lend.retxDue cyc c.now = true → v.lend.worn = false → Yields (.isfRetxTimeout k pos true c.att) s
       (((c.modView k pos (fun x => { x with lend := (v.lend.resend c.now).1 })).emitFrames k v.lend.txKey (v.lend.resend c.now).2).bump
         (R.ISF_STR_CNT_RETX_RETX k) (v.lend.resend c.now).2.length)) ∧
     (∀ h, (b.endOf h).retxDue cyc c.now = true → (b.endOf h).worn = false → Yields (.isfRetxTimeout k pos false h) s
       ((c.modBridge k pos (fun x => x.modEnd h (fun _ => ((b.endOf h).resend c.now).1))).emitFrames k (b.endOf h).txKey ((b.endOf h).resend c.now).2))) ∧
    (∀ h ses opid keep rq rp, b.present = true → b.parked = false → ses ≠ 0 → Yields (.sessionStart k pos h ses opid keep rq rp) s
      (c.modBridge k pos (fun b => b.startSession h ses opid keep rq rp))) ∧
    (∀ gen key, b.present = true → b.parked = false → Yields (.keys k pos gen key) s
      (c.modBridge k pos (fun b => b.takeKey gen key (c.get (R.ISF_STR_CYCLE_CYCLE k))))) ∧
    (∀ h, b.present = true → b.parked = false → (b.endOf h).session ≠ 0 →
      Yields (.park k pos h) s ((c.modBridge k pos (fun b => { b with parkBy := h })).parkNow k pos) ∧
      ∀ data, Yields (.echo k pos h data) s
        (c.modBridge k pos (fun b => b.modEnd h (fun e => { e with queue := e.queue ++ [(0, .echoReply data)] })))) ∧
    (b.present = false → ∀ h ses opid keep rq rp gen key data, Yields (.sessionStart k pos h ses opid keep rq rp) s c ∧
      Yields (.keys k pos gen key) s c ∧ Yields (.park k pos h) s c ∧ Yields (.echo k pos h data) s c) ∧
    (∀ data, Yields (.echoReply k pos data) s (c.modView k pos (fun v => { v with silentCycles := 0 }))) ∧
    (b.parked = true → 4 ≤ b.wakeSeen → let n := 1 + c.freeNow % 2
      Yields (.bridgeNandPowered k pos) s (({ c with freeCount := c.freeCount + 1 } : Chip).modBridge k pos (fun b => { b with
        parked := false, nandOff := false, wakeSeen := 0, contending := some (n, 1), slotUsed := n }) |>.emit (.strWake k n pos 1))) ∧
    (b.parked = false ∨ b.wakeSeen < 4 → Yields (.bridgeNandPowered k pos) s c) ∧
    (∀ s2 r d hdr, hdr.dst = c.att ∨ hdr.dst = 15 →
      (hdr.verifies pos 6 (wakeBytes pos r d) = false → Yields (.bridgeWake k s2 pos r d hdr) s
        ((c.bump (R.ISF_STR_CNT_TAG_TAG k) 1).strEvent 0x24A k pos 0 0)) ∧
      (hdr.verifies pos 6 (wakeBytes pos r d) = true →
        (g.beaconing = false → Yields (.bridgeWake k s2 pos r d hdr) s c) ∧
        (g.beaconing = true →
          (r = 2 ∨ r = 4 → Yields (.bridgeWake k s2 pos r d hdr) s (((c.cack k pos s2).strEvent 0x245 k pos d r).wantEnrol k pos)) ∧
          (r ∉ [1, 2, 4] → Yields (.bridgeWake k s2 pos r d hdr) s ((c.cack k pos s2).strEvent 0x245 k pos d r)) ∧
          (∀ sh, r = 1 → ((c.cack k pos s2).strEvent 0x245 k pos d 1).shelfAt k pos = some sh → Yields (.bridgeWake k s2 pos r d hdr) s
            ((((c.cack k pos s2).strEvent 0x245 k pos d 1).modShelf sh
              (fun x => if x.wakeAt.isSome && x.state = 1 then { x with state := 2 } else x)).wantEnrol k pos))))) ∧
    (b.present = true → c.get (R.ISF_STR_STATUS_STATE k) = 0 → b.toneAt.any (fun t => decide (c.now < t + 10000000000)) = false →
      Yields (.bridgeWakeTone k pos) s ((c.modBridge k pos (fun b => { b with toneAt := some c.now })).emit (.strTone k))) ∧
    (b.present = false ∨ c.get (R.ISF_STR_STATUS_STATE k) ≠ 0 → Yields (.bridgeWakeTone k pos) s c)

/-- R386 to R389, R394 to R400, R412, R589. -/
def Obligations.StringLossAndPeerLinkAct : Prop :=
  ∀ s : State, s.chip.awake = true →
    let c := s.chip
    let z := c.zbl
    (∀ k pos, k < 16 → pos < 8 →
      let v := c.view k pos
      (v.state ≠ 3 ∨ v.silentCycles < 64 → Yields (.bridgeLost k pos) s c) ∧
      (v.state = 3 → 64 ≤ v.silentCycles →
        let d := (c.dropView k pos 0).strEvent 0x246 k pos 0 0
        (d.shelfAt k pos = none → Yields (.bridgeLost k pos) s d) ∧
        (∀ sh, d.shelfAt k pos = some sh → Yields (.bridgeLost k pos) s (d.leaveService sh).wakeProgress))) ∧
    (∀ k, k < 16 →
      let fresh := c.trainedOn k = true ∧ c.now < (c.strg k).lastBeaconAt + 1000000000
      (c.get (R.ISF_STR_STATUS_STATE k) = 5 ∨ fresh → Yields (.stringOutOfService k) s c) ∧
      (c.get (R.ISF_STR_STATUS_STATE k) ≠ 5 → ¬ fresh →
        let d := (c.modStrg k (fun x => { x with outAt := some c.now, grants := [], nextGrants := [] })).set (R.ISF_STR_STATUS_STATE k) 5
        Yields (.stringOutOfService k) s ((d.topology.filter (fun e => e.2.str == k)).foldl (fun d e => d.leaveService e.1) d).wakeProgress) ∧
      ((c.strg k).outAt = none → ∀ ok, Yields (.stringRetrainRetry k ok) s c) ∧
      (∀ t, (c.strg k).outAt = some t →
        (c.now < t + 10000000000 → ∀ ok, Yields (.stringRetrainRetry k ok) s c) ∧
        (t + 10000000000 ≤ c.now →
          Yields (.stringRetrainRetry k false) s (c.modStrg k (fun x => { x with outAt := some c.now })) ∧
          Yields (.stringRetrainRetry k true) s
            (let d := (c.modStrg k (fun x => { x with
               outAt := none, lastBeaconAt := c.now, trained := x.trained.filter (· != c.att) ++ [c.att] })).strUp k
             (d.topology.filter (fun e => e.2.str == k)).foldl (fun d e =>
               if (d.view k e.2.pos).state = 3 then d.modShelf e.1 (fun x => { x with state := 2 }) else d) d))) ∧
      (Served s → Completes (.isfStrCntClr k) s (fun d =>
        (∀ f ∈ isfCounters k, d.get f = 0) ∧ RegsSame c d (isfCounters k) ∧ d = { c with regs := d.regs }))) ∧
    (∀ lane, c.bit R.ZBL_STATUS_QUADS (lane / 4) = false → Yields (.laneFailed lane) s c) ∧
    (∀ lane, c.bit R.ZBL_STATUS_QUADS (lane / 4) = true →
      let q := clearBit (c.get R.ZBL_STATUS_QUADS) (lane / 4)
      Yields (.laneFailed lane) s (((({ c with zbl := { z with failedQuads := z.failedQuads.filter (· != lane / 4) ++ [lane / 4] } } : Chip).bump
        R.ZBL_CNT_REWIDTH_REWIDTH 1).emit (.peerRewidth q)).setQuads q)) ∧
    (∀ q, c.get R.ZBL_STATUS_QUADS ≠ 0 →
      (q % 16 = c.get R.ZBL_STATUS_QUADS → Yields (.rewidth q) s (c.emit (.peerRewidth (q % 16)))) ∧
      (q % 16 ≠ c.get R.ZBL_STATUS_QUADS → Yields (.rewidth q) s
        (((c.emit (.peerRewidth (q % 16))).bump R.ZBL_CNT_REWIDTH_REWIDTH 1).setQuads (q % 16)))) ∧
    (∀ k, Yields (.quadRetrain k false) s c) ∧
    (∀ k, z.failedQuads.contains k = true → c.get R.ZBL_STATUS_QUADS ≠ 0 →
      let q := setBit (c.get R.ZBL_STATUS_QUADS) k
      Yields (.quadRetrain k true) s (((({ c with zbl := { z with failedQuads := z.failedQuads.filter (· != k) } } : Chip).bump
        R.ZBL_CNT_REWIDTH_REWIDTH 1).emit (.peerRewidth q)).setQuads q)) ∧
    (c.mayLink = false ∨ c.linkUp = true → (∀ q a n tk rk, Yields (.zblBringup q a n tk rk) s c) ∧ Yields .zblWakeToneSend s c) ∧
    (c.mayLink = true → c.linkUp = false →
      (∀ q a n tk rk, q % 16 = 0 → Yields (.zblBringup q a n tk rk) s (({ c with zbl := { z with training := true } } : Chip).set R.ZBL_STATUS_STATE 1)) ∧
      (∀ q a n tk rk, q % 16 ≠ 0 → a = false ∨ n % 256 = 0 → Yields (.zblBringup q a n tk rk) s (c.refusePeer 6 0x280)) ∧
      (∀ q n tk rk, q % 16 ≠ 0 → n % 256 ≠ 0 →
        let d := c.breakSession
        let d : Chip := { d with zbl := { d.zbl with
          session := n % 256, txKey := tk, rxKey := rk, training := false, helloSent := true, nextOpid := 1, rxOpid := 0, requests := []
          failedQuads := (List.range 4).filter (fun i => !bitOf q i), lastHbRx := d.now, lastHbTx := 0, hbTxAt := 0 } }
        let d := d.setAll [(R.ZBL_STATUS_QUADS, q), (R.ZBL_STATUS_STATE, 2)]
        Yields (.zblBringup q true n tk rk) s (d.peerSend 0 0 (.hello d.helloOf))) ∧
      (z.training = false → z.lastTone = 0 ∨ z.lastTone + 1000000 ≤ c.now → Yields .zblWakeToneSend s
        { c with zbl := { z with lastTone := c.now }, out := .peerTone :: c.out }) ∧
      (z.training = true ∨ z.lastTone ≠ 0 ∧ c.now < z.lastTone + 1000000 → Yields .zblWakeToneSend s c)) ∧
    (let due := c.pwr.dayAt + c.get R.ZBL_CTRL_ALONE_S * 1000000000
     (c.isDay = false ∨ c.usesLinks = false ∨ z.state ≠ .alone ∨ c.now < due → Yields .aloneTimeout s c) ∧
     (c.isDay = true → c.usesLinks = true → z.state = .alone → due ≤ c.now →
       (c.peerPresent = false ∨ c.pos ≠ 1 → Yields .aloneTimeout s ((c.takeStrings 0xFFFF true).allGranules).soleNow) ∧
       (c.peerPresent = true → c.pos = 1 → Yields .aloneTimeout s c.yieldNow))) ∧
    (c.linkUp = false ∨ z.lapsed = true ∨ z.hbTxAt ≠ 0 ∧ c.now < z.hbTxAt + 50000 → Yields .heartbeatSend s c) ∧
    (c.linkUp = true → z.lapsed = false → z.hbTxAt = 0 ∨ z.hbTxAt + 50000 ≤ c.now →
      let d := ({ c with zbl := { z with hbTxAt := c.now } } : Chip).stepTxc
      Yields .heartbeatSend s (d.emit (.peerHb d.zbl.txc d.now d.zbl.lastHbTx d.zbl.lastHbRx d.hbState
        (d.peerWire none 0 false false (.hb d.now d.zbl.lastHbTx d.zbl.lastHbRx d.hbState))))) ∧
    Yields .watchdogLapse s c.ownFault ∧
    (∀ ch,
      let x := c.zch ch
      let due := x.sentAt + c.get R.ZBL_TIMERS_RETX_US * 1000
      (c.linkUp = false ∨ x.unacked = [] ∨ c.now < due → Yields (.zblRetxTimeout ch) s c) ∧
      (c.linkUp = true → x.unacked ≠ [] → due ≤ c.now →
        (x.unacked.any (fun f => decide (8 ≤ f.sends)) = true → Yields (.zblRetxTimeout ch) s c.breakSession) ∧
        (x.unacked.any (fun f => decide (8 ≤ f.sends)) = false → Yields (.zblRetxTimeout ch) s (c.resend ch)))) ∧
    (∀ opid, z.requests.find? (fun r => r.opid == opid) = none → Yields (.opRetryTimeout opid) s c) ∧
    (∀ opid r, z.requests.find? (fun r => r.opid == opid) = some r →
      let due := r.sentAt + c.get R.ZBL_TIMERS_OP_TMO_US * 1000
      (c.linkUp = false ∨ c.now < due → Yields (.opRetryTimeout opid) s c) ∧
      (c.linkUp = true → due ≤ c.now → Yields (.opRetryTimeout opid) s
        (({ c with zbl := { z with
          requests := modifyFirst (fun x => x.opid == opid) (fun x => { x with sentAt := c.now }) z.requests } } : Chip).peerSend 1 opid r.msg)))

/-- R391, R393, R394, R406 to R409, R412, R413, R415, R417. -/
def Obligations.PeerFramesAreReceived : Prop :=
  (∀ (c : Chip) (h : PeerHdr) (m : PeerMsg) (f : Chip → Chip),
    let counted := (c.bump R.ZBL_CNT_CORR_CORR h.corrected).bump R.ZBL_CNT_UNCORR_UNCORR h.uncorrectable
    let genuine := h.session = counted.zbl.session ∧ counted.zbl.rxTxc < h.txc ∧
      h.trailer = trailerOf (m.wire counted.zbl.rxKey h.session h.src h.seq h.ack h.opid h.txc h.retx h.replay)
    let moved : Chip := { counted with zbl := { counted.zbl with rxTxc := h.txc } }
    let acked := match h.ack with
      | some a => moved.takeAck m.ch a true
      | none => moved
    let x := acked.zch m.ch
    let back := (x.expect + 2 ^ 32 - h.seq) % 2 ^ 32
    (c.linkUp = false ∨ c.awake = false → c.receive h m f = c) ∧
    (c.linkUp = true → c.awake = true →
      (h.uncorrectable ≠ 0 → c.receive h m f = counted) ∧
      (h.uncorrectable = 0 → ¬ genuine → c.receive h m f = counted.bump R.ZBL_CNT_TAG_TAG 1) ∧
      (h.uncorrectable = 0 → genuine →
        (m.seqd = false → c.receive h m f = f (acked.bump R.ZBL_CNT_RX_RX 1)) ∧
        (m.seqd = true →
          (back = 0 → c.receive h m f = f ((acked.modZch m.ch (fun x => { x with
            expect := (x.expect + 1) % 2 ^ 32, ackOwed := true, nakSent := none })).bump R.ZBL_CNT_RX_RX 1)) ∧
          (1 ≤ back → back ≤ 2 ^ 31 → c.receive h m f = (acked.bump R.ZBL_CNT_DUP_DUP 1).sendAck 0) ∧
          (2 ^ 31 < back → x.nakSent = some x.expect → c.receive h m f = acked) ∧
          (2 ^ 31 < back → x.nakSent ≠ some x.expect → c.receive h m f =
            ((acked.modZch m.ch (fun y => { y with nakSent := some x.expect })).bump R.ZBL_CNT_NAK_NAK 1).sendAck (2 ^ m.ch)))))) ∧
  (∀ (s : State) (h : PeerHdr), s.chip.awake = true →
    let c := s.chip
    (∀ msg, Yields (.hello h msg) s (c.receive h (.hello msg) (fun d => d.takeHello msg))) ∧
    (∀ tx etx erx (st : HbState), Yields (.heartbeatReceive h tx etx erx st) s (c.receive h (.hb tx etx erx st) (fun d =>
      let ofs := (((erx : Int) - etx) - ((d.now : Int) - tx)) / 2
      let g := (d.set R.GLB_PEER_TIME_OFS_OFS (ofInt64 ofs)).set R.GLB_STATUS_PEER_UP 1
      let g : Chip := { g with zbl := { g.zbl with lastHbTx := tx, lastHbRx := d.now, peerHb := some st } }
      g.sleepSteps.takeAwake st.awake))) ∧
    (∀ acks wins nak, Yields (.zblAck h acks wins nak) s (c.receive h (.ack acks wins nak) (fun d =>
      let d := (List.range 3).foldl (fun d i => d.modZch i (fun x => { x with win := wins.getD i x.win })) d
      let d := (List.range 3).foldl (fun d i => match acks[i]? with
        | some a => d.takeAck i a false
        | none => d) d
      (bitsSet nak 3).foldl (fun d i => d.resendOrBreak i) d))) ∧
    (∀ t, Yields (.hostDown h t) s (c.receive h (.notice 1 0 t) (fun d => if d.peerIn then
      { d with nvm := { d.nvm with anaDue := some (d.epoch + 1, [(d.homeGroup, 1), (3 - d.homeGroup, 1)]) } } else d))) ∧
    (∀ t, Yields (.hostUp h t) s (c.receive h (.notice 2 0 t) (fun d => if d.peerIn then
      { d with nvm := { d.nvm with anaDue := some (d.epoch + 1, [(d.homeGroup, 1), (3 - d.homeGroup, 2)]) } } else d))) ∧
    (∀ strs t, Yields (.pfail h strs t) s (c.receive h (.notice 3 strs t) (fun d =>
      (({ d with zbl := { d.zbl with pfailSeen := true } } : Chip).powerFailSchedule).takeStrings
        (maskOf ((bitsSet strs 16).filter (fun k => (d.catPos k).isNone))) false))) ∧
    (∀ strs t, Yields (.depart h strs t) s (c.receive h (.notice 4 strs t) (fun d =>
      if d.zbl.state = .inService then
        let g := (d.takePeersShare).takeStrings strs false
        ({ g with zbl := { g.zbl with departed := true }, ing := { g.ing with
          peerVaultSuperseded := g.ing.peerVaultSuperseded || d.zbl.pfailSeen } } : Chip).breakSession.soleNow
      else d))) ∧
    (∀ t, Yields (.peerYield h t) s (c.receive h (.notice 5 0 t) (fun d => if d.zbl.state = .inService then d.takeOver else d))) ∧
    (∀ t e shift, Yields (.mnSync h t e shift) s (c.receive h (.mnSync t e shift) (fun d =>
      if d.timekeeper then d else (d.set R.ZBL_MSYNC_LAST_SHIFT (ofInt64 shift)).moveBoundary t e))) ∧
    (∀ rsn e image body, Yields (.recCopy h rsn e image body) s (c.receive h (.recImage image) (fun d =>
      d.modEpoch e (fun x => { x with recs := x.recs ++ [(rsn, body)], image := x.image ++ image })))) ∧
    (∀ e n last dig eff, Yields (.mnClose h e n last dig eff) s (c.receive h (.mnClose e n last dig eff) (fun d =>
      let x := d.epochEx e
      if x.recs.length = n ∧ beNat (sha256 x.image) = dig then
        (d.modEpoch e (fun x => { x with effective := eff, confirmSent := true })).peerSend 1 0 (.mnConfirm e dig)
      else if x.mismatches = 0 then d.modEpoch e (fun x => { x with recs := [], image := [], mismatches := 1 })
      else d.breakSession))) ∧
    (∀ e dig, Yields (.mnConfirm h e dig) s (c.receive h (.mnConfirm e dig) (fun d =>
      d.modEpoch e (fun x => if x.closeSent && x.sentDigest = dig then { x with confirmed := true } else x)))))

/-- R287, R395, R396, R401 to R403, R414, R420. -/
def Obligations.AgreementsAreMade : Prop :=
  ∀ (s : State) (h : PeerHdr), s.chip.awake = true →
    let c := s.chip
    (∀ p t, Yields (.propose h p t) s (c.request h (.propose p t) (proposalOk p) (.answer .stale) (.answer .malformed) (fun d =>
      match d.rival p with
      | none => d.answerPeer h.opid p t
      | some a => if d.peerWins a.body p then (d.lose a).answerPeer h.opid p t else d.peerReply h.opid (.answer (.refuse 1))))) ∧
    (∃ f : AnswerRes → Chip → Chip, (∀ res, Yields (.answer h res) s (c.receive h (.answer res) (f res))) ∧
      ∀ d : Chip,
        let g := d.dropRequest h.opid
        (∀ res, g.zbl.proposals.find? (fun a => a.opid == h.opid && !a.committed) = none → f res d = g) ∧
        (∀ a, g.zbl.proposals.find? (fun a => a.opid == h.opid && !a.committed) = some a →
          (g.now ≤ a.at_ + 5000000 → f .accept d =
            (let l := modifyFirst (fun (x : Agreement) => x.opid == a.opid) (fun x => { x with accepted := true, committed := true }) g.zbl.proposals
             (({ g with zbl := { g.zbl with proposals := l } } : Chip).peerAsk (.commit a.opid (kindOf a.body))).applyOwn a)) ∧
          (a.at_ + 5000000 < g.now → f .accept d = g) ∧
          (∀ r, f (.refuse r) d = g.failProposal a (some r)) ∧
          f .stale d = g.failProposal a none ∧ f .malformed d = g.failProposal a none)) ∧
    (∀ p kind, Yields (.commit h p kind) s (c.request h (.commit p kind) true (.done p 0xFF) (.done p 0xFE) (fun d =>
      match d.zbl.accepted.find? (fun a => a.opid == p && kindOf a.body == kind) with
      | none => d.peerReply h.opid (.done p 0xFE)
      | some a => ((({ d with zbl := { d.zbl with accepted := d.zbl.accepted.filter (fun x => x.opid != p) } } : Chip).applyPeer p a.body).peerReply
        h.opid (.done p 0))))) ∧
    (∃ f : Nat → Chip → Chip, (∀ p st, Yields (.doneMsg h p st) s (c.receive h (.done p st) (f p))) ∧
      ∀ (d : Chip) p,
        let g := d.dropRequest h.opid
        (g.zbl.proposals.find? (fun a => a.opid == p && a.committed) = none → f p d = g) ∧
        (∀ a, g.zbl.proposals.find? (fun a => a.opid == p && a.committed) = some a →
          (∀ k, a.body = .keyErase k → f p d = (g.dropProposal p).keyOpDone p) ∧
          (∀ k q, a.body = .owner k q → q ≠ (g.dropProposal p).pos → (g.dropProposal p).ownsStr k = true →
            f p d = (g.dropProposal p).modStrg k (fun x => { x with releaseIn := 3 })))) ∧
    (∀ opid, c.zbl.proposals.find? (fun a => a.opid == opid && !a.committed) = none → Yields (.proposalLapse opid) s c) ∧
    (∀ opid a, c.zbl.proposals.find? (fun a => a.opid == opid && !a.committed) = some a →
      (a.at_ + 5000000 ≤ c.now → Yields (.proposalLapse opid) s (c.failProposal a none)) ∧
      (c.now < a.at_ + 5000000 → Yields (.proposalLapse opid) s c)) ∧
    (∀ opid, Yields (.acceptedProposalDiscard opid) s { c with zbl := { c.zbl with
      accepted := c.zbl.accepted.filter (fun a => !(a.opid == opid && decide (a.at_ + 10000000 ≤ c.now))) } }) ∧
    (∀ what n ten sh, what < 3 → n ≤ (if what = 2 then 16 else 64) → ten < 1024 → sh < 128 →
      Yields (.lease h (.request what n ten sh)) s (c.request h (.lease (.request what n ten sh)) true (.lease (.response 0xFF [])) (.lease (.response 0xFE [])) (fun d =>
        let l := if what = 0 then d.grantGranules n else if what = 1 then d.grantReserve n ten else d.grantBands n sh
        (d.lend what sh l).peerReply h.opid (.lease (.response 0 l))))) ∧
    (∃ f : Nat → List Nat → Chip → Chip, (∀ st l, Yields (.lease h (.response st l)) s (c.receive h (.lease (.response st l)) (f st l))) ∧
      ∀ (d : Chip) st l,
        (d.zbl.requests.find? (fun r => r.opid == h.opid) = none → f st l d = d) ∧
        (∀ r what n ten sh, d.zbl.requests.find? (fun r => r.opid == h.opid) = some r → r.msg = .lease (.request what n ten sh) →
          let g := d.dropRequest h.opid
          let g : Chip := if what = 0 then { g with zbl := { g.zbl with leaseOut := false } } else g
          f 0 l d = g.borrow what sh l ∧ (st ≠ 0 → f st l d = g))) ∧
    (∀ nsid slba n, 1 ≤ n → n ≤ 512 →
      Yields (.mapwalk h (.request nsid slba n)) s (c.request h (.walk (.request nsid slba n)) true (.walk (.response 0xFF [])) (.walk (.response 0xFE [])) (fun d =>
        if (d.nsOf nsid).present then
          d.peerReply h.opid (.walk (.response 0 ((joinWalk ((upFrom slba n).map (fun b => d.walkBlock nsid b))).take 173)))
        else d.peerReply h.opid (.walk (.response 1 []))))) ∧
    (∃ f : Nat → List WalkEntry → Chip → Chip,
      (∀ st es, Yields (.mapwalk h (.response st es)) s (c.receive h (.walk (.response st es)) (f st es))) ∧
      ∀ (d : Chip) st es,
        (d.zbl.requests.find? (fun r => r.opid == h.opid) = none → f st es d = d) ∧
        (∀ q nsid slba n r, d.zbl.requests.find? (fun r => r.opid == h.opid) = some q → q.msg = .walk (.request nsid slba n) →
          let g := d.dropRequest h.opid
          g.ing.reads.find? (fun r => r.walking && r.nsid == nsid && r.slba + r.srcs.length == slba) = some r →
          let rest : Chip := { g with ing := { g.ing with reads := g.ing.reads.filter (fun x => x.id != r.id) } }
          let got := g.walked nsid slba n es
          (st ≠ 0 ∨ got = [] → f st es d = rest.resolveHere { r with srcs := r.srcs ++ [] }) ∧
          (got ≠ [] → ({ r with srcs := r.srcs ++ got } : ReadCmd).walking = false → f 0 es d = rest.beginRead { r with srcs := r.srcs ++ got }))) ∧
    (∀ last items, Yields (.stateMsg h (.request last items)) s
      (c.request h (.state (.request last items)) (items.all itemOk) (.state (.response 0xFF)) (.state (.response 0xFE)) (fun d =>
        let d := items.foldl (fun d i => d.adopt i) d
        ({ d with zbl := { d.zbl with rejoin := d.zbl.rejoin.map (fun (r : Rejoin) => { r with stateDone := r.stateDone || last }) } } :
          Chip).peerReply h.opid (.state (.response 0))))) ∧
    (∀ st, Yields (.stateMsg h (.response st)) s (c.receive h (.state (.response st)) (fun d =>
      let d := d.dropRequest h.opid
      if st = 0 then { d with zbl := { d.zbl with rejoin := d.zbl.rejoin.map (fun (r : Rejoin) => { r with stateDone := true }) } }
      else if st = 1 then d.refuseReadmission else d))) ∧
    (∀ d : Chip,
      ((∃ r, d.zbl.rejoin = some r ∧ r.survivor = true ∧ r.admitted = false) →
        d.refuseReadmission = { d.endJoining.set R.ZBL_STATUS_REFUSED 1 with
          zbl := { (d.endJoining.set R.ZBL_STATUS_REFUSED 1).zbl with retryAt := (d.endJoining.set R.ZBL_STATUS_REFUSED 1).now + 10000000000 } }) ∧
      ((∀ r, d.zbl.rejoin = some r → r.survivor = false ∨ r.admitted = true) → d.refuseReadmission = d))

/-- R393, R398, R404 to R409, R416 to R422. -/
def Obligations.MirrorAndTakeoverAct : Prop :=
  ∀ s : State, s.chip.awake = true →
    let c := s.chip
    let z := c.zbl
    (∃ f : Nat → Nat → List Byte → Chip → Chip,
      (∀ h wid ofs data, Yields (.mirrorData h wid ofs data) s (c.receive h (.mirrorData wid ofs data) (f wid ofs data))) ∧
      ∀ wid ofs data (d : Chip),
        let n := data.length
        (d.zbl.total * 0x400000 < ofs + n → f wid ofs data d = d) ∧
        (ofs + n ≤ d.zbl.total * 0x400000 →
          let base := d.wbBase + ofs
          let g := (d.store base data).modGranule (ofs / 0x400000) (fun g => { g with used := max g.used (ofs % 0x400000 + n), live := g.live + n })
          let g : Chip := { g with ing := { g.ing with peerUsed := g.ing.peerUsed + n } }
          (∀ w, g.wr wid = some w → f wid ofs data d = g.modWr wid (fun w => { w with base := min w.base base, bytes := w.bytes + n })) ∧
          (g.wr wid = none → ∃ w : WrBuf, f wid ofs data d = { g with ing := { g.ing with writes := g.ing.writes ++ [w] } } ∧
            w.wid = wid ∧ w.own = false ∧ w.base = base ∧ w.bytes = n ∧ w.arrived = false ∧ w.completed = none))) ∧
    (∃ f : Nat → Nat → Nat → Nat → Nat → Nat → Chip → Chip,
      (∀ h wid ten nsid slba nlb len, Yields (.mirrorEnd h wid ten nsid slba nlb len) s (c.receive h (.mirrorEnd wid ten nsid slba nlb len) (f wid ten nsid slba nlb len))) ∧
      ∀ wid ten nsid slba nlb (d : Chip),
        let n := d.nsOf nsid
        let seq := d.ing.postSeq + 1
        f wid ten nsid slba nlb (nlb * 4096) d = ({ d with ing := { d.ing with postSeq := seq } } : Chip).modWr wid (fun w => if w.own then w else
          { w with fn := ten, nsid := nsid, slba := slba, nlb := nlb, metaBytes := 0, mbase := w.base + w.bytes, ext := n.ext
                   pr := ⟨true, 0, slba, 0, 0⟩, cls := n.cls, keyGen := (d.slot n.keySlot).gen, arrived := true, passed := true
                   mirrored := true, completed := some seq, pieces := piecesOf slba nlb })) ∧
    (∀ h wid, Yields (.mirrorDrop h wid) s (c.receive h (.mirrorDrop wid) (fun d => if (d.wr wid).any (fun w => !w.own) then d.releaseWrite wid else d))) ∧
    (c.inService = true → c.boundaryAt c.nextEpoch ≤ c.now → Yields .epochBoundary s (c.openEpoch c.nextEpoch)) ∧
    (c.inService = false ∨ c.now < c.boundaryAt c.nextEpoch → Yields .epochBoundary s c) ∧
    (∀ e, z.epochs.find? (fun x => x.epoch == e) = none → Yields (.midnightComplete e) s c) ∧
    (∀ e x, z.epochs.find? (fun x => x.epoch == e) = some x →
      (c.mayComplete_ x = true → Yields (.midnightComplete e) s (c.completeMn e)) ∧
      (c.mayComplete_ x = false → Yields (.midnightComplete e) s c)) ∧
    (c.inService = false ∨ c.msync = false ∨ c.timekeeper = false → Yields .midnightSyncEdge s c) ∧
    (c.inService = true → c.msync = true → c.timekeeper = true → z.msyncUsedEpoch = some c.epoch →
      Yields .midnightSyncEdge s (c.bump R.ZBL_CNT_MSYNC_IGN_MSYNC_IGN 1)) ∧
    (c.inService = true → c.msync = true → c.timekeeper = true → z.msyncUsedEpoch ≠ some c.epoch →
      let te := c.now + 100000
      let n := c.nextEpoch
      let near := [(c.epoch, c.get R.ZBL_ANCHOR_TIME), (n, c.boundaryAt n), (n + 1, c.boundaryAt (n + 1))]
      let dist := fun (p : Nat × Nat) => (te - p.2) + (p.2 - te)
      ∀ b ∈ near, (∀ p ∈ near, p = b ∨ dist b < dist p) →
        (2000000 < dist b → Yields .midnightSyncEdge s (c.bump R.ZBL_CNT_MSYNC_IGN_MSYNC_IGN 1)) ∧
        (dist b ≤ 2000000 →
          let shift : Int := (te : Int) - b.2
          let m := if te ≤ b.2 then (te, b.1) else (te + c.epochNs, if b.1 = c.epoch then n else b.1 + 1)
          let d := ((({ c with zbl := { z with msyncUsedEpoch := some c.epoch } } : Chip).set R.ZBL_MSYNC_LAST_SHIFT (ofInt64 shift)).moveBoundary m.1 m.2)
          (c.paired = false → Yields .midnightSyncEdge s d) ∧
          (c.paired = true → Yields .midnightSyncEdge s (d.peerSend 0 0 (.mnSync m.1 m.2 shift))))) ∧
    (c.silent = false ∨ z.lapsed = true → Yields .peerSilent s c) ∧
    (c.silent = true → z.lapsed = false →
      (z.state = .inService → z.pfailSeen = true ∨ c.peerPresent = false ∨ c.pos = 0 → Yields .peerSilent s c.takeOver) ∧
      (z.state = .inService → z.pfailSeen = false → c.peerPresent = true → c.pos ≠ 0 → Yields .peerSilent s c.yieldNow) ∧
      (z.state = .joining ∨ z.state = .sole → Yields .peerSilent s c.endJoining) ∧
      (z.state ≠ .inService → z.state ≠ .joining → z.state ≠ .sole → Yields .peerSilent s (c.set R.GLB_STATUS_PEER_UP 0))) ∧
    (let done := ((List.range 16).filter c.trainedOn).all c.fenced = true
     (z.fencing = false ∨ ¬ done → Yields .fenceComplete s c) ∧
     (z.fencing = true → done → Yields .fenceComplete s
       ({ c.set R.ZBL_STATUS_LOST 1 with ing := { c.ing with peerVaultSuperseded := true } } : Chip).soleNow)) ∧
    (c.mayLink = false ∨ c.linkUp = true ∨ z.retryAt = 0 ∨ c.now < z.retryAt → Yields .bringupRetry s c) ∧
    (c.mayLink = true → c.linkUp = false → z.retryAt ≠ 0 → z.retryAt ≤ c.now →
      let wait := if z.state = .yielded ∧ c.on R.ZBL_STATUS_REFUSED = false then 1000000000 else 10000000000
      Yields .bringupRetry s ({ c with zbl := { z with retryAt := c.now + wait } } : Chip).trainPeer) ∧
    (c.mayLink = true → c.linkUp = false → z.training = true → Yields .zblTrainingRestart s c.trainPeer) ∧
    (c.mayLink = false ∨ c.linkUp = true ∨ z.training = false → Yields .zblTrainingRestart s c) ∧
    (∀ ch, c.linkUp = true → (c.zch ch).ackOwed = true → Yields (.standaloneAck ch) s (c.sendAck 0)) ∧
    (∀ ch, c.linkUp = false ∨ (c.zch ch).ackOwed = false → Yields (.standaloneAck ch) s c) ∧
    (Served s → Completes .zblCntClr s (fun d => (∀ f ∈ zblCounters, d.get f = 0) ∧ RegsSame c d zblCounters ∧ d = { c with regs := d.regs }))

/-- Table 13-13 and its CTL requests: R158, R163 to R165, R444 to R446, R449. -/
def Obligations.WorkItemsAct : Prop :=
  ∀ (s : State) (n e : Nat), s.chip.awake = true → n < 24 → e < 8 →
    let c := s.chip
    let k := engKey n e
    let g := c.engAt k
    (∀ i, Yields (.workItemDelivery n e i) s (c.giveItem n e i)) ∧
    (∀ i : WorkItem,
      let u := c.ungate n
      let t := u.stageItem i
      let w : Chip := { t with sec := { t.sec with waiting := t.sec.waiting.filter (fun x => x.workId != i.workId) } }
      (u.servesItem n i = false ∨ u.itemReady i = false → c.giveItem n e i = u.keepItem i) ∧
      (u.servesItem n i = true → u.itemReady i = true → (u.engAt k).state = .waiting → c.giveItem n e i = t.takeItem k i) ∧
      (u.servesItem n i = true → u.itemReady i = true → (u.engAt k).state = .running ∨ (u.engAt k).state = .stalled →
        ((u.engAt k).queued = none → c.giveItem n e i = w.modEng k (fun x => { x with queued := some i, queuedAt := w.now })) ∧
        ((u.engAt k).queued ≠ none → c.giveItem n e i = t.keepItem i))) ∧
    (∀ toN toE, toN < 24 → toE < 8 →
      (g.queued = none → Yields (.workItemTimeout n e toN toE) s c) ∧
      (∀ i, g.queued = some i →
        (c.now < g.queuedAt + 1000000 ∨ c.servesItem toN i = false ∨ (c.engAt (engKey toN toE)).state ≠ .waiting →
          Yields (.workItemTimeout n e toN toE) s c) ∧
        (g.queuedAt + 1000000 ≤ c.now → c.servesItem toN i = true → (c.engAt (engKey toN toE)).state = .waiting →
          Yields (.workItemTimeout n e toN toE) s ((c.modEng k (fun x => { x with queued := none })).takeItem (engKey toN toE) i))) ∧
      (∀ (d : Chip) i, d.elsewhere n toN i = true ↔ toN ≠ n ∨ ∀ m, m < 24 → m ≠ n → d.servesItem m i = false) ∧
      (g.state ≠ .faulted ∨ (c.clusAt n).state ≠ .inService → Yields (.engineFaultRecovery n e toN toE) s c) ∧
      (g.state = .faulted → (c.clusAt n).state = .inService →
        let d := (c.event 0x0C0 k g.faultEpc g.faultCause 0 0).cancelJobs k
        let times := (d.now :: (d.clusAt n).faultTimes).filter (fun t => decide (d.now < t + 1000000000))
        let d := d.modClus n (fun cl => { cl with faultTimes := times })
        let d := ((g.queued.elim d (fun i => d.keepItem i)).modEng k (fun x => { x with queued := none })).dropItem k
        let d := g.item.elim d (fun i => if d.sec.waiting.any (fun x => x.workId == i.workId) && d.elsewhere n toN i then d.giveItem toN toE i else d)
        (16 ≤ times.length → Yields (.engineFaultRecovery n e toN toE) s (d.failCluster n).checkPools) ∧
        (times.length < 16 → d.program g.progId = none → Yields (.engineFaultRecovery n e toN toE) s (d.failCluster n).checkPools) ∧
        (times.length < 16 → ∀ p, d.program g.progId = some p →
          Yields (.engineFaultRecovery n e toN toE) s ((d.loadProgram k p).modEng k (fun x => { x with state := .running }))))) ∧
    (∀ (op work : Nat) (body : List (Nat × Nat × Nat)) (kinds : List Nat) (f : Chip → WorkItem → Option (Chip × List Byte)) (d : Chip),
      let x := d.engAt k
      (d.ctlJob k op work body = none → d.ctl n e op work body kinds f = d) ∧
      (∀ j, d.ctlJob k op work body = some j →
        let denied := d.ctlReply k j statusDenied []
        (x.item = none → d.ctl n e op work body kinds f = denied) ∧
        (∀ i, x.item = some i →
          (i.workId ≠ work ∨ x.doneSent = true ∨ i.kind ∉ kinds → d.ctl n e op work body kinds f = denied) ∧
          (i.workId = work → x.doneSent = false → i.kind ∈ kinds →
            (f d i = none → d.ctl n e op work body kinds f = denied) ∧
            (∀ y r, f d i = some (y, r) → d.ctl n e op work body kinds f = y.ctlReply k j 0 r))))) ∧
    (∃ f : Nat → Nat → Nat → Chip → WorkItem → Option (Chip × List Byte),
      (∀ work sct sc failing, Yields (.ctlDone n e work sct sc failing) s
        (c.ctl n e 1 work [(16, 2, sct % 8 * 256 + sc % 256), (18, 4, failing)] [1, 2, 3, 4, 5, 6] (f sct sc failing))) ∧
      ∀ sct sc failing (d : Chip) (i : WorkItem),
        let ready := i.kind = 4 → ∀ r, d.itemRead i = some r → d.readReady r = true
        (tableStatus (sct % 8) (sc % 256) = none ∨ ¬ ready → f sct sc failing d i = none) ∧
        (∀ st, tableStatus (sct % 8) (sc % 256) = some st → ready →
          f sct sc failing d i = some ((d.modEng k (fun x => { x with doneSent := true })).itemDone i st failing, []))) ∧
    (∃ f : Nat → Nat → Bool → Nat → Chip → WorkItem → Option (Chip × List Byte),
      (∀ work lba blocks dup loc, Yields (.ctlChunk n e work lba blocks dup loc) s
        (c.ctl n e 2 work [(16, 8, lba), (24, 1, blocks), (25, 1, flag dup), (32, 8, loc)] [1, 6] (f lba blocks dup loc))) ∧
      ∀ lba blocks dup loc (d : Chip) (i : WorkItem),
        let found := d.ing.chunks.find? (fun k => k.nsid == i.nsid && k.slba == lba && k.blocks == blocks)
        (found = none → f lba blocks dup loc d i = none) ∧
        (∀ x, found = some x →
          (x.answer = .undecided → f lba blocks false loc d i = some ((d.modChunk x.id (fun k => { k with answer := .unique })).settle, []) ∧
            f lba blocks true loc d i = none) ∧
          (x.answer = .unique → f lba blocks false loc d i = some (d, []) ∧ f lba blocks true loc d i = none) ∧
          (∀ l src, x.answer = .duplicate l src → f lba blocks false loc d i = none ∧ f lba blocks true l d i = some (d, []) ∧
            (loc ≠ l → inflightChunk l = none → f lba blocks true loc d i = none)))) ∧
    (∃ f : Nat → Nat → Nat → Chip → WorkItem → Option (Chip × List Byte),
      (∀ work lba blocks loc, Yields (.ctlPacked n e work lba blocks loc) s
        (c.ctl n e 3 work [(16, 8, lba), (24, 1, blocks), (32, 8, loc)] [2] (f lba blocks loc))) ∧
      ∀ lba blocks loc (d : Chip) (i : WorkItem),
        (d.ing.chunks.find? (fun k => k.nsid == i.nsid && k.slba == lba && k.blocks == blocks && k.packed.isNone && k.answer == .unique) = none →
          f lba blocks loc d i = none) ∧
        (d.ing.stripes.find? (fun s => s.seid == locSeid loc && s.cohort == locCohort loc && s.cls == i.cls) = none → f lba blocks loc d i = none) ∧
        (∀ ch os ent j addr,
          d.ing.chunks.find? (fun k => k.nsid == i.nsid && k.slba == lba && k.blocks == blocks && k.packed.isNone && k.answer == .unique) = some ch →
          d.ing.stripes.find? (fun s => s.seid == locSeid loc && s.cohort == locCohort loc && s.cls == i.cls) = some os →
          d.openEnt os = some ent → d.recordPlace os ent loc = some (j, addr) →
          let h := d.load addr 64
          let stored := bsNat h 12 4
          let bytes := ceilDiv (64 + stored) 64 * 64
          let ofs := 64 * locOfs loc
          let size := (d.layoutOf os.cls).extent
          let fits := j = os.extent ∧ os.used ≤ ofs ∨ j = os.extent + 1 ∧ size < os.used + bytes
          let good := bsNat h 0 2 = 0x4B43 ∧ bsNat h 3 1 = blocks ∧ bsNat h 6 2 = (d.nsOf i.nsid).keySlot ∧
            (bsNat h 2 1 = 0 ∨ bitOf (d.layoutOf os.cls).opts 0 = true) ∧ ent.cohort = locCohort loc ∧ ofs + bytes ≤ size
          let last := j + 1 = os.extents ∧ ofs + bytes = size
          (¬ (good ∧ fits) → f lba blocks loc d i = none) ∧
          (good → fits →
            let a := if j = os.extent then d.zeroFill (os.bufs.getD j 0) os.used ofs else (d.fillExtent os).zeroFill (os.bufs.getD j 0) 0 ofs
            let a := a.zeroFill addr (64 + stored) bytes
            let stripes := modifyFirst (fun (s : OpenStripe) => s.seid == os.seid && s.cohort == os.cohort)
              (fun s => { s with extent := j, used := ofs + bytes, firstAt := s.firstAt.orElse (fun _ => some a.now) }) a.ing.stripes
            let fl := modifyFirst (fun (x : InFlight) => x.chunk == ch.id && !x.programmed)
              (fun x => { x with epoch := bsNat h 48 6, keySlot := bsNat h 6 2 }) a.dd.inflight
            let a : Chip := { a with ing := { a.ing with stripes := stripes }, dd := { a.dd with inflight := fl } }
            let rec_ : RecEnt := { strip := j, ofs := locOfs loc, bytes := bytes / 64, live := 1, fp := ch.fp, dom := ch.dom, blocks := blocks }
            let a := a.modStripe ent.cohort ent.seid (fun s => { s with live := s.live + bytes / 64, recs := s.recs ++ [rec_] })
            let a := a.modChunk ch.id (fun k => { k with packed := some (loc, os.seid) })
            (¬ last → f lba blocks loc d i = some (a, [])) ∧
            (last → f lba blocks loc d i = some (a.sealStripe { os with extent := j, used := size } os.extents, []))))) ∧
    (∀ work cls os (d : Chip),
      c.ing.stripes.find? (fun s => s.cls == cls && !s.shadow) = some os ∧ d = c ∨
        c.ing.stripes.find? (fun s => s.cls == cls && !s.shadow) = none ∧ c.openStripe cls = some (d, os) →
      Yields (.ctlOpen n e work cls) s (d.ctl n e 4 work [(16, 1, cls)] [2] (fun _ i =>
        if i.cls != cls then none
        else match i.windows[(i.args.headD 0#8).toNat]? with
          | some win => some (d.store win.base (os.bufs.flatMap (fun a => natLe a 8)), natLe os.seid 4)
          | none => some (d, natLe os.seid 4)))) ∧
    (∀ work cls i, c.ing.stripes.find? (fun s => s.cls == cls && !s.shadow) = none → c.openStripe cls = none →
      g.item = some i → i.workId = work → i.kind = 2 → i.cls = cls → g.doneSent = false → Yields (.ctlOpen n e work cls) s c) ∧
    (∀ work seid strips, Yields (.ctlSealed n e work seid strips) s (c.ctl n e 5 work [(16, 4, seid), (20, 2, strips)] [2, 5] (fun d i =>
      (d.ing.stripes.find? (fun s => s.seid == seid && s.cls == i.cls && !s.shadow)).bind (fun os =>
        if os.strips ≤ strips ∧ strips ≤ os.extents then some (d.sealStripe os strips, []) else none)))) ∧
    (∀ work code a0 a1 a2 a3, Yields (.ctlEvent n e work code a0 a1 a2 a3) s (c.ctl n e 6 work
      [(16, 2, code), (18, 8, a0), (26, 8, a1), (34, 8, a2), (42, 8, a3)] [1, 2, 3, 4, 5, 6] (fun d _ =>
      if (eventSeverity code).isSome then some (d.event code k a0 a1 a2 a3, []) else none)))

/-- Table 14-5, R457 to R473. -/
def Obligations.DmaCommandsAct : Prop :=
  ∀ s : State,
    let c := s.chip
    (∀ ch byHost, ch < 32 → (if byHost then Served s else s.chip.awake = true) →
      let x := c.chan ch
      let allowed := byHost = false ∨ hostOwned ch = true
      let stop := c.on R.DMA_STATUS_BUS_STOP
      let refuse := c.set (R.DMA_CH_STATUS_REFUSED ch) 1
      (¬ allowed →
        (Yields (.dmaStart ch byHost) s (c.event 0x014 3 (R.DMA_CH_CMD_CMD ch).addr 0 ch 0)) ∧
        (Yields (.dmaPause ch byHost) s (c.event 0x014 3 (R.DMA_CH_CMD_CMD ch).addr 0 ch 0)) ∧
        (Yields (.dmaResume ch byHost) s (c.event 0x014 3 (R.DMA_CH_CMD_CMD ch).addr 0 ch 0)) ∧
        (Yields (.dmaAbort ch byHost) s (c.event 0x014 3 (R.DMA_CH_CMD_CMD ch).addr 0 ch 0)) ∧
        (Yields (.dmaDoorbell ch byHost) s (c.event 0x014 3 (R.DMA_CH_DOORBELL_RING ch).addr 0 ch 0))) ∧
      (allowed → x.state = .running → x.bursting = true →
        Yields (.dmaStart ch byHost) s (c.modChan ch (fun x => { x with later := x.later ++ [1] })) ∧
        Yields (.dmaPause ch byHost) s (c.modChan ch (fun x => { x with later := x.later ++ [2] })) ∧
        Yields (.dmaResume ch byHost) s (c.modChan ch (fun x => { x with later := x.later ++ [3] })) ∧
        Yields (.dmaAbort ch byHost) s (c.modChan ch (fun x => { x with later := x.later ++ [4] }))) ∧
      (allowed → x.state ≠ .running ∨ x.bursting = false →
        (x.state ≠ .idle ∧ x.state ≠ .error ∨ stop = true → Yields (.dmaStart ch byHost) s refuse) ∧
        (x.state = .idle ∨ x.state = .error → stop = false →
          let head := c.get (R.DMA_CH_HEAD_HEAD ch)
          let space := c.get (R.DMA_CH_CTRL_CHAIN_SPACE ch)
          let d := c.modChan ch (fun x => { x with diffStop := false, cur := head, space := space, desc := none, moved := 0, remain := 0 })
          (head % 64 ≠ 0 ∨ d.chanMay ch space head 64 = false → Yields (.dmaStart ch byHost) s
            (((d.modChan ch (fun x => { x with state := .error })).set (R.DMA_CH_STATUS_RESULT ch) 0x04).chanErr ch)) ∧
          (head % 64 = 0 → d.chanMay ch space head 64 = true → Yields (.dmaStart ch byHost) s (d.chanRead ch .fetching))) ∧
        (x.state ∈ [.running, .waitReq, .waitLink, .waitDesc] →
          Yields (.dmaPause ch byHost) s (c.modChan ch (fun y => { y with state := .paused, left := x.state }))) ∧
        (x.state ∉ [.running, .waitReq, .waitLink, .waitDesc] → Yields (.dmaPause ch byHost) s refuse) ∧
        (x.state ∈ [.paused, .stopped] → stop = false → Yields (.dmaResume ch byHost) s (c.chanReturn ch)) ∧
        (x.state ∉ [.paused, .stopped] ∨ stop = true → Yields (.dmaResume ch byHost) s refuse) ∧
        (x.state = .idle → Yields (.dmaAbort ch byHost) s refuse) ∧
        (x.state ≠ .idle → Yields (.dmaAbort ch byHost) s
          (((if x.inDesc && x.state != .stopped then c.endDesc ch 0x0A 0 x.moved noDiff else c).chanDropReads ch).modChan ch
            (fun x => { x with state := .idle, desc := none, later := [] })))) ∧
      (allowed →
        (let d := c.modChan ch (fun x => { x with dbPending := true })
         ((d.chan ch).owes = true → stop = false → Yields (.dmaDoorbell ch byHost) s (d.chanReread ch)) ∧
         ((d.chan ch).owes = false ∨ stop = true → Yields (.dmaDoorbell ch byHost) s d)))) ∧
    (Served s → c.on R.DMA_STATUS_BUS_STOP = true → Yields .busStopClear s c.clearBusStop) ∧
    (Served s → c.on R.DMA_STATUS_BUS_STOP = false → Yields .busStopClear s c) ∧
    (c.awake = true →
      (c.on R.DMA_STATUS_BUS_STOP = true → c.dma.stopAt + 10000000 ≤ c.now → Yields .busStopTimeout s c.clearBusStop) ∧
      (c.on R.DMA_STATUS_BUS_STOP = false ∨ c.now < c.dma.stopAt + 10000000 → Yields .busStopTimeout s c)) ∧
    (Served s → ∀ (low : Option Word32) (high : Word32),
      let f := R.DMA_HWIN_LEN_LEN
      let len := high.toNat * 0x100000000 + (low.elim (c.lowHalf f) (fun w => w.toNat))
      let base := c.get R.DMA_HWIN_BASE_BASE
      let ok := len % 0x200000 = 0 ∧ base % 0x200000 = 0 ∧
        (len = 0 ∨ ∃ r ∈ c.carve 6, r.base ≤ base ∧ base + len ≤ r.base + r.size)
      let d : Chip := { c with regs := { c.regs with held := Sparse.set none c.regs.held f.addr none } }
      (ok → Yields (.hwinLenWrite low high) s { d.set f len with dma := { c.dma with hwBase := base, hwLen := len } }) ∧
      (¬ ok → Yields (.hwinLenWrite low high) s ((d.set R.DMA_HWIN_BASE_BASE c.dma.hwBase).invalidEncoding f len))) ∧
    (Served s → Completes .dmaCntClr s (fun d => (∀ f ∈ dmaCounters, d.get f = 0) ∧ RegsSame c d dmaCounters ∧ d = { c with regs := d.regs }))

/-- R459 to R471. -/
def Obligations.DmaTransfersAct : Prop :=
  ∀ (s : State) (ch : Nat), s.chip.awake = true → ch < 32 →
    let c := s.chip
    let x := c.chan ch
    (let fetched := x.state = .running ∧ x.phase = .fetching ∧ x.has x.space .descriptor = true ∧ c.chanHeld ch = false
     let bs := c.load (if x.space = 1 then c.chanBuf ch .descriptor else x.cur) 64
     let u := c.modChan ch (fun x => { x with got := [] })
     let bad := x.space = 0 ∧ c.poisonedAt x.cur 64 = true
     (¬ fetched → Yields (.descriptorReadReply ch) s c) ∧
     (fetched → bad → Yields (.descriptorReadReply ch) s (c.busError ch 3 0 x.cur 0)) ∧
     (fetched → ¬ bad →
        (bitOf (bs.getD 0x30 0).toNat 0 = true →
          (x.dbPending = true → Yields (.descriptorReadReply ch) s (u.chanReread ch)) ∧
          (x.dbPending = false → Yields (.descriptorReadReply ch) s (u.modChan ch (fun x => { x with state := .waitDesc })))) ∧
        (bitOf (bs.getD 0x30 0).toNat 0 = false →
          let t := parseDesc bs
          let d := u.modChan ch (fun x => { x with phase := .moving, desc := some t, moved := 0, half := false, remain := t.len })
          (d.checkDesc ch t ≠ 0 → Yields (.descriptorReadReply ch) s (d.descError ch (d.checkDesc ch t) 0)) ∧
          (d.checkDesc ch t = 0 → t.paced = true →
            Yields (.descriptorReadReply ch) s (d.modChan ch (fun x => { x with state := .waitReq }))) ∧
          (d.checkDesc ch t = 0 → t.paced = false → Yields (.descriptorReadReply ch) s d)))) ∧
    (let linked := x.state = .running ∧ x.phase = .linking ∧ x.has x.space .link = true ∧ c.chanHeld ch = false
     let w := c.loadNat (if x.space = 1 then c.chanBuf ch .link else x.cur + 0x28) 8
     let u := c.modChan ch (fun x => { x with got := [] })
     let bad := x.space = 0 ∧ c.poisonedAt (x.cur + 0x28) 8 = true
     (¬ linked → Yields (.linkReadReply ch) s c) ∧
     (linked → bad → Yields (.linkReadReply ch) s (c.busError ch 3 0 (x.cur + 0x28) 0)) ∧
     (linked → ¬ bad →
        (bitOf w 0 = true → u.chanFollows ch x.space (w / 64 * 64) = true → Yields (.linkReadReply ch) s
          ((u.modChan ch (fun x => { x with cur := w / 64 * 64 })).chanRead ch .fetching)) ∧
        (bitOf w 0 = true → u.chanFollows ch x.space (w / 64 * 64) = false → Yields (.linkReadReply ch) s
          ((((u.putSpace x.space (x.cur + 0x31) (natLe 0x04 1)).set (R.DMA_CH_STATUS_RESULT ch) 0x04).chanErr ch).modChan ch
            (fun x => { x with state := .error, desc := none }))) ∧
        (bitOf w 0 = false → x.dbPending = true → Yields (.linkReadReply ch) s (u.chanReread ch)) ∧
        (bitOf w 0 = false → x.dbPending = false → Yields (.linkReadReply ch) s (u.modChan ch (fun x => { x with state := .waitLink }))))) ∧
    (c.chanBusy ch 1 = none → Yields (.dmaCopy ch) s c) ∧
    (∀ t, c.chanBusy ch 1 = some t →
      let n := x.burstLen t
      let u := c.served ch
      (t.srcSpace = 1 → ChRead.source ∈ x.got → Yields (.dmaCopy ch) s (u.burst ch t (u.load (c.chanBuf ch .source) n))) ∧
      (t.srcSpace = 1 → ChRead.source ∉ x.got → Yields (.dmaCopy ch) s (u.chanHostRead ch .source (t.src + x.moved) n)) ∧
      (∀ a, t.srcSpace ≠ 1 → u.chanPoison ch t = some a → Yields (.dmaCopy ch) s (u.busError ch 3 0 a x.moved)) ∧
      (t.srcSpace ≠ 1 → u.chanPoison ch t = none → Yields (.dmaCopy ch) s (u.burst ch t (u.load (t.src + x.moved) n)))) ∧
    (c.chanBusy ch 2 = none → Yields (.dmaFill ch) s c) ∧
    (∀ t, c.chanBusy ch 2 = some t → Yields (.dmaFill ch) s
      ((c.served ch).burst ch t ((upFrom x.moved (x.burstLen t)).map (fun i => (natLe t.src 8).getD (i % 8) 0)))) ∧
    (c.chanBusy ch 3 = none → Yields (.dmaCompare ch) s c) ∧
    (∀ t, c.chanBusy ch 3 = some t →
      let n := x.burstLen t
      let u := c.served ch
      let hasA := x.has t.srcSpace .source = true
      let hasB := x.has t.dstSpace .second = true
      (¬ hasA → hasB → Yields (.dmaCompare ch) s (u.chanHostRead ch .source (t.src + x.moved) n)) ∧
      (hasA → ¬ hasB → Yields (.dmaCompare ch) s (u.chanHostRead ch .second (t.dst + x.moved) n)) ∧
      (¬ hasA → ¬ hasB → Yields (.dmaCompare ch) s
        ((u.chanHostRead ch .source (t.src + x.moved) n).chanHostRead ch .second (t.dst + x.moved) n)) ∧
      (∀ a, hasA → hasB → u.chanPoison ch t = some a → Yields (.dmaCompare ch) s (u.busError ch 3 0 a x.moved)) ∧
      (hasA → hasB → u.chanPoison ch t = none →
        let a := u.chanBytes ch t.srcSpace (t.src + x.moved) n .source
        let b := u.chanBytes ch t.dstSpace (t.dst + x.moved) n .second
        let u := u.modChan ch (fun x => { x with got := [] })
        (∀ ofs, firstDiff a b x.moved = some ofs →
          let done := min t.len ((ofs / 64 + 1) * 64)
          let d := u.chanMoved ch (done - x.moved)
          (bitOf t.flags 2 = true → Yields (.dmaCompare ch) s ((((d.endDesc ch 0 0 done ofs).modChan ch
            (fun x => { x with diffStop := true, state := .idle, desc := none })).chanErr ch).burstEnds ch)) ∧
          (bitOf t.flags 2 = false → Yields (.dmaCompare ch) s ((d.descDone ch 0 done ofs).burstEnds ch))) ∧
        (firstDiff a b x.moved = none →
          (x.moved + n = t.len → Yields (.dmaCompare ch) s (((u.chanMoved ch n).descDone ch 1 t.len noDiff).burstEnds ch)) ∧
          (x.moved + n ≠ t.len → Yields (.dmaCompare ch) s ((u.chanMoved ch n).burstEnds ch))))) ∧
    (∀ src, x.desc = none ∨ c.chanHeld ch = true ∨ c.on R.DMA_STATUS_BUS_STOP = true → Yields (.pacedBurst ch src) s c) ∧
    (∀ t, x.desc = some t → ∀ src,
      let n := x.burstLen t
      let bs := if t.line = 0 then c.exportBytes n EvRecord.bytes
        else if t.srcSpace = 2 then src.take n else c.chanBytes ch t.srcSpace (t.src + x.moved) n .source
      let starts := x.state = .waitReq ∧ c.lineReady t.line n = true ∧ bs.length = n
      let again := x.state = .running ∧ x.phase = .moving ∧ x.out = []
      let ask := fun (d : Chip) => (d.modChan ch (fun x => { x with state := .running })).chanHostRead ch .source (t.src + x.moved) n
      (t.paced = false ∨ ¬ starts ∧ ¬ again → Yields (.pacedBurst ch src) s c) ∧
      (t.paced = true → c.chanHeld ch = false → c.on R.DMA_STATUS_BUS_STOP = false →
        (starts → x.has t.srcSpace .source = true → Yields (.pacedBurst ch src) s ((c.consumeLine t.line n).sound ch t (·.burst ch t bs))) ∧
        (starts → x.has t.srcSpace .source = false → Yields (.pacedBurst ch src) s (ask (c.consumeLine t.line n))) ∧
        (again → x.has t.srcSpace .source = true → Yields (.pacedBurst ch src) s (c.sound ch t (·.burst ch t bs))) ∧
        (again → x.has t.srcSpace .source = false → Yields (.pacedBurst ch src) s (ask c)))) ∧
    (c.get R.DMA_PACE_TICK_TICK = 0 → Yields .paceTick s c) ∧
    (c.get R.DMA_PACE_TICK_TICK ≠ 0 → Yields .paceTick s { c with dma := { c.dma with tickHeld := true } }) ∧
    (∀ kind space addr done, (∀ why, kind ≠ .hostRead why) →
      (x.accessing = false → Yields (.dmaBusError ch kind space addr done) s c) ∧
      (x.accessing = true →
        let done := max x.moved (min done (x.moved + (x.desc.map x.burstLen).getD 0))
        let d := if c.on R.DMA_STATUS_BUS_STOP then c
          else { (((c.set R.DMA_BERR_CH ch).set R.DMA_BERR_KIND (busErrCode kind)).set R.DMA_BERR_SPACE space).set
            R.DMA_BERR_ADDR_ADDR addr with dma := { c.dma with stopAt := c.now } }
        let d := ((d.set R.DMA_STATUS_BUS_STOP 1).bump R.DMA_CNT_BERR_BERR 1).failChan ch done
        Yields (.dmaBusError ch kind space addr done) s
          (((d.stopOthers ch).event 0x100 ch addr (busErrCode kind) space 0).blockCause R.DMA_CTRL_ERR_IRQ_EN R.DMA_CTRL_ERR_VECTOR))) ∧
    (∀ why space addr done,
      let own := fun (y : Xfer) => match y.purpose with
        | .dmaChannel k _ => k == ch
        | _ => false
      let found := c.epc.reqs.findSome? (fun r => (c.epc.xfers.find? (fun y => y.id == r.xfer && own y)).map (fun y => (r, y)))
      (found = none → Yields (.dmaBusError ch (.hostRead why) space addr done) s c) ∧
      (∀ r y, found = some (r, y) →
        (r.tag = none ∨ why = .timeout ∧ c.now < r.sentAt + c.ctoNs 0 → Yields (.dmaBusError ch (.hostRead why) space addr done) s c) ∧
        (r.tag ≠ none → why = .timeout → r.sentAt + c.ctoNs 0 ≤ c.now →
          Yields (.dmaBusError ch (.hostRead why) space addr done) s (c.readFailed y r.addr why).sendReads) ∧
        (r.tag ≠ none → why ≠ .timeout →
          Yields (.dmaBusError ch (.hostRead why) space addr done) s (c.readFailed y r.addr why).sendReads)))

/-- R482 to R488, R494. -/
def Obligations.CacheServesAccesses : Prop :=
  ∀ s : State, s.chip.awake = true →
    let c := s.chip
    (∀ who acc a sn cr q dr sr pf,
      let r := c.regionOf a
      let line := a / 64
      let ofs := a % 64
      (c.mem.opened = false ∨ r = 0 ∨ r = 10 → Yields (.cacheAccess who acc a sn cr q dr sr pf) s c) ∧
      (c.mem.opened = true → r ≠ 0 → r ≠ 10 →
        (cachedRegion r = false →
          (∀ bs, acc = .write bs → Yields (.cacheAccess who acc a sn cr q dr sr pf) s (c.store a (bs.take (64 - ofs)))) ∧
          (∀ n, acc = .read n →
            let p := c.dramRead line dr
            Yields (.cacheAccess who acc a sn cr q dr sr pf) s
              { p.1 with mem := { p.1.mem with reply := some (p.2, c.load a (min n (64 - ofs))) } })) ∧
        (cachedRegion r = true →
          (c.lineAt line = none → Yields (.cacheAccess who acc a sn cr q dr sr pf) s (c.miss line who acc ofs sn cr q dr pf)) ∧
          (∀ l, c.lineAt line = some l →
            (c.mem.sweeping = some l.way →
              Yields (.cacheAccess who acc a sn cr q dr sr pf) s ((c.evictLine l sn cr).miss line who acc ofs [] false q dr pf)) ∧
            (c.mem.sweeping ≠ some l.way →
              (sr = .clean → Yields (.cacheAccess who acc a sn cr q dr sr pf) s ((c.hit l).serveHit l who acc ofs sn cr)) ∧
              (sr = .corrected → Yields (.cacheAccess who acc a sn cr q dr sr pf) s
                (((c.hit l).bump R.MEM_CNT_SRAM_CE_SRAM_CE 1).serveHit l who acc ofs sn cr)) ∧
              (sr = .uncorrectable → l.dirty = true → Yields (.cacheAccess who acc a sn cr q dr sr pf) s
                ((((((c.sramUe l.way).hit l).modLine line (fun x => { x with poison := true })).logUe 15 r line false).actUe r a).serveHit l who acc ofs sn cr)) ∧
              (sr = .uncorrectable → l.dirty = false →
                let d := (c.sramUe l.way).bump R.MEM_CNT_SNOOP_SNOOP l.cores.length
                Yields (.cacheAccess who acc a sn cr q dr sr pf) s
                  ((d.putSet line ((Sparse.get [] d.mem.sets (line % 98304)).filter (fun x => x.line != line))).miss line who acc ofs sn cr q dr pf))))))) ∧
    (∀ (l : CLine) who acc ofs sn cr,
      (l.dirtyElsewhere who = none → c.serveHit l who acc ofs sn cr = c.serve l.line who acc ofs) ∧
      (∀ j, l.dirtyElsewhere who = some j →
        let d := c.bump R.MEM_CNT_SNOOP_SNOOP 1
        (cr = true → c.serveHit l who acc ofs sn cr =
          { d with mem := { d.mem with snoops := d.mem.snoops ++ [⟨l.line, j, who, acc, ofs, false⟩] } }) ∧
        (cr = false → sn.find? (fun s => s.1 == j) = none →
          c.serveHit l who acc ofs sn cr = (d.modLine l.line (fun x => { x with owner := none, cores := coresLeft acc j x.cores })).serve l.line who acc ofs) ∧
        (∀ b, cr = false → sn.find? (fun s => s.1 == j) = some b →
          c.serveHit l who acc ofs sn cr =
            (d.modLine l.line (fun x => { x with
              data := patchLine b.2 64 [], dirty := true, owner := none, cores := coresLeft acc j x.cores })).serve l.line who acc ofs))) ∧
    (∀ line who ofs l, c.lineAt line = some l →
      (∀ n, coreOf who = none → c.serve line who (.read n) ofs =
        { c with mem := { c.mem with reply := some (l.poison, (l.data.drop ofs).take n) } }) ∧
      (∀ n k, coreOf who = some k →
        let d := c.modLine line (fun x => { x with cores := k :: x.cores.filter (· != k) })
        c.serve line who (.read n) ofs = { d with mem := { d.mem with reply := some (l.poison, (l.data.drop ofs).take n) } }) ∧
      (∀ bs, c.serve line who (.write bs) ofs =
        (c.bump R.MEM_CNT_SNOOP_SNOOP (l.cores.filter (fun j => coreOf who != some j)).length).modLine line (fun x => { x with
          data := patchLine x.data ofs bs, dirty := true, poison := x.poison && !(ofs == 0 && decide (64 ≤ bs.length)),
          cores := (coreOf who).toList, owner := coreOf who }))) ∧
    (∀ core line data,
      let d := c.modLine line (fun l => { l with
        data := patchLine data 64 [], dirty := true, cores := l.cores.filter (· != core),
        owner := if l.owner = some core then none else l.owner })
      (c.mem.snoops.find? (fun x => x.line == line && x.core == core && !x.answered) = none → Yields (.coreWritebackArrive core line data) s d) ∧
      (∀ x, c.mem.snoops.find? (fun x => x.line == line && x.core == core && !x.answered) = some x →
        Yields (.coreWritebackArrive core line data) s (({ d with mem := { d.mem with
          snoops := modifyFirst (fun y => y == x) (fun y => { y with answered := true }) d.mem.snoops } } : Chip).serve line x.who x.acc x.ofs))) ∧
    (∀ core line,
      (c.mem.snoops.find? (fun x => x.line == line && x.core == core && x.answered) = none → Yields (.snoopWb core line) s c) ∧
      (∀ x, c.mem.snoops.find? (fun x => x.line == line && x.core == core && x.answered) = some x → Yields (.snoopWb core line) s
        (({ c with mem := { c.mem with snoops := c.mem.snoops.erase x } } : Chip).bump R.MEM_CNT_XWB_XWB 1))) ∧
    (∀ line,
      (c.mem.evict.reverse.find? (fun e => e.line == line) = none → Yields (.evictionWriteAccepted line) s c) ∧
      (∀ e, c.mem.evict.reverse.find? (fun e => e.line == line) = some e →
        let ps := c.mem.poisoned.filter (· != line)
        Yields (.evictionWriteAccepted line) s { c with
          dram := Mem.write c.dram (line * 64) e.data
          mem := { c.mem with evict := (c.mem.evict.reverse.erase e).reverse, poisoned := if e.poison then line :: ps else ps } }))

/-- R210, R476 to R495. -/
def Obligations.MemoryIsKeptInOrder : Prop :=
  ∀ s : State,
    let c := s.chip
    Yields .dimmSupplyLoss s { c with dram := [], mem := { c.mem with
      contentKept := false, opened := false, poisoned := [], sets := [], evict := [], snoops := [] } } ∧
    (c.awake = true →
      (∀ found, c.isDay = false ∨ c.mem.opened = false → Yields (.patrolScrub found) s c) ∧
      (c.isDay = true → c.mem.opened = true →
        let a := c.mem.scrubAt
        let d : Chip := { c with mem := { c.mem with scrubAt := (a + 1) % max 1 (c.dramSize / 64) } }
        (∀ found, a ∈ c.mem.poisoned ∨ found = .clean → Yields (.patrolScrub found) s d) ∧
        (a ∉ c.mem.poisoned →
          Yields (.patrolScrub .corrected) s (d.dramCe a false) ∧ Yields (.patrolScrub .uncorrectable) s (d.dramUe a true))) ∧
      (∀ ch t, ch < 12 → Yields (.dimmTemperatureReading ch t) s
        ((c.set (R.MEM_CH_STATUS_TEMP ch) t).setFlag (R.MEM_CH_STATUS_HOT ch) (decide (85 ≤ t)))) ∧
      (∀ ch t, 12 ≤ ch → Yields (.dimmTemperatureReading ch t) s c) ∧
      (∀ ch, ch < 12 → c.ceCount ch < c.get R.MEM_CTRL_CE_LIMIT → Yields (.ceHourWindow ch) s (c.set (R.MEM_CH_STATUS_CE_HIGH ch) 0)) ∧
      (∀ ch, 12 ≤ ch ∨ c.get R.MEM_CTRL_CE_LIMIT ≤ c.ceCount ch → Yields (.ceHourWindow ch) s c) ∧
      (∀ way sn, c.mem.sweeping ≠ some way → Yields (.waySweepDone way sn) s c) ∧
      (∀ way sn, c.mem.sweeping = some way →
        let d := (c.mem.sets.flatMap (fun x => x.2.filter (fun l => l.way == way))).foldl (fun d l => d.evictLine l sn false) c
        let d : Chip := { d with mem := { d.mem with sweeping := none, sweepCmd := false } }
        let d := (d.lower R.MEM_STATUS_WAYS_ON way).setAll [(R.MEM_WAY_STATUS_ACTIVE, 0), (R.MEM_WAY_STATUS_DRAINING, 0)]
        let d := if c.mem.sweepCmd then d.wayEnd way 0 else d
        Yields (.waySweepDone way sn) s (((List.range 16).find? (fun w => d.bit R.MEM_WAY_STATUS_FAULTY w && d.bit R.MEM_STATUS_WAYS_ON w)).elim
          d (fun w => d.sweep w false))) ∧
      (c.pwr.mode ≠ .dawn ∨ c.pwr.dawnStep ≠ 3 → ∀ l ds bad, Yields (.dramTrainingDone l ds bad) s c) ∧
      (c.pwr.mode = .dawn → c.pwr.dawnStep = 3 → ∀ l ds bad,
        let up := (List.range 12).filter (fun ch => l.contains ch)
        let d := c.set R.MEM_STATUS_CH_UP (maskOf up)
        let fail := (List.range 12).filter (fun ch => !l.contains ch || !dimmOk ds ch)
        (fail ≠ [] →
          let x := fail.foldl (fun d ch => d.event 0x2C2 ch 0 0 0 0) (d.set R.MEM_STATUS_TRAIN_FAIL 1)
          Yields (.dramTrainingDone l ds bad) s (({ x with pwr := { x.pwr with dawnStep := 4 } } : Chip).enterLoaderOnly 3 0)) ∧
        (fail = [] →
          let lost := c.pwr.coldDawn = true ∨ c.mem.contentKept = false ∨ c.mem.dimms ≠ ds ∨ bad ≠ []
          let g := (ds.headD ⟨0, 0, 0⟩).gib
          let e := d.setAll [(R.MEM_INFO_CH_GIB, g), (R.MEM_INFO_RANKS, (ds.headD ⟨0, 0, 0⟩).ranks), (R.MEM_INFO_MTS, c.pwr.plan.ddr), (R.MEM_INFO_TOTAL_GIB, 12 * g)]
          let e : Chip := { e with
            pwr := { e.pwr with dawnStep := 4 }
            mem := { e.mem with gib := 12 * g, opened := true, contentKept := true, dimms := ds, selfRefresh := false } }
          (¬ lost → Yields (.dramTrainingDone l ds bad) s e) ∧
          (lost →
            let x := if e.kcf.valid.isSome then (({ e with kcf := {} } : Chip).set R.KCF_STATUS_STATE 0).set R.KCF_SERIAL_STAGED_SERIAL 0 else e
            let x : Chip := { x with dram := [], mem := { x.mem with poisoned := [] } }
            Yields (.dramTrainingDone l ds bad) s
              (((x.set R.MEM_STATUS_CONTENT_LOST 1).emptyFilter).event 0x2C4 (bad.headD 0) 0 0 0 0))))) ∧
    (∀ way byHost, way < 16 → (if byHost then Served s else c.awake = true) → (byHost = true → c.on R.GLB_STATUS_LOADER_ONLY = false) →
      let refuse := (c.set R.MEM_WAY_STATUS_REFUSED 1).refusedCommand R.MEM_WAY_CMD_CMD
      let begun := c.startOp R.MEM_WAY_RESULT_VALID
      let on := c.bit R.MEM_STATUS_WAYS_ON way
      let faulty := c.bit R.MEM_WAY_STATUS_FAULTY way
      (c.on R.MEM_WAY_STATUS_ACTIVE = true → Yields (.wayPowerDown way byHost) s refuse ∧ Yields (.wayPowerUp way byHost) s refuse) ∧
      (way ∈ c.keptWays → Yields (.wayPowerDown way byHost) s refuse) ∧
      (c.on R.MEM_WAY_STATUS_ACTIVE = false →
        (way ∉ c.keptWays →
          (faulty = true → Yields (.wayPowerDown way byHost) s (begun.wayEnd way 2)) ∧
          (faulty = false → on = false → Yields (.wayPowerDown way byHost) s (begun.wayEnd way 1)) ∧
          (faulty = false → on = true → Yields (.wayPowerDown way byHost) s (c.sweep way true))) ∧
        (faulty = true → Yields (.wayPowerUp way byHost) s (begun.wayEnd way 2)) ∧
        (faulty = false → on = true → Yields (.wayPowerUp way byHost) s (begun.wayEnd way 1)) ∧
        (faulty = false → on = false → Yields (.wayPowerUp way byHost) s ((begun.raise R.MEM_STATUS_WAYS_ON way).wayEnd way 0)))) ∧
    (∀ way byHost, 16 ≤ way → (if byHost then Served s else c.awake = true) →
      Yields (.wayPowerDown way byHost) s c ∧ Yields (.wayPowerUp way byHost) s c) ∧
    (Served s → Completes .memCntClr s (fun d => (∀ f ∈ memCounters, d.get f = 0) ∧ RegsSame c d memCounters ∧ d = { c with regs := d.regs }))

/-- R59, R498, R501 to R505, R508, R614. -/
def Obligations.DuskProceeds : Prop :=
  ∀ s : State,
    let c := s.chip
    let p := c.pwr
    let held : Chip := { c with pwr := { p with duskHeld := true } }
    let refuse := (c.set R.PWR_STATUS_REFUSED 1).refusedCommand R.PWR_CMD_CMD
    (Served s →
      (c.isDay = true → Yields .pwrDusk s (held.startOp R.PWR_RESULT_VALID).startDusk) ∧
      (c.isDay = false → Yields .pwrDusk s refuse) ∧
      (p.mode = .dusk → c.get R.PWR_STATUS_PHASE = 1 → Yields .pwrCancel s ((c.startOp R.PWR_RESULT_VALID).backToDay.pwrEnd 1)) ∧
      (p.mode = .dusk → c.get R.PWR_STATUS_PHASE = 5 → Yields .pwrCancel s
        ((({ c with pwr := { p with mode := .dawn, dawnStep := 6, cancelled := true } } : Chip).startOp R.PWR_RESULT_VALID).set R.PWR_STATUS_PHASE 0)) ∧
      (p.mode ≠ .dusk ∨ c.get R.PWR_STATUS_PHASE ∉ [1, 5] → Yields .pwrCancel s refuse)) ∧
    (c.awake = true →
      (let sec := c.get R.PWR_CTRL_HOSTLESS_S
       (c.isDay = false ∨ sec = 0 ∨ p.hostLostAt = none → Yields .hostlessTimeout s c) ∧
       (∀ t, p.hostLostAt = some t → c.isDay = true → sec ≠ 0 →
         (t + sec * 1000000000 ≤ c.now → Yields .hostlessTimeout s held.startDusk) ∧
         (c.now < t + sec * 1000000000 → Yields .hostlessTimeout s c))) ∧
      (let idle := (∀ i ∈ c.nvm.inflight, i.opc = 0x0C ∧ i.admin = true) ∧ (∀ x ∈ c.epc.xfers, match x.purpose with
        | .entryFetch .. => False
        | _ => True)
       (c.phase ≠ 1 ∨ ¬ idle ∨ c.kcfState = 6 ∨ c.kcfState = 7 → Yields .duskDrained s c) ∧
       (c.phase = 1 → idle → c.kcfState ≠ 6 → c.kcfState ≠ 7 →
         let d := c.closeSegs.ing.stripes.foldl (fun d os => d.sealStripe os os.strips) c.closeSegs
         Yields .duskDrained s (({ d with pwr := { d.pwr with duskEpoch := d.epoch } } : Chip).set R.PWR_STATUS_PHASE 2))) ∧
      (let done := (∀ w ∈ c.ing.writes, w.own = true → w.exposed = false) ∧ c.unvaulted = 0 ∧ c.closedAndDone p.duskEpoch = true
       (c.phase ≠ 2 ∨ ¬ done → Yields .duskFlushed s c) ∧
       (c.phase = 2 → done → Yields .duskFlushed s (c.set R.PWR_STATUS_PHASE 3).beginHandover)) ∧
      (c.phase ≠ 3 → Yields .duskHandedOver s c) ∧
      (c.phase = 3 →
        (c.peerIn = true → c.ownedStrings = 0 → Yields .duskHandedOver s (c.departed.set R.PWR_STATUS_PHASE 4)) ∧
        (c.peerIn = true → c.ownedStrings ≠ 0 → Yields .duskHandedOver s c.beginHandover) ∧
        (c.peerIn = false → c.get R.FTM_STATUS_AWAKE = 0 → Yields .duskHandedOver s (c.set R.PWR_STATUS_PHASE 4)) ∧
        (c.peerIn = false → c.get R.FTM_STATUS_AWAKE ≠ 0 → Yields .duskHandedOver s c.beginHandover)) ∧
      (c.phase ≠ 4 → Yields .duskClosed s c) ∧
      (c.phase = 4 →
        let d : Chip := { c with ing := { c.ing with vault := { mark := .closed } } }
        let d := ((((List.range 16).filter d.ownsStr).foldl (fun d k => d.disownString k) d).set R.PWR_STATUS_PHASE 5).pwrEnd 0
        Yields .duskClosed s (if d.epc.link = .l0 then d else d.enterNight)) ∧
      (∀ a, Yields (.i3cEntdaa a) s { c with pwr := { p with i3c := some (a % 128) } }) ∧
      (∀ t, Yields (.nightwatchSensorCheck t) s c)) ∧
    Yields .wakeNLow s (c.wake 1 0) ∧ Yields .zblWakeTone s (c.wake 2 0) ∧ (∀ k, k < 16 → Yields (.isfWakeTone k) s (c.wake 3 k)) ∧
    (p.i3c ≠ none → Yields .i3cPrivateWrite s (c.wake 5 0)) ∧ (p.i3c = none → Yields .i3cPrivateWrite s c) ∧
    (p.nwClocks = none → Yields .nightWakeTimer s c) ∧
    (∀ k x y, p.nwClocks = some (k, x, y) →
      let due := p.mode = .night ∧ k.nightWake ≠ 0 ∧ p.nightAt + k.nightWake * 1000000000 ≤ c.now
      (due → Yields .nightWakeTimer s (c.wake 4 0)) ∧ (¬ due → Yields .nightWakeTimer s c)) ∧
    (c.awake = false → ∀ t,
      let d : Chip := { c with pwr := { p with highest := t } }
      (p.wakeHeld = false ∨ t < -40 → Yields (.nightwatchSensorCheck t) s d) ∧
      (p.wakeHeld = true → -40 ≤ t → p.mode = .coldReset → Yields (.nightwatchSensorCheck t) s (d.beginDawn true)) ∧
      (p.wakeHeld = true → -40 ≤ t → p.mode ≠ .coldReset →
        let cause := c.get R.PWR_WAKE_CAUSE_CAUSE
        let own := cause / 4 ≠ 0 ∧ c.bit R.PWR_WAKE_CAUSE_CAUSE 0 = false ∧ c.bit R.PWR_WAKE_CAUSE_CAUSE 1 = false
        Yields (.nightwatchSensorCheck t) s ((({ d with epc := { d.epc with
          link := if c.epc.perstLow then .down else .training } } : Chip).driveWake (if own then 2 else 0)).beginDawn false)))

/-- R512 to R519, R547, R548, R590, R593. -/
def Obligations.ClocksHeatAndPowerAct : Prop :=
  ∀ s : State,
    let c := s.chip
    let p := c.pwr
    Yields .nightwatchSupplyLoss s { c.coldReset with pwr := { c.coldReset.pwr with pwrReq := false } } ∧
    (Served s → c.drained = true → Yields .resetWarm s c.warmReset) ∧
    (Served s → c.drained = false → Yields .resetWarm s ((c.set R.BOOT_STATUS_REFUSED 1).refusedCommand R.BOOT_CMD_CMD)) ∧
    (Served s →
      let l := [R.PWR_CNT_NIGHTS_NIGHTS, R.PWR_CNT_NIGHT_MS_NIGHT_MS, R.PWR_CNT_CAP_MS_CAP_MS, R.PWR_CNT_COHORT_WAKES_COHORT_WAKES,
        R.PWR_CNT_SHELF_TMO_SHELF_TMO, R.PWR_CNT_TRIPS_TRIPS]
      Completes .pwrCntClr s (fun d => (∀ f ∈ l, d.get f = 0) ∧ RegsSame c d l ∧ d = { c with regs := d.regs })) ∧
    (c.awake = true →
      (∀ cause alive, Yields (.headFault cause alive) s (c.headFaultWith cause alive)) ∧
      (∀ k,
        (c.domainIdle k = false → Yields (.clusterGateIdle k) s { c with pwr := { p with idleAt := p.idleAt.filter (·.1 != k) } }) ∧
        (c.domainIdle k = true → k ∈ p.gated → Yields (.clusterGateIdle k) s c) ∧
        (c.domainIdle k = true → k ∉ p.gated →
          (p.idleAt.find? (·.1 == k) = none → Yields (.clusterGateIdle k) s { c with pwr := { p with idleAt := (k, c.now) :: p.idleAt } }) ∧
          (∀ e, p.idleAt.find? (·.1 == k) = some e →
            (e.2 + c.get R.PWR_CTRL_GATE_US * 1000 ≤ c.now → Yields (.clusterGateIdle k) s { c with pwr := { p with gated := k :: p.gated } }) ∧
            (c.now < e.2 + c.get R.PWR_CTRL_GATE_US * 1000 → Yields (.clusterGateIdle k) s c)))) ∧
      Yields (.thermalSample []) s c ∧
      (∀ t rest,
        let high := rest.foldl max t
        let sensor := (t :: rest).idxOf high
        let warn := decide ((c.get R.PWR_THERM_CTRL_WARN : Int) ≤ high)
        let d := ({ c with pwr := { p with highest := high } } : Chip).setAll [(R.PWR_THERM_TEMP, (BitVec.ofInt 9 high).toNat), (R.PWR_THERM_SENSOR, sensor)]
        let d := if warn && !p.warned then d.event 0x300 sensor 0 0 0 0 else d
        let d := ((d.nvm.ctrls.map (·.1)).filter (fun fn => d.tempCrossed fn c.kelvin d.kelvin)).foldl (fun d fn => d.asyncEvent fn 1 1 2) d
        let d : Chip := { d with pwr := { d.pwr with
          warned := warn, hotSince := if 150 < high then some (d.pwr.hotSince.getD d.now) else none } }
        let stepped : Chip := { d with pwr := { d.pwr with capAt := d.now } }
        (135 < high → d.pwr.capAt + 1000000 ≤ d.now →
          Yields (.thermalSample (t :: rest)) s (stepped.setCap (capDown d.pwr.thermalCap) d.pwr.powerCap)) ∧
        (high ≤ 132 → d.pwr.capAt + 10000000 ≤ d.now →
          Yields (.thermalSample (t :: rest)) s (stepped.setCap (capUp d.pwr.thermalCap d.pwr.plan.cluster) d.pwr.powerCap)) ∧
        (132 < high ∧ high ≤ 135 ∨ 135 < high ∧ d.now < d.pwr.capAt + 1000000 ∨ high ≤ 132 ∧ d.now < d.pwr.capAt + 10000000 →
          Yields (.thermalSample (t :: rest)) s (d.setCap d.pwr.thermalCap d.pwr.powerCap))) ∧
      (p.tripped = true ∨ p.hotSince = none → Yields .thermalTrip s c) ∧
      (∀ t, p.hotSince = some t → c.now < t + 10000000 → Yields .thermalTrip s c) ∧
      (∀ t, p.hotSince = some t → t + 10000000 ≤ c.now → p.tripped = false →
        let d := c.writeNow (c.record 0x301 (c.get R.PWR_THERM_SENSOR) 0 0 0 0)
        let d : Chip := { d with pwr := { d.pwr with tripped := true } }
        Yields .thermalTrip s (if d.mayFlush then d.startFlush 2 else d.holdReset .trip true)) ∧
      (∀ w,
        let limit := c.get R.PWR_CTRL_PCAP_W
        let stepped : Chip := { c with pwr := { p with powerAt := c.now } }
        (limit = 240 → Yields (.powerEstimate w) s (c.setCap p.thermalCap 2000)) ∧
        (limit ≠ 240 →
          (limit < w → p.powerAt + 1000000 ≤ c.now → Yields (.powerEstimate w) s (stepped.setCap p.thermalCap (capDown p.powerCap))) ∧
          (w ≤ limit → w * 100 < limit * 95 → p.powerAt + 10000000 ≤ c.now →
            Yields (.powerEstimate w) s (stepped.setCap p.thermalCap (capUp p.powerCap p.plan.cluster))) ∧
          (limit < w → c.now < p.powerAt + 1000000 → Yields (.powerEstimate w) s c) ∧
          (w ≤ limit → limit * 95 ≤ w * 100 → Yields (.powerEstimate w) s c) ∧
          (w ≤ limit → c.now < p.powerAt + 10000000 → Yields (.powerEstimate w) s c))) ∧
      (∀ k, 10 ≤ k ∨ p.dawnStep < 2 ∨ c.bit R.PWR_PLL_LOCK k = true ∨ c.bit R.PWR_PLL_FAIL k = true → Yields (.pllLocked k) s c) ∧
      (∀ k, k < 10 → 2 ≤ p.dawnStep → c.bit R.PWR_PLL_LOCK k = false → c.bit R.PWR_PLL_FAIL k = false →
        Yields (.pllLocked k) s (c.raise R.PWR_PLL_LOCK k).clocksSettled.adoptIfLocked) ∧
      (∀ k, c.inService = false ∨ 10 ≤ k ∨ c.bit R.PWR_PLL_LOCK k = false → Yields (.pllLossOfLock k) s c) ∧
      (∀ k, c.inService = true → k < 10 → c.bit R.PWR_PLL_LOCK k = true →
        let d := (c.lower R.PWR_PLL_LOCK k).event 0x302 k 0 0 0 0
        (k < 2 ∨ 5 < k → Yields (.pllLossOfLock k) s d.ownFault) ∧
        (2 ≤ k → k ≤ 5 →
          let e := ((upFrom (6 * (k - 2)) 6).foldl (fun d n => if (d.clusAt n).state == .inService then (d.stopCluster n).failCluster n else d) d).checkPools
          Yields (.pllLossOfLock k) s { e with pwr := { e.pwr with
            pllAt := Sparse.set 0 e.pwr.pllAt k e.now, pllTries := Sparse.set 0 e.pwr.pllTries k 0 } })))

/-- R415, R523, R525, R529 to R533, R536, R542, R546. -/
def Obligations.TokensAreSubmitted : Prop :=
  ∀ s : State,
    let c := s.chip
    let refused := (c.set R.SEC_ROOT_STATUS_REFUSED 1).refusedCommand R.SEC_ROOT_CMD_CMD
    (Served s →
      (c.root.debug = .requested → Yields .getChallenge s refused ∧ Yields .clearMailbox s refused) ∧
      (c.root.debug ≠ .requested →
        Yields .getChallenge s (c.makeChallenge.rootResult 0 0) ∧
        Yields .clearMailbox s ((c.clearAll ((List.range 40).map R.SEC_ROOT_MAILBOX_WORD)).rootResult 0 0)) ∧
      Completes .secRootCntClr s (fun d =>
        d.get R.SEC_ROOT_CNT_TOKENS_OK_TOKENS_OK = 0 ∧ d.get R.SEC_ROOT_CNT_TOKENS_BAD_TOKENS_BAD = 0 ∧
        RegsSame c d [R.SEC_ROOT_CNT_TOKENS_OK_TOKENS_OK, R.SEC_ROOT_CNT_TOKENS_BAD_TOKENS_BAD] ∧ d = { c with regs := d.regs })) ∧
    (c.awake = true →
      (c.chalValid = true → Yields .challengeExpiry s c) ∧
      (c.chalValid = false → Yields .challengeExpiry s { c with root := { c.root with challenge := none } })) ∧
    (∀ src ok, (if src = .mailbox then Served s else c.awake = true) →
      let bs := c.tokenBytes src
      let cmd := tkCommand bs
      let challenge := if c.chalValid then c.root.challenge else none
      let d : Chip := { c with root := { c.root with challenge := none } }
      let check := d.tokenCheck bs challenge
      let t := tkTarget bs
      let arg := tkArg bs
      let rows : List (Nat × Instr) := [(1, .debugOpen src), (2, .provision src ok), (3, .deploy src ok), (4, .service src ok),
        (5, .returnToken src ok), (6, .retire src ok), (7, .fuseOwner src ok), (8, .revokeOwner src ok), (9, .trustAdd src),
        (10, .trustRemove src), (11, .revokeFwKey src ok)]
      (∀ r ∈ rows,
        (tokenForm bs = true → cmd ≠ r.1 → Yields r.2 s c) ∧
        (tokenForm bs = false ∨ cmd = r.1 →
          (c.root.debug = .requested → Yields r.2 s refused) ∧
          (c.root.debug ≠ .requested → check ≠ 0 → Yields r.2 s (d.tokenEnd bs check)))) ∧
      (c.root.debug ≠ .requested → check = 0 →
        (cmd = 2 → Yields (.provision src ok) s (d.transition bs ok (Otp.blowRow 0))) ∧
        (cmd = 3 → Yields (.deploy src ok) s
          ((({ d with cpe := { d.cpe with slots := d.cpe.slots.map (fun (x : Nat × KeySlot) => (x.1, x.2.afterReset)) } } : Chip).makeTransport).transition
            bs ok (Otp.blowRow 1))) ∧
        (cmd = 4 → Yields (.service src ok) s (d.sendDepart.transition bs ok Otp.blowService)) ∧
        (cmd = 5 → Yields (.returnToken src ok) s (d.transition bs ok Otp.blowService)) ∧
        (cmd = 6 → Yields (.retire src ok) s (d.zeroize.transition bs ok (Otp.blowRow 2))) ∧
        (cmd = 7 → Yields (.fuseOwner src ok) s ((d.blow (fun o => { o with
          ownerHash := Sparse.set 0 o.ownerHash t arg, ownerFused := setBit o.ownerFused t,
          ownerRevoked := if ok then o.ownerRevoked else setBit o.ownerRevoked t })).tokenEnd bs (if ok then 0 else 9))) ∧
        (cmd = 8 → Yields (.revokeOwner src ok) s
          ((d.blow (fun o => { o with ownerRevoked := setBit o.ownerRevoked t })).tokenEnd bs (if ok then 0 else 9))) ∧
        (cmd = 9 → Yields (.trustAdd src) s ((d.modTrust t (fun l => l ++ [arg])).tokenEnd bs 0)) ∧
        (cmd = 10 → Yields (.trustRemove src) s ((d.modTrust t (fun l => l.filter (· != arg))).tokenEnd bs 0)) ∧
        (cmd = 11 → Yields (.revokeFwKey src ok) s
          ((d.blow (fun o => { o with fwKeyRevoke := setBit o.fwKeyRevoke t })).tokenEnd bs (if ok then 0 else 9))) ∧
        (cmd = 1 →
          let z := ((d.debugState .requested).sealMono (fun m => { m with zeroizePending := true })).zeroize.stopFirmware
          (z.startFirmware = none →
            let x := (z.debugState .closed).tokenEnd bs 0
            Yields (.debugOpen src) s (x.stayInLoader 1 x.slotCheck)) ∧
          (∀ x, z.startFirmware = some x →
            let y := (x.reloadKeys.setAll [(R.KCF_STATUS_FELL_BACK, 0), (R.KCF_STATUS_NO_IMAGE, 0)]).restartImage 2
            let y := y.sealMono (fun m => { m with zeroizePending := false, opens := m.opens + 1 })
            Yields (.debugOpen src) s ((((y.debugState .opened).measureState 4).set R.GLB_STATUS_DEBUG_OPEN 1).tokenEnd bs 0)))))

/-- R69, R537 to R539. -/
def Obligations.SpdmRequestsAreAnswered : Prop :=
  ∀ (s : State) (tr : Transport), s.chip.awake = true →
    let c := s.chip
    let k := c.conn tr
    let down := c.spdmUp tr = false
    let unexpected := c.spdmReply tr (.error 4)
    let invalid := c.spdmReply tr (.error 1)
    let sig := c.freeNow
    (c.spdmReply tr .version).conn tr = { k with busy := false } ∧
    (down → (∀ b, Yields (.mctpMessage tr b) s c) ∧ Yields (.getVersion tr) s c ∧ Yields (.getCapabilities tr) s c ∧
      (∀ a b, Yields (.negotiateAlgorithms tr a b) s c) ∧ Yields (.getDigests tr) s c ∧ (∀ n o l, Yields (.getCertificate tr n o l) s c) ∧
      (∀ n m x, Yields (.spdmChallenge tr n m x) s c) ∧ (∀ i g r x, Yields (.getMeasurements tr i g r x) s c)) ∧
    (¬ down →
      (∀ r, Yields (.mctpMessage tr (.nvmeMi r)) s (c.emit (.nvmeMi tr r))) ∧
      (∀ r, k.busy = true → Yields (.mctpMessage tr (.spdm r)) s (c.emit (.spdm tr (.error 3)))) ∧
      (∀ r, k.busy = false → spdmSupported.contains (leNat ((r.drop 1).take 1)) = false → Yields (.mctpMessage tr (.spdm r)) s (c.emit (.spdm tr (.error 7)))) ∧
      (∀ r, k.busy = false → spdmSupported.contains (leNat ((r.drop 1).take 1)) = true → Yields (.mctpMessage tr (.spdm r)) s (c.modConn tr (fun x => { x with busy := true }))) ∧
      Yields (.getVersion tr) s ((c.modConn tr (fun _ => { version := true })).spdmReply tr .version) ∧
      (k.version = true → Yields (.getCapabilities tr) s ((c.modConn tr (fun x => { x with caps := true })).spdmReply tr .capabilities)) ∧
      (k.version = false → Yields (.getCapabilities tr) s unexpected) ∧
      (∀ a b, k.caps = true → Yields (.negotiateAlgorithms tr a b) s
        ((c.modConn tr (fun x => { x with algs := a && b })).spdmReply tr (.algorithms a b))) ∧
      (∀ a b, k.caps = false → Yields (.negotiateAlgorithms tr a b) s unexpected) ∧
      (k.algs = false → Yields (.getDigests tr) s unexpected ∧ (∀ n o l, Yields (.getCertificate tr n o l) s unexpected) ∧
        (∀ n m x, Yields (.spdmChallenge tr n m x) s unexpected) ∧ (∀ i g r x, Yields (.getMeasurements tr i g r x) s unexpected)) ∧
      (k.algs = true →
        Yields (.getDigests tr) s (c.spdmReply tr (.digests ((c.chain 0).map (fun b => beNat (sha384 b))) ((c.chain 1).map (fun b => beNat (sha384 b))))) ∧
        (∀ n, c.chain n = none → (∀ o l, Yields (.getCertificate tr n o l) s invalid) ∧ (∀ m x, Yields (.spdmChallenge tr n m x) s invalid)) ∧
        (∀ n b, c.chain n = some b →
          (∀ o l, b.length ≤ o → Yields (.getCertificate tr n o l) s invalid) ∧
          (∀ o l, o < b.length → Yields (.getCertificate tr n o l) s
            (c.spdmReply tr (.certificate n ((b.drop o).take l) (b.length - o - l)))) ∧
          (∀ x, Yields (.spdmChallenge tr n 0 x) s (c.useFree.spdmReply tr (.challengeAuth n 0 sig))) ∧
          (∀ m x, m ≠ 0 → Yields (.spdmChallenge tr n m x) s
            (c.useFree.spdmReply tr (.challengeAuth n (beNat (sha384 (c.measured.flatMap c.measBytes))) sig)))) ∧
        (∀ i r, c.measBlock i r = none → ∀ g x, Yields (.getMeasurements tr i g r x) s invalid) ∧
        (∀ i r l, c.measBlock i r = some l → ∀ x,
          Yields (.getMeasurements tr i true r x) s (c.useFree.spdmReply tr (.measurements l (some sig))) ∧
          Yields (.getMeasurements tr i false r x) s (c.spdmReply tr (.measurements l none)))))

/-- R529, R541, R542, R554. -/
def Obligations.JtagInstructionsAct : Prop :=
  ∀ s : State,
    let c := s.chip
    let bypass := fun l => (c.jtagSelect .bypass .functional).bypassShift l
    (c.awake = false →
      (∀ l, Yields (.jtagBypass l) s c ∧ Yields (.jtagClamp l) s c ∧ Yields (.jtagHighz l) s c) ∧ Yields .jtagIdcode s c ∧
      (∀ x y, Yields (.jtagSamplePreload x y) s c ∧ Yields (.jtagExtest x y) s c) ∧ Yields .dbgChallenge s c ∧
      (∀ b ok, Yields (.dbgToken b ok) s c) ∧ (∀ a n w, Yields (.dbgAccess a n w) s c) ∧
      (c.pwr.mode ≠ .held ∨ c.pwr.hold ≠ .rom → Yields .dbgStatus s c)) ∧
    (c.awake = true ∨ c.pwr.mode = .held ∧ c.pwr.hold = .rom →
      Yields .dbgStatus s ((c.jtagSelect .dbgStatus .functional).emit (.jtag (bitsLe c.rootResultWord 32 ++ bitsLe c.rootStatus 32)))) ∧
    (c.awake = true →
      (∀ l, Yields (.jtagBypass l) s (bypass l)) ∧
      Yields .jtagIdcode s ((c.jtagSelect .idcode .functional).emit (.jtag (bitsLe 0x20960B37 32))) ∧
      (∀ x y,
        let d := c.jtagSelect .samplePreload .functional
        Yields (.jtagSamplePreload x y) s (({ d with root := { d.root with boundary := y } } : Chip).emit (.jtag x))) ∧
      (c.lifecycle = 0 ∨ c.root.debug = .opened →
        (∀ x y,
          let d := c.jtagSelect .extest .driven
          Yields (.jtagExtest x y) s (({ d with root := { d.root with boundary := y } } : Chip).emit (.jtag x))) ∧
        (∀ l, Yields (.jtagClamp l) s ((c.jtagSelect .clamp .driven).bypassShift l)) ∧
        (∀ l, Yields (.jtagHighz l) s ((c.jtagSelect .highz .floating).bypassShift l))) ∧
      (c.lifecycle ≠ 0 → c.root.debug ≠ .opened →
        (∀ x y, Yields (.jtagExtest x y) s (bypass y)) ∧ (∀ l, Yields (.jtagClamp l) s (bypass l)) ∧ (∀ l, Yields (.jtagHighz l) s (bypass l))) ∧
      (let d := c.jtagSelect .dbgChallenge .functional
       (c.root.debug = .requested → Yields .dbgChallenge s ((d.set R.SEC_ROOT_STATUS_REFUSED 1).refusedCommand R.SEC_ROOT_CMD_CMD)) ∧
       (c.root.debug ≠ .requested →
         let x := d.makeChallenge.rootResult 0 0
         Yields .dbgChallenge s (x.emit (.jtag (bitsLe (x.root.challenge.getD 0) 256))))) ∧
      (∀ b ok,
        let d := c.jtagSelect .dbgToken .functional
        let src := TokenSrc.jtag b
        let cmd := tkCommand (d.tokenBytes src)
        (cmd = 2 → Yields (.dbgToken b ok) s (Sys2Proof.Machine.provision src ok d)) ∧
        (cmd = 3 → Yields (.dbgToken b ok) s (Sys2Proof.Machine.deploy src ok d)) ∧
        (cmd = 4 → Yields (.dbgToken b ok) s (Sys2Proof.Machine.service src ok d)) ∧
        (cmd = 5 → Yields (.dbgToken b ok) s (Sys2Proof.Machine.returnToken src ok d)) ∧
        (cmd = 6 → Yields (.dbgToken b ok) s (Sys2Proof.Machine.retire src ok d)) ∧
        (cmd = 7 → Yields (.dbgToken b ok) s (Sys2Proof.Machine.fuseOwner src ok d)) ∧
        (cmd = 8 → Yields (.dbgToken b ok) s (Sys2Proof.Machine.revokeOwner src ok d)) ∧
        (cmd = 9 → Yields (.dbgToken b ok) s (Sys2Proof.Machine.trustAdd src d)) ∧
        (cmd = 10 → Yields (.dbgToken b ok) s (Sys2Proof.Machine.trustRemove src d)) ∧
        (cmd = 11 → Yields (.dbgToken b ok) s (Sys2Proof.Machine.revokeFwKey src ok d)) ∧
        (cmd < 2 ∨ 11 < cmd → Yields (.dbgToken b ok) s (Sys2Proof.Machine.debugOpen src d))) ∧
      (∀ a n w,
        (c.root.debug = .opened → Yields (.dbgAccess a n w) s ((c.jtagSelect .dbgAccess .functional).debugAccess a n w)) ∧
        (c.root.debug ≠ .opened → Yields (.dbgAccess a n w) s (c.jtagSelect .bypass .functional))))

/-- R551, R555, R565, R567, R568, R570. -/
def Obligations.FirmwareIsConfirmedAndHealed : Prop :=
  ∀ s : State,
    let c := s.chip
    let refused := (c.set R.BOOT_STATUS_REFUSED 1).refusedCommand R.BOOT_CMD_CMD
    (Served s →
      (c.boot.running = none → Yields .bootConfirm s refused) ∧
      (c.boot.running ≠ none → c.on R.BOOT_STATUS_FW_PENDING = true → Yields .bootConfirm s (c.confirmFw.bootEnd 0)) ∧
      (c.boot.running ≠ none → c.on R.BOOT_STATUS_FW_PENDING = false → Yields .bootConfirm s (c.bootEnd 1)) ∧
      (∀ ok, c.lifecycle = 4 ∨ c.root.debug ≠ .closed → Yields (.saveBoard ok) s refused) ∧
      (c.lifecycle ≠ 4 → c.root.debug = .closed →
        (let r : BoardRecord := ⟨c.get R.BOOT_BOARD_SSVID, c.get R.BOOT_BOARD_SSID, c.get R.BOOT_BOARD_SERIAL_SERIAL⟩
         Yields (.saveBoard true) s (({ c with boot := { c.boot with boardRec := some r } } : Chip).bootEnd 0)) ∧
        Yields (.saveBoard false) s ((({ c with boot := { c.boot with boardRec := none } } : Chip).event 0x381 0 0 0 0 0).bootEnd 2)) ∧
      (let l := [R.BOOT_CNT_DAWNS_DAWNS, R.BOOT_CNT_LO_LOADER_ONLY, R.BOOT_CNT_COMMITS_COMMITS, R.BOOT_CNT_HEALS_HEALS]
       Completes .bootCntClr s (fun d => (∀ f ∈ l, d.get f = 0) ∧ RegsSame c d l ∧ d = { c with regs := d.regs }))) ∧
    (c.awake = true →
      (let sec := c.get R.BOOT_CTRL_CONFIRM_S
       let due := c.isDay = true ∧ sec ≠ 0 ∧ c.on R.BOOT_STATUS_FW_PENDING = true ∧ c.pwr.dayAt + sec * 1000000000 ≤ c.now
       (due → Yields .confirmTimeout s c.confirmFw) ∧ (¬ due → Yields .confirmTimeout s c)) ∧
      (∃ f : Nat → Nat → Bool → Chip → Chip,
        (∀ h floor awg e, Yields (.fwReq h floor awg e) s (c.receive h (.fwReq floor awg e) (f floor awg e))) ∧
        ∀ floor awg (d : Chip),
          let loader := ∃ m, d.zbl.peer = some m ∧ m.state = 5
          let may := (d.zbl.state = .sole ∨ d.zbl.state = .alone) ∧ d.on R.BOOT_CTRL_HEAL_PEER = true ∧ d.boot.fwState = 2 ∧
            d.boot.confirmed = true ∧ d.on R.GLB_STATUS_LOADER_ONLY = false
          f floor awg true d = d ∧
          (¬ (loader ∧ may) → f floor awg false d = d) ∧
          (loader → may →
            let n := d.boot.fwHeader.length
            let sent := (List.range (ceilDiv n 4096)).foldl (fun d i =>
              d.peerSend 1 0 (.fwData (4096 * i) (Mem.read d.boot.fwSlot (4096 * i) (min 4096 (n - 4096 * i))))) d
            f floor awg false d = sent.peerSend 1 0 (.fwEnd n sent.boot.fwSerial))) ∧
      (∃ f : Nat → List Byte → Chip → Chip,
        (∀ h ofs l, Yields (.fwData h ofs l) s (c.receive h (.fwData ofs l) (f ofs l))) ∧
        ∀ ofs l (d : Chip),
          (d.healing = false → f ofs l d = d) ∧
          (d.healing = true → d.boot.writer ≠ none → f ofs l d = d.endHeal) ∧
          (d.healing = true → d.boot.writer = none → 4096 < l.length ∨ 0x2000000 < ofs + l.length → f ofs l d = d) ∧
          (d.healing = true → d.boot.writer = none → l.length ≤ 4096 → ofs + l.length ≤ 0x2000000 → f ofs l d = { d with boot := { d.boot with
            healBuf := Mem.write d.boot.healBuf ofs l, healPieces := (ofs, l.length) :: d.boot.healPieces } })) ∧
      (∃ f : Nat → Nat → Chip → Chip,
        (∀ h n k, Yields (.fwEnd h n k) s (c.receive h (.fwEnd n k) (f n k))) ∧
        ∀ n k (d : Chip),
          (d.healing = false → f n k d = d) ∧
          (d.healing = true → d.boot.writer ≠ none → f n k d = d.endHeal) ∧
          (d.healing = true → d.boot.writer = none →
            let bs := Mem.read d.boot.healBuf 0 (min n 0x2000000)
            let whole := covers d.boot.healPieces n && numAt bs 8 4 == n
            let e : Chip := { d with boot := { d.boot with healBuf := [], healPieces := [] } }
            (e.checkFw bs whole = 0 → f n k d = e.beginSlotWrite .heal bs) ∧
            (e.checkFw bs whole ≠ 0 → f n k d =
              ({ e.verifyFailed (e.checkFw bs whole) 2 with boot := { e.boot with healBad := some k } } : Chip).set R.BOOT_STATUS_HEALING 0))))

/-- R575, R578, R580, R581, R587, R594. -/
def Obligations.RecorderCommandsAct : Prop :=
  ∀ s : State,
    let c := s.chip
    let refused := (c.set R.EVR_STATUS_REFUSED 1).refusedCommand R.EVR_CMD_CMD
    (c.awake = true →
      (∀ m, c.evr.transit = [] → Yields (.eventRecordArrive m) s c) ∧
      (∀ m r rest, c.evr.transit = r :: rest → Yields (.eventRecordArrive m) s
        (({ c with evr := { c.evr with transit := rest } } : Chip).admitRec r (fun d x => d.putChecked m x))) ∧
      (∀ code,
        let b := c.bucket code
        (b.stretch = false ∨ c.now < b.periodStart + 1000000000 → Yields (.suppressionPeriodEnd code) s c) ∧
        (b.stretch = true → b.periodStart + 1000000000 ≤ c.now →
          (b.suppressed = 0 → Yields (.suppressionPeriodEnd code) s (c.setBucket code { b with stretch := false })) ∧
          (b.suppressed ≠ 0 → Yields (.suppressionPeriodEnd code) s
            ((c.setBucket code { b with suppressed := 0, periodStart := b.periodStart + 1000000000 }).putRecord (b.summary code c.epoch))))) ∧
      (let due := c.on R.EVR_STATUS_FROZEN = true ∧ c.evr.freezeAt + c.get R.EVR_CTRL_FREEZE_MS * 1000000 ≤ c.now
       (due → Yields .freezeLapse s ((c.endFreeze 1).evrCause 4)) ∧ (¬ due → Yields .freezeLapse s c))) ∧
    (Served s →
      (c.on R.EVR_STATUS_FROZEN = true ∨ c.on R.EVR_STATUS_FALLBACK = true → Yields .evrFreeze s refused) ∧
      (c.on R.EVR_STATUS_FROZEN = false → c.on R.EVR_STATUS_FALLBACK = false →
        Yields .evrFreeze s { (c.set R.EVR_STATUS_FROZEN 1).startOp R.EVR_RESULT_VALID with evr := { c.evr with freezeAt := c.now } }) ∧
      (c.on R.EVR_STATUS_FROZEN = true → Yields .evrThaw s (c.endFreeze 0)) ∧
      (c.on R.EVR_STATUS_FROZEN = false → Yields .evrThaw s refused) ∧
      (c.on R.EVR_STATUS_FALLBACK = true → Yields .clearFb s refused) ∧
      (c.on R.EVR_STATUS_FALLBACK = false → Yields .clearFb s
        (((({ c.startOp R.EVR_RESULT_VALID with evr := { c.evr with fallback := [] } } : Chip).set R.EVR_FB_STATUS_COUNT 0).set R.EVR_FB_STATUS_NEXT 1).set
          R.EVR_FB_STATUS_DROPPED 0 |>.evrResult 0)) ∧
      (∀ v,
        let d := (v + areaCSize - c.get R.EVR_C_PTR_HEAD) % areaCSize
        let ok := areaC ≤ v ∧ v ≤ 65535 ∧ d ≤ c.evr.cUsed
        let moved : Chip := { (c.set R.EVR_C_PTR_HEAD v) with evr := { c.evr with cUsed := c.evr.cUsed - d } }
        (¬ ok → Yields (.evrCPtrWrite v) s (c.invalidEncoding R.EVR_C_PTR_HEAD v)) ∧
        (ok → d = 0 → Yields (.evrCPtrWrite v) s moved) ∧
        (ok → d ≠ 0 → Yields (.evrCPtrWrite v) s (moved.set R.EVR_STATUS_C_FULL 0))) ∧
      Completes .evrCntClr s (fun d => (∀ f ∈ evrCounters, d.get f = 0) ∧ RegsSame c d evrCounters ∧ d = { c with regs := d.regs }))

/-- The model's queue: a step is exec of the front command with the rest waiting. -/
def Obligations.StepRunsTheFrontCommand : Prop :=
  ∀ (c : Instr) (s : State) (rest : List Instr), step { s with pending := c :: rest } = exec c { s with pending := rest }

/-- R27, R604 and log entry 1 (the model's choice): time passes where no command waits. -/
def Obligations.IdleStepCountsTime : Prop :=
  ∀ s : State, s.pending = [] →
    (s.chip.awake = false → step s = .next s) ∧
    (s.chip.awake = true → ∃ d : Chip,
      d.get R.GLB_TIME_TIME = (s.chip.get R.GLB_TIME_TIME + 1) % 2 ^ 64 ∧ RegsSame s.chip d [R.GLB_TIME_TIME] ∧
      d = { s.chip with regs := d.regs } ∧
      (d.pwr.mode ≠ .dawn ∨ d.pwr.pwrReq = true ∨ (∃ t, d.pwr.reqFell = some t ∧ d.now < t + 2000000) → step s = .next { s with chip := d }) ∧
      (d.pwr.mode = .dawn → d.pwr.pwrReq = false → (∀ t, d.pwr.reqFell = some t → t + 2000000 ≤ d.now) →
        step s = .next { s with chip := d.raiseReq }))

/-- Table 18-1: the machine right after cold reset. -/
def Obligations.ResetIsColdReset : Prop :=
  let c := State.reset.chip
  (∀ f : Fld, c.get f = f.reset) ∧ c.now = 0 ∧ c.pwr.mode = .coldReset ∧ c.awake = false ∧ c.inService = false ∧
  Memory.wf c.dram = true ∧ (∀ a, c.byteAt a = 0#8) ∧ (∀ a, c.lineAt a = none) ∧
  c.regs.held = [] ∧ c.regs.shadow = [] ∧ State.reset.pending = [] ∧ State.reset.wellFormed

/-- The table's rows have no bits. -/
def Obligations.NoWordSpellsACommand : Prop :=
  ∀ (nbits w : Nat) (s : State), decodeTableWord nbits w = none ∧ s.withFetchWord nbits w = s

/-- R483, R484, R488: one memory as every agent sees it. -/
def Obligations.MemoryReadsWhatWasStored : Prop :=
  ∀ (c : Chip) (a : Nat) (bs : List Byte), Memory.wf c.dram = true →
    (∀ n, ∀ l ∈ Sparse.get [] c.mem.sets n, l.data.length = 64) → (∀ e ∈ c.mem.evict, e.data.length = 64) →
    let d := c.store a bs
    d.load a bs.length = bs ∧ (∀ x, x < a ∨ a + bs.length ≤ x → d.byteAt x = c.byteAt x) ∧ Memory.wf d.dram = true ∧
    (∀ n, ∀ l ∈ Sparse.get [] d.mem.sets n, l.data.length = 64) ∧ (∀ e ∈ d.mem.evict, e.data.length = 64) ∧
    d = { c with dram := d.dram, mem := d.mem }

/-- R7, R573. Every register read uses up one free value (log entry 4). -/
def Obligations.UnoccupiedAddressesReadZero : Prop :=
  (∀ (s : State) (ofs : Nat), Served s → ofs < 0x10000000 → ofs % 4 = 0 → findReg ofs = none →
    let c := s.chip
    let hit (c : Chip) (a : Nat) : Chip := c.event 0x011 (blockIndex a) a 0 0 0
    let given (d : Chip) : Chip := { d with freeCount := c.freeCount + 1, regs := { d.regs with readData := 0 } }
    Yields (.lowHalfRead .bar2 ofs 4) s (given (hit c ofs)) ∧
    (∀ v : Word64, Yields (.registerWrite .bar2 ofs 4 v) s (hit c ofs)) ∧
    (∀ v : Word32, Yields (.lowHalfWrite .bar2 ofs v) s (hit c ofs)) ∧
    (ofs % 8 = 0 → findReg (ofs + 4) = none →
      Yields (.lowHalfRead .bar2 ofs 8) s (given (hit (hit c ofs) (ofs + 4))) ∧
      ∀ v : Word64, Yields (.registerWrite .bar2 ofs 8 v) s (hit (hit c ofs) (ofs + 4)))) ∧
  (∀ ofs, 0x01100000 ≤ ofs → ofs < 0x10000000 → findReg ofs = none ∧ blockIndex ofs = 16)

/-- R28. Which 37 ticks of 64 are the longer ones is a free value (log entry 4). -/
def Obligations.SixtyFourNightTicksAddExactly : Prop :=
  (∀ (s : State) (rest : List Instr), s.chip.pwr.mode = .night → s.chip.pwr.nightTicks = 0 → s.chip.pwr.nightExtra = 0 →
    s.pending = List.replicate 64 Instr.nightwatchTick ++ rest →
    ∃ t : State, s.after 64 = some t ∧ t.chip.now = (s.chip.now + 1953125) % 2 ^ 64 ∧ t.pending = rest ∧
      t.chip.pwr.mode = .night ∧ t.chip.pwr.nightTicks = 0 ∧ t.chip.pwr.nightExtra = 0) ∧
  (∀ s : State, s.chip.pwr.mode = .night → ∃ x ≤ 1, Completes .nightwatchTick s (fun d => d.now = (s.chip.now + 30517 + x) % 2 ^ 64)) ∧
  (∀ s t : State, s.chip.pwr.mode = .night → exec .wakeNLow s = .next t → t.chip.now = s.chip.now)

/-- The model's only stop: a command that names no unit of the head (Fault.noSuchUnit). -/
def Obligations.CommandsAnswerOrNameNoUnit : Prop :=
  ∀ (c : Instr) (s : State),
    (c.wf = true → ∃ d : Chip, Yields c s d) ∧ (c.wf = false → exec c s = .fault .noSuchUnit)

/-- No stop, first in first out, one effect for each command; and the invariant that every step keeps. -/
def Obligations.WaitingCommandsActInOrder : Prop :=
  (∃ f : Instr → Chip → Chip,
    (∀ (c : Instr) (s : State), c.wf = true → Yields c s (f c s.chip)) ∧
    (∀ s : State, s.wellFormed → ∀ n, n ≤ s.pending.length →
      s.after n = some { chip := (s.pending.take n).foldl (fun d c => f c d) s.chip, pending := s.pending.drop n })) ∧
  (∀ s t : State, s.wellFormed → step s = .next t → t.wellFormed ∧ t.advances) ∧
  (∀ (s : State) (pre rest : List Instr) (c : Instr), (∀ x ∈ pre, x.wf = true) → c.wf = false → s.pending = pre ++ c :: rest →
    ∃ t, s.after pre.length = some t ∧ step t = .fault .noSuchUnit)

/-- R11, R14, R15: results of one unit, by the operations that every unit uses. -/
def Obligations.ResultsWaitToBeReleased : Prop :=
  ∀ (c : Chip) (v : Fld) (r1 r2 : List (Fld × Nat)), v ≠ R.KCF_RESULT_VALID → v ≠ R.PWR_RESULT_VALID → 1 ≤ v.width →
    c.on v = false → NoneWaits c v →
    ((r1.map (·.1.key)) ++ [v.key]).Nodup → ((r2.map (·.1.key)) ++ [v.key]).Nodup →
    let a := c.postResult v r1
    let b := a.postResult v r2
    let d := b.startOp v
    let e := d.startOp v
    a.on v = true ∧ (∀ x ∈ r1, a.get x.1 = trunc x.1.width x.2) ∧
    (∀ f, b.get f = a.get f) ∧ b = { a with regs := b.regs } ∧ ¬ NoneWaits b v ∧
    d.on v = true ∧ (∀ x ∈ r2, d.get x.1 = trunc x.1.width x.2) ∧ NoneWaits d v ∧
    e.get v = 0 ∧ (∀ x ∈ r2, e.get x.1 = d.get x.1) ∧ NoneWaits e v ∧
    (∀ f : Fld, f.key ≠ v.key → f.key ∉ r1.map (·.1.key) → f.key ∉ r2.map (·.1.key) → e.get f = c.get f) ∧
    e = { c with regs := e.regs }
end

