-- ==== Sys2Proof/Laws/Sparse.lean ====
section
/-!
SUPPORT. Laws of the sparse tables and of byte memory: a read after a write to the same key gives the value written, a write
leaves every other key alone, and every write keeps the canonical form.
-/
namespace Sys2Proof.Machine

theorem Sparse.get_erase_same {α : Type} (d : α) (l : List (Nat × α)) (k : Nat) :
    Sparse.get d (Sparse.erase l k) k = d := by
  induction l with
  | nil => rfl
  | cons e l ih =>
    by_cases h : e.1 = k
    · simpa [Sparse.erase, List.filter_cons, h] using ih
    · simpa [Sparse.erase, List.filter_cons, h, Sparse.get] using ih

theorem Sparse.get_erase_ne {α : Type} (d : α) (l : List (Nat × α)) {k j : Nat} (hj : j ≠ k) :
    Sparse.get d (Sparse.erase l k) j = Sparse.get d l j := by
  induction l with
  | nil => rfl
  | cons e l ih =>
    by_cases h : e.1 = k
    · have : e.1 ≠ j := fun q => hj (q.symm.trans h)
      simpa [Sparse.erase, List.filter_cons, h, Sparse.get, this, hj.symm] using ih
    · by_cases q : e.1 = j <;> simp_all [Sparse.erase, Sparse.get]

theorem Sparse.get_place_ne {α : Type} (d : α) (v : α) (l : List (Nat × α)) {k j : Nat} (hj : j ≠ k) :
    Sparse.get d (Sparse.place k v l) j = Sparse.get d l j := by
  induction l with
  | nil => simp [Sparse.place, Sparse.get, hj.symm]
  | cons e l ih =>
    by_cases h : k < e.1
    · simp [Sparse.place, h, Sparse.get, hj.symm]
    · simp [Sparse.place, h, Sparse.get, ih]

theorem Sparse.get_place_same {α : Type} (d : α) (v : α) (l : List (Nat × α)) (k : Nat)
    (h : ∀ e ∈ l, e.1 ≠ k) : Sparse.get d (Sparse.place k v l) k = v := by
  induction l with
  | nil => simp [Sparse.place, Sparse.get]
  | cons e l ih =>
    have he : e.1 ≠ k := h e (by simp)
    have hl : ∀ e' ∈ l, e'.1 ≠ k := fun e' m => h e' (by simp [m])
    by_cases q : k < e.1
    · simp [Sparse.place, q, Sparse.get]
    · simp [Sparse.place, q, Sparse.get, he, ih hl]

theorem Sparse.ne_of_mem_erase {α : Type} (l : List (Nat × α)) (k : Nat) : ∀ e ∈ Sparse.erase l k, e.1 ≠ k := by
  intro e h
  simp [Sparse.erase] at h
  exact h.2

theorem Sparse.get_set_same {α : Type} [DecidableEq α] (d : α) (l : List (Nat × α)) (k : Nat) (v : α) :
    Sparse.get d (Sparse.set d l k v) k = v := by
  by_cases h : v = d
  · simp [Sparse.set, h, Sparse.get_erase_same]
  · simp [Sparse.set, h, Sparse.get_place_same d v _ k (Sparse.ne_of_mem_erase l k)]

/-- The default read with need not be the one written with: register fields of one file have different reset values. -/
theorem Sparse.get_set_ne {α : Type} [DecidableEq α] (d e : α) (l : List (Nat × α)) {k j : Nat} (v : α) (hj : j ≠ k) :
    Sparse.get e (Sparse.set d l k v) j = Sparse.get e l j := by
  by_cases h : v = d
  · simp [Sparse.set, h, Sparse.get_erase_ne e l hj]
  · simp [Sparse.set, h, Sparse.get_place_ne e v _ hj, Sparse.get_erase_ne e l hj]

theorem Sparse.erase_place {α : Type} (k : Nat) (v : α) (l : List (Nat × α)) (h : ∀ e ∈ l, e.1 ≠ k) :
    Sparse.erase (Sparse.place k v l) k = l := by
  induction l with
  | nil => simp [Sparse.place, Sparse.erase]
  | cons e l ih =>
    have he : e.1 ≠ k := h e (by simp)
    have hl : ∀ e' ∈ l, e'.1 ≠ k := fun e' m => h e' (by simp [m])
    have hf : Sparse.erase l k = l := by
      simp only [Sparse.erase, List.filter_eq_self]
      intro x m; simpa using hl x m
    by_cases q : k < e.1
    · simp only [Sparse.place, q, if_true, Sparse.erase, List.filter_cons] at hf ⊢
      simp [he, hf]
    · have := ih hl
      simp only [Sparse.place, q, if_false, Sparse.erase, List.filter_cons] at this ⊢
      simp [he, this]

theorem Sparse.erase_erase {α : Type} (l : List (Nat × α)) (k : Nat) : Sparse.erase (Sparse.erase l k) k = Sparse.erase l k := by
  simp [Sparse.erase, List.filter_filter]

/-- Of two writes to one key the second counts. -/
theorem Sparse.set_set {α : Type} [DecidableEq α] (d : α) (l : List (Nat × α)) (k : Nat) (v w : α) :
    Sparse.set d (Sparse.set d l k v) k w = Sparse.set d l k w := by
  have : Sparse.erase (Sparse.set d l k v) k = Sparse.erase l k := by
    unfold Sparse.set
    split
    · exact Sparse.erase_erase l k
    · exact Sparse.erase_place k v _ (Sparse.ne_of_mem_erase l k)
  unfold Sparse.set at this ⊢
  rw [this]

/-- The canonical form as one fact about every entry and one about the order. -/
theorem Sparse.wf_iff {α : Type} [DecidableEq α] (d : α) (l : List (Nat × α)) :
    Sparse.wf d l = true ↔ (∀ e ∈ l, e.2 ≠ d) ∧ l.Pairwise (fun a b => a.1 < b.1) := by
  induction l with
  | nil => simp [Sparse.wf]
  | cons e l ih =>
    cases l with
    | nil => simp [Sparse.wf]
    | cons f l =>
      simp only [Sparse.wf, Bool.and_eq_true, decide_eq_true_eq, ih]
      simp only [List.pairwise_cons, List.mem_cons, forall_eq_or_imp]
      constructor
      · rintro ⟨⟨h1, h2⟩, ⟨h3, h4⟩, h5, h6⟩
        exact ⟨⟨h1, h3, h4⟩, ⟨h2, fun a m => Nat.lt_trans h2 (h5 a m)⟩, h5, h6⟩
      · rintro ⟨⟨h1, h3, h4⟩, ⟨h2, _⟩, h5, h6⟩
        exact ⟨⟨h1, h2⟩, ⟨h3, h4⟩, h5, h6⟩

theorem Sparse.mem_place {α : Type} {k : Nat} {v : α} {l : List (Nat × α)} {e : Nat × α} :
    e ∈ Sparse.place k v l ↔ e = (k, v) ∨ e ∈ l := by
  induction l with
  | nil => simp [Sparse.place]
  | cons f l ih =>
    by_cases h : k < f.1
    · simp [Sparse.place, h]
    · simp only [Sparse.place, h, if_false, List.mem_cons, ih]
      tauto

theorem Sparse.place_pairwise {α : Type} (k : Nat) (v : α) (l : List (Nat × α))
    (hl : l.Pairwise (fun a b => a.1 < b.1)) (hk : ∀ e ∈ l, e.1 ≠ k) :
    (Sparse.place k v l).Pairwise (fun a b => a.1 < b.1) := by
  induction l with
  | nil => simp [Sparse.place]
  | cons f l ih =>
    rw [List.pairwise_cons] at hl
    by_cases h : k < f.1
    · rw [Sparse.place, if_pos h, List.pairwise_cons, List.pairwise_cons]
      simp only [List.mem_cons, forall_eq_or_imp]
      exact ⟨⟨h, fun a m => Nat.lt_trans h (hl.1 a m)⟩, hl.1, hl.2⟩
    · simp only [Sparse.place, h, if_false, List.pairwise_cons]
      refine ⟨fun a m => ?_, ih hl.2 (fun e m => hk e (by simp [m]))⟩
      rcases Sparse.mem_place.1 m with rfl | m
      · have := hk f (by simp); simp only at *; omega
      · exact hl.1 a m

theorem Sparse.set_wf {α : Type} [DecidableEq α] (d : α) (l : List (Nat × α)) (k : Nat) (v : α)
    (h : Sparse.wf d l = true) : Sparse.wf d (Sparse.set d l k v) = true := by
  rw [Sparse.wf_iff] at h ⊢
  have he : ∀ e ∈ Sparse.erase l k, e.2 ≠ d := fun e m => h.1 e (List.mem_filter.1 m).1
  have hp : (Sparse.erase l k).Pairwise (fun a b => a.1 < b.1) := h.2.filter _
  by_cases q : v = d
  · simp only [Sparse.set, q, if_true]; exact ⟨he, hp⟩
  · simp only [Sparse.set, q, if_false]
    refine ⟨fun e m => ?_, Sparse.place_pairwise k v _ hp (Sparse.ne_of_mem_erase l k)⟩
    rcases Sparse.mem_place.1 m with rfl | m
    · exact q
    · exact he e m

theorem Sparse.modify_wf {α : Type} [DecidableEq α] (d : α) (l : List (Nat × α)) (k : Nat) (f : α → α)
    (h : Sparse.wf d l = true) : Sparse.wf d (Sparse.modify d l k f) = true := Sparse.set_wf d l k _ h

theorem Sparse.get_modify_same {α : Type} [DecidableEq α] (d : α) (l : List (Nat × α)) (k : Nat) (f : α → α) :
    Sparse.get d (Sparse.modify d l k f) k = f (Sparse.get d l k) := Sparse.get_set_same d l k _

theorem Sparse.get_modify_ne {α : Type} [DecidableEq α] (d : α) (l : List (Nat × α)) {k j : Nat} (f : α → α)
    (hj : j ≠ k) : Sparse.get d (Sparse.modify d l k f) j = Sparse.get d l j := Sparse.get_set_ne d d l _ hj

/-- The update laws of one sparse table as one `if`. -/
theorem Sparse.get_set {α : Type} [DecidableEq α] (d : α) (l : List (Nat × α)) (k j : Nat) (v : α) :
    Sparse.get d (Sparse.set d l k v) j = if j = k then v else Sparse.get d l j := by
  by_cases h : j = k
  · subst h; simp [Sparse.get_set_same]
  · simp [h, Sparse.get_set_ne d d l v h]

theorem Mem.byte_putByte_same (m : List Host.Cell) (a : Nat) (b : Byte) : Mem.byte (Mem.putByte m a b) a = b :=
  Sparse.get_set_same _ m a b

theorem Mem.byte_putByte_ne (m : List Host.Cell) {a x : Nat} (b : Byte) (h : x ≠ a) :
    Mem.byte (Mem.putByte m a b) x = Mem.byte m x := Sparse.get_set_ne _ _ m b h

theorem Mem.putByte_wf (m : List Host.Cell) (a : Nat) (b : Byte) (h : Mem.wf m = true) :
    Mem.wf (Mem.putByte m a b) = true := Sparse.set_wf _ m a b h

/-- A store keeps the canonical form of memory. -/
theorem Mem.write_wf (m : List Host.Cell) (a : Nat) (bs : List Byte) (h : Mem.wf m = true) :
    Mem.wf (Mem.write m a bs) = true := by
  induction bs generalizing m a with
  | nil => exact h
  | cons b bs ih => exact ih _ _ (Mem.putByte_wf m a b h)

/-- A store of a number keeps the canonical form of memory. -/
theorem Mem.writeNat_wf (m : List Host.Cell) (a n v : Nat) (h : Mem.wf m = true) :
    Mem.wf (Mem.writeNat m a n v) = true := Mem.write_wf m a _ h

/-- A store leaves every byte outside it alone. -/
theorem Mem.byte_write_out (m : List Host.Cell) (a : Nat) (bs : List Byte) (x : Nat)
    (h : x < a ∨ a + bs.length ≤ x) : Mem.byte (Mem.write m a bs) x = Mem.byte m x := by
  induction bs generalizing m a with
  | nil => rfl
  | cons b bs ih =>
    simp only [List.length_cons] at h
    rw [Mem.write, ih _ (a + 1) (by omega), Mem.byte_putByte_ne m b (by omega)]

/-- Each byte of a store reads as the byte stored. -/
theorem Mem.byte_write_in (m : List Host.Cell) (a : Nat) (bs : List Byte) (i : Nat) (h : i < bs.length) :
    Mem.byte (Mem.write m a bs) (a + i) = bs[i] := by
  induction bs generalizing m a i with
  | nil => simp at h
  | cons b bs ih =>
    cases i with
    | zero => simp [Mem.write, Mem.byte_write_out _ (a + 1) bs a (by omega), Mem.byte_putByte_same]
    | succ i =>
      have := ih (Mem.putByte m a b) (a + 1) i (by simpa using h)
      simpa [Mem.write, Nat.add_assoc, Nat.add_comm 1] using this

theorem Mem.read_length (m : List Host.Cell) (a n : Nat) : (Mem.read m a n).length = n := by
  induction n generalizing a with
  | zero => rfl
  | succ n ih => simp [Mem.read, ih]

/-- A read of what was just stored gives it back. -/
theorem Mem.read_write_same (m : List Host.Cell) (a : Nat) (bs : List Byte) :
    Mem.read (Mem.write m a bs) a bs.length = bs := by
  induction bs generalizing m a with
  | nil => rfl
  | cons b bs ih =>
    have h0 : Mem.byte (Mem.write (Mem.putByte m a b) (a + 1) bs) a = b := by
      rw [Mem.byte_write_out _ _ _ _ (by omega), Mem.byte_putByte_same]
    simp [Mem.read, Mem.write, h0, ih]

theorem natLe_length (v n : Nat) : (natLe v n).length = n := by
  induction n generalizing v with
  | zero => rfl
  | succ n ih => simp [natLe, ih]

/-- The little-endian bytes of a number give it back, cut to their width (R1). -/
theorem leNat_natLe (v n : Nat) : leNat (natLe v n) = v % 256 ^ n := by
  induction n generalizing v with
  | zero => simp [natLe, leNat, Nat.mod_one]
  | succ n ih =>
    simp only [natLe, leNat, ih, BitVec.toNat_ofNat]
    have h : (2 : Nat) ^ 8 = 256 := rfl
    rw [h, Nat.pow_succ, Nat.mul_comm (256 ^ n) 256, Nat.mod_mul]

/-- A number stored is read back, cut to its width (R1). -/
theorem Mem.readNat_writeNat (m : List Host.Cell) (a n v : Nat) :
    Mem.readNat (Mem.writeNat m a n v) a n = v % 256 ^ n := by
  have := Mem.read_write_same m a (natLe v n)
  rw [natLe_length] at this
  rw [Mem.readNat, Mem.writeNat, this, leNat_natLe]

end Sys2Proof.Machine
end

