-- ==== Sys2Proof/Laws/State.lean ====
section
/-!
SUPPORT. What the shared updates of the state do to each field of the chip and to each register field: one lemma per field per
update.
-/
namespace Sys2Proof.Machine

/-- A register field just written reads as the value, cut to its width. -/
theorem Chip.get_set_same (c : Chip) (f : Fld) (v : Nat) : (c.set f v).get f = trunc f.width v := by
  by_cases h : f.kept <;> simp [Chip.get, Chip.set, h, Sparse.get_set_same]

/-- Writing one register field leaves every other one alone. -/
theorem Chip.get_set_ne (c : Chip) {f g : Fld} (v : Nat) (h : g.key ≠ f.key) : (c.set f v).get g = c.get g := by
  by_cases hf : f.kept <;> by_cases hg : g.kept <;> simp [Chip.get, Chip.set, hf, hg, Sparse.get_set_ne _ _ _ _ h]

/-- Register fields are read from the register file alone. -/
theorem Chip.get_of_regs {c d : Chip} (h : d.regs = c.regs) (f : Fld) : d.get f = c.get f := by simp [Chip.get, h]

theorem Chip.on_of_regs {c d : Chip} (h : d.regs = c.regs) (f : Fld) : d.on f = c.on f := by
  simp [Chip.on, Chip.get_of_regs h]

@[simp] theorem Chip.set_evr (c : Chip) (f : Fld) (v : Nat) : (c.set f v).evr = c.evr := by
  unfold Chip.set; split <;> rfl

@[simp] theorem Chip.set_kcf (c : Chip) (f : Fld) (v : Nat) : (c.set f v).kcf = c.kcf := by
  unfold Chip.set; split <;> rfl

@[simp] theorem Chip.set_epc (c : Chip) (f : Fld) (v : Nat) : (c.set f v).epc = c.epc := by
  unfold Chip.set; split <;> rfl

@[simp] theorem Chip.set_nvm (c : Chip) (f : Fld) (v : Nat) : (c.set f v).nvm = c.nvm := by
  unfold Chip.set; split <;> rfl

@[simp] theorem Chip.set_boot (c : Chip) (f : Fld) (v : Nat) : (c.set f v).boot = c.boot := by
  unfold Chip.set; split <;> rfl

@[simp] theorem Chip.set_pwr (c : Chip) (f : Fld) (v : Nat) : (c.set f v).pwr = c.pwr := by
  unfold Chip.set; split <;> rfl

@[simp] theorem Chip.set_ing (c : Chip) (f : Fld) (v : Nat) : (c.set f v).ing = c.ing := by
  unfold Chip.set; split <;> rfl

@[simp] theorem Chip.set_dd (c : Chip) (f : Fld) (v : Nat) : (c.set f v).dd = c.dd := by
  unfold Chip.set; split <;> rfl

@[simp] theorem Chip.set_cmp (c : Chip) (f : Fld) (v : Nat) : (c.set f v).cmp = c.cmp := by
  unfold Chip.set; split <;> rfl

@[simp] theorem Chip.set_cpe (c : Chip) (f : Fld) (v : Nat) : (c.set f v).cpe = c.cpe := by
  unfold Chip.set; split <;> rfl

@[simp] theorem Chip.set_dge (c : Chip) (f : Fld) (v : Nat) : (c.set f v).dge = c.dge := by
  unfold Chip.set; split <;> rfl

@[simp] theorem Chip.set_ftm (c : Chip) (f : Fld) (v : Nat) : (c.set f v).ftm = c.ftm := by
  unfold Chip.set; split <;> rfl

@[simp] theorem Chip.set_rde (c : Chip) (f : Fld) (v : Nat) : (c.set f v).rde = c.rde := by
  unfold Chip.set; split <;> rfl

@[simp] theorem Chip.set_isf (c : Chip) (f : Fld) (v : Nat) : (c.set f v).isf = c.isf := by
  unfold Chip.set; split <;> rfl

@[simp] theorem Chip.set_zbl (c : Chip) (f : Fld) (v : Nat) : (c.set f v).zbl = c.zbl := by
  unfold Chip.set; split <;> rfl

@[simp] theorem Chip.set_sec (c : Chip) (f : Fld) (v : Nat) : (c.set f v).sec = c.sec := by
  unfold Chip.set; split <;> rfl

@[simp] theorem Chip.set_dma (c : Chip) (f : Fld) (v : Nat) : (c.set f v).dma = c.dma := by
  unfold Chip.set; split <;> rfl

@[simp] theorem Chip.set_mem (c : Chip) (f : Fld) (v : Nat) : (c.set f v).mem = c.mem := by
  unfold Chip.set; split <;> rfl

@[simp] theorem Chip.set_root (c : Chip) (f : Fld) (v : Nat) : (c.set f v).root = c.root := by
  unfold Chip.set; split <;> rfl

@[simp] theorem Chip.set_dram (c : Chip) (f : Fld) (v : Nat) : (c.set f v).dram = c.dram := by
  unfold Chip.set; split <;> rfl

@[simp] theorem Chip.set_out (c : Chip) (f : Fld) (v : Nat) : (c.set f v).out = c.out := by
  unfold Chip.set; split <;> rfl

@[simp] theorem Chip.set_freeCount (c : Chip) (f : Fld) (v : Nat) : (c.set f v).freeCount = c.freeCount := by
  unfold Chip.set; split <;> rfl

@[simp] theorem Chip.setFlag_evr (c : Chip) (f : Fld) (b : Bool) : (c.setFlag f b).evr = c.evr := Chip.set_evr c f _

@[simp] theorem Chip.bump_evr (c : Chip) (f : Fld) (n : Nat) : (c.bump f n).evr = c.evr := Chip.set_evr c f _

@[simp] theorem Chip.bumpHold_evr (c : Chip) (f : Fld) (n : Nat) : (c.bumpHold f n).evr = c.evr := Chip.set_evr c f _

@[simp] theorem Chip.raise_evr (c : Chip) (f : Fld) (n : Nat) : (c.raise f n).evr = c.evr := Chip.set_evr c f _

@[simp] theorem Chip.lower_evr (c : Chip) (f : Fld) (n : Nat) : (c.lower f n).evr = c.evr := Chip.set_evr c f _

@[simp] theorem Chip.setAll_evr (c : Chip) (l : List (Fld × Nat)) : (c.setAll l).evr = c.evr := by
  induction l generalizing c with
  | nil => rfl
  | cons p l ih => exact (ih _).trans (Chip.set_evr c p.1 p.2)

@[simp] theorem Chip.clearAll_evr (c : Chip) (l : List Fld) : (c.clearAll l).evr = c.evr := by
  induction l generalizing c with
  | nil => rfl
  | cons p l ih => exact (ih _).trans (Chip.set_evr c p 0)

@[simp] theorem Chip.setFlag_kcf (c : Chip) (f : Fld) (b : Bool) : (c.setFlag f b).kcf = c.kcf := Chip.set_kcf c f _

@[simp] theorem Chip.bump_kcf (c : Chip) (f : Fld) (n : Nat) : (c.bump f n).kcf = c.kcf := Chip.set_kcf c f _

@[simp] theorem Chip.bumpHold_kcf (c : Chip) (f : Fld) (n : Nat) : (c.bumpHold f n).kcf = c.kcf := Chip.set_kcf c f _

@[simp] theorem Chip.raise_kcf (c : Chip) (f : Fld) (n : Nat) : (c.raise f n).kcf = c.kcf := Chip.set_kcf c f _

@[simp] theorem Chip.lower_kcf (c : Chip) (f : Fld) (n : Nat) : (c.lower f n).kcf = c.kcf := Chip.set_kcf c f _

@[simp] theorem Chip.setAll_kcf (c : Chip) (l : List (Fld × Nat)) : (c.setAll l).kcf = c.kcf := by
  induction l generalizing c with
  | nil => rfl
  | cons p l ih => exact (ih _).trans (Chip.set_kcf c p.1 p.2)

@[simp] theorem Chip.clearAll_kcf (c : Chip) (l : List Fld) : (c.clearAll l).kcf = c.kcf := by
  induction l generalizing c with
  | nil => rfl
  | cons p l ih => exact (ih _).trans (Chip.set_kcf c p 0)

@[simp] theorem Chip.setFlag_epc (c : Chip) (f : Fld) (b : Bool) : (c.setFlag f b).epc = c.epc := Chip.set_epc c f _

@[simp] theorem Chip.bump_epc (c : Chip) (f : Fld) (n : Nat) : (c.bump f n).epc = c.epc := Chip.set_epc c f _

@[simp] theorem Chip.bumpHold_epc (c : Chip) (f : Fld) (n : Nat) : (c.bumpHold f n).epc = c.epc := Chip.set_epc c f _

@[simp] theorem Chip.raise_epc (c : Chip) (f : Fld) (n : Nat) : (c.raise f n).epc = c.epc := Chip.set_epc c f _

@[simp] theorem Chip.lower_epc (c : Chip) (f : Fld) (n : Nat) : (c.lower f n).epc = c.epc := Chip.set_epc c f _

@[simp] theorem Chip.setAll_epc (c : Chip) (l : List (Fld × Nat)) : (c.setAll l).epc = c.epc := by
  induction l generalizing c with
  | nil => rfl
  | cons p l ih => exact (ih _).trans (Chip.set_epc c p.1 p.2)

@[simp] theorem Chip.clearAll_epc (c : Chip) (l : List Fld) : (c.clearAll l).epc = c.epc := by
  induction l generalizing c with
  | nil => rfl
  | cons p l ih => exact (ih _).trans (Chip.set_epc c p 0)

@[simp] theorem Chip.setFlag_nvm (c : Chip) (f : Fld) (b : Bool) : (c.setFlag f b).nvm = c.nvm := Chip.set_nvm c f _

@[simp] theorem Chip.bump_nvm (c : Chip) (f : Fld) (n : Nat) : (c.bump f n).nvm = c.nvm := Chip.set_nvm c f _

@[simp] theorem Chip.bumpHold_nvm (c : Chip) (f : Fld) (n : Nat) : (c.bumpHold f n).nvm = c.nvm := Chip.set_nvm c f _

@[simp] theorem Chip.raise_nvm (c : Chip) (f : Fld) (n : Nat) : (c.raise f n).nvm = c.nvm := Chip.set_nvm c f _

@[simp] theorem Chip.lower_nvm (c : Chip) (f : Fld) (n : Nat) : (c.lower f n).nvm = c.nvm := Chip.set_nvm c f _

@[simp] theorem Chip.setAll_nvm (c : Chip) (l : List (Fld × Nat)) : (c.setAll l).nvm = c.nvm := by
  induction l generalizing c with
  | nil => rfl
  | cons p l ih => exact (ih _).trans (Chip.set_nvm c p.1 p.2)

@[simp] theorem Chip.clearAll_nvm (c : Chip) (l : List Fld) : (c.clearAll l).nvm = c.nvm := by
  induction l generalizing c with
  | nil => rfl
  | cons p l ih => exact (ih _).trans (Chip.set_nvm c p 0)

@[simp] theorem Chip.setFlag_boot (c : Chip) (f : Fld) (b : Bool) : (c.setFlag f b).boot = c.boot := Chip.set_boot c f _

@[simp] theorem Chip.bump_boot (c : Chip) (f : Fld) (n : Nat) : (c.bump f n).boot = c.boot := Chip.set_boot c f _

@[simp] theorem Chip.bumpHold_boot (c : Chip) (f : Fld) (n : Nat) : (c.bumpHold f n).boot = c.boot := Chip.set_boot c f _

@[simp] theorem Chip.raise_boot (c : Chip) (f : Fld) (n : Nat) : (c.raise f n).boot = c.boot := Chip.set_boot c f _

@[simp] theorem Chip.lower_boot (c : Chip) (f : Fld) (n : Nat) : (c.lower f n).boot = c.boot := Chip.set_boot c f _

@[simp] theorem Chip.setAll_boot (c : Chip) (l : List (Fld × Nat)) : (c.setAll l).boot = c.boot := by
  induction l generalizing c with
  | nil => rfl
  | cons p l ih => exact (ih _).trans (Chip.set_boot c p.1 p.2)

@[simp] theorem Chip.clearAll_boot (c : Chip) (l : List Fld) : (c.clearAll l).boot = c.boot := by
  induction l generalizing c with
  | nil => rfl
  | cons p l ih => exact (ih _).trans (Chip.set_boot c p 0)

@[simp] theorem Chip.setFlag_pwr (c : Chip) (f : Fld) (b : Bool) : (c.setFlag f b).pwr = c.pwr := Chip.set_pwr c f _

@[simp] theorem Chip.bump_pwr (c : Chip) (f : Fld) (n : Nat) : (c.bump f n).pwr = c.pwr := Chip.set_pwr c f _

@[simp] theorem Chip.bumpHold_pwr (c : Chip) (f : Fld) (n : Nat) : (c.bumpHold f n).pwr = c.pwr := Chip.set_pwr c f _

@[simp] theorem Chip.raise_pwr (c : Chip) (f : Fld) (n : Nat) : (c.raise f n).pwr = c.pwr := Chip.set_pwr c f _

@[simp] theorem Chip.lower_pwr (c : Chip) (f : Fld) (n : Nat) : (c.lower f n).pwr = c.pwr := Chip.set_pwr c f _

@[simp] theorem Chip.setAll_pwr (c : Chip) (l : List (Fld × Nat)) : (c.setAll l).pwr = c.pwr := by
  induction l generalizing c with
  | nil => rfl
  | cons p l ih => exact (ih _).trans (Chip.set_pwr c p.1 p.2)

@[simp] theorem Chip.clearAll_pwr (c : Chip) (l : List Fld) : (c.clearAll l).pwr = c.pwr := by
  induction l generalizing c with
  | nil => rfl
  | cons p l ih => exact (ih _).trans (Chip.set_pwr c p 0)

@[simp] theorem Chip.setFlag_ing (c : Chip) (f : Fld) (b : Bool) : (c.setFlag f b).ing = c.ing := Chip.set_ing c f _

@[simp] theorem Chip.bump_ing (c : Chip) (f : Fld) (n : Nat) : (c.bump f n).ing = c.ing := Chip.set_ing c f _

@[simp] theorem Chip.bumpHold_ing (c : Chip) (f : Fld) (n : Nat) : (c.bumpHold f n).ing = c.ing := Chip.set_ing c f _

@[simp] theorem Chip.raise_ing (c : Chip) (f : Fld) (n : Nat) : (c.raise f n).ing = c.ing := Chip.set_ing c f _

@[simp] theorem Chip.lower_ing (c : Chip) (f : Fld) (n : Nat) : (c.lower f n).ing = c.ing := Chip.set_ing c f _

@[simp] theorem Chip.setAll_ing (c : Chip) (l : List (Fld × Nat)) : (c.setAll l).ing = c.ing := by
  induction l generalizing c with
  | nil => rfl
  | cons p l ih => exact (ih _).trans (Chip.set_ing c p.1 p.2)

@[simp] theorem Chip.clearAll_ing (c : Chip) (l : List Fld) : (c.clearAll l).ing = c.ing := by
  induction l generalizing c with
  | nil => rfl
  | cons p l ih => exact (ih _).trans (Chip.set_ing c p 0)

@[simp] theorem Chip.setFlag_dd (c : Chip) (f : Fld) (b : Bool) : (c.setFlag f b).dd = c.dd := Chip.set_dd c f _

@[simp] theorem Chip.bump_dd (c : Chip) (f : Fld) (n : Nat) : (c.bump f n).dd = c.dd := Chip.set_dd c f _

@[simp] theorem Chip.bumpHold_dd (c : Chip) (f : Fld) (n : Nat) : (c.bumpHold f n).dd = c.dd := Chip.set_dd c f _

@[simp] theorem Chip.raise_dd (c : Chip) (f : Fld) (n : Nat) : (c.raise f n).dd = c.dd := Chip.set_dd c f _

@[simp] theorem Chip.lower_dd (c : Chip) (f : Fld) (n : Nat) : (c.lower f n).dd = c.dd := Chip.set_dd c f _

@[simp] theorem Chip.setAll_dd (c : Chip) (l : List (Fld × Nat)) : (c.setAll l).dd = c.dd := by
  induction l generalizing c with
  | nil => rfl
  | cons p l ih => exact (ih _).trans (Chip.set_dd c p.1 p.2)

@[simp] theorem Chip.clearAll_dd (c : Chip) (l : List Fld) : (c.clearAll l).dd = c.dd := by
  induction l generalizing c with
  | nil => rfl
  | cons p l ih => exact (ih _).trans (Chip.set_dd c p 0)

@[simp] theorem Chip.setFlag_cmp (c : Chip) (f : Fld) (b : Bool) : (c.setFlag f b).cmp = c.cmp := Chip.set_cmp c f _

@[simp] theorem Chip.bump_cmp (c : Chip) (f : Fld) (n : Nat) : (c.bump f n).cmp = c.cmp := Chip.set_cmp c f _

@[simp] theorem Chip.bumpHold_cmp (c : Chip) (f : Fld) (n : Nat) : (c.bumpHold f n).cmp = c.cmp := Chip.set_cmp c f _

@[simp] theorem Chip.raise_cmp (c : Chip) (f : Fld) (n : Nat) : (c.raise f n).cmp = c.cmp := Chip.set_cmp c f _

@[simp] theorem Chip.lower_cmp (c : Chip) (f : Fld) (n : Nat) : (c.lower f n).cmp = c.cmp := Chip.set_cmp c f _

@[simp] theorem Chip.setAll_cmp (c : Chip) (l : List (Fld × Nat)) : (c.setAll l).cmp = c.cmp := by
  induction l generalizing c with
  | nil => rfl
  | cons p l ih => exact (ih _).trans (Chip.set_cmp c p.1 p.2)

@[simp] theorem Chip.clearAll_cmp (c : Chip) (l : List Fld) : (c.clearAll l).cmp = c.cmp := by
  induction l generalizing c with
  | nil => rfl
  | cons p l ih => exact (ih _).trans (Chip.set_cmp c p 0)

@[simp] theorem Chip.setFlag_cpe (c : Chip) (f : Fld) (b : Bool) : (c.setFlag f b).cpe = c.cpe := Chip.set_cpe c f _

@[simp] theorem Chip.bump_cpe (c : Chip) (f : Fld) (n : Nat) : (c.bump f n).cpe = c.cpe := Chip.set_cpe c f _

@[simp] theorem Chip.bumpHold_cpe (c : Chip) (f : Fld) (n : Nat) : (c.bumpHold f n).cpe = c.cpe := Chip.set_cpe c f _

@[simp] theorem Chip.raise_cpe (c : Chip) (f : Fld) (n : Nat) : (c.raise f n).cpe = c.cpe := Chip.set_cpe c f _

@[simp] theorem Chip.lower_cpe (c : Chip) (f : Fld) (n : Nat) : (c.lower f n).cpe = c.cpe := Chip.set_cpe c f _

@[simp] theorem Chip.setAll_cpe (c : Chip) (l : List (Fld × Nat)) : (c.setAll l).cpe = c.cpe := by
  induction l generalizing c with
  | nil => rfl
  | cons p l ih => exact (ih _).trans (Chip.set_cpe c p.1 p.2)

@[simp] theorem Chip.clearAll_cpe (c : Chip) (l : List Fld) : (c.clearAll l).cpe = c.cpe := by
  induction l generalizing c with
  | nil => rfl
  | cons p l ih => exact (ih _).trans (Chip.set_cpe c p 0)

@[simp] theorem Chip.setFlag_dge (c : Chip) (f : Fld) (b : Bool) : (c.setFlag f b).dge = c.dge := Chip.set_dge c f _

@[simp] theorem Chip.bump_dge (c : Chip) (f : Fld) (n : Nat) : (c.bump f n).dge = c.dge := Chip.set_dge c f _

@[simp] theorem Chip.bumpHold_dge (c : Chip) (f : Fld) (n : Nat) : (c.bumpHold f n).dge = c.dge := Chip.set_dge c f _

@[simp] theorem Chip.raise_dge (c : Chip) (f : Fld) (n : Nat) : (c.raise f n).dge = c.dge := Chip.set_dge c f _

@[simp] theorem Chip.lower_dge (c : Chip) (f : Fld) (n : Nat) : (c.lower f n).dge = c.dge := Chip.set_dge c f _

@[simp] theorem Chip.setAll_dge (c : Chip) (l : List (Fld × Nat)) : (c.setAll l).dge = c.dge := by
  induction l generalizing c with
  | nil => rfl
  | cons p l ih => exact (ih _).trans (Chip.set_dge c p.1 p.2)

@[simp] theorem Chip.clearAll_dge (c : Chip) (l : List Fld) : (c.clearAll l).dge = c.dge := by
  induction l generalizing c with
  | nil => rfl
  | cons p l ih => exact (ih _).trans (Chip.set_dge c p 0)

@[simp] theorem Chip.setFlag_ftm (c : Chip) (f : Fld) (b : Bool) : (c.setFlag f b).ftm = c.ftm := Chip.set_ftm c f _

@[simp] theorem Chip.bump_ftm (c : Chip) (f : Fld) (n : Nat) : (c.bump f n).ftm = c.ftm := Chip.set_ftm c f _

@[simp] theorem Chip.bumpHold_ftm (c : Chip) (f : Fld) (n : Nat) : (c.bumpHold f n).ftm = c.ftm := Chip.set_ftm c f _

@[simp] theorem Chip.raise_ftm (c : Chip) (f : Fld) (n : Nat) : (c.raise f n).ftm = c.ftm := Chip.set_ftm c f _

@[simp] theorem Chip.lower_ftm (c : Chip) (f : Fld) (n : Nat) : (c.lower f n).ftm = c.ftm := Chip.set_ftm c f _

@[simp] theorem Chip.setAll_ftm (c : Chip) (l : List (Fld × Nat)) : (c.setAll l).ftm = c.ftm := by
  induction l generalizing c with
  | nil => rfl
  | cons p l ih => exact (ih _).trans (Chip.set_ftm c p.1 p.2)

@[simp] theorem Chip.clearAll_ftm (c : Chip) (l : List Fld) : (c.clearAll l).ftm = c.ftm := by
  induction l generalizing c with
  | nil => rfl
  | cons p l ih => exact (ih _).trans (Chip.set_ftm c p 0)

@[simp] theorem Chip.setFlag_rde (c : Chip) (f : Fld) (b : Bool) : (c.setFlag f b).rde = c.rde := Chip.set_rde c f _

@[simp] theorem Chip.bump_rde (c : Chip) (f : Fld) (n : Nat) : (c.bump f n).rde = c.rde := Chip.set_rde c f _

@[simp] theorem Chip.bumpHold_rde (c : Chip) (f : Fld) (n : Nat) : (c.bumpHold f n).rde = c.rde := Chip.set_rde c f _

@[simp] theorem Chip.raise_rde (c : Chip) (f : Fld) (n : Nat) : (c.raise f n).rde = c.rde := Chip.set_rde c f _

@[simp] theorem Chip.lower_rde (c : Chip) (f : Fld) (n : Nat) : (c.lower f n).rde = c.rde := Chip.set_rde c f _

@[simp] theorem Chip.setAll_rde (c : Chip) (l : List (Fld × Nat)) : (c.setAll l).rde = c.rde := by
  induction l generalizing c with
  | nil => rfl
  | cons p l ih => exact (ih _).trans (Chip.set_rde c p.1 p.2)

@[simp] theorem Chip.clearAll_rde (c : Chip) (l : List Fld) : (c.clearAll l).rde = c.rde := by
  induction l generalizing c with
  | nil => rfl
  | cons p l ih => exact (ih _).trans (Chip.set_rde c p 0)

@[simp] theorem Chip.setFlag_isf (c : Chip) (f : Fld) (b : Bool) : (c.setFlag f b).isf = c.isf := Chip.set_isf c f _

@[simp] theorem Chip.bump_isf (c : Chip) (f : Fld) (n : Nat) : (c.bump f n).isf = c.isf := Chip.set_isf c f _

@[simp] theorem Chip.bumpHold_isf (c : Chip) (f : Fld) (n : Nat) : (c.bumpHold f n).isf = c.isf := Chip.set_isf c f _

@[simp] theorem Chip.raise_isf (c : Chip) (f : Fld) (n : Nat) : (c.raise f n).isf = c.isf := Chip.set_isf c f _

@[simp] theorem Chip.lower_isf (c : Chip) (f : Fld) (n : Nat) : (c.lower f n).isf = c.isf := Chip.set_isf c f _

@[simp] theorem Chip.setAll_isf (c : Chip) (l : List (Fld × Nat)) : (c.setAll l).isf = c.isf := by
  induction l generalizing c with
  | nil => rfl
  | cons p l ih => exact (ih _).trans (Chip.set_isf c p.1 p.2)

@[simp] theorem Chip.clearAll_isf (c : Chip) (l : List Fld) : (c.clearAll l).isf = c.isf := by
  induction l generalizing c with
  | nil => rfl
  | cons p l ih => exact (ih _).trans (Chip.set_isf c p 0)

@[simp] theorem Chip.setFlag_zbl (c : Chip) (f : Fld) (b : Bool) : (c.setFlag f b).zbl = c.zbl := Chip.set_zbl c f _

@[simp] theorem Chip.bump_zbl (c : Chip) (f : Fld) (n : Nat) : (c.bump f n).zbl = c.zbl := Chip.set_zbl c f _

@[simp] theorem Chip.bumpHold_zbl (c : Chip) (f : Fld) (n : Nat) : (c.bumpHold f n).zbl = c.zbl := Chip.set_zbl c f _

@[simp] theorem Chip.raise_zbl (c : Chip) (f : Fld) (n : Nat) : (c.raise f n).zbl = c.zbl := Chip.set_zbl c f _

@[simp] theorem Chip.lower_zbl (c : Chip) (f : Fld) (n : Nat) : (c.lower f n).zbl = c.zbl := Chip.set_zbl c f _

@[simp] theorem Chip.setAll_zbl (c : Chip) (l : List (Fld × Nat)) : (c.setAll l).zbl = c.zbl := by
  induction l generalizing c with
  | nil => rfl
  | cons p l ih => exact (ih _).trans (Chip.set_zbl c p.1 p.2)

@[simp] theorem Chip.clearAll_zbl (c : Chip) (l : List Fld) : (c.clearAll l).zbl = c.zbl := by
  induction l generalizing c with
  | nil => rfl
  | cons p l ih => exact (ih _).trans (Chip.set_zbl c p 0)

@[simp] theorem Chip.setFlag_sec (c : Chip) (f : Fld) (b : Bool) : (c.setFlag f b).sec = c.sec := Chip.set_sec c f _

@[simp] theorem Chip.bump_sec (c : Chip) (f : Fld) (n : Nat) : (c.bump f n).sec = c.sec := Chip.set_sec c f _

@[simp] theorem Chip.bumpHold_sec (c : Chip) (f : Fld) (n : Nat) : (c.bumpHold f n).sec = c.sec := Chip.set_sec c f _

@[simp] theorem Chip.raise_sec (c : Chip) (f : Fld) (n : Nat) : (c.raise f n).sec = c.sec := Chip.set_sec c f _

@[simp] theorem Chip.lower_sec (c : Chip) (f : Fld) (n : Nat) : (c.lower f n).sec = c.sec := Chip.set_sec c f _

@[simp] theorem Chip.setAll_sec (c : Chip) (l : List (Fld × Nat)) : (c.setAll l).sec = c.sec := by
  induction l generalizing c with
  | nil => rfl
  | cons p l ih => exact (ih _).trans (Chip.set_sec c p.1 p.2)

@[simp] theorem Chip.clearAll_sec (c : Chip) (l : List Fld) : (c.clearAll l).sec = c.sec := by
  induction l generalizing c with
  | nil => rfl
  | cons p l ih => exact (ih _).trans (Chip.set_sec c p 0)

@[simp] theorem Chip.setFlag_dma (c : Chip) (f : Fld) (b : Bool) : (c.setFlag f b).dma = c.dma := Chip.set_dma c f _

@[simp] theorem Chip.bump_dma (c : Chip) (f : Fld) (n : Nat) : (c.bump f n).dma = c.dma := Chip.set_dma c f _

@[simp] theorem Chip.bumpHold_dma (c : Chip) (f : Fld) (n : Nat) : (c.bumpHold f n).dma = c.dma := Chip.set_dma c f _

@[simp] theorem Chip.raise_dma (c : Chip) (f : Fld) (n : Nat) : (c.raise f n).dma = c.dma := Chip.set_dma c f _

@[simp] theorem Chip.lower_dma (c : Chip) (f : Fld) (n : Nat) : (c.lower f n).dma = c.dma := Chip.set_dma c f _

@[simp] theorem Chip.setAll_dma (c : Chip) (l : List (Fld × Nat)) : (c.setAll l).dma = c.dma := by
  induction l generalizing c with
  | nil => rfl
  | cons p l ih => exact (ih _).trans (Chip.set_dma c p.1 p.2)

@[simp] theorem Chip.clearAll_dma (c : Chip) (l : List Fld) : (c.clearAll l).dma = c.dma := by
  induction l generalizing c with
  | nil => rfl
  | cons p l ih => exact (ih _).trans (Chip.set_dma c p 0)

@[simp] theorem Chip.setFlag_mem (c : Chip) (f : Fld) (b : Bool) : (c.setFlag f b).mem = c.mem := Chip.set_mem c f _

@[simp] theorem Chip.bump_mem (c : Chip) (f : Fld) (n : Nat) : (c.bump f n).mem = c.mem := Chip.set_mem c f _

@[simp] theorem Chip.bumpHold_mem (c : Chip) (f : Fld) (n : Nat) : (c.bumpHold f n).mem = c.mem := Chip.set_mem c f _

@[simp] theorem Chip.raise_mem (c : Chip) (f : Fld) (n : Nat) : (c.raise f n).mem = c.mem := Chip.set_mem c f _

@[simp] theorem Chip.lower_mem (c : Chip) (f : Fld) (n : Nat) : (c.lower f n).mem = c.mem := Chip.set_mem c f _

@[simp] theorem Chip.setAll_mem (c : Chip) (l : List (Fld × Nat)) : (c.setAll l).mem = c.mem := by
  induction l generalizing c with
  | nil => rfl
  | cons p l ih => exact (ih _).trans (Chip.set_mem c p.1 p.2)

@[simp] theorem Chip.clearAll_mem (c : Chip) (l : List Fld) : (c.clearAll l).mem = c.mem := by
  induction l generalizing c with
  | nil => rfl
  | cons p l ih => exact (ih _).trans (Chip.set_mem c p 0)

@[simp] theorem Chip.setFlag_root (c : Chip) (f : Fld) (b : Bool) : (c.setFlag f b).root = c.root := Chip.set_root c f _

@[simp] theorem Chip.bump_root (c : Chip) (f : Fld) (n : Nat) : (c.bump f n).root = c.root := Chip.set_root c f _

@[simp] theorem Chip.bumpHold_root (c : Chip) (f : Fld) (n : Nat) : (c.bumpHold f n).root = c.root := Chip.set_root c f _

@[simp] theorem Chip.raise_root (c : Chip) (f : Fld) (n : Nat) : (c.raise f n).root = c.root := Chip.set_root c f _

@[simp] theorem Chip.lower_root (c : Chip) (f : Fld) (n : Nat) : (c.lower f n).root = c.root := Chip.set_root c f _

@[simp] theorem Chip.setAll_root (c : Chip) (l : List (Fld × Nat)) : (c.setAll l).root = c.root := by
  induction l generalizing c with
  | nil => rfl
  | cons p l ih => exact (ih _).trans (Chip.set_root c p.1 p.2)

@[simp] theorem Chip.clearAll_root (c : Chip) (l : List Fld) : (c.clearAll l).root = c.root := by
  induction l generalizing c with
  | nil => rfl
  | cons p l ih => exact (ih _).trans (Chip.set_root c p 0)

@[simp] theorem Chip.setFlag_dram (c : Chip) (f : Fld) (b : Bool) : (c.setFlag f b).dram = c.dram := Chip.set_dram c f _

@[simp] theorem Chip.bump_dram (c : Chip) (f : Fld) (n : Nat) : (c.bump f n).dram = c.dram := Chip.set_dram c f _

@[simp] theorem Chip.bumpHold_dram (c : Chip) (f : Fld) (n : Nat) : (c.bumpHold f n).dram = c.dram := Chip.set_dram c f _

@[simp] theorem Chip.raise_dram (c : Chip) (f : Fld) (n : Nat) : (c.raise f n).dram = c.dram := Chip.set_dram c f _

@[simp] theorem Chip.lower_dram (c : Chip) (f : Fld) (n : Nat) : (c.lower f n).dram = c.dram := Chip.set_dram c f _

@[simp] theorem Chip.setAll_dram (c : Chip) (l : List (Fld × Nat)) : (c.setAll l).dram = c.dram := by
  induction l generalizing c with
  | nil => rfl
  | cons p l ih => exact (ih _).trans (Chip.set_dram c p.1 p.2)

@[simp] theorem Chip.clearAll_dram (c : Chip) (l : List Fld) : (c.clearAll l).dram = c.dram := by
  induction l generalizing c with
  | nil => rfl
  | cons p l ih => exact (ih _).trans (Chip.set_dram c p 0)

@[simp] theorem Chip.setFlag_out (c : Chip) (f : Fld) (b : Bool) : (c.setFlag f b).out = c.out := Chip.set_out c f _

@[simp] theorem Chip.bump_out (c : Chip) (f : Fld) (n : Nat) : (c.bump f n).out = c.out := Chip.set_out c f _

@[simp] theorem Chip.bumpHold_out (c : Chip) (f : Fld) (n : Nat) : (c.bumpHold f n).out = c.out := Chip.set_out c f _

@[simp] theorem Chip.raise_out (c : Chip) (f : Fld) (n : Nat) : (c.raise f n).out = c.out := Chip.set_out c f _

@[simp] theorem Chip.lower_out (c : Chip) (f : Fld) (n : Nat) : (c.lower f n).out = c.out := Chip.set_out c f _

@[simp] theorem Chip.setAll_out (c : Chip) (l : List (Fld × Nat)) : (c.setAll l).out = c.out := by
  induction l generalizing c with
  | nil => rfl
  | cons p l ih => exact (ih _).trans (Chip.set_out c p.1 p.2)

@[simp] theorem Chip.clearAll_out (c : Chip) (l : List Fld) : (c.clearAll l).out = c.out := by
  induction l generalizing c with
  | nil => rfl
  | cons p l ih => exact (ih _).trans (Chip.set_out c p 0)

@[simp] theorem Chip.setFlag_freeCount (c : Chip) (f : Fld) (b : Bool) : (c.setFlag f b).freeCount = c.freeCount := Chip.set_freeCount c f _

@[simp] theorem Chip.bump_freeCount (c : Chip) (f : Fld) (n : Nat) : (c.bump f n).freeCount = c.freeCount := Chip.set_freeCount c f _

@[simp] theorem Chip.bumpHold_freeCount (c : Chip) (f : Fld) (n : Nat) : (c.bumpHold f n).freeCount = c.freeCount := Chip.set_freeCount c f _

@[simp] theorem Chip.raise_freeCount (c : Chip) (f : Fld) (n : Nat) : (c.raise f n).freeCount = c.freeCount := Chip.set_freeCount c f _

@[simp] theorem Chip.lower_freeCount (c : Chip) (f : Fld) (n : Nat) : (c.lower f n).freeCount = c.freeCount := Chip.set_freeCount c f _

@[simp] theorem Chip.setAll_freeCount (c : Chip) (l : List (Fld × Nat)) : (c.setAll l).freeCount = c.freeCount := by
  induction l generalizing c with
  | nil => rfl
  | cons p l ih => exact (ih _).trans (Chip.set_freeCount c p.1 p.2)

@[simp] theorem Chip.clearAll_freeCount (c : Chip) (l : List Fld) : (c.clearAll l).freeCount = c.freeCount := by
  induction l generalizing c with
  | nil => rfl
  | cons p l ih => exact (ih _).trans (Chip.set_freeCount c p 0)

@[simp] theorem Chip.emit_regs (c : Chip) (m : OutMsg) : (c.emit m).regs = c.regs := rfl

@[simp] theorem Chip.emit_evr (c : Chip) (m : OutMsg) : (c.emit m).evr = c.evr := rfl

@[simp] theorem Chip.emit_kcf (c : Chip) (m : OutMsg) : (c.emit m).kcf = c.kcf := rfl

@[simp] theorem Chip.emit_epc (c : Chip) (m : OutMsg) : (c.emit m).epc = c.epc := rfl

@[simp] theorem Chip.emit_nvm (c : Chip) (m : OutMsg) : (c.emit m).nvm = c.nvm := rfl

@[simp] theorem Chip.emit_boot (c : Chip) (m : OutMsg) : (c.emit m).boot = c.boot := rfl

@[simp] theorem Chip.emit_pwr (c : Chip) (m : OutMsg) : (c.emit m).pwr = c.pwr := rfl

@[simp] theorem Chip.emit_ing (c : Chip) (m : OutMsg) : (c.emit m).ing = c.ing := rfl

@[simp] theorem Chip.emit_dd (c : Chip) (m : OutMsg) : (c.emit m).dd = c.dd := rfl

@[simp] theorem Chip.emit_cmp (c : Chip) (m : OutMsg) : (c.emit m).cmp = c.cmp := rfl

@[simp] theorem Chip.emit_cpe (c : Chip) (m : OutMsg) : (c.emit m).cpe = c.cpe := rfl

@[simp] theorem Chip.emit_dge (c : Chip) (m : OutMsg) : (c.emit m).dge = c.dge := rfl

@[simp] theorem Chip.emit_ftm (c : Chip) (m : OutMsg) : (c.emit m).ftm = c.ftm := rfl

@[simp] theorem Chip.emit_rde (c : Chip) (m : OutMsg) : (c.emit m).rde = c.rde := rfl

@[simp] theorem Chip.emit_isf (c : Chip) (m : OutMsg) : (c.emit m).isf = c.isf := rfl

@[simp] theorem Chip.emit_zbl (c : Chip) (m : OutMsg) : (c.emit m).zbl = c.zbl := rfl

@[simp] theorem Chip.emit_sec (c : Chip) (m : OutMsg) : (c.emit m).sec = c.sec := rfl

@[simp] theorem Chip.emit_dma (c : Chip) (m : OutMsg) : (c.emit m).dma = c.dma := rfl

@[simp] theorem Chip.emit_mem (c : Chip) (m : OutMsg) : (c.emit m).mem = c.mem := rfl

@[simp] theorem Chip.emit_root (c : Chip) (m : OutMsg) : (c.emit m).root = c.root := rfl

@[simp] theorem Chip.emit_dram (c : Chip) (m : OutMsg) : (c.emit m).dram = c.dram := rfl

@[simp] theorem Chip.emit_freeCount (c : Chip) (m : OutMsg) : (c.emit m).freeCount = c.freeCount := rfl

@[simp] theorem Chip.emit_out (c : Chip) (m : OutMsg) : (c.emit m).out = m :: c.out := rfl

@[simp] theorem Chip.useFree_regs (c : Chip) : c.useFree.regs = c.regs := rfl

@[simp] theorem Chip.useFree_evr (c : Chip) : c.useFree.evr = c.evr := rfl

@[simp] theorem Chip.useFree_kcf (c : Chip) : c.useFree.kcf = c.kcf := rfl

@[simp] theorem Chip.useFree_epc (c : Chip) : c.useFree.epc = c.epc := rfl

@[simp] theorem Chip.useFree_nvm (c : Chip) : c.useFree.nvm = c.nvm := rfl

@[simp] theorem Chip.useFree_boot (c : Chip) : c.useFree.boot = c.boot := rfl

@[simp] theorem Chip.useFree_pwr (c : Chip) : c.useFree.pwr = c.pwr := rfl

@[simp] theorem Chip.useFree_ing (c : Chip) : c.useFree.ing = c.ing := rfl

@[simp] theorem Chip.useFree_dd (c : Chip) : c.useFree.dd = c.dd := rfl

@[simp] theorem Chip.useFree_cmp (c : Chip) : c.useFree.cmp = c.cmp := rfl

@[simp] theorem Chip.useFree_cpe (c : Chip) : c.useFree.cpe = c.cpe := rfl

@[simp] theorem Chip.useFree_dge (c : Chip) : c.useFree.dge = c.dge := rfl

@[simp] theorem Chip.useFree_ftm (c : Chip) : c.useFree.ftm = c.ftm := rfl

@[simp] theorem Chip.useFree_rde (c : Chip) : c.useFree.rde = c.rde := rfl

@[simp] theorem Chip.useFree_isf (c : Chip) : c.useFree.isf = c.isf := rfl

@[simp] theorem Chip.useFree_zbl (c : Chip) : c.useFree.zbl = c.zbl := rfl

@[simp] theorem Chip.useFree_sec (c : Chip) : c.useFree.sec = c.sec := rfl

@[simp] theorem Chip.useFree_dma (c : Chip) : c.useFree.dma = c.dma := rfl

@[simp] theorem Chip.useFree_mem (c : Chip) : c.useFree.mem = c.mem := rfl

@[simp] theorem Chip.useFree_root (c : Chip) : c.useFree.root = c.root := rfl

@[simp] theorem Chip.useFree_dram (c : Chip) : c.useFree.dram = c.dram := rfl

@[simp] theorem Chip.useFree_out (c : Chip) : c.useFree.out = c.out := rfl

@[simp] theorem Chip.useFree_freeCount (c : Chip) : c.useFree.freeCount = c.freeCount + 1 := rfl

@[simp] theorem Chip.event_regs (c : Chip) (k i a b d e : Nat) : (c.event k i a b d e).regs = c.regs := by
  unfold Chip.event; split <;> rfl

@[simp] theorem Chip.event_kcf (c : Chip) (k i a b d e : Nat) : (c.event k i a b d e).kcf = c.kcf := by
  unfold Chip.event; split <;> rfl

@[simp] theorem Chip.event_epc (c : Chip) (k i a b d e : Nat) : (c.event k i a b d e).epc = c.epc := by
  unfold Chip.event; split <;> rfl

@[simp] theorem Chip.event_nvm (c : Chip) (k i a b d e : Nat) : (c.event k i a b d e).nvm = c.nvm := by
  unfold Chip.event; split <;> rfl

@[simp] theorem Chip.event_boot (c : Chip) (k i a b d e : Nat) : (c.event k i a b d e).boot = c.boot := by
  unfold Chip.event; split <;> rfl

@[simp] theorem Chip.event_pwr (c : Chip) (k i a b d e : Nat) : (c.event k i a b d e).pwr = c.pwr := by
  unfold Chip.event; split <;> rfl

@[simp] theorem Chip.event_ing (c : Chip) (k i a b d e : Nat) : (c.event k i a b d e).ing = c.ing := by
  unfold Chip.event; split <;> rfl

@[simp] theorem Chip.event_dd (c : Chip) (k i a b d e : Nat) : (c.event k i a b d e).dd = c.dd := by
  unfold Chip.event; split <;> rfl

@[simp] theorem Chip.event_cmp (c : Chip) (k i a b d e : Nat) : (c.event k i a b d e).cmp = c.cmp := by
  unfold Chip.event; split <;> rfl

@[simp] theorem Chip.event_cpe (c : Chip) (k i a b d e : Nat) : (c.event k i a b d e).cpe = c.cpe := by
  unfold Chip.event; split <;> rfl

@[simp] theorem Chip.event_dge (c : Chip) (k i a b d e : Nat) : (c.event k i a b d e).dge = c.dge := by
  unfold Chip.event; split <;> rfl

@[simp] theorem Chip.event_ftm (c : Chip) (k i a b d e : Nat) : (c.event k i a b d e).ftm = c.ftm := by
  unfold Chip.event; split <;> rfl

@[simp] theorem Chip.event_rde (c : Chip) (k i a b d e : Nat) : (c.event k i a b d e).rde = c.rde := by
  unfold Chip.event; split <;> rfl

@[simp] theorem Chip.event_isf (c : Chip) (k i a b d e : Nat) : (c.event k i a b d e).isf = c.isf := by
  unfold Chip.event; split <;> rfl

@[simp] theorem Chip.event_zbl (c : Chip) (k i a b d e : Nat) : (c.event k i a b d e).zbl = c.zbl := by
  unfold Chip.event; split <;> rfl

@[simp] theorem Chip.event_sec (c : Chip) (k i a b d e : Nat) : (c.event k i a b d e).sec = c.sec := by
  unfold Chip.event; split <;> rfl

@[simp] theorem Chip.event_dma (c : Chip) (k i a b d e : Nat) : (c.event k i a b d e).dma = c.dma := by
  unfold Chip.event; split <;> rfl

@[simp] theorem Chip.event_mem (c : Chip) (k i a b d e : Nat) : (c.event k i a b d e).mem = c.mem := by
  unfold Chip.event; split <;> rfl

@[simp] theorem Chip.event_root (c : Chip) (k i a b d e : Nat) : (c.event k i a b d e).root = c.root := by
  unfold Chip.event; split <;> rfl

@[simp] theorem Chip.event_dram (c : Chip) (k i a b d e : Nat) : (c.event k i a b d e).dram = c.dram := by
  unfold Chip.event; split <;> rfl

@[simp] theorem Chip.event_out (c : Chip) (k i a b d e : Nat) : (c.event k i a b d e).out = c.out := by
  unfold Chip.event; split <;> rfl

@[simp] theorem Chip.event_freeCount (c : Chip) (k i a b d e : Nat) : (c.event k i a b d e).freeCount = c.freeCount := by
  unfold Chip.event; split <;> rfl

@[simp] theorem Chip.setPending_regs (c : Chip) (n v : Nat) (b : Bool) : (c.setPending n v b).regs = c.regs := rfl

@[simp] theorem Chip.setPending_evr (c : Chip) (n v : Nat) (b : Bool) : (c.setPending n v b).evr = c.evr := rfl

@[simp] theorem Chip.setPending_kcf (c : Chip) (n v : Nat) (b : Bool) : (c.setPending n v b).kcf = c.kcf := rfl

@[simp] theorem Chip.setPending_nvm (c : Chip) (n v : Nat) (b : Bool) : (c.setPending n v b).nvm = c.nvm := rfl

@[simp] theorem Chip.setPending_boot (c : Chip) (n v : Nat) (b : Bool) : (c.setPending n v b).boot = c.boot := rfl

@[simp] theorem Chip.setPending_pwr (c : Chip) (n v : Nat) (b : Bool) : (c.setPending n v b).pwr = c.pwr := rfl

@[simp] theorem Chip.setPending_ing (c : Chip) (n v : Nat) (b : Bool) : (c.setPending n v b).ing = c.ing := rfl

@[simp] theorem Chip.setPending_dd (c : Chip) (n v : Nat) (b : Bool) : (c.setPending n v b).dd = c.dd := rfl

@[simp] theorem Chip.setPending_cmp (c : Chip) (n v : Nat) (b : Bool) : (c.setPending n v b).cmp = c.cmp := rfl

@[simp] theorem Chip.setPending_cpe (c : Chip) (n v : Nat) (b : Bool) : (c.setPending n v b).cpe = c.cpe := rfl

@[simp] theorem Chip.setPending_dge (c : Chip) (n v : Nat) (b : Bool) : (c.setPending n v b).dge = c.dge := rfl

@[simp] theorem Chip.setPending_ftm (c : Chip) (n v : Nat) (b : Bool) : (c.setPending n v b).ftm = c.ftm := rfl

@[simp] theorem Chip.setPending_rde (c : Chip) (n v : Nat) (b : Bool) : (c.setPending n v b).rde = c.rde := rfl

@[simp] theorem Chip.setPending_isf (c : Chip) (n v : Nat) (b : Bool) : (c.setPending n v b).isf = c.isf := rfl

@[simp] theorem Chip.setPending_zbl (c : Chip) (n v : Nat) (b : Bool) : (c.setPending n v b).zbl = c.zbl := rfl

@[simp] theorem Chip.setPending_sec (c : Chip) (n v : Nat) (b : Bool) : (c.setPending n v b).sec = c.sec := rfl

@[simp] theorem Chip.setPending_dma (c : Chip) (n v : Nat) (b : Bool) : (c.setPending n v b).dma = c.dma := rfl

@[simp] theorem Chip.setPending_mem (c : Chip) (n v : Nat) (b : Bool) : (c.setPending n v b).mem = c.mem := rfl

@[simp] theorem Chip.setPending_root (c : Chip) (n v : Nat) (b : Bool) : (c.setPending n v b).root = c.root := rfl

@[simp] theorem Chip.setPending_dram (c : Chip) (n v : Nat) (b : Bool) : (c.setPending n v b).dram = c.dram := rfl

@[simp] theorem Chip.setPending_out (c : Chip) (n v : Nat) (b : Bool) : (c.setPending n v b).out = c.out := rfl

@[simp] theorem Chip.setPending_freeCount (c : Chip) (n v : Nat) (b : Bool) : (c.setPending n v b).freeCount = c.freeCount := rfl

@[simp] theorem Chip.powerEvent_regs (c : Chip) (n : Nat) : (c.powerEvent n).regs = c.regs := by
  unfold Chip.powerEvent; dsimp only; split <;> (try split) <;> rfl

@[simp] theorem Chip.cause_regs (c : Chip) (n v : Nat) : (c.cause n v).regs = c.regs := by
  unfold Chip.cause; split
  · rfl
  · exact Chip.powerEvent_regs _ _

@[simp] theorem Chip.blockCause_regs (c : Chip) (e v : Fld) : (c.blockCause e v).regs = c.regs := by
  unfold Chip.blockCause; split <;> simp

@[simp] theorem Chip.powerEvent_evr (c : Chip) (n : Nat) : (c.powerEvent n).evr = c.evr := by
  unfold Chip.powerEvent; dsimp only; split <;> (try split) <;> rfl

@[simp] theorem Chip.cause_evr (c : Chip) (n v : Nat) : (c.cause n v).evr = c.evr := by
  unfold Chip.cause; split
  · rfl
  · exact Chip.powerEvent_evr _ _

@[simp] theorem Chip.blockCause_evr (c : Chip) (e v : Fld) : (c.blockCause e v).evr = c.evr := by
  unfold Chip.blockCause; split <;> simp

@[simp] theorem Chip.powerEvent_kcf (c : Chip) (n : Nat) : (c.powerEvent n).kcf = c.kcf := by
  unfold Chip.powerEvent; dsimp only; split <;> (try split) <;> rfl

@[simp] theorem Chip.cause_kcf (c : Chip) (n v : Nat) : (c.cause n v).kcf = c.kcf := by
  unfold Chip.cause; split
  · rfl
  · exact Chip.powerEvent_kcf _ _

@[simp] theorem Chip.blockCause_kcf (c : Chip) (e v : Fld) : (c.blockCause e v).kcf = c.kcf := by
  unfold Chip.blockCause; split <;> simp

@[simp] theorem Chip.powerEvent_nvm (c : Chip) (n : Nat) : (c.powerEvent n).nvm = c.nvm := by
  unfold Chip.powerEvent; dsimp only; split <;> (try split) <;> rfl

@[simp] theorem Chip.cause_nvm (c : Chip) (n v : Nat) : (c.cause n v).nvm = c.nvm := by
  unfold Chip.cause; split
  · rfl
  · exact Chip.powerEvent_nvm _ _

@[simp] theorem Chip.blockCause_nvm (c : Chip) (e v : Fld) : (c.blockCause e v).nvm = c.nvm := by
  unfold Chip.blockCause; split <;> simp

@[simp] theorem Chip.powerEvent_boot (c : Chip) (n : Nat) : (c.powerEvent n).boot = c.boot := by
  unfold Chip.powerEvent; dsimp only; split <;> (try split) <;> rfl

@[simp] theorem Chip.cause_boot (c : Chip) (n v : Nat) : (c.cause n v).boot = c.boot := by
  unfold Chip.cause; split
  · rfl
  · exact Chip.powerEvent_boot _ _

@[simp] theorem Chip.blockCause_boot (c : Chip) (e v : Fld) : (c.blockCause e v).boot = c.boot := by
  unfold Chip.blockCause; split <;> simp

@[simp] theorem Chip.powerEvent_pwr (c : Chip) (n : Nat) : (c.powerEvent n).pwr = c.pwr := by
  unfold Chip.powerEvent; dsimp only; split <;> (try split) <;> rfl

@[simp] theorem Chip.cause_pwr (c : Chip) (n v : Nat) : (c.cause n v).pwr = c.pwr := by
  unfold Chip.cause; split
  · rfl
  · exact Chip.powerEvent_pwr _ _

@[simp] theorem Chip.blockCause_pwr (c : Chip) (e v : Fld) : (c.blockCause e v).pwr = c.pwr := by
  unfold Chip.blockCause; split <;> simp

@[simp] theorem Chip.powerEvent_ing (c : Chip) (n : Nat) : (c.powerEvent n).ing = c.ing := by
  unfold Chip.powerEvent; dsimp only; split <;> (try split) <;> rfl

@[simp] theorem Chip.cause_ing (c : Chip) (n v : Nat) : (c.cause n v).ing = c.ing := by
  unfold Chip.cause; split
  · rfl
  · exact Chip.powerEvent_ing _ _

@[simp] theorem Chip.blockCause_ing (c : Chip) (e v : Fld) : (c.blockCause e v).ing = c.ing := by
  unfold Chip.blockCause; split <;> simp

@[simp] theorem Chip.powerEvent_dd (c : Chip) (n : Nat) : (c.powerEvent n).dd = c.dd := by
  unfold Chip.powerEvent; dsimp only; split <;> (try split) <;> rfl

@[simp] theorem Chip.cause_dd (c : Chip) (n v : Nat) : (c.cause n v).dd = c.dd := by
  unfold Chip.cause; split
  · rfl
  · exact Chip.powerEvent_dd _ _

@[simp] theorem Chip.blockCause_dd (c : Chip) (e v : Fld) : (c.blockCause e v).dd = c.dd := by
  unfold Chip.blockCause; split <;> simp

@[simp] theorem Chip.powerEvent_cmp (c : Chip) (n : Nat) : (c.powerEvent n).cmp = c.cmp := by
  unfold Chip.powerEvent; dsimp only; split <;> (try split) <;> rfl

@[simp] theorem Chip.cause_cmp (c : Chip) (n v : Nat) : (c.cause n v).cmp = c.cmp := by
  unfold Chip.cause; split
  · rfl
  · exact Chip.powerEvent_cmp _ _

@[simp] theorem Chip.blockCause_cmp (c : Chip) (e v : Fld) : (c.blockCause e v).cmp = c.cmp := by
  unfold Chip.blockCause; split <;> simp

@[simp] theorem Chip.powerEvent_cpe (c : Chip) (n : Nat) : (c.powerEvent n).cpe = c.cpe := by
  unfold Chip.powerEvent; dsimp only; split <;> (try split) <;> rfl

@[simp] theorem Chip.cause_cpe (c : Chip) (n v : Nat) : (c.cause n v).cpe = c.cpe := by
  unfold Chip.cause; split
  · rfl
  · exact Chip.powerEvent_cpe _ _

@[simp] theorem Chip.blockCause_cpe (c : Chip) (e v : Fld) : (c.blockCause e v).cpe = c.cpe := by
  unfold Chip.blockCause; split <;> simp

@[simp] theorem Chip.powerEvent_dge (c : Chip) (n : Nat) : (c.powerEvent n).dge = c.dge := by
  unfold Chip.powerEvent; dsimp only; split <;> (try split) <;> rfl

@[simp] theorem Chip.cause_dge (c : Chip) (n v : Nat) : (c.cause n v).dge = c.dge := by
  unfold Chip.cause; split
  · rfl
  · exact Chip.powerEvent_dge _ _

@[simp] theorem Chip.blockCause_dge (c : Chip) (e v : Fld) : (c.blockCause e v).dge = c.dge := by
  unfold Chip.blockCause; split <;> simp

@[simp] theorem Chip.powerEvent_ftm (c : Chip) (n : Nat) : (c.powerEvent n).ftm = c.ftm := by
  unfold Chip.powerEvent; dsimp only; split <;> (try split) <;> rfl

@[simp] theorem Chip.cause_ftm (c : Chip) (n v : Nat) : (c.cause n v).ftm = c.ftm := by
  unfold Chip.cause; split
  · rfl
  · exact Chip.powerEvent_ftm _ _

@[simp] theorem Chip.blockCause_ftm (c : Chip) (e v : Fld) : (c.blockCause e v).ftm = c.ftm := by
  unfold Chip.blockCause; split <;> simp

@[simp] theorem Chip.powerEvent_rde (c : Chip) (n : Nat) : (c.powerEvent n).rde = c.rde := by
  unfold Chip.powerEvent; dsimp only; split <;> (try split) <;> rfl

@[simp] theorem Chip.cause_rde (c : Chip) (n v : Nat) : (c.cause n v).rde = c.rde := by
  unfold Chip.cause; split
  · rfl
  · exact Chip.powerEvent_rde _ _

@[simp] theorem Chip.blockCause_rde (c : Chip) (e v : Fld) : (c.blockCause e v).rde = c.rde := by
  unfold Chip.blockCause; split <;> simp

@[simp] theorem Chip.powerEvent_isf (c : Chip) (n : Nat) : (c.powerEvent n).isf = c.isf := by
  unfold Chip.powerEvent; dsimp only; split <;> (try split) <;> rfl

@[simp] theorem Chip.cause_isf (c : Chip) (n v : Nat) : (c.cause n v).isf = c.isf := by
  unfold Chip.cause; split
  · rfl
  · exact Chip.powerEvent_isf _ _

@[simp] theorem Chip.blockCause_isf (c : Chip) (e v : Fld) : (c.blockCause e v).isf = c.isf := by
  unfold Chip.blockCause; split <;> simp

@[simp] theorem Chip.powerEvent_zbl (c : Chip) (n : Nat) : (c.powerEvent n).zbl = c.zbl := by
  unfold Chip.powerEvent; dsimp only; split <;> (try split) <;> rfl

@[simp] theorem Chip.cause_zbl (c : Chip) (n v : Nat) : (c.cause n v).zbl = c.zbl := by
  unfold Chip.cause; split
  · rfl
  · exact Chip.powerEvent_zbl _ _

@[simp] theorem Chip.blockCause_zbl (c : Chip) (e v : Fld) : (c.blockCause e v).zbl = c.zbl := by
  unfold Chip.blockCause; split <;> simp

@[simp] theorem Chip.powerEvent_sec (c : Chip) (n : Nat) : (c.powerEvent n).sec = c.sec := by
  unfold Chip.powerEvent; dsimp only; split <;> (try split) <;> rfl

@[simp] theorem Chip.cause_sec (c : Chip) (n v : Nat) : (c.cause n v).sec = c.sec := by
  unfold Chip.cause; split
  · rfl
  · exact Chip.powerEvent_sec _ _

@[simp] theorem Chip.blockCause_sec (c : Chip) (e v : Fld) : (c.blockCause e v).sec = c.sec := by
  unfold Chip.blockCause; split <;> simp

@[simp] theorem Chip.powerEvent_dma (c : Chip) (n : Nat) : (c.powerEvent n).dma = c.dma := by
  unfold Chip.powerEvent; dsimp only; split <;> (try split) <;> rfl

@[simp] theorem Chip.cause_dma (c : Chip) (n v : Nat) : (c.cause n v).dma = c.dma := by
  unfold Chip.cause; split
  · rfl
  · exact Chip.powerEvent_dma _ _

@[simp] theorem Chip.blockCause_dma (c : Chip) (e v : Fld) : (c.blockCause e v).dma = c.dma := by
  unfold Chip.blockCause; split <;> simp

@[simp] theorem Chip.powerEvent_mem (c : Chip) (n : Nat) : (c.powerEvent n).mem = c.mem := by
  unfold Chip.powerEvent; dsimp only; split <;> (try split) <;> rfl

@[simp] theorem Chip.cause_mem (c : Chip) (n v : Nat) : (c.cause n v).mem = c.mem := by
  unfold Chip.cause; split
  · rfl
  · exact Chip.powerEvent_mem _ _

@[simp] theorem Chip.blockCause_mem (c : Chip) (e v : Fld) : (c.blockCause e v).mem = c.mem := by
  unfold Chip.blockCause; split <;> simp

@[simp] theorem Chip.powerEvent_root (c : Chip) (n : Nat) : (c.powerEvent n).root = c.root := by
  unfold Chip.powerEvent; dsimp only; split <;> (try split) <;> rfl

@[simp] theorem Chip.cause_root (c : Chip) (n v : Nat) : (c.cause n v).root = c.root := by
  unfold Chip.cause; split
  · rfl
  · exact Chip.powerEvent_root _ _

@[simp] theorem Chip.blockCause_root (c : Chip) (e v : Fld) : (c.blockCause e v).root = c.root := by
  unfold Chip.blockCause; split <;> simp

@[simp] theorem Chip.powerEvent_dram (c : Chip) (n : Nat) : (c.powerEvent n).dram = c.dram := by
  unfold Chip.powerEvent; dsimp only; split <;> (try split) <;> rfl

@[simp] theorem Chip.cause_dram (c : Chip) (n v : Nat) : (c.cause n v).dram = c.dram := by
  unfold Chip.cause; split
  · rfl
  · exact Chip.powerEvent_dram _ _

@[simp] theorem Chip.blockCause_dram (c : Chip) (e v : Fld) : (c.blockCause e v).dram = c.dram := by
  unfold Chip.blockCause; split <;> simp

@[simp] theorem Chip.powerEvent_freeCount (c : Chip) (n : Nat) : (c.powerEvent n).freeCount = c.freeCount := by
  unfold Chip.powerEvent; dsimp only; split <;> (try split) <;> rfl

@[simp] theorem Chip.cause_freeCount (c : Chip) (n v : Nat) : (c.cause n v).freeCount = c.freeCount := by
  unfold Chip.cause; split
  · rfl
  · exact Chip.powerEvent_freeCount _ _

@[simp] theorem Chip.blockCause_freeCount (c : Chip) (e v : Fld) : (c.blockCause e v).freeCount = c.freeCount := by
  unfold Chip.blockCause; split <;> simp

@[simp] theorem Chip.emit_get (c : Chip) (m : OutMsg) (f : Fld) : (c.emit m).get f = c.get f :=
  Chip.get_of_regs (by simp) f

@[simp] theorem Chip.emit_on (c : Chip) (m : OutMsg) (f : Fld) : (c.emit m).on f = c.on f :=
  Chip.on_of_regs (by simp) f

@[simp] theorem Chip.useFree_get (c : Chip)  (f : Fld) : (c.useFree ).get f = c.get f :=
  Chip.get_of_regs (by simp) f

@[simp] theorem Chip.useFree_on (c : Chip)  (f : Fld) : (c.useFree ).on f = c.on f :=
  Chip.on_of_regs (by simp) f

@[simp] theorem Chip.event_get (c : Chip) (k i a b d e : Nat) (f : Fld) : (c.event k i a b d e).get f = c.get f :=
  Chip.get_of_regs (by simp) f

@[simp] theorem Chip.event_on (c : Chip) (k i a b d e : Nat) (f : Fld) : (c.event k i a b d e).on f = c.on f :=
  Chip.on_of_regs (by simp) f

@[simp] theorem Chip.setPending_get (c : Chip) (n v : Nat) (b : Bool) (f : Fld) : (c.setPending n v b).get f = c.get f :=
  Chip.get_of_regs (by simp) f

@[simp] theorem Chip.setPending_on (c : Chip) (n v : Nat) (b : Bool) (f : Fld) : (c.setPending n v b).on f = c.on f :=
  Chip.on_of_regs (by simp) f

@[simp] theorem Chip.cause_get (c : Chip) (n v : Nat) (f : Fld) : (c.cause n v).get f = c.get f :=
  Chip.get_of_regs (by simp) f

@[simp] theorem Chip.cause_on (c : Chip) (n v : Nat) (f : Fld) : (c.cause n v).on f = c.on f :=
  Chip.on_of_regs (by simp) f

@[simp] theorem Chip.blockCause_get (c : Chip) (e v : Fld) (f : Fld) : (c.blockCause e v).get f = c.get f :=
  Chip.get_of_regs (by simp) f

@[simp] theorem Chip.blockCause_on (c : Chip) (e v : Fld) (f : Fld) : (c.blockCause e v).on f = c.on f :=
  Chip.on_of_regs (by simp) f

/-- Two chips with equal fields are equal. -/
theorem Chip.eq_of_fields {c d : Chip} (h0 : c.regs = d.regs) (h1 : c.evr = d.evr) (h2 : c.kcf = d.kcf) (h3 : c.epc = d.epc) (h4 : c.nvm = d.nvm) (h5 : c.boot = d.boot) (h6 : c.pwr = d.pwr) (h7 : c.ing = d.ing) (h8 : c.dd = d.dd) (h9 : c.cmp = d.cmp) (h10 : c.cpe = d.cpe) (h11 : c.dge = d.dge) (h12 : c.ftm = d.ftm) (h13 : c.rde = d.rde) (h14 : c.isf = d.isf) (h15 : c.zbl = d.zbl) (h16 : c.sec = d.sec) (h17 : c.dma = d.dma) (h18 : c.mem = d.mem) (h19 : c.root = d.root) (h20 : c.dram = d.dram) (h21 : c.out = d.out) (h22 : c.freeCount = d.freeCount) : c = d := by
  cases c; cases d; simp_all

/-- A one-bit flag just written reads as it was set. -/
theorem Chip.get_setFlag_same (c : Chip) (f : Fld) (b : Bool) (h : 0 < f.width) : (c.setFlag f b).get f = flag b := by
  rw [Chip.setFlag, Chip.get_set_same, trunc, Nat.mod_eq_of_lt]
  have : 2 ≤ 2 ^ f.width := by
    calc 2 = 2 ^ 1 := rfl
      _ ≤ 2 ^ f.width := Nat.pow_le_pow_right (by omega) h
  cases b <;> simp [flag] <;> omega

theorem Chip.get_setFlag_ne (c : Chip) {f g : Fld} (b : Bool) (h : g.key ≠ f.key) : (c.setFlag f b).get g = c.get g :=
  Chip.get_set_ne c _ h

/-- A command whose operands name units that the head has answers a next state with the queue as it was. -/
theorem State.run_known (s : State) (f : Chip → Chip) : s.run true f = .next { s with chip := f s.chip } := rfl

/-- A command with an operand that names no unit of the head faults. -/
theorem State.run_unknown (s : State) (f : Chip → Chip) : s.run false f = .fault .noSuchUnit := rfl

theorem State.run_next {s t : State} {k : Bool} {f : Chip → Chip} (h : s.run k f = .next t) :
    k = true ∧ t = { s with chip := f s.chip } := by
  cases k with
  | false => cases h
  | true => cases h; exact ⟨rfl, rfl⟩

theorem State.run_answers (s : State) {k : Bool} (f : Chip → Chip) (h : k = true) :
    ∃ d, s.run k f = .next { s with chip := d } := ⟨f s.chip, by subst h; rfl⟩

/-- A run is a next state or the one fault; it is never a refusal. -/
theorem State.run_cases (s : State) (k : Bool) (f : Chip → Chip) :
    (∃ d, s.run k f = .next { s with chip := d }) ∨ s.run k f = .fault .noSuchUnit := by
  cases k with
  | false => exact .inr rfl
  | true => exact .inl ⟨_, rfl⟩

end Sys2Proof.Machine
end

