-- ==== Sys2Proof/Laws/Ops.lean ====
section
/-!
SUPPORT. What the shared operations can do: one lemma for each gate that a command passes, and for each engine operation.
-/
namespace Sys2Proof.Machine

/-- A command run where the head's logic is clocked has its effect. -/
theorem State.runAwake_next {s : State} {k : Bool} {f : Chip → Chip} (hk : k = true) (h : s.chip.awake = true) :
    s.runAwake k f = .next { s with chip := f s.chip } := by
  subst hk
  have : (s.chip.pwr.mode == .dawn || s.chip.pwr.mode == .day || s.chip.pwr.mode == .dusk) = true := by
    simpa [Chip.awake, Chip.inService, or_assoc] using h
  simp [State.runAwake, State.run, this]

/-- A command run where the head's logic is not clocked has no effect. -/
theorem State.runAwake_idle {s : State} {k : Bool} {f : Chip → Chip} (hk : k = true) (h : s.chip.awake = false) :
    s.runAwake k f = .next s := by
  subst hk
  have : (s.chip.pwr.mode == .dawn || s.chip.pwr.mode == .day || s.chip.pwr.mode == .dusk) = false := by
    simpa [Chip.awake, Chip.inService, and_assoc] using h
  simp [State.runAwake, State.run, this]

/-- A command given by a BAR access is served when the function's BARs are. -/
theorem State.runBar_next {s : State} {k : Bool} {fn : Nat} {f : Chip → Chip} (hk : k = true) (h : s.chip.awake = true)
    (hb : s.chip.barOpen fn = true) : s.runBar k fn f = .next { s with chip := f s.chip } := by
  simp [State.runBar, State.runAwake_next hk h, hb]

/-- A command given by a configuration request is served when the function's configuration space is. -/
theorem State.runCfg_next {s : State} {k : Bool} {fn : Nat} {f : Chip → Chip} (hk : k = true) (h : s.chip.awake = true)
    (hb : s.chip.cfgOpen fn = true) : s.runCfg k fn f = .next { s with chip := f s.chip } := by
  simp [State.runCfg, State.runAwake_next hk h, hb]

/-- A command given by a write of a BAR2 register is served when BAR2 and the block's window are open, or a control core gives it. -/
theorem State.runBar2_next {s : State} {k host : Bool} {reg : Fld} {f : Chip → Chip} (hk : k = true) (h : s.chip.awake = true)
    (hb : host = true → s.chip.barOpen 0 = true ∧ s.chip.windowOpen reg.addr = true) :
    s.runBar2 k host reg f = .next { s with chip := f s.chip } := by
  cases host with
  | false => simp [State.runBar2, State.runAwake_next hk h]
  | true => simp [State.runBar2, State.runAwake_next hk h, hb rfl]

/-- A command given by a write of a BAR2 register is served. -/
theorem State.runBar2_served {s : State} {k host : Bool} {reg : Fld} {f : Chip → Chip} (hk : k = true) (h : Served s) :
    s.runBar2 k host reg f = .next { s with chip := f s.chip } :=
  State.runBar2_next hk h.1 (fun _ => ⟨h.2.1, by simp [Chip.windowOpen, h.2.2]⟩)

/-- A command that answers completes with what its answer satisfies. -/
theorem completes_of_next {c : Instr} {s : State} {f : Chip → Chip} {P : Chip → Prop}
    (h : exec c s = .next { s with chip := f s.chip }) (hp : P (f s.chip)) : Completes c s P := ⟨_, h, hp⟩

end Sys2Proof.Machine

namespace Sys2Proof
open Sys2Proof.Machine

/-- A command of no power state. -/
theorem Yields.run {i : Instr} {s : State} {k : Bool} {f : Chip → Chip} {d : Chip} (hx : exec i s = s.run k f) (hk : k = true)
    (hd : f s.chip = d) : Yields i s d := by
  subst hk hd; unfold Yields; simpa [State.run] using hx

/-- A command of the clocked head. -/
theorem Yields.awake {i : Instr} {s : State} {k : Bool} {f : Chip → Chip} {d : Chip} (h : s.chip.awake = true)
    (hx : exec i s = s.runAwake k f) (hk : k = true) (hd : f s.chip = d) : Yields i s d := by
  subst hd; exact hx.trans (State.runAwake_next hk h)

/-- A command given by a BAR access. -/
theorem Yields.bar {i : Instr} {s : State} {k : Bool} {fn : Nat} {f : Chip → Chip} {d : Chip} (h : s.chip.awake = true)
    (hb : s.chip.barOpen fn = true) (hx : exec i s = s.runBar k fn f) (hk : k = true) (hd : f s.chip = d) : Yields i s d := by
  subst hd; exact hx.trans (State.runBar_next hk h hb)

/-- A command given by a configuration request. -/
theorem Yields.cfg {i : Instr} {s : State} {k : Bool} {fn : Nat} {f : Chip → Chip} {d : Chip} (h : s.chip.awake = true)
    (hb : s.chip.cfgOpen fn = true) (hx : exec i s = s.runCfg k fn f) (hk : k = true) (hd : f s.chip = d) : Yields i s d := by
  subst hd; exact hx.trans (State.runCfg_next hk h hb)

/-- A command given by a write of a BAR2 register. -/
theorem Yields.served {i : Instr} {s : State} {k host : Bool} {reg : Fld} {f : Chip → Chip} {d : Chip} (h : Served s)
    (hx : exec i s = s.runBar2 k host reg f) (hk : k = true) (hd : f s.chip = d) : Yields i s d := by
  subst hd; exact hx.trans (State.runBar2_served hk h)

/-- Under the sections in force nothing is exchanged (R63). -/
theorem Chip.underSections_now {c : Chip} {sect : Nat} (h : c.kcf.prevs.find? (fun p => p.1 == sect) = none) (f : Chip → Chip) :
    c.underSections sect f = f c := by simp [Chip.underSections, h]

/-- A fetched command that is offered begins (R63, R107). -/
theorem Fetching.executes {s : State} {id : CmdId} {admin : Bool} {opc : Nat} {x : Inflight} (h : Fetching s id admin opc x)
    (g : Inflight → Chip → Chip) : s.chip.execute id admin opc g = g x (s.chip.begun id) := by
  have ho : (admin && !s.chip.offers id.fn opc) = false := by cases admin <;> simp_all [Fetching]
  simp [Chip.execute, h.2.2.1, ho, Chip.underSections_now h.2.2.2.2, Chip.begun]

/-- A command whose data has arrived executes with it (R88). -/
theorem Delivered.executes {s : State} {id : CmdId} {admin : Bool} {opc slot : Nat} {x : Inflight} (h : Delivered s id admin opc x slot)
    (bytes : Nat) (early : Chip → Option Chip) (f : List Byte → Chip → Chip) :
    s.chip.executeWith id admin opc bytes early f = f (s.chip.load (s.chip.inputBuf slot) bytes) (s.chip.taken id) := by
  simp [Chip.executeWith, h.2.2.1, h.2.2.2.1, Chip.underSections_now h.2.2.2.2, Chip.taken]

/-- A command whose fields alone refuse it ends before its data is read (R121). -/
theorem Bringing.ends {s : State} {id : CmdId} {admin : Bool} {opc bytes : Nat} {x : Inflight} (h : Bringing s id admin opc bytes x)
    {early : Chip → Option Chip} {d : Chip} (he : early s.chip = some d) (f : List Byte → Chip → Chip) :
    s.chip.executeWith id admin opc bytes early f = d := by
  have ho : (admin && !s.chip.offers id.fn opc) = false := by cases admin <;> simp_all [Bringing, Fetching]
  simp [Chip.executeWith, h.1.2.2.1, h.2.1, ho, Chip.underSections_now h.1.2.2.2.2, h.2.2, he]

/-- A command that nothing refuses begins to read its data (R87). -/
theorem Bringing.begins {s : State} {id : CmdId} {admin : Bool} {opc bytes slot : Nat} {x : Inflight}
    (h : Bringing s id admin opc bytes x) (hb : bytes ≠ 0) {early : Chip → Option Chip} (he : early s.chip = none)
    (hs : s.chip.inputSlot = some slot) (f : List Byte → Chip → Chip) :
    s.chip.executeWith id admin opc bytes early f = s.chip.beginInput id x bytes slot := by
  have ho : (admin && !s.chip.offers id.fn opc) = false := by cases admin <;> simp_all [Bringing, Fetching]
  simp [Chip.executeWith, h.1.2.2.1, h.2.1, ho, Chip.underSections_now h.1.2.2.2.2, h.2.2, he, hb, hs]

/-- A fetched NVMe command begins. -/
theorem Yields.fetching {i : Instr} {s : State} {id : CmdId} {admin : Bool} {opc : Nat} {x : Inflight} {k : Bool} {f : Chip → Chip}
    {g : Inflight → Chip → Chip} {d : Chip} (h : Fetching s id admin opc x) (hx : exec i s = s.runAwake k f) (hk : k = true)
    (hf : f s.chip = s.chip.execute id admin opc g) (hd : g x (s.chip.begun id) = d) : Yields i s d :=
  Yields.awake h.1 hx hk ((hf.trans (h.executes g)).trans hd)

/-- R15: starting an operation while no result waits releases the one shown. -/
theorem NoneWaits.startOp {c : Chip} {valid : Fld} (h : NoneWaits c valid) : c.startOp valid = c.set valid 0 := by
  have : (c.set valid 0).regs.later = c.regs.later := by unfold Chip.set; split <;> rfl
  have h' : c.regs.later.find? (fun p => p.1 == valid) = none := h
  simp [Chip.startOp, this, h']

/-- R12: a result posted while none is shown, of a unit that signals none, is its fields and its VALID bit. -/
theorem Chip.postResult_shown {c : Chip} {valid : Fld} (h : c.on valid = false) (hk : valid ≠ R.KCF_RESULT_VALID)
    (hp : valid ≠ R.PWR_RESULT_VALID) (fields : List (Fld × Nat)) : c.postResult valid fields = (c.setAll fields).set valid 1 := by
  simp [Chip.postResult, Chip.showResult, h, hk, hp]

theorem RegsSame.of_regs {c d : Chip} (h : d.regs = c.regs) (l : List Fld) : RegsSame c d l :=
  ⟨fun f _ => Chip.get_of_regs h f, by rw [h], by rw [h], by rw [h]⟩

theorem RegsSame.set (c : Chip) (f : Fld) (v : Nat) {l : List Fld} (h : f ∈ l) : RegsSame c (c.set f v) l := by
  refine ⟨fun g hg => Chip.get_set_ne c v (fun e => hg ?_), ?_, ?_, ?_⟩
  · exact e ▸ List.mem_map_of_mem h
  all_goals (unfold Chip.set; split <;> rfl)

theorem RegsSame.trans {a b c : Chip} {l : List Fld} (h : RegsSame a b l) (g : RegsSame b c l) : RegsSame a c l :=
  ⟨fun f hf => (g.1 f hf).trans (h.1 f hf), g.2.1.trans h.2.1, g.2.2.1.trans h.2.2.1, g.2.2.2.trans h.2.2.2⟩

theorem RegsSame.then_regs {a b c : Chip} {l : List Fld} (h : RegsSame a b l) (g : c.regs = b.regs) : RegsSame a c l :=
  h.trans (RegsSame.of_regs g l)

theorem RegsSame.then_set {a b : Chip} {l : List Fld} (h : RegsSame a b l) {f : Fld} (v : Nat) (m : f ∈ l) :
    RegsSame a (b.set f v) l := h.trans (RegsSame.set b f v m)

end Sys2Proof

namespace Sys2Proof.Machine

@[simp] theorem engKey_div {n e : Nat} (h : e < 8) : engKey n e / 8 = n := by unfold engKey; omega
@[simp] theorem engKey_mod {n e : Nat} (h : e < 8) : engKey n e % 8 = e := by unfold engKey; omega

@[simp] theorem Chip.engAt_modEng_same (c : Chip) (k : Nat) (f : Eng → Eng) : (c.modEng k f).engAt k = f (c.engAt k) :=
  Sparse.get_set_same _ _ _ _

theorem Chip.engAt_modEng_ne (c : Chip) {j k : Nat} (f : Eng → Eng) (h : j ≠ k) : (c.modEng k f).engAt j = c.engAt j :=
  Sparse.get_set_ne _ _ _ _ h

@[simp] theorem Chip.set_engAt (c : Chip) (f : Fld) (v k : Nat) : (c.set f v).engAt k = c.engAt k := by simp [Chip.engAt]
@[simp] theorem Chip.set_clusAt (c : Chip) (f : Fld) (v n : Nat) : (c.set f v).clusAt n = c.clusAt n := by simp [Chip.clusAt]
@[simp] theorem Chip.modEng_clusAt (c : Chip) (k : Nat) (f : Eng → Eng) (n : Nat) : (c.modEng k f).clusAt n = c.clusAt n := rfl
@[simp] theorem Chip.modClus_engAt (c : Chip) (n : Nat) (f : Clus → Clus) (k : Nat) : (c.modClus n f).engAt k = c.engAt k := rfl
@[simp] theorem Chip.clusAt_modClus_same (c : Chip) (n : Nat) (f : Clus → Clus) : (c.modClus n f).clusAt n = f (c.clusAt n) :=
  Sparse.get_set_same _ _ _ _
@[simp] theorem Chip.modEng_get (c : Chip) (k : Nat) (f : Eng → Eng) (g : Fld) : (c.modEng k f).get g = c.get g := rfl
@[simp] theorem Chip.modClus_get (c : Chip) (n : Nat) (f : Clus → Clus) (g : Fld) : (c.modClus n f).get g = c.get g := rfl

theorem Chip.engAt_of_engs {c d : Chip} (h : d.sec.engs = c.sec.engs) (j : Nat) : d.engAt j = c.engAt j := by
  simp [Chip.engAt, h]

@[simp] theorem Chip.modEng_regs (c : Chip) (k : Nat) (f : Eng → Eng) : (c.modEng k f).regs = c.regs := rfl

@[simp] theorem Chip.modEng_evr (c : Chip) (k : Nat) (f : Eng → Eng) : (c.modEng k f).evr = c.evr := rfl

@[simp] theorem Chip.modEng_kcf (c : Chip) (k : Nat) (f : Eng → Eng) : (c.modEng k f).kcf = c.kcf := rfl

@[simp] theorem Chip.modEng_epc (c : Chip) (k : Nat) (f : Eng → Eng) : (c.modEng k f).epc = c.epc := rfl

@[simp] theorem Chip.modEng_nvm (c : Chip) (k : Nat) (f : Eng → Eng) : (c.modEng k f).nvm = c.nvm := rfl

@[simp] theorem Chip.modEng_boot (c : Chip) (k : Nat) (f : Eng → Eng) : (c.modEng k f).boot = c.boot := rfl

@[simp] theorem Chip.modEng_pwr (c : Chip) (k : Nat) (f : Eng → Eng) : (c.modEng k f).pwr = c.pwr := rfl

@[simp] theorem Chip.modEng_ing (c : Chip) (k : Nat) (f : Eng → Eng) : (c.modEng k f).ing = c.ing := rfl

@[simp] theorem Chip.modEng_dd (c : Chip) (k : Nat) (f : Eng → Eng) : (c.modEng k f).dd = c.dd := rfl

@[simp] theorem Chip.modEng_cmp (c : Chip) (k : Nat) (f : Eng → Eng) : (c.modEng k f).cmp = c.cmp := rfl

@[simp] theorem Chip.modEng_cpe (c : Chip) (k : Nat) (f : Eng → Eng) : (c.modEng k f).cpe = c.cpe := rfl

@[simp] theorem Chip.modEng_dge (c : Chip) (k : Nat) (f : Eng → Eng) : (c.modEng k f).dge = c.dge := rfl

@[simp] theorem Chip.modEng_ftm (c : Chip) (k : Nat) (f : Eng → Eng) : (c.modEng k f).ftm = c.ftm := rfl

@[simp] theorem Chip.modEng_rde (c : Chip) (k : Nat) (f : Eng → Eng) : (c.modEng k f).rde = c.rde := rfl

@[simp] theorem Chip.modEng_isf (c : Chip) (k : Nat) (f : Eng → Eng) : (c.modEng k f).isf = c.isf := rfl

@[simp] theorem Chip.modEng_zbl (c : Chip) (k : Nat) (f : Eng → Eng) : (c.modEng k f).zbl = c.zbl := rfl

@[simp] theorem Chip.modEng_dma (c : Chip) (k : Nat) (f : Eng → Eng) : (c.modEng k f).dma = c.dma := rfl

@[simp] theorem Chip.modEng_mem (c : Chip) (k : Nat) (f : Eng → Eng) : (c.modEng k f).mem = c.mem := rfl

@[simp] theorem Chip.modEng_root (c : Chip) (k : Nat) (f : Eng → Eng) : (c.modEng k f).root = c.root := rfl

@[simp] theorem Chip.modEng_dram (c : Chip) (k : Nat) (f : Eng → Eng) : (c.modEng k f).dram = c.dram := rfl

@[simp] theorem Chip.modEng_out (c : Chip) (k : Nat) (f : Eng → Eng) : (c.modEng k f).out = c.out := rfl

@[simp] theorem Chip.modEng_freeCount (c : Chip) (k : Nat) (f : Eng → Eng) : (c.modEng k f).freeCount = c.freeCount := rfl

@[simp] theorem Chip.modEng_clusters (c : Chip) (k : Nat) (f : Eng → Eng) : (c.modEng k f).sec.clusters = c.sec.clusters := rfl

@[simp] theorem Chip.modEng_waiting (c : Chip) (k : Nat) (f : Eng → Eng) : (c.modEng k f).sec.waiting = c.sec.waiting := rfl

theorem Eng.view_of_empty {e : Eng} (h : e.queue = []) : e.view = e := by simp [Eng.view, h]

theorem Eng.fetchPc_of_empty {e : Eng} (h : e.queue = []) : e.fetchPc = e.pc := by simp [Eng.fetchPc, h]

theorem Eng.awaits_of_empty {e : Eng} (h : e.queue = []) (r : Nat) : e.awaits r = false := by simp [Eng.awaits, h]

/-- Whether an effect is on the engine alone. -/
def Effect.own (x : Effect) : Bool :=
  match x with
  | .dram _ _ | .release _ _ => false
  | _ => true

theorem Chip.effect_own (c : Chip) (k : Nat) {x : Effect} (h : x.own = true) : c.effect k x = c.modEng k (fun e => e.apply x) := by
  cases x <;> first | rfl | cases h

end Sys2Proof.Machine

namespace Sys2Proof.Machine

/-- Clearing a list of fields leaves every other register field as it was. -/
theorem Chip.clearAll_regsSame (l : List Fld) {m : List Fld} {c d : Chip} (hs : RegsSame c d m) (h : ∀ f ∈ l, f ∈ m) :
    RegsSame c (d.clearAll l) m := by
  induction l generalizing d with
  | nil => exact hs
  | cons a l ih => exact ih (hs.then_set _ (h a (by simp))) (fun f hf => h f (by simp [hf]))

/-- Clearing fields keeps a field 0 that is one of them or none of them. -/
theorem Chip.clearAll_keeps_zero (l : List Fld) (c : Chip) {f : Fld} (h : ∀ g ∈ l, f.key = g.key → f = g) (hz : c.get f = 0) :
    (c.clearAll l).get f = 0 := by
  induction l generalizing c with
  | nil => exact hz
  | cons a l ih =>
    refine ih (c.set a 0) (fun g hg => h g (by simp [hg])) ?_
    by_cases q : f.key = a.key
    · rw [h a (by simp) q, Chip.get_set_same]; simp [trunc]
    · rw [Chip.get_set_ne _ _ q, hz]

/-- Clearing a list of distinct fields leaves each of them 0. -/
theorem Chip.clearAll_get (l : List Fld) (c : Chip) (h : ∀ f ∈ l, ∀ g ∈ l, f.key = g.key → f = g) : ∀ f ∈ l, (c.clearAll l).get f = 0 := by
  induction l generalizing c with
  | nil => intro f hf; cases hf
  | cons a l ih =>
    intro f hf
    rcases List.mem_cons.1 hf with rfl | hf
    · exact Chip.clearAll_keeps_zero l (c.set f 0) (fun g hg => h f (by simp) g (by simp [hg])) (by rw [Chip.get_set_same]; simp [trunc])
    · exact ih (c.set a 0) (fun f hf g hg => h f (by simp [hf]) g (by simp [hg])) f hf

end Sys2Proof.Machine
end

