-- ==== Sys2Proof/Laws/Engine.lean ====
section
/-!
SUPPORT. What an instruction of a stream engine does when the commit queue is empty: it commits at once.
-/
namespace Sys2Proof.Machine

/-- The running state of an engine set as `issue` sets it. -/
def Eng.started (e : Eng) (y : Cycles) : Eng := { e with state := .running, stall := 0, latched := none, cyc := y }

theorem Eng.apply_started (e : Eng) (y : Cycles) (x : Effect) : (e.started y).apply x = (e.apply x).started y := by
  cases x with
  | reg r v => simp only [Eng.apply, Eng.setReg, Eng.started]; split <;> rfl
  | mem a bs => simp only [Eng.apply, Eng.writeMem, Eng.started, Eng.wordAt]; split <;> rfl
  | sys n v => simp only [Eng.apply, Eng.setSys, Eng.started]; split <;> rfl
  | _ => rfl

theorem Eng.applyAll_started (e : Eng) (y : Cycles) (l : List Effect) :
    (e.started y).applyAll l = (e.applyAll l).started y := by
  induction l generalizing e with
  | nil => rfl
  | cons x l ih =>
    simp only [Eng.applyAll, List.foldl_cons, Eng.apply_started] at ih ⊢
    exact ih _

theorem Eng.apply_kept (e : Eng) (x : Effect) : (e.apply x).queue = e.queue ∧ (e.apply x).instret = e.instret := by
  cases x with
  | reg r v => simp only [Eng.apply, Eng.setReg]; split <;> exact ⟨rfl, rfl⟩
  | mem a bs => simp only [Eng.apply, Eng.writeMem]; split <;> exact ⟨rfl, rfl⟩
  | sys n v => simp only [Eng.apply, Eng.setSys]; split <;> exact ⟨rfl, rfl⟩
  | _ => exact ⟨rfl, rfl⟩

theorem Eng.applyAll_kept (e : Eng) (l : List Effect) :
    (e.applyAll l).queue = e.queue ∧ (e.applyAll l).instret = e.instret := by
  induction l generalizing e with
  | nil => exact ⟨rfl, rfl⟩
  | cons x l ih =>
    have a := ih (e.apply x)
    have b := Eng.apply_kept e x
    exact ⟨a.1.trans b.1, a.2.trans b.2⟩

/-- Effects on the engine alone, one after another. -/
theorem Chip.effects_own (c : Chip) (k : Nat) (l : List Effect) (h : l.all Effect.own = true) :
    l.foldl (fun d x => d.effect k x) c = c.setEng k ((c.engAt k).applyAll l) ∨
    (l = [] ∧ l.foldl (fun d x => d.effect k x) c = c) := by
  cases l with
  | nil => exact .inr ⟨rfl, rfl⟩
  | cons x l =>
    refine .inl ?_
    simp only [List.all_cons, Bool.and_eq_true] at h
    rw [List.foldl_cons, Chip.effect_own c k h.1]
    have g : ∀ (l : List Effect) (c : Chip) (e : Eng), l.all Effect.own = true → c.engAt k = e →
        l.foldl (fun d x => d.effect k x) c = if l = [] then c else c.setEng k (e.applyAll l) := by
      intro l
      induction l with
      | nil => intro c e _ _; rfl
      | cons x l ih =>
        intro c e h q
        simp only [List.all_cons, Bool.and_eq_true] at h
        rw [List.foldl_cons, Chip.effect_own c k h.1, ih _ _ h.2 (Chip.engAt_modEng_same c k _)]
        subst q
        by_cases hl : l = []
        · subst hl; simp [Chip.modEng, Eng.applyAll]
        · simp only [hl, if_false, reduceCtorEq]
          simp [Chip.modEng, Chip.setEng, Eng.applyAll, Sparse.set_set]
    rw [g l _ _ h.2 (Chip.engAt_modEng_same c k _)]
    by_cases hl : l = []
    · subst hl; simp [Chip.modEng, Eng.applyAll]
    · simp [hl, Chip.modEng, Chip.setEng, Eng.applyAll, Sparse.set_set]

/-- The engine after effects on it alone. -/
theorem Chip.engAt_effects (c : Chip) (k : Nat) (l : List Effect) (h : l.all Effect.own = true) :
    (l.foldl (fun d x => d.effect k x) c).engAt k = (c.engAt k).applyAll l := by
  rcases Chip.effects_own c k l h with q | ⟨rfl, q⟩
  · rw [q]; exact Sparse.get_set_same _ _ _ _
  · rfl

/-- Effects on one engine leave everything else alone. -/
theorem Chip.effects_frame (c : Chip) (k : Nat) (l : List Effect) (h : l.all Effect.own = true) :
    (l.foldl (fun d x => d.effect k x) c) =
      { c with sec := { c.sec with engs := (l.foldl (fun d x => d.effect k x) c).sec.engs } } ∧
    ∀ j, j ≠ k → (l.foldl (fun d x => d.effect k x) c).engAt j = c.engAt j := by
  rcases Chip.effects_own c k l h with q | ⟨rfl, q⟩
  · rw [q]; exact ⟨rfl, fun j hj => Sparse.get_set_ne _ _ _ _ hj⟩
  · exact ⟨rfl, fun j hj => rfl⟩

/-- A queue of one entry that waits for nothing and raises nothing commits it (R438). -/
theorem Chip.drain_one (c : Chip) {n e : Nat} (he : e < 8) (q : QEntry) (hl : q.load = none) (hx : q.exc = none)
    (ho : q.effects.all Effect.own = true) :
    let k := engKey n e
    let d := c.drain k [q]
    d.engAt k = { (c.engAt k).applyAll q.effects with
      pc := q.next, instret := (c.engAt k).instret + 1, queue := []
      latched := if q.effects.any storesImem then some (q.next, (c.engAt k).copiesAt q.next) else none } ∧
    (∀ j, j ≠ k → d.engAt j = c.engAt j) ∧
    d.get (R.SEC_ENG_CNT_INSTRET_INSTRET n e) =
      trunc (R.SEC_ENG_CNT_INSTRET_INSTRET n e).width (c.get (R.SEC_ENG_CNT_INSTRET_INSTRET n e) + 1) ∧
    RegsSame c d [R.SEC_ENG_CNT_INSTRET_INSTRET n e] ∧
    d.sec.clusters = c.sec.clusters ∧ d.sec.waiting = c.sec.waiting ∧ d = { c with regs := d.regs, sec := d.sec } := by
  intro k d
  have hk8 : k / 8 = n := engKey_div he
  have hkm : k % 8 = e := engKey_mod he
  set latch := (if q.effects.any storesImem then some (q.next, (c.engAt k).copiesAt q.next) else none) with hlatch
  set c2 := q.effects.foldl (fun d x => d.effect k x) c with hc2
  set c3 := c2.modEng k (fun g => { g with pc := q.next, instret := g.instret + 1, latched := latch }) with hc3
  set F := R.SEC_ENG_CNT_INSTRET_INSTRET (k / 8) (k % 8) with hF
  have hd : d = (c3.bump F 1).modEng k (fun g => { g with queue := [] }) := by
    simp [d, Chip.drain, hl, hx, Chip.commitOne, hlatch, hc3, hc2, hF]
  obtain ⟨f2, o2⟩ := Chip.effects_frame c k q.effects ho
  rw [← hc2] at f2 o2
  have e2 : c2.engAt k = (c.engAt k).applyAll q.effects := by rw [hc2, Chip.engAt_effects c k _ ho]
  have kq := Eng.applyAll_kept (c.engAt k) q.effects
  have r3 : c3.regs = c.regs := by rw [hc3, Chip.modEng_regs, f2]
  have rd : d.regs = (c3.set F (c3.get F + 1)).regs := by simp [hd, Chip.bump]
  have b : ∀ j, (c3.bump F 1).engAt j = c3.engAt j := fun j => Chip.engAt_of_engs (by simp) j
  refine ⟨?_, ?_, ?_, ?_, ?_, ?_, ?_⟩
  · rw [hd, Chip.engAt_modEng_same, b, hc3, Chip.engAt_modEng_same, e2, kq.2]
  · intro j hj
    rw [hd, Chip.engAt_modEng_ne _ _ hj, b, hc3, Chip.engAt_modEng_ne _ _ hj, o2 j hj]
  · rw [hk8, hkm] at hF
    rw [← hF, Chip.get_of_regs rd, Chip.get_set_same, Chip.get_of_regs r3]
  · rw [hk8, hkm] at hF
    rw [← hF]
    exact ((RegsSame.of_regs r3 _).then_set _ (by simp)).then_regs rd
  · have : c2.sec.clusters = c.sec.clusters := by rw [f2]
    simp [hd, hc3, this]
  · have : c2.sec.waiting = c.sec.waiting := by rw [f2]
    simp [hd, hc3, this]
  · apply Chip.eq_of_fields <;> simp [hd, hc3] <;> rw [f2]

/-- An instruction that enters an empty commit queue, waits for nothing and raises nothing commits (R438). -/
theorem Chip.issue_commits (c : Chip) {n e : Nat} (he : e < 8) (q : QEntry) (miss : Nat)
    (hq : (c.engAt (engKey n e)).queue = []) (hl : q.load = none) (hx : q.exc = none)
    (ho : q.effects.all Effect.own = true) :
    CommitsLatch c (c.issue (engKey n e) q miss) n e (fun g => g.applyAll q.effects) q.next
      (if q.effects.any storesImem then some (q.next, (c.engAt (engKey n e)).copiesAt q.next) else none) := by
  set k := engKey n e with hk
  set y := (c.engAt k).cyc.spend c.freeNow 0 miss with hy
  set c1 : Chip := (c.modEng k (fun g => g.started y)).useFree with hc1
  have e1 : c1.engAt k = (c.engAt k).started y := Chip.engAt_modEng_same c k (fun g => g.started y)
  have hs : c.issue k q miss = c1.drain k [q] := by
    have : c.issue k q miss = c1.drain k ((c1.engAt k).queue ++ [q]) := rfl
    rw [this, e1]
    have : ((c.engAt k).started y).queue = [] := hq
    rw [this]; rfl
  have o1 : ∀ j, j ≠ k → c1.engAt j = c.engAt j := fun j hj => Chip.engAt_modEng_ne c (fun g => g.started y) hj
  obtain ⟨d1, d2, d3, d4, d5, d6, d7⟩ := Chip.drain_one c1 he q hl hx ho
  rw [← hk] at d1 d2 d3 d4 d5 d6 d7
  rw [hs]
  have g1 : ∀ f : Fld, c1.get f = c.get f := fun f => Chip.get_of_regs rfl f
  have hq' : ((c.engAt k).applyAll q.effects).queue = [] := (Eng.applyAll_kept _ _).1.trans hq
  refine ⟨?_, fun j hj => (d2 j hj).trans (o1 j hj), ?_, ?_, d5, d6, ?_⟩
  · rw [d1, e1, Eng.applyAll_started]
    simp only [Eng.started, Eng.copiesAt, Eng.wordAt]
    rw [hq']
  · rw [d3, g1]
  · exact (RegsSame.of_regs (by simp [hc1]) _).trans d4
  · rw [d7]; rfl

/-- A legal word of a row's opcode, fetched with the commit queue empty, is issued with its plan. -/
theorem Chip.row_issue {s : State} {n e : Nat} {w : Word32} (h : Fetched s n e w) {ok : Bool} (hok : ok = true)
    (hl : legalWord w = true) (srcs : List Nat) (plan : Eng → Nat → Plan) {p : Plan}
    (hp : plan (s.chip.engAt (engKey n e)) (s.chip.engAt (engKey n e)).pc = p) :
    s.chip.row n e w ok srcs plan = s.chip.issue (engKey n e)
      ⟨(s.chip.engAt (engKey n e)).pc, p.next, p.load, p.exc, p.effects⟩ p.miss := by
  obtain ⟨_, _, _, hr, hq⟩ := h
  subst hp
  simp [Chip.row, hok, hl, Chip.execWord, hr, hq, Eng.view_of_empty hq, Eng.fetchPc_of_empty hq, Eng.awaits_of_empty hq]

/-- A legal word of a row's opcode, fetched with the commit queue empty, commits what its plan says. -/
theorem Chip.row_commits {s : State} {n e : Nat} {w : Word32} (h : Fetched s n e w) {ok : Bool} (hok : ok = true)
    (hl : legalWord w = true) (srcs : List Nat) (plan : Eng → Nat → Plan) {p : Plan}
    (hp : plan (s.chip.engAt (engKey n e)) (s.chip.engAt (engKey n e)).pc = p) (hload : p.load = none) (hx : p.exc = none)
    (ho : p.effects.all Effect.own = true) :
    CommitsLatch s.chip (s.chip.row n e w ok srcs plan) n e (fun g => g.applyAll p.effects) p.next
      (if p.effects.any storesImem then some (p.next, (s.chip.engAt (engKey n e)).copiesAt p.next) else none) := by
  rw [Chip.row_issue h hok hl srcs plan hp]
  exact Chip.issue_commits s.chip h.2.1 _ _ h.2.2.2.2 hload hx ho

/-- A queue of one entry that raises an exception takes it (R442, R443). -/
theorem Chip.drain_raises (c : Chip) {n e : Nat} (he : e < 8) (q : QEntry) {cause addr : Nat} (hl : q.load = none)
    (hx : q.exc = some (cause, addr)) : Raises c ((c.drain (engKey n e) [q]).useFree) n e cause q.pc addr := by
  set k := engKey n e with hk
  have hk8 : k / 8 = n := engKey_div he
  set c2 := c.modEng k (fun g => { g with queue := [] }) with hc2
  have hd : c.drain k [q] = c2.raiseExc k cause q.pc addr := by
    simp [Chip.drain, hl, hx, Chip.squash, Chip.squashJobs, hc2]
  have e2 : c2.engAt k = { c.engAt k with queue := [] } := by rw [hc2, Chip.engAt_modEng_same]
  have o2 : ∀ j, j ≠ k → c2.engAt j = c.engAt j := fun j hj => Chip.engAt_modEng_ne _ _ hj
  have w2 : c2.sec.clusters = c.sec.clusters ∧ c2.sec.waiting = c.sec.waiting := ⟨rfl, rfl⟩
  rw [hd]
  set x := c2.modEng k (fun e => { e with
    epc := q.pc, ecause := cause, eaddr := addr
    flags := if cause = 0x06 then { e.flags with dz := true } else e.flags
    stream := false, latched := none }) with hxx
  have ex : x.engAt k = { c.engAt k with
      queue := [], epc := q.pc, ecause := cause, eaddr := addr
      flags := if cause = 0x06 then { (c.engAt k).flags with dz := true } else (c.engAt k).flags
      stream := false, latched := none } := by rw [hxx, Chip.engAt_modEng_same, e2]
  have r2 : x.regs = c.regs := by simp [hxx, hc2]
  have ox : ∀ j, j ≠ k → x.engAt j = c.engAt j := fun j hj => (Chip.engAt_modEng_ne _ _ hj).trans (o2 j hj)
  have u : ∀ (z : Chip) j, z.useFree.engAt j = z.engAt j := fun _ _ => rfl
  by_cases hh : ((c.engAt k).etvec != 0 && handlerAllowed cause && !(c.engAt k).inHandler) = true
  · have hr : c2.raiseExc k cause q.pc addr =
        x.modEng k (fun e => { e with inHandler := true, pc := e.etvec, state := .running, stall := 0 }) := by
      have hh' : ((x.engAt k).etvec != 0 && handlerAllowed cause && !(x.engAt k).inHandler) = true := by
        rw [ex]; exact hh
      show (if ((x.engAt k).etvec != 0 && handlerAllowed cause && !(x.engAt k).inHandler) = true then _ else _) = _
      rw [if_pos hh']
    rw [hr]
    refine ⟨?_, ?_, ?_, ?_, w2.1, w2.2, ?_⟩
    · rw [← hk, u, Chip.engAt_modEng_same, ex, if_pos hh]
    · intro j hj; rw [u, Chip.engAt_modEng_ne _ _ hj, ox j hj]
    · intro _; exact RegsSame.of_regs (by simp [r2]) _
    · intro q; rw [hh] at q; cases q
    · apply Chip.eq_of_fields <;> simp [hxx, hc2]
  · have hf : ((c.engAt k).etvec != 0 && handlerAllowed cause && !(c.engAt k).inHandler) = false := by simpa using hh
    have hr : c2.raiseExc k cause q.pc addr =
        (x.modEng k (fun e => { e with
          state := .faulted, stall := 0, pc := q.pc, faultCause := cause, faultEpc := q.pc, faultAddr := addr })).bump
          (R.SEC_CL_CNT_FAULTS_FAULTS (k / 8)) 1 := by
      have hh' : ¬ ((x.engAt k).etvec != 0 && handlerAllowed cause && !(x.engAt k).inHandler) = true := by
        rw [ex]; exact hh
      show (if ((x.engAt k).etvec != 0 && handlerAllowed cause && !(x.engAt k).inHandler) = true then _ else _) = _
      rw [if_neg hh']
    rw [hr, hk8]
    set z := x.modEng k (fun e => { e with
          state := .faulted, stall := 0, pc := q.pc, faultCause := cause, faultEpc := q.pc, faultAddr := addr }) with hz
    have rz : z.regs = c.regs := by simp [hz, r2]
    have ez : ∀ j, (z.bump (R.SEC_CL_CNT_FAULTS_FAULTS n) 1).engAt j = z.engAt j := fun j =>
      Chip.engAt_of_engs (by simp) j
    refine ⟨?_, ?_, ?_, ?_, ?_, ?_, ?_⟩
    · rw [← hk, u, ez, hz, Chip.engAt_modEng_same, ex, if_neg hh]
    · intro j hj; rw [u, ez, hz, Chip.engAt_modEng_ne _ _ hj, ox j hj]
    · intro q; rw [hf] at q; cases q
    · intro _
      have hset : RegsSame c (z.bump (R.SEC_CL_CNT_FAULTS_FAULTS n) 1) [R.SEC_CL_CNT_FAULTS_FAULTS n] :=
        (RegsSame.of_regs rz _).then_set _ (by simp)
      refine ⟨hset, ?_⟩
      rw [Chip.useFree_get, Chip.bump, Chip.get_set_same, Chip.get_of_regs rz]
    · simp [hz, hxx, w2.1]
    · simp [hz, hxx, w2.2]
    · apply Chip.eq_of_fields <;> simp [hz, hxx, hc2]

/-- An instruction that enters an empty commit queue and raises an exception takes it at once (R442, R443). -/
theorem Chip.issue_raises (c : Chip) {n e : Nat} (he : e < 8) (q : QEntry) (miss : Nat) {cause addr : Nat}
    (hq : (c.engAt (engKey n e)).queue = []) (hl : q.load = none) (hx : q.exc = some (cause, addr)) :
    Raises c (c.issue (engKey n e) q miss) n e cause q.pc addr := by
  set k := engKey n e with hk
  set y := (c.engAt k).cyc.spend c.freeNow 0 miss with hy
  set c1 : Chip := (c.modEng k (fun g => g.started y)).useFree with hc1
  have e1 : c1.engAt k = (c.engAt k).started y := Chip.engAt_modEng_same c k (fun g => g.started y)
  have hs : c.issue k q miss = c1.drain k [q] := by
    have : c.issue k q miss = c1.drain k ((c1.engAt k).queue ++ [q]) := rfl
    rw [this, e1]
    have : ((c.engAt k).started y).queue = [] := hq
    rw [this]; rfl
  have o1 : ∀ j, j ≠ k → c1.engAt j = c.engAt j := fun j hj => Chip.engAt_modEng_ne c (fun g => g.started y) hj
  obtain ⟨d1, d2, d3, d4, d5, d6, d7⟩ := Chip.drain_raises c1 (n := n) he q hl hx
  rw [← hk] at d1 d2 d3 d4 d5 d6 d7
  rw [hs]
  set d := c1.drain k [q] with hd
  have g1 : ∀ f : Fld, c1.get f = c.get f := fun f => Chip.get_of_regs rfl f
  have hf : d.freeCount = c.freeCount + 1 := by
    have : d.freeCount + 1 = c1.freeCount + 1 := congrArg Chip.freeCount d7
    exact Nat.succ.inj this
  have d7' : d = { c1 with regs := d.regs, sec := d.sec } := by
    have := congrArg (fun z : Chip => { z with freeCount := d.freeCount }) d7
    rw [hf] at this
    have h2 : d = { d.useFree with freeCount := c.freeCount + 1 } := by rw [← hf]; rfl
    exact h2.trans this
  simp only [e1] at d1 d3 d4
  have hq0 : (c.engAt k).queue = [] := hq
  refine ⟨d1, fun j hj => (d2 j hj).trans (o1 j hj), fun h => ?_, fun h => ?_, d5, d6, ?_⟩
  · exact (RegsSame.of_regs rfl _).trans ((d3 h).trans (RegsSame.of_regs rfl _))
  · obtain ⟨a, b⟩ := d4 h
    refine ⟨(RegsSame.of_regs rfl _).trans (a.trans (RegsSame.of_regs rfl _)), ?_⟩
    rw [g1] at b
    exact b
  · rw [d7']
    rfl

/-- A legal word of a row's opcode, fetched with the commit queue empty, takes the exception its plan raises. -/
theorem Chip.row_raises {s : State} {n e : Nat} {w : Word32} (h : Fetched s n e w) {ok : Bool} (hok : ok = true)
    (hl : legalWord w = true) (srcs : List Nat) (plan : Eng → Nat → Plan) {p : Plan} {cause addr : Nat}
    (hp : plan (s.chip.engAt (engKey n e)) (s.chip.engAt (engKey n e)).pc = p) (hload : p.load = none)
    (hx : p.exc = some (cause, addr)) :
    Raises s.chip (s.chip.row n e w ok srcs plan) n e cause (s.chip.engAt (engKey n e)).pc addr := by
  rw [Chip.row_issue h hok hl srcs plan hp]
  exact Chip.issue_raises s.chip h.2.1 _ _ h.2.2.2.2 hload hx

end Sys2Proof.Machine
end

