-- ==== Sys2Proof/Laws/Memory.lean ====
section
/-!
SUPPORT. Stores to the shared memory: what they leave alone, and that they keep the canonical form of DRAM.
-/
namespace Sys2Proof.Machine

/-- A store changes the DRAM and the cache lines, and nothing else. -/
theorem Chip.putByte_frame (c : Chip) (a : Nat) (b : Byte) :
    c.putByte a b = { c with dram := (c.putByte a b).dram, mem := (c.putByte a b).mem } := by
  unfold Chip.putByte
  repeat' split
  all_goals rfl

/-- The bytes put change the DRAM and the cache lines, and nothing else. -/
theorem Chip.putBytes_frame (c : Chip) (a : Nat) (bs : List Byte) :
    c.putBytes a bs = { c with dram := (c.putBytes a bs).dram, mem := (c.putBytes a bs).mem } := by
  induction bs generalizing c a with
  | nil => rfl
  | cons b bs ih =>
    show (c.putByte a b).putBytes (a + 1) bs = _
    rw [ih]
    exact congrArg (fun y : Chip => { y with
      dram := ((c.putByte a b).putBytes (a + 1) bs).dram
      mem := ((c.putByte a b).putBytes (a + 1) bs).mem }) (c.putByte_frame a b)

/-- Clearing the poison of rewritten lines leaves DRAM as it is. -/
@[simp] theorem Chip.cleanse_dram (c : Chip) (a n : Nat) : (c.cleanse a n).dram = c.dram := rfl

/-- A store changes the DRAM and the shared memory's own state, and nothing else. -/
theorem Chip.store_frame (c : Chip) (a : Nat) (bs : List Byte) :
    c.store a bs = { c with dram := (c.store a bs).dram, mem := (c.store a bs).mem } :=
  congrArg (fun y : Chip => { y with dram := (c.store a bs).dram, mem := (c.store a bs).mem }) (c.putBytes_frame a bs)

/-- Bytes put commute with a change of the engines and of the count of free values. -/
theorem Chip.putBytes_sec (c : Chip) (x : Sec) (n : Nat) (a : Nat) (bs : List Byte) :
    ({ c with sec := x, freeCount := n } : Chip).putBytes a bs = { c.putBytes a bs with sec := x, freeCount := n } := by
  induction bs generalizing c a with
  | nil => rfl
  | cons b bs ih =>
    show (({ c with sec := x, freeCount := n } : Chip).putByte a b).putBytes (a + 1) bs = _
    have : ({ c with sec := x, freeCount := n } : Chip).putByte a b = { c.putByte a b with sec := x, freeCount := n } := by
      unfold Chip.putByte
      have : ({ c with sec := x, freeCount := n } : Chip).lineAt (a / 64) = c.lineAt (a / 64) := rfl
      rw [this]
      repeat' split
      all_goals rfl
    rw [this, ih]
    rfl

/-- A store commutes with a change of the engines and of the count of free values. -/
theorem Chip.store_sec (c : Chip) (x : Sec) (n : Nat) (a : Nat) (bs : List Byte) :
    ({ c with sec := x, freeCount := n } : Chip).store a bs = { c.store a bs with sec := x, freeCount := n } :=
  congrArg (fun y : Chip => y.cleanse a bs.length) (c.putBytes_sec x n a bs)

/-- Bytes put keep the canonical form of DRAM. -/
theorem Chip.putBytes_dram_wf (c : Chip) (a : Nat) (bs : List Byte) (h : Mem.wf c.dram = true) :
    Mem.wf (c.putBytes a bs).dram = true := by
  induction bs generalizing c a with
  | nil => exact h
  | cons b bs ih =>
    refine ih _ _ ?_
    unfold Chip.putByte
    split
    · exact h
    · split
      · exact h
      · exact Mem.putByte_wf _ _ _ h

/-- A store keeps the canonical form of DRAM. -/
theorem Chip.store_dram_wf (c : Chip) (a : Nat) (bs : List Byte) (h : Mem.wf c.dram = true) : Mem.wf (c.store a bs).dram = true :=
  c.putBytes_dram_wf a bs h

end Sys2Proof.Machine
end

