-- ==== Sys2Proof/Tests/Slice0.lean ====
section
/-!
SUPPORT. The model's own tests: commands that name units the head does not have, a concrete state for the hypotheses of each statement
(its clauses one by one, with the values where they meet), and results that the spec states, one step each.
-/
namespace Sys2Proof.Tests

open Sys2Proof.Machine

set_option Elab.async false

/-! ### Stream engines: the hypotheses of each statement are met, clause by clause, and results worked by hand -/

/-- Day, with nothing configured. -/
def day : Chip := { pwr := { mode := .day, dawnStep := 7, pwrgd := true, pwrReq := true } }

/-- Engine 0 of cluster 0 running at PC 0 with a word there and some registers. -/
def running (w : Word32) (regs : List (Nat × Word64)) : Eng := { state := .running, imem := Mem.writeNat [] 0 4 w.toNat, regs := regs }

/-- A work item of KIND 2 for tenant 0. -/
def item : WorkItem := ⟨7, 2, 0, 0, 1, 0, 1, 0, 0, 0, 0, 0, 0, 0, 0, 0, [], []⟩

/-- A head in Day with that engine. -/
def withEng (g : Eng) : State := { chip := day.setEng 0 g }

/-- Fetched and a legal word, as a Bool. -/
def met (s : State) (w : Word32) : Bool :=
  s.chip.awake && (s.chip.engAt 0).ready w && (s.chip.engAt 0).queue.isEmpty && legalWord w

/-- What `met` says. -/
theorem fetched_of_met {s : State} {w : Word32} (h : met s w = true) : Fetched s 0 0 w ∧ legalWord w = true := by
  simp only [met, Bool.and_eq_true, List.isEmpty_iff] at h
  exact ⟨⟨by decide, by decide, h.1.1.1, h.1.1.2, h.1.2⟩, h.2⟩

/-- O1, every opcode of its family; shifts by 63 and by 64. -/
theorem test_met_immediates : ([0x0861FFFF#32, 0x0C6180FF#32, 0x106180FF#32, 0x146180FF#32, 0x1861803F#32, 0x18618040#32, 0x1C618040#32, 0x20618040#32, 0x2461FFFF#32, 0x28018005#32] : List Word32).all (fun w =>
    met (withEng (running w [(1, 5)])) w && decide (2 ≤ opOf w) && decide (opOf w ≤ 10)) = true := by
  decide +kernel

/-- O2, every function; a divisor of 5 and, with DZE both ways, of 0. -/
theorem test_met_alu : ([0x04611400#32, 0x04611401#32, 0x04611402#32, 0x04611403#32, 0x04611404#32, 0x04611405#32, 0x04611408#32, 0x04611409#32, 0x0461140A#32, 0x0461140B#32, 0x04611410#32, 0x04611411#32, 0x04611412#32, 0x04610420#32, 0x04610428#32, 0x04610429#32, 0x0461042A#32, 0x04611430#32, 0x04611431#32, 0x04611432#32, 0x04611433#32, 0x04611418#32, 0x04611419#32, 0x0461141A#32, 0x0461141B#32] : List Word32).all (fun w =>
      met (withEng (running w [(1, 7), (2, 5)])) w && opOf w == 1) = true ∧
    ([0x04611418#32, 0x04611419#32, 0x0461141A#32, 0x0461141B#32] : List Word32).all (fun w => [true, false].all (fun z =>
      met (withEng { running w [(1, 7)] with flags := { dze := z } }) w && (running w [(1, 7)]).reg (xbOf w) == 0)) = true := by
  decide +kernel

/-- O3, every row and every condition. -/
theorem test_met_moves : ([0x2CE12345#32, 0x30E00001#32, 0x803FFFFF#32, 0x807FFFFF#32, 0x80BFFFFF#32, 0x80FFFFFF#32, 0x813FFFFF#32, 0x817FFFFF#32, 0x81BFFFFF#32, 0x81FFFFFF#32, 0x823FFFFF#32, 0x827FFFFF#32, 0x82BFFFFF#32, 0x82FFFFFF#32, 0x833FFFFF#32, 0x837FFFFF#32, 0x83BFFFFF#32, 0x84200004#32, 0x88200004#32, 0x8FFFFFFE#32, 0x90610008#32, 0xE0000000#32] : List Word32).all (fun w => met (withEng (running w [])) w) = true := by
  decide +kernel

/-- O4, every system register, the first number that names none, and ERET, FENCE, IFENCE. -/
theorem test_met_system : ([0xE0600006#32, 0xE0600806#32, 0xE0601006#32, 0xE0601806#32, 0xE0602006#32, 0xE0602806#32, 0xE0603006#32, 0xE0603806#32, 0xE0604006#32, 0xE0604806#32, 0xE0605006#32, 0xE0605806#32, 0xE0606006#32, 0xE0606806#32, 0xE060F806#32, 0xE0010007#32, 0xE0010807#32, 0xE0011007#32, 0xE0012007#32, 0xE001F807#32, 0xE0000005#32, 0xE0000001#32, 0xE0000002#32] : List Word32).all (fun w => met (withEng (running w [])) w && opOf w == 0x38) = true := by
  decide +kernel

/-- O5: BRK; the all-zeros word; a fetch past IMEM and one that is misaligned. -/
theorem test_met_exceptions :
    (Fetched (withEng (running 0xE0000004#32 [])) 0 0 0xE0000004#32 ∧ legalWord 0xE0000004#32 = true) ∧
    (Fetched (withEng (running 0 [])) 0 0 0 ∧ legalWord 0 = false) ∧
    (∀ p ∈ [0x8000, 2], (withEng { state := .running, pc := p }).chip.awake = true ∧ (0x8000 < p + 4 ∨ p % 4 ≠ 0)) := by
  unfold Fetched
  decide +kernel

/-- O6: every load, from IMEM, the last 8 bytes of DMEM, ECR and the aperture with its window and without; misaligned; outside. -/
theorem test_met_loads :
    ([0x40610000#32, 0x44610000#32, 0x48610000#32, 0x4C610000#32, 0x50610000#32, 0x54610000#32, 0x58610000#32] : List Word32).all (fun w =>
      ([0, 0x2FFF8, 0x80000, 0x100000000000, 0x1FFFFFFFFFF8, 0x8000, 0x30000] : List Word64).all (fun a =>
        met (withEng (running w [(1, a)])) w && a.toNat % 8 == 0)) = true ∧
    windowsAllow [] 0 8 false = false ∧ windowsAllow [⟨0, 0x1000, true, true⟩] 0 8 false = true ∧ (3#64).toNat % 2 = 1 := by
  decide +kernel

/-- O7: every store, to IMEM, DMEM, the aperture and outside. -/
theorem test_met_stores : ([0x60610000#32, 0x64610000#32, 0x68610000#32, 0x6C610000#32] : List Word32).all (fun w =>
    ([0, 0x7FF8, 0x10000, 0x2FFF8, 0x100000000000, 0x8000, 0x80000] : List Word64).all (fun a =>
      met (withEng (running w [(1, a)])) w && a.toNat % 8 == 0)) = true := by
  decide +kernel

/-- O8: every stream function; lengths 0, 64 and 65; addresses aligned and not. -/
theorem test_met_streams : ([0xA0611000#32, 0xA0611001#32, 0xA0611002#32, 0xA0611003#32, 0xA0610004#32] : List Word32).all (fun w => ([0, 64, 65] : List Word64).all (fun z =>
    met (withEng (running w [(1, 0x10000), (2, 0x10000), (3, z)])) w && opOf w == 0x28)) = true := by
  decide +kernel

/-- O9: AISS on a port that the engine has and on one that it lacks, AWAIT, ACAN, AFENCE with no job, WFW with and without a queued item. -/
theorem test_met_accelerators : ([0xC0A63848#32, 0xC0A60001#32, 0xC0A60002#32, 0xC0A60003#32, 0xE0A00003#32] : List Word32).all (fun w => [0, 15].all (fun p =>
      met (withEng { running w [(6, 0x10000), (7, 0x10040)] with ports := p }) w)) = true ∧
    (withEng (running 0 [])).chip.jobsOut 0 = [] ∧ (withEng (running 0 [])).chip.jobOf 0 5 = none ∧
    aissExc { running 0 [] with ports := 15 } 2 1 0x10000 0x10040 = none ∧ bitOf 0 1 = false ∧
    (running 0 []).queued = none ∧ ({ running 0 [] with queued := some item } : Eng).queued.isSome = true := by
  decide +kernel

/-- The state that a command leaves, or the one it found where it stops. -/
def after (c : Instr) (s : State) : Chip := match exec c s with
  | .next t => t.chip
  | _ => s.chip

/-- ADD X3, X1, X2 with S encodes as 0x0461_1400 (the example of R429): all ones plus 1 is 0, with Z and K. -/
theorem test_add_wraps :
    let g := (after (.alu 0 0 0x04611400#32) (withEng (running 0x04611400#32 [(1, -1), (2, 1)]))).engAt 0
    g.reg 3 = 0 ∧ g.flags.z = true ∧ g.flags.k = true ∧ g.flags.v = false ∧ g.pc = 4 := by decide

/-- MOVW X7, 0x12345 encodes as 0x2CE1_2345 (the example under R429). -/
theorem test_movw : ((after (.movw 0 0 0x2CE12345#32) (withEng (running 0x2CE12345#32 []))).engAt 0).reg 7 = 0x12345 := by decide

/-- AISS X5, X6, X7 on port 1, class CPE, encodes as 0xC0A6_3848 (the example of R448). -/
theorem test_aiss_word : opOf 0xC0A63848#32 = 0x30 ∧ xdOf 0xC0A63848#32 = 5 ∧ xaOf 0xC0A63848#32 = 6 ∧ xbOf 0xC0A63848#32 = 7 ∧
    fld 0xC0A63848#32 0 3 = 0 ∧ fld 0xC0A63848#32 3 2 = 1 ∧ fld 0xC0A63848#32 5 4 = 2 ∧ legalWord 0xC0A63848#32 = true := by decide

/-- X0 reads 0 and discards writes (R424): ADDI X0, X0, 5. -/
theorem test_x0 : ((after (.addi 0 0 0x08000005#32) (withEng (running 0x08000005#32 []))).engAt 0).reg 0 = 0 := by decide

/-- SRAI of a negative value by 64 gives all ones (R433). -/
theorem test_srai_64 :
    ((after (.srai 0 0 0x20610040#32) (withEng (running 0x20610040#32 [(1, 0x8000000000000000)]))).engAt 0).reg 3 = -1 := by decide

/-- The most negative value over -1 (R433, Table 13-5) keeps its value with V. -/
theorem test_divs_overflow :
    let g := (after (.alu 0 0 0x04611419#32) (withEng (running 0x04611419#32 [(1, 0x8000000000000000), (2, -1)]))).engAt 0
    g.reg 3 = 0x8000000000000000 ∧ g.flags.v = true := by decide

/-- The all-zeros word raises ILLEGAL (R429): without a handler the engine faults with cause 1 (R443). -/
theorem test_zero_word :
    let g := (after (.illegalInstruction 0 0 0) (withEng (running 0 []))).engAt 0
    g.state = .faulted ∧ g.faultCause = 1 := by decide

/-- LDBS of the byte 0x80 sign-extends it: LDBS X3, 0(X1) encodes as 0x5061_0000. -/
theorem test_ldbs :
    ((after (.loadInstruction 0 0 0x50610000#32 .clean)
      (withEng { running 0x50610000#32 [(1, 0x10000)] with dmem := [(0x10000, 0x80)] })).engAt 0).reg 3 = 0xFFFFFFFFFFFFFF80 := by decide

/-- STH of 0x1234 is little-endian (R1): STH X3, 2(X1) encodes as 0x6461_0002. -/
theorem test_sth :
    ((after (.storeInstruction 0 0 0x64610002#32 false)
      (withEng (running 0x64610002#32 [(1, 0x10000), (3, 0xABCD1234)]))).engAt 0).dmem = [(0x10002, 0x34), (0x10003, 0x12)] := by decide

/-! ### Commands that name units the head does not have -/

/-- One past the last cluster, engine, function, string, position, shelf, channel and cohort; a function inside a space, and a command's
identity. -/
theorem test_wf_refuses :
    ([.clusterDrained 24 false, .engHalt 0 8, .addi 24 0 0, .vfFlr 1024, .lowHalfRead (.bar0 1024) 0 4, .lowHalfRead (.bar4 1024) 0 4,
      .lowHalfRead (.cfg 1024) 0 4, .flush ⟨1024, 1, 0⟩ 1, .nvmeAbort ⟨0, 1, 0⟩ ⟨1024, 1, 0⟩, .stringDark 16, .enrolmentTimeout 16,
      .holdoverEntry 0 8, .parkTimeout 128, .dmaFill 32, .stripeCompaction 8] : List Instr).all (fun i => !i.wf) = true := by decide +kernel

/-- The same with the last unit. -/
theorem test_wf_takes_last :
    ([.clusterDrained 23 false, .engHalt 23 7, .vfFlr 1023, .lowHalfRead (.bar0 1023) 0 4, .flush ⟨1023, 1, 0⟩ 1, .stringDark 15,
      .holdoverEntry 15 7, .parkTimeout 127, .dmaFill 31, .stripeCompaction 7] : List Instr).all (fun i => i.wf) = true := by decide +kernel

/-- A command that names no unit of the head stops, by name. -/
theorem test_no_such_unit : (match exec (.clusterDrained 24 false) State.reset with | .fault .noSuchUnit => true | _ => false) = true := by
  decide +kernel

/-! ### Engine and cluster commands, register accesses, power and the image -/

/-- Day with the functions' BARs open. -/
def served : Chip := day.set (R.CFG_COMMAND_MSE 0) 1

theorem served_ok (c : Chip) (h : (c.awake && c.barOpen 0 && !c.on R.GLB_STATUS_LOADER_ONLY) = true) : Served { chip := c } := by
  simpa [Served, and_assoc] using h

/-- A program with nothing in it, for every cluster of an image. -/
def image : ImageData := { clusters := List.replicate 24 ⟨0, 1⟩, programs := [⟨1, 0, 0, [], []⟩] }

/-- The image in force and cluster 23 in a state, with one engine and perhaps a job of that engine. -/
def clustered (cs : ClState) (es : EngState) (jobs : List PortJob) : Chip :=
  ({ served with kcf := { served.kcf with active := some image } }.modClus 23 (fun k => { k with state := cs, jobs := jobs })).setEng 191 { state := es }

/-- A job of engine 7 of cluster 23 under way. -/
def job : PortJob := ⟨0, 0, 0, 191, 0, 1, 0x10000, 0, .committed, 0, [], []⟩

/-- O10: the last engine of the last cluster, offline or not, in the states that its commands tell apart, with no job and with one; a
cluster spare, in service with work and without, offline; KCF in the cluster pass or not; a release past the head and of the head. -/
theorem test_met_engine_commands :
    ([clustered .inService .running [], clustered .offline .running [], clustered .offline .halted [], clustered .offline .faulted [job],
      clustered .offline .halted [job], clustered .spare .halted [], (clustered .inService .running []).set R.KCF_STATUS_STATE 7].all
        (fun c => c.awake && c.barOpen 0 && !c.on R.GLB_STATUS_LOADER_ONLY)) = true ∧
    (clustered .offline .halted []).jobsOut 191 = [] ∧ (clustered .offline .halted [job]).jobsOut 191 = [job] ∧
    ((clustered .offline .halted []).program 1).isSome = true ∧ ((clustered .offline .halted []).program 2) = none ∧
    (clustered .inService .halted [job]).clusterBusy 23 = true ∧ (clustered .inService .halted []).clusterBusy 23 = false ∧
    ((((clustered .offline .halted []).set (R.SEC_CL_RESULT_VALID 23) 0).stopCluster 23).startCluster 23).2 = true ∧
    (1 % 256 ≠ (clustered .offline .halted []).get (R.SEC_CL_CLOG_HEAD 23)) := by decide +kernel

/-- R425, R454: a program's images lie from the first bytes of IMEM and DMEM. -/
theorem test_load_places_memories :
    let g := ((clustered .offline .halted []).loadProgram 191 ⟨1, 0, 0, [0xAA#8], [0x55#8]⟩).engAt 191
    g.readMem 0 1 = [0xAA#8] ∧ g.readMem 0x10000 1 = [0x55#8] := by decide +kernel

/-- Whether a register of so many bytes serves an offset of a space. -/
def regIs (c : Chip) (sp : Space) (ofs bytes : Nat) (p : RegAt → Bool) : Bool :=
  sp.wf && c.spaceOpen sp && decide (ofs < c.spaceSize sp) && decide (ofs % 4 = 0) &&
    (match c.regFor sp ofs with | some r => r.bytes == bytes && p r | none => false)

/-- O11: a 32-bit register; a 64-bit one at its base and at its upper half, with a low half held and none; a register of a channel the
firmware owns. -/
theorem test_met_register_accesses :
    regIs served .bar2 R.KCF_STATUS_STATE.addr 4 (fun _ => true) = true ∧
    regIs served .bar2 R.KCF_SRC_ADDR_ADDR.addr 8
      (fun r => spaceAddr .bar2 R.KCF_SRC_ADDR_ADDR.addr == r.base && r.base % 8 == 0 && !r.fields.all (fun f => f.own && f.acc == .rw) &&
        (Sparse.get none served.regs.held r.base).isNone && firmwareChannel .bar2 r == none) = true ∧
    regIs served .bar2 (R.KCF_SRC_ADDR_ADDR.addr + 4) 8 (fun r => spaceAddr .bar2 (R.KCF_SRC_ADDR_ADDR.addr + 4) != r.base) = true ∧
    regIs { served with regs := { served.regs with held := [(R.KCF_SRC_ADDR_ADDR.addr, some 5)] } } .bar2 (R.KCF_SRC_ADDR_ADDR.addr + 4) 8
      (fun _ => true) = true ∧
    regIs served .bar2 0x302800 4 (fun r => firmwareChannel .bar2 r == some 24) = true ∧ regIs served .bar2 0x3027FC 4 (fun _ => true) = false := by
  decide +kernel

/-- A head in a power mode. -/
def inMode (m : PMode) (h : HoldCause) (temp : Int) : Chip := { day with pwr := { day.pwr with mode := m, hold := h, highest := temp } }

/-- A lifecycle that lets a head flush: one row of LIFECYCLE blown. -/
def owned (c : Chip) : Chip := { c with root := { c.root with otp := { c.root.otp with rows := [0] } } }


/-- A Dawn whose PWR_REQ fell at time 0 and is still low at time `t`. -/
def lowReq (t : Nat) : Chip := let c := inMode .dawn .none 25
  ({ c with pwr := { c.pwr with dawnStep := 1, pwrReq := false, reqFell := some 0 } } : Chip).set R.GLB_TIME_TIME t

/-- O12, O52: the power modes, the temperatures at -40 and 125 degrees and one below, heads that may flush or not, and PWR_REQ low for 2 ms
and for a nanosecond less. -/
theorem test_met_power_inputs :
    (lowReq 0).pwr.dawnStep = 1 ∧ (lowReq 0).awake = true ∧ (lowReq 0).pwr.pwrReq = false ∧ (lowReq 1999999).now < 0 + 2000000 ∧
    (lowReq 2000000).reqDue = true ∧ (lowReq 1999999).reqDue = false ∧
    (inMode .night .none 25).pwr.nightExtra ≤ 37 ∧ -40 ≤ (inMode .coldReset .none (-40)).pwr.highest ∧
    (inMode .coldReset .none (-41)).pwr.highest < -40 ∧ (inMode .held .trip 124).pwr.highest < 125 ∧
    125 ≤ (inMode .held .trip 125).pwr.highest ∧ (owned day).mayFlush = true ∧ day.mayFlush = false ∧ day.awake = true ∧
    (inMode .dawn .none 25).awake = true ∧ (inMode .held .pwrgd 25).awake = false ∧ day.pwr.pwrReq = true ∧ day.pwr.pwrgd = true := by
  decide +kernel

/-- Dawn at a step of Table 16-4. -/
def dawning (k : Nat) : Chip := { day with pwr := { day.pwr with mode := .dawn, dawnStep := k } }

/-- O13: each step of Dawn; a PLL a millisecond after its start and a nanosecond before; a loader copy; a firmware slot unconfirmed after 3
attempts; a vault image of each mark with an image in force and without; and the end of Dawn. -/
theorem test_met_dawn :
    let late := (dawning 2).set R.GLB_TIME_TIME 1000000
    let early := (dawning 2).set R.GLB_TIME_TIME 999999
    let slot (k : Nat) : Chip := { dawning 4 with boot := { (dawning 4).boot with fwState := 2, attempts := k, fwHeader := { serial := 1 } } }
    let vault (m : VaultMark) : Chip := { dawning 6 with kcf := { (dawning 6).kcf with active := some image }
                                                         ing := { (dawning 6).ing with vault := { mark := m } } }
    (dawning 2).awake = true ∧ late.bit R.PWR_PLL_LOCK 9 = false ∧ late.bit R.PWR_PLL_FAIL 9 = false ∧
    Sparse.get 0 late.pwr.pllAt 9 + 1000000 ≤ late.now ∧ early.now < Sparse.get 0 early.pwr.pllAt 9 + 1000000 ∧
    (dawning 4).boot.started = false ∧ (dawning 4).loaderCopy true true = some (0, 1) ∧ (dawning 4).loaderCopy false false = none ∧
    (slot 3).boot.fwState = 2 ∧ (slot 3).boot.confirmed = false ∧ 3 ≤ (slot 3).boot.attempts ∧
    [VaultMark.sealed, .superseded, .closed].all (fun m => (vault m).pwr.dawnStep == 6 && (vault m).ing.vault.mark == m) = true ∧
    (dawning 6).kcf.active = none ∧ (dawning 7).on R.GLB_STATUS_LOADER_ONLY = false ∧ (dawning 7).holdupGood = true ∧
    (dawning 7).zbl.state ≠ .sole ∧ (dawning 7).boot.attempts = 0 ∧ ((dawning 7).dayEpoch.finishErases).zbl.state ≠ .sole := by
  decide +kernel

/-- KCF in a state. -/
def kcfIn (n : Nat) : Chip := served.set R.KCF_STATUS_STATE n

/-- O14: every state of KCF; a staged image validated; the debug gate requested; AGREED; a partial pass; an address aligned and not. -/
theorem test_met_kcf_commands :
    (List.range 10).all (fun n => (kcfIn n).kcfState == n && (kcfIn n).awake && (kcfIn n).barOpen 0 && !(kcfIn n).on R.GLB_STATUS_LOADER_ONLY) = true ∧
    (kcfIn 0).root.debug ≠ .requested ∧ (kcfIn 0).lifecycle ≠ 4 ∧ (kcfIn 0).get R.KCF_SRC_ADDR_ADDR % 64 = 0 ∧
    ((kcfIn 0).set R.KCF_SRC_ADDR_ADDR 1).get R.KCF_SRC_ADDR_ADDR % 64 ≠ 0 ∧ (kcfIn 4).kcf.valid = none ∧
    ({ kcfIn 4 with kcf := { (kcfIn 4).kcf with valid := some image } } : Chip).kcfState = 4 ∧
    ((kcfIn 6).set R.KCF_STATUS_AGREED 1).on R.KCF_STATUS_AGREED = true ∧ (kcfIn 6).on R.KCF_STATUS_AGREED = false ∧
    ((kcfIn 0).set R.KCF_STATUS_PARTIAL 1).on R.KCF_STATUS_PARTIAL = true := by decide +kernel

/-- O15: a load whose bytes are all here; an empty staging slot fails its checks; an image being written; an armed one at its timeout; and a
cluster that drains, busy and not, at its timeout and before. -/
theorem test_met_kcf_steps :
    let loaded : Chip := { kcfIn 1 with epc := { (kcfIn 1).epc with xfers := [⟨0, 0, .kcfLoad, 0, 0, 0⟩] } }
    let drains : Chip := { clustered .quiescing .halted [] with kcf := { draining := some 23 } }
    loaded.epc.xfers.any (fun x => x.id == loaded.kcf.loadXfer && x.left == 0) = true ∧
    (match (kcfIn 3).checkImage (kcfIn 3).stagedBytes (kcfIn 3).kcf.stagedLen with | .error _ => true | .ok _ => false) = true ∧
    (kcfIn 9).boot.writer = none ∧ (kcfIn 9).boot.commitWaiting = none ∧ (kcfIn 9).kcf.abortPending = false ∧
    ((((kcfIn 9).set R.BOOT_STATUS_WRITING 0).event 0x381 0 0 0 0 0).kcfEnd 8 0x14 0xFF 0).boot.commitWaiting = none ∧
    (kcfIn 6).get R.KCF_ACT_EPOCH_EPOCH = 0 ∧
    (let t := (kcfIn 6).get R.KCF_ACT_TMO_ACT_TMO * 1000
     t ≤ ((kcfIn 6).set R.GLB_TIME_TIME t).now ∧ (0 < t → ((kcfIn 6).set R.GLB_TIME_TIME (t - 1)).now < t)) ∧
    drains.clusterBusy 23 = false ∧ drains.kcf.draining = some 23 ∧ (clustered .quiescing .halted [job]).clusterBusy 23 = true ∧
    (let t := drains.get R.KCF_QUIESCE_TMO_QUIESCE_TMO * 1000
     (drains.set R.GLB_TIME_TIME t).now = t ∧ (0 < t → (drains.set R.GLB_TIME_TIME (t - 1)).now < t)) := by decide +kernel

/-! ### The endpoint and the controllers -/

/-- Day with PERST# and the host link in a state. -/
def linked (low : Bool) (l : LinkState) (had : Bool) : Chip := { served with epc := { served.epc with perstLow := low, link := l, hadLink := had } }

/-- O16: PERST# low and high, awake, in Night and held by faults, a second after its assertion and less; the end of Dusk; every link state. -/
theorem test_met_link_events :
    let held (t : Nat) : Chip := { (inMode .held .faults 25).set R.GLB_TIME_TIME t with epc := { perstLow := true, perstAt := 0 } }
    let low (c : Chip) : Chip := { c with epc := { c.epc with perstLow := true, perstAt := c.now } }
    (linked true .down false).awake = true ∧ (linked true .down false).epc.perstLow = true ∧ (linked false .l0 true).epc.perstLow = false ∧
    (inMode .night .none 25).epc.perstLow = true ∧ (inMode .night .none 25).awake = false ∧
    (held 1000000000).epc.perstAt + 1000000000 ≤ (held 1000000000).now ∧ (held 999999999).now < (held 999999999).epc.perstAt + 1000000000 ∧
    ((low (linked false .l0 true)).endpointReset .down).phase ≠ 5 ∧
    ((low (({ linked false .l0 true with pwr := { day.pwr with mode := .dusk } } : Chip).set R.PWR_STATUS_PHASE 5)).endpointReset .down).phase = 5 ∧
    (linked false .l0 true).epc.cfgReady = false ∧ (linked false .training false).epc.link = .training ∧ [1, 2, 4, 8, 16].contains 16 = true ∧
    ((linked false .l0 true).set (R.CFG_AER_CTRL_CHECK_ENABLE 0) 1).on (R.CFG_AER_CTRL_CHECK_ENABLE 0) = true ∧
    (linked false .l0 true).on (R.CFG_AER_CTRL_CHECK_ENABLE 0) = false := by decide +kernel

/-- The functions' configuration space open and VFs enabled or not. -/
def configured (vfs : Bool) : Chip :=
  ({ served with epc := { served.epc with cfgReady := true, link := .l0 } }.setFlag R.CFG_SRIOV_CTRL_VF_ENABLE vfs).setFlag R.CFG_SRIOV_CTRL_VF_MSE vfs
    |>.set R.CFG_SRIOV_NUMVFS_NUMVFS 7

/-- O17: the PF, a VF and one VF past NumVFs; the largest values that Device Control takes; the last vector of each table; VF Enable. -/
theorem test_met_config_writes :
    (configured true).awake = true ∧ (configured true).cfgOpen 0 = true ∧ (configured true).cfgOpen 7 = true ∧ (configured true).cfgOpen 8 = false ∧
    bitsOf 0x5040 5 3 ≤ 2 ∧ bitsOf 0x5040 12 3 ≤ 5 ∧ bitsOf 0x5060 5 3 = 3 ∧ (configured true).maskOpen 7 none = true ∧
    (configured true).maskOpen 7 (some 1024) = true ∧ (configured false).maskOpen 7 (some 0) = false ∧ 1024 < msixEntries 7 ∧ msixEntries 7 ≤ 1025 ∧
    2047 < msixEntries 0 ∧ (configured true).barOpen 7 = true ∧ (configured true).on R.CFG_SRIOV_CTRL_VF_ENABLE = true ∧
    (configured false).on R.CFG_SRIOV_CTRL_VF_ENABLE = false ∧ (configured false).on R.CFG_SRIOV_CTRL_ARI = false := by decide +kernel

/-- Table 3-3: 16 KiB, 64-bit, non-prefetchable; Table 3-2: the first capability. -/
theorem test_bar_size :
    let d := after (.registerWrite (.cfg 0) 0x10 4 0xFFFFFFFF) { chip := configured false }
    (after (.lowHalfRead (.cfg 0) 0x10 4) { chip := d }).regs.readData = 0xFFFFC004 ∧
    (after (.lowHalfRead (.cfg 0) 0x34 1) { chip := d }).regs.readData = 0x40 := by decide +kernel

/-- A read request of 8 bytes in flight for a transfer, under tag 5. -/
def reading (t : Nat) : Chip :=
  { (configured true).set R.GLB_TIME_TIME t with epc := { (configured true).epc with
      xfers := [⟨1, 0, .kcfLoad, 0x1000, 8, 8⟩], reqs := [⟨1, 0, 0x2000, 8, 0x1000, 0, some 5, 0⟩] } }

/-- O18: a tag in use and one that is not; data of the request's length and one byte more; a nanosecond around the timeout. -/
theorem test_met_bus_replies :
    ((reading 0).epc.reqs.find? (fun r => r.tag == some 5)).isSome = true ∧ ((reading 0).epc.reqs.find? (fun r => r.tag == some 6)).isNone = true ∧
    ((reading 0).epc.xfers.find? (fun x => x.id == 1)).isSome = true ∧ (0 + (List.replicate 8 0#8).length ≤ 8) ∧
    8 < 0 + (List.replicate 9 0#8).length ∧ 0 + (reading 0).ctoNs 0 ≤ (reading 50000000).now ∧
    (reading 49999999).now < 0 + (reading 49999999).ctoNs 0 := by decide +kernel

/-- A controller with its admin queues and an I/O queue pair of 4 entries. -/
def enabled : Chip :=
  ((((configured true).set (R.NVM_CC_EN 0) 1).set (R.NVM_CSTS_RDY 0) 1).set (R.CFG_COMMAND_BME 0) 1).modCtrl 0 (fun k => { k with
    sqs := [⟨0, 4, 0x10000, 0, 0, 1, 0, none⟩, ⟨1, 4, 0x20000, 1, 0, 0, 0, none⟩]
    cqs := [⟨0, 4, 0x30000, 0, true, 0, 0, 1, []⟩, ⟨1, 4, 0x40000, 1, true, 0, 2, 1, []⟩] })

/-- O19: CC.EN off and on, CC good and not; doorbells of queues that exist and that do not, at and below their size; completions to consume
fewer than claimed; an admin queue ready to fetch and none; bounds met and broken; a vector with completions counted and none. -/
theorem test_met_controllers :
    (configured true).present 7 = true ∧ (configured true).on (R.NVM_CC_EN 7) = false ∧ enabled.on (R.NVM_CC_EN 0) = true ∧
    ((configured true).set (R.NVM_CC_EN 7) 1).ccValid 7 = false ∧
    ((((((configured true).set (R.NVM_CC_EN 7) 1).set (R.NVM_CC_IOSQES 7) 6).set (R.NVM_CC_IOCQES 7) 4).set (R.NVM_AQA_ASQS 7) 1).set
      (R.NVM_AQA_ACQS 7) 1).ccValid 7 = true ∧
    (enabled.sqOf 0 2).isNone = true ∧ (enabled.sqOf 0 1).any (fun q => decide (q.size ≤ 4) && decide (3 < q.size)) = true ∧
    (enabled.cqOf 0 2).isNone = true ∧ (enabled.cqOf 0 1).any (fun q =>
      decide ((2 + q.size - q.head) % q.size ≤ (q.tail + q.size - q.head) % q.size) &&
      decide ((q.tail + q.size - q.head) % q.size < (3 + q.size - q.head) % q.size)) = true ∧
    enabled.inService = true ∧ enabled.on (R.NVM_CSTS_CFS 0) = false ∧ enabled.adminReady = some 0 ∧ (configured true).adminReady = none ∧
    breaksBounds ⟨0, 0, 0, 0, 0, 0, 0⟩ = false ∧ breaksBounds ⟨100001, 0, 0, 0, 0, 0, 0⟩ = true ∧ day.mirrorFull ⟨100001, 0, 0, 0, 0, 0, 0⟩ = false ∧ Sparse.get 0 (enabled.ctrl 0).coalCount 1 = 0 := by
  decide +kernel

/-! ### NVMe commands -/

/-- Two data shelves of cohort 0 on strings 0 and 1 and a catalogue shelf on string 2, a mirrored class, one tenant, a write buffer. -/
def arrayImage : ImageData := { image with
  tenants := [(0, { valid := true, priv := true, maxQp := 4, maxNs := 2, clsMask := 1, keyCount := 4, wrbufMib := 64 })]
  layout := [{ kind := 1 }]
  carve := [⟨1, 0x40000000, 0x400000, 0⟩]
  shelves := [{ present := true, cohort := 0 }, { present := true, str := 1, cohort := 0 }, { present := true, str := 2, cohort := 254 }] }

/-- That array in service: a namespace of 1000 blocks with its key, free bands, and a granule of the write buffer held. -/
def array : Chip :=
  let geo : Geometry := { dies := 1, planes := 1, blocks := 1024, pages := 1024 }
  let shelf : ShelfInfo := { state := 3, geo := geo, bands := (List.range 16).map (fun k => (k, {})) }
  { enabled.set R.FTM_STATUS_AWAKE 1 with
      kcf := { enabled.kcf with active := some arrayImage }
      nvm := { enabled.nvm with ana := [(1, 1)], ns := [(1, { present := true, attached := true, nsze := 1000 })] }
      cpe := { enabled.cpe with slots := [(0, { state := .loaded })] }
      ftm := { enabled.ftm with inForce := [(R.FTM_MEDIA_CTRL_RESERVE.key, 2)], shelves := [(0, shelf), (1, shelf), (2, shelf)] }
      zbl := { enabled.zbl with total := 1, granules := [(0, { mine := true })] } }

/-- The identity of a fetched command. -/
def me (admin : Bool) : CmdId := ⟨0, if admin then 0 else 1, 7⟩

/-- A command fetched and not begun. -/
def flying (c : Chip) (admin : Bool) (opc : Nat) : Chip :=
  { c with nvm := { c.nvm with inflight := [{ id := me admin, admin := admin, opc := opc, nsid := 1, bytes := 0, started := false, abandoned := false, entry := [] }] } }

/-- `Fetching`, as a Bool. -/
def fetching (c : Chip) (admin : Bool) (opc : Nat) : Bool :=
  c.awake && (c.fetched (me admin) admin opc).any (fun i => (!admin || c.offers 0 opc) && (c.kcf.prevs.find? (fun p => p.1 == i.sect)).isNone)

/-- What `fetching` says. -/
theorem fetching_ok {c : Chip} {admin : Bool} {opc : Nat} (h : fetching c admin opc = true) :
    ∃ i, Fetching { chip := c } (me admin) admin opc i := by
  simp only [fetching, Bool.and_eq_true] at h
  obtain ⟨ha, hi⟩ := h
  obtain ⟨i, hf, ho, hk⟩ : ∃ i, c.fetched (me admin) admin opc = some i ∧ (!admin || c.offers 0 opc) = true ∧
      (c.kcf.prevs.find? (fun p => p.1 == i.sect)).isNone = true := by
    cases hc : c.fetched (me admin) admin opc with
    | none => simp [hc] at hi
    | some i => exact ⟨i, rfl, by simpa [hc] using hi⟩
  refine ⟨i, ha, by cases admin <;> decide, hf, fun h => ?_, Option.isNone_iff_eq_none.mp hk⟩
  subst h
  simpa [me] using ho

/-- O20 to O25, every opcode of the admin queue and of an I/O queue: fetched, by the PF. -/
theorem test_met_fetching :
    [0x00, 0x01, 0x02, 0x04, 0x05, 0x06, 0x08, 0x09, 0x0A, 0x0C, 0x0D, 0x10, 0x11, 0x14, 0x15, 0x80, 0x81, 0x82].all (fun o =>
      fetching (flying array true o) true o) = true ∧
    [0x00, 0x01, 0x02, 0x08, 0x09, 0x0C].all (fun o =>
      fetching (flying array false o) false o) = true := by decide +kernel

/-- O23 to O27: a command that brings data, with nothing asked for yet, its buffer's form good, a buffer free and none; and with its data arrived. -/
theorem test_met_input :
    let others : List Inflight := (List.range 30).map (fun k =>
      { id := ⟨0, 1, k⟩, admin := false, opc := 9, nsid := 1, bytes := 0, started := true, abandoned := false, entry := [], input := some (k, false) })
    let c := flying array true 0x11
    let full : Chip := { c with nvm := { c.nvm with inflight := c.nvm.inflight ++ others } }
    let come : Chip := (flying array true 0x81).modFlight (me true) (fun i => { i with input := some (0, true) })
    [(true, 0x0D), (true, 0x11), (true, 0x15), (true, 0x81), (false, 0x09)].all (fun o => fetching (flying array o.1 o.2) o.1 o.2 &&
      ((flying array o.1 o.2).fetched (me o.1) o.1 o.2).any (fun i => i.input.isNone && !badForm i.form 4096)) = true ∧
    (flying array true 0x11).inputSlot = some 0 ∧ full.inputSlot = none ∧
    (come.fetched (me true) true 0x81).any (fun i => i.input == some (0, true)) = true ∧ come.awake = true ∧
    fetching ({ flying array true 0x80 with kcf := { active := none } } : Chip) true 0x80 = false ∧
    fetching ({ flying array true 0x06 with kcf := { active := none } } : Chip) true 0x06 = true := by decide +kernel

/-- O20: a queue number free and used, the tenant's last number and one more; an aligned base and one that is not; a completion queue that a
submission queue uses and one that none uses; aborts and event requests at their limits. -/
theorem test_met_admin_queues :
    let e := (flying array true 1).begun (me true)
    (e.tenantOf 0).maxQp = 4 ∧ (e.sqOf 0 4).isNone = true ∧ (e.sqOf 0 1).isSome = true ∧ (e.cqOf 0 1).isSome = true ∧ (e.cqOf 0 4).isNone = true ∧
    0x1000 % e.pageSize 0 = 0 ∧ 0x1004 % e.pageSize 0 ≠ 0 ∧ (e.ctrl 0).sqs.any (fun q => q.cq == 1) = true ∧
    ((e.modCtrl 0 (fun k => { k with cqs := k.cqs ++ [⟨4, 4, 0, 0, true, 0, 0, 1, []⟩] })).ctrl 0).sqs.any (fun q => q.cq == 4) = false ∧
    (e.sqOf 0 1).any (fun q => q.deleting.isNone) = true ∧ ((e.flights 0).filter (fun j => j.id.sq == 1 && !j.started)) = [] ∧
    ((e.flights 0).filter (fun j => j.admin && j.opc == 0x08)).length ≤ 4 ∧ (e.ctrl 0).aers.length < 4 ∧
    4 ≤ ((e.modCtrl 0 (fun k => { k with aers := [0, 1, 2, 3] })).ctrl 0).aers.length := by decide +kernel

/-- O21: a log page that exists and one that does not, an offset at its end and one past; a namespace attached and one that is not; a
feature of those there are and one that is not. -/
theorem test_met_admin_information :
    let e := (flying array true 2).begun (me true)
    (e.logPage 0 4).any (fun bs => bs.length == 4096) = true ∧ (e.logPage 0 0x7F).isNone = true ∧ e.attached 0 1 = true ∧
    e.attached 0 2 = false ∧ (e.identifyData 0 2 0 0).take 8 = [1, 0, 0, 0, 0, 0, 0, 0] ∧ features.contains 7 = true ∧
    features.contains 3 = false ∧ (e.tenantOf 0).maxQp ≠ 0 ∧ (e.ctrl 0).createdIo = false := by decide +kernel

/-- O22: a create that passes its checks and one that does not; a free NSID; a namespace present, attached and not; its owner's limit; a
full ring; a self-test running and none, at its last segment and before. -/
theorem test_met_namespaces :
    let e := (flying array true 0x0D).begun (me true)
    let full : Chip := { array with ing := { array.ing with journal := [{ rsn := 1, epoch := 0, kind := .other, bytes := 0x80000000 }] } }
    array.ringOpen = true ∧ full.ringOpen = false ∧ e.kcf.active.isSome = true ∧
    (e.createCheck ⟨10, 10, 0, false, 0, 0, 0, 0, 0⟩).isNone = true ∧ (e.createCheck ⟨10, 11, 0, false, 0, 0, 0, 0, 0⟩).isSome = true ∧
    e.freeNsid = some 2 ∧ (e.futureNs 1).present = true ∧ (e.futureNs 2).present = false ∧ (e.futureNs 1).attached = true ∧
    dpsOk 0 0 = true ∧ dpsOk 0 1 = false ∧ e.nvm.selfTest.isNone = true ∧ lastSegment 1 ≠ lastSegment 2 ∧
    ((upFrom 1 4096).filter (fun j => (e.futureNs j).present && (e.futureNs j).attached && (e.futureNs j).owner == 0)).length < (e.tenantOf 0).maxNs := by
  decide +kernel

/-- O23: no writer and each writer; pieces that meet and that do not, the last piece of the buffer and one past it; the slot empty, holding
the running image and another; KCF persisting. -/
theorem test_met_firmware_commands :
    let e := (flying array true 0x11).begun (me true)
    let d : Chip := { e with boot := { e.boot with pieces := [(0, 4096)] } }
    e.boot.writer.isSome = false ∧ e.boot.commitWaiting.isSome = false ∧ ({ e.boot with writer := some .heal } : Boot).writer.isSome = true ∧
    d.boot.pieces.any (rangesMeet (4096, 4096)) = false ∧ d.boot.pieces.any (rangesMeet (0, 4096)) = true ∧
    ¬ 0x2000000 < 0x1FFF000 + 4096 ∧ 0x2000000 < 0x2000000 + 4096 ∧ e.otherImage = false ∧
    ({ e with boot := { e.boot with fwState := 2, fwSerial := 2 } } : Chip).otherImage = true ∧ (owned e).commitProhibited false = false ∧
    (e.set R.KCF_STATUS_STATE 7).commitProhibited false = true ∧ (e.set R.KCF_STATUS_STATE 9).kcfState = 9 := by decide +kernel

/-- O24: a LOAD_KEY buffer that passes its form checks and one byte short; an erase of a loaded slot; an erase agreed and not zeroized; each
side's erase; a transport key and none. -/
theorem test_met_key_commands :
    let e := (flying (owned array) true 0x81).begun (me true)
    let good : List Byte := [1, 0, 0, 0] ++ List.replicate 12 0
    let op : KeyOp := { slot := 0, id := me true, load := false, key := 0, persist := false, opid := 0, remote := true }
    (e.ktCheck 0 0 false good).isNone = true ∧ e.ktCheck 0 0 false (good.take 15) = some 2 ∧ e.ktCheck 0 1 false good = some 1 ∧
    (e.ktCheck 0 0 true ([1, 0, 1, 0] ++ List.replicate 156 0)).isNone = true ∧ e.ktCheck 0 0 true ([1, 0] ++ List.replicate 158 0) = some 4 ∧
    e.unwrapKey 1 ([1, 0, 1, 0] ++ List.replicate 156 0) = none ∧ e.cpe.ops.find? (fun o => o.slot == 0 && !o.load && !o.zeroized && (o.agreed || o.remote)) = none ∧
    (({ e with cpe := { e.cpe with ops := [op] } } : Chip).cpe.ops.find? (fun o => o.slot == 0 && !o.load && !o.zeroized && (o.agreed || o.remote))) = some op ∧
    e.root.secret.transport = none ∧ (e.cpe.lastResult.find? (fun x => x.1 == 0)) = none := by decide +kernel

/-- O25: a write of the namespace's last block and one past it; held back and not; no class open; no space; no granule; data of the right
length and not; a write whose data has arrived; reads stopped and not. -/
theorem test_met_host_commands :
    let c := flying array false 1
    let shut := c.set R.FTM_STATUS_AWAKE 0
    let w : WrBuf := { mkWrite 1 (me false) 1 0 1 0x40000000 4096 0 (c.nsOf 1) ⟨false, 0, 0, 0, 0⟩ 0 false false with arrived := true }
    let h : Chip := { c with ing := { c.ing with writes := [w] } }
    c.withheld = false ∧ ({ c with nvm := { c.nvm with suspended := true } } : Chip).withheld = true ∧ c.on R.CPE_STATUS_INST_EXHAUSTED = false ∧
    c.ioCheck (me false) 1 999 1 false true = none ∧ (c.ioCheck (me false) 1 1000 1 false true).isSome = true ∧ c.classOpen 0 = true ∧
    shut.classOpen 0 = false ∧ c.hasSpace 0 4096 = true ∧ c.hasSpace 0 (4096 * 2 ^ 40) = false ∧ c.indexHasSpace 1 0 1 = true ∧
    1 * blockStride (c.nsOf 1) false = 4096 ∧ c.findGranule 0 4096 = some 0 ∧ c.findGranule 0 0x400001 = none ∧
    h.ing.writes.find? (fun w => w.id == me false && w.own && w.arrived && !w.passed && !w.zeroes) = some w ∧ h.scanWrite (h.nsOf 1) w = none ∧
    c.on (R.CFG_COMMAND_BME 0) = true ∧ c.ing.fetchStopped = false ∧ c.walksElsewhere (c.nsOf 1) = false ∧ c.ringOpen = true ∧
    c.ioCheck (me false) 1 0 0 false false = none := by decide +kernel

/-- A command's buffer as PSDT, DPTR and MPTR name it. -/
def listed (psdt lo hi want mlen : Nat) (found : HostBuf) : ListWalk :=
  { id := me true, goal := .send [] stOk none false, form := ⟨0, psdt, ⟨lo, hi⟩, 0x9000⟩, page := 4096, found := found, want := want, mlen := mlen }

/-- O26: a walk of each goal; lengths around one page, two and more; PRP entries aligned and not; descriptors of each type; a chain in the last place
of a segment and before it, and out of a last segment; pieces that come to the length and that do not, with metadata and without. -/
theorem test_met_buffer_lists :
    let c : Chip := { day with ing := { day.ing with walks := [listed 0 0 0 0 0 [], { listed 0 0 0 0 0 [] with id := me false, goal := .write }] } }
    let one (b : Bool) : List Sgl := [⟨4, 16, if b then 0 else 3⟩]
    (c.ing.walks.find? (fun x => x.id == me true && !x.ready)).isSome = true ∧ (c.ing.walks.find? (fun x => x.id == me false && !x.ready)).isSome = true ∧
    (listed 0 0x1E00 0x3000 512 0 []).want ≤ 4096 - 0x1E00 % 4096 ∧ (listed 0 0x1E00 0x3000 513 0 []).begin.toOption.isSome = true ∧
    4096 - 0x1E00 % 4096 < 513 ∧ 513 ≤ 512 + 4096 ∧ 512 + 4096 < 4609 ∧ (listed 0 0x1E00 0x3004 513 0 []).begin.toOption.isNone = true ∧
    (listed 0 0x1E00 0x3004 4609 0 []).begin.toOption.isNone = true ∧ (prpTake 4096 8000 [0x5000, 0x7000] 0x3000 []).toOption.isSome = true ∧
    bufLen [] < 8000 ∧ (0x3000 + 8) % 4096 ≠ 0 ∧ 0x5001 % 4096 ≠ 0 ∧ (sglTake (one true) 0 16 true []).toOption.isSome = true ∧
    (sglTake (one false) 0 16 false []).toOption.isSome = true ∧ (sglTake (one false) 0 32 false []).toOption.isNone = true ∧
    bufLen [(4, 16)] = (listed 1 0 0 16 8 [(4, 16)]).want ∧ (listed 2 0 0 16 8 [(4, 16)]).mlen ≠ 0 ∧ (listed 1 0 0 16 0 [(4, 16)]).mlen = 0 := by
  decide +kernel

/-- A write buffer of 8 KiB whose second page a list would follow: the entry that ends a page of entries is a chain. -/
theorem test_prp_chain : (prpTake 4096 12288 [0x5000, 0x6000] 0x3FF0 [(0, 1)]).toOption = some (0x6000, [(0, 1), (0x5000, 4096)]) := by decide +kernel

/-- O27: a segment and a stripe at their ages and a nanosecond before; a flush running, sealed and over, for each cause; a cohort wanted and
none, at the end of gathering and of its dwell; a shelf waking, and at its timeouts. -/
theorem test_met_ingest_timers :
    let seg : Segment := { id := 3, nsid := 1, next := 0, chunkLba := 0, chunkBlocks := 0, lastAppend := 0, wids := [] }
    let stripe : OpenStripe := ⟨5, 0, 0, 0, 2, some 0, [], 0, false⟩
    let at_ (t : Nat) : Chip := { array.set R.GLB_TIME_TIME t with ing := { array.ing with segs := [seg], stripes := [stripe] } }
    let old (c : Chip) := fun t : OpenStripe => t.cls == 0 && !t.shadow && t.firstAt.any (fun a => decide (a + 2000000 ≤ c.now))
    let flush (k : Nat) : Chip := { array with pwr := { array.pwr with flushing := true, afterFlush := k } }
    let wants : Chip := { array.set R.GLB_TIME_TIME 2000000000 with
      ing := { array.ing with part := .gather, reads := [⟨me false, 1, 0, 1, ⟨false, 0, 0, 0, 0⟩, false, ⟨0, 0, ⟨0, 0⟩, 0⟩, [], some 2, 5, [], false⟩] } }
    let shelf (x : ShelfInfo) (t : Nat) : Chip := (array.set R.GLB_TIME_TIME t).modShelf 127 (fun _ => x)
    ((at_ 1000000).seg 3).any (fun g => decide (g.lastAppend + 1000000 ≤ (at_ 1000000).now)) = true ∧
    ((at_ 999999).seg 3).any (fun g => decide ((at_ 999999).now < g.lastAppend + 1000000)) = true ∧
    (at_ 2000000).ing.stripes.find? (old (at_ 2000000)) = some stripe ∧ (at_ 1999999).ing.stripes.find? (old (at_ 1999999)) = none ∧
    [0, 1, 2].all (fun k => (flush k).sealVault.sendDepart.pwr.afterFlush == k && !(flush k).ing.flushSealed) = true ∧ array.pwr.holdupN = true ∧
    array.holdupGood = true ∧ array.pwr.flushHalted = [] ∧ wants.wanted = some (2, 5) ∧ wants.dwellOver = true ∧ array.wanted = none ∧
    (array.set R.GLB_TIME_TIME 1999999999).dwellOver = false ∧ wants.get R.PWR_STATUS_PHASE < 2 ∧ wants.ing.gatherAt + 20000000 ≤ wants.now ∧
    wants.peerIn = false ∧ ((shelf { state := 2 } 0).shelf 127).state = 2 ∧ (array.shelf 127).state ≠ 2 ∧
    ((shelf { parkAt := some 0 } 500000000).shelf 127).parkAt = some 0 ∧ (shelf { parkAt := some 0 } 499999999).now < 500000000 ∧
    ((shelf { state := 1, wakeAt := some 0 } 2500000000).shelf 127).wakeAt = some 0 := by decide +kernel

/-! ### Dedup, the accelerators, media and redundancy -/

/-- The array with dedup on for class 0, a catalogue formatted, the tenant in the pool of every cluster, and a fingerprint not ruled out. -/
def dedups : Chip :=
  { array with
      kcf := { array.kcf with active := some { arrayImage with layout := [{ kind := 1, opts := 2 }, { kind := 1 }] } }
      dd := { array.dd with nbLog2 := 12, filterBlocks := 1, gens := [[0]] } }

/-- Memory whose line 0 is poisoned. -/
def spoilt (c : Chip) : Chip := { c with mem := { c.mem with poisoned := [0] } }

/-- O28: a query with its CAT job, of a tenant in the pool and in another, and without; a class with dedup off and on; a fingerprint ruled out and
not, in flight and not; a candidate that matches, differs, or meets a fault; a bucket awaited and none; a queue with room and full; a port that
allows and one that denies; a job that runs, that is held, and that none has; lengths at their limit and past it; room for the output. -/
theorem test_met_dedup_compression :
    let cat (dom : Nat) : PortJob := { job with cls := 5, body := [0, 0, 0, 1, BitVec.ofNat 8 dom] ++ List.replicate 59 0 }
    let c (dom : Nat) := dedups.modClus 23 (fun k => { k with jobs := [cat dom] })
    let q : Query := ⟨191, 9, 0, 0, 1, 0⟩
    let f : InFlight := { fp := 0, dom := 0, cls := 0, blocks := 1, keySlot := 0, chunk := 3, epoch := 0, programmed := false }
    let d : Chip := { dedups with dd := { dedups.dd with inflight := [f], waiting := [{ chunk := 9, dom := 0, cls := 0, blocks := 1, fp := 0, bucket := 5, engine := 191 }] } }
    let j : CmpJob := { handle := 1, op := 1, noFallback := false, pool := 0, srcLen := 262144, srcAddr := 0, dstAddr := 0, dstCap := 1,
                        cpeJob := 0, engine := none, ticket := 0, resAddr := 0, core := some 0 }
    (dedups.awake = true) ∧ ((c 0).catJob q).any (fun j => let t := (c 0).tenantOf (leNat ((j.body.drop 4).take 2))
      t.valid && t.pool == (c 0).poolOf 23) = true ∧ ((c 1).catJob q).any (fun j => !((c 1).tenantOf (leNat ((j.body.drop 4).take 2))).valid) = true ∧
    dedups.catJob q = none ∧ bitOf (dedups.layoutOf 1).opts 1 = false ∧ bitOf (dedups.layoutOf 0).opts 1 = true ∧ dedups.rulesOut 0 = false ∧
    dedups.rulesOut (2 ^ 64) = true ∧ dedups.inflightFor q = [] ∧ d.inflightFor q = [f] ∧ (dedups.confirm true false 0).2 = some true ∧
    (dedups.confirm false false 0).2 = some false ∧ (dedups.confirm true true 0).2 = none ∧
    (d.dd.waiting.filter (fun w => w.bucket == 5)).length = 1 ∧ d.catServes = true ∧ dedups.cmpRoom 0 1 = true ∧
    ({ dedups with cmp := { dedups.cmp with jobs := List.replicate 256 { j with core := none } } } : Chip).cmpRoom 0 1 = false ∧
    dedups.cmpAllowed none ⟨1, false, 1, 0, 0, 1, 0⟩ = true ∧ dedups.cmpAllowed (some 0) ⟨1, false, 1, 0, 0, 1, 0⟩ = false ∧
    (issuerOf 192 0).engine = none ∧ (issuerOf 191 0).engine = some 191 ∧ j.limit = none ∧ { j with srcLen := 262145 }.limit = some 8 ∧
    dedups.poisonedAt j.srcAddr j.srcLen = false ∧ (spoilt dedups).poisonedAt j.srcAddr j.srcLen = true ∧
    (dedups.chosenForm j [1]).2.length ≤ 1 ∧ 0 < (dedups.chosenForm j [1]).2.length := by decide +kernel

/-- O29: an entry of a pool's queue free and none; every way in which a port denies; a job early, with its core, with its nonce; a key and
none; a header that passes and one that does not; INST below 90 percent, at its last value and past it; a digest's limits; a start and none. -/
theorem test_met_cipher_digest :
    let j : CipherJob := { handle := 1, op := 1, pool := 0, slot := 0, tenant := 0, srcLen := 4096, dstCap := 4096, srcAddr := 0, dstAddr := 0
                           hdrAddr := 0, form := 0, engine := none, ticket := 0, resAddr := 0, core := some 0, nonce := some 5 }
    let c : Chip := { array with cpe := { array.cpe with jobs := [j] } }
    let full : Chip := { array with cpe := { array.cpe with jobs := (List.range 256).map (fun n => { j with handle := n * 2 ^ 20, core := none }) } }
    let d : CipherDesc := ⟨0, 0, 64, 64, 0, 0, 0, 0, 0⟩
    let hdr : List Byte := [0x43, 0x4B, 0, 0, 0, 0, 0, 0, 0, 0, 0, 0, 0, 0x10, 0, 0] ++ List.replicate 48 0
    let dec : CipherJob := { j with op := 3, nonce := none }
    let g : DigestDesc := ⟨1, 1, 1, 0, 0x1000, 0, 0, 0⟩
    let dj := c.digestJob (issuerOf 192 0) 1 0 g
    let e := c.store 0x1008 [64]
    array.newHandle 0 = some (0, 0) ∧ full.newHandle 0 = none ∧ c.cipherAllowed none 1 d = true ∧ c.cipherAllowed (some 0) 1 d = false ∧
    c.cpe.jobs.find? (fun x => x.handle == 1) = some j ∧ c.jobKey j = some 0 ∧ c.jobKey { j with slot := 1 } = none ∧
    c.decryptCheck dec hdr = none ∧ c.decryptCheck dec [] = some 4 ∧
    max c.sealedInst (max 235922 c.cpe.shelfInst) + 1 < 235929 ∧ max c.sealedInst (max 0x3FFFE c.cpe.shelfInst) + 1 ≤ 0x3FFFF ∧
    0x3FFFF < max c.sealedInst (max 0x3FFFF c.cpe.shelfInst) + 1 ∧ (c.digestQueued 0).length < 256 ∧ c.digestAllowed dj = true ∧
    c.digestAllowed (c.digestJob (issuerOf 0 0) 1 0 g) = false ∧ e.digestLimit dj = none ∧ c.digestLimit dj = some 3 ∧ (e.digestStart dj).isSome = true ∧
    (e.digestStart { dj with flags := 4 }).isNone = true ∧ dj.final = true ∧ dj.save = false ∧ dj.check = false ∧
    (e.fragments dj).any (fun x => !e.jobReach none 0 x.1 x.2 false) = false ∧ c.cipherPoison j = false ∧ (spoilt c).cipherPoison j = true ∧
    c.digestSetupPoison { dj with srcAddr := 0 } = false ∧ (spoilt c).digestSetupPoison { dj with srcAddr := 0 } = true ∧
    e.digestPoison dj = false ∧ (spoilt c).digestPoison { dj with op := 2, srcAddr := 0 } = true := by decide +kernel

/-- A shelf's NAND of 1 die, 1 plane, 2 blocks of 2 pages; page 0 of block 0 written. -/
def nand : Nand :=
  { geo := ⟨1, 1, 2, 2, 0, 0, 0⟩, pages := [(0, some { hdr := sealHdr ⟨0, 0, 0, 0, 0, 0, 0, 0⟩ [], data := [] })], blocks := [(0, { next := 1 }), (0x10000, { state := 1 })] }

/-- O30: a page written, unwritten, bad and out of the geometry; a block good and retired; the page programmed in order and out of it; a
bridge parked; an operation on its way, at its timeout and before; a retry level below the highest and at it. -/
theorem test_met_media :
    let c : Chip := { array with ftm := { array.ftm with nand := [(127, nand)], ops := [{ tag := 4, shelf := 127, op := .read 0 0, sentAt := 0, resent := true }] } }
    let w := c.modShelf 3 (fun x => { x with dirty := [(9, 0)] })
    c.nandServes 127 = true ∧ c.nandServes 126 = false ∧ (nand.readPage 0 .clean).1 = 0 ∧ (nand.readPage 0 (.corrected 5)).2.2 = 5 ∧
    (nand.readPage 0 .uncorrectable).1 = 2 ∧ nand.readPage 1 .clean = (3, none, 0) ∧ nand.readPage 2 .clean = (6, none, 0) ∧
    nand.bars 1 = none ∧ nand.bars 0 = some 7 ∧ nand.bars 0x10000 = some 8 ∧ nand.bars 2 = some 6 ∧ nand.isBlock 0 = true ∧ nand.isBlock 1 = false ∧
    nand.isBlock 0x20000 = false ∧ (nand.block 0).state = 0 ∧ (nand.block 0x10000).state ≠ 0 ∧
    (nand.page 0).any (fun g => g.hdr.check == pageCheck g.hdr g.data) = true ∧ (c.ftm.ops.find? (fun o => o.tag == 4)).isSome = true ∧
    (c.ftm.ops.find? (fun o => o.tag == 5)).isNone = true ∧
    (let t := c.ftmCtl R.FTM_MEDIA_CTRL_OP_TMO * 1000000
     (c.set R.GLB_TIME_TIME t).now = t ∧ (0 < t → (c.set R.GLB_TIME_TIME (t - 1)).now < t)) ∧
    (w.shelf 3).dirty.find? (fun e => e.1 == 9) = some (9, 0) ∧ w.epoch < 0 + w.ftmCtl R.FTM_MAP_CTRL_WB_EPOCHS := by decide +kernel

/-- The array with one closed stripe on both shelves, of one all-zero page a strip, its first strip missing or not. -/
def striped (missing state : Nat) : Chip :=
  let x := ({ array.modShelf 0 (fun s => { s with map := [(4, .zero 14)], state := state }) with
    kcf := { array.kcf with active := some { arrayImage with layout := [{ kind := 1, extLog2 := 14 }] } } } : Chip).modShelf 1 (fun s => { s with map := [(4, .zero 14)] })
  { x with ftm := { x.ftm with
      stripes := [{ cohort := 0, seid := 4, cls := 0, state := 2, missing := missing, live := 16, map := [0, 1], recs := [⟨0, 0, 64, 1, 0, 0, 1, false⟩] }] } }

/-- O31: a cohort awake and asleep; a stripe to compact and none; a strip to rebuild, with each kind of target; pages obtainable and lost; the
shelf scanned, absent, at the end of its grace and before; a scrub at its end, at its age and never; RDE's queue, lists and limits. -/
theorem test_met_redundancy :
    let c := striped 1 3
    let s : StripeEnt := { cohort := 0, seid := 4, cls := 0, state := 2, missing := 1, live := 16, map := [0, 1], recs := [⟨0, 0, 64, 1, 0, 0, 1, false⟩] }
    let d : RdeDesc := ⟨false, 2, 1, 0xFF, 0xFF, 0, 64, 0x1000, 0x2000, 0⟩
    let j : RdeJob := { handle := 1, op := 1, desc := d, pool := 0, engine := none, ticket := 0, unit := some 0 }
    let aged := (c.set R.GLB_TIME_TIME (86400000000000 * 400)).set R.FTM_STATUS_AWAKE 0
    c.awake = true ∧ c.cohortAwake 0 = true ∧ c.cohortAwake 7 = false ∧ c.isDay = true ∧ c.tends 4 = true ∧ (c.shelf 0).state = 3 ∧
    leastLive (array.compactable 0) = none ∧ leastLive ((striped 0 3).compactable 0) = some { s with missing := 0 } ∧ c.stripe 0 5 = none ∧ c.stripe 0 4 = some s ∧
    (List.range (c.stripeWidth s)).find? (fun j => bitOf s.missing j && !c.rebuildPending s j) = some 0 ∧
    (List.range (c.layoutOf s.cls).pages).any (fun i => (c.recovered s i).isNone && !c.offsetLost s i) = false ∧ c.offsetLost s 0 = false ∧
    (c.offsetLost { s with missing := 3 } 0) = true ∧ (match c.rebuildTarget s 0 with | .shelf _ _ => true | _ => false) = true ∧
    (match (striped 1 0).rebuildTarget s 0 with | .none => true | _ => false) = true ∧ (c.shelf 0).absentSince = none ∧
    (c.ftm.stripes.filter (fun x => x.cohort == 0 && x.state == 2 && c.tends x.seid && decide (5 ≤ x.seid))) = [] ∧
    (c.ftm.stripes.filter (fun x => x.cohort == 0 && x.state == 2 && c.tends x.seid && decide ((c.scrubOf 0).1 ≤ x.seid))) = [s] ∧
    aged.rdeCtl R.RDE_SCRUB_CTRL_MAX_DAYS ≠ 0 ∧ aged.cohortAwake 0 = false ∧ aged.cohortShelves 0 ≠ [] ∧
    (aged.scrubOf 0).2 + aged.rdeCtl R.RDE_SCRUB_CTRL_MAX_DAYS * 86400000000000 < aged.now ∧ (c.rdeQueued 0).length < 256 ∧
    c.rdeAllowed none 1 d = true ∧ c.rdeAllowed (some 0) 1 d = false ∧ j.limit = none ∧ { j with desc := { d with k := 16 } }.limit = some 1 ∧
    c.listReach j = true ∧ c.rdePoison j = false ∧ (spoilt c).rdePoison { j with desc := { d with src := 0 } } = true ∧
    (c.shelf 0).bands.length = 16 := by decide +kernel

/-- O32: no reshape, one asked for and one running; arguments refused for each reason and good; room beside and none; stripes left. -/
theorem test_met_reshape :
    let c := striped 0 3
    let r : Reshape := { reshapeOf 0x00010000_00000001 0 with running := true, mode := 2 }
    c.rde.reshape = none ∧ c.reshapeBad (reshapeOf c.reshapeArg 0) = some 2 ∧ c.reshapeBad r = none ∧
    c.reshapeBad { r with scope := 3, src := 0, dst := 1 } = some 3 ∧ c.roomBeside { r with mode := 1 } = true ∧
    c.roomBeside { r with scope := 2 } = false ∧ c.peerIn = false ∧ c.reshapeAwake r = true ∧
    ((c.reshapeLeft r).take r.batch).getLast?.isSome = true ∧ r.switchAt = none := by decide +kernel

/-- O34: a frame of SESSION 0 that verifies, whatever it carries: its trailer is the one that its sender gives it. -/
theorem test_met_crc_frames (src type : Nat) (bs : List Byte) :
    (⟨8, 1, crcTrailer (strHead src 8 type (40 + bs.length) 0 0 0 0 0 1 ++ bs)⟩ : CrcHdr).verifies src type bs = true := by
  simp [CrcHdr.verifies]

/-- O34: such frames that do not, and to another head. -/
theorem test_met_bad_crc : (⟨8, 1, []⟩ : CrcHdr).verifies 7 7 (enrolBytes 7 false 0 0 0 0) = false ∧
    (⟨9, 1, []⟩ : CrcHdr).dst ≠ array.att ∧ (⟨9, 1, []⟩ : CrcHdr).dst ≠ 15 := by decide +kernel

/-! ### Strings and the peer -/

/-- String 15 as this head owns it, trained and beaconing, with a bridge at position 7 and the head's view of it. -/
def strung (b : Bridge) (v : BridgeView) (now : Nat) : Chip :=
  (array.set R.GLB_TIME_TIME now).modStrg 15 (fun x => { x with
    trained := [8], beaconing := true, grants := List.replicate 61 7, bridges := [(7, b)], views := [(7, v)] })

/-- O33: ports that carry one codeword, none, two, and a misaligned one; this head's attachment and another; lanes and loop tests enough and
too few; a string that beacons and is trained or not; a slot granted to a bridge, to this head and out of the data slots; a bridge present,
parked, quarantined, contending and absent; the last beacon a second old and less. -/
theorem test_met_string_slots :
    let c := strung { present := true, gotBeacon := true, grants := List.replicate 61 7 } {} 999999999
    let own := c.modStrg 15 (fun x => { x with grants := List.replicate 61 8 })
    hubForward [.idle, .idle] = .idle ∧ hubForward [.idle, .codeword [1]] = .codeword [1] ∧
    hubForward [.codeword [1], .misaligned] = .collide 3 2 ∧ hubForward [.misaligned] = .collide 1 1 ∧ c.att = 8 ∧ 31 % 16 = 15 ∧ 30 % 16 ≠ 15 ∧
    64 ≤ (List.replicate 64 1).length ∧ ¬ 64 ≤ (List.replicate 63 1).length ∧ (c.strg 15).beaconing = true ∧ c.trainedOn 15 = true ∧ (array.strg 15).beaconing = false ∧
    (let b := c.bridge 15 7
     b.present && !b.parked && !b.holdover && b.gotBeacon && b.grants.getD (63 - 3) 15 == 7) = true ∧ (own.strg 15).grants.getD (3 - 3) 15 = own.att ∧
    array.trainedOn 15 = false ∧ c.slotFrom 15 8 3 7 = true ∧ c.slotFrom 15 8 2 7 = false ∧ ((c.countCodewords 15 7 0 0).strg 15).quarantine.contains 7 = false ∧
    (c.bridge 15 7).contending = none ∧ (c.bridge 15 7).backoff = none ∧ (c.bridge 15 6).present = false ∧ c.now < (c.strg 15).lastBeaconAt + 1000000000 ∧
    ((strung {} {} 1000000000).strg 15).lastBeaconAt + 1000000000 ≤ (strung {} {} 1000000000).now := by decide +kernel

/-- O34: an enrolment at each step, of this position and another, at its timeout and before; a quarantine over and not; a session with frames
unacknowledged: a value in the range, at its ends and out of it; due and not, worn and not; a bridge parked with the carrier seen. -/
theorem test_met_bridge_sessions :
    let l (sends : Nat) : LinkEnd := { session := 1, unacked := [(9, sends, ⟨8, 7, 1, true, false, false, 9, 0, 0, 1, .park⟩)] }
    let c (sends now : Nat) := strung { present := true, parked := true, wakeSeen := 4 } { lend := l sends, cachedDigest := 3 } now
    let e (step : Nat) : Enrolling := { pos := 7, since := 0, askedAt := 0, step := step, rootOk := true }
    let q := (c 1 0).modStrg 15 (fun x => { x with quarantine := [7], enrolling := some (e 7) })
    let cyc := (c 1 0).get R.ISF_TIMERS_RETX_CYC
    (c 1 0).awake = true ∧ ((c 1 0).strg 15).enrolling = none ∧ (q.strg 15).enrolling = some (e 7) ∧ (q.strg 15).quarantine.contains 7 = true ∧
    ((c 1 0).strg 15).quarantine.contains 7 = false ∧ (e 7).since + 300000000 ≤ (q.set R.GLB_TIME_TIME 300000000).now ∧
    (q.set R.GLB_TIME_TIME 299999999).now < (e 7).since + 300000000 ∧ (q.admitCheck 15 (e 7) true) = some 2 ∧
    (array.admitCheck 1 { e 7 with pos := 0 } true) = none ∧ (array.admitCheck 1 { e 7 with pos := 0 } false) = some 4 ∧
    (let due := q.get R.ISF_TIMERS_QUARANTINE_S * 1000000000
     (q.view 15 7).quarantineAt + due ≤ (q.set R.GLB_TIME_TIME due).now ∧ (0 < due → (q.set R.GLB_TIME_TIME (due - 1)).now < due)) ∧
    (l 1).ackInRange 10 = true ∧ (l 1).ackInRange 9 = false ∧ (l 1).ackInRange 11 = false ∧ (l 1).retxDue cyc (cyc * 43520) = true ∧
    (0 < cyc → (l 1).retxDue cyc (cyc * 43520 - 1) = false) ∧ (l 8).worn = true ∧ (l 7).worn = false ∧ ((c 1 0).bridge 15 7).parked = true ∧
    4 ≤ ((c 1 0).bridge 15 7).wakeSeen ∧ ((c 1 0).bridge 15 6).present = false ∧ (array.strg 15).beaconing = false ∧
    (array.shelfAt 1 0) = some 1 ∧ (array.get (R.ISF_STR_STATUS_STATE 15)) = 0 := by decide +kernel

/-- The peer link up with quads 0 and 1, in a state. -/
def peered (st : PeerState) : Chip := { array.set R.ZBL_STATUS_QUADS 3 with zbl := { array.zbl with session := 5, state := st } }

/-- O35: a bridge silent for 64 cycles and less; a string out of service, at 10 s and before; a quad in use, failed and unused; a lane of the last
quad; the link down and able, training and not, its tone a millisecond old; a head alone at its time; a heartbeat due; frames unacknowledged,
sent 8 times and less, at the timeout and before; a request open. -/
theorem test_met_peer_link :
    let silent (n : Nat) := strung {} { state := 3, silentCycles := n } 0
    let out := (owned array).modStrg 15 (fun x => { x with outAt := some 0 })
    let c := owned (peered .inService)
    let free := owned array
    let x (n : Nat) : Channel := { unacked := [⟨1, n, 1, .mirrorDrop 1⟩] }
    let held (n : Nat) : Chip := { c with zbl := { c.zbl with chB := x n, requests := [⟨4, .mirrorDrop 1, 0⟩] } }
    ((silent 64).view 15 7).state = 3 ∧ 64 ≤ ((silent 64).view 15 7).silentCycles ∧ ((silent 63).view 15 7).silentCycles < 64 ∧
    ((silent 64).dropView 15 7 0 |>.strEvent 0x246 15 7 0 0).shelfAt 15 7 = none ∧ (out.strg 15).outAt = some 0 ∧ (array.strg 15).outAt = none ∧
    ¬ (array.trainedOn 15 = true ∧ array.now < (array.strg 15).lastBeaconAt + 1000000000) ∧ c.bit R.ZBL_STATUS_QUADS (7 / 4) = true ∧
    c.bit R.ZBL_STATUS_QUADS (8 / 4) = false ∧ c.get R.ZBL_STATUS_QUADS = 3 ∧ ({ c.zbl with failedQuads := [3] } : Zbl).failedQuads.contains 3 = true ∧
    c.mayLink = true ∧ c.linkUp = true ∧ free.mayLink = true ∧ free.linkUp = false ∧ free.zbl.training = false ∧ free.zbl.lastTone = 0 ∧
    free.isDay = true ∧ free.zbl.state = .alone ∧ free.pwr.dayAt + free.get R.ZBL_CTRL_ALONE_S * 1000000000 ≤
      (free.set R.GLB_TIME_TIME (free.get R.ZBL_CTRL_ALONE_S * 1000000000)).now ∧ c.zbl.hbTxAt = 0 ∧ c.zbl.lapsed = false ∧
    ((held 8).zch 2).unacked.any (fun f => decide (8 ≤ f.sends)) = true ∧ ((held 7).zch 2).unacked.any (fun f => decide (8 ≤ f.sends)) = false ∧
    ((held 7).zbl.requests.find? (fun r => r.opid == 4)).isSome = true ∧
    (let t := c.get R.ZBL_TIMERS_RETX_US * 1000
     (c.set R.GLB_TIME_TIME t).now = t ∧ (0 < t → (c.set R.GLB_TIME_TIME (t - 1)).now < t)) := by decide +kernel

/-- A frame header from the peer at position 1. -/
def hdr : PeerHdr := ⟨5, 1, 0, none, 1, 1, false, false, 0, 0, []⟩

/-- That header with the trailer that its sender gives it. -/
def sealed (m : PeerMsg) : PeerHdr := { hdr with trailer := trailerOf ((peered .inService).peerSent hdr m) }

/-- O36: a frame whose tag verifies, of every message. -/
theorem test_met_genuine (m : PeerMsg) : (peered .inService).genuine (sealed m) m = true := by
  have h : (peered .inService).peerSent (sealed m) m = (peered .inService).peerSent hdr m := rfl
  rw [Chip.genuine, h]
  simp only [sealed, Bool.and_eq_true, beq_self_eq_true, and_true]
  exact (by decide +kernel : (hdr.session == (peered .inService).zbl.session) = true ∧ decide ((peered .inService).zbl.rxTxc < hdr.txc) = true)

/-- O36: the link up and down; a genuine frame and a replayed one; a frame in order, behind it, at half the sequence space, and ahead. -/
theorem test_met_peer_frames :
    let c := peered .inService
    c.linkUp = true ∧ c.awake = true ∧ array.linkUp = false ∧ c.genuine { hdr with txc := 0 } (.mirrorDrop 1) = false ∧ c.genuine { hdr with session := 4 } (.mirrorDrop 1) = false ∧
    ((c.zch 0).expect + 2 ^ 32 - 0) % 2 ^ 32 = 0 ∧ ((c.zch 0).expect + 2 ^ 32 - (2 ^ 32 - 1)) % 2 ^ 32 = 1 ∧
    ((c.zch 0).expect + 2 ^ 32 - 2 ^ 31) % 2 ^ 32 = 2 ^ 31 ∧ 2 ^ 31 < ((c.zch 0).expect + 2 ^ 32 - 1) % 2 ^ 32 ∧ (c.zch 0).nakSent ≠ some (c.zch 0).expect := by
  decide +kernel

/-- O37: a proposal open, accepted by the peer in time, late and refused; one committed; one at its lapse and before. -/
theorem test_met_agreements :
    let a (done : Bool) : Agreement := ⟨4, .keyErase 1, 0, 0, false, done⟩
    let c (done : Bool) (t : Nat) : Chip := { (peered .inService).set R.GLB_TIME_TIME t with zbl := { (peered .inService).zbl with
      proposals := [a done], accepted := [a false], requests := [⟨4, .lease (.request 0 64 1023 127), 0⟩] } }
    (c false 0).awake = true ∧ (c false 0).zbl.proposals.find? (fun x => x.opid == 4 && !x.committed) = some (a false) ∧
    (c true 0).zbl.proposals.find? (fun x => x.opid == 4 && !x.committed) = none ∧
    ((c true 0).dropRequest 4).zbl.proposals.find? (fun x => x.opid == 4 && x.committed) = some (a true) ∧
    (c false 5000000).now ≤ (a false).at_ + 5000000 ∧ (a false).at_ + 5000000 < (c false 5000001).now ∧ (c false 4999999).now < (a false).at_ + 5000000 ∧
    ((c false 0).zbl.requests.find? (fun r => r.opid == 4)).isSome = true ∧ ((c false 0).zbl.requests.find? (fun r => r.opid == 5)).isSome = false ∧
    (c false 0).rival (.keyErase 1) = some (a false) ∧ (c false 0).rival (.keyErase 2) = none ∧ (c false 0).peerWins (.keyErase 1) (.keyErase 1) = true ∧
    (c false 0).peerWins (.keyErase 2) (.keyErase 2) = false ∧ ((c false 0).nsOf 1).present = true ∧ ((c false 0).nsOf 2).present = false ∧
    64 ≤ (if 1 = 2 then 16 else 64) := by decide +kernel

/-- O38: mirrored data up to the end of the buffer and past it; the next boundary reached and a nanosecond before; an epoch that may complete and
one that may not; MSYNC used; a silent peer and one heard, at each position; strings fenced and not; the link's retry due and not; an
acknowledgement owed. -/
theorem test_met_mirror_takeover :
    let c := peered .inService
    let at_ (t : Nat) := (owned array).set R.GLB_TIME_TIME t
    let ex : EpochEx := { epoch := 0 }
    let e1 : Chip := { (at_ 0).set R.GLB_EPOCH_EPOCH 1 with zbl := { (at_ 0).zbl with epochs := [ex], state := .sole } }
    let sync : Chip := { array with kcf := { array.kcf with active := some { arrayImage with clocks := { msync := 1 } } }
                                    zbl := { array.zbl with msyncUsedEpoch := some 0 } }
    let retry (t : Nat) : Chip := { at_ t with zbl := { (at_ t).zbl with retryAt := 9 } }
    c.zbl.total * 0x400000 < 0x400000 + 1 ∧ 0x3FFFFF + 1 ≤ c.zbl.total * 0x400000 ∧ array.inService = true ∧
    (let t := array.boundaryAt array.nextEpoch
     (at_ t).boundaryAt (at_ t).nextEpoch ≤ (at_ t).now ∧ 0 < t ∧ (at_ (t - 1)).now < (at_ (t - 1)).boundaryAt (at_ (t - 1)).nextEpoch) ∧
    e1.mayComplete_ ex = true ∧ array.mayComplete_ ex = false ∧ e1.zbl.epochs.find? (fun x => x.epoch == 0) = some ex ∧ sync.msync = true ∧
    sync.timekeeper = true ∧ sync.zbl.msyncUsedEpoch = some sync.epoch ∧ array.msync = false ∧ array.silent = true ∧
    (c.set R.GLB_TIME_TIME 199999).silent = false ∧ (c.set R.GLB_TIME_TIME 200000).silent = true ∧ c.pos = 0 ∧
    ((List.range 16).filter array.trainedOn).all array.fenced = true ∧ ((List.range 16).filter (strung {} {} 0).trainedOn).all (strung {} {} 0).fenced = false ∧
    (retry 9).mayLink = true ∧ (retry 9).linkUp = false ∧ (retry 9).zbl.retryAt ≤ (retry 9).now ∧ (retry 8).now < (retry 8).zbl.retryAt ∧
    (({ c with zbl := { c.zbl with chC := { ackOwed := true } } } : Chip).zch 0).ackOwed = true := by decide +kernel

/-! ### Work items, DMA and memory -/

/-- The array with cluster 23 in service in the tenant's pool, its engine 7 in a state. -/
def working (es : EngState) (x : Option WorkItem) : Chip :=
  (array.modClus 23 (fun k => { k with state := .inService })).setEng 191 { state := es, item := x, progId := 1 }

/-- O39: an item that its cluster serves and one that it does not; an engine that waits, runs, stalls, has one queued; a queued item a
millisecond old and less; an engine faulted, its faults 16 in a second and fewer, its program in the image and not; a request that waits for
its commit, that comes with no item, of another's item, after DONE, and good; a chunk undecided, unique and a duplicate; a stripe open and none. -/
theorem test_met_work_items :
    let c := working .waiting none
    let ctl (st : JobState) (x : Option WorkItem) := (working .running x).modClus 23 (fun k => { k with jobs := [
      { job with cls := 6, state := st, body := [1, 0, 0, 0, 0, 0, 0, 0, 7] ++ List.replicate 55 0 }] })
    let late (t : Nat) := (c.set R.GLB_TIME_TIME t).setEng 190 { state := .running, queued := some item, queuedAt := 0 }
    let chunk (a : ChunkAnswer) : Chunk := { id := 1, nsid := 0, slba := 0, blocks := 1, cls := 1, dom := 0, fp := 0, wids := [], answer := a }
    let h (a : ChunkAnswer) : Chip := { c with ing := { c.ing with chunks := [chunk a] } }
    c.awake = true ∧ (c.ungate 23).servesItem 23 item = true ∧ (c.ungate 22).servesItem 22 item = false ∧ ((c.ungate 23).engAt 191).state = .waiting ∧
    (((working .running none).ungate 23).engAt 191).queued = none ∧ ((late 0).engAt 190).queued = some item ∧ 0 + 1000000 ≤ (late 1000000).now ∧
    (late 999999).now < 0 + 1000000 ∧ (late 1000000).servesItem 23 item = true ∧ ((working .faulted none).engAt 191).state = .faulted ∧
    ((working .faulted none).clusAt 23).state = .inService ∧ ((working .faulted none).program 1).isSome = true ∧ ((working .faulted none).program 0) = none ∧
    ((List.replicate 16 0).filter (fun t => decide (array.now < t + 1000000000))).length = 16 ∧
    (ctl .held none).ctlJob 191 1 7 [] = none ∧ (ctl .committed none).ctlJob 191 1 7 [(16, 8, 1)] = none ∧
    ((ctl .committed (some item)).ctlJob 191 1 7 [(16, 8, 0)]).isSome = true ∧ ((ctl .committed (some item)).engAt 191).item = some item ∧
    item.workId = 7 ∧ item.kind ∈ [2] ∧ ((ctl .committed none).engAt 191).item = none ∧
    ((h .unique).ing.chunks.find? (fun k => k.nsid == item.nsid && k.slba == 0 && k.blocks == 1)) = none ∧
    ((h .undecided).ing.chunks.find? (fun k => k.nsid == 0 && k.slba == 0 && k.blocks == 1)) = some (chunk .undecided) ∧ inflightChunk 0 = none ∧
    c.ing.stripes.find? (fun s => s.cls == 0 && !s.shadow) = none ∧ (array.set R.FTM_STATUS_AWAKE 0).openStripe 0 = none := by decide +kernel

/-- O39: a unique chunk encrypted under its namespace's slot, at the start of the first extent of an open stripe on its own shelf, with room left behind
it; and what makes a record fail: another length, another slot. -/
theorem test_met_packed :
    let b := striped 0 3
    let c : Chip := { b with
      ing := { b.ing with
        stripes := [⟨6, 0, 0, 0, 1, none, [0x1000, 0x5000], 0, false⟩]
        chunks := [{ id := 1, nsid := 0, slba := 0, blocks := 1, cls := 0, dom := 0, fp := 0, wids := [], answer := .unique }] }
      ftm := { b.ftm with stripes := b.ftm.stripes ++ [{ cohort := 0, seid := 6, cls := 0, state := 1, map := [0, 1] }] } }
    let d := c.store 0x1000 [0x43, 0x4B, 0, 1, 0, 0, 0, 0, 0, 0, 0, 0, 0, 0x10, 0, 0]
    let loc := mkLocator 0 0 6 0
    let h := d.load 0x1000 64
    (d.ing.stripes.find? (fun s => s.seid == locSeid loc && s.cohort == locCohort loc && s.cls == 0)).any (fun os =>
      (d.openEnt os).any (fun ent => d.recordPlace os ent loc == some (0, 0x1000))) = true ∧
    bsNat h 0 2 = 0x4B43 ∧ bsNat h 3 1 = 1 ∧ bsNat h 6 2 = (d.nsOf 0).keySlot ∧ bsNat h 2 1 = 0 ∧ 64 + bsNat h 12 4 ≤ (d.layoutOf 0).extent ∧
    (d.layoutOf 0).extent = 2 ^ 14 ∧ bsNat (c.load 0x1000 64) 0 2 ≠ 0x4B43 := by decide +kernel

/-- Channel 23, the host's last, in a state, with a descriptor. -/
def chained (st : ChState) (ph : ChPhase) (d : Option DmaDesc) : Chip := array.modChan 23 (fun x => { x with state := st, phase := ph, desc := d, remain := 64 })

/-- A descriptor of 64 bytes within DRAM. -/
def descr (op line : Nat) (paced : Bool) : DmaDesc := ⟨op, 0, 0, 0, line, 64, paced, 64, 0x1000, 0x2000, false⟩

/-- The array with a host window over the first 2 MiB of a region of type 6. -/
def windowed (c : Chip) : Chip :=
  { c with dma := { c.dma with hwBase := 0, hwLen := 0x200000 }, kcf := { c.kcf with active := some { arrayImage with carve := [⟨6, 0, 0x200000, 0⟩] } } }

/-- O40: a channel of the host's and one of the firmware's; every state; a head aligned, out of the window and misaligned; the bus stop set, at 10 ms
and before; a window within its region, past it, and misaligned. -/
theorem test_met_dma_commands :
    let c := chained .idle .fetching none
    let stop (t : Nat) := (array.set R.DMA_STATUS_BUS_STOP 1).set R.GLB_TIME_TIME t
    hostOwned 23 = true ∧ hostOwned 24 = false ∧ (c.chan 23).state = .idle ∧ c.on R.DMA_STATUS_BUS_STOP = false ∧ (stop 0).on R.DMA_STATUS_BUS_STOP = true ∧
    c.get (R.DMA_CH_HEAD_HEAD 23) % 64 = 0 ∧ (c.set (R.DMA_CH_HEAD_HEAD 23) 8).get (R.DMA_CH_HEAD_HEAD 23) % 64 ≠ 0 ∧ c.chanMay 23 0 0 64 = false ∧
    (windowed c).chanMay 23 0 0x1FFFC0 64 = true ∧ (windowed c).chanMay 23 0 0x200000 64 = false ∧
    (((chained .waitLink .linking none).modChan 23 (fun x => { x with dbPending := true })).chan 23).owes = true ∧
    ((chained .waitDesc .fetching none).chan 23).owes = false ∧ ((chained .paused .moving (some (descr 1 0 false))).chan 23).inDesc = true ∧
    (stop 10000000).dma.stopAt + 10000000 ≤ (stop 10000000).now ∧ (stop 9999999).now < (stop 9999999).dma.stopAt + 10000000 ∧
    ((windowed c).carve 6).any (fun r => decide (r.base ≤ 0) && decide (0 + 0x200000 ≤ r.base + r.size)) = true ∧
    ((windowed c).carve 6).any (fun r => decide (r.base ≤ 0) && decide (0 + 0x400000 ≤ r.base + r.size)) = false ∧ 0x200000 % 0x200000 = 0 ∧
    0x1FFFFF % 0x200000 ≠ 0 := by decide +kernel

/-- O41: a descriptor done, good and bad; a link valid, out of the window, not there; each OP under way and none; memory equal and different, in
the last burst; a line ready and not; enough bytes to export and none; the pace tick on and off. -/
theorem test_met_dma_transfers :
    let c := windowed (chained .running .moving (some (descr 1 0 false)))
    let f := chained .running .fetching none
    let done : List Byte := List.replicate 48 0 ++ [1] ++ List.replicate 15 0
    let rec_ : Chip := { chained .waitReq .moving (some (descr 1 0 true)) with evr := { array.evr with exportFifo := [{}] } }
    (f.chan 23).state = .running ∧ (f.chan 23).phase = .fetching ∧ (f.load (f.chan 23).cur 64).length = 64 ∧
    bitOf (done.getD 0x30 0).toNat 0 = true ∧ c.checkDesc 23 (descr 1 0 false) = 0 ∧ f.checkDesc 23 (descr 1 0 false) = 3 ∧
    c.checkDesc 23 (descr 4 0 false) = 11 ∧ c.chanMay 23 0 64 64 = true ∧ bitOf 65 0 = true ∧ bitOf 64 0 = false ∧
    [1, 2, 3].all (fun o => ((windowed (chained .running .moving (some (descr o 0 false)))).chanBusy 23 o).isSome) = true ∧ c.chanBusy 23 2 = none ∧
    (c.chan 23).burstLen (descr 1 0 false) = 64 ∧ firstDiff [1, 2] [1, 3] 0 = some 1 ∧ firstDiff [1, 2] [1, 2] 0 = none ∧
    rec_.lineReady 0 64 = true ∧ c.lineReady 0 64 = false ∧ (rec_.chan 23).state = .waitReq ∧ rec_.chanHeld 23 = false ∧
    c.chanPoison 23 (descr 1 0 false) = none ∧ ({ c with mem := { c.mem with poisoned := [(descr 1 0 false).src / 64] } } : Chip).chanPoison 23 (descr 1 0 false) = some (descr 1 0 false).src ∧
    f.poisonedAt (f.chan 23).cur 64 = false ∧ ({ f with mem := { f.mem with poisoned := [(f.chan 23).cur / 64] } } : Chip).poisonedAt (f.chan 23).cur 64 = true ∧
    (rec_.exportBytes 64 EvRecord.bytes).length = 64 ∧ array.get R.DMA_PACE_TICK_TICK = 0 ∧ (array.set R.DMA_PACE_TICK_TICK 1).get R.DMA_PACE_TICK_TICK ≠ 0 := by
  decide +kernel

/-- O42: a channel whose source lies in host memory: its read not yet made, its data there; a function that may not send requests; a burst under way; the
read of a channel in flight and waiting to be sent, at its time and a nanosecond before. -/
theorem test_met_dma_host :
    let far : DmaDesc := { descr 1 0 false with srcSpace := 1 }
    let c (got : List ChRead) := (chained .running .moving (some far)).modChan 23 (fun x => { x with got := got, remain := 64 })
    let asks (tag : Option Nat) (t : Nat) : Chip := { (c []).set R.GLB_TIME_TIME t with epc := { (c []).epc with
      xfers := [⟨1, 0, .dmaChannel 23 .source, 0x1000, 64, 64⟩], reqs := [⟨1, 0, 0x2000, 64, 0x1000, 0, tag, 0⟩] } }
    let found (d : Chip) := d.epc.reqs.findSome? (fun r => (d.epc.xfers.find? (fun y => y.id == r.xfer && (match y.purpose with
      | .dmaChannel k _ => k == 23
      | _ => false))).map (fun y => (r, y)))
    let shut := (c []).set (R.CFG_COMMAND_BME 0) 0
    ((c []).chan 23).has 1 .source = false ∧ ((c [.source]).chan 23).has 1 .source = true ∧ ((c []).chan 23).has 0 .source = true ∧
    shut.chanHeld 23 = true ∧ ((c []).chan 23).bursting = false ∧ ((c [.source]).chan 23).bursting = true ∧
    (found (c [])).isNone = true ∧ (found (asks (some 5) 0)).any (fun p => p.1.tag == some 5) = true ∧ (found (asks none 0)).any (fun p => p.1.tag == none) = true ∧
    0 + (asks (some 5) 50000000).ctoNs 0 ≤ (asks (some 5) 50000000).now ∧ (asks (some 5) 49999999).now < 0 + (asks (some 5) 49999999).ctoNs 0 := by
  decide +kernel

/-- Memory open, with a region of a type at address 0 of 384 GiB, and perhaps line 0 in way 1 of the cache. -/
def cached (typ : Nat) (ls : List CLine) : Chip :=
  { array with
      kcf := { array.kcf with active := some { arrayImage with carve := [⟨typ, 0, 0x100000, 0⟩] } }
      mem := { array.mem with gib := 384, opened := true, sets := [(0, ls)], evict := [⟨9, false, List.replicate 64 1⟩] } }

/-- O42: memory closed; an address past the end, in no region, in a cached and in an uncached one; a line held, clean and dirty, by a core that may have
changed it, in a way being swept; snoops answered and not; a line in the eviction buffer. -/
theorem test_met_cache :
    let l : CLine := { line := 0, way := 1, dirty := true, owner := some 3, data := List.replicate 64 0 }
    let c := cached 2 [l]
    let snoop (a : Bool) : Snoop := ⟨0, 3, .unit, .read 8, 0, a⟩
    c.awake = true ∧ c.mem.opened = true ∧ array.mem.opened = false ∧ c.regionOf (384 * 2 ^ 30) = 0 ∧ c.regionOf (384 * 2 ^ 30 - 1) = 9 ∧ c.regionOf 0x100000 = 10 ∧
    c.regionOf 0xFFFFF = 2 ∧ cachedRegion 2 = true ∧ cachedRegion 1 = false ∧ (cached 1 []).regionOf 0 = 1 ∧ c.lineAt 0 = some l ∧ c.lineAt 1 = none ∧
    c.mem.sweeping = none ∧ ({ c.mem with sweeping := some 1 } : MemB).sweeping = some l.way ∧ l.dirtyElsewhere .unit = some 3 ∧
    l.dirtyElsewhere (.core 3) = none ∧ coreOf .unit = none ∧ coreOf (.core 3) = some 3 ∧
    ([snoop false].find? (fun x => x.line == 0 && x.core == 3 && !x.answered)) = some (snoop false) ∧
    ([snoop true].find? (fun x => x.line == 0 && x.core == 3 && x.answered)) = some (snoop true) ∧
    (c.mem.evict.reverse.find? (fun e => e.line == 9)).isSome = true ∧ (c.mem.evict.reverse.find? (fun e => e.line == 8)).isNone = true := by decide +kernel

/-- O43: a line to scrub, poisoned and not; corrected errors below the limit and at it; a way being swept; every channel trained and one not, with a
capacity it takes and one it does not; content kept and lost; a way on, off, faulty and kept; ways 15 and 16. -/
theorem test_met_memory :
    let c := cached 2 []
    let d := { dawning 3 with mem := { (dawning 3).mem with contentKept := true }, pwr := { (dawning 3).pwr with coldDawn := false } }
    let on := (c.set R.MEM_STATUS_WAYS_ON 0x8003)
    c.isDay = true ∧ c.regionOf 0 ≠ 0 ∧ 0 / 64 ∉ c.mem.poisoned ∧ c.ceCount 11 < (c.set R.MEM_CTRL_CE_LIMIT 1).get R.MEM_CTRL_CE_LIMIT ∧
    (c.set R.MEM_CTRL_CE_LIMIT 0).get R.MEM_CTRL_CE_LIMIT ≤ c.ceCount 11 ∧ d.pwr.mode = .dawn ∧ d.pwr.dawnStep = 3 ∧
    ((List.range 12).filter (fun ch => (List.range 12).contains ch)).length = 12 ∧ ((List.range 12).filter (fun ch => (List.range 11).contains ch)).length < 12 ∧
    dimmOk [⟨128, 2, 1⟩, ⟨128, 2, 2⟩] 1 = true ∧ dimmOk [⟨128, 2, 1⟩, ⟨127, 2, 2⟩] 1 = false ∧ dimmOk [⟨128, 2, 1⟩] 1 = false ∧ d.pwr.coldDawn = false ∧ d.mem.contentKept = true ∧ d.mem.dimms ≠ [⟨32, 2, 1⟩] ∧ (dawning 3).pwr.coldDawn = true ∧
    on.bit R.MEM_STATUS_WAYS_ON 15 = true ∧ on.bit R.MEM_STATUS_WAYS_ON 14 = false ∧ on.keptWays = [0, 1] ∧ on.on R.MEM_WAY_STATUS_ACTIVE = false ∧
    (on.raise R.MEM_WAY_STATUS_FAULTY 15).bit R.MEM_WAY_STATUS_FAULTY 15 = true := by decide +kernel

/-! ### Power, the root of trust, the loader and the recorder -/

/-- Dusk in a phase. -/
def dusk (n : Nat) : Chip := ({ served with pwr := { day.pwr with mode := .dusk } } : Chip).set R.PWR_STATUS_PHASE n

/-- O44: Day; each phase of Dusk with nothing left to do and with something; hostless at its time and before; the night timer due; the temperature at
-40 degrees and below; an I3C address and none; each wake cause. -/
theorem test_met_dusk :
    let busy : Chip := { dusk 1 with nvm := { day.nvm with inflight := [{ id := me false, admin := false, opc := 1, nsid := 1, bytes := 0, started := false, abandoned := false, entry := [] }] } }
    let lost (t : Nat) : Chip := { (served.set R.PWR_CTRL_HOSTLESS_S 1).set R.GLB_TIME_TIME t with pwr := { day.pwr with hostLostAt := some 0 } }
    let night : Chip := { (inMode .night .none (-40)).set R.GLB_TIME_TIME 1000000000 with pwr := { (inMode .night .none (-40)).pwr with
      nwClocks := some ({ nightWake := 1 }, 0, 0), wakeHeld := true } }
    served.isDay = true ∧ (dusk 1).isDay = false ∧ (dusk 1).awake = true ∧ [1, 2, 3, 4, 5].all (fun n => (dusk n).phase == n) = true ∧
    (dusk 1).nvm.inflight.all (fun i => i.opc == 0x0C && i.admin) = true ∧ busy.nvm.inflight.all (fun i => i.opc == 0x0C && i.admin) = false ∧
    (dusk 1).kcfState ≠ 6 ∧ (dusk 1).kcfState ≠ 7 ∧ (dusk 2).unvaulted = 0 ∧ ((dusk 2).set R.GLB_EPOCH_EPOCH 1).closedAndDone 0 = true ∧
    (dusk 2).closedAndDone 0 = false ∧ (dusk 3).peerIn = false ∧ (dusk 3).get R.FTM_STATUS_AWAKE = 0 ∧ ((dusk 3).set R.FTM_STATUS_AWAKE 1).get R.FTM_STATUS_AWAKE ≠ 0 ∧
    (lost 1000000000).pwr.hostLostAt = some 0 ∧ (lost 1000000000).get R.PWR_CTRL_HOSTLESS_S = 1 ∧ (lost 999999999).now < 0 + 1 * 1000000000 ∧
    night.awake = false ∧ night.pwr.mode = .night ∧ night.pwr.nightAt + 1 * 1000000000 ≤ night.now ∧ night.pwr.wakeHeld = true ∧ -40 ≤ night.pwr.highest ∧
    night.pwr.i3c = none ∧ (night.set R.PWR_WAKE_CAUSE_CAUSE 4).bit R.PWR_WAKE_CAUSE_CAUSE 0 = false := by decide +kernel

/-- O45: a head drained and one that is not; a clock domain idle and busy, gated and not; temperatures at 132, 133, 135 and 136 degrees; a cap due to move and
not; a trip due; power at its limit, at 95 percent and past; a PLL locked and not, of a cluster domain and of none. -/
theorem test_met_heat :
    let at_ (t : Nat) := array.set R.GLB_TIME_TIME t
    let hot (t : Nat) : Chip := { at_ t with pwr := { array.pwr with hotSince := some 0 } }
    array.drained = true ∧ (array.set R.GLB_STATUS_IMAGE_ACTIVE 1).drained = false ∧ ((List.range 8).foldl (fun d k => d.setEng k { state := .waiting }) array).domainIdle 0 = true ∧
    (array.setEng 0 { state := .running }).domainIdle 0 = false ∧
    array.pwr.idleAt.find? (·.1 == 0) = none ∧ 0 + array.get R.PWR_CTRL_GATE_US * 1000 ≤ (at_ (array.get R.PWR_CTRL_GATE_US * 1000)).now ∧ array.domainIdle 55 = true ∧ array.domainIdle 56 = false ∧ 0 ∉ array.pwr.gated ∧
    (at_ 1000000).pwr.capAt + 1000000 ≤ (at_ 1000000).now ∧ (at_ 999999).now < (at_ 999999).pwr.capAt + 1000000 ∧ array.pwr.hotSince = none ∧
    (hot 10000000).pwr.hotSince = some 0 ∧ 0 + 10000000 ≤ (hot 10000000).now ∧ (hot 9999999).now < 0 + 10000000 ∧ (hot 0).pwr.tripped = false ∧
    (array.set R.PWR_CTRL_PCAP_W 100).get R.PWR_CTRL_PCAP_W = 100 ∧ 94 * 100 < 100 * 95 ∧ 100 * 95 ≤ 95 * 100 ∧ array.get R.PWR_CTRL_PCAP_W = 240 ∧
    array.bit R.PWR_PLL_LOCK 9 = false ∧ array.bit R.PWR_PLL_FAIL 9 = false ∧ 2 ≤ array.pwr.dawnStep ∧
    (array.raise R.PWR_PLL_LOCK 9).bit R.PWR_PLL_LOCK 9 = true := by decide +kernel

/-- A token of a command with its form right and everything else zero. -/
def token (cmd : Nat) : List Byte := [0x54, 0x4B, 1, 0, BitVec.ofNat 8 cmd] ++ List.replicate 315 0

/-- O46: a challenge valid, expired and none; each command's token, well formed and not; debug closed and requested. The tokens that pass their checks
carry a signature that verifies: no test shows one, since the model leaves the signature scheme's values free. -/
theorem test_met_tokens :
    let c (t : Nat) : Chip := { served.set R.GLB_TIME_TIME t with root := { served.root with challenge := some 1, challengeAt := 0 } }
    (c 59999999999).chalValid = true ∧ (c 60000000000).chalValid = false ∧ served.chalValid = false ∧
    (List.range' 1 11).all (fun k => tokenForm (token k) && tkCommand (served.tokenBytes (.jtag (token k))) == k) = true ∧ tokenForm (token 12) = false ∧
    tokenForm [] = false ∧ served.root.debug ≠ .requested ∧ (served.tokenCheck [] none) ≠ 0 := by decide +kernel

/-- O47, O48: SPDM up and down on each transport; a connection before and after each agreement, busy and not; a chain and none; a measurement served and
none. JTAG awake, asleep, and held by ROM; debug opened; the manufacturing state. -/
theorem test_met_spdm_jtag :
    let c : Chip := { configured false with root := { (configured false).root with pcie := { version := true, caps := true, algs := true } } }
    let rom := inMode .held .rom 25
    c.spdmUp .pcie = true ∧ c.spdmUp .i3c = false ∧ (c.conn .pcie).algs = true ∧ (c.conn .i3c).version = false ∧ (c.conn .pcie).busy = false ∧
    (c.chain 0).isSome = true ∧ (c.chain 1) = none ∧ (c.measBlock 0 false) = some [] ∧ (c.measBlock 0xFE false) = none ∧ (c.measBlock 0xFF false).isSome = true ∧
    rom.awake = false ∧ rom.pwr.mode = .held ∧ rom.pwr.hold = .rom ∧ (inMode .night .none 25).pwr.hold ≠ .rom ∧ served.lifecycle = 0 ∧
    (owned served).lifecycle ≠ 0 ∧ (owned served).root.debug ≠ .opened := by decide +kernel

/-- O49: firmware running and none, pending and not; the lifecycle and the debug gate that allow a record; the confirm time reached and not; a peer in its
loader that may be healed; a heal under way and none; a piece at the buffer's end and past it. -/
theorem test_met_firmware :
    let run : Chip := { served.set R.BOOT_STATUS_FW_PENDING 1 with boot := { served.boot with running := some {} } }
    let t := run.get R.BOOT_CTRL_CONFIRM_S * 1000000000
    let heal := ((dawning 4).set R.GLB_STATUS_LOADER_ONLY 1).set R.BOOT_STATUS_HEALING 1
    served.boot.running = none ∧ run.boot.running.isSome = true ∧ run.on R.BOOT_STATUS_FW_PENDING = true ∧ served.lifecycle ≠ 4 ∧ (served.root.debug = .closed) ∧
    run.get R.BOOT_CTRL_CONFIRM_S ≠ 0 ∧ run.pwr.dayAt + t ≤ (run.set R.GLB_TIME_TIME t).now ∧ (run.set R.GLB_TIME_TIME (t - 1)).now < run.pwr.dayAt + t ∧
    heal.healing = true ∧ served.healing = false ∧ heal.boot.writer = none ∧ 0x1FFF000 + (List.replicate 4096 0).length ≤ 0x2000000 ∧
    0x2000000 < 0x1FFF001 + (List.replicate 4096 0).length ∧ (heal.checkFw [] false) ≠ 0 := by decide +kernel

/-- O50: a record in transit and none; a stretch over and not, with records suppressed and none; a freeze over and not; the fallback store in use; the
pointer of area C at its first and last slot, one outside each, and one past what is used. -/
theorem test_met_recorder :
    let frozen (t : Nat) := (served.set R.EVR_STATUS_FROZEN 1).set R.GLB_TIME_TIME t
    let t := served.get R.EVR_CTRL_FREEZE_MS * 1000000
    let b : Bucket := { stretch := true, suppressed := 1 }
    let c : Chip := { served.set R.EVR_C_PTR_HEAD 65535 with evr := { served.evr with cUsed := 1 } }
    served.evr.transit = [] ∧ b.stretch = true ∧ b.periodStart + 1000000000 ≤ (served.set R.GLB_TIME_TIME 1000000000).now ∧
    (served.set R.GLB_TIME_TIME 999999999).now < b.periodStart + 1000000000 ∧ (frozen t).on R.EVR_STATUS_FROZEN = true ∧ (frozen t).evr.freezeAt + t ≤ (frozen t).now ∧
    (0 < t → (frozen (t - 1)).now < (frozen (t - 1)).evr.freezeAt + t) ∧ served.on R.EVR_STATUS_FALLBACK = false ∧ areaC ≤ 65535 ∧
    (areaC + areaCSize - c.get R.EVR_C_PTR_HEAD) % areaCSize ≤ c.evr.cUsed ∧ c.evr.cUsed < (areaC + 1 + areaCSize - c.get R.EVR_C_PTR_HEAD) % areaCSize ∧
    ¬ areaC ≤ 58981 ∧ ¬ 65536 ≤ 65535 := by decide +kernel

/-! ### The whole machine -/

/-- O51 to O59: an empty queue, awake and not; a store over lines in the cache and in the eviction buffer; an offset where no register lies, in the block
windows and past them; Night at the start of 64 ticks; a queue of commands that name units of the head, and one that does not after one that does. -/
theorem test_met_machine :
    let c := cached 2 [{ line := 0, way := 1, data := List.replicate 64 0 }]
    let night : Chip := inMode .night .none 25
    served.awake = true ∧ State.reset.chip.awake = false ∧ Memory.wf c.dram = true ∧
    (c.mem.sets.all (fun x => x.2.all (fun l => l.data.length == 64)) && c.mem.evict.all (fun e => e.data.length == 64)) = true ∧
    findReg 0x01100000 = none ∧ findReg 0x0FFFFFFC = none ∧ 0x01100000 % 8 = 0 ∧ (findReg 0x01100004) = none ∧ night.pwr.nightTicks = 0 ∧ night.pwr.nightExtra = 0 ∧
    ([.nightwatchTick, .paceTick, .vfFlr 1023] : List Instr).all Instr.wf = true ∧ (Instr.vfFlr 1024).wf = false := by decide +kernel

/-- O60: a result released with none behind it, and two results of one unit; the same unit with a result waiting. -/
theorem test_met_results :
    let r : List (Fld × Nat) := [(R.MEM_WAY_RESULT_CODE, 1)]
    let v := R.MEM_WAY_RESULT_VALID
    v ≠ R.KCF_RESULT_VALID ∧ v ≠ R.PWR_RESULT_VALID ∧ 1 ≤ v.width ∧ day.on v = false ∧ NoneWaits day v ∧
    ((r.map (·.1.key)) ++ [v.key]).Nodup ∧ ¬ NoneWaits ((day.postResult v r).postResult v r) v := by
  unfold NoneWaits
  decide +kernel

/-! ### Results the spec or its named standards state -/

/-- The check values of CRC-32C, of the T10 guard and of the 64-bit guard over "123456789". -/
theorem test_crc_check_values :
    let bs : List Byte := [0x31, 0x32, 0x33, 0x34, 0x35, 0x36, 0x37, 0x38, 0x39]
    crc32c bs = 0xE3069283 ∧ guard16 bs = 0xD0DB ∧ guard64 bs = 0xAE8B14860A799888 := by decide +kernel

/-- SHA-256 of "abc" (FIPS 180-4's example). -/
theorem test_sha256 : beNat (sha256 [0x61, 0x62, 0x63]) = 0xBA7816BF8F01CFEA414140DE5DAE2223B00361A396177A9CB410FF61F20015AD := by decide +kernel

/-- FIPS-197's examples: SubBytes of 0x53, and the product of 0x57 and 0x83. -/
theorem test_aes_bytes : aesSub 0x53 = 0xED ∧ aesMul 0x57 0x83 = 0xC1 := by decide +kernel

/-- GLB_ID reads 0xC015_0960 (Table 1-6), and its read latches nothing. -/
theorem test_read_glb_id : let d := after (.lowHalfRead .bar2 0 4) { chip := served }
    d.regs.readData = 0xC0150960 ∧ d.regs.shadow = [] := by decide +kernel

/-- JTAG's IDCODE shifts out 0x2096_0B37, bit 0 first (Table 17-9). -/
theorem test_jtag_idcode : (after .jtagIdcode { chip := served }).out.head? = some (.jtag (bitsLe 0x20960B37 32)) := by decide +kernel

/-- PME_Turn_Off is acknowledged and the link goes to L2 (R501). -/
theorem test_pme_turn_off : let d := after .pmeTurnOff { chip := linked false .l0 true }
    d.epc.link = .l2 ∧ d.out.contains .pmeAck = true ∧ d.get R.EPC_CNT_LINKLOSS_LINKLOSS = 1 := by decide +kernel

/-- A tail doorbell of the queue's size is an invalid one and does not move the tail; the value below it does (R111). -/
theorem test_sq_tail_doorbell :
    ((after (.sqTailDoorbell 0 1 4) { chip := enabled }).sqOf 0 1).map (·.tail) = some 0 ∧
    ((after (.sqTailDoorbell 0 1 3) { chip := enabled }).sqOf 0 1).map (·.tail) = some 3 := by decide +kernel

/-- An erase counts, empties the block and answers with the new count; one of a retired block answers 0x08 (Table 9-9). -/
theorem test_media_erase :
    let c : Chip := { array with ftm := { array.ftm with nand := [(127, nand)] } }
    ((after (.mediaErase 127 0 false) { chip := c }).nandOf 127).reply = some { op := 4, status := 0, vals := [1] } ∧
    ((after (.mediaErase 127 0 false) { chip := c }).nandOf 127).page 0 = none ∧
    ((after (.mediaErase 127 0x10000 false) { chip := c }).nandOf 127).reply = some { op := 4, status := 8 } := by decide +kernel

/-- FILL repeats the 8 bytes of SRC, least significant first, over the destination (Table 14-2). -/
theorem test_dma_fill :
    let c := windowed (chained .running .moving (some { descr 2 0 false with src := 0x0807060504030201, len := 10, dst := 0x1FF000 }))
    (after (.dmaFill 23) { chip := c }).load 0x1FF000 11 = [1, 2, 3, 4, 5, 6, 7, 8, 1, 2, 0] := by decide +kernel

/-- The hub repeats one port's codeword and collides two, one of them misaligned (R347). -/
theorem test_hub_codeword :
    (after (.hubCodeword 3 [.idle, .codeword [1, 2]]) { chip := served }).out.head? = some (.hubSend 3 (.codeword [1, 2])) ∧
    (after (.hubCodeword 3 [.codeword [1], .misaligned]) { chip := served }).out.contains (.hubSend 3 (.collide 3 2)) = true := by decide +kernel

/-- A COPY of what the cache holds: a dirty line is what DMA reads (R487). -/
theorem test_dma_copy_snoops :
    let c := windowed { chained .running .moving (some { descr 1 0 false with src := 0, dst := 0x40, len := 8 }) with
      mem := { array.mem with sets := [(0, [{ line := 0, way := 1, dirty := true, data := List.replicate 64 5 }])] } }
    (after (.dmaCopy 23) { chip := c }).load 0x40 8 = List.replicate 8 5 := by decide +kernel

/-- FREEZE refuses while frozen, THAW ends it (R578). -/
theorem test_freeze_thaw :
    let d := after .evrFreeze { chip := served }
    d.on R.EVR_STATUS_FROZEN = true ∧ (after .evrFreeze { chip := d }).on R.EVR_STATUS_REFUSED = true ∧
    (after .evrThaw { chip := d }).on R.EVR_STATUS_FROZEN = false := by decide +kernel

/-- A frame of Table 7-5 for 4096 bytes, one RLE_Block: a core's own; the same with a checksum flag, or a byte after it, is not (R226, RFC 8878). -/
theorem test_frame_made :
    let f : List Byte := [0x28, 0xB5, 0x2F, 0xFD, 0x60, 0x00, 0x0F, 0x03, 0x80, 0x00, 0x41]
    frameMade 4096 f = true ∧ frameMade 4096 (f ++ [0]) = false ∧ frameMade 4096 (f.set 4 0x64) = false := by decide +kernel

end Sys2Proof.Tests
end

/-! ### Results that wait (R15): what posting one and starting the next operation do to the register file -/

namespace Sys2Proof.Machine

/-- Writing a register field touches no result that waits. -/
@[simp] theorem Chip.set_later (c : Chip) (f : Fld) (v : Nat) : (c.set f v).regs.later = c.regs.later := by
  unfold Chip.set; split <;> rfl

@[simp] theorem Chip.setAll_later (c : Chip) (l : List (Fld × Nat)) : (c.setAll l).regs.later = c.regs.later := by
  induction l generalizing c with
  | nil => rfl
  | cons p l ih => exact (ih _).trans (Chip.set_later c p.1 p.2)

/-- A field that none of the writes names reads as before. -/
theorem Chip.get_setAll_ne (c : Chip) {l : List (Fld × Nat)} {f : Fld} (h : f.key ∉ l.map (·.1.key)) :
    (c.setAll l).get f = c.get f := by
  induction l generalizing c with
  | nil => rfl
  | cons p l ih =>
    obtain ⟨hp, hl⟩ : f.key ≠ p.1.key ∧ f.key ∉ l.map (·.1.key) := by simpa using h
    exact (ih (c.set p.1 p.2) hl).trans (Chip.get_set_ne c p.2 hp)

/-- Of writes to distinct fields each reads as its value, cut to the field's width. -/
theorem Chip.get_setAll_mem (c : Chip) {l : List (Fld × Nat)} (h : (l.map (·.1.key)).Nodup) :
    ∀ x ∈ l, (c.setAll l).get x.1 = trunc x.1.width x.2 := by
  induction l generalizing c with
  | nil => intro x hx; cases hx
  | cons p l ih =>
    obtain ⟨hp, hl⟩ : p.1.key ∉ l.map (·.1.key) ∧ (l.map (·.1.key)).Nodup := List.nodup_cons.1 h
    intro x hx
    rcases List.mem_cons.1 hx with rfl | hx
    · exact (Chip.get_setAll_ne (c.set x.1 x.2) hp).trans (Chip.get_set_same c x.1 x.2)
    · exact ih (c.set p.1 p.2) hl x hx

/-- A set VALID bit reads 1. -/
theorem Chip.on_set_one (c : Chip) {v : Fld} (h : 1 ≤ v.width) : (c.set v 1).on v = true := by
  have : 1 < 2 ^ v.width := Nat.one_lt_two_pow (by omega)
  simp [Chip.on, Chip.get_set_same, trunc, Nat.mod_eq_of_lt this]

/-- A cleared field reads 0. -/
theorem Chip.get_set_zero (c : Chip) (v : Fld) : (c.set v 0).get v = 0 := by
  rw [Chip.get_set_same]; exact Nat.zero_mod _

/-- Of a result shown, with fields distinct from each other and from VALID, each field reads as posted. -/
theorem Chip.get_shown_mem (c : Chip) {v : Fld} {l : List (Fld × Nat)} (h : ((l.map (·.1.key)) ++ [v.key]).Nodup) :
    ∀ x ∈ l, ((c.setAll l).set v 1).get x.1 = trunc x.1.width x.2 := by
  obtain ⟨hl, -, hv⟩ := List.nodup_append.1 h
  intro x hx
  have hne : x.1.key ≠ v.key := hv _ (List.mem_map_of_mem hx) _ (by simp)
  exact (Chip.get_set_ne _ 1 hne).trans (c.get_setAll_mem hl x hx)

/-- A result shown leaves every field but its own and VALID as it was. -/
theorem Chip.get_shown_ne (c : Chip) {v f : Fld} {l : List (Fld × Nat)} (hv : f.key ≠ v.key) (hl : f.key ∉ l.map (·.1.key)) :
    ((c.setAll l).set v 1).get f = c.get f :=
  (Chip.get_set_ne _ 1 hv).trans (c.get_setAll_ne hl)

/-- R15: a result posted while an earlier one is unreleased waits behind those that wait already. -/
theorem Chip.postResult_waits {c : Chip} {v : Fld} (h : c.on v = true) (fields : List (Fld × Nat)) :
    c.postResult v fields = { c with regs := { c.regs with later := c.regs.later ++ [(v, fields)] } } := by
  simp [Chip.postResult, h]

/-- Erasing the only entry of a VALID bit, listed last, gives back the list before it. -/
theorem erase_append_of_find_none {l : List (Fld × List (Fld × Nat))} {v : Fld} (h : l.find? (fun p => p.1 == v) = none)
    (x : List (Fld × Nat)) : (l ++ [(v, x)]).erase (v, x) = l := by
  have hx : (v, x) ∉ l := fun m => by simpa using List.find?_eq_none.1 h _ m
  simp [List.erase_append, hx]

/-- R15: starting an operation of a unit with one result waiting releases the one shown and shows the one that waited. -/
theorem Chip.startOp_shows {c : Chip} {v : Fld} {l : List (Fld × List (Fld × Nat))} {r : List (Fld × Nat)}
    (hk : v ≠ R.KCF_RESULT_VALID) (hp : v ≠ R.PWR_RESULT_VALID)
    (hn : l.find? (fun p => p.1 == v) = none) (hl : c.regs.later = l ++ [(v, r)]) :
    c.startOp v = ((({ c.set v 0 with regs := { (c.set v 0).regs with later := l } } : Chip).setAll r).set v 1) := by
  simp [Chip.startOp, hl, hn, List.find?_append, erase_append_of_find_none hn, Chip.showResult, hk, hp]

end Sys2Proof.Machine

namespace Sys2Proof
open Sys2Proof.Machine

/-- Settles O60: the first result is shown at once, the second waits while VALID is 1; the next start shows it, the start after that
releases it. -/
theorem resultsWaitToBeReleased : Obligations.ResultsWaitToBeReleased := by
  intro c v r1 r2 hk hp hw hoff hn h1 h2 a b d e
  have ha : a = (c.setAll r1).set v 1 := Chip.postResult_shown hoff hk hp r1
  have hon : a.on v = true := by rw [ha]; exact Chip.on_set_one _ hw
  have hla : a.regs.later = c.regs.later := by simp [ha]
  have hb : b = { a with regs := { a.regs with later := c.regs.later ++ [(v, r2)] } } := by
    rw [← hla]; exact Chip.postResult_waits hon r2
  have hgb : ∀ f, b.get f = a.get f := fun f => by rw [hb]; rfl
  have hlb : b.regs.later = c.regs.later ++ [(v, r2)] := by rw [hb]
  let u : Chip := { b.set v 0 with regs := { (b.set v 0).regs with later := c.regs.later } }
  have hd : d = (u.setAll r2).set v 1 := Chip.startOp_shows hk hp hn hlb
  have hnd : NoneWaits d v := by rw [hd]; simpa [NoneWaits, u] using hn
  have he : e = d.set v 0 := hnd.startOp
  refine ⟨hon, ?_, hgb, by rw [hb], ?_, ?_, ?_, hnd, ?_, ?_, ?_, ?_, ?_⟩
  · rw [ha]; exact c.get_shown_mem h1
  · simp [NoneWaits, hlb]
  · rw [hd]; exact Chip.on_set_one _ hw
  · rw [hd]; exact u.get_shown_mem h2
  · rw [he]; exact d.get_set_zero v
  · intro x hx
    have hne : x.1.key ≠ v.key := (List.nodup_append.1 h2).2.2 _ (List.mem_map_of_mem hx) _ (by simp)
    rw [he]; exact Chip.get_set_ne d 0 hne
  · rw [he]; simpa [NoneWaits] using hnd
  · intro f hv hf1 hf2
    calc e.get f = d.get f := by rw [he]; exact Chip.get_set_ne d 0 hv
      _ = u.get f := by rw [hd]; exact u.get_shown_ne hv hf2
      _ = b.get f := Chip.get_set_ne b 0 hv
      _ = a.get f := hgb f
      _ = c.get f := by rw [ha]; exact c.get_shown_ne hv hf1
  · apply Chip.eq_of_fields <;> simp [he, hd, u, hb, ha]

end Sys2Proof

/-! ### Memory as every agent sees it (R483, R484, R488): a byte stored is read back wherever its line stands -/

namespace Sys2Proof.Machine

/-- A property that the change keeps holds of every element still. -/
theorem forall_mem_modifyFirst {α : Type} {p : α → Bool} {f : α → α} {P : α → Prop} (hf : ∀ x, P x → P (f x)) {l : List α}
    (h : ∀ x ∈ l, P x) : ∀ x ∈ modifyFirst p f l, P x := by
  induction l with
  | nil => exact h
  | cons y l ih =>
    obtain ⟨hy, hl⟩ := List.forall_mem_cons.1 h
    unfold modifyFirst
    split
    · exact List.forall_mem_cons.2 ⟨hf y hy, hl⟩
    · exact List.forall_mem_cons.2 ⟨hy, ih hl⟩

/-- The element found is the one changed, where the change keeps what it is found by. -/
theorem find?_modifyFirst_same {α : Type} {p : α → Bool} {f : α → α} (hf : ∀ x, p x = true → p (f x) = true) (l : List α) :
    (modifyFirst p f l).find? p = (l.find? p).map f := by
  induction l with
  | nil => rfl
  | cons y l ih => by_cases hy : p y = true <;> simp [modifyFirst, hy, hf, ih]

/-- A change of an element that a search does not look for, before and after, leaves the search's answer. -/
theorem find?_modifyFirst_other {α : Type} {p q : α → Bool} {f : α → α} (hf : ∀ x, p x = true → q x = false ∧ q (f x) = false)
    (l : List α) : (modifyFirst p f l).find? q = l.find? q := by
  induction l with
  | nil => rfl
  | cons y l ih => by_cases hy : p y = true <;> simp [modifyFirst, hy, hf, ih, List.find?_cons]

/-- A line as it is after a byte of it is stored (R484). -/
def CLine.stored (i : Nat) (b : Byte) (l : CLine) : CLine := { l with dirty := true, data := l.data.set i b }

/-- An entry of the eviction buffer as it is after a byte of it is stored (R488). -/
def Evicted.stored (i : Nat) (b : Byte) (e : Evicted) : Evicted := { e with data := e.data.set i b }

/-- Every line that the system cache or its eviction buffer holds is 64 bytes long. -/
def Chip.WholeLines (c : Chip) : Prop :=
  (∀ n, ∀ l ∈ Sparse.get [] c.mem.sets n, l.data.length = 64) ∧ (∀ e ∈ c.mem.evict, e.data.length = 64)

theorem Chip.line_of_lineAt {c : Chip} {n : Nat} {l : CLine} (h : c.lineAt n = some l) : l.line = n := by
  simpa using List.find?_some h

theorem Chip.WholeLines.cached {c : Chip} (h : c.WholeLines) {n : Nat} {l : CLine} (hl : c.lineAt n = some l) : l.data.length = 64 :=
  h.1 _ l (List.mem_of_find?_eq_some hl)

theorem Chip.WholeLines.evicting {c : Chip} (h : c.WholeLines) {p : Evicted → Bool} {e : Evicted} (he : c.mem.evict.find? p = some e) :
    e.data.length = 64 := h.2 e (List.mem_of_find?_eq_some he)

/-! #### Where a byte is read -/

theorem Chip.byteAt_cached {c : Chip} {a : Nat} {l : CLine} (h : c.lineAt (a / 64) = some l) :
    c.byteAt a = l.data.getD (a % 64) 0#8 := by
  simp [Chip.byteAt, h]

theorem Chip.byteAt_evicting {c : Chip} {a : Nat} {e : Evicted} (h : c.lineAt (a / 64) = none)
    (he : c.mem.evict.find? (fun e => e.line == a / 64) = some e) : c.byteAt a = e.data.getD (a % 64) 0#8 := by
  simp [Chip.byteAt, h, he]

theorem Chip.byteAt_dram {c : Chip} {a : Nat} (h : c.lineAt (a / 64) = none)
    (he : c.mem.evict.find? (fun e => e.line == a / 64) = none) : c.byteAt a = Mem.byte c.dram a := by
  simp [Chip.byteAt, h, he]

/-- A byte reads the same in two chips that hold its line alike. -/
theorem Chip.byteAt_congr {c d : Chip} {x : Nat} (hl : d.lineAt (x / 64) = c.lineAt (x / 64))
    (he : d.mem.evict.find? (fun e => e.line == x / 64) = c.mem.evict.find? (fun e => e.line == x / 64))
    (hm : Mem.byte d.dram x = Mem.byte c.dram x) : d.byteAt x = c.byteAt x := by
  simp [Chip.byteAt, hl, he, hm]

/-! #### Where a byte is put -/

/-- The chip with the byte put into its line in the system cache. -/
def Chip.putCached (c : Chip) (a : Nat) (b : Byte) : Chip :=
  c.putSet (a / 64) (modifyFirst (fun x => x.line == a / 64) (CLine.stored (a % 64) b) (Sparse.get [] c.mem.sets (a / 64 % 98304)))

/-- The chip with the byte put into its line in the eviction buffer. -/
def Chip.putEvicting (c : Chip) (a : Nat) (b : Byte) : Chip :=
  { c with mem := { c.mem with evict := modifyFirst (fun e => e.line == a / 64) (Evicted.stored (a % 64) b) c.mem.evict } }

theorem Chip.putByte_cached {c : Chip} {a : Nat} {l : CLine} (h : c.lineAt (a / 64) = some l) (b : Byte) :
    c.putByte a b = c.putCached a b := by
  simp only [Chip.putByte, h, Chip.line_of_lineAt h]
  rfl

theorem Chip.putByte_evicting {c : Chip} {a : Nat} {e : Evicted} (h : c.lineAt (a / 64) = none)
    (he : c.mem.evict.find? (fun e => e.line == a / 64) = some e) (b : Byte) : c.putByte a b = c.putEvicting a b := by
  have : c.mem.evict.any (fun e => e.line == a / 64) = true := by rw [← List.isSome_find?, he]; rfl
  simp only [Chip.putByte, h, this, if_true]
  rfl

theorem Chip.putByte_dram {c : Chip} {a : Nat} (h : c.lineAt (a / 64) = none)
    (he : c.mem.evict.find? (fun e => e.line == a / 64) = none) (b : Byte) : c.putByte a b = { c with dram := Mem.putByte c.dram a b } := by
  have : c.mem.evict.any (fun e => e.line == a / 64) = false := by rw [← List.isSome_find?, he]; rfl
  simp [Chip.putByte, h, this]

/-- A byte lies in a line of the system cache, or else in one of the eviction buffer, or else in DRAM: the three ways of a store. -/
theorem Chip.putByte_cases (c : Chip) (a : Nat) (b : Byte) :
    (∃ l, c.lineAt (a / 64) = some l ∧ c.putByte a b = c.putCached a b) ∨
    (c.lineAt (a / 64) = none ∧ ∃ e, c.mem.evict.find? (fun e => e.line == a / 64) = some e ∧ c.putByte a b = c.putEvicting a b) ∨
    (c.lineAt (a / 64) = none ∧ c.mem.evict.find? (fun e => e.line == a / 64) = none ∧
      c.putByte a b = { c with dram := Mem.putByte c.dram a b }) := by
  cases hl : c.lineAt (a / 64) with
  | some l => exact .inl ⟨l, rfl, Chip.putByte_cached hl b⟩
  | none =>
    cases he : c.mem.evict.find? (fun e => e.line == a / 64) with
    | some e => exact .inr (.inl ⟨rfl, e, rfl, Chip.putByte_evicting hl he b⟩)
    | none => exact .inr (.inr ⟨rfl, rfl, Chip.putByte_dram hl he b⟩)

/-- After a change of one line of a set, that line is found changed. -/
theorem Chip.lineAt_putCached_same (c : Chip) (a : Nat) (b : Byte) :
    (c.putCached a b).lineAt (a / 64) = (c.lineAt (a / 64)).map (CLine.stored (a % 64) b) := by
  simp only [Chip.lineAt, Chip.putCached, Chip.putSet, Sparse.get_set_same]
  exact find?_modifyFirst_same (p := fun l => l.line == a / 64) (f := CLine.stored (a % 64) b) (fun _ h => h) _

/-- A change of one line of a set leaves every other line as it was, of that set and of others. -/
theorem Chip.lineAt_putCached_ne (c : Chip) {a n : Nat} (b : Byte) (h : n ≠ a / 64) : (c.putCached a b).lineAt n = c.lineAt n := by
  simp only [Chip.lineAt, Chip.putCached, Chip.putSet, Sparse.get_set]
  by_cases hs : n % 98304 = a / 64 % 98304
  · rw [if_pos hs, hs]
    exact find?_modifyFirst_other (fun x hx => by simp_all [CLine.stored, Ne.symm h]) _
  · rw [if_neg hs]

/-- After a change of one entry of the eviction buffer, that entry is found changed. -/
theorem Chip.evict_putEvicting_same (c : Chip) (a : Nat) (b : Byte) : (c.putEvicting a b).mem.evict.find? (fun e => e.line == a / 64) =
    (c.mem.evict.find? (fun e => e.line == a / 64)).map (Evicted.stored (a % 64) b) :=
  find?_modifyFirst_same (p := fun e => e.line == a / 64) (f := Evicted.stored (a % 64) b) (fun _ h => h) _

/-- A change of one entry of the eviction buffer leaves those of every other line as they were. -/
theorem Chip.evict_putEvicting_ne (c : Chip) {a n : Nat} (b : Byte) (h : n ≠ a / 64) :
    (c.putEvicting a b).mem.evict.find? (fun e => e.line == n) = c.mem.evict.find? (fun e => e.line == n) :=
  find?_modifyFirst_other (f := Evicted.stored (a % 64) b) (fun y hy => by simp_all [Evicted.stored, Ne.symm h]) _

/-- R483, R484, R488: a byte put is read back. -/
theorem Chip.byteAt_putByte_same {c : Chip} (h : c.WholeLines) (a : Nat) (b : Byte) : (c.putByte a b).byteAt a = b := by
  have hi : a % 64 < 64 := Nat.mod_lt _ (by decide)
  rcases c.putByte_cases a b with ⟨l, hl, hp⟩ | ⟨hl, e, he, hp⟩ | ⟨hl, he, hp⟩ <;> rw [hp]
  · have hl' := c.lineAt_putCached_same a b
    rw [hl] at hl'
    rw [Chip.byteAt_cached hl']
    simp [CLine.stored, h.cached hl, hi]
  · have he' := c.evict_putEvicting_same a b
    rw [he] at he'
    rw [Chip.byteAt_evicting (c := c.putEvicting a b) hl he']
    simp [Evicted.stored, h.evicting he, hi]
  · rw [Chip.byteAt_dram (c := { c with dram := Mem.putByte c.dram a b }) hl he]
    exact Mem.byte_putByte_same c.dram a b

/-- R483, R484, R488: a byte put leaves every other byte as it was. -/
theorem Chip.byteAt_putByte_ne (c : Chip) {a x : Nat} (b : Byte) (h : x ≠ a) : (c.putByte a b).byteAt x = c.byteAt x := by
  have hi : x / 64 = a / 64 → a % 64 ≠ x % 64 := by omega
  rcases c.putByte_cases a b with ⟨l, hl, hp⟩ | ⟨hl, e, he, hp⟩ | ⟨hl, he, hp⟩ <;> rw [hp]
  · by_cases hx : x / 64 = a / 64
    · have hl' := c.lineAt_putCached_same a b
      rw [hl, ← hx] at hl'
      rw [← hx] at hl
      rw [Chip.byteAt_cached hl', Chip.byteAt_cached hl]
      simp [CLine.stored, List.getD_eq_getElem?_getD, List.getElem?_set_ne (hi hx)]
    · exact Chip.byteAt_congr (c.lineAt_putCached_ne b hx) rfl rfl
  · by_cases hx : x / 64 = a / 64
    · have he' := c.evict_putEvicting_same a b
      rw [he, ← hx] at he'
      rw [← hx] at hl he
      rw [Chip.byteAt_evicting (c := c.putEvicting a b) hl he', Chip.byteAt_evicting hl he]
      simp [Evicted.stored, List.getD_eq_getElem?_getD, List.getElem?_set_ne (hi hx)]
    · exact Chip.byteAt_congr rfl (c.evict_putEvicting_ne b hx) rfl
  · exact Chip.byteAt_congr rfl rfl (Mem.byte_putByte_ne c.dram b h)

/-- A byte put keeps the length of every line. -/
theorem Chip.WholeLines.putByte {c : Chip} (h : c.WholeLines) (a : Nat) (b : Byte) : (c.putByte a b).WholeLines := by
  rcases c.putByte_cases a b with ⟨l, hl, hp⟩ | ⟨hl, e, he, hp⟩ | ⟨hl, he, hp⟩ <;> rw [hp]
  · refine ⟨fun n => ?_, h.2⟩
    simp only [Chip.putCached, Chip.putSet, Sparse.get_set]
    split
    · exact forall_mem_modifyFirst (fun x hx => by simpa [CLine.stored] using hx) (h.1 _)
    · exact h.1 n
  · exact ⟨h.1, forall_mem_modifyFirst (fun x hx => by simpa [Evicted.stored] using hx) h.2⟩
  · exact h

/-! #### Stores of several bytes -/

theorem Chip.WholeLines.putBytes {c : Chip} (h : c.WholeLines) (a : Nat) (bs : List Byte) : (c.putBytes a bs).WholeLines := by
  induction bs generalizing c a with
  | nil => exact h
  | cons b bs ih => exact ih (h.putByte a b) (a + 1)

theorem Chip.byteAt_putBytes_out (c : Chip) {a x : Nat} {bs : List Byte} (h : x < a ∨ a + bs.length ≤ x) :
    (c.putBytes a bs).byteAt x = c.byteAt x := by
  induction bs generalizing c a with
  | nil => rfl
  | cons b bs ih =>
    rw [List.length_cons] at h
    exact (ih (c.putByte a b) (a := a + 1) (by omega)).trans (c.byteAt_putByte_ne b (by omega))

theorem Chip.byteAt_putBytes_in {c : Chip} (h : c.WholeLines) (a : Nat) (bs : List Byte) (i : Nat) (hi : i < bs.length) :
    (c.putBytes a bs).byteAt (a + i) = bs[i] := by
  induction bs generalizing c a i with
  | nil => cases hi
  | cons b bs ih =>
    cases i with
    | zero => exact (Chip.byteAt_putBytes_out (c.putByte a b) (by omega)).trans (Chip.byteAt_putByte_same h a b)
    | succ i =>
      rw [show a + (i + 1) = a + 1 + i by omega]
      exact ih (h.putByte a b) (a + 1) i (Nat.lt_of_succ_lt_succ hi)

/-- A sparse table of lists with every element changed alike. -/
theorem Sparse.get_map_map {α : Type} (f : α → α) (l : List (Nat × List α)) (k : Nat) :
    Sparse.get [] (l.map (fun s => (s.1, s.2.map f))) k = (Sparse.get [] l k).map f := by
  induction l with
  | nil => rfl
  | cons e l ih => simp only [List.map_cons, Sparse.get, ih]; split <;> rfl

/-- A cache line as R491 leaves it after a write of `n` bytes at `a`. -/
def CLine.cleansed (a n : Nat) (l : CLine) : CLine := { l with poison := l.poison && !wholeLine a n l.line }

/-- An entry of the eviction buffer as R491 leaves it after a write of `n` bytes at `a`. -/
def Evicted.cleansed (a n : Nat) (e : Evicted) : Evicted := { e with poison := e.poison && !wholeLine a n e.line }

theorem Chip.cleanse_sets (c : Chip) (a n k : Nat) :
    Sparse.get [] (c.cleanse a n).mem.sets k = (Sparse.get [] c.mem.sets k).map (CLine.cleansed a n) :=
  Sparse.get_map_map (CLine.cleansed a n) c.mem.sets k

theorem Chip.cleanse_evict (c : Chip) (a n : Nat) : (c.cleanse a n).mem.evict = c.mem.evict.map (Evicted.cleansed a n) := rfl

theorem Chip.lineAt_cleanse (c : Chip) (a n k : Nat) : (c.cleanse a n).lineAt k = (c.lineAt k).map (CLine.cleansed a n) := by
  rw [Chip.lineAt, Chip.cleanse_sets, List.find?_map]; rfl

theorem Chip.evict_cleanse (c : Chip) (a n k : Nat) : (c.cleanse a n).mem.evict.find? (fun e => e.line == k) =
    (c.mem.evict.find? (fun e => e.line == k)).map (Evicted.cleansed a n) := by
  rw [Chip.cleanse_evict, List.find?_map]; rfl

/-- Clearing the poison of rewritten lines changes no byte. -/
theorem Chip.byteAt_cleanse (c : Chip) (a n x : Nat) : (c.cleanse a n).byteAt x = c.byteAt x := by
  simp only [Chip.byteAt, Chip.lineAt_cleanse, Chip.evict_cleanse, Chip.cleanse_dram]
  cases c.lineAt (x / 64) with
  | some l => rfl
  | none => cases c.mem.evict.find? (fun e => e.line == x / 64) <;> rfl

theorem Chip.WholeLines.cleanse {c : Chip} (h : c.WholeLines) (a n : Nat) : (c.cleanse a n).WholeLines := by
  refine ⟨fun k l hl => ?_, fun e he => ?_⟩
  · rw [Chip.cleanse_sets] at hl
    obtain ⟨y, hy, rfl⟩ := List.mem_map.1 hl
    exact h.1 k y hy
  · rw [Chip.cleanse_evict] at he
    obtain ⟨y, hy, rfl⟩ := List.mem_map.1 he
    exact h.2 y hy

/-- A store keeps the length of every line. -/
theorem Chip.WholeLines.store {c : Chip} (h : c.WholeLines) (a : Nat) (bs : List Byte) : (c.store a bs).WholeLines :=
  (h.putBytes a bs).cleanse a bs.length

/-- A store leaves every byte outside it as it was. -/
theorem Chip.byteAt_store_out (c : Chip) {a x : Nat} {bs : List Byte} (h : x < a ∨ a + bs.length ≤ x) :
    (c.store a bs).byteAt x = c.byteAt x :=
  (Chip.byteAt_cleanse _ a bs.length x).trans (c.byteAt_putBytes_out h)

/-- Reading what was just stored gives it back. -/
theorem Chip.load_store_same {c : Chip} (h : c.WholeLines) (a : Nat) (bs : List Byte) : (c.store a bs).load a bs.length = bs := by
  refine List.ext_getElem (by simp [Chip.load]) (fun i _ hi => ?_)
  simp only [Chip.load, List.getElem_map, List.getElem_range]
  exact (Chip.byteAt_cleanse _ a bs.length (a + i)).trans (Chip.byteAt_putBytes_in h a bs i hi)

end Sys2Proof.Machine

namespace Sys2Proof
open Sys2Proof.Machine

/-- Settles O55: each byte goes into its line, which is then found with it in the same place; clearing poison changes no byte. -/
theorem memoryReadsWhatWasStored : Obligations.MemoryReadsWhatWasStored := by
  intro c a bs hw hs he d
  have h : c.WholeLines := ⟨hs, he⟩
  exact ⟨Chip.load_store_same h a bs, fun x hx => c.byteAt_store_out hx, c.store_dram_wf a bs hw, (h.store a bs).1, (h.store a bs).2,
    c.store_frame a bs⟩

end Sys2Proof

/-! ### Accesses of register spaces (R3, R6, R7, R9, R10) -/

namespace Sys2Proof.Machine

/-- R6: an aligned access of 4 or 8 bytes outside configuration space is accepted. -/
theorem accepted_of_aligned {sp : Space} {ofs size : Nat} (hsp : ∀ fn, sp ≠ .cfg fn) (hs : size = 4 ∨ size = 8) (ha : ofs % size = 0) :
    accepted sp ofs size = true := by
  cases sp with
  | cfg fn => exact absurd rfl (hsp fn)
  | bar2 | cores | bar0 | bar4 => rcases hs with rfl | rfl <;> simp [accepted, ha]

section
variable {c : Chip} {sp : Space} {ofs : Nat} (ho : c.spaceOpen sp = true) (hofs : ofs < c.spaceSize sp)
include ho hofs

/-- A served read of 4 bytes. -/
theorem Chip.readSpace_four (ha : accepted sp ofs 4 = true) : c.readSpace sp ofs 4 = Chip.readEnds (c.read4 sp ofs) := by
  simp [Chip.readSpace, ho, hofs, ha]

/-- A served read of 8 bytes. -/
theorem Chip.readSpace_eight (ha : accepted sp ofs 8 = true) : c.readSpace sp ofs 8 = Chip.readEnds (c.read8 sp ofs) := by
  simp [Chip.readSpace, ho, hofs, ha]

/-- A served write of 4 bytes names all 32 bits. -/
theorem Chip.writeSpace_four (ha : accepted sp ofs 4 = true) (h4 : ofs % 4 = 0) (v : Nat) :
    c.writeSpace sp ofs 4 v = c.write4 sp ofs (v % 2 ^ 32) (2 ^ 32 - 1) := by
  simp [Chip.writeSpace, ho, hofs, ha, h4, trunc]

/-- A served write of 8 bytes. -/
theorem Chip.writeSpace_eight (ha : accepted sp ofs 8 = true) (v : Nat) : c.writeSpace sp ofs 8 v = c.write8 sp ofs v := by
  simp [Chip.writeSpace, ho, hofs, ha]

end

/-- The chip with the low half of a 64-bit register's write held, or none (R10). -/
def Chip.setHeld (c : Chip) (r : RegAt) (x : Option Nat) : Chip :=
  { c with regs := { c.regs with held := Sparse.set none c.regs.held r.base x } }

/-- The chip with the high half of a 64-bit register's read latched, or none (R9). -/
def Chip.setShadow (c : Chip) (r : RegAt) (x : Option Nat) : Chip :=
  { c with regs := { c.regs with shadow := Sparse.set none c.regs.shadow r.base x } }

section
variable {c : Chip} {sp : Space} {ofs : Nat} {r : RegAt} (hr : c.regFor sp ofs = some r)
include hr

/-- R9: the read of a 32-bit register. -/
theorem Chip.read4_word (hb : r.bytes = 4) : c.read4 sp ofs = (c, c.readReg r) := by
  simp [Chip.read4, hr, hb]

/-- R9: the read of a low half latches the high half. -/
theorem Chip.read4_low (hb : r.bytes = 8) (ha : spaceAddr sp ofs = r.base) :
    c.read4 sp ofs = (c.setShadow r (some (c.readReg r / 2 ^ 32)), c.readReg r % 2 ^ 32) := by
  simp [Chip.read4, hr, hb, ha, Chip.setShadow]

/-- R9: the read of a high half returns the latched half, or with none latched the live one, and drops the latch. -/
theorem Chip.read4_high (hb : r.bytes = 8) (ha : spaceAddr sp ofs ≠ r.base) :
    c.read4 sp ofs = (c.setShadow r none, (Sparse.get none c.regs.shadow r.base).getD (c.readReg r / 2 ^ 32)) := by
  simp [Chip.read4, hr, hb, ha, Chip.setShadow]

/-- R9: the read of a 64-bit register at once. -/
theorem Chip.read8_whole (hb : r.bytes = 8) (ha : spaceAddr sp ofs = r.base) : c.read8 sp ofs = (c, c.readReg r) := by
  simp [Chip.read8, hr, hb, ha]

/-- R457: a write of a firmware-owned channel is refused and recorded. -/
theorem Chip.write4_firmware {ch : Nat} (hf : firmwareChannel sp r = some ch) (v m : Nat) :
    c.write4 sp ofs v m = c.event 0x014 3 ofs 0 ch 0 := by
  simp [Chip.write4, hr, hf]

variable (hf : firmwareChannel sp r = none)
include hf

/-- R10: the write of a 32-bit register. -/
theorem Chip.write4_word (hb : r.bytes = 4) (v m : Nat) : c.write4 sp ofs v m = c.writeReg sp r v m := by
  simp [Chip.write4, hr, hf, hb]

/-- R10: the write of a low half is held. -/
theorem Chip.write4_low (hb : r.bytes = 8) (ha : spaceAddr sp ofs = r.base) (v m : Nat) :
    c.write4 sp ofs v m = c.setHeld r (some v) := by
  simp [Chip.write4, hr, hf, hb, ha, Chip.setHeld]

/-- R10: the write of a high half completes the half that is held. -/
theorem Chip.write4_high_held (hb : r.bytes = 8) (ha : spaceAddr sp ofs ≠ r.base)
    (hown : r.fields.all (fun f => f.own && f.acc == .rw) = false) {lo : Nat} (hl : Sparse.get none c.regs.held r.base = some lo) (v m : Nat) :
    c.write4 sp ofs v m = (c.setHeld r none).writeReg sp r (lo + 2 ^ 32 * v) (2 ^ 64 - 1) := by
  simp only [Chip.write4, hr, hf, hb, ha, hown, hl, Chip.setHeld]; rfl

/-- R10: the write of a high half with none held leaves the register's low half. -/
theorem Chip.write4_high_alone (hb : r.bytes = 8) (ha : spaceAddr sp ofs ≠ r.base)
    (hown : r.fields.all (fun f => f.own && f.acc == .rw) = false) (hl : Sparse.get none c.regs.held r.base = none) (v m : Nat) :
    c.write4 sp ofs v m = c.writeReg sp r (2 ^ 32 * v) (2 ^ 32 * m) := by
  simp only [Chip.write4, hr, hf, hb, ha, hown, hl]; rfl

/-- R10: the write of a 64-bit register at once drops a held half. -/
theorem Chip.write8_whole (hb : r.bytes = 8) (ha : spaceAddr sp ofs = r.base)
    (hown : r.fields.all (fun f => f.own && f.acc == .rw) = false) (v : Nat) :
    c.write8 sp ofs v = (c.setHeld r none).writeReg sp r v (2 ^ 64 - 1) := by
  simp only [Chip.write8, hr, hf, hb, ha, hown, Chip.setHeld]; simp

end

end Sys2Proof.Machine

namespace Sys2Proof
open Sys2Proof.Machine

section
variable {s : State} {sp : Space} {ofs : Nat} (h : s.chip.awake = true) (hw : sp.wf = true) (ho : s.chip.spaceOpen sp = true)
  (hofs : ofs < s.chip.spaceSize sp)
include h hw ho hofs

/-- A served LOW_HALF_READ of 4 bytes. -/
theorem Yields.read4 {p : Chip × Nat} (ha : accepted sp ofs 4 = true) (hp : s.chip.read4 sp ofs = p) :
    Yields (.lowHalfRead sp ofs 4) s (Chip.readEnds p) :=
  Yields.awake h rfl hw (hp ▸ Chip.readSpace_four ho hofs ha)

/-- A served LOW_HALF_READ of 8 bytes. -/
theorem Yields.read8 {p : Chip × Nat} (ha : accepted sp ofs 8 = true) (hp : s.chip.read8 sp ofs = p) :
    Yields (.lowHalfRead sp ofs 8) s (Chip.readEnds p) :=
  Yields.awake h rfl hw (hp ▸ Chip.readSpace_eight ho hofs ha)

/-- A served REGISTER_WRITE of 8 bytes. -/
theorem Yields.write8 {v : Word64} {d : Chip} (ha : accepted sp ofs 8 = true) (hd : s.chip.write8 sp ofs v.toNat = d) :
    Yields (.registerWrite sp ofs 8 v) s d :=
  Yields.awake h rfl hw ((Chip.writeSpace_eight ho hofs ha v.toNat).trans hd)

variable (ha : accepted sp ofs 4 = true) (h4 : ofs % 4 = 0)
include ha h4

/-- A served REGISTER_WRITE of 4 bytes. -/
theorem Yields.write4 {v : Word64} {d : Chip} (hd : s.chip.write4 sp ofs (v.toNat % 2 ^ 32) (2 ^ 32 - 1) = d) :
    Yields (.registerWrite sp ofs 4 v) s d :=
  Yields.awake h rfl hw ((Chip.writeSpace_four ho hofs ha h4 v.toNat).trans hd)

/-- A served LOW_HALF_WRITE. -/
theorem Yields.writeHalf {v : Word32} {d : Chip} (hd : s.chip.write4 sp ofs v.toNat (2 ^ 32 - 1) = d) :
    Yields (.lowHalfWrite sp ofs v) s d := by
  have hv : v.toNat % 2 ^ 32 = v.toNat := Nat.mod_eq_of_lt v.isLt
  exact Yields.awake h rfl hw ((Chip.writeSpace_four ho hofs ha h4 v.toNat).trans (by rw [hv]; exact hd))

end

/-- Settles O11: each served access falls on one case of the 4-byte or the 8-byte read or write. -/
theorem registerAccessesActAsTheAccessRulesSay : Obligations.RegisterAccessesActAsTheAccessRulesSay := by
  intro s sp ofs r h hw ho hofs hr hsp h4 c held latch given
  have a4 : accepted sp ofs 4 = true := accepted_of_aligned hsp (.inl rfl) h4
  have a8 (h8 : ofs % 8 = 0) : accepted sp ofs 8 = true := accepted_of_aligned hsp (.inr rfl) h8
  refine ⟨fun hb => ?_, fun hb ha h8 => ⟨?_, ?_⟩, fun hb ha => ?_, fun hf => ⟨fun hb v => ?_, fun hb hown => ⟨fun ha h8 => ⟨fun v => ?_, fun v => ?_⟩,
    fun ha => ⟨fun v lo hl => ?_, fun v hl => ?_⟩⟩⟩, fun ch hf v => ?_⟩
  · exact Yields.read4 h hw ho hofs a4 (Chip.read4_word hr hb)
  · exact Yields.read8 h hw ho hofs (a8 h8) (Chip.read8_whole hr hb ha)
  · exact Yields.read4 h hw ho hofs a4 (Chip.read4_low hr hb ha)
  · exact Yields.read4 h hw ho hofs a4 (Chip.read4_high hr hb ha)
  · exact Yields.write4 h hw ho hofs a4 h4 (Chip.write4_word hr hf hb _ _)
  · exact Yields.write8 h hw ho hofs (a8 h8) (Chip.write8_whole hr hf hb ha hown _)
  · exact Yields.writeHalf h hw ho hofs a4 h4 (Chip.write4_low hr hf hb ha _ _)
  · exact Yields.writeHalf h hw ho hofs a4 h4 (Chip.write4_high_held hr hf hb ha hown hl _ _)
  · exact Yields.writeHalf h hw ho hofs a4 h4 (Chip.write4_high_alone hr hf hb ha hown hl _ _)
  · exact Yields.writeHalf h hw ho hofs a4 h4 (Chip.write4_firmware hr hf _ _)

end Sys2Proof

/-! ### BAR2 where no register stands (R7, R573) -/

namespace Sys2Proof.Machine

/-- R7: a 4-byte read where no register stands reads 0 and is recorded. -/
theorem Chip.read4_gap {c : Chip} {ofs : Nat} (h : c.regFor .bar2 ofs = none) : c.read4 .bar2 ofs = (c.unmapped ofs, 0) := by
  simp [Chip.read4, h, Chip.readGap, recordsUnmapped, Chip.accessEvent, Chip.unmapped]

/-- R7: a 4-byte write where no register stands is discarded and recorded. -/
theorem Chip.write4_gap {c : Chip} {ofs : Nat} (h : c.regFor .bar2 ofs = none) (v m : Nat) : c.write4 .bar2 ofs v m = c.unmapped ofs := by
  simp [Chip.write4, h, Chip.writeGap, recordsUnmapped, Chip.accessEvent, Chip.unmapped]

/-- No register stands at an offset that none occupies, whatever windows are open. -/
theorem Chip.regFor_bar2_none (c : Chip) {ofs : Nat} (h : findReg ofs = none) : c.regFor .bar2 ofs = none := by
  simp [Chip.regFor, h]

section
variable {ofs : Nat} (hlo : findReg ofs = none) (hhi : findReg (ofs + 4) = none)
include hlo hhi

/-- R6, R7: an 8-byte read where no register stands in either half is recorded once for each. -/
theorem Chip.read8_gap (c : Chip) : c.read8 .bar2 ofs = ((c.unmapped ofs).unmapped (ofs + 4), 0) := by
  simp [Chip.read8, c.regFor_bar2_none hlo, Chip.read4_gap (c.regFor_bar2_none hlo), Chip.read4_gap (Chip.regFor_bar2_none _ hhi)]

/-- R6, R7: an 8-byte write where no register stands in either half is recorded once for each. -/
theorem Chip.write8_gap (c : Chip) (v : Nat) : c.write8 .bar2 ofs v = (c.unmapped ofs).unmapped (ofs + 4) := by
  simp [Chip.write8, c.regFor_bar2_none hlo, Chip.write4_gap (c.regFor_bar2_none hlo), Chip.write4_gap (Chip.regFor_bar2_none _ hhi)]

end

/-- One byte past the last register that a row of the map describes. -/
def RegDesc.bound (d : RegDesc) : Nat := d.base + (d.n - 1) * d.stride + (d.m - 1) * d.stride2 + d.bytes

/-- A row's registers lie between its base and its end. -/
theorem RegDesc.at_none {d : RegDesc} {a : Nat} (h : a < d.base ∨ d.bound ≤ a) : d.at a = none := by
  have hle (i n k : Nat) (hi : i < n) : i * k ≤ (n - 1) * k := Nat.mul_le_mul_right k (by omega)
  unfold RegDesc.at
  simp only [Bool.and_eq_true, decide_eq_true_eq, ite_eq_right_iff, reduceCtorEq, imp_false]
  generalize (if d.stride = 0 then 0 else (a - d.base) / d.stride) = i
  generalize (if d.stride2 = 0 then 0 else (a - d.base - i * d.stride) / d.stride2) = j
  rintro ⟨⟨⟨hb, hi⟩, hj⟩, ha⟩
  have h1 := hle i d.n d.stride hi
  have h2 := hle j d.m d.stride2 hj
  unfold RegDesc.bound at h
  omega

/-- Every register of the map lies in the block windows, below 0x01100000, or past BAR2 (Table 1-5, log entry 6). -/
theorem regMap_bounds : ∀ d ∈ regMap, d.bound ≤ 0x01100000 ∨ 0x10000000 ≤ d.base := by
  unfold RegDesc.bound
  decide +kernel

/-- R7: no register stands from the end of the block windows to the end of BAR2. -/
theorem findReg_past_windows {a : Nat} (hlo : 0x01100000 ≤ a) (hhi : a < 0x10000000) : findReg a = none := by
  refine List.findSome?_eq_none_iff.2 (fun d hd => RegDesc.at_none ?_)
  have := regMap_bounds d hd
  omega

/-- R573: the INDEX past the block windows is 16. -/
theorem blockIndex_past_windows {a : Nat} (h : 0x01100000 ≤ a) : blockIndex a = 16 := by
  have hw : 17 ≤ a / 0x100000 := (Nat.le_div_iff_mul_le (by decide)).2 h
  simp [blockIndex, show ¬ a / 0x100000 < 5 by omega, show ¬ a / 0x100000 = 5 by omega, show ¬ a / 0x100000 ≤ 16 by omega]

/-- The free value that a read takes is counted from the chip before its event. -/
theorem Chip.readEnds_unmapped (c : Chip) (a v : Nat) : Chip.readEnds (c.unmapped a, v) =
    { c.unmapped a with freeCount := c.freeCount + 1, regs := { (c.unmapped a).regs with readData := v } } := by
  simp [Chip.readEnds, Chip.useFree, Chip.unmapped]

end Sys2Proof.Machine

namespace Sys2Proof
open Sys2Proof.Machine

/-- Settles O56: an access that finds no register is an unmapped one in each of its halves; past the block windows the map has no row. -/
theorem unoccupiedAddressesReadZero : Obligations.UnoccupiedAddressesReadZero := by
  refine ⟨?_, fun a hlo hhi => ⟨findReg_past_windows hlo hhi, blockIndex_past_windows hlo⟩⟩
  intro s ofs ⟨h, hb, _⟩ hofs h4 hr c hit given
  have ho : s.chip.spaceOpen .bar2 = true := hb
  have hreg : s.chip.regFor .bar2 ofs = none := s.chip.regFor_bar2_none hr
  have acc (size : Nat) (hs : size = 4 ∨ size = 8) (ha : ofs % size = 0) : accepted .bar2 ofs size = true :=
    accepted_of_aligned (by simp) hs ha
  have a4 := acc 4 (.inl rfl) h4
  refine ⟨?_, fun v => ?_, fun v => ?_, fun h8 hr2 => ⟨?_, fun v => ?_⟩⟩
  · have := Yields.read4 h rfl ho hofs a4 (Chip.read4_gap hreg)
    rwa [Chip.readEnds_unmapped] at this
  · exact Yields.write4 h rfl ho hofs a4 h4 (Chip.write4_gap hreg _ _)
  · exact Yields.writeHalf h rfl ho hofs a4 h4 (Chip.write4_gap hreg _ _)
  · have := Yields.read8 h rfl ho hofs (acc 8 (.inr rfl) h8) (Chip.read8_gap hr hr2 s.chip)
    have hc : (s.chip.unmapped ofs).freeCount = s.chip.freeCount := Chip.event_freeCount _ _ _ _ _ _ _
    rwa [Chip.readEnds_unmapped, hc] at this
  · exact Yields.write8 h rfl ho hofs (acc 8 (.inr rfl) h8) (Chip.write8_gap hr hr2 s.chip _)

end Sys2Proof

/-! ### Reshape (R339 to R345) -/

namespace Sys2Proof.Machine

/-- R339: a START during a reshape is refused. -/
theorem reshapeStart_refused {c : Chip} (h : c.rde.reshape ≠ none) : reshapeStart c = c.refuseReshape := by
  simp [reshapeStart, Option.isSome_iff_ne_none.2 h]

section
variable {c : Chip} (h : c.rde.reshape = none)
include h

/-- Table 10-11: a START whose arguments describe no reshape ends with their code. -/
theorem reshapeStart_bad {code : Nat} (hb : c.reshapeBad (reshapeOf c.reshapeArg 0) = some code) : reshapeStart c = c.endStart code := by
  simp [reshapeStart, h, hb]

/-- R340: a START in shadow mode without room beside the old layout ends with code 4. -/
theorem reshapeStart_noRoom (hb : c.reshapeBad (reshapeOf c.reshapeArg 0) = none) (hm : (reshapeOf c.reshapeArg 0).mode = 1)
    (hr : c.roomBeside (reshapeOf c.reshapeArg 0) = false) : reshapeStart c = c.endStart 4 := by
  simp [reshapeStart, h, hb, hm, hr]

section
variable (hb : c.reshapeBad (reshapeOf c.reshapeArg 0) = none)
  (hr : (reshapeOf c.reshapeArg 0).mode ≠ 1 ∨ c.roomBeside (reshapeOf c.reshapeArg 0) = true)
include hb hr

/-- R339: a START of a head alone begins the reshape. -/
theorem reshapeStart_alone (hp : c.peerIn = false) :
    reshapeStart c = c.beginOwnReshape (c.reshapeMode (reshapeOf c.reshapeArg 0)) := by
  rcases hr with hm | hm <;> simp [reshapeStart, h, hb, hm, hp]

/-- R339: a START beside a peer in service is agreed with it first. -/
theorem reshapeStart_agreed (hp : c.peerIn = true) :
    let p := c.propose (.reshape c.reshapeArg)
    reshapeStart c = { p.1 with rde := { p.1.rde with
      reshape := some { c.reshapeMode (reshapeOf c.reshapeArg 0) with opid := p.2 } } } := by
  rcases hr with hm | hm <;> simp [reshapeStart, h, hb, hm, hp]

end

/-- R344: an ABORT without a reshape has no effect. -/
theorem reshapeAbort_none : reshapeAbort c = c := by simp [reshapeAbort, h]

theorem reshapeBatchCopied_none : reshapeBatchCopied c = c := by simp [reshapeBatchCopied, h]

theorem reshapeCopyDone_none : reshapeCopyDone c = c := by simp [reshapeCopyDone, h]

end

section
variable {c : Chip} {r : Reshape} (h : c.rde.reshape = some r)
include h

/-- R344: an ABORT of a reshape that has not begun has no effect. -/
theorem reshapeAbort_waiting (hr : r.running = false) : reshapeAbort c = c := by simp [reshapeAbort, h, hr]

variable (hr : r.running = true)
include hr

/-- R344: an ABORT in shadow mode drops the copies and frees the stripes written beside the old layout. -/
theorem reshapeAbort_shadow (hm : r.mode = 1) : reshapeAbort c = ((c.dropCopies 2).freeShadow).endReshape 6 := by
  simp [reshapeAbort, h, hr, hm]

/-- R344: an ABORT with a moving boundary drops the copies of the batch. -/
theorem reshapeAbort_moving (hm : r.mode ≠ 1) :
    let ss := modifyAll (fun (x : StripeEnt) => c.tends x.seid && r.top.any (fun t => x.seid ≤ t) && x.compacting)
      (fun x => { x with compacting := x.recs.all (fun y => y.live == 0) }) c.ftm.stripes
    reshapeAbort c = (({ c with ftm := { c.ftm with stripes := ss } } : Chip).dropCopies 1).endReshape 6 := by
  simp [reshapeAbort, h, hr, hm]

variable (ha : c.reshapeAwake r = true) (hd : c.isDay = true)
include ha hd

/-- R342: without a stripe of an awake cohort left to move, no batch is copied. -/
theorem reshapeBatchCopied_empty (hm : r.mode = 2) (ht : r.top = none)
    (hl : (((c.reshapeTodo r).filter (fun x => c.cohortAwake x.cohort)).take r.batch).getLast? = none) : reshapeBatchCopied c = c := by
  simp [reshapeBatchCopied, h, hr, ha, hd, hm, ht, hl]

/-- R342: a batch is copied and the boundary moves to its last stripe. -/
theorem reshapeBatchCopied_moves (hm : r.mode = 2) (ht : r.top = none) {last : StripeEnt} {batch : List StripeEnt}
    (hbt : ((c.reshapeTodo r).filter (fun x => c.cohortAwake x.cohort)).take r.batch = batch) (hl : batch.getLast? = some last) :
    reshapeBatchCopied c = (batch.foldl (fun d x => d.reshapeStripe r x 1) (c.set R.RDE_RESHAPE_STATUS_STATE 2)).modReshape
      (fun r => { r with top := some last.seid, count := batch.length
                         lostLeft := r.lostLeft || batch.any (fun x => x.recs.any (fun y => y.lost && y.live != 0)) }) := by
  simp only [reshapeBatchCopied, h, hr, ha, hd, hm, ht, hbt, hl]
  rfl

/-- The chip with the stripes of awake cohorts copied beside the old layout (R341). -/
def Chip.copiedBeside (c : Chip) (r : Reshape) : Chip :=
  let todo := (c.reshapeTodo r).filter (fun x => c.cohortAwake x.cohort)
  let d := todo.foldl (fun d x => d.reshapeStripe r x 2) c
  let d := (d.ing.stripes.filter (·.shadow)).foldl (fun d os => d.sealStripe os os.strips) d
  d.modReshape (fun r => { r with
    lostLeft := r.lostLeft || todo.any (fun x => x.recs.any (fun y => y.lost && y.live != 0)), count := r.count + todo.length })

/-- R341, R343: the stripes of awake cohorts are copied; where some of sleeping cohorts are left, those cohorts are asked for, and
otherwise the switch epoch is fixed. -/
theorem reshapeCopyDone_copies (hm : r.mode = 1) (hs : r.switchAt = none) :
    reshapeCopyDone c =
      if (c.reshapeTodo r).any (fun x => !c.cohortAwake x.cohort) then (c.copiedBeside r).askReshape r
      else ((c.copiedBeside r).modReshape (fun x => { x with
        shadow := (c.copiedBeside r).shadowLog, switchAt := some ((c.copiedBeside r).epoch + 2) })).set R.RDE_RESHAPE_STATUS_STATE 3 := by
  simp only [reshapeCopyDone, h, hr, ha, hd, hm, hs]
  rfl

end

/-- Two of RDE's counters that lie at one place are one counter. -/
theorem rdeCounters_distinct : ∀ f ∈ rdeCounters, ∀ g ∈ rdeCounters, f.key = g.key → f = g := by decide

end Sys2Proof.Machine

namespace Sys2Proof
open Sys2Proof.Machine

/-- Settles O32: each command by the case of START, ABORT, batch or copy that its hypotheses name. -/
theorem reshapeCommandsAct : Obligations.ReshapeCommandsAct := by
  intro s c valid done
  refine ⟨fun hs => ⟨fun h => ?_, fun h => ⟨fun code hb => ?_, fun hb hm hr => ?_, fun hb hr => ⟨fun hp => ?_, fun hp => ?_⟩⟩,
    fun h => ?_, fun r h hr => ?_, fun r h hr => ⟨fun hm => ?_, fun hm => ?_⟩, ?_⟩,
    fun ha => ⟨fun h => ⟨?_, ?_⟩, fun r h hr hw hd => ⟨fun hm ht hl => ?_, fun last hm ht hl => ?_, fun hm hx => ⟨fun hz => ?_, fun hz => ?_⟩⟩⟩⟩
  · exact Yields.served hs rfl rfl (reshapeStart_refused h)
  · exact Yields.served hs rfl rfl (reshapeStart_bad h hb)
  · exact Yields.served hs rfl rfl (reshapeStart_noRoom h hb hm hr)
  · exact Yields.served hs rfl rfl (reshapeStart_alone h hb hr hp)
  · exact Yields.served hs rfl rfl (reshapeStart_agreed h hb hr hp)
  · exact Yields.served hs rfl rfl (reshapeAbort_none h)
  · exact Yields.served hs rfl rfl (reshapeAbort_waiting h hr)
  · exact Yields.served hs rfl rfl (reshapeAbort_shadow h hr hm)
  · exact Yields.served hs rfl rfl (reshapeAbort_moving h hr hm)
  · refine completes_of_next (f := rdeCntClr) (State.runBar2_served rfl hs) ⟨?_, ?_, ?_⟩
    · exact Chip.clearAll_get rdeCounters s.chip rdeCounters_distinct
    · exact Chip.clearAll_regsSame rdeCounters (RegsSame.of_regs rfl _) (fun _ hf => hf)
    · apply Chip.eq_of_fields <;> simp [rdeCntClr, c]
  · exact Yields.awake ha rfl rfl (reshapeBatchCopied_none h)
  · exact Yields.awake ha rfl rfl (reshapeCopyDone_none h)
  · exact Yields.awake ha rfl rfl (reshapeBatchCopied_empty h hr hw hd hm ht hl)
  · exact Yields.awake ha rfl rfl (reshapeBatchCopied_moves h hr hw hd hm ht rfl hl)
  · exact Yields.awake ha rfl rfl ((reshapeCopyDone_copies h hr hw hd hm hx).trans (if_pos hz))
  · exact Yields.awake ha rfl rfl ((reshapeCopyDone_copies h hr hw hd hm hx).trans (if_neg (by rw [hz]; decide)))

end Sys2Proof

/-! ### Time (R27, R28, R604): what moves GLB_TIME and what leaves it -/

namespace Sys2Proof.Machine

theorem Chip.now_of_regs {c d : Chip} (h : d.regs = c.regs) : d.now = c.now := Chip.get_of_regs h _

theorem Chip.now_set_ne (c : Chip) {f : Fld} (v : Nat) (h : R.GLB_TIME_TIME.key ≠ f.key) : (c.set f v).now = c.now :=
  Chip.get_set_ne c v h

/-- GLB_TIME wraps at its 64 bits. -/
theorem Chip.now_bump (c : Chip) (n : Nat) : (c.bump R.GLB_TIME_TIME n).now = trunc 64 (c.now + n) :=
  Chip.get_set_same c R.GLB_TIME_TIME _

/-- R604: PWR_REQ may rise when its fall, if one is remembered, lies 2 ms back. -/
theorem Chip.reqDue_iff (c : Chip) : c.reqDue = true ↔ ∀ t, c.pwr.reqFell = some t → t + 2000000 ≤ c.now := by
  simp only [Chip.reqDue, Option.all_eq_true, decide_eq_true_eq]

/-- Without a clock no time passes, and nothing asks for the rails. -/
theorem Chip.tick_asleep {c : Chip} (h : c.awake = false) : c.tick = c := by
  have hm : c.pwr.mode ≠ .dawn := fun hd => by simp [Chip.awake, hd] at h
  simp [Chip.tick, h, hm]

/-- Where the head is clocked a nanosecond passes; a Dawn that may ask for the rails asks (R604). -/
theorem Chip.tick_awake {c : Chip} (h : c.awake = true) :
    c.tick = if c.pwr.mode = .dawn ∧ c.pwr.pwrReq = false ∧ (c.bump R.GLB_TIME_TIME 1).reqDue = true
      then (c.bump R.GLB_TIME_TIME 1).raiseReq else c.bump R.GLB_TIME_TIME 1 := by
  simp [Chip.tick, h, and_assoc]

theorem Chip.raiseReq_regs (c : Chip) : c.raiseReq.regs = c.regs := by
  unfold Chip.raiseReq
  dsimp only
  split <;> rfl

/-- The Dawn takes GLB_TIME over as it is (R28). -/
theorem Chip.beginDawn_now (c : Chip) (cold : Bool) : (c.beginDawn cold).now = c.now := by
  refine (Chip.now_set_ne _ _ (by decide)).trans ((Chip.now_set_ne _ _ (by decide)).trans (Chip.now_of_regs ?_))
  split
  · split <;> rfl
  · split
    · exact Chip.raiseReq_regs _
    · rfl

theorem Chip.wakeDawn_now (c : Chip) : c.wakeDawn.now = c.now := c.beginDawn_now false

theorem Chip.driveWake_regs (c : Chip) (bit : Nat) : (c.driveWake bit).regs = c.regs := by
  unfold Chip.driveWake; split <;> rfl

theorem Chip.wakeCause_now (c : Chip) (bit str : Nat) : (c.wakeCause bit str).now = c.now := by
  have hcause : (if c.pwr.wakeHeld then c.raise R.PWR_WAKE_CAUSE_CAUSE bit else (c.set R.PWR_WAKE_CAUSE_CAUSE (2 ^ bit)).setAll
      [(R.PWR_WAKE_CAUSE_TRIP, 0), (R.PWR_WAKE_CAUSE_COLD, 0)]).now = c.now := by
    split
    · exact Chip.now_set_ne c _ (by decide)
    · exact (Chip.get_setAll_ne _ (by decide)).trans (Chip.now_set_ne c _ (by decide))
  unfold Chip.wakeCause
  dsimp only
  split
  · exact (Chip.now_set_ne _ _ (by decide)).trans hcause
  · exact hcause

/-- R28, R498: no source that acts in Night changes GLB_TIME. -/
theorem Chip.wake_night_now {c : Chip} (h : c.pwr.mode = .night) (bit str : Nat) : (c.wake bit str).now = c.now := by
  unfold Chip.wake
  split
  · rfl
  · simp only [h]
    split
    · exact c.wakeCause_now bit str
    · exact (Chip.wakeDawn_now _).trans ((Chip.now_of_regs (Chip.driveWake_regs _ _)).trans (c.wakeCause_now bit str))

/-! #### The Nightwatch tick (R28) -/

theorem Chip.tickExtra_le_one (c : Chip) : c.tickExtra ≤ 1 := by
  unfold Chip.tickExtra
  dsimp only
  split
  · omega
  · split <;> omega

/-- Whatever the free values are, a group with no more than 37 longer ticks and room for the 37th keeps both. -/
theorem Chip.tickExtra_keeps_room {c : Chip} (hn : c.pwr.nightTicks < 64) (hmost : c.pwr.nightExtra ≤ 37)
    (hroom : 37 + c.pwr.nightTicks ≤ c.pwr.nightExtra + 64) :
    c.pwr.nightExtra + c.tickExtra ≤ 37 ∧ 37 + (c.pwr.nightTicks + 1) ≤ c.pwr.nightExtra + c.tickExtra + 64 := by
  unfold Chip.tickExtra
  dsimp only
  split
  · omega
  · split <;> omega

/-- The last tick of a group makes its longer ticks 37. -/
theorem Chip.tickExtra_last {c : Chip} (hn : c.pwr.nightTicks + 1 = 64) (hmost : c.pwr.nightExtra ≤ 37) (hroom : 36 ≤ c.pwr.nightExtra) :
    c.pwr.nightExtra + c.tickExtra = 37 := by
  have := Chip.tickExtra_keeps_room (c := c) (by omega) hmost (by omega)
  omega

/-- The chip with a tick counted in its group of 64, and the free value of the tick used up. -/
def Chip.tickCounted (c : Chip) : Chip :=
  { c.useFree with pwr := { c.pwr with
      nightTicks := (c.pwr.nightTicks + 1) % 64
      nightExtra := if c.pwr.nightTicks + 1 = 64 then 0 else c.pwr.nightExtra + c.tickExtra } }

/-- The milliseconds of Night that a tick completes. -/
def Chip.tickMs (c : Chip) : Nat :=
  if c.pwr.mode = .night then (c.now + 30517 + c.tickExtra - c.pwr.nightAt) / 1000000 - (c.now - c.pwr.nightAt) / 1000000 else 0

theorem nightwatchTick_counts {c : Chip} (h : c.pwr.mode = .night ∨ c.pwr.mode = .held) :
    nightwatchTick c =
      (c.tickCounted.bump R.GLB_TIME_TIME (30517 + c.tickExtra)).bump R.PWR_CNT_NIGHT_MS_NIGHT_MS c.tickMs := by
  have : ¬ (c.pwr.mode ≠ .night ∧ c.pwr.mode ≠ .held) := by tauto
  simp only [nightwatchTick, Bool.and_eq_true, decide_eq_true_eq, if_neg this]
  rfl

theorem nightwatchTick_idle {c : Chip} (hn : c.pwr.mode ≠ .night) (hh : c.pwr.mode ≠ .held) : nightwatchTick c = c := by
  simp [nightwatchTick, hn, hh]

section
variable {c : Chip} (h : c.pwr.mode = .night ∨ c.pwr.mode = .held)
include h

theorem nightwatchTick_now : (nightwatchTick c).now = trunc 64 (c.now + 30517 + c.tickExtra) := by
  rw [nightwatchTick_counts h, Nat.add_assoc]
  exact (Chip.now_set_ne _ _ (by decide)).trans (Chip.now_bump _ _)

theorem nightwatchTick_pwr : (nightwatchTick c).pwr = c.tickCounted.pwr := by
  simp [nightwatchTick_counts h]

theorem nightwatchTick_regsSame : RegsSame c (nightwatchTick c) [R.GLB_TIME_TIME, R.PWR_CNT_NIGHT_MS_NIGHT_MS] := by
  rw [nightwatchTick_counts h]
  exact ((RegsSame.of_regs rfl _).then_set _ (by simp)).then_set _ (by simp)

theorem nightwatchTick_frame : nightwatchTick c = { c.tickCounted with regs := (nightwatchTick c).regs } := by
  apply Chip.eq_of_fields <;> simp [nightwatchTick_counts h]

end

/-- Outside Night a tick counts no millisecond of it. -/
theorem nightwatchTick_held_ms {c : Chip} (h : c.pwr.mode = .held) :
    (nightwatchTick c).get R.PWR_CNT_NIGHT_MS_NIGHT_MS = trunc 64 (c.get R.PWR_CNT_NIGHT_MS_NIGHT_MS) := by
  have hms : c.tickMs = 0 := by simp [Chip.tickMs, h]
  have hget : (c.tickCounted.bump R.GLB_TIME_TIME (30517 + c.tickExtra)).get R.PWR_CNT_NIGHT_MS_NIGHT_MS =
    c.get R.PWR_CNT_NIGHT_MS_NIGHT_MS := Chip.get_set_ne c.tickCounted _ (by decide)
  rw [nightwatchTick_counts (.inr h), hms]
  refine (Chip.get_set_same _ _ _).trans ?_
  rw [hget]
  rfl

/-! #### A group of 64 ticks (R28) -/

/-- A Night in which `n` ticks have gone by since a group began at time `t`: no more than 37 of them were longer ones, and the ticks left suffice
to make them 37. -/
structure InTickGroup (t n : Nat) (c : Chip) : Prop where
  night : c.pwr.mode = .night
  ticks : c.pwr.nightTicks = n
  most : c.pwr.nightExtra ≤ 37
  room : 37 + n ≤ c.pwr.nightExtra + 64
  time : c.now ≡ t + 30517 * n + c.pwr.nightExtra [MOD 2 ^ 64]

theorem InTickGroup.begins {c : Chip} (hm : c.pwr.mode = .night) (hn : c.pwr.nightTicks = 0) (he : c.pwr.nightExtra = 0) :
    InTickGroup c.now 0 c :=
  ⟨hm, hn, by omega, by omega, by rw [he]; exact Nat.ModEq.refl _⟩

/-- Within a group a tick counts itself, and the invariant holds again. -/
theorem InTickGroup.tick {t n : Nat} {c : Chip} (h : InTickGroup t n c) (hn : n + 1 < 64) : InTickGroup t (n + 1) (nightwatchTick c) := by
  obtain ⟨hnight, rfl, hmost, hroom, htime⟩ := h
  obtain ⟨hmost', hroom'⟩ := Chip.tickExtra_keeps_room (c := c) (by omega) hmost hroom
  have hp := nightwatchTick_pwr (c := c) (.inl hnight)
  have he : (nightwatchTick c).pwr.nightExtra = c.pwr.nightExtra + c.tickExtra := by
    rw [hp]; exact if_neg (by omega)
  refine ⟨by rw [hp]; exact hnight, by rw [hp]; exact Nat.mod_eq_of_lt hn, by omega, by omega, ?_⟩
  rw [nightwatchTick_now (.inl hnight), he]
  refine (Nat.mod_modEq _ _).trans ?_
  have := htime.add_right (30517 + c.tickExtra)
  convert this using 1 <;> ring

/-- The 64th tick ends the group: 64 · 30517 + 37 nanoseconds have gone by. -/
theorem InTickGroup.last_tick {t : Nat} {c : Chip} (h : InTickGroup t 63 c) :
    (nightwatchTick c).now = (t + 1953125) % 2 ^ 64 ∧ (nightwatchTick c).pwr.mode = .night ∧
      (nightwatchTick c).pwr.nightTicks = 0 ∧ (nightwatchTick c).pwr.nightExtra = 0 := by
  obtain ⟨hnight, hn, hmost, hroom, htime⟩ := h
  have hlast := Chip.tickExtra_last (c := c) (by omega) hmost (by omega)
  have hp := nightwatchTick_pwr (c := c) (.inl hnight)
  refine ⟨?_, by rw [hp]; exact hnight, by rw [hp]; simp [Chip.tickCounted, hn], by rw [hp]; simp [Chip.tickCounted, hn]⟩
  rw [nightwatchTick_now (.inl hnight), Nat.add_assoc]
  have hsum : t + 30517 * 63 + c.pwr.nightExtra + (30517 + c.tickExtra) = t + 1953125 := by omega
  exact hsum ▸ htime.add_right (30517 + c.tickExtra)

theorem InTickGroup.iterate {t : Nat} {c : Chip} (h : InTickGroup t 0 c) : ∀ n < 64, InTickGroup t n (nightwatchTick^[n] c)
  | 0, _ => h
  | n + 1, hn => by
    rw [Function.iterate_succ_apply']
    exact (h.iterate n (by omega)).tick hn

theorem InTickGroup.iterate_end {t : Nat} {c : Chip} (h : InTickGroup t 0 c) :
    (nightwatchTick^[64] c).now = (t + 1953125) % 2 ^ 64 ∧ (nightwatchTick^[64] c).pwr.mode = .night ∧
      (nightwatchTick^[64] c).pwr.nightTicks = 0 ∧ (nightwatchTick^[64] c).pwr.nightExtra = 0 := by
  rw [Function.iterate_succ_apply']
  exact (h.iterate 63 (by decide)).last_tick

/-- Ticks in front of the queue act one after another. -/
theorem State.after_nightwatchTicks (s : State) (n : Nat) (rest : List Instr)
    (h : s.pending = List.replicate n Instr.nightwatchTick ++ rest) :
    s.after n = some { chip := nightwatchTick^[n] s.chip, pending := rest } := by
  induction n generalizing rest with
  | zero => cases s; cases h; rfl
  | succ n ih =>
    have hq : s.pending = List.replicate n Instr.nightwatchTick ++ Instr.nightwatchTick :: rest := by
      rw [h, List.replicate_succ', List.append_assoc]; rfl
    rw [State.after, ih _ hq, Function.iterate_succ_apply']
    rfl

/-! ### The pins (R548, R602 to R607) -/

/-- R548: a clocked head that may hold exposed data flushes before its reset. -/
theorem sysRstNAssert_clocked {c : Chip} (h : c.awake = true) :
    sysRstNAssert c = if c.mayFlush && (c.isDay || c.ing.writes.any (·.exposed) || decide (0 < c.unvaulted)) then c.startFlush 1
      else c.warmReset := by
  have hm : c.pwr.mode = .dawn ∨ c.pwr.mode = .day ∨ c.pwr.mode = .dusk := by simpa [Chip.awake, Chip.inService] using h
  rcases hm with hm | hm | hm <;> simp only [sysRstNAssert, hm]

/-- R548, R592: where no flush is due and no hold forbids it, SYS_RST_N makes a warm reset. -/
theorem sysRstNAssert_warm {c : Chip}
    (h : c.pwr.mode = .night ∨ c.pwr.mode = .held ∧ (c.pwr.hold = .flushed ∨ c.pwr.hold = .rom ∨ c.pwr.hold = .trip ∧ c.pwr.highest < 125) ∨
      c.pwr.mode = .dawn ∨ c.awake = true ∧ c.mayFlush = false) : sysRstNAssert c = c.warmReset := by
  rcases h with hm | ⟨hm, hh | hh | ⟨hh, ht⟩⟩ | hm | ⟨ha, hf⟩
  · simp [sysRstNAssert, hm]
  · simp [sysRstNAssert, hm, hh]
  · simp [sysRstNAssert, hm, hh]
  · simp [sysRstNAssert, hm, hh, ht]
  · have hf : c.mayFlush = false := by simp [Chip.mayFlush, Chip.inService, hm]
    rw [sysRstNAssert_clocked (by simp [Chip.awake, hm])]
    simp [hf]
  · rw [sysRstNAssert_clocked ha]
    simp [hf]

/-- R517, R606: SYS_RST_N has no effect in a cold reset, nor on a head that is still too hot after a trip. -/
theorem sysRstNAssert_ignored {c : Chip} (h : c.pwr.mode = .coldReset ∨ c.pwr.mode = .held ∧ c.pwr.hold = .trip ∧ 125 ≤ c.pwr.highest) :
    sysRstNAssert c = c := by
  rcases h with hm | ⟨hm, hh, ht⟩
  · simp [sysRstNAssert, hm]
  · simp [sysRstNAssert, hm, hh, not_lt.2 ht]

theorem sysRstNAssert_flush {c : Chip} (hm : c.pwr.mode = .day) (hf : c.mayFlush = true) : sysRstNAssert c = c.startFlush 1 := by
  rw [sysRstNAssert_clocked (by simp [Chip.awake, Chip.inService, hm])]
  simp [hf, Chip.isDay, hm]

theorem crystalRunning_warm {c : Chip} (hm : c.pwr.mode = .coldReset) (ht : -40 ≤ c.pwr.highest) :
    crystalRunning c = ({ c with pwr := { c.pwr with porN := true } } : Chip).beginDawn true := by
  simp [crystalRunning, hm, not_lt.2 ht]

theorem crystalRunning_cold {c : Chip} (hm : c.pwr.mode = .coldReset) (ht : c.pwr.highest < -40) :
    crystalRunning c = { c with pwr := { c.pwr with porN := true, wakeHeld := true } } := by
  simp [crystalRunning, hm, ht]

theorem headSelSample_first {c : Chip} (h : c.pwr.sampled = false) (pos : Bool) :
    headSelSample pos c = ({ c with pwr := { c.pwr with sampled := true } } : Chip).setFlag R.GLB_HEAD_POS pos := by
  simp [headSelSample, h]

theorem headSelSample_again {c : Chip} (h : c.pwr.sampled = true) (pos : Bool) : headSelSample pos c = c := by
  simp [headSelSample, h]

theorem pwrgdRise_dawn {c : Chip} (hm : c.pwr.mode = .dawn) (hs : c.pwr.dawnStep = 1) :
    pwrgdRise c = if c.pwr.pwrReq then ({ c with pwr := { c.pwr with pwrgd := true } } : Chip).startPlls
      else { c with pwr := { c.pwr with pwrgd := true } } := by
  simp [pwrgdRise, hm, hs]

theorem pwrgdRise_held {c : Chip} (hm : c.pwr.mode = .held) (hh : c.pwr.hold = .pwrgd) :
    pwrgdRise c = ({ c with pwr := { c.pwr with pwrgd := true } } : Chip).beginDawn false := by
  simp [pwrgdRise, hm, hh]

section
variable {c : Chip} (hr : c.pwr.pwrReq = true) (hg : c.pwr.pwrgd = true)
include hr hg

/-- R592, R605: a clocked head that loses the switched rails is held, keeps no DRAM content, and remembers the fault. -/
theorem pwrgdFall_clocked (ha : c.awake = true) : ∃ (d : Chip) (fourth : Bool) (times : List Nat),
    pwrgdFall c =
      let e := d.holdReset (if fourth then .faults else .pwrgd) fourth
      { e with
        mem := { e.mem with contentKept := false, opened := false }
        cpe := { e.cpe with instPending := true }
        pwr := { e.pwr with faultTimes := times, faultCause := c.freeNow + 1 } } :=
  have hlost : ¬ (!c.pwr.pwrReq || !c.pwr.pwrgd) = true := by simp [hr, hg]
  have hclocked : ¬ (!c.awake) = true := by simp [ha]
  ⟨_, _, _, (if_neg hlost).trans (if_neg hclocked)⟩

theorem pwrgdFall_unclocked (ha : c.awake = false) :
    pwrgdFall c = { c with pwr := { c.pwr with pwrgd := false }, mem := { c.mem with contentKept := false } } :=
  have hlost : ¬ (!c.pwr.pwrReq || !c.pwr.pwrgd) = true := by simp [hr, hg]
  have hclocked : (!c.awake) = true := by simp [ha]
  (if_neg hlost).trans (if_pos hclocked)

end

end Sys2Proof.Machine

namespace Sys2Proof
open Sys2Proof.Machine

/-- Settles O57: 64 ticks keep the group's invariant, and the last of them brings its longer ticks to 37; a wake leaves GLB_TIME. -/
theorem sixtyFourNightTicksAddExactly : Obligations.SixtyFourNightTicksAddExactly := by
  refine ⟨fun s rest hm hn he hq => ?_, fun s hm => ?_, fun s t hm ht => ?_⟩
  · have hend := (InTickGroup.begins hm hn he).iterate_end
    have hafter := s.after_nightwatchTicks 64 rest hq
    generalize nightwatchTick^[64] s.chip = d at hend hafter
    obtain ⟨htime, hnight, hticks, hextra⟩ := hend
    exact ⟨_, hafter, htime, rfl, hnight, hticks, hextra⟩
  · exact ⟨_, s.chip.tickExtra_le_one, nightwatchTick s.chip, rfl, nightwatchTick_now (.inl hm)⟩
  · cases ht
    exact Chip.wake_night_now hm 1 0

/-- Settles O12: each pin by the case of its input that the power state picks. -/
theorem powerInputsAct : Obligations.PowerInputsAct := by
  intro s c p
  refine ⟨fun h he => ⟨nightwatchTick c, rfl, c.tickExtra, c.tickExtra_le_one, nightwatchTick_now h, fun hn h36 => ?_, ?_, ?_, ?_⟩,
    fun hn hh => ?_, ?_, fun hm ht => ?_, fun hm ht => ?_, fun pos hs => ?_, fun pos hs => ?_, fun h => ?_, fun h => ?_, fun hm hf => ?_,
    fun hm hs hr => ?_, fun hm hs hr => ?_, fun hm hh => ?_, fun hr hg ha => ?_, fun hr hg ha => ?_⟩
  · exact Chip.tickExtra_last hn he h36
  · exact nightwatchTick_held_ms
  · exact nightwatchTick_regsSame h
  · exact nightwatchTick_frame h
  · exact Yields.run rfl rfl (nightwatchTick_idle hn hh)
  · exact Yields.run rfl rfl rfl
  · exact Yields.run rfl rfl (crystalRunning_warm hm ht)
  · exact Yields.run rfl rfl (crystalRunning_cold hm ht)
  · exact Yields.run rfl rfl (headSelSample_first hs pos)
  · exact Yields.run rfl rfl (headSelSample_again hs pos)
  · exact Yields.run rfl rfl (sysRstNAssert_warm h)
  · exact Yields.run rfl rfl (sysRstNAssert_ignored h)
  · exact Yields.run rfl rfl (sysRstNAssert_flush hm hf)
  · exact Yields.run rfl rfl ((pwrgdRise_dawn hm hs).trans (if_neg (ne_true_of_eq_false hr)))
  · exact Yields.run rfl rfl ((pwrgdRise_dawn hm hs).trans (if_pos hr))
  · exact Yields.run rfl rfl (pwrgdRise_held hm hh)
  · obtain ⟨d, fourth, times, hd⟩ := pwrgdFall_clocked hr hg ha
    refine ⟨pwrgdFall c, rfl, ?_⟩
    rw [hd]
    have hhold : (if fourth then HoldCause.faults else .pwrgd) = .pwrgd ∨ (if fourth then HoldCause.faults else .pwrgd) = .faults := by
      cases fourth <;> decide
    exact ⟨rfl, hhold, rfl, rfl, rfl, rfl⟩
  · exact Yields.run rfl rfl (pwrgdFall_unclocked hr hg ha)

/-- Settles O52: an idle step is the tick, which acts in a clocked head alone. -/
theorem idleStepCountsTime : Obligations.IdleStepCountsTime := by
  intro s hq
  have hstep : step s = .next { s with chip := s.chip.tick } := by simp [step, hq]
  refine ⟨fun ha => by rw [hstep, Chip.tick_asleep ha], fun ha => ⟨s.chip.bump R.GLB_TIME_TIME 1, Chip.now_bump _ _,
    RegsSame.set _ _ _ (by simp), ?_, fun h => ?_, fun hm hr hf => ?_⟩⟩
  · apply Chip.eq_of_fields <;> simp
  · rw [hstep, Chip.tick_awake ha, if_neg]
    rintro ⟨hm, hr, hdue⟩
    rw [Chip.bump_pwr] at h
    rcases h with h | h | ⟨t, ht, hlt⟩
    · exact h hm
    · simp [hr] at h
    · have := (Chip.reqDue_iff _).1 hdue t (by rw [Chip.bump_pwr]; exact ht)
      omega
  · rw [Chip.bump_pwr] at hm hr
    rw [hstep, Chip.tick_awake ha, if_pos ⟨hm, hr, (Chip.reqDue_iff _).2 hf⟩]

/-- Settles O53: nothing is listed in the register file, in memory or in the caches, so every read gives its default. -/
theorem resetIsColdReset : Obligations.ResetIsColdReset := by
  unfold Obligations.ResetIsColdReset
  intro c
  have hget : ∀ f : Fld, c.get f = f.reset := fun f => by
    unfold Chip.get; split <;> rfl
  exact ⟨hget, hget _, rfl, rfl, rfl, rfl, fun a => rfl, fun a => rfl, rfl, rfl, rfl, fun i hi => by cases hi⟩

end Sys2Proof

/-! ### The steps of the Dawn (Table 16-4) -/

namespace Sys2Proof.Machine

/-! #### PLL_LOCK_TIMEOUT (R513) -/

/-- The chip with one more lock time of PLL `k` counted, and the next begun. -/
def Chip.lockTried (c : Chip) (k : Nat) : Chip :=
  { c with pwr := { c.pwr with
      pllTries := Sparse.set 0 c.pwr.pllTries k (Sparse.get 0 c.pwr.pllTries k + 1), pllAt := Sparse.set 0 c.pwr.pllAt k c.now } }

theorem pllLockTimeout_early {c : Chip} {k : Nat} (h : c.now < Sparse.get 0 c.pwr.pllAt k + 1000000) : pllLockTimeout k c = c := by
  simp [pllLockTimeout, h]

/-- R513: at step 2 a lock time that ends on a PLL that neither has locked nor failed is one of its three tries. -/
theorem pllLockTimeout_tries {c : Chip} {k : Nat} (hk : k < 10) (hm : c.pwr.mode = .dawn) (hs : c.pwr.dawnStep = 2)
    (hl : c.bit R.PWR_PLL_LOCK k = false) (hf : c.bit R.PWR_PLL_FAIL k = false) (ht : Sparse.get 0 c.pwr.pllAt k + 1000000 ≤ c.now) :
    pllLockTimeout k c = if Sparse.get 0 c.pwr.pllTries k + 1 < 3 then c.lockTried k else (c.lockTried k).pllFails k := by
  have hlive : ¬ 10 ≤ k := by omega
  simp [pllLockTimeout, Chip.lockTried, hlive, hm, hs, hl, hf, not_lt.2 ht]

/-! #### FIRMWARE_START (R554, R556) -/

theorem firmwareStart_ignored {c : Chip} (h : c.pwr.mode ≠ .dawn ∨ c.pwr.dawnStep ≠ 4 ∨ c.boot.started = true)
    (copy0 copy1 sram : Bool) (l : List (Nat × Nat)) : firmwareStart copy0 copy1 sram l c = c := by
  rcases h with h | h | h <;> simp [firmwareStart, h]

theorem Chip.slotCheck_of_loaded {c : Chip} (h : c.boot.fwState = 2) :
    c.slotCheck = c.checkFw (Mem.read c.boot.fwSlot 0 c.boot.fwHeader.length) true := if_pos h

theorem Chip.slotCheck_of_empty {c : Chip} (h : c.boot.fwState ≠ 2) : c.slotCheck = 0 := if_neg h

theorem Chip.startFirmware_of_empty {c : Chip} (h : c.boot.fwState ≠ 2) : c.startFirmware = none := if_pos h

/-- R553, R554: a slot whose image fails a check starts nothing. -/
theorem Chip.startFirmware_of_failing {c : Chip} (h : c.boot.fwState = 2) (hk : c.slotCheck ≠ 0) : c.startFirmware = none :=
  (if_neg (not_not.2 h)).trans (if_pos (Chip.slotCheck_of_loaded h ▸ hk))

/-- R554: a slot whose image passes every check starts it. -/
theorem Chip.startFirmware_of_passing {c : Chip} (h : c.boot.fwState = 2) (hk : c.slotCheck = 0) : ∃ e, c.startFirmware = some e :=
  ⟨_, (if_neg (not_not.2 h)).trans (if_neg (not_not.2 (Chip.slotCheck_of_loaded h ▸ hk)))⟩

/-- The slot's trial counted, where its firmware is unconfirmed (R556). -/
def Chip.trialCounted (d : Chip) : Chip := if d.boot.confirmed then d else d.slotTable (fun b => { b with attempts := b.attempts + 1 })

@[simp] theorem Chip.trialCounted_fwState (d : Chip) : d.trialCounted.boot.fwState = d.boot.fwState := by
  unfold Chip.trialCounted; split <;> rfl

theorem Chip.slotCheck_trialCounted {d : Chip} (h : d.boot.fwState = 2) : d.trialCounted.slotCheck =
    d.trialCounted.checkFw (Mem.read d.trialCounted.boot.fwSlot 0 d.trialCounted.boot.fwHeader.length) true :=
  Chip.slotCheck_of_loaded (d.trialCounted_fwState.trans h)

/-- The head with its firmware running: the transport key where one is due, the persistent keys, and the choice of the image (R60). -/
def Chip.firmwareRuns (e : Chip) : Chip :=
  let f := if e.lifecycle = 2 && e.root.secret.transport.isNone then e.makeTransport else e
  (f.reloadKeys.setAll [(R.KCF_STATUS_FELL_BACK, 0), (R.KCF_STATUS_NO_IMAGE, 0)]).chooseImage 2

/-- The chip as its loader, copy `n` of a serial, begins (Table 18-5). -/
def Chip.loaderBegins (c : Chip) (n serial : Nat) (sram : Bool) (l : List (Nat × Nat)) : Chip :=
  ({ c with boot := { c.boot with started := true, failedUnits := l } } : Chip).startLoader n serial sram

/-- What a loader that has begun goes on to do (R556): it trains the peer link where it is to stay, gives up a firmware tried three times, and
starts or reports the slot's. -/
def Chip.loaderGoesOn (d : Chip) : Chip :=
  let trial := d.boot.fwState == 2 && !d.boot.confirmed
  if d.on R.GLB_STATUS_LOADER_ONLY then (if d.mayLink then d.trainPeer else d)
  else if trial && decide (3 ≤ d.boot.attempts) then d.stayInLoader 2 0
  else
    let t := if trial then d.slotTable (fun b => { b with attempts := b.attempts + 1 }) else d
    match t.startFirmware with
    | none => (t.verifyFailed t.slotCheck 1).stayInLoader 1 t.slotCheck
    | some e => e.firmwareRuns

section
variable {c : Chip} (hm : c.pwr.mode = .dawn) (hs : c.pwr.dawnStep = 4) (hb : c.boot.started = false)
include hm hs hb

/-- R554: ROM without a loader copy that verifies holds the head in reset. -/
theorem firmwareStart_noLoader (sram : Bool) (l : List (Nat × Nat)) :
    firmwareStart false false sram l c = ({ c with epc := { c.epc with link := .down } } : Chip).holdReset .rom true := by
  simp [firmwareStart, hm, hs, hb, Chip.loaderCopy]

/-- R554: ROM starts the loader copy that verifies, which goes on. -/
theorem firmwareStart_loader {copy0 copy1 : Bool} {n serial : Nat} (hc : c.loaderCopy copy0 copy1 = some (n, serial)) (sram : Bool)
    (l : List (Nat × Nat)) : firmwareStart copy0 copy1 sram l c = (c.loaderBegins n serial sram l).loaderGoesOn := by
  unfold firmwareStart
  rw [if_neg (by simp [hm, hs, hb]), hc]
  rfl

end

/-- R558: a loader whose memory or clocks have failed stays. -/
theorem Chip.loaderGoesOn_stays {d : Chip} (h : d.on R.GLB_STATUS_LOADER_ONLY = true) :
    d.loaderGoesOn = if d.mayLink then d.trainPeer else d := if_pos h

section
variable {d : Chip} (h : d.on R.GLB_STATUS_LOADER_ONLY = false)
include h

theorem Chip.loaderGoesOn_empty (hf : d.boot.fwState ≠ 2) : d.loaderGoesOn = (d.verifyFailed 0 1).stayInLoader 1 0 := by
  simp [Chip.loaderGoesOn, h, hf, Chip.startFirmware_of_empty hf, Chip.slotCheck_of_empty hf]

variable (hf : d.boot.fwState = 2)
include hf

theorem Chip.loaderGoesOn_triedOut (hu : d.boot.confirmed = false) (ha : 3 ≤ d.boot.attempts) :
    d.loaderGoesOn = d.stayInLoader 2 0 := by
  simp [Chip.loaderGoesOn, h, hf, hu, ha]

variable (ht : d.boot.confirmed = true ∨ d.boot.attempts < 3)
include ht

/-- R556: the firmware of the slot starts, or the check that it fails is shown and the loader stays. -/
theorem Chip.loaderGoesOn_tries : d.loaderGoesOn = d.trialCounted.startFirmware.elim
    ((d.trialCounted.verifyFailed d.trialCounted.slotCheck 1).stayInLoader 1 d.trialCounted.slotCheck) Chip.firmwareRuns := by
  have hgo : (!d.boot.confirmed && decide (3 ≤ d.boot.attempts)) = false := by rcases ht with ht | ht <;> simp [ht]
  have htrial : (if !d.boot.confirmed then d.slotTable (fun b => { b with attempts := b.attempts + 1 }) else d) = d.trialCounted := by
    unfold Chip.trialCounted; cases d.boot.confirmed <;> rfl
  simp only [Chip.loaderGoesOn, h, hf, beq_self_eq_true, Bool.true_and, hgo, htrial]
  cases d.trialCounted.startFirmware <;> rfl

theorem Chip.loaderGoesOn_fails (hk : d.trialCounted.slotCheck ≠ 0) : d.loaderGoesOn =
    (d.trialCounted.verifyFailed d.trialCounted.slotCheck 1).stayInLoader 1 d.trialCounted.slotCheck := by
  rw [Chip.loaderGoesOn_tries h hf ht, Chip.startFirmware_of_failing (by simpa using hf) hk]
  rfl

theorem Chip.loaderGoesOn_runs (hk : d.trialCounted.slotCheck = 0) :
    ∃ e, d.trialCounted.startFirmware = some e ∧ d.loaderGoesOn = e.firmwareRuns := by
  obtain ⟨e, he⟩ := Chip.startFirmware_of_passing (by simpa using hf) hk
  exact ⟨e, he, by rw [Chip.loaderGoesOn_tries h hf ht, he]; rfl⟩

end

/-! #### VAULT_REPLAY (R172, R411, R591) -/

theorem vaultReplay_ignored {c : Chip} (h : c.pwr.mode ≠ .dawn ∨ c.pwr.dawnStep ≠ 6) (sup : Bool) (most : Nat) (failed : List Nat)
    (ok : Bool) (bad : List Nat) : vaultReplay sup most failed ok bad c = c := by
  rcases h with h | h <;> simp [vaultReplay, h]

/-- The head at step 7, with the epoch that a cold reset gives it unless the Dawn is a cancelled Dusk's (R411). -/
def Chip.dawnSeven (c : Chip) (most : Nat) : Chip :=
  let d := if c.pwr.cancelled then c else c.coldEpoch most
  { d with pwr := { d.pwr with dawnStep := 7 } }

/-- Whether a vault image counts for nothing: marked superseded or closed, or superseded by the survivor it was made beside (R149, R172). -/
def Vault.gone (v : Vault) (sup : Bool) : Bool := v.mark == .superseded || v.mark == .closed || (sup && v.withPeer)

theorem Vault.gone_iff (v : Vault) (sup : Bool) :
    v.gone sup = true ↔ v.mark = .superseded ∨ v.mark = .closed ∨ sup = true ∧ v.withPeer = true := by
  simp [Vault.gone, or_assoc]

/-- The exposed writes reported lost, where DRAM has lost them (R172). -/
def Chip.replayLost (d : Chip) (v : Vault) : Chip :=
  (d.ing.writes.filter (fun w => w.own && w.exposed)).foldl (fun x w => x.loseRange w.nsid w.slba w.nlb 4) (d.replay v.recs [] [])

/-- R60, R172: what step 6 replays: nothing without an image or of a vault that counts for nothing, a sealed vault as far as it reads, and
otherwise what DRAM still holds. -/
theorem vaultReplay_dawn {c : Chip} (hm : c.pwr.mode = .dawn) (hs : c.pwr.dawnStep = 6) (sup : Bool) (most : Nat) (failed : List Nat) (ok : Bool)
    (bad : List Nat) :
    let d := c.dawnSeven most
    let v := c.ing.vault
    vaultReplay sup most failed ok bad c =
      if d.kcf.active = none then d
      else if v.gone sup = true then d.replay [] [] []
      else if v.mark = .sealed then d.replay (v.readable d.root.secret.vault ok bad).1 (v.readable d.root.secret.vault ok bad).2 failed
      else if d.on R.MEM_STATUS_CONTENT_LOST = false then d.replay d.ing.journal d.exposedData failed
      else d.replayLost v := by
  unfold vaultReplay
  rw [if_neg (by simp [hm, hs])]
  simp only [Option.isNone_iff_eq_none, Bool.not_eq_true']
  rfl

/-! #### DAY_REACHED (R505, R507, R556, R624) -/

theorem dayReached_ignored {c : Chip} (h : c.pwr.mode ≠ .dawn ∨ c.pwr.dawnStep ≠ 7 ∨ c.holdupGood = false) : dayReached c = c := by
  rcases h with h | h | h <;> simp [dayReached, h]

/-- The head in Day: the attempts of its firmware cleared, its epoch open, the erases that a reset interrupted under way, and a sole head's
strings taken. -/
def Chip.dayBegins (c : Chip) : Chip :=
  let e : Chip := { c with pwr := { c.pwr with mode := .day, dayAt := c.now, cancelled := false } }
  let d := (((if c.boot.attempts = 0 then e else e.slotTable (fun b => { b with attempts := 0 })).set R.PWR_STATUS_PHASE 0).dayEpoch).finishErases
  if d.zbl.state = .sole then (d.takeStrings 0xFFFF false).askFirst else d

section
variable {c : Chip} (hm : c.pwr.mode = .dawn) (hs : c.pwr.dawnStep = 7) (hl : c.on R.GLB_STATUS_LOADER_ONLY = false) (hh : c.holdupGood = true)
include hm hs hl hh

/-- R505, R507: a Dawn that reaches Day trains the peer link where it is down; a cancelled Dusk ends with its result. -/
theorem dayReached_dawn : dayReached c =
    let d := c.dayBegins
    let e := if d.mayLink && !d.linkUp && !d.zbl.training && !c.pwr.cancelled then d.trainPeer else d
    if c.pwr.cancelled then e.pwrEnd 1 else e := by
  have hgo : ¬ (decide (c.pwr.mode ≠ .dawn) || decide (c.pwr.dawnStep ≠ 7) || c.on R.GLB_STATUS_LOADER_ONLY || !c.holdupGood) = true := by
    simp [hm, hs, hl, hh]
  exact if_neg hgo

theorem dayReached_trains (hc : c.pwr.cancelled = false) : dayReached c =
    if c.dayBegins.mayLink && !c.dayBegins.linkUp && !c.dayBegins.zbl.training then c.dayBegins.trainPeer else c.dayBegins := by
  simp [dayReached_dawn hm hs hl hh, hc]

theorem dayReached_cancelled (hc : c.pwr.cancelled = true) : dayReached c = c.dayBegins.pwrEnd 1 := by
  simp [dayReached_dawn hm hs hl hh, hc]

end

end Sys2Proof.Machine

namespace Sys2Proof
open Sys2Proof.Machine

/-- Settles O13: each command by its step; the loader and the vault by what they find. -/
theorem dawnStepsAdvance : Obligations.DawnStepsAdvance := by
  intro s ha c p
  refine ⟨fun k hk hm hs hl hf ht => ?_, fun k ht => ?_, fun hm hs hb sram l => ?_, fun hm hs hb copy0 copy1 sram l n serial hc => ?_,
    fun h copy0 copy1 sram l => ?_, fun hm hs sup most failed ok bad => ?_, fun h sup most failed ok bad => ?_,
    fun hm hs hl hh => ⟨fun hc => ?_, fun hc => ?_⟩, fun h => ?_⟩
  · exact Yields.awake ha rfl rfl (pllLockTimeout_tries hk hm hs hl hf ht)
  · exact Yields.awake ha rfl rfl (pllLockTimeout_early ht)
  · exact Yields.awake ha rfl rfl (firmwareStart_noLoader hm hs hb sram l)
  · have starts {d : Chip} (h : (c.loaderBegins n serial sram l).loaderGoesOn = d) : Yields (.firmwareStart copy0 copy1 sram l) s d :=
      Yields.awake ha rfl rfl ((firmwareStart_loader hm hs hb hc sram l).trans h)
    refine ⟨fun h => ?_, fun h hf hu h3 => ?_, fun h hf ht => ⟨fun hk => ?_, fun check hk h0 => ?_⟩, fun h hf => ?_⟩
    · exact starts (Chip.loaderGoesOn_stays h)
    · exact starts (Chip.loaderGoesOn_triedOut h hf hu h3)
    · obtain ⟨e, he, hd⟩ := Chip.loaderGoesOn_runs h hf ht ((Chip.slotCheck_trialCounted hf).trans hk)
      exact ⟨e, he, starts hd⟩
    · have hslot := (Chip.slotCheck_trialCounted hf).trans hk.symm
      rw [← hslot] at h0 ⊢
      exact starts (Chip.loaderGoesOn_fails h hf ht h0)
    · exact starts (Chip.loaderGoesOn_empty h hf)
  · exact Yields.awake ha rfl rfl (firmwareStart_ignored h copy0 copy1 sram l)
  · have replays {d : Chip} (h) : Yields (.vaultReplay sup most failed ok bad) s d :=
      Yields.awake ha rfl rfl ((vaultReplay_dawn hm hs sup most failed ok bad).trans h)
    refine ⟨fun hi => ?_, fun hi hg => ?_, fun hi hg hv => ?_, fun hi hg hv => ⟨fun hx => ?_, fun hx => ?_⟩⟩
    · exact replays (if_pos hi)
    · exact replays ((if_neg hi).trans (if_pos ((Vault.gone_iff _ _).2 hg)))
    · exact replays ((if_neg hi).trans ((if_neg (mt (Vault.gone_iff _ _).1 hg)).trans (if_pos hv)))
    · exact replays ((if_neg hi).trans ((if_neg (mt (Vault.gone_iff _ _).1 hg)).trans ((if_neg hv).trans (if_pos hx))))
    · exact replays ((if_neg hi).trans ((if_neg (mt (Vault.gone_iff _ _).1 hg)).trans ((if_neg hv).trans (if_neg (ne_false_of_eq_true hx)))))
  · exact Yields.awake ha rfl rfl (vaultReplay_ignored h sup most failed ok bad)
  · exact Yields.awake ha rfl rfl (dayReached_trains hm hs hl hh hc)
  · exact Yields.awake ha rfl rfl (dayReached_cancelled hm hs hl hh hc)
  · exact Yields.awake ha rfl rfl (dayReached_ignored h)

end Sys2Proof

/-! ### The commands of KCF (Table 2-15) -/

namespace Sys2Proof.Machine

/-! #### What starting an operation leaves (R15) -/

@[simp] theorem Chip.showResult_kcf (c : Chip) (v : Fld) (l : List (Fld × Nat)) : (c.showResult v l).kcf = c.kcf := by
  unfold Chip.showResult; split_ifs <;> simp

@[simp] theorem Chip.showResult_mem (c : Chip) (v : Fld) (l : List (Fld × Nat)) : (c.showResult v l).mem = c.mem := by
  unfold Chip.showResult; split_ifs <;> simp

@[simp] theorem Chip.powerEvent_nextXfer (c : Chip) (fn : Nat) : (c.powerEvent fn).epc.nextXfer = c.epc.nextXfer := by
  unfold Chip.powerEvent; dsimp only; split_ifs <;> rfl

@[simp] theorem Chip.blockCause_nextXfer (c : Chip) (e v : Fld) : (c.blockCause e v).epc.nextXfer = c.epc.nextXfer := by
  unfold Chip.blockCause Chip.cause
  split_ifs
  · rfl
  · exact Chip.powerEvent_nextXfer _ _
  · rfl

@[simp] theorem Chip.showResult_nextXfer (c : Chip) (v : Fld) (l : List (Fld × Nat)) :
    (c.showResult v l).epc.nextXfer = c.epc.nextXfer := by
  unfold Chip.showResult; split_ifs <;> simp

@[simp] theorem Chip.startOp_kcf (c : Chip) (v : Fld) : (c.startOp v).kcf = c.kcf := by
  unfold Chip.startOp; dsimp only; split <;> simp

@[simp] theorem Chip.startOp_mem (c : Chip) (v : Fld) : (c.startOp v).mem = c.mem := by
  unfold Chip.startOp; dsimp only; split <;> simp

@[simp] theorem Chip.startOp_nextXfer (c : Chip) (v : Fld) : (c.startOp v).epc.nextXfer = c.epc.nextXfer := by
  unfold Chip.startOp; dsimp only; split <;> simp

@[simp] theorem Chip.dropXfer_kcf (c : Chip) (id : Nat) : (c.dropXfer id).kcf = c.kcf := rfl

/-- A staging slot lies where the size of DRAM puts it (R48). -/
theorem Chip.stagingAt_of_mem {c d : Chip} (h : d.mem = c.mem) (slot : Nat) : d.stagingAt slot = c.stagingAt slot := by
  simp [Chip.stagingAt, Chip.dramSize, h]

/-! #### Accepted and refused -/

theorem Chip.kcfUp_of_served {s : State} (h : Served s) : s.chip.kcfUp = true := by simp [Chip.kcfUp, h.1, h.2.2]

/-- R55, R542: a command in a state that does not allow it, or while debug is requested, is refused. -/
theorem Chip.kcfCommand_refused {c : Chip} {states : List Nat} (hu : c.kcfUp = true) (h : c.root.debug = .requested ∨ c.kcfState ∉ states)
    (f : Chip → Chip) : c.kcfCommand states f = c.kcfRefuse := by
  rcases h with h | h <;> simp [Chip.kcfCommand, hu, h]

/-- R55: a command in a state that allows it starts its operation. -/
theorem Chip.kcfCommand_runs {c : Chip} {states : List Nat} (hu : c.kcfUp = true) (hd : c.root.debug ≠ .requested) (h : c.kcfState ∈ states)
    (f : Chip → Chip) : c.kcfCommand states f = f (c.startOp R.KCF_RESULT_VALID) := by
  simp [Chip.kcfCommand, hu, hd, h]

/-- R55: the states that take a LOAD, none of them in a retired head. -/
theorem Chip.loadStates_iff (c : Chip) :
    c.kcfState ∈ (if c.lifecycle = 4 then [] else [0, 2, 4, 8]) ↔ c.kcfState ∈ [0, 2, 4, 8] ∧ c.lifecycle ≠ 4 := by
  by_cases h : c.lifecycle = 4 <;> simp [h]

/-- R55: the states that take an ABORT: an armed image is aborted only until it is agreed. -/
theorem Chip.abortStates_iff (c : Chip) : c.kcfState ∈ [1, 3, 9, 5] ++ (if c.on R.KCF_STATUS_AGREED then [] else [6]) ↔
    c.kcfState ∈ [1, 3, 9, 5] ∨ c.kcfState = 6 ∧ c.on R.KCF_STATUS_AGREED = false := by
  by_cases h : c.on R.KCF_STATUS_AGREED = true <;> simp [h, or_assoc]

/-- R55: RETRY is taken after a partial activation. -/
theorem Chip.retryStates_iff (c : Chip) :
    c.kcfState ∈ (if c.on R.KCF_STATUS_PARTIAL then [0] else []) ↔ c.kcfState = 0 ∧ c.on R.KCF_STATUS_PARTIAL = true := by
  by_cases h : c.on R.KCF_STATUS_PARTIAL = true <;> simp [h]

section
variable {c : Chip} (hu : c.kcfUp = true)
include hu

theorem kcfLoad_refused (h : c.root.debug = .requested ∨ c.kcfState ∉ [0, 2, 4, 8] ∨ c.lifecycle = 4) : kcfLoad c = c.kcfRefuse :=
  Chip.kcfCommand_refused hu (h.imp_right (fun h => by rw [Chip.loadStates_iff]; tauto)) _

theorem kcfValidate_refused (h : c.root.debug = .requested ∨ c.kcfState ≠ 2) : kcfValidate c = c.kcfRefuse :=
  Chip.kcfCommand_refused hu (h.imp_right (by simp)) _

theorem kcfActivate_refused (h : c.root.debug = .requested ∨ c.kcfState ≠ 4) : kcfActivate c = c.kcfRefuse :=
  Chip.kcfCommand_refused hu (h.imp_right (by simp)) _

theorem kcfAbort_refused (h : c.root.debug = .requested ∨ c.kcfState ∉ [1, 3, 9, 5, 6] ∨ c.kcfState = 6 ∧ c.on R.KCF_STATUS_AGREED = true) :
    kcfAbort c = c.kcfRefuse := by
  refine Chip.kcfCommand_refused hu (h.imp_right (fun h => ?_)) _
  rw [Chip.abortStates_iff]
  rcases h with h | ⟨h, ha⟩
  · simp only [List.mem_cons] at h ⊢; tauto
  · simp [h, ha]

theorem kcfRetry_refused (h : c.root.debug = .requested ∨ c.kcfState ≠ 0 ∨ c.on R.KCF_STATUS_PARTIAL = false) : kcfRetry c = c.kcfRefuse :=
  Chip.kcfCommand_refused hu (h.imp_right (fun h => by rw [Chip.retryStates_iff]; rintro ⟨h0, hp⟩; simp [h0, hp] at h)) _

variable (hd : c.root.debug ≠ .requested)
include hd

/-! #### LOAD (R56) -/

/-- The chip with a LOAD started: no image is staged or valid any more. -/
def Chip.loadStarts (c : Chip) : Chip :=
  let e := c.startOp R.KCF_RESULT_VALID
  ({ e with kcf := { e.kcf with staged := none, stagedLen := 0, valid := none } } : Chip).set R.KCF_SERIAL_STAGED_SERIAL 0

omit hu hd in
theorem Chip.loadStarts_get (c : Chip) {f : Fld} (h : f.key ≠ R.KCF_SERIAL_STAGED_SERIAL.key) :
    c.loadStarts.get f = (c.startOp R.KCF_RESULT_VALID).get f := Chip.get_set_ne _ _ h

theorem kcfLoad_misaligned (h : c.kcfState ∈ [0, 2, 4, 8]) (hl : c.lifecycle ≠ 4)
    (hz : (c.startOp R.KCF_RESULT_VALID).get R.KCF_SRC_ADDR_ADDR % 64 ≠ 0) : kcfLoad c = c.loadStarts.kcfEnd 8 2 0xFF 0 :=
  (Chip.kcfCommand_runs hu hd ((Chip.loadStates_iff c).2 ⟨h, hl⟩) _).trans (if_pos hz)

/-- R48, R56: the image is read to the staging slot that the running image does not hold. -/
theorem kcfLoad_reads (h : c.kcfState ∈ [0, 2, 4, 8]) (hl : c.lifecycle ≠ 4) :
    let e := c.startOp R.KCF_RESULT_VALID
    let slot := if c.kcf.activeStaging = some 0 then 1 else 0
    e.get R.KCF_SRC_ADDR_ADDR % 64 = 0 → kcfLoad c =
      (({ c.loadStarts with kcf := { c.loadStarts.kcf with
          staged := some slot, stagedLen := e.get R.KCF_SRC_LEN_LEN, loadXfer := c.epc.nextXfer } } : Chip).set
        R.KCF_STATUS_STATE 1).startRead 0 .kcfLoad [(e.get R.KCF_SRC_ADDR_ADDR, e.get R.KCF_SRC_LEN_LEN)] (c.stagingAt slot) := by
  intro e slot hz
  have hslot : (if e.kcf.activeStaging = some 0 then 1 else 0) = slot := by simp [e, slot]
  have hxfer : c.loadStarts.epc.nextXfer = c.epc.nextXfer := by simp [Chip.loadStarts]
  have hat : c.loadStarts.stagingAt slot = c.stagingAt slot := Chip.stagingAt_of_mem (by simp [Chip.loadStarts]) slot
  rw [← hat, ← hxfer, ← hslot]
  exact (Chip.kcfCommand_runs hu hd ((Chip.loadStates_iff c).2 ⟨h, hl⟩) _).trans (if_neg (not_not.2 hz))

/-! #### VALIDATE, ACTIVATE and RETRY (R51, R53, R57) -/

theorem kcfValidate_begins (h : c.kcfState = 2) : kcfValidate c = (c.startOp R.KCF_RESULT_VALID).set R.KCF_STATUS_STATE 3 :=
  Chip.kcfCommand_runs hu hd (by simp [h]) _

theorem kcfRetry_begins (h : c.kcfState = 0) (hp : c.on R.KCF_STATUS_PARTIAL = true) :
    let e := c.startOp R.KCF_RESULT_VALID
    kcfRetry c = e.beginPass (bitsSet (e.get R.KCF_CLUSTER_FAIL_FAIL) 24) true :=
  Chip.kcfCommand_runs hu hd ((Chip.retryStates_iff c).2 ⟨h, hp⟩) _

section
variable (h : c.kcfState = 4)
include h

theorem kcfActivate_noImage (hv : c.kcf.valid = none) : kcfActivate c = (c.startOp R.KCF_RESULT_VALID).kcfEnd 8 0x14 0xFF 0 := by
  refine (Chip.kcfCommand_runs hu hd (by simp [h]) _).trans ?_
  simp [hv]

variable {i : ImageData} (hv : c.kcf.valid = some i)
include hv

/-- R53: check 11 ends ACTIVATE at the place of the conflict. -/
theorem kcfActivate_conflict {typ ofs : Nat} :
    let e := c.startOp R.KCF_RESULT_VALID
    let d := secOf (imgDir e.stagedBytes) typ
    e.liveCheck i = some (typ, ofs) → kcfActivate c = e.kcfEnd 8 0xD d.idx (d.ofs + ofs) := by
  intro e d hk
  refine (Chip.kcfCommand_runs hu hd (by simp [h]) _).trans ?_
  simp only [Chip.startOp_kcf, hv, hk, e, d]

/-- R57: the image is written to the boot flash, its slot unmarked. -/
theorem kcfActivate_persists :
    let e := c.startOp R.KCF_RESULT_VALID
    e.liveCheck i = none → kcfActivate c =
      ((({ e with kcf := { e.kcf with abortPending := false } } : Chip).set R.KCF_STATUS_STATE 9).set
        R.BOOT_STATUS_WRITING 1).unmarkKilip c.kcf.persistSlot := by
  intro e hk
  refine (Chip.kcfCommand_runs hu hd (by simp [h]) _).trans ?_
  simp only [Chip.startOp_kcf, hv, hk, e]

end

/-! #### ABORT (R58) -/

section
variable (he : (c.startOp R.KCF_RESULT_VALID).kcfState = c.kcfState)
include he

/-- R58: an ABORT while the image is persisted is held until that ends. -/
theorem kcfAbort_persisting (h : c.kcfState = 9) : kcfAbort c =
    { c.startOp R.KCF_RESULT_VALID with kcf := { (c.startOp R.KCF_RESULT_VALID).kcf with abortPending := true } } := by
  refine (Chip.kcfCommand_runs hu hd ((Chip.abortStates_iff c).2 (by simp [h])) _).trans ?_
  simp only [he, h]

theorem kcfAbort_loading (h : c.kcfState = 1) :
    let e := c.startOp R.KCF_RESULT_VALID
    kcfAbort c = ({ (e.dropXfer c.kcf.loadXfer) with kcf := { e.kcf with staged := none, stagedLen := 0 } } : Chip).kcfEnd 0 0x13 0xFF 0 := by
  refine (Chip.kcfCommand_runs hu hd ((Chip.abortStates_iff c).2 (by simp [h])) _).trans ?_
  simp only [he, h, Chip.startOp_kcf, Chip.dropXfer_kcf]

theorem kcfAbort_validating (h : c.kcfState = 3) : kcfAbort c = (c.startOp R.KCF_RESULT_VALID).kcfEnd 0 0x13 0xFF 0 := by
  refine (Chip.kcfCommand_runs hu hd ((Chip.abortStates_iff c).2 (by simp [h])) _).trans ?_
  simp only [he, h]

theorem kcfAbort_needsReset (h : c.kcfState = 5) : kcfAbort c =
    (((c.startOp R.KCF_RESULT_VALID).unmarkKilip c.kcf.persistSlot).set R.KCF_STATUS_NEEDS_RESET 0).kcfEnd 0 0x13 0xFF 0 := by
  refine (Chip.kcfCommand_runs hu hd ((Chip.abortStates_iff c).2 (by simp [h])) _).trans ?_
  simp only [he, h, Chip.startOp_kcf]

theorem kcfAbort_armed (h : c.kcfState = 6) (ha : c.on R.KCF_STATUS_AGREED = false) :
    kcfAbort c = (c.startOp R.KCF_RESULT_VALID).disarm 0 0x13 := by
  refine (Chip.kcfCommand_runs hu hd ((Chip.abortStates_iff c).2 (.inr ⟨h, ha⟩)) _).trans ?_
  simp only [he, h]

end

end

end Sys2Proof.Machine

namespace Sys2Proof
open Sys2Proof.Machine

/-- Settles O14: each command by the states of Table 2-15 that allow it. -/
theorem kcfCommandsAct : Obligations.KcfCommandsAct := by
  intro s hs c st refused e slot blank
  have hu := Chip.kcfUp_of_served hs
  refine ⟨fun hd => ⟨?_, ?_, ?_, ?_, ?_⟩, fun h => ?_, fun h => ?_, fun h => ?_, fun h => ?_, fun h => ?_,
    fun hd he => ⟨fun h hl => ⟨?_, fun hz => ?_, fun hz => ?_⟩, fun h => ?_, fun h hv => ?_, fun h i typ ofs hv hk => ?_, fun h i hv hk => ?_,
      fun h => ?_, fun h => ?_, fun h => ?_, fun h => ?_, fun h ha => ?_, fun h hp => ?_⟩⟩
  · exact Yields.served hs rfl rfl (kcfLoad_refused hu (.inl hd))
  · exact Yields.served hs rfl rfl (kcfValidate_refused hu (.inl hd))
  · exact Yields.served hs rfl rfl (kcfActivate_refused hu (.inl hd))
  · exact Yields.served hs rfl rfl (kcfAbort_refused hu (.inl hd))
  · exact Yields.served hs rfl rfl (kcfRetry_refused hu (.inl hd))
  · exact Yields.served hs rfl rfl (kcfLoad_refused hu (.inr h))
  · exact Yields.served hs rfl rfl (kcfValidate_refused hu (.inr h))
  · exact Yields.served hs rfl rfl (kcfActivate_refused hu (.inr h))
  · exact Yields.served hs rfl rfl (kcfAbort_refused hu (.inr h))
  · exact Yields.served hs rfl rfl (kcfRetry_refused hu (.inr h))
  · exact Chip.loadStarts_get c (by decide)
  · exact Yields.served hs rfl rfl (kcfLoad_misaligned hu hd h hl hz)
  · exact Yields.served hs rfl rfl (kcfLoad_reads hu hd h hl hz)
  · exact Yields.served hs rfl rfl (kcfValidate_begins hu hd h)
  · exact Yields.served hs rfl rfl (kcfActivate_noImage hu hd h hv)
  · exact Yields.served hs rfl rfl (kcfActivate_conflict hu hd h hv hk)
  · exact Yields.served hs rfl rfl (kcfActivate_persists hu hd h hv hk)
  · exact Yields.served hs rfl rfl (kcfAbort_persisting hu hd he h)
  · exact Yields.served hs rfl rfl (kcfAbort_loading hu hd he h)
  · exact Yields.served hs rfl rfl (kcfAbort_validating hu hd he h)
  · exact Yields.served hs rfl rfl (kcfAbort_needsReset hu hd he h)
  · exact Yields.served hs rfl rfl (kcfAbort_armed hu hd he h ha)
  · exact Yields.served hs rfl rfl (kcfRetry_begins hu hd h hp)

end Sys2Proof

/-! ### The ends of KCF's operations (R56 to R58, R62, R65) -/

namespace Sys2Proof.Machine

/-! #### KCF_LOAD_DONE and KCF_VALIDATE_DONE (R51, R56) -/

/-- The staged image is read from DRAM whatever transfers are under way. -/
theorem Chip.stagedBytes_dropXfer (c : Chip) (id : Nat) : (c.dropXfer id).stagedBytes = c.stagedBytes := rfl

theorem kcfLoadDone_idle {c : Chip} (h : c.kcfState ≠ 1) : kcfLoadDone c = c := by simp [kcfLoadDone, h]

/-- R56: a load whose every byte has arrived shows the serial of the staged image. -/
theorem kcfLoadDone_staged {c : Chip} (h : c.kcfState = 1) (hx : c.epc.xfers.any (fun x => x.id == c.kcf.loadXfer && x.left == 0) = true) :
    kcfLoadDone c = ((c.dropXfer c.kcf.loadXfer).set R.KCF_SERIAL_STAGED_SERIAL (numAt c.stagedBytes 0x10 8)).kcfEnd 2 0 0xFF 0 := by
  simp only [kcfLoadDone, h, hx, Chip.endLoad, Chip.stagedBytes_dropXfer, decide_true, Bool.and_self, if_true]

theorem kcfValidateDone_idle {c : Chip} (h : c.kcfState ≠ 3) : kcfValidateDone c = c := if_pos h

theorem kcfValidateDone_passes {c : Chip} (h : c.kcfState = 3) {i : ImageData} (hi : c.checkImage c.stagedBytes c.kcf.stagedLen = .ok i) :
    kcfValidateDone c = ({ c with kcf := { c.kcf with valid := some i } } : Chip).kcfEnd 4 0 0xFF 0 := by
  simp [kcfValidateDone, h, hi]

theorem kcfValidateDone_fails {c : Chip} (h : c.kcfState = 3) {code sec ofs : Nat}
    (hi : c.checkImage c.stagedBytes c.kcf.stagedLen = .error (code, sec, ofs)) : kcfValidateDone c = c.kcfEnd 8 code sec ofs := by
  simp [kcfValidateDone, h, hi]

/-! #### KCF_PERSIST_DONE (R57, R58, R549) -/

/-- The chip with the boot flash's write over and the staged image in its slot. -/
def Chip.persisted (c : Chip) : Chip := (c.set R.BOOT_STATUS_WRITING 0).persistStaged

/-- The chip with the boot flash's write over, and failed. -/
def Chip.persistFailed (c : Chip) : Chip := (c.set R.BOOT_STATUS_WRITING 0).event 0x381 0 0 0 0 0

/-- R549: where no commit waits when the persist has ended, nothing else follows. -/
theorem kcfPersistDone_alone {c d : Chip} {ok : Bool} (h : persistDone ok c = d) (hw : d.boot.commitWaiting = none) :
    kcfPersistDone ok c = d := by
  simp [kcfPersistDone, h, hw]

section
variable {c : Chip} (h : c.kcfState = 9) (hb : c.boot.writer = none)
include h hb

theorem persistDone_failed (ha : c.persistFailed.kcf.abortPending = false) : persistDone false c = c.persistFailed.kcfEnd 8 0x14 0xFF 0 := by
  have hfailed : (c.set R.BOOT_STATUS_WRITING 0).event 0x381 0 0 0 0 0 = c.persistFailed := rfl
  simp [persistDone, h, hb, hfailed, ha]

variable (ha : c.persisted.kcf.abortPending = false) {i : ImageData} (hv : c.persisted.kcf.valid = some i)
include ha hv

/-- R57: an image that can activate live is armed; any other waits for a reset, its slot marked. -/
theorem persistDone_image : persistDone true c = if c.persisted.liveOnly i then c.persisted.armLive
    else ((c.persisted.markKilip c.persisted.kcf.persistSlot).set R.KCF_STATUS_NEEDS_RESET 1).kcfEnd 5 0 0xFF 0 := by
  have hkept : (c.set R.BOOT_STATUS_WRITING 0).persistStaged = c.persisted := rfl
  simp [persistDone, h, hb, hkept, ha, hv]

end

/-! #### KCF_ACT_TIMEOUT (R62) -/

theorem kcfActTimeout_early {c : Chip} (h : c.kcfState ≠ 6 ∨ c.now < c.kcf.armedAt + c.kcf.actTmo * 1000) : kcfActTimeout c = c := by
  rcases h with h | h
  · simp [kcfActTimeout, h]
  · simp [kcfActTimeout, not_le.2 h]

/-- R62: an armed image not agreed in its time is disarmed. -/
theorem kcfActTimeout_disarms {c : Chip} (h : c.kcfState = 6) (ha : c.on R.KCF_STATUS_AGREED = false)
    (he : c.get R.KCF_ACT_EPOCH_EPOCH = 0) (ht : c.kcf.armedAt + c.kcf.actTmo * 1000 ≤ c.now) : kcfActTimeout c = c.disarm 4 0xF := by
  simp [kcfActTimeout, h, ha, he, ht]

/-! #### CLUSTER_DRAINED and KCF_QUIESCE_TIMEOUT (R65, R455, R502) -/

section
variable {c : Chip} {n : Nat} (ok : Bool)

theorem clusterDrained_busy (h : c.clusterBusy n = true) : clusterDrained n ok c = c.startDusk := by
  simp [clusterDrained, passDrained, h]

theorem clusterDrained_taken (h : c.clusterBusy n = false) (hd : c.kcf.draining = some n) :
    clusterDrained n ok c = (c.takeCluster n ok).startDusk := by
  simp [clusterDrained, passDrained, h, hd]

theorem clusterDrained_offline (h : c.clusterBusy n = false) (hd : c.kcf.draining ≠ some n) (ho : (c.clusAt n).hostDrain = true) :
    clusterDrained n ok c = (c.goOffline n).startDusk := by
  simp [clusterDrained, passDrained, h, hd, ho]

theorem kcfQuiesceTimeout_early (h : c.now < (c.clusAt n).drainAt + (c.clusAt n).drainTmo * 1000) :
    kcfQuiesceTimeout n ok c = c.startDusk := by
  simp [kcfQuiesceTimeout, passTimeout, h]

theorem kcfQuiesceTimeout_taken (h : (c.clusAt n).drainAt + (c.clusAt n).drainTmo * 1000 ≤ c.now) (hd : c.kcf.draining = some n) :
    kcfQuiesceTimeout n ok c = (c.takeCluster n ok).startDusk := by
  simp [kcfQuiesceTimeout, passTimeout, not_lt.2 h, hd]

theorem kcfQuiesceTimeout_offline (h : (c.clusAt n).drainAt + (c.clusAt n).drainTmo * 1000 ≤ c.now) (hd : c.kcf.draining ≠ some n)
    (ho : (c.clusAt n).hostDrain = true) : kcfQuiesceTimeout n ok c = (c.goOffline n).startDusk := by
  simp [kcfQuiesceTimeout, passTimeout, not_lt.2 h, hd, ho]

end

end Sys2Proof.Machine

namespace Sys2Proof
open Sys2Proof.Machine

/-- Settles O15: each end by the state it is met in, and by what the image or the cluster is. -/
theorem kcfStepsComplete : Obligations.KcfStepsComplete := by
  intro s ha c st
  refine ⟨fun h hx => ?_, fun h => ?_, fun h i hi => ?_, fun h code sec ofs hi => ?_, fun h => ?_,
    fun h hb hw hp => ⟨fun _ hq ht => ?_, fun hq i hv hl => ?_, fun hq i hv hl ht => ?_⟩, fun h hg he ht => ?_, fun h => ?_,
    fun n ok hn => ⟨fun h hd => ?_, fun h hd ho => ?_, fun h => ?_, fun h => ⟨fun hd => ?_, fun hd ho => ?_⟩, fun h => ?_⟩⟩
  · exact Yields.awake ha rfl rfl (kcfLoadDone_staged h hx)
  · exact Yields.awake ha rfl rfl (kcfLoadDone_idle h)
  · exact Yields.awake ha rfl rfl (kcfValidateDone_passes h hi)
  · exact Yields.awake ha rfl rfl (kcfValidateDone_fails h hi)
  · exact Yields.awake ha rfl rfl (kcfValidateDone_idle h)
  · exact Yields.awake ha rfl rfl (kcfPersistDone_alone (persistDone_failed h hb hq) ht)
  · intro t ht
    exact Yields.awake ha rfl rfl (kcfPersistDone_alone ((persistDone_image h hb hq hv).trans (if_neg (ne_true_of_eq_false hl))) ht)
  · exact Yields.awake ha rfl rfl (kcfPersistDone_alone ((persistDone_image h hb hq hv).trans (if_pos hl)) ht)
  · exact Yields.awake ha rfl rfl (kcfActTimeout_disarms h hg he ht)
  · exact Yields.awake ha rfl rfl (kcfActTimeout_early h)
  · exact Yields.awake ha rfl (decide_eq_true hn) (clusterDrained_taken ok h hd)
  · exact Yields.awake ha rfl (decide_eq_true hn) (clusterDrained_offline ok h hd ho)
  · exact Yields.awake ha rfl (decide_eq_true hn) (clusterDrained_busy ok h)
  · exact Yields.awake ha rfl (decide_eq_true hn) (kcfQuiesceTimeout_taken ok h hd)
  · exact Yields.awake ha rfl (decide_eq_true hn) (kcfQuiesceTimeout_offline ok h hd ho)
  · exact Yields.awake ha rfl (decide_eq_true hn) (kcfQuiesceTimeout_early ok h)

end Sys2Proof

/-! ### Dusk and the wake sources (R498 to R508) -/

namespace Sys2Proof.Machine

/-! #### DUSK, CANCEL and the hostless time (R501, R502, R505) -/

/-- The chip with a Dusk wanted. -/
def Chip.duskWanted (c : Chip) : Chip := { c with pwr := { c.pwr with duskHeld := true } }

theorem pwrDusk_begins {c : Chip} (h : c.isDay = true) : pwrDusk c = (c.duskWanted.startOp R.PWR_RESULT_VALID).startDusk := by
  simp [pwrDusk, h, Chip.duskWanted]

theorem pwrDusk_refused {c : Chip} (h : c.isDay = false) : pwrDusk c = c.pwrRefuse := by simp [pwrDusk, h]

theorem pwrCancel_phase1 {c : Chip} (hm : c.pwr.mode = .dusk) (h : c.get R.PWR_STATUS_PHASE = 1) :
    pwrCancel c = (c.startOp R.PWR_RESULT_VALID).backToDay.pwrEnd 1 := by
  simp [pwrCancel, hm, h]

theorem pwrCancel_phase5 {c : Chip} (hm : c.pwr.mode = .dusk) (h : c.get R.PWR_STATUS_PHASE = 5) :
    pwrCancel c = (({ c with pwr := { c.pwr with mode := .dawn, dawnStep := 6, cancelled := true } } : Chip).startOp
      R.PWR_RESULT_VALID).set R.PWR_STATUS_PHASE 0 := by
  simp [pwrCancel, hm, h]

theorem pwrCancel_refused {c : Chip} (h : c.pwr.mode ≠ .dusk ∨ c.get R.PWR_STATUS_PHASE ∉ [1, 5]) : pwrCancel c = c.pwrRefuse := by
  by_cases hm : c.pwr.mode = .dusk
  · obtain ⟨h1, h5⟩ : c.get R.PWR_STATUS_PHASE ≠ 1 ∧ c.get R.PWR_STATUS_PHASE ≠ 5 := by simpa [hm] using h
    simp [pwrCancel, hm, h1, h5]
  · simp [pwrCancel, hm]

/-- Whether the hostless time has passed since the link was lost. -/
def Chip.hostlessDue (c : Chip) : Bool :=
  c.pwr.hostLostAt.any (fun t => decide (t + c.get R.PWR_CTRL_HOSTLESS_S * 1000000000 ≤ c.now))

theorem Chip.hostlessDue_iff {c : Chip} {t : Nat} (h : c.pwr.hostLostAt = some t) :
    c.hostlessDue = true ↔ t + c.get R.PWR_CTRL_HOSTLESS_S * 1000000000 ≤ c.now := by
  rw [Chip.hostlessDue, h, Option.any_some, decide_eq_true_iff]

/-- R501: the hostless time begins a Dusk in Day alone, where it is set and has passed. -/
theorem hostlessTimeout_eq (c : Chip) : hostlessTimeout c =
    if c.isDay && c.get R.PWR_CTRL_HOSTLESS_S != 0 && c.hostlessDue then c.duskWanted.startDusk else c := rfl

theorem hostlessTimeout_off {c : Chip} (h : c.isDay = false ∨ c.get R.PWR_CTRL_HOSTLESS_S = 0 ∨ c.pwr.hostLostAt = none) :
    hostlessTimeout c = c := by
  rw [hostlessTimeout_eq]
  rcases h with h | h | h
  · simp [h]
  · simp [h]
  · simp [Chip.hostlessDue, h]

section
variable {c : Chip} {t : Nat} (h : c.pwr.hostLostAt = some t)
include h

theorem hostlessTimeout_early (ht : c.now < t + c.get R.PWR_CTRL_HOSTLESS_S * 1000000000) : hostlessTimeout c = c := by
  have hdue : c.hostlessDue = false := Bool.not_eq_true _ ▸ mt (Chip.hostlessDue_iff h).1 (not_le.2 ht)
  simp [hostlessTimeout_eq, hdue]

theorem hostlessTimeout_begins (hd : c.isDay = true) (hs : c.get R.PWR_CTRL_HOSTLESS_S ≠ 0)
    (ht : t + c.get R.PWR_CTRL_HOSTLESS_S * 1000000000 ≤ c.now) : hostlessTimeout c = c.duskWanted.startDusk := by
  simp [hostlessTimeout_eq, hd, hs, (Chip.hostlessDue_iff h).2 ht]

end

/-! #### The phases of Dusk (R503, R504) -/

/-- Whether a transfer fetches the entry of a command. -/
def Purpose.fetchesEntry : Purpose → Bool
  | .entryFetch .. => true
  | _ => false

/-- Whether a fetched command other than an Asynchronous Event Request, or a fetch, is outstanding. -/
def Chip.draining (c : Chip) : Bool :=
  c.nvm.inflight.any (fun i => i.opc != 0x0C || !i.admin) || c.epc.xfers.any (fun x => x.purpose.fetchesEntry)

theorem Purpose.not_fetchesEntry_iff (p : Purpose) : p.fetchesEntry = false ↔ match p with
    | .entryFetch .. => False
    | _ => True := by
  cases p <;> simp [Purpose.fetchesEntry]

theorem Chip.not_draining_iff (c : Chip) : c.draining = false ↔
    (∀ i ∈ c.nvm.inflight, i.opc = 0x0C ∧ i.admin = true) ∧ ∀ x ∈ c.epc.xfers, match x.purpose with
      | .entryFetch .. => False
      | _ => True := by
  simp only [Chip.draining, Bool.or_eq_false_iff, List.any_eq_false, Bool.not_eq_true, bne_eq_false_iff_eq, Bool.not_eq_false',
    Purpose.not_fetchesEntry_iff]

/-- Phase 1 over: segments and stripes closed, and the epoch of Dusk kept. -/
def Chip.duskSealed (c : Chip) : Chip :=
  let d := c.closeSegs.ing.stripes.foldl (fun d os => d.sealStripe os os.strips) c.closeSegs
  ({ d with pwr := { d.pwr with duskEpoch := d.epoch } } : Chip).set R.PWR_STATUS_PHASE 2

theorem Chip.drainWaits_iff (c : Chip) :
    (decide (c.phase ≠ 1) || c.draining || decide (c.kcfState = 6) || decide (c.kcfState = 7)) = true ↔
      c.phase ≠ 1 ∨ c.draining = true ∨ c.kcfState = 6 ∨ c.kcfState = 7 := by
  simp [or_assoc]

theorem duskDrained_waits {c : Chip} (h : c.phase ≠ 1 ∨ c.draining = true ∨ c.kcfState = 6 ∨ c.kcfState = 7) : duskDrained c = c :=
  if_pos (c.drainWaits_iff.2 h)

theorem duskDrained_seals {c : Chip} (h : c.phase = 1) (hd : c.draining = false) (h6 : c.kcfState ≠ 6) (h7 : c.kcfState ≠ 7) :
    duskDrained c = c.duskSealed :=
  if_neg (mt c.drainWaits_iff.1 (by simp [h, hd, h6, h7]))

/-- R503: what phase 2 waits for: nothing exposed, the journal vaulted, and Dusk's Midnight done. -/
def Chip.flushedOut (c : Chip) : Prop :=
  (∀ w ∈ c.ing.writes, w.own = true → w.exposed = false) ∧ c.unvaulted = 0 ∧ c.closedAndDone c.pwr.duskEpoch = true

theorem Chip.flushWaits_iff (c : Chip) :
    (decide (c.phase ≠ 2) || c.ing.writes.any (fun w => w.own && w.exposed) || decide (0 < c.unvaulted) ||
      !c.closedAndDone c.pwr.duskEpoch) = true ↔ c.phase ≠ 2 ∨ ¬ c.flushedOut := by
  rw [Chip.flushedOut, not_and_or, not_and_or]
  simp [or_assoc, Nat.pos_iff_ne_zero]

theorem duskFlushed_waits {c : Chip} (h : c.phase ≠ 2 ∨ ¬ c.flushedOut) : duskFlushed c = c := if_pos (c.flushWaits_iff.2 h)

theorem duskFlushed_hands {c : Chip} (h : c.phase = 2) (hf : c.flushedOut) :
    duskFlushed c = (c.set R.PWR_STATUS_PHASE 3).beginHandover :=
  if_neg (fun hw => (c.flushWaits_iff.1 hw).elim (not_not.2 h) (not_not.2 hf))

theorem duskHandedOver_waits {c : Chip} (h : c.phase ≠ 3) : duskHandedOver c = c := if_pos h

/-- R503: a head with a peer departs once it owns no string; one alone is done once no shelf is awake. -/
theorem duskHandedOver_hands {c : Chip} (h : c.phase = 3) : duskHandedOver c =
    if c.peerIn then if c.ownedStrings = 0 then c.departed.set R.PWR_STATUS_PHASE 4 else c.beginHandover
    else if c.get R.FTM_STATUS_AWAKE = 0 then c.set R.PWR_STATUS_PHASE 4
    else c.beginHandover := if_neg (not_not.2 h)

/-- The chip with the vault marked closed, its strings given up, and Dusk ended with its result (R503). -/
def Chip.duskEnds (c : Chip) : Chip :=
  let d : Chip := { c with ing := { c.ing with vault := { mark := .closed } } }
  ((((List.range 16).filter d.ownsStr).foldl (fun d k => d.disownString k) d).set R.PWR_STATUS_PHASE 5).pwrEnd 0

theorem duskClosed_waits {c : Chip} (h : c.phase ≠ 4) : duskClosed c = c := if_pos h

/-- R504: Night follows where the link is not up. -/
theorem duskClosed_ends {c : Chip} (h : c.phase = 4) :
    duskClosed c = if c.duskEnds.epc.link = .l0 then c.duskEnds else c.duskEnds.enterNight := if_neg (not_not.2 h)

/-! #### The wake sources (R498, R508, R614) -/

theorem i3cPrivateWrite_wakes {c : Chip} (h : c.pwr.i3c ≠ none) : i3cPrivateWrite c = c.wake 5 0 :=
  if_pos (Option.isSome_iff_ne_none.2 h)

theorem i3cPrivateWrite_unaddressed {c : Chip} (h : c.pwr.i3c = none) : i3cPrivateWrite c = c := by simp [i3cPrivateWrite, h]

theorem nightWakeTimer_unset {c : Chip} (h : c.pwr.nwClocks = none) : nightWakeTimer c = c := by simp [nightWakeTimer, h]

section
variable {c : Chip} {k : Clocks} {x y : Nat} (h : c.pwr.nwClocks = some (k, x, y))
include h

theorem nightWakeTimer_due (hd : c.pwr.mode = .night ∧ k.nightWake ≠ 0 ∧ c.pwr.nightAt + k.nightWake * 1000000000 ≤ c.now) :
    nightWakeTimer c = c.wake 4 0 := by
  obtain ⟨hm, h0, ht⟩ := hd
  simp [nightWakeTimer, h, hm, h0, ht]

theorem nightWakeTimer_early (hd : ¬ (c.pwr.mode = .night ∧ k.nightWake ≠ 0 ∧ c.pwr.nightAt + k.nightWake * 1000000000 ≤ c.now)) :
    nightWakeTimer c = c := by
  simp only [nightWakeTimer, h]
  refine if_neg (fun hx => hd ?_)
  simpa [and_assoc] using hx

end

/-- R508: a clocked head's sensors are not the Nightwatch's to check. -/
theorem nightwatchSensorCheck_awake {c : Chip} (h : c.awake = true) (t : Int) : nightwatchSensorCheck t c = c := if_pos h

/-- The chip with the highest temperature that the Nightwatch has found. -/
def Chip.sensed (c : Chip) (t : Int) : Chip := { c with pwr := { c.pwr with highest := t } }

section
variable {c : Chip} (h : c.awake = false) {t : Int}
include h

theorem nightwatchSensorCheck_holds (hw : c.pwr.wakeHeld = false ∨ t < -40) : nightwatchSensorCheck t c = c.sensed t := by
  rcases hw with hw | hw <;> simp [nightwatchSensorCheck, Chip.sensed, h, hw]

variable (hw : c.pwr.wakeHeld = true) (ht : -40 ≤ t)
include hw ht

/-- R508: a Dawn that the cold held begins once the die is warm enough: after a cold reset a cold one. -/
theorem nightwatchSensorCheck_cold (hm : c.pwr.mode = .coldReset) : nightwatchSensorCheck t c = (c.sensed t).beginDawn true := by
  simp [nightwatchSensorCheck, Chip.sensed, h, hw, not_lt.2 ht, hm]

/-- R498, R508: from Night the Dawn begins as the wake that is recorded would have: the link trains unless PERST# is low, and a source of the head's
own wakes the other. -/
theorem nightwatchSensorCheck_dawns (hm : c.pwr.mode ≠ .coldReset) :
    let d := c.sensed t
    let own := c.get R.PWR_WAKE_CAUSE_CAUSE / 4 ≠ 0 ∧ c.bit R.PWR_WAKE_CAUSE_CAUSE 0 = false ∧ c.bit R.PWR_WAKE_CAUSE_CAUSE 1 = false
    nightwatchSensorCheck t c = ((({ d with epc := { d.epc with link := if c.epc.perstLow then .down else .training } } : Chip).driveWake
      (if own then 2 else 0)).beginDawn false) := by
  intro d own
  have hown : (if c.get R.PWR_WAKE_CAUSE_CAUSE / 4 != 0 && !c.bit R.PWR_WAKE_CAUSE_CAUSE 0 && !c.bit R.PWR_WAKE_CAUSE_CAUSE 1 then 2 else 0) =
      if own then 2 else 0 := if_congr (by simp [own, and_assoc]) rfl rfl
  rw [← hown]
  exact (if_neg (by simp [h])).trans ((if_neg (by simp [hw, not_lt.2 ht])).trans (if_neg hm))

end

end Sys2Proof.Machine

namespace Sys2Proof
open Sys2Proof.Machine

/-- Settles O44: each command by the power state, the phase and what is left to do. -/
theorem duskProceeds : Obligations.DuskProceeds := by
  intro s c p held refuse
  refine ⟨fun hs => ⟨fun h => ?_, fun h => ?_, fun hm h => ?_, fun hm h => ?_, fun h => ?_⟩,
    fun ha => ⟨⟨fun h => ?_, fun t h hd hz => ⟨fun ht => ?_, fun ht => ?_⟩⟩, ⟨fun h => ?_, fun h hi h6 h7 => ?_⟩,
      ⟨fun h => ?_, fun h hf => ?_⟩, fun h => ?_, fun h => ⟨fun hp h0 => ?_, fun hp h0 => ?_, fun hp h0 => ?_, fun hp h0 => ?_⟩, fun h => ?_, fun h => ?_, fun a => ?_, fun t => ?_⟩,
    ?_, ?_, fun k hk => ?_, fun h => ?_, fun h => ?_, fun h => ?_, fun k x y h => ⟨fun hd => ?_, fun hd => ?_⟩,
    fun ha t => ⟨fun hw => ?_, fun hw ht hm => ?_, fun hw ht hm => ?_⟩⟩
  · exact Yields.served hs rfl rfl (pwrDusk_begins h)
  · exact Yields.served hs rfl rfl (pwrDusk_refused h)
  · exact Yields.served hs rfl rfl (pwrCancel_phase1 hm h)
  · exact Yields.served hs rfl rfl (pwrCancel_phase5 hm h)
  · exact Yields.served hs rfl rfl (pwrCancel_refused h)
  · exact Yields.awake ha rfl rfl (hostlessTimeout_off h)
  · exact Yields.awake ha rfl rfl (hostlessTimeout_begins h hd hz ht)
  · exact Yields.awake ha rfl rfl (hostlessTimeout_early h ht)
  · refine Yields.awake ha rfl rfl (duskDrained_waits (h.imp_right (Or.imp_left (fun hi => ?_))))
    exact Bool.not_eq_false _ ▸ mt c.not_draining_iff.1 hi
  · exact Yields.awake ha rfl rfl (duskDrained_seals h (c.not_draining_iff.2 hi) h6 h7)
  · exact Yields.awake ha rfl rfl (duskFlushed_waits h)
  · exact Yields.awake ha rfl rfl (duskFlushed_hands h hf)
  · exact Yields.awake ha rfl rfl (duskHandedOver_waits h)
  · exact Yields.awake ha rfl rfl ((duskHandedOver_hands h).trans ((if_pos hp).trans (if_pos h0)))
  · exact Yields.awake ha rfl rfl ((duskHandedOver_hands h).trans ((if_pos hp).trans (if_neg h0)))
  · exact Yields.awake ha rfl rfl ((duskHandedOver_hands h).trans ((if_neg (ne_true_of_eq_false hp)).trans (if_pos h0)))
  · exact Yields.awake ha rfl rfl ((duskHandedOver_hands h).trans ((if_neg (ne_true_of_eq_false hp)).trans (if_neg h0)))
  · exact Yields.awake ha rfl rfl (duskClosed_waits h)
  · exact Yields.awake ha rfl rfl (duskClosed_ends h)
  · exact Yields.awake ha rfl rfl rfl
  · exact Yields.run rfl rfl (nightwatchSensorCheck_awake ha t)
  · exact Yields.run rfl rfl rfl
  · exact Yields.run rfl rfl rfl
  · exact Yields.run rfl (decide_eq_true hk) rfl
  · exact Yields.run rfl rfl (i3cPrivateWrite_wakes h)
  · exact Yields.run rfl rfl (i3cPrivateWrite_unaddressed h)
  · exact Yields.run rfl rfl (nightWakeTimer_unset h)
  · exact Yields.run rfl rfl (nightWakeTimer_due h hd)
  · exact Yields.run rfl rfl (nightWakeTimer_early h hd)
  · exact Yields.run rfl rfl (nightwatchSensorCheck_holds ha hw)
  · exact Yields.run rfl rfl (nightwatchSensorCheck_cold ha hw ht hm)
  · exact Yields.run rfl rfl (nightwatchSensorCheck_dawns ha hw ht hm)

end Sys2Proof

/-! ### I/O commands (R121, R129, R132, R142 to R145, R174) -/

namespace Sys2Proof.Machine

theorem elim_of_eq_none {α β : Type} {o : Option α} (h : o = none) (b : β) (f : α → β) : o.elim b f = b := h ▸ rfl

theorem elim_of_eq_some {α β : Type} {o : Option α} {x : α} (h : o = some x) (b : β) (f : α → β) : o.elim b f = f x := h ▸ rfl

/-! #### WRITE -/

/-- A Write of `nlb` blocks put in granule `g` and recorded, and the look-up of its buffer; `n` is its namespace (R142, R144). -/
def Chip.writeBuffered (u : Chip) (id : CmdId) (nsid slba nlb : Nat) (form : CmdForm) (pr : PrInfo) (n : Namespace) (g : Nat) :
    Chip × Option (Except Status HostBuf) :=
  let bytes := nlb * blockStride n pr.pract
  let meta_ := sepMeta n pr.pract nlb
  let d := u.newWid.1
  let base := d.wbBase + g * 0x400000 + (d.granule g).used
  let w := { mkWrite u.newWid.2 id nsid slba nlb base bytes meta_ n pr (d.slot n.keySlot).gen false false with
    mirrored := !d.peerIn && d.on R.GLB_STATUS_SOLE }
  let d := d.modGranule g (fun x => { x with used := x.used + bytes + meta_, live := x.live + bytes + meta_ })
  let d : Chip := { d with ing := { d.ing with writes := d.ing.writes ++ [w], ownUsed := d.ing.ownUsed + bytes + meta_ } }
  let d := d.modFlight id (fun i => { i with running := true, started := true, bytes := nlb * 4096 })
  d.lookup id form bytes meta_ .write

/-- What a Write does that no check refuses: it completes where its class or index is full, asks for granules where none is free, and is buffered
otherwise (R142 to R144). -/
def Chip.writeChecked (u : Chip) (id : CmdId) (nsid slba nlb : Nat) (form : CmdForm) (pr : PrInfo) (n : Namespace) : Chip :=
  let bytes := nlb * blockStride n pr.pract + sepMeta n pr.pract nlb
  if !u.hasSpace n.cls (nlb * 4096) || !u.indexHasSpace nsid slba nlb then u.finish id ⟨0, 0x81, true⟩
  else (u.findGranule id.fn bytes).elim (u.askReserve id.fn bytes).askGranules (fun g =>
    let p := u.writeBuffered id nsid slba nlb form pr n g
    (p.2.elim p.1 (p.1.fetchData id)).askGranules)

section
variable {s : State} {id : CmdId} {i : Inflight} (h : Fetching s id false 0x01 i) (nsid slba nlb : Nat) (form : CmdForm) (pr : PrInfo)
include h

/-- R121, R165: the order of what withholds a Write, leaves it or refuses it. -/
theorem write_fetched :
    let u := s.chip.unblockClasses
    let n := s.chip.nsOf nsid
    write id nsid slba nlb form pr s.chip =
      if u.withheld || u.writesHeld then u
      else if u.classShut id.fn nsid then u.classBlocked n.cls
      else (u.ioCheck id nsid slba nlb (badForm form (nlb * blockStride n pr.pract) || badIlbrt n pr slba) true).elim
        (u.writeChecked id nsid slba nlb form pr n) (u.finish id) := by
  obtain ⟨-, -, hf, -, hp⟩ := h
  unfold write
  rw [hf]
  refine (Chip.underSections_now hp _).trans (if_congr Iff.rfl rfl (if_congr Iff.rfl rfl ?_))
  cases s.chip.unblockClasses.ioCheck id nsid slba nlb
      (badForm form (nlb * blockStride (s.chip.nsOf nsid) pr.pract) || badIlbrt (s.chip.nsOf nsid) pr slba) true with
  | some st => rfl
  | none =>
    refine if_congr Iff.rfl rfl ?_
    cases s.chip.unblockClasses.findGranule id.fn (nlb * blockStride (s.chip.nsOf nsid) pr.pract + sepMeta (s.chip.nsOf nsid) pr.pract nlb) with
    | none => rfl
    | some g =>
      refine congrArg Chip.askGranules ?_
      let p := s.chip.unblockClasses.writeBuffered id nsid slba nlb form pr (s.chip.nsOf nsid) g
      change (match p.2 with | none => p.1 | some res => p.1.fetchData id res) = p.2.elim p.1 (p.1.fetchData id)
      cases p.2 <;> rfl

end

section
variable {u : Chip} {id : CmdId} {nsid slba nlb : Nat} {form : CmdForm} {pr : PrInfo} {n : Namespace}

/-- R144, R618: a Write that its class or its index has no room for completes with Capacity Exceeded. -/
theorem Chip.writeChecked_full (h : (u.hasSpace n.cls (nlb * 4096) && u.indexHasSpace nsid slba nlb) = false) :
    u.writeChecked id nsid slba nlb form pr n = u.finish id ⟨0, 0x81, true⟩ :=
  if_pos (by rw [← Bool.not_and, h]; rfl)

variable (h : (u.hasSpace n.cls (nlb * 4096) && u.indexHasSpace nsid slba nlb) = true)
include h

theorem Chip.writeChecked_room : u.writeChecked id nsid slba nlb form pr n =
    (u.findGranule id.fn (nlb * blockStride n pr.pract + sepMeta n pr.pract nlb)).elim
      (u.askReserve id.fn (nlb * blockStride n pr.pract + sepMeta n pr.pract nlb)).askGranules (fun g =>
        let p := u.writeBuffered id nsid slba nlb form pr n g
        (p.2.elim p.1 (p.1.fetchData id)).askGranules) :=
  if_neg (by rw [← Bool.not_and, h]; decide)

end

/-! #### WRITE_DATA_ARRIVED -/

theorem writeDataArrived_none {c : Chip} {id : CmdId}
    (h : c.ing.writes.find? (fun w => w.id == id && w.own && w.arrived && !w.passed && !w.zeroes) = none) : writeDataArrived id c = c := by
  simp only [writeDataArrived, h]

section
variable {c : Chip} {id : CmdId} {w : WrBuf}
  (h : c.ing.writes.find? (fun w => w.id == id && w.own && w.arrived && !w.passed && !w.zeroes) = some w)
include h

/-- R153: a write whose scan fails is taken out of its segments and discarded. -/
theorem writeDataArrived_fails {k sc : Nat} (hs : c.scanWrite (c.nsOf w.nsid) w = some (k, sc)) :
    writeDataArrived id c = ((c.unscan w).discardWrite w.wid).finish w.id ⟨2, sc, true⟩ := by
  simp only [writeDataArrived, h, hs]
  rfl

/-- R145, R158: a write whose scan passes is marked, chunked, mirrored and completed as R145 allows. -/
theorem writeDataArrived_passes (hs : c.scanWrite (c.nsOf w.nsid) w = none) :
    let d := (c.modWr w.wid (fun w => { w with passed := true })).scanBlocks (c.nsOf w.nsid) w
    writeDataArrived id c = (if w.mirrored then d else
      d.peerSend 2 0 (.mirrorEnd w.wid w.fn w.nsid w.slba w.nlb (w.bytes + w.metaBytes))).completeWrites := by
  simp only [writeDataArrived, h, hs]

end

/-! #### READ and VERIFY -/

/-- Whether a block's data lies elsewhere than in a buffered write. -/
def BlockSrc.unbuffered : BlockSrc → Bool
  | .buffer _ => false
  | _ => true

theorem BlockSrc.unbuffered_eq_false {x : BlockSrc} : x.unbuffered = false ↔ ∃ wid, x = .buffer wid := by
  cases x <;> simp [BlockSrc.unbuffered]

/-- A Read or Verify that has begun, with its blocks' sources `srcs`. -/
def Chip.readCmd (d : Chip) (id : CmdId) (nsid slba nlb : Nat) (form : CmdForm) (pr : PrInfo) (ver : Bool) : ReadCmd :=
  ⟨id, nsid, slba, nlb, pr, ver, form, (List.range nlb).map (fun j => d.sourceOf nsid (slba + j)), none, d.now, [], false⟩

/-- What a Read or Verify that no check refuses does: it begins, or its map walk is asked of the home head (R197). -/
def Chip.readChecked (d : Chip) (n : Namespace) (r : ReadCmd) : Chip :=
  if d.walksElsewhere n && r.srcs.any BlockSrc.unbuffered then
    ({ d with ing := { d.ing with reads := d.ing.reads ++ [{ r with srcs := [] }] } } : Chip).peerAsk (.walk (.request r.nsid r.slba r.nlb))
  else d.beginRead r

theorem BlockSrc.any_unbuffered_eq_false {l : List BlockSrc} : l.any BlockSrc.unbuffered = false ↔ ∀ x ∈ l, ∃ wid, x = .buffer wid := by
  simp [List.any_eq_false, BlockSrc.unbuffered_eq_false]

theorem Chip.readChecked_begins {d : Chip} {n : Namespace} {r : ReadCmd}
    (h : d.walksElsewhere n = false ∨ ∀ x ∈ r.srcs, ∃ wid, x = .buffer wid) : d.readChecked n r = d.beginRead r := by
  refine if_neg ?_
  rcases h with h | h
  · simp [h]
  · simp [BlockSrc.any_unbuffered_eq_false.2 h]

/-- R197: on a Non-Optimized path the home head is asked for blocks that no buffered write holds. -/
theorem Chip.readChecked_asks {d : Chip} {n : Namespace} {r : ReadCmd} (hw : d.walksElsewhere n = true)
    (h : ¬ ∀ x ∈ r.srcs, ∃ wid, x = .buffer wid) : d.readChecked n r =
      ({ d with ing := { d.ing with reads := d.ing.reads ++ [{ r with srcs := [] }] } } : Chip).peerAsk
        (.walk (.request r.nsid r.slba r.nlb)) := by
  refine if_pos ?_
  rw [hw, Bool.true_and]
  exact Bool.not_eq_false _ ▸ mt BlockSrc.any_unbuffered_eq_false.1 h

/-- R135, R170, R195: what withholds the fetch of a Read or Verify. -/
theorem Chip.readStops_iff (c : Chip) (fn : Nat) :
    (c.ing.fetchStopped || c.nvm.suspended || c.nvm.hold == .reads || !c.on (R.CFG_COMMAND_BME fn)) = true ↔
      c.ing.fetchStopped = true ∨ c.nvm.suspended = true ∨ c.nvm.hold = .reads ∨ c.on (R.CFG_COMMAND_BME fn) = false := by
  simp [or_assoc]

/-- R121, R174: the order of what withholds a Read or Verify or refuses it. -/
theorem Chip.readOrVerify_eq (c : Chip) (id : CmdId) (nsid slba nlb : Nat) (form : CmdForm) (pr : PrInfo) (ver : Bool) :
    let n := c.nsOf nsid
    let d := c.modFlight id (fun i => { i with running := true, bytes := nlb * 4096 })
    c.readOrVerify id nsid slba nlb form pr ver =
      if c.ing.fetchStopped || c.nvm.suspended || c.nvm.hold == .reads || !c.on (R.CFG_COMMAND_BME id.fn) then c
      else (c.ioCheck id nsid slba nlb (badForm form (if ver then 0 else nlb * blockStride n pr.pract)) true).elim
        (d.readChecked n (d.readCmd id nsid slba nlb form pr ver)) (c.finish id) := by
  refine if_congr Iff.rfl rfl ?_
  cases c.ioCheck id nsid slba nlb (badForm form (if ver then 0 else nlb * blockStride (c.nsOf nsid) pr.pract)) true <;> rfl

theorem read_fetched {s : State} {id : CmdId} {i : Inflight} (h : Fetching s id false 0x02 i) (nsid slba nlb : Nat) (form : CmdForm) (pr : PrInfo) :
    read id nsid slba nlb form pr s.chip = s.chip.readOrVerify id nsid slba nlb form pr false := by
  obtain ⟨-, -, hf, -, hp⟩ := h
  unfold read
  rw [hf]
  exact Chip.underSections_now hp _

theorem verify_fetched {s : State} {id : CmdId} {i : Inflight} (h : Fetching s id false 0x0C i) (nsid slba nlb : Nat) (form : CmdForm) (pr : PrInfo) :
    verify id nsid slba nlb form pr s.chip = s.chip.readOrVerify id nsid slba nlb form pr true := by
  obtain ⟨-, -, hf, -, hp⟩ := h
  unfold verify
  rw [hf]
  exact Chip.underSections_now hp _

/-! #### WRITE_ZEROES -/

/-- What a Write Zeroes does that no check refuses (R129, R145). -/
def Chip.zeroesChecked (u : Chip) (id : CmdId) (nsid slba nlb : Nat) (deac : Bool) (pr : PrInfo) : Chip :=
  if !u.indexHasSpace nsid slba nlb then u.finish id ⟨0, 0x81, true⟩
  else ((u.modFlight id (fun i => { i with running := true, started := true })).recordRange id nsid slba nlb pr deac).completeWrites

theorem Chip.zeroesChecked_full {u : Chip} {nsid slba nlb : Nat} (h : u.indexHasSpace nsid slba nlb = false) (id : CmdId) (deac : Bool)
    (pr : PrInfo) :
    u.zeroesChecked id nsid slba nlb deac pr = u.finish id ⟨0, 0x81, true⟩ := by
  simp [Chip.zeroesChecked, h]

theorem Chip.zeroesChecked_room {u : Chip} {nsid slba nlb : Nat} (h : u.indexHasSpace nsid slba nlb = true) (id : CmdId) (deac : Bool)
    (pr : PrInfo) :
    u.zeroesChecked id nsid slba nlb deac pr =
      ((u.modFlight id (fun i => { i with running := true, started := true })).recordRange id nsid slba nlb pr deac).completeWrites := by
  simp [Chip.zeroesChecked, h]

/-- R129, R170: what withholds the fetch of a Write Zeroes. -/
theorem Chip.zeroesStop_iff (u : Chip) :
    (u.withheld || u.writesHeld || !u.ringOpen) = true ↔ u.withheld = true ∨ u.writesHeld = true ∨ u.ringOpen = false := by
  simp [or_assoc]

/-- R121, R165: the order of what withholds a Write Zeroes, leaves it or refuses it. -/
theorem writeZeroes_fetched {s : State} {id : CmdId} {i : Inflight} (h : Fetching s id false 0x08 i) (nsid slba nlb : Nat) (deac : Bool)
    (pr : PrInfo) :
    let u := s.chip.unblockClasses
    let n := s.chip.nsOf nsid
    writeZeroes id nsid slba nlb deac pr s.chip =
      if u.withheld || u.writesHeld || !u.ringOpen then u
      else if u.classShut id.fn nsid then u.classBlocked n.cls
      else (u.ioCheck id nsid slba nlb (decide (65536 < nlb) || badIlbrt n pr slba) true).elim
        (u.zeroesChecked id nsid slba nlb deac pr) (u.finish id) := by
  obtain ⟨-, -, hf, -, hp⟩ := h
  unfold writeZeroes
  rw [hf]
  refine (Chip.underSections_now hp _).trans (if_congr Iff.rfl rfl (if_congr Iff.rfl rfl ?_))
  cases s.chip.unblockClasses.ioCheck id nsid slba nlb (decide (65536 < nlb) || badIlbrt (s.chip.nsOf nsid) pr slba) true with
  | some st => rfl
  | none =>
    unfold Chip.zeroesChecked
    cases s.chip.unblockClasses.indexHasSpace nsid slba nlb <;> rfl

/-! #### DATASET_MANAGEMENT and FLUSH -/

theorem datasetManagement_withheld {c : Chip} (h : c.withheld = true ∨ c.ringOpen = false) (id : CmdId) (nsid : Nat) (ad : Bool) (nr : Nat) :
    datasetManagement id nsid ad nr c = c := by
  rcases h with h | h <;> simp [datasetManagement, h]

/-- The ranges of a Dataset Management recorded as deallocated, where it deallocates (R129). -/
def Chip.recordRanges (e : Chip) (id : CmdId) (nsid : Nat) (ranges : List (Nat × Nat)) : Chip :=
  (ranges.filter (fun r => decide (0 < r.2))).foldl (fun d r => d.recordRange ⟨id.fn, id.sq, 0x10000⟩ nsid r.1 r.2 ⟨true, 0, 0, 0, 0⟩ true) e

section
variable {s : State} {id : CmdId} {i : Inflight} {nsid nr : Nat} {ad : Bool} (hw : s.chip.withheld = false) (hr : s.chip.ringOpen = true)
include hw hr

theorem datasetManagement_ends (h : Bringing s id false 0x09 (16 * (nr + 1)) i) {st : Status}
    (hc : s.chip.ioCheck id nsid 0 0 (decide (256 ≤ nr)) true = some st) : datasetManagement id nsid ad nr s.chip = s.chip.finish id st :=
  (if_neg (by simp [hw, hr])).trans (h.ends (by simp only [hc, Option.map_some]) _)

theorem datasetManagement_brings (h : Bringing s id false 0x09 (16 * (nr + 1)) i) {slot : Nat}
    (hc : s.chip.ioCheck id nsid 0 0 (decide (256 ≤ nr)) true = none) (hs : s.chip.inputSlot = some slot) :
    datasetManagement id nsid ad nr s.chip = s.chip.beginInput id i (16 * (nr + 1)) slot :=
  (if_neg (by simp [hw, hr])).trans (h.begins (by omega) (by simp only [hc, Option.map_none]) hs _)

/-- R129: with its ranges in hand the command ends with the status of a check that fails, or once the ranges are recorded. -/
theorem datasetManagement_executes {slot : Nat} (h : Delivered s id false 0x09 i slot) :
    let e := s.chip.taken id
    let ranges := rangesOf (nr + 1) (s.chip.load (s.chip.inputBuf slot) (16 * (nr + 1)))
    datasetManagement id nsid ad nr s.chip =
      (e.ioCheck id nsid 0 (maxOf (ranges.map (fun r => r.1 + r.2))) (decide (256 ≤ nr)) true).elim
        (((if ad then e.recordRanges id nsid ranges else e).showRanges nsid).finish id ⟨0, 0, false⟩) (e.finish id) := by
  intro e ranges
  refine ((if_neg (by simp [hw, hr])).trans (h.executes _ _ _)).trans ?_
  change (match e.ioCheck id nsid 0 (maxOf (ranges.map (fun r => r.1 + r.2))) (decide (256 ≤ nr)) true with | some st => _ | none => _) = _
  cases e.ioCheck id nsid 0 (maxOf (ranges.map (fun r => r.1 + r.2))) (decide (256 ≤ nr)) true <;> rfl

end

/-- R132: a Flush ends with the status of the check that fails, or with Success. -/
theorem flush_fetched {s : State} {id : CmdId} {i : Inflight} (h : Fetching s id false 0x00 i) (nsid : Nat) :
    flush id nsid s.chip = s.chip.finish id ((s.chip.ioCheck id nsid 0 0 false false).getD ⟨0, 0, false⟩) := by
  obtain ⟨-, -, hf, -, hp⟩ := h
  unfold flush
  rw [hf]
  exact Chip.underSections_now hp _

/-- R63: a Flush fetched under earlier sections is judged by them, and the active image stands again after it. -/
theorem flush_underSections {c : Chip} {id : CmdId} {i : Inflight} {k : Nat} {old now : ImageData} (hf : c.fetched id false 0x00 = some i)
    (hp : c.kcf.prevs.find? (fun p => p.1 == i.sect) = some (k, old)) (ha : c.kcf.active = some now) (nsid : Nat) :
    let d : Chip := { c with kcf := { c.kcf with active := some (now.withSections old) } }
    let e := d.finish id ((d.ioCheck id nsid 0 0 false false).getD ⟨0, 0, false⟩)
    flush id nsid c = { e with kcf := { e.kcf with active := some now } } := by
  intro d e
  unfold flush
  rw [hf]
  dsimp only
  unfold Chip.underSections
  rw [hp, ha]
  rfl

end Sys2Proof.Machine

namespace Sys2Proof
open Sys2Proof.Machine

section
variable {r : Instr} {s : State} {id : CmdId} {admin : Bool} {opc : Nat} {i : Inflight} {f : Chip → Chip} {d : Chip}
  (hx : exec r s = s.runAwake id.wf f) (hd : f s.chip = d)
include hx hd

/-- A command that the controller has fetched. -/
theorem Yields.ofFetching (h : Fetching s id admin opc i) : Yields r s d := by
  obtain ⟨ha, hid, -, -, -⟩ := h
  exact Yields.awake ha hx (decide_eq_true hid) hd

/-- A command whose data the controller has. -/
theorem Yields.ofDelivered {slot : Nat} (h : Delivered s id admin opc i slot) : Yields r s d := by
  obtain ⟨ha, hid, -, -, -⟩ := h
  exact Yields.awake ha hx (decide_eq_true hid) hd

/-- A command whose data the controller has yet to ask for. -/
theorem Yields.ofBringing {bytes : Nat} (h : Bringing s id admin opc bytes i) : Yields r s d := by
  obtain ⟨hf, -, -⟩ := h
  exact Yields.ofFetching hx hd hf

end

/-- Settles O25: each command by what withholds it, the first check that fails, and what is free. -/
theorem hostCommandsComplete : Obligations.HostCommandsComplete := by
  intro s id i c run u
  refine ⟨fun h nsid slba nlb form pr => ?_, fun ha hid => ?_, fun nsid slba nlb form pr => ?_, fun h nsid slba nlb deac pr => ?_,
    fun nsid ad nr => ?_, fun h nsid => ?_, fun nsid k old now ha hid hf hp hn => ?_⟩
  · intro row n bytes meta_ checks room
    have writes {d : Chip} (hd) : Yields row s d :=
      Yields.ofFetching rfl ((write_fetched h nsid slba nlb form pr).trans hd) h
    refine ⟨fun hw => writes (if_pos (Bool.or_eq_true_iff.2 hw)), fun hw hh => ?_⟩
    replace writes {d : Chip} (hd) : Yields row s d :=
      writes ((if_neg (ne_true_of_eq_false (Bool.or_eq_false_iff.2 ⟨hw, hh⟩))).trans hd)
    refine ⟨fun hs => writes (if_pos hs), fun hs => ?_⟩
    replace writes {d : Chip} (hd) : Yields row s d := writes ((if_neg (ne_true_of_eq_false hs)).trans hd)
    refine ⟨fun st hc => writes (elim_of_eq_some hc _ _), fun hc hr => ?_, fun hc hr => ?_⟩
    · exact writes ((elim_of_eq_none hc _ _).trans (Chip.writeChecked_full hr))
    replace writes {d : Chip} (hd) : Yields row s d := writes ((elim_of_eq_none hc _ _).trans ((Chip.writeChecked_room hr).trans hd))
    refine ⟨fun hg => writes (elim_of_eq_none hg _ _), fun g hg => ?_⟩
    intro d base w d1 d2 d3 p
    refine ⟨fun hp => ?_, fun res hp => ?_⟩
    · exact writes ((elim_of_eq_some hg _ _).trans (congrArg Chip.askGranules (elim_of_eq_none hp _ _)))
    · exact writes ((elim_of_eq_some hg _ _).trans (congrArg Chip.askGranules (elim_of_eq_some hp _ _)))
  · intro whole
    refine ⟨fun h => ?_, fun w h => ⟨fun k sc hs => ?_, fun hs => ?_⟩⟩
    · exact Yields.awake ha rfl (decide_eq_true hid) (writeDataArrived_none h)
    · exact Yields.awake ha rfl (decide_eq_true hid) (writeDataArrived_fails h hs)
    · exact Yields.awake ha rfl (decide_eq_true hid) (writeDataArrived_passes h hs)
  · intro stopped reading
    have reads {row : Instr} (ver : Bool) {bytes : Nat} (hb : bytes = if ver then 0 else nlb * blockStride (c.nsOf nsid) pr.pract)
        (hrow : ∀ {d : Chip}, c.readOrVerify id nsid slba nlb form pr ver = d → Yields row s d) : reading row ver bytes := by
      subst hb
      refine ⟨fun hs => hrow ((Chip.readOrVerify_eq ..).trans (if_pos ((Chip.readStops_iff c id.fn).2 hs))), fun hs => ?_⟩
      replace hrow {d : Chip} (hd) : Yields row s d :=
        hrow ((Chip.readOrVerify_eq ..).trans ((if_neg (mt (Chip.readStops_iff c id.fn).1 hs)).trans hd))
      refine ⟨fun st hc => hrow (elim_of_eq_some hc _ _), fun hc hw => ?_, fun hc hw hb => ?_⟩
      · exact hrow ((elim_of_eq_none hc _ _).trans (Chip.readChecked_begins hw))
      · exact hrow ((elim_of_eq_none hc _ _).trans (Chip.readChecked_asks hw hb))
    refine ⟨fun h => reads false rfl (fun hd => ?_), fun h => reads true rfl (fun hd => ?_)⟩
    · exact Yields.ofFetching rfl ((read_fetched h nsid slba nlb form pr).trans hd) h
    · exact Yields.ofFetching rfl ((verify_fetched h nsid slba nlb form pr).trans hd) h
  · intro row n checks
    have zeroes {d : Chip} (hd) : Yields row s d :=
      Yields.ofFetching rfl ((writeZeroes_fetched h nsid slba nlb deac pr).trans hd) h
    refine ⟨fun hw => zeroes (if_pos ((Chip.zeroesStop_iff u).2 hw)), fun hw hh hr => ?_⟩
    replace zeroes {d : Chip} (hd) : Yields row s d :=
      zeroes ((if_neg (mt (Chip.zeroesStop_iff u).1 (by simp only [hw, hh, hr]; decide))).trans hd)
    refine ⟨fun hs => zeroes (if_pos hs), fun hs => ?_⟩
    replace zeroes {d : Chip} (hd) : Yields row s d := zeroes ((if_neg (ne_true_of_eq_false hs)).trans hd)
    refine ⟨fun st hc => zeroes (elim_of_eq_some hc _ _), fun hc hi => ?_, fun hc hi => ?_⟩
    · exact zeroes ((elim_of_eq_none hc _ _).trans (Chip.zeroesChecked_full hi id deac pr))
    · exact zeroes ((elim_of_eq_none hc _ _).trans (Chip.zeroesChecked_room hi id deac pr))
  · intro row checks
    refine ⟨fun ha hid hw => ?_, fun hw hr => ⟨fun h => ⟨fun st hc => ?_, fun slot hc hs => ?_⟩, fun slot h => ?_⟩⟩
    · exact Yields.awake ha rfl (decide_eq_true hid) (datasetManagement_withheld hw id nsid ad nr)
    · exact Yields.ofBringing rfl (datasetManagement_ends hw hr h hc) h
    · exact Yields.ofBringing rfl (datasetManagement_brings hw hr h hc hs) h
    · intro e ranges last
      have manages {d : Chip} (hd) : Yields row s d :=
        Yields.ofDelivered rfl ((datasetManagement_executes hw hr h).trans hd) h
      refine ⟨fun st hc => manages (elim_of_eq_some hc _ _), fun hc hd => ?_, fun hc hd => ?_⟩
      · subst hd
        exact manages (elim_of_eq_none hc _ _)
      · subst hd
        exact manages (elim_of_eq_none hc _ _)
  · have flushes {d : Chip} (hd) : Yields (.flush id nsid) s d :=
      Yields.ofFetching rfl ((flush_fetched h nsid).trans hd) h
    exact ⟨fun st hc => flushes (by rw [hc]; rfl), fun hc => flushes (by rw [hc]; rfl)⟩
  · exact Yields.awake ha rfl (decide_eq_true hid) (flush_underSections hf hp hn nsid)

end Sys2Proof

/-! ### PERST#, the host link and its errors (R68, R93, R96 to R98, R106, R501, R504) -/

namespace Sys2Proof.Machine

/-! #### PERST# (R98, R498, R504, R547, R592) -/

theorem perstDeassert_high {c : Chip} (h : c.epc.perstLow = false) : perstDeassert c = c := by simp [perstDeassert, h]

/-- The chip with PERST# high. -/
def Chip.perstHigh (c : Chip) : Chip := { c with epc := { c.epc with perstLow := false } }

section
variable {c : Chip} (h : c.epc.perstLow = true)
include h

/-- R98: a clocked head trains its link, and the wake joins the one under way. -/
theorem perstDeassert_clocked (ha : c.awake = true) :
    perstDeassert c = ({ c with epc := { c.epc with perstLow := false, link := .training } } : Chip).joinWake 0 0 :=
  (if_neg (by simp [h])).trans (if_pos ha)

theorem perstDeassert_night (hm : c.pwr.mode = .night) : perstDeassert c = c.perstHigh.wake 0 0 :=
  have ha : ¬ c.awake = true := by simp [Chip.awake, Chip.inService, hm]
  (if_neg (by simp [h])).trans ((if_neg ha).trans (if_neg (by simp [hm])))

/-- R592: a head held after repeated faults leaves its reset once PERST# has been low for 1 s. -/
theorem perstDeassert_held (hm : c.pwr.mode = .held) (hh : c.pwr.hold = .faults) :
    perstDeassert c = if c.epc.perstAt + 1000000000 ≤ c.now then c.perstHigh.warmReset else c.perstHigh :=
  have ha : ¬ c.awake = true := by simp [Chip.awake, Chip.inService, hm]
  (if_neg (by simp [h])).trans ((if_neg ha).trans ((if_pos (by simp [hm, hh])).trans (if_congr decide_eq_true_iff rfl rfl)))

theorem perstAssert_low : perstAssert c = c := if_pos h

end

/-- The chip with PERST# low, and the moment it fell. -/
def Chip.perstFalls (c : Chip) : Chip := { c with epc := { c.epc with perstLow := true, perstAt := c.now } }

section
variable {c : Chip} (h : c.epc.perstLow = false)
include h

theorem perstAssert_unclocked (ha : c.awake = false) : perstAssert c = c.perstFalls := by
  have : c.perstFalls.awake = false := ha
  exact (if_neg (ne_true_of_eq_false h)).trans (if_pos (by rw [Bool.not_eq_true']; exact this))

/-- R504: the endpoint reset, which Night follows in Dusk phase 5. -/
theorem perstAssert_clocked (ha : c.awake = true) : perstAssert c =
    if (c.perstFalls.endpointReset .down).phase = 5 then (c.perstFalls.endpointReset .down).enterNight
    else c.perstFalls.endpointReset .down := by
  have : c.perstFalls.awake = true := ha
  exact (if_neg (ne_true_of_eq_false h)).trans (if_neg (by rw [Bool.not_eq_true', Bool.not_eq_false]; exact this))

end

/-! #### The link (R68, R96 to R98, R501) -/

/-- The chip with its link up, and no host lost. -/
def Chip.linkTrained (c : Chip) (rate width : Nat) (flit : Bool) : Chip :=
  ({ c with epc := { c.epc with link := .l0, hadLink := true }, pwr := { c.pwr with hostLostAt := none } } : Chip).setAll
    [(R.EPC_STATUS_RATE, rate), (R.EPC_STATUS_WIDTH, width), (R.EPC_STATUS_FLIT, flag flit)]

/-- What keeps a link from coming up: it is not training, or the rate, width or flit mode is none of the head's (R68). -/
theorem Chip.linkStays_iff (c : Chip) (rate width : Nat) (flit : Bool) :
    (c.epc.link ≠ .training || c.epc.perstLow || rate = 0 || 6 < rate || !([1, 2, 4, 8, 16].contains width) || (rate = 6 && !flit)) = true ↔
      c.epc.link ≠ .training ∨ c.epc.perstLow = true ∨ rate = 0 ∨ 6 < rate ∨ width ∉ [1, 2, 4, 8, 16] ∨ rate = 6 ∧ flit = false := by
  simp [or_assoc]

theorem linkL0Reached_notTraining {c : Chip} (h : c.epc.link ≠ .training) (rate width : Nat) (flit : Bool) :
    linkL0Reached rate width flit c = c :=
  if_pos ((c.linkStays_iff rate width flit).2 (.inl h))

theorem linkL0Reached_training {c : Chip} {rate width : Nat} {flit : Bool} (h : c.epc.link = .training) (hp : c.epc.perstLow = false)
    (h1 : 1 ≤ rate) (h6 : rate ≤ 6) (hw : width ∈ [1, 2, 4, 8, 16]) (hf : rate = 6 → flit = true) :
    linkL0Reached rate width flit c = (c.linkTrained rate width flit).requestsResume := by
  refine if_neg (mt (c.linkStays_iff rate width flit).1 ?_)
  rintro (hx | hx | hx | hx | hx | ⟨hx, hy⟩)
  · exact hx h
  · simp [hp] at hx
  · omega
  · omega
  · exact hx hw
  · simp [hf hx] at hy

theorem configSpaceReady_first {c : Chip} (h : c.epc.link = .l0) (hr : c.epc.cfgReady = false) :
    configSpaceReady c = ({ c with epc := { c.epc with cfgReady := true } } : Chip).emit .deviceReady := by
  simp [configSpaceReady, h, hr]

theorem configSpaceReady_again {c : Chip} (h : c.epc.cfgReady = true) : configSpaceReady c = c := by simp [configSpaceReady, h]

theorem dlDown_lost {c : Chip} (h : c.epc.hadLink = true) :
    dlDown c = c.linkLost (if c.epc.perstLow then .down else .training) := by
  simp [dlDown, h]

theorem dlDown_neverUp {c : Chip} (h : c.epc.hadLink = false) : dlDown c = c := by simp [dlDown, h]

theorem hotReset_l0 {c : Chip} (h : c.epc.hadLink = true) (hl : c.epc.link = .l0) : hotReset c = c.endpointReset .training := by
  simp [hotReset, h, hl]

theorem hotReset_noLink {c : Chip} (h : c.epc.link ≠ .l0) : hotReset c = c := by simp [hotReset, h]

theorem pmeTurnOff_l0 {c : Chip} (h : c.epc.link = .l0) : pmeTurnOff c = (c.emit .pmeAck).linkLost .l2 := by simp [pmeTurnOff, h]

theorem pmeTurnOff_noLink {c : Chip} (h : c.epc.link ≠ .l0) : pmeTurnOff c = c := by simp [pmeTurnOff, h]

/-! #### LINK_ERROR (R93, R106, Table 3-7) -/

theorem linkError_perst {c : Chip} (h : c.epc.perstLow = true) (err : LinkErr) (fn : Nat) (r : Bool) : linkError err fn r c = c := if_pos h

/-- The chip with a replay counted, where the error brought one. -/
def Chip.replayed (c : Chip) (r : Bool) : Chip := if r then c.bumpHold R.EPC_CNT_REPLAY_REPLAY 1 else c

/-- The chip with its link training anew, of no rate and width yet. -/
def Chip.retrain (d : Chip) : Chip := ({ d with epc := { d.epc with link := .training } } : Chip).setAll
  [(R.EPC_STATUS_RATE, 0), (R.EPC_STATUS_WIDTH, 0), (R.EPC_STATUS_FLIT, 0)]

/-- A register of the endpoint's BAR2 block is no controller's. -/
theorem ccEn_key_ne_replay (fn : Nat) : (R.NVM_CC_EN fn).key ≠ R.EPC_CNT_REPLAY_REPLAY.key := by
  simp [R.NVM_CC_EN, R.EPC_CNT_REPLAY_REPLAY, Fld.key]
  omega

/-- Counting a replay enables and disables no controller. -/
theorem Chip.replayed_enabledFns (c : Chip) (r : Bool) : (c.replayed r).enabledFns = c.enabledFns := by
  cases r with
  | false => rfl
  | true =>
    have hon (fn : Nat) : (c.bumpHold R.EPC_CNT_REPLAY_REPLAY 1).on (R.NVM_CC_EN fn) = c.on (R.NVM_CC_EN fn) := by
      simp only [Chip.on, Chip.bumpHold, Chip.get_set_ne c _ (ccEn_key_ne_replay fn)]
    simp only [Chip.replayed, if_true, Chip.enabledFns, Chip.bumpHold_nvm, hon]

section
variable {c : Chip} (h : c.epc.perstLow = false) (fn : Nat) (r : Bool)
include h

/-- The errors of the link itself are correctable errors of the PF. -/
theorem linkError_ofLink : ∀ x ∈ [(LinkErr.receiverError, 0), (.badTlp, 6), (.badDllp, 7), (.replayRollover, 8), (.replayTimeout, 12),
    (.correctedInternal, 14)], linkError x.1 fn r c = (c.replayed r).logAer 0 .correctable x.2 := by
  intro x hx
  fin_cases hx <;> exact if_neg (ne_true_of_eq_false h)

theorem linkError_ofFunction : ∀ x ∈ [(LinkErr.advisoryNonFatal, 13), (.headerLogOverflow, 15)],
    linkError x.1 fn r c = (c.replayed r).logAer fn .correctable x.2 := by
  intro x hx
  fin_cases hx <;> exact if_neg (ne_true_of_eq_false h)

theorem linkError_fecCorrected : linkError .fecCorrected fn r c = (c.replayed r).bumpHold R.EPC_CNT_FEC_FEC 1 :=
  if_neg (ne_true_of_eq_false h)

theorem linkError_poisonedTlp : linkError .poisonedTlp fn r c =
    (((c.replayed r).bumpHold R.EPC_CNT_POISON_POISON 1).poisonSeen fn false).logAer fn .nonFatal 12 :=
  if_neg (ne_true_of_eq_false h)

theorem linkError_ecrc : linkError .ecrc fn r c = if (c.replayed r).on (R.CFG_AER_CTRL_CHECK_ENABLE 0) then
    (((c.replayed r).bumpHold R.EPC_CNT_POISON_POISON 1).poisonSeen fn false).logAer fn .nonFatal 19 else c.replayed r :=
  if_neg (ne_true_of_eq_false h)

/-- The fatal protocol errors train the link anew. -/
theorem linkError_protocol : ∀ x ∈ [(LinkErr.dataLinkProtocol, 4), (.flowControlProtocol, 13), (.receiverOverflow, 17), (.malformedTlp, 18)],
    linkError x.1 fn r c = ((c.replayed r).logAer 0 .fatal x.2).retrain := by
  intro x hx
  fin_cases hx <;> exact if_neg (ne_true_of_eq_false h)

/-- R106: after an uncorrectable internal error no enabled controller can post. -/
theorem linkError_uncorrectableInternal : linkError .uncorrectableInternal fn r c =
    c.enabledFns.foldl (fun e f => e.ctrlFails f) ((c.replayed r).logAer 0 .fatal 22) := by
  rw [← Chip.replayed_enabledFns c r]
  exact if_neg (ne_true_of_eq_false h)

end

end Sys2Proof.Machine

namespace Sys2Proof
open Sys2Proof.Machine

/-- Settles O16: PERST# by the power state it is met in, each event of the link by the link's state, each error by Table 3-7. -/
theorem endpointLinkEventsAct : Obligations.EndpointLinkEventsAct := by
  intro s c ep high low
  refine ⟨fun h => ?_, fun h => ?_, fun h ha => ?_, fun h hm => ?_, fun h hm hh => ?_, fun h ha => ?_, fun h ha hp => ?_, fun h ha hp => ?_,
    fun ha => ⟨fun rate width flit h hp h1 h6 hw hf => ?_, fun rate width flit h => ?_, fun h hr => ?_, fun h => ?_, fun h => ?_, fun h => ?_,
      fun h hl => ?_, fun h => ⟨?_, ?_⟩, fun h => ?_, fun h err fn r hfn => ?_, fun h fn r hfn => ?_⟩⟩
  · exact Yields.run rfl rfl (perstDeassert_high h)
  · exact Yields.run rfl rfl (perstAssert_low h)
  · exact Yields.run rfl rfl (perstDeassert_clocked h ha)
  · exact Yields.run rfl rfl (perstDeassert_night h hm)
  · exact Yields.run rfl rfl (perstDeassert_held h hm hh)
  · exact Yields.run rfl rfl (perstAssert_unclocked h ha)
  · exact Yields.run rfl rfl ((perstAssert_clocked h ha).trans (if_neg hp))
  · exact Yields.run rfl rfl ((perstAssert_clocked h ha).trans (if_pos hp))
  · exact Yields.awake ha rfl rfl (linkL0Reached_training h hp h1 h6 hw hf)
  · exact Yields.awake ha rfl rfl (linkL0Reached_notTraining h rate width flit)
  · exact Yields.awake ha rfl rfl (configSpaceReady_first h hr)
  · exact Yields.awake ha rfl rfl (configSpaceReady_again h)
  · exact Yields.awake ha rfl rfl (dlDown_lost h)
  · exact Yields.awake ha rfl rfl (dlDown_neverUp h)
  · exact Yields.awake ha rfl rfl (hotReset_l0 h hl)
  · exact Yields.awake ha rfl rfl (hotReset_noLink h)
  · exact Yields.awake ha rfl rfl (pmeTurnOff_noLink h)
  · exact Yields.awake ha rfl rfl (pmeTurnOff_l0 h)
  · exact Yields.awake ha rfl (decide_eq_true hfn) (linkError_perst h err fn r)
  · intro d retrain
    have errs {err : LinkErr} {e : Chip} (he : linkError err fn r c = e) : Yields (.linkError err fn r) s e :=
      Yields.awake ha rfl (decide_eq_true hfn) he
    refine ⟨fun x hx => ?_, fun x hx => ?_, ?_, ?_, fun hon => ?_, fun hoff => ?_, fun x hx => ?_, ?_⟩
    · exact errs (linkError_ofLink h fn r x hx)
    · exact errs (linkError_ofFunction h fn r x hx)
    · exact errs (linkError_fecCorrected h fn r)
    · exact errs (linkError_poisonedTlp h fn r)
    · exact errs ((linkError_ecrc h fn r).trans (if_pos hon))
    · exact errs ((linkError_ecrc h fn r).trans (if_neg (ne_true_of_eq_false hoff)))
    · exact errs (linkError_protocol h fn r x hx)
    · exact errs (linkError_uncorrectableInternal h fn r)

end Sys2Proof

/-! ### Configuration requests, resets of functions and MSI-X (R70, R77 to R86, R98, R99) -/

namespace Sys2Proof.Machine

/-- R70: a payload or read request size that the head does not support keeps its previous value, and is recorded. -/
theorem deviceControlWrite_eq (fn v : Nat) (c : Chip) :
    let d := c.setAll [(R.CFG_DEVCTL_CERE fn, bitsOf v 0 1), (R.CFG_DEVCTL_NFERE fn, bitsOf v 1 1), (R.CFG_DEVCTL_FERE fn, bitsOf v 2 1),
      (R.CFG_DEVCTL_URRE fn, bitsOf v 3 1), (R.CFG_DEVCTL_RELAX fn, bitsOf v 4 1)]
    let d := if bitsOf v 5 3 ≤ 2 then d.set (R.CFG_DEVCTL_MPS fn) (bitsOf v 5 3) else d.event 0x012 19 0x58 v fn 0
    deviceControlWrite fn v c =
      if bitsOf v 12 3 ≤ 5 then d.set (R.CFG_DEVCTL_MRRS fn) (bitsOf v 12 3) else d.event 0x012 19 0x58 v fn 0 := rfl

theorem vfFlr_resets {fn : Nat} (h : fn ≠ 0) (c : Chip) : vfFlr fn c = c.resetFns (fun f => f == fn) := if_neg h

/-- R80: a reset of the PF resets every function; what EPC_STATUS says of the link is kept. -/
theorem pfFlr_resets (c : Chip) : pfFlr c = (c.endHostWork.resetFns (fun _ => true)).setAll [(R.EPC_STATUS_RATE, c.get R.EPC_STATUS_RATE),
    (R.EPC_STATUS_WIDTH, c.get R.EPC_STATUS_WIDTH), (R.EPC_STATUS_FLIT, c.get R.EPC_STATUS_FLIT)] := rfl

/-- R98: before configuration space is ready a request to it gets Request Retry Status. -/
theorem Chip.cfgRefused_notReady {c : Chip} (hl : c.epc.link = .l0) (hr : c.epc.cfgReady = false) (fn : Nat) :
    c.cfgRefused fn = c.emit (.retryStatus fn) := by
  simp [Chip.cfgRefused, hl, hr]

theorem Chip.cfgOpen_notReady {c : Chip} (h : c.epc.cfgReady = false) (fn : Nat) : c.cfgOpen fn = false := by simp [Chip.cfgOpen, h]

theorem Chip.barRefused_l0 {c : Chip} (h : c.epc.link = .l0) (fn : Nat) :
    c.barRefused fn = inboundUnsupportedRequest .memWrite fn c := by
  simp [Chip.barRefused, h]

/-! #### MSI-X (R82 to R86) -/

section
variable {c : Chip} {fn : Nat} (mask : Bool)

theorem msixMaskWrite_function (h : c.maskOpen fn none = true) :
    msixMaskWrite fn none mask c = (c.setFlag (R.CFG_MSIX_CTRL_FMASK fn) mask).flushVectors fn := by
  simp [msixMaskWrite, h]

theorem msixMaskWrite_function_refused (h : c.maskOpen fn none = false) : msixMaskWrite fn none mask c = c.cfgRefused fn := by
  simp [msixMaskWrite, h]

theorem msixMaskWrite_vector {v : Nat} (h : c.maskOpen fn (some v) = true) : msixMaskWrite fn (some v) mask c =
    if v < msixEntries fn then (c.setFlag (R.MSX_CTRL_MASK fn v) mask).flushVector fn v else c := by
  simp [msixMaskWrite, h]

theorem msixMaskWrite_vector_refused {v : Nat} (h : c.maskOpen fn (some v) = false) :
    msixMaskWrite fn (some v) mask c = c.barRefused fn := by
  simp [msixMaskWrite, h]

end

/-- R82, R86: a word of an entry is written, bits 1:0 of the Message Address as 0, and a change of an unmasked entry is recorded. -/
theorem msixMessageWrite_entry {fn vec word : Nat} (hv : vec < msixEntries fn) (hw : word < 3) (value : Nat) (c : Chip) :
    let v := if word = 0 then (value - value % 4) % 2 ^ 32 else value % 2 ^ 32
    msixMessageWrite fn vec word value c =
      (if c.vecOpen fn vec = true ∧ c.get (msixWord fn vec word) ≠ v then c.event 0x044 fn (16 * vec + 4 * word) v 0 0 else c).set
        (msixWord fn vec word) v := by
  intro v
  have hcut : trunc 32 (if word = 0 then value - value % 4 else value) = v := by
    rw [trunc]
    exact apply_ite (· % 2 ^ 32) _ _ _
  have hmiss : ¬ (decide (msixEntries fn ≤ vec) || decide (3 ≤ word)) = true := by simp [hv, hw]
  refine (if_neg hmiss).trans ?_
  rw [hcut]
  simp only [Bool.and_eq_true, bne_iff_ne]

/-! #### SR-IOV (R73, R77, R78) -/

section
variable {c : Chip} (h : c.on R.CFG_SRIOV_CTRL_VF_ENABLE = true)
include h

theorem numvfsWrite_enabled (v : Nat) : numvfsWrite v c = c := if_pos h

theorem vfEnableClear_enabled : vfEnableClear c = (c.resetFns (fun f => f != 0)).set R.CFG_SRIOV_CTRL_VF_ENABLE 0 := if_pos h

end

section
variable {c : Chip} (h : c.on R.CFG_SRIOV_CTRL_VF_ENABLE = false)
include h

theorem numvfsWrite_disabled (v : Nat) : numvfsWrite v c =
    if 1023 < v ∨ c.on R.CFG_SRIOV_CTRL_ARI = false ∧ 7 < v then c.event 0x012 19 0x168 v 0 0 else c.set R.CFG_SRIOV_NUMVFS_NUMVFS v := by
  simp [numvfsWrite, h, Chip.badCfg]

theorem vfEnableClear_disabled : vfEnableClear c = c := if_neg (ne_true_of_eq_false h)

end

/-- R77: System Page Size takes one bit of Supported Page Sizes, and only while VF Enable is 0. -/
theorem systemPageSizeWrite_bad {c : Chip} {v : Nat} (h : c.on R.CFG_SRIOV_CTRL_VF_ENABLE = true ∨ v ∉ [1, 2, 4, 8, 16]) :
    systemPageSizeWrite v c = c.event 0x012 19 0x178 v 0 0 :=
  if_pos (by simpa using h)

theorem systemPageSizeWrite_good {c : Chip} {v : Nat} (h : c.on R.CFG_SRIOV_CTRL_VF_ENABLE = false) (hv : v ∈ [1, 2, 4, 8, 16]) :
    let d := c.set R.CFG_SRIOV_SYSPAGE_PAGE v
    systemPageSizeWrite v c = d.setAll [(R.CFG_VFBAR0_ADDR, d.vfBarBase R.CFG_VFBAR0_ADDR (d.get R.CFG_VFBAR0_ADDR)),
      (R.CFG_VFBAR4_ADDR, d.vfBarBase R.CFG_VFBAR4_ADDR (d.get R.CFG_VFBAR4_ADDR))] :=
  have hc : [1, 2, 4, 8, 16].contains v = true := List.contains_iff_mem.2 hv
  if_neg (by simp only [h, hc]; decide)

/-! #### EPC_CLR_CNT (R99) -/

/-- The endpoint's counters. -/
def epcCounters : List Fld :=
  [R.EPC_CNT_FEC_FEC, R.EPC_CNT_REPLAY_REPLAY, R.EPC_CNT_CTO_CTO, R.EPC_CNT_POISON_POISON, R.EPC_CNT_CA_UR_CA_UR, R.EPC_CNT_UC_UC,
    R.EPC_CNT_LINKLOSS_LINKLOSS]

/-- Two of the endpoint's counters that lie at one place are one counter. -/
theorem epcCounters_distinct : ∀ f ∈ epcCounters, ∀ g ∈ epcCounters, f.key = g.key → f = g := by decide

theorem epcClrCnt_frame (c : Chip) : epcClrCnt c = { c with regs := (epcClrCnt c).regs } := by
  apply Chip.eq_of_fields <;> simp [epcClrCnt]

end Sys2Proof.Machine

namespace Sys2Proof
open Sys2Proof.Machine

/-- R98: a configuration request before configuration space is ready. -/
theorem Yields.cfgNotReady {i : Instr} {s : State} {k : Bool} {fn : Nat} {f : Chip → Chip} (h : s.chip.awake = true)
    (hl : s.chip.epc.link = .l0) (hr : s.chip.epc.cfgReady = false) (hx : exec i s = s.runCfg k fn f) (hk : k = true) :
    Yields i s (s.chip.emit (.retryStatus fn)) :=
  Yields.awake h hx hk
    ((if_neg (ne_true_of_eq_false (Chip.cfgOpen_notReady hr fn))).trans (Chip.cfgRefused_notReady hl hr fn))

/-- R94: a write of a BAR that the function does not serve. -/
theorem Yields.barShut {i : Instr} {s : State} {k : Bool} {fn : Nat} {f : Chip → Chip} (h : s.chip.awake = true)
    (hl : s.chip.epc.link = .l0) (hb : s.chip.barOpen fn = false) (hx : exec i s = s.runBar k fn f) (hk : k = true) :
    Yields i s (inboundUnsupportedRequest .memWrite fn s.chip) :=
  Yields.awake h hx hk ((if_neg (ne_true_of_eq_false hb)).trans (Chip.barRefused_l0 hl fn))

/-- Settles O17: each write by whether its space is open, and by the value that it writes. -/
theorem configurationWritesAct : Obligations.ConfigurationWritesAct := by
  intro s ha fn hfn c
  have hk : decide (fn < 1024) = true := decide_eq_true hfn
  refine ⟨fun ho => ⟨fun v => ?_, fun h => ?_, ?_, ?_, fun on => ?_⟩, fun mask h => ?_, fun v mask h hv => ?_, fun v mask h => ?_,
    fun mask h => ?_, fun v mask h hv => ?_, fun vec word value hb hl => ?_, fun hb vec word value hv hw => ?_,
    fun hl hr => ⟨?_, fun v => ?_, fun v => ?_⟩,
    fun ho => ⟨fun v he h1 h7 => ?_, fun v he => ?_, fun v he h => ?_, fun v h => ?_, fun v he hv => ?_, ?_, fun he => ?_, fun he => ?_, ?_, ?_⟩⟩
  · exact Yields.cfg ha ho rfl hk (deviceControlWrite_eq fn v c)
  · exact Yields.cfg ha ho rfl hk (vfFlr_resets h c)
  · exact Yields.cfg ha ho rfl hk rfl
  · exact Yields.cfg ha ho rfl hk rfl
  · exact Yields.cfg ha ho rfl hk rfl
  · exact Yields.awake ha rfl hk (msixMaskWrite_function mask h)
  · exact Yields.awake ha rfl hk ((msixMaskWrite_vector mask h).trans (if_pos hv))
  · exact Yields.awake ha rfl hk (msixMaskWrite_vector_refused mask h)
  · exact Yields.awake ha rfl hk (msixMaskWrite_function_refused mask h)
  · exact Yields.awake ha rfl hk ((msixMaskWrite_vector mask h).trans (if_neg (not_lt.2 hv)))
  · exact Yields.barShut ha hl hb rfl hk
  · exact Yields.bar ha hb rfl hk (msixMessageWrite_entry hv hw value c)
  · intro i hi
    fin_cases hi <;> exact Yields.cfgNotReady ha hl hr rfl hk
  · exact Yields.cfgNotReady ha hl hr rfl hk
  · intro i hi
    fin_cases hi <;> exact Yields.cfgNotReady ha hl hr rfl rfl
  · have hgood : ¬ (1023 < v ∨ c.on R.CFG_SRIOV_CTRL_ARI = false ∧ 7 < v) := by
      rintro (h | ⟨hi, h⟩)
      · omega
      · have := h7 hi
        omega
    exact Yields.cfg ha ho rfl rfl ((numvfsWrite_disabled he v).trans (if_neg hgood))
  · exact Yields.cfg ha ho rfl rfl (numvfsWrite_enabled he v)
  · exact Yields.cfg ha ho rfl rfl ((numvfsWrite_disabled he v).trans (if_pos h))
  · exact Yields.cfg ha ho rfl rfl (systemPageSizeWrite_bad h)
  · exact Yields.cfg ha ho rfl rfl (systemPageSizeWrite_good he hv)
  · exact Yields.cfg ha ho rfl rfl rfl
  · exact Yields.cfg ha ho rfl rfl (vfEnableClear_enabled he)
  · exact Yields.cfg ha ho rfl rfl (vfEnableClear_disabled he)
  · exact Yields.cfg ha ho rfl rfl (pfFlr_resets c)
  · refine completes_of_next (f := epcClrCnt) (State.runCfg_next rfl ha ho) ⟨?_, ?_, ?_⟩
    · exact Chip.clearAll_get epcCounters s.chip epcCounters_distinct
    · exact Chip.clearAll_regsSame epcCounters (RegsSame.of_regs rfl _) (fun _ hf => hf)
    · exact epcClrCnt_frame c

end Sys2Proof

/-! ### Requests not supported, and the completions of host reads (R88 to R94) -/

namespace Sys2Proof.Machine

/-- R93, R94: a request that is not posted is answered with UR, as an Advisory Non-Fatal error. -/
theorem inboundUnsupportedRequest_nonPosted {kind : BadRequest}
    (h : kind ∈ [BadRequest.memRead, .cfgRequest, .ioRequest, .lockedRead, .atomicOp]) (c : Chip) (fn : Nat) :
    inboundUnsupportedRequest kind fn c =
      (c.logUnsupported (if c.present fn then fn else 0) true).emit (.unsupportedRequest kind fn) := by
  cases kind with
  | memRead | cfgRequest | ioRequest | lockedRead | atomicOp => rfl
  | memWrite | msgType0 | msgType1 => simp at h

/-! #### READ_COMPLETION (R88, R89, R92) -/

/-- How a completion fails its request where its ECRC is not at fault (R89). -/
theorem Chip.pieceFail_ecrc_unchecked {c : Chip} {ecrc : Bool} (h : ecrc = false ∨ c.on (R.CFG_AER_CTRL_CHECK_ENABLE 0) = false) (r : ReadReq)
    (st : CplStatus) (po bad : Bool) (data : List Byte) : c.pieceFail r st po bad ecrc data = c.pieceFail r st po bad false data := by
  have : (ecrc && c.on (R.CFG_AER_CTRL_CHECK_ENABLE 0)) = false := Bool.and_eq_false_iff.2 h
  simp only [Chip.pieceFail, this, Bool.false_and]

theorem Chip.pieceFail_ecrc_checked {c : Chip} (h : c.on (R.CFG_AER_CTRL_CHECK_ENABLE 0) = true) (r : ReadReq) (st : CplStatus) (po bad : Bool)
    (data : List Byte) : c.pieceFail r st po bad true data = some .ecrc := if_pos h

theorem Chip.pieceFail_length {c : Chip} {r : ReadReq} {bad : Bool} {data : List Byte} (h : bad = true ∨ data = [] ∨ r.len < r.got + data.length) :
    c.pieceFail r .sc false bad false data = some .length := by
  have : (bad || data.isEmpty || decide (r.len < r.got + data.length)) = true := by simpa [or_assoc] using h
  simp [Chip.pieceFail, this]

theorem Chip.pieceFail_none {c : Chip} {r : ReadReq} {data : List Byte} (h : data ≠ []) (hl : r.got + data.length ≤ r.len) :
    c.pieceFail r .sc false false false data = none := by
  simp [Chip.pieceFail, h, hl]

section
variable {c : Chip} {tag : Nat} (h : c.epc.reqs.find? (fun r => r.tag == some tag) = none)
include h

theorem readCompletion_unexpected (st : CplStatus) (po bad ecrc : Bool) (data : List Byte) :
    readCompletion tag st po bad ecrc data c = c.unexpected := by
  simp only [readCompletion, h]

theorem completionTimeout_noRead : completionTimeout tag c = c := by simp only [completionTimeout, h]

end

section
variable {c : Chip} {tag : Nat} {r : ReadReq} {x : Xfer} (hr : c.epc.reqs.find? (fun r => r.tag == some tag) = some r)
  (hx : c.epc.xfers.find? (fun y => y.id == r.xfer) = some x)
include hr hx

section
variable {st : CplStatus} {po bad ecrc : Bool} {data : List Byte}

theorem readCompletion_fails {why : ReadFail} (h : c.pieceFail r st po bad ecrc data = some why) :
    readCompletion tag st po bad ecrc data c = (c.readFailed x r.addr why).sendReads := by
  simp only [readCompletion, hr, hx, h]

theorem readCompletion_taken (h : c.pieceFail r st po bad ecrc data = none) :
    readCompletion tag st po bad ecrc data c = c.takePiece r x data := by
  simp only [readCompletion, hr, hx, h]

end

/-- R90: a read fails once its time has ended, and not before. -/
theorem completionTimeout_read : completionTimeout tag c =
    if r.sentAt + c.ctoNs r.fn ≤ c.now then (c.readFailed x r.addr .timeout).sendReads else c := by
  simp only [completionTimeout, hr, hx]

end

end Sys2Proof.Machine

namespace Sys2Proof
open Sys2Proof.Machine

/-- Settles O18: requests by their kind; a completion by the read it belongs to, and by the first thing wrong with it. -/
theorem busRepliesAct : Obligations.BusRepliesAct := by
  intro s ha c
  refine ⟨fun fn hfn => ⟨?_, ?_, ?_, fun kind hk => ?_⟩, fun tag st po bad ecrc data h => ?_, fun tag h => ?_, fun tag r x hr hx => ?_⟩
  · exact Yields.awake ha rfl (decide_eq_true hfn) rfl
  · exact Yields.awake ha rfl (decide_eq_true hfn) rfl
  · exact Yields.awake ha rfl (decide_eq_true hfn) rfl
  · exact Yields.awake ha rfl (decide_eq_true hfn) (inboundUnsupportedRequest_nonPosted hk c fn)
  · exact Yields.awake ha rfl rfl (readCompletion_unexpected h st po bad ecrc data)
  · exact Yields.awake ha rfl rfl (completionTimeout_noRead h)
  have fails {st po bad ecrc data why} (h : c.pieceFail r st po bad ecrc data = some why) :
      Yields (.readCompletion tag st po bad ecrc data) s (c.readFailed x r.addr why).sendReads :=
    Yields.awake ha rfl rfl (readCompletion_fails hr hx h)
  refine ⟨fun st po bad data h => fails (Chip.pieceFail_ecrc_checked h r st po bad data), fun ecrc he => ?_, fun ht => ?_, fun ht => ?_⟩
  · have unchecked := Chip.pieceFail_ecrc_unchecked he r
    refine ⟨fun po bad data => ⟨?_, ?_, ?_⟩, fun bad data => ?_, fun bad data h => ?_, fun data h hl => ?_⟩
    · exact fails (unchecked .ur po bad data)
    · exact fails (unchecked .ca po bad data)
    · exact fails (unchecked .rrs po bad data)
    · exact fails (unchecked .sc true bad data)
    · exact fails ((unchecked .sc false bad data).trans (Chip.pieceFail_length h))
    · exact Yields.awake ha rfl rfl (readCompletion_taken hr hx ((unchecked .sc false false data).trans (Chip.pieceFail_none h hl)))
  · exact Yields.awake ha rfl rfl ((completionTimeout_read hr hx).trans (if_pos ht))
  · exact Yields.awake ha rfl rfl ((completionTimeout_read hr hx).trans (if_neg (not_le.2 ht)))

end Sys2Proof

/-! ### Key transport (R238 to R245) -/

namespace Sys2Proof.Machine

/-- R243: how a Security Send ends: LAST_RESULT is replaced, and any reason but 0 is an Invalid Field. -/
theorem Chip.ktEnd_eq (c : Chip) (id : CmdId) (spsp slot reason : Nat) : c.ktEnd id spsp slot reason =
    ({ c with cpe := { c.cpe with lastResult := Sparse.set {} c.cpe.lastResult id.fn ⟨spsp, slot, reason, c.epoch⟩ } } : Chip).finish id
      ⟨0, if reason = 0 then 0 else 2, reason ≠ 0⟩ := by
  by_cases h : reason = 0 <;> simp [Chip.ktEnd, h, stOk, stField]

/-- R241, R401: a key operation is proposed to a peer in service, and takes effect at once otherwise. -/
theorem Chip.startKeyOp_eq (c : Chip) (o : KeyOp) (body : Proposal) : c.startKeyOp o body =
    if c.peerIn then { (c.propose body).1 with cpe := { (c.propose body).1.cpe with
      ops := (c.propose body).1.cpe.ops ++ [{ o with opid := (c.propose body).2 }] } }
    else ({ c with cpe := { c.cpe with ops := c.cpe.ops ++ [o] } } : Chip).applyKeyOp o true := rfl

/-! #### LOAD_KEY and ERASE_KEY -/

section
variable {s : State} {id : CmdId} {i : Inflight} {tl slot : Nat} (h : Bringing s id true 0x81 tl i) (ht : tl ≠ 0)
  (hs : s.chip.inputSlot = some slot) (nssf : Nat)
include h ht hs

theorem loadKey_brings : loadKey id nssf tl s.chip = s.chip.beginInput id i tl slot := h.begins ht rfl hs _

theorem eraseKey_brings : eraseKey id nssf tl s.chip = s.chip.beginInput id i tl slot := h.begins ht rfl hs _

end

/-- The key operation that a LOAD_KEY with `data` asks for, `key` being what its buffer wraps. -/
def loadOp (id : CmdId) (data : List Byte) (key : Nat) : KeyOp :=
  { slot := slotNamed data, id := id, load := true, key := key, persist := bitOf (leNat ((data.drop 4).take 1)) 0, opid := 0, remote := false }

/-- What a LOAD_KEY does with its data: the first check of R243 that fails ends it, then a key that does not unwrap; otherwise the load begins. -/
def Chip.loadKeyWith (e : Chip) (id : CmdId) (nssf : Nat) (data : List Byte) : Chip :=
  let slot := slotNamed data
  let persist := bitOf (leNat ((data.drop 4).take 1)) 0
  (e.ktCheck id.fn nssf true data).elim
    ((e.unwrapKey slot data).elim (e.ktEnd id 1 slot 5) (fun key =>
      e.startKeyOp (loadOp id data key) (.keyLoad slot persist ((e.slotOwner slot).getD 0xFFFF) key)))
    (e.ktEnd id 1 slot)

/-- What an ERASE_KEY does with its data: the first check of R243 that fails ends it; otherwise the erase begins. -/
def Chip.eraseKeyWith (e : Chip) (id : CmdId) (nssf : Nat) (data : List Byte) : Chip :=
  let slot := slotNamed data
  (e.ktCheck id.fn nssf false data).elim
    (e.startKeyOp { slot := slot, id := id, load := false, key := 0, persist := false, opid := 0, remote := false } (.keyErase slot))
    (e.ktEnd id 2 slot)

section
variable {s : State} {id : CmdId} {i : Inflight} {k : Nat} (h : Delivered s id true 0x81 i k) (nssf tl : Nat)
include h

theorem loadKey_executes :
    loadKey id nssf tl s.chip = (s.chip.taken id).loadKeyWith id nssf (s.chip.load (s.chip.inputBuf k) tl) := by
  refine (h.executes _ _ _).trans ?_
  unfold Chip.loadKeyWith
  dsimp only
  cases (s.chip.taken id).ktCheck id.fn nssf true (s.chip.load (s.chip.inputBuf k) tl) with
  | some r => rfl
  | none =>
    dsimp only [Option.elim_none]
    cases (s.chip.taken id).unwrapKey (slotNamed (s.chip.load (s.chip.inputBuf k) tl)) (s.chip.load (s.chip.inputBuf k) tl) <;> rfl

theorem eraseKey_executes :
    eraseKey id nssf tl s.chip = (s.chip.taken id).eraseKeyWith id nssf (s.chip.load (s.chip.inputBuf k) tl) := by
  refine (h.executes _ _ _).trans ?_
  unfold Chip.eraseKeyWith
  dsimp only
  cases (s.chip.taken id).ktCheck id.fn nssf false (s.chip.load (s.chip.inputBuf k) tl) <;> rfl

end

/-! #### ERASE_CHUNKS_ENCRYPTED (R245) -/

/-- Whether an operation is an erase of the slot, agreed or the peer's, whose key is not yet zeroized. -/
def KeyOp.erasing (slot : Nat) (o : KeyOp) : Bool := o.slot == slot && !o.load && !o.zeroized && (o.agreed || o.remote)

/-- The chip with the key of a slot zeroized, as erase `o` asks (R245 step 3). -/
def Chip.erased (c : Chip) (slot : Nat) (o : KeyOp) : Chip :=
  let z := c.zeroizeSlot slot
  { z with cpe := { z.cpe with ops := modifyFirst (· == o) (fun x => { x with zeroized := true, chunksLeft := false }) z.cpe.ops } }

theorem eraseChunksEncrypted_none {c : Chip} {slot : Nat} (h : c.cpe.ops.find? (KeyOp.erasing slot) = none) :
    eraseChunksEncrypted slot c = c := by
  have h : c.cpe.ops.find? (fun o => o.slot == slot && !o.load && !o.zeroized && (o.agreed || o.remote)) = none := h
  simp only [eraseChunksEncrypted, h]

/-- R161: the key stays while a chunk waits to be encrypted under it. -/
theorem eraseChunksEncrypted_waits {c : Chip} {slot : Nat} (hw : c.chunksWait slot = true) : eraseChunksEncrypted slot c = c := by
  unfold eraseChunksEncrypted
  split
  · rfl
  · exact if_pos hw

theorem eraseChunksEncrypted_erases {c : Chip} {slot : Nat} {o : KeyOp} (h : c.cpe.ops.find? (KeyOp.erasing slot) = some o)
    (hw : c.chunksWait slot = false) :
    eraseChunksEncrypted slot c = if o.remote then c.erased slot o else (c.erased slot o).ktEnd o.id 2 slot 0 := by
  have h : c.cpe.ops.find? (fun o => o.slot == slot && !o.load && !o.zeroized && (o.agreed || o.remote)) = some o := h
  simp only [eraseChunksEncrypted, h, hw]
  rfl

/-! #### The Security Receives (R238, R244) -/

/-- R120, R244: a Security Receive is refused for its form or its NSSF, and otherwise returns its data cut to the allocation length. -/
theorem Chip.securityReceive_fetched {s : State} {id : CmdId} {i : Inflight} (h : Fetching s id true 0x82 i) (nssf alloc : Nat) (buf : DPtr)
    (data : Chip → List Byte) :
    let e := s.chip.begun id
    s.chip.securityReceive id nssf alloc buf data =
      if badForm { i.form with dptr := buf } alloc = true ∨ nssf ≠ 0 then e.finish id ⟨0, 2, true⟩
      else e.returnData id i buf alloc ((data e).take alloc) none := by
  intro e
  unfold Chip.securityReceive Chip.executeOut
  refine (h.executes _).trans ?_
  by_cases hb : badForm { i.form with dptr := buf } alloc = true <;> by_cases hn : nssf = 0 <;> simp [hb, hn, e, stField]

/-- What TRANSPORT_KEY returns (Table 8-4). -/
def Chip.transportKeyData (c : Chip) : List Byte :=
  let pub := match c.root.secret.transport with
    | some priv => Config.publicKey priv
    | none => (0, 0)
  natLe 1 2 ++ natLe 0 6 ++ natLe c.root.mono.ktSerial 8 ++ natLe pub.1 48 ++ natLe pub.2 48

theorem Chip.transportKeyData_of_key {c : Chip} {priv : Nat} (h : c.root.secret.transport = some priv) : c.transportKeyData =
    natLe 1 2 ++ natLe 0 6 ++ natLe c.root.mono.ktSerial 8 ++ natLe (Config.publicKey priv).1 48 ++ natLe (Config.publicKey priv).2 48 := by
  simp only [Chip.transportKeyData, h]

/-- What LAST_RESULT returns to a function (Table 8-4). -/
def Chip.lastResultData (c : Chip) (fn : Nat) : List Byte :=
  match c.cpe.lastResult.find? (fun e => e.1 == fn) with
  | none => List.replicate 16 0#8
  | some (_, r) => natLe 1 2 ++ natLe r.spsp 2 ++ natLe r.slot 2 ++ natLe r.reason 1 ++ natLe 0 1 ++ natLe r.epoch 6 ++ natLe 0 2

theorem Chip.lastResultData_none {c : Chip} {fn : Nat} (h : c.cpe.lastResult.find? (fun e => e.1 == fn) = none) :
    c.lastResultData fn = List.replicate 16 0#8 := by
  simp only [Chip.lastResultData, h]

theorem Chip.lastResultData_some {c : Chip} {fn f : Nat} {r : KtResult} (h : c.cpe.lastResult.find? (fun e => e.1 == fn) = some (f, r)) :
    c.lastResultData fn =
      natLe 1 2 ++ natLe r.spsp 2 ++ natLe r.slot 2 ++ natLe r.reason 1 ++ natLe 0 1 ++ natLe r.epoch 6 ++ natLe 0 2 := by
  simp only [Chip.lastResultData, h]

theorem transportKey_receives (id : CmdId) (nssf alloc : Nat) (buf : DPtr) (c : Chip) :
    transportKey id nssf alloc buf c = c.securityReceive id nssf alloc buf Chip.transportKeyData := rfl

theorem lastResult_receives (id : CmdId) (nssf alloc : Nat) (buf : DPtr) (c : Chip) :
    lastResult id nssf alloc buf c = c.securityReceive id nssf alloc buf (fun e => e.lastResultData id.fn) := rfl

end Sys2Proof.Machine

namespace Sys2Proof
open Sys2Proof.Machine

/-- Settles O24: a send by what has arrived of it and the first check that fails; an erase by the chunks that wait; each receive by its data. -/
theorem keyCommandsComplete : Obligations.KeyCommandsComplete := by
  intro s id i c e ended given start
  have hend (d : Chip) (j : CmdId) (spsp slot reason : Nat) : d.ktEnd j spsp slot reason = ended d j spsp slot reason :=
    d.ktEnd_eq j spsp slot reason
  refine ⟨fun tl nssf slot h ht hs => ⟨?_, ?_⟩, fun k h nssf tl => ?_, fun ha slot => ?_, fun h nssf alloc buf => ?_⟩
  · exact Yields.ofBringing rfl (loadKey_brings h ht hs nssf) h
  · exact Yields.ofBringing rfl (eraseKey_brings h ht hs nssf) h
  · intro e data slot
    have loads {d : Chip} (hd : e.loadKeyWith id nssf data = d) : Yields (.loadKey id nssf tl) s d :=
      Yields.ofDelivered rfl ((loadKey_executes h nssf tl).trans hd) h
    have erases {d : Chip} (hd : e.eraseKeyWith id nssf data = d) : Yields (.eraseKey id nssf tl) s d :=
      Yields.ofDelivered rfl ((eraseKey_executes h nssf tl).trans hd) h
    refine ⟨fun r hr => ?_, fun hc => ⟨fun hu => ?_, fun key hu => ?_⟩, fun r hr => ?_, fun hc => ?_⟩
    · exact loads ((elim_of_eq_some hr _ _).trans (hend _ _ _ _ _))
    · exact loads ((elim_of_eq_none hc _ _).trans ((elim_of_eq_none hu _ _).trans (hend _ _ _ _ _)))
    · exact loads ((elim_of_eq_none hc _ _).trans ((elim_of_eq_some hu _ _).trans (Chip.startKeyOp_eq _ _ _)))
    · exact erases ((elim_of_eq_some hr _ _).trans (hend _ _ _ _ _))
    · exact erases ((elim_of_eq_none hc _ _).trans (Chip.startKeyOp_eq _ _ _))
  · intro wanted
    refine ⟨fun h => ?_, fun hw => ?_, fun o h hw => ⟨fun hr => ?_, fun hr => ?_⟩⟩
    · exact Yields.awake ha rfl rfl (eraseChunksEncrypted_none h)
    · exact Yields.awake ha rfl rfl (eraseChunksEncrypted_waits hw)
    · exact Yields.awake ha rfl rfl ((eraseChunksEncrypted_erases h hw).trans (if_pos hr))
    · exact Yields.awake ha rfl rfl
        ((eraseChunksEncrypted_erases h hw).trans ((if_neg (ne_true_of_eq_false hr)).trans (hend _ _ _ _ _)))
  · have receives {row : Instr} {f : Chip → Chip} {n : Nat} {data : Chip → List Byte} {bytes : List Byte} (hx : exec row s = s.runAwake id.wf f)
        (hf : f c = c.securityReceive id n alloc buf data) (hd : data e = bytes) : Yields row s (given n alloc buf bytes) :=
      Yields.ofFetching hx (hd ▸ hf.trans (Chip.securityReceive_fetched h n alloc buf data)) h
    refine ⟨?_, fun priv hp => ?_, fun hl => ?_, fun f r hl => ?_, fun k => ?_⟩
    · exact receives rfl rfl rfl
    · exact receives rfl (transportKey_receives id nssf alloc buf c) (Chip.transportKeyData_of_key hp)
    · exact receives rfl (lastResult_receives id nssf alloc buf c) (Chip.lastResultData_none hl)
    · exact receives rfl (lastResult_receives id nssf alloc buf c) (Chip.lastResultData_some hl)
    · exact receives rfl rfl rfl

end Sys2Proof

/-! ### Buffers in host memory (R91, R120, R128) -/

namespace Sys2Proof.Machine

/-! #### A list whose read fails (Table 3-6) -/

theorem Chip.readFailed_list {c : Chip} {x : Xfer} {id : CmdId} (h : x.purpose = .list id ∨ x.purpose = .readList id) (at_ : Nat)
    (why : ReadFail) : c.readFailed x at_ why = ((c.logReadFail x.fn x.purpose why).dropXfer x.id).listFails id := by
  rcases h with h | h <;> simp only [Chip.readFailed, h]

/-- R91: the walk of a failed list ends with Data Transfer Error. -/
theorem Chip.listFails_walk {c : Chip} {id : CmdId} {w : ListWalk} (h : c.ing.walks.find? (fun x => x.id == id && !x.ready) = some w) :
    c.listFails id = (c.dropWalk id).walkEnds w (.error stXfer) := by
  simp only [Chip.listFails, h]

/-- A walk found by its command's name bears it. -/
theorem ListWalk.id_of_find {l : List ListWalk} {id : CmdId} {w : ListWalk} (h : l.find? (fun x => x.id == id && !x.ready) = some w) :
    w.id = id := by
  have hw := List.find?_some h
  simp only [Bool.and_eq_true, beq_iff_eq] at hw
  exact hw.1

theorem Chip.walkEnds_error_send (c : Chip) {w : ListWalk} {spans : List (Nat × List Byte)} {st : Status} {page : Option Nat} {rd : Bool}
    (h : w.goal = .send spans st page rd) (e : Status) : c.walkEnds w (.error e) = c.finish w.id e := by
  simp only [Chip.walkEnds, h, Chip.sendSpans]

theorem Chip.walkEnds_error_input (c : Chip) {w : ListWalk} (h : w.goal = .input) (e : Status) :
    c.walkEnds w (.error e) = c.finish w.id e := by
  simp only [Chip.walkEnds, h, Chip.readInput]

theorem Chip.walkEnds_error_write (c : Chip) {w : ListWalk} (h : w.goal = .write) (e : Status) : c.walkEnds w (.error e) =
    ((c.ing.writes.filter (fun x => x.own && x.id == w.id)).foldl (fun d x => d.discardWrite x.wid) c).finish w.id e := by
  simp only [Chip.walkEnds, h, Chip.fetchData]

/-! #### PRP entries and lists (R120) -/

section
variable {w : ListWalk} (hp : w.form.psdt = 0) (hw : 0 < w.want)
include hp hw

/-- PRP 1 alone names the whole buffer. -/
theorem ListWalk.begin_firstPage (h : w.want ≤ w.page - w.form.dptr.lo % w.page) :
    w.begin = { w with found := [(w.form.dptr.lo, w.want)] }.endPart := by
  simp only [ListWalk.begin, hp, Nat.min_eq_left h, if_neg (Nat.pos_iff_ne_zero.1 hw), if_true]

/-- The buffer goes on past its first page: PRP 2 names the second page, or a list where more than one page is left. -/
theorem ListWalk.begin_pastFirst (h : w.page - w.form.dptr.lo % w.page < w.want) :
    w.begin =
      let first := w.page - w.form.dptr.lo % w.page
      if w.want - first ≤ w.page then
        if w.form.dptr.hi % 4096 = 0 then { w with found := [(w.form.dptr.lo, first), (w.form.dptr.hi, w.want - first)] }.endPart
        else .error stPrp
      else if w.form.dptr.hi % 8 = 0 then .ok (.inl { w with found := [(w.form.dptr.lo, first)], addr := w.form.dptr.hi })
      else .error stPrp := by
  simp only [ListWalk.begin, hp, Nat.min_eq_right h.le, if_neg (Nat.pos_iff_ne_zero.1 hw), if_true, if_neg h.ne', ne_eq, ite_not,
    List.singleton_append]

end

theorem bufLen_append_singleton (buf : HostBuf) (p : Nat × Nat) : bufLen (buf ++ [p]) = bufLen buf + p.2 := by
  simp [bufLen, sumOf]

section
variable {page want : Nat} (e : Nat) (es : List Nat) {addr : Nat} {buf : HostBuf}

theorem prpTake_complete (h : want ≤ bufLen buf) : prpTake page want (e :: es) addr buf = .ok (addr, buf) :=
  if_pos (Nat.sub_eq_zero_of_le h)

variable (h : bufLen buf < want)
include h

/-- The last entry of a page of entries names the next one where more than one page of data is left. -/
theorem prpTake_nextPage (ha : (addr + 8) % page = 0) (hl : bufLen buf + page < want) :
    prpTake page want (e :: es) addr buf = if e % 8 = 0 then .ok (e, buf) else .error stPrp :=
  have hleft : page < want - bufLen buf := by omega
  (if_neg (Nat.sub_ne_zero_of_lt h)).trans (if_pos (by simp [ha, hleft]))

/-- Every other entry is a page of the data. -/
theorem prpTake_dataPage (hl : (addr + 8) % page ≠ 0 ∨ want ≤ bufLen buf + page) :
    prpTake page want (e :: es) addr buf = if e % 4096 ≠ 0 then .error stPrp
      else prpTake page want es (addr + 8) (buf ++ [(e, min page (want - bufLen buf))]) :=
  have hlast : ¬ ((addr + 8) % page = 0 ∧ page < want - bufLen buf) := by omega
  (if_neg (Nat.sub_ne_zero_of_lt h)).trans (if_neg (by simpa using hlast))

end

/-- A piece of a buffer that is a page of a PRP list: aligned to 4 KiB, of 1 byte to a page. -/
def PrpPage (page : Nat) (p : Nat × Nat) : Prop := p.1 % 4096 = 0 ∧ 0 < p.2 ∧ p.2 ≤ page

/-- R120: what a PRP list adds to a buffer are pages, and never more of them than the length wanted. -/
theorem prpTake_pages {page want : Nat} (hp : 0 < page) {l : List Nat} {addr a : Nat} {buf b : HostBuf} (hb : bufLen buf ≤ want)
    (h : prpTake page want l addr buf = .ok (a, b)) : bufLen b ≤ want ∧ ∀ p ∈ b, p ∈ buf ∨ PrpPage page p := by
  induction l generalizing addr buf with
  | nil =>
    cases h
    exact ⟨hb, fun p hm => .inl hm⟩
  | cons e es ih =>
    rcases hb.eq_or_lt with hd | hd
    · rw [prpTake_complete e es hd.ge] at h
      cases h
      exact ⟨hb, fun p hm => .inl hm⟩
    by_cases hn : (addr + 8) % page = 0 ∧ bufLen buf + page < want
    · rw [prpTake_nextPage e es hd hn.1 hn.2] at h
      split at h
      · cases h
        exact ⟨hb, fun p hm => .inl hm⟩
      · cases h
    · rw [prpTake_dataPage e es hd (by omega)] at h
      split at h
      · cases h
      next he =>
        have hpiece : PrpPage page (e, min page (want - bufLen buf)) := ⟨not_not.1 he, by simp; omega, Nat.min_le_left _ _⟩
        obtain ⟨hlen, hall⟩ := ih (by rw [bufLen_append_singleton]; simp only; omega) h
        refine ⟨hlen, fun p hm => ?_⟩
        rcases hall p hm with hm | hm
        · rcases List.mem_append.1 hm with hm | hm
          · exact .inl hm
          · exact .inr (List.mem_singleton.1 hm ▸ hpiece)
        · exact .inr hm

/-! #### SGL segments (log entry 86) -/

section
variable {d : Sgl} (ds : List Sgl) (addr rest : Nat) (last : Bool) (buf : HostBuf)

theorem sglTake_otherType (h : d.typ ∉ [0, 2, 3]) : sglTake (d :: ds) addr rest last buf = .error stSglType := by
  obtain ⟨h0, h2, h3⟩ : d.typ ≠ 0 ∧ d.typ ≠ 2 ∧ d.typ ≠ 3 := by simpa using h
  simp [sglTake, h0, h2, h3]

theorem sglTake_unaligned (h : d.typ = 0) (hu : d.addr % 4 ≠ 0 ∨ d.len % 4 ≠ 0) :
    sglTake (d :: ds) addr rest last buf = .error stField :=
  (if_pos h).trans (if_pos (by simpa [Sgl.unaligned] using hu))

theorem sglTake_chain (h : d.typ ∈ [2, 3]) (hl : last = true ∨ rest ≠ 16) :
    sglTake (d :: ds) addr rest last buf = .error stSegment := by
  have h23 : d.typ = 2 ∨ d.typ = 3 := by simpa using h
  have h0 : d.typ ≠ 0 := by omega
  exact (if_neg h0).trans ((if_pos (by simpa using h23)).trans (if_pos (by simpa using hl)))

end

/-! #### The end of a description (R128) -/

section
variable {w : ListWalk}

theorem ListWalk.endPart_wrongLength (h : bufLen w.found ≠ w.want) : w.endPart = .error stSglLength := if_pos h

variable (h : bufLen w.found = w.want)
include h

theorem ListWalk.endPart_noMetadata (hm : w.mlen = 0) : w.endPart = .ok (.inr w.found) := (if_neg (not_not.2 h)).trans (if_pos hm)

theorem ListWalk.endPart_metadata (hm : w.mlen ≠ 0) : w.endPart =
    if w.form.psdt = 2 then
      .ok (.inl { w with sgl := true, addr := w.form.mptr, rest := 16, last := false, want := w.want + w.mlen, mlen := 0 })
    else .ok (.inr (w.found ++ [(w.form.mptr, w.mlen)])) := (if_neg (not_not.2 h)).trans (if_neg hm)

end

end Sys2Proof.Machine

namespace Sys2Proof
open Sys2Proof.Machine

/-- Settles O26: a failed list by what it was walked for, and each format by its own lemmas. -/
theorem bufferListsAreFollowed : Obligations.BufferListsAreFollowed := by
  refine ⟨fun c x at_ why id h => Chip.readFailed_list h at_ why, fun c id w h => ?_, fun w hp hw => ⟨?_, fun h hl => ?_, fun h => ?_⟩,
    fun page want l addr buf a b hp hb h => prpTake_pages hp hb h, fun page want e l addr buf h hl he => ?_,
    fun d l addr rest last buf => ⟨sglTake_otherType l addr rest last buf, sglTake_unaligned l addr rest last buf,
      sglTake_chain l addr rest last buf⟩,
    fun w => ⟨ListWalk.endPart_wrongLength, ListWalk.endPart_noMetadata, fun h hm hs => ?_, fun h hm hs => ?_⟩⟩
  · obtain rfl := ListWalk.id_of_find h
    have hends := Chip.listFails_walk h
    exact ⟨fun spans st page rd hg => hends.trans (Chip.walkEnds_error_send _ hg _),
      fun hg => hends.trans (Chip.walkEnds_error_input _ hg _), fun hg => hends.trans (Chip.walkEnds_error_write _ hg _)⟩
  · exact ListWalk.begin_firstPage hp hw
  · exact (ListWalk.begin_pastFirst hp hw h).trans (if_pos (Nat.sub_le_iff_le_add'.2 hl))
  · exact (ListWalk.begin_pastFirst hp hw (by omega)).trans (if_neg (by omega))
  · exact (prpTake_dataPage e l h hl).trans (if_pos he)
  · exact (ListWalk.endPart_metadata h hm).trans (if_neg hs)
  · exact (ListWalk.endPart_metadata h hm).trans (if_pos hs)

end Sys2Proof

/-! ### MCTP messages and SPDM requests (R69, R537 to R539) -/

namespace Sys2Proof.Machine

@[simp] theorem Chip.conn_modConn (c : Chip) (tr : Transport) (f : SpdmConn → SpdmConn) : (c.modConn tr f).conn tr = f (c.conn tr) := by
  cases tr <;> rfl

/-- R539: a request served leaves its transport free for the next. -/
theorem Chip.conn_spdmReply (c : Chip) (tr : Transport) (r : SpdmRsp) : (c.spdmReply tr r).conn tr = { c.conn tr with busy := false } :=
  c.conn_modConn tr (fun x => { x with busy := false })

theorem Chip.spdmServe_down {c : Chip} {tr : Transport} (h : c.spdmUp tr = false) (ready : Bool) (f : Chip → Chip) :
    c.spdmServe tr ready f = c := by
  simp [Chip.spdmServe, h]

theorem mctpMessage_down {c : Chip} {tr : Transport} (h : c.spdmUp tr = false) (body : MctpBody) : mctpMessage tr body c = c := by
  simp [mctpMessage, h]

theorem getDigests_serves (tr : Transport) (c : Chip) : getDigests tr c = c.spdmServe tr (c.conn tr).algs (fun e =>
    e.spdmReply tr (.digests ((c.chain 0).map (fun b => beNat (sha384 b))) ((c.chain 1).map (fun b => beNat (sha384 b))))) := rfl

section
variable {c : Chip} {tr : Transport} (h : c.spdmUp tr = true)
include h

theorem Chip.spdmServe_ready {ready : Bool} (hr : ready = true) (f : Chip → Chip) : c.spdmServe tr ready f = f c := by
  simp [Chip.spdmServe, h, hr]

theorem Chip.spdmServe_unexpected {ready : Bool} (hr : ready = false) (f : Chip → Chip) :
    c.spdmServe tr ready f = c.spdmReply tr (.error 4) := by
  simp [Chip.spdmServe, h, hr]

/-! #### MCTP_MESSAGE -/

theorem mctpMessage_nvmeMi (r : List Byte) : mctpMessage tr (.nvmeMi r) c = c.emit (.nvmeMi tr r) := by
  simp [mctpMessage, h]

/-- R539: an SPDM request is answered Busy before it is judged, then by whether Table 17-8 lists it. -/
theorem mctpMessage_spdm (r : List Byte) : mctpMessage tr (.spdm r) c =
    if (c.conn tr).busy then c.emit (.spdm tr (.error 3))
    else if spdmSupported.contains (leNat ((r.drop 1).take 1)) then c.modConn tr (fun x => { x with busy := true })
    else c.emit (.spdm tr (.error 7)) := by
  simp [mctpMessage, h]

/-! #### The requests that need algorithms agreed -/

variable (ha : (c.conn tr).algs = true)
include ha

theorem getCertificate_noChain {slot : Nat} (hc : c.chain slot = none) (ofs len : Nat) :
    getCertificate tr slot ofs len c = c.spdmReply tr (.error 1) := by
  simp only [getCertificate, Chip.spdmServe_ready h ha, hc]

theorem getCertificate_chain {slot : Nat} {b : List Byte} (hc : c.chain slot = some b) (ofs len : Nat) :
    getCertificate tr slot ofs len c = if b.length ≤ ofs then c.spdmReply tr (.error 1)
      else c.spdmReply tr (.certificate slot ((b.drop ofs).take len) (b.length - ofs - len)) := by
  simp only [getCertificate, Chip.spdmServe_ready h ha, hc]

theorem spdmChallenge_noChain {slot : Nat} (hc : c.chain slot = none) (summary nonce : Nat) :
    spdmChallenge tr slot summary nonce c = c.spdmReply tr (.error 1) := by
  simp [spdmChallenge, Chip.spdmServe_ready h ha, hc]

/-- R539: a challenge is signed, its summary over every measurement or none. -/
theorem spdmChallenge_chain {slot : Nat} {b : List Byte} (hc : c.chain slot = some b) (summary nonce : Nat) :
    spdmChallenge tr slot summary nonce c = c.useFree.spdmReply tr (.challengeAuth slot
      (if summary = 0 then 0 else beNat (sha384 (c.measured.flatMap c.measBytes))) c.freeNow) := by
  simp [spdmChallenge, Chip.spdmServe_ready h ha, hc, Chip.signed]

theorem getMeasurements_noBlock {index : Nat} {raw : Bool} (hm : c.measBlock index raw = none) (signed : Bool) (nonce : Nat) :
    getMeasurements tr index signed raw nonce c = c.spdmReply tr (.error 1) := by
  simp only [getMeasurements, Chip.spdmServe_ready h ha, hm]

theorem getMeasurements_block {index : Nat} {raw : Bool} {l : List (Nat × List Byte)} (hm : c.measBlock index raw = some l) (signed : Bool)
    (nonce : Nat) : getMeasurements tr index signed raw nonce c =
      if signed then c.useFree.spdmReply tr (.measurements l (some c.freeNow)) else c.spdmReply tr (.measurements l none) := by
  simp only [getMeasurements, Chip.spdmServe_ready h ha, hm, Chip.signed]

end

end Sys2Proof.Machine

namespace Sys2Proof
open Sys2Proof.Machine

/-- Settles O47: each request by whether its transport is up, by what has been agreed, and by what it names. -/
theorem spdmRequestsAreAnswered : Obligations.SpdmRequestsAreAnswered := by
  intro s tr hw c k down unexpected invalid sig
  have yields {i : Instr} {f : Chip → Chip} {d : Chip} (hx : exec i s = s.runAwake true f) (hd : f c = d) : Yields i s d :=
    Yields.awake hw hx rfl hd
  refine ⟨c.conn_spdmReply tr _, fun h => ⟨fun b => ?_, ?_, ?_, fun a b => ?_, ?_, fun n o l => ?_, fun n m x => ?_, fun i g r x => ?_⟩,
    fun hup => ?_⟩
  · exact yields rfl (mctpMessage_down h b)
  · exact yields rfl (Chip.spdmServe_down h _ _)
  · exact yields rfl (Chip.spdmServe_down h _ _)
  · exact yields rfl (Chip.spdmServe_down h _ _)
  · exact yields rfl ((getDigests_serves tr c).trans (Chip.spdmServe_down h _ _))
  · exact yields rfl (Chip.spdmServe_down h _ _)
  · exact yields rfl (Chip.spdmServe_down h _ _)
  · exact yields rfl (Chip.spdmServe_down h _ _)
  replace hup : c.spdmUp tr = true := eq_true_of_ne_false hup
  refine ⟨fun r => ?_, fun r hb => ?_, fun r hb hs => ?_, fun r hb hs => ?_, ?_, fun hv => ?_, fun hv => ?_, fun a b hc => ?_, fun a b hc => ?_,
    fun ha => ⟨?_, fun n o l => ?_, fun n m x => ?_, fun i g r x => ?_⟩,
    fun ha => ⟨?_, fun n hc => ⟨fun o l => ?_, fun m x => ?_⟩,
      fun n b hc => ⟨fun o l ho => ?_, fun o l ho => ?_, fun x => ?_, fun m x hm => ?_⟩,
      fun i r hm g x => ?_, fun i r l hm x => ⟨?_, ?_⟩⟩⟩
  · exact yields rfl (mctpMessage_nvmeMi hup r)
  · exact yields rfl ((mctpMessage_spdm hup r).trans (if_pos hb))
  · exact yields rfl ((mctpMessage_spdm hup r).trans ((if_neg (ne_true_of_eq_false hb)).trans (if_neg (ne_true_of_eq_false hs))))
  · exact yields rfl ((mctpMessage_spdm hup r).trans ((if_neg (ne_true_of_eq_false hb)).trans (if_pos hs)))
  · exact yields rfl (Chip.spdmServe_ready hup rfl _)
  · exact yields rfl (Chip.spdmServe_ready hup hv _)
  · exact yields rfl (Chip.spdmServe_unexpected hup hv _)
  · exact yields rfl (Chip.spdmServe_ready hup hc _)
  · exact yields rfl (Chip.spdmServe_unexpected hup hc _)
  · exact yields rfl ((getDigests_serves tr c).trans (Chip.spdmServe_unexpected hup ha _))
  · exact yields rfl (Chip.spdmServe_unexpected hup ha _)
  · exact yields rfl (Chip.spdmServe_unexpected hup ha _)
  · exact yields rfl (Chip.spdmServe_unexpected hup ha _)
  · exact yields rfl ((getDigests_serves tr c).trans (Chip.spdmServe_ready hup ha _))
  · exact yields rfl (getCertificate_noChain hup ha hc o l)
  · exact yields rfl (spdmChallenge_noChain hup ha hc m x)
  · exact yields rfl ((getCertificate_chain hup ha hc o l).trans (if_pos ho))
  · exact yields rfl ((getCertificate_chain hup ha hc o l).trans (if_neg (not_le.2 ho)))
  · exact yields rfl (spdmChallenge_chain hup ha hc 0 x)
  · exact yields rfl ((spdmChallenge_chain hup ha hc m x).trans (by rw [if_neg hm]))
  · exact yields rfl (getMeasurements_noBlock hup ha hm g x)
  · exact yields rfl (getMeasurements_block hup ha hm true x)
  · exact yields rfl (getMeasurements_block hup ha hm false x)

end Sys2Proof

/-! ### Controllers, their queues and the fetch of entries (R102 to R105, R111 to R117) -/

namespace Sys2Proof.Machine

/-! #### CC.EN, the ready bit and the doorbells -/

section
variable {c : Chip} {fn : Nat}

/-- R102: CC.EN set again has no effect. -/
theorem ccEnSet_enabled (h : c.on (R.NVM_CC_EN fn) = true) : ccEnSet fn c = c := if_pos (by simp [h])

/-- R104: CC.EN cleared resets the controller. -/
theorem ccEnClear_enabled (h : c.on (R.NVM_CC_EN fn) = true) : ccEnClear fn c =
    (c.resetCtrls (fun f => f == fn)).clearAll [R.NVM_CC_EN fn, R.NVM_CSTS_RDY fn, R.NVM_CSTS_CFS fn, R.NVM_CSTS_SHST fn] := if_pos h

theorem ccEnClear_disabled (h : c.on (R.NVM_CC_EN fn) = false) : ccEnClear fn c = c := if_neg (ne_true_of_eq_false h)

section
variable (hp : c.present fn = true) (hn : c.on (R.NVM_CC_EN fn) = false)
include hp hn

/-- R102: settings that the head does not support fail the controller, with their event. -/
theorem ccEnSet_invalid (hv : (c.set (R.NVM_CC_EN fn) 1).ccValid fn = false) :
    ccEnSet fn c = ((c.set (R.NVM_CC_EN fn) 1).set (R.NVM_CSTS_CFS fn) 1).event 0x012 20 0x14 1 fn 0 :=
  (if_neg (by simp [hp, hn])).trans (if_neg (ne_true_of_eq_false hv))

/-- R102, R415: a controller enabled has its admin queues; where the host is not to be announced to the peer, nothing else changes. -/
theorem ccEnSet_valid (hv : (c.set (R.NVM_CC_EN fn) 1).ccValid fn = true) (hl : ¬ (fn = 0 ∧ c.epc.link = .l0)) :
    let e := c.set (R.NVM_CC_EN fn) 1
    ccEnSet fn c = e.modCtrl fn (fun k => { k with
      sqs := [⟨0, e.get (R.NVM_AQA_ASQS fn) + 1, e.get (R.NVM_ASQ_ASQB fn), 0, 0, 0, 0, none⟩]
      cqs := [⟨0, e.get (R.NVM_AQA_ACQS fn) + 1, e.get (R.NVM_ACQ_ACQB fn), 0, true, 0, 0, 1, []⟩]
      enAt := some e.now }) := by
  intro e
  have hsilent : (if fn = 0 && e.epc.link == .l0 then e.notice 2 0 else e) = e := if_neg (by simpa [e] using hl)
  refine (if_neg (by simp [hp, hn])).trans ((if_pos hv).trans ?_)
  dsimp only
  rw [hsilent]

end

/-- R103: an enabled controller that has not failed becomes ready in service, or in a head that stays in its loader. -/
theorem controllerReady_sets (hn : c.on (R.NVM_CC_EN fn) = true) (hf : c.on (R.NVM_CSTS_CFS fn) = false)
    (hs : c.inService = true ∨ c.on R.GLB_STATUS_LOADER_ONLY = true) : controllerReady fn c = c.set (R.NVM_CSTS_RDY fn) 1 :=
  if_pos (by simpa [hn, hf] using hs)

theorem controllerReady_stays (h : c.on (R.NVM_CC_EN fn) = false ∨ c.on (R.NVM_CSTS_CFS fn) = true) : controllerReady fn c = c :=
  if_neg (by rcases h with h | h <;> simp [h])

variable {qid v : Nat}

theorem sqTailDoorbell_unknown (h : c.sqOf fn qid = none) : sqTailDoorbell fn qid v c = c.asyncEvent fn 0 0 1 := by
  simp only [sqTailDoorbell, h, Chip.badDoorbell]

/-- R111: a tail within the queue is its new tail. -/
theorem sqTailDoorbell_queue {q : Sq} (h : c.sqOf fn qid = some q) : sqTailDoorbell fn qid v c =
    if q.size ≤ v then c.asyncEvent fn 0 1 1 else c.modSq fn qid (fun q => { q with tail := v }) := by
  simp only [sqTailDoorbell, h, Chip.badDoorbell]

theorem cqHeadDoorbell_unknown (h : c.cqOf fn qid = none) : cqHeadDoorbell fn qid v c = c.asyncEvent fn 0 0 1 := by
  simp only [cqHeadDoorbell, h, Chip.badDoorbell]

/-- R111, R112: a head that passes no unposted entry releases the entries before it, and what waits is posted. -/
theorem cqHeadDoorbell_queue {q : Cq} (h : c.cqOf fn qid = some q) : cqHeadDoorbell fn qid v c =
    if q.size ≤ v ∨ (q.tail + q.size - q.head) % q.size < (v + q.size - q.head) % q.size then c.asyncEvent fn 0 1 1
    else ((c.modCq fn qid (fun q => { q with head := v })).drainCq fn qid q.waiting.length).postsDone fn := by
  simp only [cqHeadDoorbell, h, Chip.badDoorbell, Bool.or_eq_true, decide_eq_true_eq]

end

/-! #### SQ_FETCH_ISSUE (R114 to R117, R195) -/

/-- The chip with what a load withholds noted (R195). -/
def Chip.holding (c : Chip) (load : Load) : Chip := { c with nvm := { c.nvm with hold := c.heldBy load } }

/-- A visit of one slot fetches one run of entries, where there are any. -/
theorem Chip.fetchVisit_one {e : Chip} {fn qid : Nat} {q : Sq} (h : e.sqOf fn qid = some q) (room : Nat) :
    e.fetchVisit fn qid room 1 = if fetchCount q room = 0 then e else e.issueFetch fn q (fetchCount q room) := by
  simp only [Chip.fetchVisit, h]

section
variable {c : Chip} {load : Load} {busy : List Nat}

/-- R115: an admin queue's entries come first. -/
theorem sqFetchIssue_admin {f : Nat} (h : (c.holding load).adminReady = some f) :
    sqFetchIssue load busy c = (c.holding load).fetchVisit f 0 (8 - (c.holding load).adminBusy f) 1 := by
  unfold Chip.holding at h
  simp only [sqFetchIssue, h, Chip.holding]

variable (h : (c.holding load).adminReady = none)
include h

/-- R116: with every context of the head taken nothing is fetched. -/
theorem sqFetchIssue_full (hall : 262144 ≤ (c.holding load).ioAll) : sqFetchIssue load busy c = c.holding load := by
  unfold Chip.holding at h hall
  simp [sqFetchIssue, h, hall, Chip.holding]

/-- R114: the next pool that is not busy serves the next queue of its next tenant that owes nothing. -/
theorem sqFetchIssue_serves (hall : (c.holding load).ioAll < 262144)
    (hslots : ((c.holding load).fetchesOf (fun _ sq => sq != 0)).length < 480) {pool f : Nat} {q : Sq}
    (hp : ((upFrom (c.holding load).nvm.fetchPool 15).map (· % 15)).find? (fun p => !busy.contains p && !((c.holding load).poolFns p).isEmpty) =
      some pool) :
    let e := c.holding load
    let d := e.payRounds (e.poolFns pool)
    (e.poolFns pool).find? (fun f => (d.ctrl f).deficit == 0) = some f → (d.ioQueues f).head? = some q →
    sqFetchIssue load busy c =
      ((({ d with nvm := { d.nvm with fetchPool := (pool + 1) % 15, fetchFn := f } } : Chip).modCtrl f
        (fun k => { k with nextSq := q.qid })).fetchVisit f q.qid
        (min (burstOf (d.ctrl f).arb) (min (32768 - d.ioBusy f) (262144 - d.ioAll)))
        (480 - (e.fetchesOf (fun _ sq => sq != 0)).length)) := by
  intro e d hf hq
  have hgo : (decide (480 - (e.fetchesOf (fun _ sq => sq != 0)).length = 0) || decide (262144 ≤ e.ioAll)) = false := by
    rw [Bool.or_eq_false_iff]
    exact ⟨decide_eq_false (Nat.sub_ne_zero_of_lt hslots), decide_eq_false (not_le.2 hall)⟩
  simp only [Chip.holding] at h hp
  simp only [e, d, Chip.holding] at hf hq hgo ⊢
  simp only [sqFetchIssue, h, hgo, hp, hf, hq]
  rfl

end

theorem coalescingTimer_waits {c : Chip} {fn vec : Nat}
    (h : Sparse.get 0 (c.ctrl fn).coalCount vec = 0 ∨ c.now < Sparse.get 0 (c.ctrl fn).coalAt vec + bitsOf (c.ctrl fn).coal 8 8 * 100000) :
    coalescingTimer fn vec c = c := if_pos (by simpa using h)

/-- R113: the interrupt of a vector whose coalescing time has run is sent. -/
theorem coalescingTimer_sends {c : Chip} {fn vec : Nat} (h : Sparse.get 0 (c.ctrl fn).coalCount vec ≠ 0)
    (ht : Sparse.get 0 (c.ctrl fn).coalAt vec + bitsOf (c.ctrl fn).coal 8 8 * 100000 ≤ c.now) :
    coalescingTimer fn vec c = (c.modCtrl fn (fun k => { k with coalCount := Sparse.set 0 k.coalCount vec 0 })).cause fn vec :=
  if_neg (by simpa using ⟨h, ht⟩)

end Sys2Proof.Machine

namespace Sys2Proof
open Sys2Proof.Machine

/-- Settles O19: each register write and doorbell by the controller and the queue it names, the fetch by what is ready, the timer by its time. -/
theorem controllersAct : Obligations.ControllersAct := by
  intro s ha fn hfn c
  have hwf : decide (fn < 1024) = true := decide_eq_true hfn
  refine ⟨fun hb => ?_, fun hn hf hs => ?_, fun h => ?_, fun load busy => ?_, fun vec => ⟨fun h => ?_, fun h ht => ?_⟩⟩
  · have bar {row : Instr} {f : Chip → Chip} {d : Chip} (hx : exec row s = s.runBar (decide (fn < 1024)) fn f) (hd : f c = d) : Yields row s d :=
      Yields.bar ha hb hx hwf hd
    refine ⟨fun hp hn => ⟨fun hv => ?_, fun hv hl => ?_⟩, fun hn => ⟨?_, ?_⟩, ?_, ?_, fun hn => ?_, fun qid v h => ?_,
      fun qid v q h => ⟨fun hv => ?_, fun hv => ?_⟩, fun qid v h => ?_, fun qid v q h => ⟨fun hv => ?_, fun hv hm => ?_⟩⟩
    · exact bar rfl (ccEnSet_invalid hp hn hv)
    · exact bar rfl (ccEnSet_valid hp hn hv hl)
    · exact bar rfl (ccEnSet_enabled hn)
    · exact bar rfl (ccEnClear_enabled hn)
    · exact bar rfl rfl
    · exact bar rfl rfl
    · exact bar rfl (ccEnClear_disabled hn)
    · exact bar rfl (sqTailDoorbell_unknown h)
    · exact bar rfl ((sqTailDoorbell_queue h).trans (if_pos hv))
    · exact bar rfl ((sqTailDoorbell_queue h).trans (if_neg (not_le.2 hv)))
    · exact bar rfl (cqHeadDoorbell_unknown h)
    · exact bar rfl ((cqHeadDoorbell_queue h).trans (if_pos hv))
    · exact bar rfl ((cqHeadDoorbell_queue h).trans (if_neg (not_or.2 ⟨not_le.2 hv, not_lt.2 hm⟩)))
  · exact Yields.awake ha rfl hwf (controllerReady_sets hn hf hs)
  · exact Yields.awake ha rfl hwf (controllerReady_stays h)
  · refine ⟨fun f q hr hq => ?_, fun hr hall => ?_, fun pool f q hr hall hslots hp hf hq => ?_⟩
    · exact Yields.awake ha rfl rfl ((sqFetchIssue_admin hr).trans (Chip.fetchVisit_one hq _))
    · exact Yields.awake ha rfl rfl (sqFetchIssue_full hr hall)
    · exact Yields.awake ha rfl rfl (sqFetchIssue_serves hr hall hslots hp hf hq)
  · exact Yields.awake ha rfl hwf (coalescingTimer_waits h)
  · exact Yields.awake ha rfl hwf (coalescingTimer_sends h ht)

end Sys2Proof

/-! ### The queue commands, Abort and Asynchronous Event Request (R109, R110, R122, R123) -/

namespace Sys2Proof.Machine

/-! #### What a command that cannot begin does (R107, R117) -/

/-- R114, R117: a command that was not fetched has no effect. -/
theorem Chip.execute_notFetched {c : Chip} {id : CmdId} {admin : Bool} {opc : Nat} (h : c.fetched id admin opc = none)
    (f : Inflight → Chip → Chip) : c.execute id admin opc f = c := by
  simp only [Chip.execute, h]

/-! #### The two Creates (R109) -/

/-- R109: what refuses a queue to be created, in the order of the rule; `used` says that its number is taken. -/
def Chip.createQueueCheck (e : Chip) (fn qid qsize : Nat) (used pc : Bool) (base : Nat) : Option Status :=
  if qid = 0 ∨ (e.tenantOf fn).maxQp < qid ∨ used = true then some ⟨1, 0x01, true⟩
  else if qsize = 0 ∨ 0xFFFF < qsize then some ⟨1, 0x02, true⟩
  else if pc = false ∨ base % e.pageSize fn ≠ 0 then some ⟨0, 0x02, true⟩
  else none

section
variable {e : Chip} {fn qid qsize base : Nat} {used pc : Bool}

theorem Chip.createQueueCheck_elim (d : Chip) (f : Status → Chip) : (e.createQueueCheck fn qid qsize used pc base).elim d f =
    if qid = 0 ∨ (e.tenantOf fn).maxQp < qid ∨ used = true then f ⟨1, 0x01, true⟩
    else if qsize = 0 ∨ 0xFFFF < qsize then f ⟨1, 0x02, true⟩
    else if pc = false ∨ base % e.pageSize fn ≠ 0 then f ⟨0, 0x02, true⟩
    else d := by
  unfold Chip.createQueueCheck
  split_ifs <;> rfl

theorem Chip.createQueueCheck_badId (h : qid = 0 ∨ (e.tenantOf fn).maxQp < qid ∨ used = true) :
    e.createQueueCheck fn qid qsize used pc base = some ⟨1, 0x01, true⟩ := if_pos h

variable (h : ¬ (qid = 0 ∨ (e.tenantOf fn).maxQp < qid ∨ used = true))
include h

theorem Chip.createQueueCheck_badSize (hs : qsize = 0 ∨ 0xFFFF < qsize) :
    e.createQueueCheck fn qid qsize used pc base = some ⟨1, 0x02, true⟩ := (if_neg h).trans (if_pos hs)

variable (hlo : 1 ≤ qsize) (hhi : qsize ≤ 0xFFFF)
include hlo hhi

theorem Chip.createQueueCheck_badBase (hb : pc = false ∨ base % e.pageSize fn ≠ 0) :
    e.createQueueCheck fn qid qsize used pc base = some ⟨0, 0x02, true⟩ :=
  (if_neg h).trans ((if_neg (by omega)).trans (if_pos hb))

theorem Chip.createQueueCheck_passes (hp : pc = true) (hb : base % e.pageSize fn = 0) :
    e.createQueueCheck fn qid qsize used pc base = none :=
  (if_neg h).trans ((if_neg (by omega)).trans (if_neg (by simp [hp, hb])))

end

section
variable {s : State} {id : CmdId} {i : Inflight}

theorem createIoSubmissionQueue_fetched (h : Fetching s id true 0x01 i) (qid qsize cqid : Nat) (pc : Bool) (base : Nat) :
    let e := s.chip.begun id
    createIoSubmissionQueue id qid qsize cqid pc base s.chip =
      (e.createQueueCheck id.fn qid qsize (e.sqOf id.fn qid).isSome pc base).elim
        (if cqid = 0 ∨ e.cqOf id.fn cqid = none then e.finish id ⟨1, 0x00, true⟩
          else (e.modCtrl id.fn (fun k => { k with
            createdIo := true, sqs := k.sqs ++ [⟨qid, qsize + 1, base, cqid, 0, 0, 0, none⟩] })).finish id ⟨0, 0, false⟩)
        (e.finish id) := by
  refine (h.executes _).trans ?_
  simp only [Chip.createQueueCheck_elim, Bool.or_eq_true, decide_eq_true_eq, or_assoc, Bool.not_eq_true',
    bne_iff_ne, Option.isNone_iff_eq_none]
  rfl

theorem createIoCompletionQueue_fetched (h : Fetching s id true 0x05 i) (qid qsize vec : Nat) (pc ien : Bool) (base : Nat) :
    let e := s.chip.begun id
    createIoCompletionQueue id qid qsize vec pc ien base s.chip =
      (e.createQueueCheck id.fn qid qsize (e.cqOf id.fn qid).isSome pc base).elim
        (if 1024 < vec then e.finish id ⟨1, 0x08, true⟩
          else (e.modCtrl id.fn (fun k => { k with
            createdIo := true, cqs := k.cqs ++ [⟨qid, qsize + 1, base, vec, ien, 0, 0, 1, []⟩] })).finish id ⟨0, 0, false⟩)
        (e.finish id) := by
  refine (h.executes _).trans ?_
  simp only [Chip.createQueueCheck_elim, Bool.or_eq_true, decide_eq_true_eq, or_assoc, Bool.not_eq_true',
    bne_iff_ne]
  rfl

/-! #### The two Deletes (R110) -/

theorem deleteIoCompletionQueue_fetched (h : Fetching s id true 0x04 i) (qid : Nat) :
    let e := s.chip.begun id
    deleteIoCompletionQueue id qid s.chip =
      if qid = 0 ∨ e.cqOf id.fn qid = none then e.finish id ⟨1, 0x01, true⟩
      else if (e.ctrl id.fn).sqs.any (fun q => q.cq == qid) = true then e.finish id ⟨1, 0x0C, true⟩
      else (e.modCtrl id.fn (fun k => { k with cqs := k.cqs.filter (fun q => q.qid != qid) })).finish id ⟨0, 0, false⟩ := by
  refine (h.executes _).trans ?_
  simp only [Bool.or_eq_true, decide_eq_true_eq, Option.isNone_iff_eq_none]
  rfl

/-- R110: a submission queue deleted: it is stopped, its fetches are dropped, its commands that have not begun are aborted, and the Delete completes
after the queue's last completion. -/
def Chip.deleteSq (e : Chip) (id : CmdId) (qid : Nat) : Chip :=
  let d := e.modSq id.fn qid (fun q => { q with deleting := some id.cid })
  let idle := (d.flights id.fn).filter (fun j => j.id.sq == qid && !j.started)
  let isIdle (k : CmdId) : Bool := idle.any (fun j => j.id == k)
  let d := d.dropXfers (fun x => match x.purpose with
    | .entryFetch f n _ _ _ => f == id.fn && n == qid
    | .list k => isIdle k
    | _ => false)
  let d := ({ d with ing := { d.ing with
    reads := d.ing.reads.filter (fun r => !isIdle r.id), walks := d.ing.walks.filter (fun w => !isIdle w.id) } } : Chip).keepWanted
  (idle.foldl (fun d j => d.finish j.id ⟨0, 0x08, true⟩) d).endDeletes id.fn

theorem deleteIoSubmissionQueue_refused (h : Fetching s id true 0x00 i) {qid : Nat}
    (hq : ∀ q, (s.chip.begun id).sqOf id.fn qid = some q → qid = 0 ∨ q.deleting.isSome = true) :
    deleteIoSubmissionQueue id qid s.chip = (s.chip.begun id).finish id ⟨1, 0x01, true⟩ := by
  refine (h.executes _).trans ?_
  dsimp only
  split
  · rfl
  next q hs => exact if_pos (by simpa using hq q hs)

theorem deleteIoSubmissionQueue_deletes (h : Fetching s id true 0x00 i) {qid : Nat} {q : Sq} (hq : (s.chip.begun id).sqOf id.fn qid = some q)
    (h0 : qid ≠ 0) (hd : q.deleting = none) : deleteIoSubmissionQueue id qid s.chip = (s.chip.begun id).deleteSq id qid := by
  refine (h.executes _).trans ?_
  simp only [hq]
  exact if_neg (by simp [h0, hd])

/-! #### Abort and Asynchronous Event Request (R122, R123) -/

theorem nvmeAbort_fetched (h : Fetching s id true 0x08 i) (target : CmdId) :
    nvmeAbort id target s.chip = if 4 ≤ (s.chip.begun id).abortsBefore id then (s.chip.begun id).finish id ⟨1, 0x03, true⟩
      else (s.chip.begun id).finishWith id 1 ⟨0, 0, false⟩ := h.executes _

theorem asynchronousEventRequest_fetched (h : Fetching s id true 0x0C i) :
    let e := s.chip.begun id
    asynchronousEventRequest id s.chip = if 4 ≤ (e.ctrl id.fn).aers.length then e.finish id ⟨1, 0x05, true⟩
      else ((e.dropFlight id).modCtrl id.fn (fun k => { k with aers := k.aers ++ [id.cid] })).flushAsync id.fn := h.executes _

end

end Sys2Proof.Machine

namespace Sys2Proof
open Sys2Proof.Machine

/-- Settles O20: each command by the first of its checks that fails, or by the queue or request that it leaves. -/
theorem adminQueueCommandsComplete : Obligations.AdminQueueCommandsComplete := by
  intro s id i e done
  refine ⟨fun ha hid h a b d pc base => ?_, fun h qid qsize cqid pc base => ?_, fun h qid qsize vec pc ien base => ?_, fun h qid => ?_,
    fun h qid => ?_, fun h target ht => ?_, fun h => ?_⟩
  · exact Yields.awake ha rfl (decide_eq_true hid) (Chip.execute_notFetched h _)
  · intro row bad
    have creates {d : Chip} (hd) : Yields row s d :=
      Yields.ofFetching rfl ((createIoSubmissionQueue_fetched h qid qsize cqid pc base).trans hd) h
    refine ⟨fun hb => ?_, fun hb hs => ?_, fun hb hlo hhi => ⟨fun hp => ?_, fun hp hz => ⟨fun hc => ?_, fun h0 hc => ?_⟩⟩⟩
    · exact creates (elim_of_eq_some (Chip.createQueueCheck_badId hb) _ _)
    · exact creates (elim_of_eq_some (Chip.createQueueCheck_badSize hb hs) _ _)
    · exact creates (elim_of_eq_some (Chip.createQueueCheck_badBase hb hlo hhi hp) _ _)
    · exact creates ((elim_of_eq_none (Chip.createQueueCheck_passes hb hlo hhi hp hz) _ _).trans (if_pos hc))
    · exact creates ((elim_of_eq_none (Chip.createQueueCheck_passes hb hlo hhi hp hz) _ _).trans (if_neg (not_or.2 ⟨h0, hc⟩)))
  · intro row bad
    have creates {d : Chip} (hd) : Yields row s d :=
      Yields.ofFetching rfl ((createIoCompletionQueue_fetched h qid qsize vec pc ien base).trans hd) h
    refine ⟨fun hb => ?_, fun hb hs => ?_, fun hb hlo hhi => ⟨fun hp => ?_, fun hp hz => ⟨fun hv => ?_, fun hv => ?_⟩⟩⟩
    · exact creates (elim_of_eq_some (Chip.createQueueCheck_badId hb) _ _)
    · exact creates (elim_of_eq_some (Chip.createQueueCheck_badSize hb hs) _ _)
    · exact creates (elim_of_eq_some (Chip.createQueueCheck_badBase hb hlo hhi hp) _ _)
    · exact creates ((elim_of_eq_none (Chip.createQueueCheck_passes hb hlo hhi hp hz) _ _).trans (if_pos hv))
    · exact creates ((elim_of_eq_none (Chip.createQueueCheck_passes hb hlo hhi hp hz) _ _).trans (if_neg (not_lt.2 hv)))
  · intro bad used
    have deletes {d : Chip} (hd) : Yields (.deleteIoCompletionQueue id qid) s d :=
      Yields.ofFetching rfl ((deleteIoCompletionQueue_fetched h qid).trans hd) h
    refine ⟨fun hb => ?_, fun hb hu => ?_, fun hb hu => ?_⟩
    · exact deletes (if_pos hb)
    · exact deletes ((if_neg hb).trans (if_pos hu))
    · exact deletes ((if_neg hb).trans (if_neg (ne_true_of_eq_false hu)))
  · refine ⟨fun hq => ?_, fun q hq h0 => ⟨fun hd => ?_, fun hd => ?_⟩⟩
    · refine Yields.ofFetching rfl (deleteIoSubmissionQueue_refused h (fun q hs => .inl ?_)) h
      exact hq.resolve_left (by simp [e, hs])
    · refine Yields.ofFetching rfl (deleteIoSubmissionQueue_refused h (fun q' hs => .inr ?_)) h
      exact Option.some.inj (hq.symm.trans hs) ▸ hd
    · exact Yields.ofFetching rfl (deleteIoSubmissionQueue_deletes h hq h0 hd) h
  · intro out
    have ⟨ha, hid, _⟩ := h
    have hwf : (id.wf && target.wf) = true := Bool.and_eq_true_iff.2 ⟨decide_eq_true hid, decide_eq_true ht⟩
    have aborts {d : Chip} (hd) : Yields (.nvmeAbort id target) s d := Yields.awake ha rfl hwf ((nvmeAbort_fetched h target).trans hd)
    exact ⟨fun h4 => aborts (if_pos h4), fun h4 => aborts (if_neg (not_le.2 h4))⟩
  · have requests {d : Chip} (hd) : Yields (.asynchronousEventRequest id) s d :=
      Yields.ofFetching rfl ((asynchronousEventRequest_fetched h).trans hd) h
    exact ⟨fun h4 => requests (if_pos h4), fun h4 => requests (if_neg (not_le.2 h4))⟩

end Sys2Proof

/-! ### Get Log Page, Identify and the features (R108, R113, R121, R123, R141) -/

namespace Sys2Proof.Machine

section
variable {s : State} {id : CmdId} {i : Inflight}

/-- R120, R121: a command whose buffer has a bad form is refused before any other check of its fields. -/
theorem Chip.executeOut_fetched {opc : Nat} (h : Fetching s id true opc i) (buf : DPtr) (bytes : Nat) (f : Inflight → Chip → Chip) :
    s.chip.executeOut id opc buf bytes f =
      if badForm { i.form with dptr := buf } bytes = true then (s.chip.begun id).finish id ⟨0, 0x02, true⟩ else f i (s.chip.begun id) :=
  h.executes _

/-! #### Get Log Page and Identify -/

/-- R123, R141: a page that the head serves is returned from its offset, and with RAE 0 its events are unmasked. -/
theorem getLogPage_fetched (h : Fetching s id true 0x02 i) (lid ofs len : Nat) (rae : Bool) (buf : DPtr) :
    let e := s.chip.begun id
    getLogPage id lid ofs len rae buf s.chip =
      if badForm { i.form with dptr := buf } len = true then e.finish id ⟨0, 0x02, true⟩
      else (e.logPage id.fn lid).elim (e.finish id ⟨1, 0x09, true⟩) (fun bs =>
        if bs.length < ofs then e.finish id ⟨0, 0x02, true⟩
        else e.returnData id i buf len ((bs.drop ofs).take len) (if rae then none else some lid)) := by
  intro e
  refine (Chip.executeOut_fetched h buf len _).trans (if_congr Iff.rfl rfl ?_)
  change (match e.logPage id.fn lid with | none => _ | some bs => _) = _
  cases e.logPage id.fn lid <;> rfl

/-- R121, R141: Identify judges its buffer and its CNS before its namespace. -/
theorem identify_fetched (h : Fetching s id true 0x06 i) (cns csi nsid : Nat) (buf : DPtr) :
    let e := s.chip.begun id
    identify id cns csi nsid buf s.chip =
      if badForm { i.form with dptr := buf } 4096 = true ∨ identifies id.fn cns csi = false then e.finish id ⟨0, 0x02, true⟩
      else if (cns ∈ [0x00, 0x03, 0x05, 0x11, 0x12] ∧ (nsid = 0 ∨ 4096 < nsid)) ∨ (cns = 3 ∧ e.attached id.fn nsid = false) then
        e.finish id ⟨0, 0x0B, true⟩
      else e.returnData id i buf 4096 (e.identifyData id.fn cns nsid (i.dw 10 / 65536)) none := by
  intro e
  refine (Chip.executeOut_fetched h buf 4096 _).trans ?_
  simp only [ite_or, Bool.and_eq_true, Bool.or_eq_true, decide_eq_true_eq, Bool.not_eq_true', List.contains_iff_mem]
  rfl

end

/-! #### Set Features (R108, R113, R141) -/

section
variable {s : State} {id : CmdId} {i : Inflight} (h : Fetching s id true 0x09 i) (dw : Nat)
include h

theorem setFeatures_unknown {fid : Nat} (hf : fid ∉ features) (save : Bool) :
    setFeatures id fid dw save s.chip = (s.chip.begun id).finish id ⟨0, 0x02, true⟩ :=
  (h.executes _).trans (if_pos (by simpa using hf))

/-- R141: no feature can be saved. -/
theorem setFeatures_save {fid : Nat} (hf : fid ∈ features) :
    setFeatures id fid dw true s.chip = (s.chip.begun id).finish id ⟨1, 0x0D, true⟩ :=
  (h.executes _).trans (if_neg (by simpa using hf))

theorem setFeatures_arbitration : setFeatures id 0x01 dw false s.chip =
    ((s.chip.begun id).modCtrl id.fn (fun k => { k with arb := dw })).finish id ⟨0, 0, false⟩ := h.executes _

/-- R141: power state 0 is the only one. -/
theorem setFeatures_power : setFeatures id 0x02 dw false s.chip =
    if dw % 32 = 0 then (s.chip.begun id).finish id ⟨0, 0, false⟩ else (s.chip.begun id).finish id ⟨0, 0x02, true⟩ := h.executes _

/-- R141: only the composite temperature has thresholds, one over and one under. -/
theorem setFeatures_threshold :
    let e := s.chip.begun id
    setFeatures id 0x04 dw false s.chip =
      if 1 ≤ bitsOf dw 16 4 ∧ bitsOf dw 16 4 ≤ 8 then e.finish id ⟨0, 0x02, true⟩
      else if bitsOf dw 20 2 = 0 then (e.modCtrl id.fn (fun k => { k with tempOver := dw % 65536 })).finish id ⟨0, 0, false⟩
      else if bitsOf dw 20 2 = 1 then (e.modCtrl id.fn (fun k => { k with tempUnder := dw % 65536 })).finish id ⟨0, 0, false⟩
      else e.finish id ⟨0, 0x02, true⟩ :=
  (h.executes _).trans ((if_neg (by decide)).trans ((if_neg (by decide)).trans (if_congr (by simp) rfl rfl)))

/-- R108: the number of queues is answered until a queue is created, by a function that has I/O queues. -/
theorem setFeatures_queues :
    let e := s.chip.begun id
    setFeatures id 0x07 dw false s.chip =
      if (e.tenantOf id.fn).maxQp = 0 then e.finish id ⟨0, 0x02, true⟩
      else if (e.ctrl id.fn).createdIo = true then e.finish id ⟨0, 0x0C, true⟩
      else e.finishWith id (((e.tenantOf id.fn).maxQp - 1) * 65537) ⟨0, 0, false⟩ := h.executes _

theorem setFeatures_coalescing : setFeatures id 0x08 dw false s.chip =
    ((s.chip.begun id).modCtrl id.fn (fun k => { k with coal := dw % 65536 })).finish id ⟨0, 0, false⟩ := h.executes _

/-- R113: coalescing is turned off or on for one vector. -/
theorem setFeatures_vector :
    let e := s.chip.begun id
    setFeatures id 0x09 dw false s.chip =
      if 1024 < dw % 65536 then e.finish id ⟨0, 0x02, true⟩
      else (e.modCtrl id.fn (fun k =>
        let others := k.coalOff.filter (· != dw % 65536)
        { k with coalOff := if bitOf dw 16 then dw % 65536 :: others else others })).finish id ⟨0, 0, false⟩ := h.executes _

/-- R123: events that the new configuration admits are reported. -/
theorem setFeatures_events : setFeatures id 0x0B dw false s.chip =
    (((s.chip.begun id).modCtrl id.fn (fun k => { k with aeCfg := dw })).flushAsync id.fn).finish id ⟨0, 0, false⟩ := h.executes _

end

/-! #### Get Features (R108, R141) -/

section
variable {s : State} {id : CmdId} {i : Inflight} (h : Fetching s id true 0x0A i) {fid : Nat}
include h

theorem getFeatures_refused (hf : ¬ (fid ∈ features ∧ (fid = 7 → ((s.chip.begun id).tenantOf id.fn).maxQp ≠ 0))) (sel : Nat) :
    getFeatures id fid sel s.chip = (s.chip.begun id).finish id ⟨0, 0x02, true⟩ := by
  refine (h.executes _).trans (if_pos ?_)
  rw [not_and_or, Classical.not_imp, not_not] at hf
  simpa using hf

/-- R141: the select gives the value, the default (also as the saved value), or the capabilities. -/
theorem getFeatures_has (hf : fid ∈ features ∧ (fid = 7 → ((s.chip.begun id).tenantOf id.fn).maxQp ≠ 0)) (sel : Nat) :
    let e := s.chip.begun id
    getFeatures id fid sel s.chip =
      if sel = 0 then e.finishWith id (e.featureNow id.fn fid (i.dw 11)) ⟨0, 0, false⟩
      else if sel ≤ 2 then e.finishWith id (e.featureDefault id.fn fid (i.dw 11)) ⟨0, 0, false⟩
      else if sel = 3 then e.finishWith id (if fid = 2 ∨ fid = 7 then 0 else 4) ⟨0, 0, false⟩
      else e.finish id ⟨0, 0x02, true⟩ := by
  intro e
  refine (h.executes _).trans ((if_neg ?_).trans ?_)
  · simpa using hf
  · match sel with
    | 0 | 1 | 2 => rfl
    | 3 => simp only [Bool.or_eq_true, decide_eq_true_eq]; rfl
    | n + 4 => rfl

end

end Sys2Proof.Machine

namespace Sys2Proof
open Sys2Proof.Machine

/-- Settles O21: each command by the first of its checks that fails, each feature by its own equation. -/
theorem adminInformationCommandsComplete : Obligations.AdminInformationCommandsComplete := by
  intro s id i e fn field ok
  refine ⟨fun h lid ofs len buf rae => ?_, fun h cns csi nsid buf => ?_, fun h dw => ?_, fun h fid => ?_⟩
  · intro row badBuf
    have logs {d : Chip} (hd) : Yields row s d := Yields.ofFetching rfl ((getLogPage_fetched h lid ofs len rae buf).trans hd) h
    refine ⟨fun hb => logs (if_pos hb), fun hb => ?_⟩
    replace logs {d : Chip} (hd) : Yields row s d := logs ((if_neg (ne_true_of_eq_false hb)).trans hd)
    refine ⟨fun hp => ?_, fun bs hp => ⟨fun ho => ?_, fun ho => ?_⟩⟩
    · exact logs (elim_of_eq_none hp _ _)
    · exact logs ((elim_of_eq_some hp _ _).trans (if_pos ho))
    · exact logs ((elim_of_eq_some hp _ _).trans (if_neg (not_lt.2 ho)))
  · intro row bad noNs
    have answers {d : Chip} (hd) : Yields row s d := Yields.ofFetching rfl ((identify_fetched h cns csi nsid buf).trans hd) h
    refine ⟨fun hb => ?_, fun hb hn => ?_, fun hb hn => ?_⟩
    · exact answers (if_pos hb)
    · exact answers ((if_neg hb).trans (if_pos hn))
    · exact answers ((if_neg hb).trans (if_neg hn))
  · have sets {fid : Nat} {save : Bool} {d : Chip} (hd : setFeatures id fid dw save s.chip = d) : Yields (.setFeatures id fid dw save) s d :=
      Yields.ofFetching rfl hd h
    have htemp := setFeatures_threshold h dw
    have hqueues := setFeatures_queues h dw
    refine ⟨fun fid sv hf => ?_, fun fid hf => ?_, ?_, fun hz => ?_, fun hz => ?_, fun hs => ?_, fun hs h0 => ?_, fun hs h1 => ?_, fun h2 => ?_,
      fun hq => ?_, fun hq hc => ?_, fun hq hc => ?_, ?_, fun hv => ?_, fun hv => ?_, ?_⟩
    · exact sets (setFeatures_unknown h dw hf sv)
    · exact sets (setFeatures_save h dw hf)
    · exact sets (setFeatures_arbitration h dw)
    · exact sets ((setFeatures_power h dw).trans (if_pos hz))
    · exact sets ((setFeatures_power h dw).trans (if_neg hz))
    · exact sets (htemp.trans (if_pos hs))
    · exact sets (htemp.trans ((if_neg hs).trans (if_pos h0)))
    · exact sets (htemp.trans ((if_neg hs).trans ((if_neg (by omega)).trans (if_pos h1))))
    · refine sets (htemp.trans ?_)
      rw [if_neg (show bitsOf dw 20 2 ≠ 0 by omega), if_neg (show bitsOf dw 20 2 ≠ 1 by omega), ite_self]
    · exact sets (hqueues.trans (if_pos hq))
    · exact sets (hqueues.trans ((if_neg hq).trans (if_neg (ne_true_of_eq_false hc))))
    · exact sets (hqueues.trans ((if_neg hq).trans (if_pos hc)))
    · exact sets (setFeatures_coalescing h dw)
    · exact sets ((setFeatures_vector h dw).trans (if_pos hv))
    · exact sets ((setFeatures_vector h dw).trans (if_neg (not_lt.2 hv)))
    · exact sets (setFeatures_events h dw)
  · intro has
    have gets {sel : Nat} {d : Chip} (hd : getFeatures id fid sel s.chip = d) : Yields (.getFeatures id fid sel) s d :=
      Yields.ofFetching rfl hd h
    refine ⟨fun hf sel => ?_, fun hf => ⟨?_, ?_, ?_, ?_, fun sel hs => ?_⟩⟩
    · exact gets (getFeatures_refused h hf sel)
    · exact gets (getFeatures_has h hf 0)
    · exact gets (getFeatures_has h hf 1)
    · exact gets (getFeatures_has h hf 2)
    · exact gets (getFeatures_has h hf 3)
    · exact gets ((getFeatures_has h hf sel).trans ((if_neg (by omega)).trans ((if_neg (by omega)).trans (if_neg (by omega)))))

end Sys2Proof

/-! ### Namespaces and self-tests (R100, R107, R124 to R128, R136 to R139, R502) -/

namespace Sys2Proof.Machine

/-! #### Commands that a function does not have (R100, R107) -/

/-- R100, R107: a VF has no namespace, firmware or self-test command; its entry is answered as it arrives. -/
theorem Chip.takeEntry_ofVf (c : Chip) {fn : Nat} (hfn : fn ≠ 0) {entry : List Byte}
    (hop : leNat (entry.take 1) ∈ [0x0D, 0x10, 0x11, 0x14, 0x15]) :
    let id : CmdId := ⟨fn, 0, leNat ((entry.drop 2).take 2)⟩
    let j : Inflight := ⟨id, true, leNat (entry.take 1), leNat ((entry.drop 4).take 4), 0, false, false, entry, false, c.kcf.switches, none⟩
    c.takeEntry fn 0 entry = ({ c with nvm := { c.nvm with inflight := c.nvm.inflight ++ [j] } } : Chip).finish id ⟨0, 0x01, true⟩ := by
  have hnone : ∀ o ∈ [0x0D, 0x10, 0x11, 0x14, 0x15], (adminOpcodes fn).contains o = false := by
    simp [adminOpcodes, hfn]
  exact if_pos (by rw [if_pos rfl, hnone _ hop]; rfl)

section
variable {c : Chip} {id : CmdId} {opc : Nat} {i : Inflight} (hf : c.fetched id true opc = some i) (ho : c.offers id.fn opc = false)
include hf ho

theorem Chip.execute_notOffered (f : Inflight → Chip → Chip) : c.execute id true opc f = c.finish id ⟨0, 0x02, true⟩ := by
  simp [Chip.execute, hf, ho, stField]

theorem Chip.executeWith_notOffered (hi : i.input = none) (bytes : Nat) (early : Chip → Option Chip) (f : List Byte → Chip → Chip) :
    c.executeWith id true opc bytes early f = c.finish id ⟨0, 0x02, true⟩ := by
  simp [Chip.executeWith, hf, hi, ho, stField]

end

/-! #### The map ring (R124, R125) -/

section
variable {c : Chip} (h : c.ringOpen = false) (id : CmdId)
include h

theorem namespaceManagement_ringFull (act : NsAction) : namespaceManagement id act c = c := if_pos (by simp [h])

theorem namespaceAttachment_ringFull (nsid : Nat) (attach : Bool) : namespaceAttachment id nsid attach c = c := if_pos (by simp [h])

theorem formatNvm_ringFull (nsid lbaf ses dps : Nat) (ext : Bool) : formatNvm id nsid lbaf ses dps ext c = c := if_pos (by simp [h])

end

section
variable {c : Chip} (h : c.ringOpen = true) (id : CmdId)
include h

theorem namespaceManagement_create : namespaceManagement id .create c =
    c.executeWith id true 0x0D 4096 (fun _ => none) (fun bs e =>
      (e.createCheck (nsSpecOf bs)).elim
        (e.freeNsid.elim (e.finish id ⟨1, 0x16, true⟩) (fun nsid => e.queueNs id nsid (.create (e.createdNs nsid (nsSpecOf bs)))))
        (e.finish id)) := by
  refine (if_neg (by simp [h])).trans (congrArg (c.executeWith id true 0x0D 4096 _) ?_)
  funext bs e
  dsimp only
  cases e.createCheck (nsSpecOf bs) with
  | some st => rfl
  | none =>
    dsimp only [Option.elim]
    cases e.freeNsid <;> rfl

theorem namespaceManagement_delete (nsid : Nat) : namespaceManagement id (.delete nsid) c =
    c.execute id true 0x0D (fun _ e =>
      if nsid = 0xFFFFFFFF then e.finish id ⟨0, 0x02, true⟩
      else if !(e.futureNs nsid).present then e.finish id ⟨0, 0x0B, true⟩
      else e.queueNs id nsid .delete) := if_neg (by simp [h])

theorem namespaceAttachment_open (nsid : Nat) (attach : Bool) : namespaceAttachment id nsid attach c =
    c.executeWith id true 0x15 4096 (fun c => if (c.futureNs nsid).present then none else some (c.finish id ⟨0, 0x0B, true⟩)) (fun bs e =>
      (e.attachCheck nsid attach (ctrlsOf bs)).elim (e.queueNs id nsid (if attach then .attach else .detach)) (e.finish id)) := by
  refine (if_neg (by simp [h])).trans (congrArg (c.executeWith id true 0x15 4096 _) ?_)
  funext bs e
  cases e.attachCheck nsid attach (ctrlsOf bs) <;> rfl

theorem formatNvm_open (nsid lbaf ses dps : Nat) (ext : Bool) : formatNvm id nsid lbaf ses dps ext c =
    c.execute id true 0x80 (fun _ e =>
      if nsid = 0xFFFFFFFF ∨ 1 < ses ∨ 2 < lbaf ∨ dpsOk lbaf dps = false then e.finish id ⟨0, 0x02, true⟩
      else if (e.futureNs nsid).present = false ∨ id.fn ≠ 0 ∧ (e.futureNs nsid).owner ≠ id.fn then e.finish id ⟨0, 0x0B, true⟩
      else e.queueNs id nsid (.format lbaf (dps % 16) ext)) := by
  refine (if_neg (by simp [h])).trans (congrArg (c.execute id true 0x80) ?_)
  funext _ e
  simp only [Bool.or_eq_true, Bool.and_eq_true, decide_eq_true_eq, Bool.not_eq_true', bne_iff_ne, or_assoc]
  rfl

end

/-! #### Attachment (R125) -/

/-- How many namespaces of an owner are attached, once every accepted change has taken effect. -/
def Chip.attachedOf (e : Chip) (owner : Nat) : Nat :=
  ((upFrom 1 4096).filter (fun k => (e.futureNs k).present && (e.futureNs k).attached && (e.futureNs k).owner == owner)).length

/-- Whether a controller list names the owner's controllers and no others. -/
def OwnersOnly (owner : Nat) (l : List Nat) : Prop := l ≠ [] ∧ ∀ x ∈ l, x = owner ∨ x = 0x400 + owner

theorem not_ownersOnly_iff (owner : Nat) (l : List Nat) :
    (l.isEmpty || l.any (fun k => k != owner && k != 0x400 + owner)) = true ↔ ¬ OwnersOnly owner l := by
  simp only [OwnersOnly, Bool.or_eq_true, List.isEmpty_iff, List.any_eq_true, Bool.and_eq_true, bne_iff_ne, not_and_or, not_not, not_forall,
    not_or, exists_prop]

section
variable {e : Chip} {nsid : Nat} {l : List Nat}

theorem Chip.attachCheck_absent (h : (e.futureNs nsid).present = false) (attach : Bool) :
    e.attachCheck nsid attach l = some ⟨0, 0x0B, true⟩ := if_pos (by simp [h])

variable (h : (e.futureNs nsid).present = true)
include h

theorem Chip.attachCheck_badList (hl : ¬ OwnersOnly (e.futureNs nsid).owner l) (attach : Bool) :
    e.attachCheck nsid attach l = some ⟨1, 0x1C, true⟩ :=
  (if_neg (by simp [h])).trans (if_pos ((not_ownersOnly_iff _ _).2 hl))

/-- R125: with a good list the attachments decide, those of the namespace before those of its owner. -/
theorem Chip.attachCheck_goodList (hl : OwnersOnly (e.futureNs nsid).owner l) (attach : Bool) : e.attachCheck nsid attach l =
    if attach && (e.futureNs nsid).attached then some ⟨1, 0x18, true⟩
    else if !attach && !(e.futureNs nsid).attached then some ⟨1, 0x1A, true⟩
    else if attach && decide ((e.tenantOf (e.futureNs nsid).owner).maxNs ≤ e.attachedOf (e.futureNs nsid).owner) then some ⟨1, 0x27, true⟩
    else none :=
  (if_neg (by simp [h])).trans (if_neg (mt (not_ownersOnly_iff _ _).1 (not_not.2 hl)))

end

/-! #### Self-tests (R136 to R139) -/

section
variable {s : State} {id : CmdId} {i : Inflight} (h : Fetching s id true 0x14 i)
include h

/-- R136: code 0xF aborts the test that runs, if one does. -/
theorem testCommand_abort :
    let e := s.chip.begun id
    testCommand id 0xF s.chip = (e.nvm.selfTest.elim e (fun t => e.logTest t 1)).finish id ⟨0, 0, false⟩ := by
  intro e
  refine (h.executes _).trans ?_
  change (match 0xF, e.nvm.selfTest with | 0xF, some t => _ | 0xF, none => _ | k, running => _) = _
  cases e.nvm.selfTest <;> rfl

/-- R136: a test starts where none runs. -/
theorem testCommand_start {k : Nat} (hk : k = 1 ∨ k = 2) :
    let e := s.chip.begun id
    testCommand id k s.chip = if e.nvm.selfTest.isSome then e.finish id ⟨1, 0x1D, false⟩
      else ({ e with nvm := { e.nvm with selfTest := some ⟨k, 0, 1, [], none, 0⟩ } } : Chip).finish id ⟨0, 0, false⟩ := by
  intro e
  refine (h.executes _).trans ?_
  rcases hk with rfl | rfl <;> rfl

theorem testCommand_reserved {k : Nat} (hk : k ∉ [1, 2, 0xF]) :
    testCommand id k s.chip = (s.chip.begun id).finish id ⟨0, 0x02, true⟩ := by
  obtain ⟨h1, h2, hF⟩ : k ≠ 1 ∧ k ≠ 2 ∧ k ≠ 0xF := by simpa using hk
  refine (h.executes _).trans ?_
  simp [h1, h2, hF, stField]

end

/-- A test with one step more counted, its segment noted where it cannot run (R136, R137). -/
def SelfTest.stepped (t : SelfTest) (skip : Bool) : SelfTest :=
  { t with step := t.step + 1, notRun := if skip && !t.notRun.contains t.segment then t.notRun ++ [t.segment] else t.notRun }

/-- What a step finds: a failing unit of a segment that runs is taken out of service and noted (R138). -/
def Chip.testFinds (c : Chip) (t : SelfTest) (failed : Option (Nat × Nat)) : Chip × SelfTest :=
  let skip := !c.segmentRuns t.segment
  let u := t.stepped skip
  match failed with
  | some (k, n) => if skip then (c, u) else ((c.takeOut k n).event 0x004 0 0 t.segment n 0,
      { u with firstFail := some (t.firstFail.getD t.segment)
               shelf := if t.firstFail.isNone && k = 5 && 8 ≤ t.segment then n else t.shelf })
  | none => (c, u)

/-- Whether the step that a test is about to make ends its segment (R137). -/
def Chip.stepEnds (c : Chip) (t : SelfTest) (last : Bool) : Prop :=
  if t.code = 1 then (t.step + 1) % 200 = 0 else last = true ∨ (!c.segmentRuns t.segment) = true

/-- Finding a failing unit changes neither the test's code nor its place. -/
theorem Chip.testFinds_keeps (c : Chip) (t : SelfTest) (failed : Option (Nat × Nat)) :
    (c.testFinds t failed).2.code = t.code ∧ (c.testFinds t failed).2.step = t.step + 1 ∧ (c.testFinds t failed).2.segment = t.segment := by
  unfold Chip.testFinds
  split
  · dsimp only
    split <;> exact ⟨rfl, rfl, rfl⟩
  · exact ⟨rfl, rfl, rfl⟩

theorem Chip.testFinds_ends (c : Chip) (t : SelfTest) (failed : Option (Nat × Nat)) (last : Bool) :
    (c.testFinds t failed).2.ends (last || !c.segmentRuns t.segment) = true ↔ c.stepEnds t last := by
  obtain ⟨hcode, hstep, -⟩ := c.testFinds_keeps t failed
  unfold SelfTest.ends Chip.stepEnds
  rw [hcode, hstep]
  split
  · exact beq_iff_eq
  · exact Bool.or_eq_true_iff

theorem testStep_none {c : Chip} (h : c.nvm.selfTest = none) (failed : Option (Nat × Nat)) (last : Bool) : testStep failed last c = c := by
  simp only [testStep, h]

section
variable {c : Chip} {t : SelfTest} (h : c.nvm.selfTest = some t) (failed : Option (Nat × Nat)) (last : Bool)
include h

theorem testStep_some :
    let p := c.testFinds t failed
    testStep failed last c =
      if p.2.ends (last || !c.segmentRuns t.segment) = true then
        if p.2.segment = lastSegment p.2.code then p.1.logTest p.2 (if p.2.firstFail.isSome then 7 else 0)
        else { p.1 with nvm := { p.1.nvm with selfTest := some { p.2 with segment := p.2.segment + 1 } } }
      else { p.1 with nvm := { p.1.nvm with selfTest := some p.2 } } := by
  simp only [testStep, h]
  rfl

/-- R137: a step within a segment. -/
theorem testStep_goesOn (he : ¬ c.stepEnds t last) :
    let p := c.testFinds t failed
    testStep failed last c = { p.1 with nvm := { p.1.nvm with selfTest := some p.2 } } :=
  (testStep_some h failed last).trans (if_neg (mt (c.testFinds_ends t failed last).1 he))

variable (he : c.stepEnds t last)
include he

/-- R137: the last step of a segment begins the next one. -/
theorem testStep_nextSegment (hs : t.segment ≠ lastSegment t.code) :
    let p := c.testFinds t failed
    testStep failed last c = { p.1 with nvm := { p.1.nvm with selfTest := some { p.2 with segment := t.segment + 1 } } } := by
  obtain ⟨hcode, -, hsegment⟩ := c.testFinds_keeps t failed
  refine (testStep_some h failed last).trans ((if_pos ((c.testFinds_ends t failed last).2 he)).trans ?_)
  simp only [hcode, hsegment]
  exact if_neg hs

/-- R139: the last step of the last segment logs the result. -/
theorem testStep_logs (hs : t.segment = lastSegment t.code) :
    let p := c.testFinds t failed
    testStep failed last c = p.1.logTest p.2 (if p.2.firstFail.isSome then 7 else 0) := by
  obtain ⟨hcode, -, hsegment⟩ := c.testFinds_keeps t failed
  refine (testStep_some h failed last).trans ((if_pos ((c.testFinds_ends t failed last).2 he)).trans ?_)
  simp only [hcode, hsegment]
  exact if_pos hs

end

end Sys2Proof.Machine

namespace Sys2Proof
open Sys2Proof.Machine

section
variable {s : State} {id : CmdId} {i : Inflight} {k : Nat} {at_ : Bool}

/-- R125: the status that refuses an attachment whose controller list has arrived. -/
theorem Yields.attachRefused {slot : Nat} (h : Delivered s id true 0x15 i slot) (hr : s.chip.ringOpen = true) {st : Status}
    (hc : (s.chip.taken id).attachCheck k at_ (ctrlsOf (s.chip.load (s.chip.inputBuf slot) 4096)) = some st) :
    Yields (.namespaceAttachment id k at_) s ((s.chip.taken id).finish id st) :=
  Yields.ofDelivered rfl ((namespaceAttachment_open hr id k at_).trans ((h.executes _ _ _).trans (elim_of_eq_some hc _ _))) h

/-- R125: an attachment that passes its checks is queued. -/
theorem Yields.attachQueued {slot : Nat} (h : Delivered s id true 0x15 i slot) (hr : s.chip.ringOpen = true)
    (hc : (s.chip.taken id).attachCheck k at_ (ctrlsOf (s.chip.load (s.chip.inputBuf slot) 4096)) = none) :
    Yields (.namespaceAttachment id k at_) s ((s.chip.taken id).queueNs id k (if at_ then .attach else .detach)) :=
  Yields.ofDelivered rfl ((namespaceAttachment_open hr id k at_).trans ((h.executes _ _ _).trans (elim_of_eq_none hc _ _))) h

end

/-- Settles O22: each command by what has arrived of it and the first check that fails; a step of a test by whether it ends a segment. -/
theorem namespaceCommandsComplete : Obligations.NamespaceCommandsComplete := by
  intro s id i c e done field
  refine ⟨fun entry hfn hop => c.takeEntry_ofVf hfn hop, fun ha hid hr k n fs ses dps ext at_ u => ⟨?_, fun hf ho => ?_⟩,
    fun hr ha hid n act lbaf ses dps ext at_ => ⟨?_, ?_, ?_⟩, fun hr => ?_, fun h => ?_, fun ha => ⟨fun h u l => ?_, fun t failed last h => ?_⟩⟩
  · simp only [List.forall_mem_cons, List.not_mem_nil, false_imp_iff, implies_true, and_true]
    have yields {row : Instr} {f : Chip → Chip} (hx : exec row s = s.runAwake id.wf f) (hd : f c = field) : Yields row s field :=
      Yields.awake ha hx (decide_eq_true hid) hd
    refine ⟨fun hf hi ho => ?_, fun hf hi ho => ?_, fun hf hi ho => ?_, fun hf hi ho => ?_, fun hf hi ho => ?_, fun hf hi ho => ?_⟩
    · exact yields rfl ((namespaceManagement_delete hr id k).trans (Chip.execute_notOffered hf ho _))
    · exact yields rfl ((namespaceManagement_create hr id).trans (Chip.executeWith_notOffered hf ho hi _ _ _))
    · exact yields rfl ((namespaceAttachment_open hr id k at_).trans (Chip.executeWith_notOffered hf ho hi _ _ _))
    · exact yields rfl ((formatNvm_open hr id k n ses dps ext).trans (Chip.execute_notOffered hf ho _))
    · exact yields rfl (Chip.execute_notOffered hf ho _)
    · exact yields rfl (Chip.executeWith_notOffered hf ho hi _ _ _)
  · exact Yields.awake ha rfl (decide_eq_true hid) (congrArg Chip.startDusk (Chip.execute_notOffered hf ho _))
  · exact Yields.awake ha rfl (decide_eq_true hid) (namespaceManagement_ringFull hr id act)
  · exact Yields.awake ha rfl (decide_eq_true hid) (namespaceAttachment_ringFull hr id n at_)
  · exact Yields.awake ha rfl (decide_eq_true hid) (formatNvm_ringFull hr id n lbaf ses dps ext)
  · refine ⟨fun slot h hs => ?_, fun slot h => ?_, fun h => ?_, fun k at_ h => ⟨fun hp => ?_, fun slot hp hs => ?_⟩, fun slot h k => ?_,
      fun h k lbaf ses dps ext => ?_⟩
    · exact Yields.ofBringing rfl ((namespaceManagement_create hr id).trans (h.begins (by decide) rfl hs _)) h
    · intro e n row
      have creates {d : Chip} (hd) : Yields row s d :=
        Yields.ofDelivered rfl ((namespaceManagement_create hr id).trans ((h.executes _ _ _).trans hd)) h
      refine ⟨fun st hc => ?_, fun hc hk => ?_, fun k hc hk => ?_⟩
      · exact creates (elim_of_eq_some hc _ _)
      · exact creates ((elim_of_eq_none hc _ _).trans (elim_of_eq_none hk _ _))
      · exact creates ((elim_of_eq_none hc _ _).trans (elim_of_eq_some hk _ _))
    · have deletes {k : Nat} {d : Chip} (hd) : Yields (.namespaceManagement id (.delete k)) s d :=
        Yields.ofFetching rfl ((namespaceManagement_delete hr id k).trans ((h.executes _).trans hd)) h
      refine ⟨?_, fun k hk hp => ?_, fun k hk hp => ?_⟩
      · exact deletes (if_pos rfl)
      · exact deletes ((if_neg hk).trans (if_pos (by simpa using hp)))
      · exact deletes ((if_neg hk).trans (if_neg (by simpa using hp)))
    · exact Yields.ofBringing rfl ((namespaceAttachment_open hr id k at_).trans (h.ends (if_neg (ne_true_of_eq_false hp)) _)) h
    · exact Yields.ofBringing rfl ((namespaceAttachment_open hr id k at_).trans (h.begins (by decide) (if_pos hp) hs _)) h
    · intro e done l n good inUse
      refine ⟨fun hp at_ => ?_, fun hp hl at_ => ?_, fun hp hl => ?_⟩
      · exact Yields.attachRefused h hr (Chip.attachCheck_absent hp at_)
      · exact Yields.attachRefused h hr (Chip.attachCheck_badList hp hl at_)
      have checks (at_ : Bool) := Chip.attachCheck_goodList hp hl at_
      refine ⟨fun ht => ⟨?_, ?_⟩, fun hf => ?_, fun hf hm => ?_, fun hf hm => ?_⟩
      · exact Yields.attachRefused h hr ((checks true).trans (if_pos ht))
      · exact Yields.attachQueued h hr ((checks false).trans ((if_neg (by simp)).trans (if_neg (by simpa using ht))))
      · exact Yields.attachRefused h hr ((checks false).trans ((if_neg (by simp)).trans (if_pos (by simpa using hf))))
      · exact Yields.attachRefused h hr ((checks true).trans
          ((if_neg (by simpa using hf)).trans ((if_neg (by simp)).trans (if_pos (decide_eq_true hm)))))
      · exact Yields.attachQueued h hr ((checks true).trans
          ((if_neg (by simpa using hf)).trans ((if_neg (by simp)).trans (if_neg (mt of_decide_eq_true (not_le.2 hm))))))
    · intro row n bad
      have formats {d : Chip} (hd) : Yields row s d :=
        Yields.ofFetching rfl ((formatNvm_open hr id k lbaf ses dps ext).trans ((h.executes _).trans hd)) h
      refine ⟨fun hb => ?_, fun hb hn => ?_, fun hb hp ho => ?_⟩
      · exact formats (if_pos hb)
      · exact formats ((if_neg hb).trans (if_pos hn))
      · refine formats ((if_neg hb).trans (if_neg (not_or.2 ⟨ne_false_of_eq_true hp, ?_⟩)))
        exact fun ⟨h0, hn⟩ => ho.elim h0 hn
  · have tests {k : Nat} {d : Chip} (hd : testCommand id k s.chip = d) : Yields (.deviceSelfTest id k) s d.startDusk :=
      Yields.ofFetching rfl (congrArg Chip.startDusk hd) h
    refine ⟨fun k hk => ⟨fun hn => ?_, fun hn => ?_⟩, fun t ht => ?_, fun hn => ?_, fun k hk => ?_⟩
    · exact tests ((testCommand_start h hk).trans (if_neg (by rw [hn]; decide)))
    · exact tests ((testCommand_start h hk).trans (if_pos (Option.isSome_iff_ne_none.2 hn)))
    · exact tests ((testCommand_abort h).trans (by rw [elim_of_eq_some ht]))
    · exact tests ((testCommand_abort h).trans (by rw [elim_of_eq_none hn]))
    · exact tests (testCommand_reserved h hk)
  · exact Yields.awake (f := selfTestStep u l) ha rfl rfl (congrArg Chip.startDusk (testStep_none h u l))
  · intro skip u p ends
    have steps {d : Chip} (hd : testStep failed last c = d) : Yields (.selfTestStep failed last) s d.startDusk :=
      Yields.awake (f := selfTestStep failed last) ha rfl rfl (congrArg Chip.startDusk hd)
    refine ⟨fun he => ?_, fun he hs => ?_, fun he hs => ?_⟩
    · exact steps (testStep_goesOn h failed last he)
    · exact steps (testStep_nextSegment h failed last he hs)
    · exact steps (testStep_logs h failed last he hs)

end Sys2Proof

/-! ### Stream instructions (R435, Table 13-7) -/

namespace Sys2Proof.Machine

/-! #### What registers and DMEM accesses of an engine leave alone -/

@[simp] theorem Eng.setReg_queue (g : Eng) (r : Nat) (v : Word64) : (g.setReg r v).queue = g.queue := by
  unfold Eng.setReg; split <;> rfl

@[simp] theorem Eng.setReg_pc (g : Eng) (r : Nat) (v : Word64) : (g.setReg r v).pc = g.pc := by
  unfold Eng.setReg; split <;> rfl

@[simp] theorem Eng.advance_queue (g : Eng) (addrs : List Nat) (len : Nat) : (g.advance addrs len).queue = g.queue := by
  have : ∀ g : Eng, (addrs.foldl (fun e r => e.setReg r (e.reg r + 64)) g).queue = g.queue := by
    induction addrs with
    | nil => exact fun _ => rfl
    | cons r l ih => exact fun g => (ih _).trans (g.setReg_queue r _)
  exact (Eng.setReg_queue _ _ _).trans (this g)

@[simp] theorem Eng.advance_pc (g : Eng) (addrs : List Nat) (len : Nat) : (g.advance addrs len).pc = g.pc := by
  have : ∀ g : Eng, (addrs.foldl (fun e r => e.setReg r (e.reg r + 64)) g).pc = g.pc := by
    induction addrs with
    | nil => exact fun _ => rfl
    | cons r l ih => exact fun g => (ih _).trans (g.setReg_pc r _)
  exact (Eng.setReg_pc _ _ _).trans (this g)

theorem regionOf_dmem {a n : Nat} (h : 0x10000 ≤ a) (he : a + n ≤ 0x30000) : regionOf a n = .dmem := by
  have hi : ¬ a + n ≤ 0x8000 := by omega
  simp [regionOf, hi, h, he]

theorem Eng.readMem_dmem (g : Eng) {a n : Nat} (h : 0x10000 ≤ a) (he : a + n ≤ 0x30000) : g.readMem a n = Mem.read g.dmem a n := by
  simp [Eng.readMem, regionOf_dmem h he]

theorem Eng.writeMem_dmem (g : Eng) {a : Nat} {bs : List Byte} (h : 0x10000 ≤ a) (he : a + bs.length ≤ 0x30000) :
    g.writeMem a bs = { g with dmem := Mem.write g.dmem a bs } := by
  simp [Eng.writeMem, regionOf_dmem h he]

theorem Chip.load_length (c : Chip) (a n : Nat) : (c.load a n).length = n := by simp [Chip.load]

theorem Chip.modEng_modEng (c : Chip) (k : Nat) (f g : Eng → Eng) : (c.modEng k f).modEng k g = c.modEng k (fun x => g (f x)) := by
  unfold Chip.modEng
  rw [show (c.setEng k (f (c.engAt k))).engAt k = f (c.engAt k) from Chip.engAt_modEng_same c k f]
  simp [Chip.setEng, Sparse.set_set]

theorem Chip.bump_engAt (c : Chip) (f : Fld) (v k : Nat) : (c.bump f v).engAt k = c.engAt k := Chip.set_engAt c f _ k

/-- A store leaves every engine. -/
theorem Chip.store_engAt (c : Chip) (a : Nat) (bs : List Byte) (k : Nat) : (c.store a bs).engAt k = c.engAt k := by
  rw [c.store_frame a bs]; rfl

/-! #### One step of a stream instruction, by its cases -/

/-- What an instruction commits over a change of its engine is what it commits before the change, with the change. -/
theorem Chip.commits_of_modEng {c d : Chip} {n e next : Nat} {f g : Eng → Eng} {latch : Option (Nat × List Word32)}
    (h : CommitsLatch (c.modEng (engKey n e) f) d n e g next latch)
    (hi : (f (c.engAt (engKey n e))).instret = (c.engAt (engKey n e)).instret) :
    CommitsLatch c d n e (fun x => g (f x)) next latch := by
  obtain ⟨hown, hothers, hcount, hregs, hclus, hwait, hframe⟩ := h
  refine ⟨?_, fun j hj => (hothers j hj).trans (Chip.engAt_modEng_ne c f hj), hcount, (RegsSame.of_regs rfl _).trans hregs, hclus, hwait, hframe⟩
  rw [Chip.engAt_modEng_same, hi] at hown
  exact hown

/-- What an instruction commits turns on the engine alone that it changes. -/
theorem Chip.commits_of_engAt {c d : Chip} {n e next : Nat} {f g : Eng → Eng} (h : Commits c d n e f next)
    (hg : f (c.engAt (engKey n e)) = g (c.engAt (engKey n e))) : Commits c d n e g next := by
  obtain ⟨hown, hrest⟩ := h
  exact ⟨hg ▸ hown, hrest⟩

section
variable {n e : Nat} (he : e < 8)
include he

theorem Chip.endStream_commits (c : Chip) (hq : (c.engAt (engKey n e)).queue = []) :
    Commits c (c.endStream (engKey n e)) n e (fun g => { g with stream := false }) ((c.engAt (engKey n e)).pc + 4) := by
  have hissue := (c.modEng (engKey n e) (fun g => { g with stream := false })).issue_commits he
    ⟨(c.engAt (engKey n e)).pc, (c.engAt (engKey n e)).pc + 4, none, none, []⟩ 0 (by rw [Chip.engAt_modEng_same]; exact hq) rfl rfl rfl
  exact Chip.commits_of_modEng hissue rfl

theorem Chip.streamExc_raises (c : Chip) (hq : (c.engAt (engKey n e)).queue = []) (cause addr : Nat) :
    Raises c (c.streamExc (engKey n e) cause addr) n e cause (c.engAt (engKey n e)).pc addr :=
  c.issue_raises he _ 0 hq rfl rfl

/-- An instruction that writes a register and enters an empty commit queue commits. -/
theorem Chip.issue_setReg_commits (c : Chip) (hq : (c.engAt (engKey n e)).queue = []) (r : Nat) (v : Word64) :
    Commits c (c.issue (engKey n e) ⟨(c.engAt (engKey n e)).pc, pcNext (c.engAt (engKey n e)).pc, none, none, [.reg r v]⟩ 0) n e
      (fun g => g.setReg r v) ((c.engAt (engKey n e)).pc + 4) :=
  c.issue_commits he _ 0 hq rfl rfl rfl

/-- R435: a unit changes its engine as `f` says, and counts its 64 bytes. -/
theorem Chip.streamUnit_leaves (c : Chip) (f : Eng → Eng) : StreamUnit c (c.streamUnit (engKey n e) f) n e f := by
  unfold Chip.streamUnit
  rw [engKey_div he, engKey_mod he]
  refine ⟨?_, fun j hj => ?_, Chip.get_set_same _ _ _, RegsSame.set _ _ _ (by simp), ?_, ?_, ?_⟩
  · rw [Chip.bump_engAt, Chip.engAt_modEng_same]
  · rw [Chip.bump_engAt, Chip.engAt_modEng_ne _ _ hj]
  · simp
  · simp
  · apply Chip.eq_of_fields <;> simp

end

/-- What a unit of a stream instruction answers once it is done: the chip after it, ended where the length was 64 (R435). -/
def Chip.streamDone (d : Chip) (k l : Nat) (f : Eng → Eng) : Chip :=
  if l = 64 then (d.streamUnit k f).endStream k else d.streamUnit k f

section
variable {c : Chip} {k : Nat} {g : Eng} {addrs : List Nat} {len : Nat} {unit : Chip → Eng → Chip ⊕ (Nat × Nat)}

theorem Chip.streamStep_ends (hl : (g.reg len).toNat = 0) : c.streamStep k g addrs len unit = c.endStream k := if_pos hl

theorem Chip.streamStep_misaligned_length (hl : (g.reg len).toNat % 64 ≠ 0) :
    c.streamStep k g addrs len unit = c.streamExc k 0x03 0 :=
  (if_neg (by omega)).trans (if_pos (by simpa using hl))

variable (h0 : (g.reg len).toNat ≠ 0) (hl : (g.reg len).toNat % 64 = 0)
include h0 hl

theorem Chip.streamStep_misaligned_address {a : Nat} (ha : misaligned (addrs.map (fun r => (g.reg r).toNat)) = some a) :
    c.streamStep k g addrs len unit = c.streamExc k 0x03 a := by
  simp [Chip.streamStep, h0, hl, ha]

variable (ha : misaligned (addrs.map (fun r => (g.reg r).toNat)) = none)
include ha

theorem Chip.streamStep_raises {x : Nat × Nat} (hu : unit c g = .inr x) :
    c.streamStep k g addrs len unit = c.streamExc k x.1 x.2 := by
  simp [Chip.streamStep, h0, hl, ha, hu]

theorem Chip.streamStep_unit {d : Chip} (hu : unit c g = .inl d) :
    c.streamStep k g addrs len unit = d.streamDone k (g.reg len).toNat (fun e => e.advance addrs len) := by
  simp [Chip.streamStep, h0, hl, ha, hu, Chip.streamDone]

end

/-! #### The units of Table 13-7 -/

theorem misaligned_one {a : Nat} (h : a % 64 = 0) : misaligned [a] = none := by simp [misaligned, h]

theorem misaligned_two {a b : Nat} (ha : a % 64 = 0) (hb : b % 64 = 0) : misaligned [a, b] = none := by simp [misaligned, ha, hb]

theorem misaligned_first {a : Nat} (l : List Nat) (h : a % 64 ≠ 0) : misaligned (a :: l) = some a := by simp [misaligned, h]

theorem misaligned_second {a b : Nat} (ha : a % 64 = 0) (hb : b % 64 ≠ 0) : misaligned [a, b] = some b := by
  simp [misaligned, ha, hb]

/-- What a unit does to its engine, and the registers then advanced, are one change of the engine. -/
theorem Chip.streamUnit_modEng (c : Chip) (k : Nat) (f g : Eng → Eng) :
    (c.modEng k f).streamUnit k g = c.streamUnit k (fun x => g (f x)) := by
  unfold Chip.streamUnit
  rw [Chip.modEng_modEng]

/-- SLD's unit: from the DRAM address in XA to the DMEM address in XB. -/
def sldUnit (k : Nat) (w : Word32) (busError : Bool) (c : Chip) (g : Eng) : Chip ⊕ (Nat × Nat) :=
  let a := (g.reg (xaOf w)).toNat
  let d := (g.reg (xbOf w)).toNat
  if !windowsAllow g.windows a 64 false then .inr (0x04, a)
  else if regionOf d 64 != .dmem then .inr (0x04, d)
  else if busError || c.poisonedAt a 64 then .inr (0x05, a)
  else .inl (c.modEng k (fun x => x.writeMem d (c.load a 64)))

/-- SST's unit: from the DMEM address in XB to the DRAM address in XA. -/
def sstUnit (w : Word32) (ecc : EccIn) (busError : Bool) (c : Chip) (g : Eng) : Chip ⊕ (Nat × Nat) :=
  let a := (g.reg (xaOf w)).toNat
  let d := (g.reg (xbOf w)).toNat
  if !windowsAllow g.windows a 64 true then .inr (0x04, a)
  else if regionOf d 64 != .dmem then .inr (0x04, d)
  else if ecc = .uncorrectable then .inr (0x0A, d)
  else if busError then .inr (0x05, a)
  else .inl (c.store a (g.readMem d 64))

/-- The unit of SCRC16 and SCRC64: the bytes at the DMEM address in XA folded into XD. -/
def crcUnit (k : Nat) (w : Word32) (fold : Nat → List Byte → Nat) (c : Chip) (g : Eng) : Chip ⊕ (Nat × Nat) :=
  let a := (g.reg (xaOf w)).toNat
  if regionOf a 64 != .dmem then .inr (0x04, a)
  else .inl (c.modEng k (fun x => x.setReg (xdOf w) (BitVec.ofNat 64 (fold (g.reg (xdOf w)).toNat (g.readMem a 64)))))

section
variable {k : Nat} {w : Word32} {c : Chip} {g : Eng}

theorem sldUnit_denied {busError : Bool} (hwin : windowsAllow g.windows (g.reg (xaOf w)).toNat 64 false = false) :
    sldUnit k w busError c g = .inr (0x04, (g.reg (xaOf w)).toNat) := if_pos (by simp [hwin])

theorem sldUnit_copies (hwin : windowsAllow g.windows (g.reg (xaOf w)).toNat 64 false = true)
    (hlo : 0x10000 ≤ (g.reg (xbOf w)).toNat) (hhi : (g.reg (xbOf w)).toNat + 64 ≤ 0x30000)
    (hp : c.poisonedAt (g.reg (xaOf w)).toNat 64 = false) : sldUnit k w false c g = .inl (c.modEng k (fun x =>
      { x with dmem := Mem.write x.dmem (g.reg (xbOf w)).toNat (c.load (g.reg (xaOf w)).toNat 64) })) := by
  have hwrite (x : Eng) := x.writeMem_dmem (bs := c.load (g.reg (xaOf w)).toNat 64) hlo (by simpa [Chip.load_length] using hhi)
  simp [sldUnit, hwin, regionOf_dmem hlo hhi, hp, hwrite]

theorem sstUnit_denied {ecc : EccIn} {busError : Bool} (hwin : windowsAllow g.windows (g.reg (xaOf w)).toNat 64 true = false) :
    sstUnit w ecc busError c g = .inr (0x04, (g.reg (xaOf w)).toNat) := if_pos (by simp [hwin])

theorem sstUnit_uncorrectable {busError : Bool} (hwin : windowsAllow g.windows (g.reg (xaOf w)).toNat 64 true = true)
    (hlo : 0x10000 ≤ (g.reg (xbOf w)).toNat) (hhi : (g.reg (xbOf w)).toNat + 64 ≤ 0x30000) :
    sstUnit w .uncorrectable busError c g = .inr (0x0A, (g.reg (xbOf w)).toNat) := by
  simp [sstUnit, hwin, regionOf_dmem hlo hhi]

theorem sstUnit_copies (hwin : windowsAllow g.windows (g.reg (xaOf w)).toNat 64 true = true)
    (hlo : 0x10000 ≤ (g.reg (xbOf w)).toNat) (hhi : (g.reg (xbOf w)).toNat + 64 ≤ 0x30000) :
    sstUnit w .clean false c g = .inl (c.store (g.reg (xaOf w)).toNat (Mem.read g.dmem (g.reg (xbOf w)).toNat 64)) := by
  simp [sstUnit, hwin, regionOf_dmem hlo hhi, g.readMem_dmem hlo hhi]

theorem crcUnit_folds {fold : Nat → List Byte → Nat} (hlo : 0x10000 ≤ ((c.engAt k).reg (xaOf w)).toNat)
    (hhi : ((c.engAt k).reg (xaOf w)).toNat + 64 ≤ 0x30000) : crcUnit k w fold c (c.engAt k) = .inl (c.modEng k (fun x =>
      x.setReg (xdOf w) (BitVec.ofNat 64
        (fold ((c.engAt k).reg (xdOf w)).toNat (Mem.read x.dmem ((c.engAt k).reg (xaOf w)).toNat 64))))) := by
  simp [crcUnit, regionOf_dmem hlo hhi, Eng.readMem_dmem _ hlo hhi, Chip.modEng]

end

/-! #### The instructions as stream steps -/

theorem Chip.engEcc_uncorrected (c : Chip) (k : Nat) (w : Word32) {ecc : EccIn} (h : ecc ≠ .corrected) : c.engEcc k w ecc = c := by
  simp [Chip.engEcc, h]

section
variable {s : State} {n e : Nat} {w : Word32} (h : Fetched s n e w) (hl : legalWord w = true)
include h hl

/-- An instruction that waits for its elders, fetched with the commit queue empty, executes. -/
theorem Chip.oldest_fetched {ok : Bool} (hok : ok = true) (stall : Nat) (f : Chip → Eng → Chip) :
    s.chip.oldest n e w ok stall f = f s.chip (s.chip.engAt (engKey n e)) := by
  obtain ⟨-, -, -, hr, hq⟩ := h
  simp [Chip.oldest, hok, hl, hr, hq]

/-- The same of an instruction that reads the engine's memory without a corrected error. -/
theorem Chip.oldest_uncorrected {ecc : EccIn} (hc : ecc ≠ .corrected) {ok : Bool} (hok : ok = true) (stall : Nat) (f : Chip → Eng → Chip) :
    (s.chip.engEcc (engKey n e) w ecc).oldest n e w ok stall f = f s.chip (s.chip.engAt (engKey n e)) := by
  rw [Chip.engEcc_uncorrected _ _ _ hc, Chip.oldest_fetched h hl hok]

end

end Sys2Proof.Machine

namespace Sys2Proof
open Sys2Proof.Machine

/-- Command `i` does one step of a stream instruction of engine `e` of cluster `n`: its address registers, its length register and its unit. -/
def Streams (i : Instr) (s : State) (n e : Nat) (addrs : List Nat) (len : Nat) (unit : Chip → Eng → Chip ⊕ (Nat × Nat)) : Prop :=
  Yields i s (s.chip.streamStep (engKey n e) (s.chip.engAt (engKey n e)) addrs len unit)

/-- Command `i` does a unit on chip `c`, which changes the engine as `f` says, and ends the instruction where its length was 64 (R435). -/
def DoesUnit (i : Instr) (s : State) (n e : Nat) (c : Chip) (len : Nat) (f : Eng → Eng) : Prop :=
  Completes i s (fun d => ∃ c1, StreamUnit c c1 n e f ∧
    (len = 64 → Commits c1 d n e (fun g => { g with stream := false }) ((s.chip.engAt (engKey n e)).pc + 4)) ∧ (len ≠ 64 → d = c1))

/-- A command of an engine that exists and has fetched. -/
theorem Fetched.yields {i : Instr} {s : State} {n e : Nat} {w : Word32} {f : Chip → Chip} {d : Chip} (h : Fetched s n e w)
    (hx : exec i s = s.runAwake (decide (n < 24) && decide (e < 8)) f) (hd : f s.chip = d) : Yields i s d :=
  Yields.awake h.2.2.1 hx (by simp [h.1, h.2.1]) hd

section
variable {i : Instr} {s : State} {n e : Nat} {w : Word32} {addrs : List Nat} {len : Nat} {unit : Chip → Eng → Chip ⊕ (Nat × Nat)}
  (h : Fetched s n e w) (hi : Streams i s n e addrs len unit)
include h hi

theorem Streams.ends (hz : ((s.chip.engAt (engKey n e)).reg len).toNat = 0) :
    Completes i s (fun d => Commits s.chip d n e (fun g => { g with stream := false }) ((s.chip.engAt (engKey n e)).pc + 4)) := by
  obtain ⟨-, he, -, -, hq⟩ := h
  exact ⟨_, hi, Chip.streamStep_ends hz ▸ s.chip.endStream_commits he hq⟩

theorem Streams.traps_length (hl : ((s.chip.engAt (engKey n e)).reg len).toNat % 64 ≠ 0) :
    Completes i s (fun d => Raises s.chip d n e 0x03 (s.chip.engAt (engKey n e)).pc 0) := by
  obtain ⟨-, he, -, -, hq⟩ := h
  exact ⟨_, hi, Chip.streamStep_misaligned_length hl ▸ s.chip.streamExc_raises he hq 0x03 0⟩

variable (h0 : ((s.chip.engAt (engKey n e)).reg len).toNat ≠ 0) (hl : ((s.chip.engAt (engKey n e)).reg len).toNat % 64 = 0)
include h0 hl

theorem Streams.traps_address {a : Nat} (ha : misaligned (addrs.map (fun r => ((s.chip.engAt (engKey n e)).reg r).toNat)) = some a) :
    Completes i s (fun d => Raises s.chip d n e 0x03 (s.chip.engAt (engKey n e)).pc a) := by
  obtain ⟨-, he, -, -, hq⟩ := h
  exact ⟨_, hi, Chip.streamStep_misaligned_address h0 hl ha ▸ s.chip.streamExc_raises he hq 0x03 a⟩

variable (ha : misaligned (addrs.map (fun r => ((s.chip.engAt (engKey n e)).reg r).toNat)) = none)
include ha

theorem Streams.traps_unit {cause a : Nat} (hu : unit s.chip (s.chip.engAt (engKey n e)) = .inr (cause, a)) :
    Completes i s (fun d => Raises s.chip d n e cause (s.chip.engAt (engKey n e)).pc a) := by
  obtain ⟨-, he, -, -, hq⟩ := h
  exact ⟨_, hi, Chip.streamStep_raises h0 hl ha hu ▸ s.chip.streamExc_raises he hq cause a⟩

/-- A unit on chip `c`, which holds the engine as it was. -/
theorem Streams.units {c : Chip} {f : Eng → Eng} {d : Chip} (hu : unit s.chip (s.chip.engAt (engKey n e)) = .inl d)
    (hd : d.streamUnit (engKey n e) (fun g => g.advance addrs len) = c.streamUnit (engKey n e) f)
    (hc : c.engAt (engKey n e) = s.chip.engAt (engKey n e)) (hq : ∀ g, (f g).queue = g.queue) (hp : ∀ g, (f g).pc = g.pc) :
    DoesUnit i s n e c ((s.chip.engAt (engKey n e)).reg len).toNat f := by
  obtain ⟨-, he, -, -, hqueue⟩ := h
  have hunit := c.streamUnit_leaves (n := n) he f
  have hown := hunit.1
  rw [hc] at hown
  have hempty : ((c.streamUnit (engKey n e) f).engAt (engKey n e)).queue = [] := by rw [hown]; exact (hq _).trans hqueue
  have hpc : ((c.streamUnit (engKey n e) f).engAt (engKey n e)).pc = (s.chip.engAt (engKey n e)).pc := by rw [hown]; exact hp _
  refine ⟨_, hi, c.streamUnit (engKey n e) f, hunit, fun h64 => ?_, fun h64 => ?_⟩
  · rw [Chip.streamStep_unit h0 hl ha hu, Chip.streamDone, if_pos h64, hd, ← hpc]
    exact Chip.endStream_commits he _ hempty
  · rw [Chip.streamStep_unit h0 hl ha hu, Chip.streamDone, if_neg h64, hd]

end

section
variable {s : State} {n e : Nat} {w : Word32} (h : Fetched s n e w) (hl : legalWord w = true) (ho : opOf w = 0x28)
include h hl ho

theorem sld_streams (hf : fn11 w = 0) (busError : Bool) :
    Streams (.sld n e w busError) s n e [xaOf w, xbOf w] (xdOf w) (sldUnit (engKey n e) w busError) :=
  h.yields rfl (Chip.oldest_fetched h hl (by simp [ho, hf]) 5 _)

theorem sst_streams (hf : fn11 w = 1) {ecc : EccIn} (hc : ecc ≠ .corrected) (busError : Bool) :
    Streams (.sst n e w ecc busError) s n e [xaOf w, xbOf w] (xdOf w) (sstUnit w ecc busError) :=
  h.yields rfl (Chip.oldest_uncorrected h hl hc (by simp [ho, hf]) 5 _)

theorem scrc16_streams (hf : fn11 w = 2) : Streams (.scrc16 n e w .clean) s n e [xaOf w] (xbOf w)
    (crcUnit (engKey n e) w (fun r bs => crc16From (r % 0x10000) bs)) :=
  h.yields rfl (Chip.oldest_uncorrected h hl (by decide) (by simp [ho, hf]) 5 _)

theorem scrc64_streams (hf : fn11 w = 3) :
    Streams (.scrc64 n e w .clean) s n e [xaOf w] (xbOf w) (crcUnit (engKey n e) w crc64From) :=
  h.yields rfl (Chip.oldest_uncorrected h hl (by decide) (by simp [ho, hf]) 5 _)

omit hl ho in
/-- A CRC unit in DMEM folds its 64 bytes into XD. -/
theorem Streams.folds {i : Instr} {fold : Nat → List Byte → Nat} (hi : Streams i s n e [xaOf w] (xbOf w) (crcUnit (engKey n e) w fold))
    (h0 : ((s.chip.engAt (engKey n e)).reg (xbOf w)).toNat ≠ 0) (h64 : ((s.chip.engAt (engKey n e)).reg (xbOf w)).toNat % 64 = 0)
    (hx : ((s.chip.engAt (engKey n e)).reg (xaOf w)).toNat % 64 = 0) (hlo : 0x10000 ≤ ((s.chip.engAt (engKey n e)).reg (xaOf w)).toNat)
    (hhi : ((s.chip.engAt (engKey n e)).reg (xaOf w)).toNat + 64 ≤ 0x30000) :
    DoesUnit i s n e s.chip ((s.chip.engAt (engKey n e)).reg (xbOf w)).toNat (fun g => (g.setReg (xdOf w) (BitVec.ofNat 64
      (fold ((s.chip.engAt (engKey n e)).reg (xdOf w)).toNat
        (Mem.read g.dmem ((s.chip.engAt (engKey n e)).reg (xaOf w)).toNat 64)))).advance [xaOf w] (xbOf w)) :=
  hi.units h h0 h64 (misaligned_one hx) (crcUnit_folds hlo hhi) (Chip.streamUnit_modEng _ _ _ _) rfl
    (fun _ => (Eng.advance_queue _ _ _).trans (Eng.setReg_queue _ _ _)) (fun _ => (Eng.advance_pc _ _ _).trans (Eng.setReg_pc _ _ _))

variable (hf : fn11 w = 4)
include hf

theorem shcut_misaligned (hx : ((s.chip.engAt (engKey n e)).reg (xaOf w)).toNat % 64 ≠ 0) :
    Completes (.shcut n e w .clean) s (fun d => Raises s.chip d n e 0x03 (s.chip.engAt (engKey n e)).pc
      ((s.chip.engAt (engKey n e)).reg (xaOf w)).toNat) := by
  have hd := h.yields (i := .shcut n e w .clean) rfl (Chip.oldest_uncorrected h hl (by decide) (by simp [ho, hf]) 5 _)
  rw [if_pos (by simpa using hx)] at hd
  obtain ⟨-, he, -, -, hq⟩ := h
  exact ⟨_, hd, s.chip.streamExc_raises he hq 0x03 _⟩

/-- R156: SHCUT writes the cut hash of the 64 bytes of DMEM at the address in XA, and counts them. -/
theorem shcut_hashes (hx : ((s.chip.engAt (engKey n e)).reg (xaOf w)).toNat % 64 = 0)
    (hlo : 0x10000 ≤ ((s.chip.engAt (engKey n e)).reg (xaOf w)).toNat)
    (hhi : ((s.chip.engAt (engKey n e)).reg (xaOf w)).toNat + 64 ≤ 0x30000) :
    Completes (.shcut n e w .clean) s (fun d => ∃ c1,
      Commits s.chip c1 n e (fun g => g.setReg (xdOf w) (BitVec.ofNat 64
        (cutHash (Mem.read g.dmem ((s.chip.engAt (engKey n e)).reg (xaOf w)).toNat 64))))
        ((s.chip.engAt (engKey n e)).pc + 4) ∧
      d = c1.bump (R.SEC_ENG_CNT_STREAM_STREAM_BYTES n e) 64) := by
  have hd := h.yields (i := .shcut n e w .clean) rfl (Chip.oldest_uncorrected h hl (by decide) (by simp [ho, hf]) 5 _)
  rw [if_neg (by simpa using hx), if_neg (by simp [regionOf_dmem hlo hhi]), if_neg (by decide), Eng.readMem_dmem _ hlo hhi] at hd
  obtain ⟨-, he, -, -, hq⟩ := h
  exact ⟨_, hd, _, Chip.commits_of_engAt (s.chip.issue_setReg_commits he hq (xdOf w) _) rfl, rfl⟩

end
end Sys2Proof

namespace Sys2Proof
open Sys2Proof.Machine

/-- Settles O8: each row but SHCUT is one stream step, and its clauses are the cases of the step and of the row's unit. -/
theorem engineStreamInstructionsRun : Obligations.EngineStreamInstructionsRun := by
  intro s n e w h hw ho g pc x y z dmem unit ends traps
  refine ⟨fun hf busError => ?_, fun hf busError => ?_, fun hf => ?_, fun hf => ?_, fun hf => ?_⟩
  · have hi := sld_streams h hw ho hf busError
    refine ⟨hi.ends h, hi.traps_length h, fun h0 hl hx => ?_, fun h0 hl hx hy => ?_, fun h0 hl hx hy hwin => ?_,
      fun h0 hl hx hy hwin hd hb hp => ?_⟩
    · exact hi.traps_address h h0 hl (misaligned_first _ hx)
    · exact hi.traps_address h h0 hl (misaligned_second hx hy)
    · exact hi.traps_unit h h0 hl (misaligned_two hx hy) (sldUnit_denied hwin)
    · subst hb
      exact hi.units h h0 hl (misaligned_two hx hy) (sldUnit_copies hwin hd.1 hd.2 hp) (Chip.streamUnit_modEng _ _ _ _) rfl
        (fun _ => Eng.advance_queue _ _ _) (fun _ => Eng.advance_pc _ _ _)
  · have hi := sst_streams h hw ho hf (ecc := .clean) (by decide) busError
    refine ⟨hi.ends h, hi.traps_length h, fun h0 hl hx hy hwin => ?_, fun h0 hl hx hy hwin hd => ?_, fun h0 hl hx hy hwin hd hb => ?_⟩
    · exact hi.traps_unit h h0 hl (misaligned_two hx hy) (sstUnit_denied hwin)
    · exact (sst_streams h hw ho hf (by decide) busError).traps_unit h h0 hl (misaligned_two hx hy) (sstUnit_uncorrectable hwin hd.1 hd.2)
    · subst hb
      exact hi.units h h0 hl (misaligned_two hx hy) (sstUnit_copies hwin hd.1 hd.2) rfl (Chip.store_engAt _ _ _ _)
        (fun _ => Eng.advance_queue _ _ _) (fun _ => Eng.advance_pc _ _ _)
  · have hi := scrc16_streams h hw ho hf
    exact ⟨hi.ends h, hi.traps_length h, fun h0 hl hx hd => hi.folds h h0 hl hx hd.1 hd.2⟩
  · have hi := scrc64_streams h hw ho hf
    exact ⟨hi.ends h, hi.traps_length h, fun h0 hl hx hd => hi.folds h h0 hl hx hd.1 hd.2⟩
  · exact ⟨shcut_misaligned h hw ho hf, fun hx hd => shcut_hashes h hw ho hf hx hd.1 hd.2⟩

end Sys2Proof

/-! ### The ingest path's timers, the power-fail flush, and the shelves that wake and park -/

namespace Sys2Proof.Machine

/-! #### HOLDUP_N (R170, R171, R506) -/

/-- The chip with HOLDUP_N low. -/
def Chip.holdupLow (c : Chip) : Chip := { c with pwr := { c.pwr with holdupN := false, holdupAt := none } }

/-- The chip with a Dusk under way ended. -/
def Chip.duskLeft (c : Chip) : Chip := if c.pwr.mode = .dusk then c.backToDay.pwrEnd 2 else c

/-- The chip with a flush that was sealed no longer running. -/
def Chip.sealedLeft (c : Chip) : Chip :=
  if c.pwr.flushing && c.ing.flushSealed then { c with pwr := { c.pwr with flushing := false } } else c

theorem holdupNFall_eq (c : Chip) : holdupNFall c =
    if c.holdupLow.mayFlush = false then c.holdupLow else c.holdupLow.duskLeft.sealedLeft.startFlush 0 :=
  if_congr (Bool.not_eq_true' _).to_iff rfl rfl

theorem holdupNFall_noted {c : Chip} (h : c.holdupLow.mayFlush = false) : holdupNFall c = c.holdupLow :=
  (holdupNFall_eq c).trans (if_pos h)

/-- R170: in Day a head that may hold exposed data begins its flush. -/
theorem holdupNFall_flushes {c : Chip} (h : c.holdupLow.mayFlush = true) (hm : c.pwr.mode = .day) (hf : c.pwr.flushing = false) :
    holdupNFall c = c.holdupLow.startFlush 0 := by
  have hdusk : c.holdupLow.duskLeft = c.holdupLow := if_neg (by simp [Chip.holdupLow, hm])
  have hseal : c.holdupLow.sealedLeft = c.holdupLow := if_neg (by simp [Chip.holdupLow, hf])
  rw [holdupNFall_eq, if_neg (by simp [h]), hdusk, hseal]

/-! #### Segments and stripes (R157, R164) -/

section
variable {c : Chip} {k : Nat}

theorem segmentIdleTimeout_closes {g : Segment} (hg : c.seg k = some g) (ht : g.lastAppend + 1000000 ≤ c.now) :
    segmentIdleTimeout k c = c.closeSeg k := by
  simp [segmentIdleTimeout, hg, ht]

theorem segmentIdleTimeout_early (h : ∀ g, c.seg k = some g → c.now < g.lastAppend + 1000000) : segmentIdleTimeout k c = c := by
  unfold segmentIdleTimeout
  split
  case h_1 g hg => exact if_neg (not_le.2 (h g hg))
  case h_2 => rfl

/-- Whether an open stripe of a class has reached its age of 2 ms (R164). -/
def Chip.stripeAged (c : Chip) (cls : Nat) (t : OpenStripe) : Bool :=
  t.cls == cls && !t.shadow && t.firstAt.any (fun a => decide (a + 2000000 ≤ c.now))

theorem stripeAgeTimeout_young (h : c.ing.stripes.find? (c.stripeAged k) = none) : stripeAgeTimeout k c = c := by
  unfold Chip.stripeAged at h
  simp [stripeAgeTimeout, h]

theorem stripeAgeTimeout_seals {t : OpenStripe} (h : c.ing.stripes.find? (c.stripeAged k) = some t) :
    stripeAgeTimeout k c = c.sealStripe t t.strips := by
  unfold Chip.stripeAged at h
  simp [stripeAgeTimeout, h]

end

/-! #### FLUSH_SEAL and HOLDUP_STABLE (R170, R171) -/

section
variable {c : Chip}

theorem flushSeal_ignored (h : c.pwr.flushing = false ∨ c.ing.flushSealed = true) : flushSeal c = c := by
  rcases h with h | h <;> simp [flushSeal, h]

theorem holdupStable_ignored (h : c.pwr.flushing = false ∨ c.holdupGood = false) : holdupStable c = c := by
  rcases h with h | h <;> simp [holdupStable, h]

@[simp] theorem Chip.sealVault_pwr (c : Chip) : c.sealVault.pwr = c.pwr := rfl

variable (hf : c.pwr.flushing = true)
include hf

section
variable (hs : c.ing.flushSealed = false)
include hs

/-- R171: a flush whose HOLDUP_N has come back only seals. -/
theorem flushSeal_waits (ha : c.pwr.afterFlush = 0) (hn : c.pwr.holdupN = true) : flushSeal c = c.sealVault := by
  simp [flushSeal, hf, hs, ha, hn]

theorem flushSeal_holds (ha : c.pwr.afterFlush = 0) (hn : c.pwr.holdupN = false) (hd : c.sealVault.sendDepart.pwr.afterFlush = 0) :
    flushSeal c = c.sealVault.sendDepart.holdReset .flushed false := by
  simp [flushSeal, hf, hs, ha, hn, hd]

theorem flushSeal_resets (ha : c.pwr.afterFlush = 1) (hd : c.sealVault.sendDepart.pwr.afterFlush = 1) :
    flushSeal c = c.sealVault.sendDepart.warmReset := by
  simp [flushSeal, hf, hs, ha, hd]

theorem flushSeal_trips (ha : c.pwr.afterFlush = 2) (hd : c.sealVault.sendDepart.pwr.afterFlush = 2) :
    flushSeal c = c.sealVault.sendDepart.holdReset .trip true := by
  simp [flushSeal, hf, hs, ha, hd]

end

/-- The chip with its flush over and the vault's image live again. -/
def Chip.flushOver (c : Chip) : Chip :=
  { c with
    ing := { c.ing with vault := { mark := .live }, fetchStopped := c.zbl.state == .yielded, noCompletions := false
                        flushStart := none, flushSealed := false }
    pwr := { c.pwr with flushing := false, flushHalted := [] } }

/-- R171: with no engine halted by the flush, the head goes on in Day. -/
theorem holdupStable_goesOn (hs : c.ing.flushSealed = true) (ha : c.pwr.afterFlush = 0) (hg : c.holdupGood = true)
    (hh : c.pwr.flushHalted = []) : holdupStable c = ((List.range 16).foldl (fun (d : Chip) k =>
      d.modStrg k (fun x => { x with pf := x.pf && d.zbl.pfailSeen })) c.flushOver).completeWrites.resumePosts := by
  simp [holdupStable, hf, hs, ha, hg, hh, Chip.flushOver]

end

/-! #### The cohort timers (R178) -/

section
variable {c : Chip}

theorem gatherEnd_over (hw : c.wanted = none) (hp : c.ing.part = .gather) : gatherEnd c = { c with ing := { c.ing with part := .none } } := by
  simp [gatherEnd, hw, hp]

theorem gatherEnd_ignored (hw : c.wanted = none) (hp : c.ing.part ≠ .gather) : gatherEnd c = c := by
  simp [gatherEnd, hw, hp]

/-- Whether a cohort switch is proposed, by this head or to it. -/
def Chip.switchProposed (c : Chip) : Bool := (c.zbl.proposals ++ c.zbl.accepted).any (fun a => match a.body with
  | .cohort .. => true
  | _ => false)

/-- R178: the gather time over, a lone head begins the switch, and one with a peer in service proposes it. -/
theorem gatherEnd_switches {k t : Nat} (hw : c.wanted = some (k, t)) (hp : c.ing.part = .gather) (hd : c.get R.PWR_STATUS_PHASE < 2)
    (hv : c.dwellOver = true) (ht : c.ing.gatherAt + 20000000 ≤ c.now) :
    gatherEnd c = if c.peerIn then (if c.switchProposed then c else (c.propose (.cohort k t)).1) else c.beginSwitch k := by
  have hready : ¬ (c.ing.part ≠ .gather || decide (2 ≤ c.get R.PWR_STATUS_PHASE) || !c.dwellOver ||
      decide (c.now < c.ing.gatherAt + 20000000)) = true := by simp [hp, hv]; omega
  unfold gatherEnd
  rw [hw]
  exact if_neg hready

theorem dwellEnd_gathers {k t : Nat} (hw : c.wanted = some (k, t)) (hp : c.ing.part = .none) (hv : c.dwellOver = true) :
    dwellEnd c = { c with ing := { c.ing with part := .gather, gatherAt := t } } := by
  simp [dwellEnd, hw, hp, hv]

theorem dwellEnd_early (hv : c.dwellOver = false) : dwellEnd c = c := by simp [dwellEnd, hv]

end

/-! #### Shelves that page in, park and wake (R291 to R294, R509, R510) -/

section
variable {c : Chip} {sh : Nat}

theorem shelfPageIn_ignored (h : (c.shelf sh).state ≠ 2) (rootOk mapOk : Bool) : shelfPageIn sh rootOk mapOk c = c := if_pos h

/-- The chip with a shelf's geometry and sequence numbers as its media hold them. -/
def Chip.pagedIn (c : Chip) (sh : Nat) : Chip :=
  let x := c.nandOf sh
  let top := max x.lastSeq0 x.lastSeq1
  c.modShelf sh (fun g => { g with geo := x.geo, maxSeq := max g.maxSeq top, seqCtr := max g.maxSeq top + 2 })

theorem shelfPageIn_enters (h : (c.shelf sh).state = 2) :
    shelfPageIn sh true true c = ((c.pagedIn sh).enterService sh).wakeProgress := by
  simp [shelfPageIn, h, Chip.pagedIn]

/-- R294: a shelf whose root or map does not check is scanned. -/
theorem shelfPageIn_scans (h : (c.shelf sh).state = 2) {rootOk mapOk : Bool} (hbad : rootOk = false ∨ mapOk = false) :
    shelfPageIn sh rootOk mapOk c = (((c.pagedIn sh).modShelf sh (fun g =>
      { g with state := 4, wakeAt := none, scanDone := 0, scanTotal := g.bands.length })).set R.FTM_STATUS_SCANNING 1).wakeProgress := by
  rcases hbad with hbad | hbad <;> simp [shelfPageIn, h, hbad, Chip.pagedIn]

section
variable {t : Nat} (h : (c.shelf sh).parkAt = some t)
include h

theorem parkTimeout_early (ht : c.now < t + 500000000) : parkTimeout sh c = c := by simp [parkTimeout, h, ht]

theorem parkTimeout_parks (ht : t + 500000000 ≤ c.now) : parkTimeout sh c =
    (((c.event 0x303 sh sh 0 0 0).bump R.PWR_CNT_SHELF_TMO_SHELF_TMO 1).modView (c.shelfEnt sh).str (c.shelfEnt sh).pos
      (fun v => { v with state := 4, lend := { v.lend with session := 0 } })).shelfAsleep sh := by
  simp [parkTimeout, h, not_lt.2 ht]

end

section
variable {t : Nat} (h : (c.shelf sh).wakeAt = some t)
include h

theorem shelfWakeTimeout_early (ht : c.now < t + 2500000000) : shelfWakeTimeout sh c = c := by simp [shelfWakeTimeout, h, ht]

theorem shelfWakeTimeout_absent (hs : (c.shelf sh).state = 1) (ht : t + 2500000000 ≤ c.now) : shelfWakeTimeout sh c =
    (((c.event 0x303 sh sh 1 0 0).bump R.PWR_CNT_SHELF_TMO_SHELF_TMO 1).leaveService sh).wakeProgress := by
  simp [shelfWakeTimeout, h, hs, not_lt.2 ht]

end
end

end Sys2Proof.Machine

namespace Sys2Proof
open Sys2Proof.Machine

/-- Settles O27: each row by the case of its timer that the state picks. -/
theorem ingestTimersAndFlushAct : Obligations.IngestTimersAndFlushAct := by
  intro s c fallen
  refine ⟨fun h => ?_, fun h hm hf => ?_, ?_, fun ha => ⟨fun k g hg ht => ?_, fun k h => ?_, fun cls => ⟨fun h => ?_, fun t h => ?_⟩,
    fun region rsn => ?_, fun h => ?_, fun hf hs => ⟨fun hd hn => ?_, fun hd hn he => ?_, fun hd he => ?_, fun hd he => ?_⟩, fun h => ?_,
    fun hf hs hd hg hh => ?_, fun hw hp => ?_, fun hw hp => ?_, fun k t hw hp hd hv ht => ⟨fun hi => ?_, fun hi hq => ?_, fun hi hq => ?_⟩,
    fun k t hw hp hv => ?_, fun hv => ?_, fun sh r m hsh h => ?_, fun sh hsh h => ⟨?_, fun r m hbad => ?_⟩,
    fun sh t hsh h => ⟨fun ht => ?_, fun ht => ?_⟩, fun sh t hsh h hs => ⟨fun ht => ?_, fun ht => ?_⟩⟩⟩
  · exact Yields.run rfl rfl (holdupNFall_noted h)
  · exact Yields.run rfl rfl (holdupNFall_flushes h hm hf)
  · exact Yields.run rfl rfl rfl
  · exact Yields.awake ha rfl rfl (segmentIdleTimeout_closes hg ht)
  · exact Yields.awake ha rfl rfl (segmentIdleTimeout_early h)
  · exact Yields.awake ha rfl rfl (stripeAgeTimeout_young h)
  · exact Yields.awake ha rfl rfl (stripeAgeTimeout_seals h)
  · exact Yields.awake ha rfl rfl rfl
  · exact Yields.awake ha rfl rfl (flushSeal_ignored h)
  · exact Yields.awake ha rfl rfl (flushSeal_waits hf hs hd hn)
  · exact Yields.awake ha rfl rfl (flushSeal_holds hf hs hd hn he)
  · exact Yields.awake ha rfl rfl (flushSeal_resets hf hs hd he)
  · exact Yields.awake ha rfl rfl (flushSeal_trips hf hs hd he)
  · exact Yields.awake ha rfl rfl (holdupStable_ignored h)
  · exact Yields.awake ha rfl rfl (holdupStable_goesOn hf hs hd hg hh)
  · exact Yields.awake ha rfl rfl (gatherEnd_over hw hp)
  · exact Yields.awake ha rfl rfl (gatherEnd_ignored hw hp)
  · exact Yields.awake ha rfl rfl ((gatherEnd_switches hw hp hd hv ht).trans (if_neg (ne_true_of_eq_false hi)))
  · exact Yields.awake ha rfl rfl ((gatherEnd_switches hw hp hd hv ht).trans ((if_pos hi).trans (if_pos hq)))
  · exact Yields.awake ha rfl rfl ((gatherEnd_switches hw hp hd hv ht).trans ((if_pos hi).trans (if_neg (ne_true_of_eq_false hq))))
  · exact Yields.awake ha rfl rfl (dwellEnd_gathers hw hp hv)
  · exact Yields.awake ha rfl rfl (dwellEnd_early hv)
  · exact Yields.awake ha rfl (decide_eq_true hsh) (shelfPageIn_ignored h r m)
  · exact Yields.awake ha rfl (decide_eq_true hsh) (shelfPageIn_enters h)
  · exact Yields.awake ha rfl (decide_eq_true hsh) (shelfPageIn_scans h hbad)
  · exact Yields.awake ha rfl (decide_eq_true hsh) (parkTimeout_early h ht)
  · exact Yields.awake ha rfl (decide_eq_true hsh) (parkTimeout_parks h ht)
  · exact Yields.awake ha rfl (decide_eq_true hsh) (shelfWakeTimeout_early h ht)
  · exact Yields.awake ha rfl (decide_eq_true hsh) (shelfWakeTimeout_absent h hs ht)

end Sys2Proof

/-! ### CTL OPEN of a request that is not acted on (R446, R449) -/

namespace Sys2Proof.Machine

/-- R449: without a committed job that carries it, a CTL request is not acted on. -/
theorem Chip.ctl_noJob {c : Chip} {n e op work : Nat} {body : List (Nat × Nat × Nat)} (h : c.ctlJob (engKey n e) op work body = none)
    (kinds : List Nat) (f : Chip → WorkItem → Option (Chip × List Byte)) : c.ctl n e op work body kinds f = c := by
  simp [Chip.ctl, h]

theorem ctlOpen_noJob {c : Chip} {n e work cls : Nat} (h : c.ctlJob (engKey n e) 4 work [(16, 1, cls)] = none) :
    ctlOpen n e work cls c = c := by
  unfold ctlOpen
  dsimp only
  split
  · split
    · rfl
    · exact Chip.ctl_noJob h _ _
  · exact Chip.ctl_noJob h _ _

theorem Chip.askSpace_ing (c : Chip) : c.askSpace.ing = c.ing := by
  unfold Chip.askSpace
  repeat' split
  all_goals simp

theorem Chip.askSpace_sec (c : Chip) : c.askSpace.sec = c.sec := by
  unfold Chip.askSpace
  repeat' split
  all_goals simp

theorem Chip.ctlJob_of_sec {c d : Chip} (h : d.sec = c.sec) (k op work : Nat) (body : List (Nat × Nat × Nat)) :
    d.ctlJob k op work body = c.ctlJob k op work body := by
  unfold Chip.ctlJob Chip.clusAt
  rw [h]

/-- A stripe opened is one more open stripe, and leaves the engines and their jobs. -/
theorem Chip.openStripe_adds {c d : Chip} {cls : Nat} {os : OpenStripe} (h : c.openStripe cls = some (d, os)) :
    d.ing.stripes = c.ing.stripes ++ [os] ∧ d.sec = c.sec := by
  unfold Chip.openStripe at h
  split at h
  · cases h
  · obtain ⟨⟨d0, os0⟩, h0, heq⟩ := Option.map_eq_some_iff.1 h
    obtain ⟨rfl, rfl⟩ := Prod.mk.inj heq
    rw [Chip.askSpace_ing, Chip.askSpace_sec]
    unfold Chip.openStripeIn at h0
    dsimp only at h0
    split at h0
    · cases h0
    · obtain ⟨rfl, rfl⟩ := Prod.mk.inj (Option.some.inj h0)
      exact ⟨rfl, rfl⟩

/-- A head in Day whose cohort 0, two shelves in service, is awake and takes the stripes of class 0; no engine has a job. -/
def stripeTaker : Chip :=
  let image : ImageData := { layout := [{ kind := 1 }], shelves := [{ present := true, cohort := 0 }, { present := true, str := 1, cohort := 0 }] }
  let c : Chip := { pwr := { mode := .day }, kcf := { active := some image }, ftm := { shelves := [(0, { state := 3 }), (1, { state := 3 })] } }
  (c.set R.FTM_STATUS_AWAKE 1).set R.FTM_STATUS_INGEST_VALID 1

theorem stripeTaker_opens : (stripeTaker.openStripe 0).isSome = true := rfl

end Sys2Proof.Machine

namespace Sys2Proof
open Sys2Proof.Machine

/-- A command leads to one chip. -/
theorem Yields.unique {i : Instr} {s : State} {c d : Chip} (hc : Yields i s c) (hd : Yields i s d) : c = d :=
  congrArg State.chip (Host.Outcome.next.inj (hc.symm.trans hd))

/-- Refutes O39: where a stripe has to be opened, its clause of CTL OPEN answers from the chip in which it is open, also where the
request has no committed job and is not acted on. The model then opens nothing: in `stripeTaker`, CTL OPEN of class 0 has no effect. -/
theorem not_workItemsAct : ¬ Obligations.WorkItemsAct := by
  intro h
  obtain ⟨⟨d, os⟩, hopen⟩ := Option.isSome_iff_exists.1 stripeTaker_opens
  obtain ⟨hadds, hsec⟩ := Chip.openStripe_adds hopen
  have hjob : stripeTaker.ctlJob (engKey 0 0) 4 0 [(16, 1, 0)] = none := rfl
  have hjob' : d.ctlJob (engKey 0 0) 4 0 [(16, 1, 0)] = none := (Chip.ctlJob_of_sec hsec _ _ _ _).trans hjob
  have hmodel : Yields (.ctlOpen 0 0 0 0) { chip := stripeTaker } stripeTaker := Yields.awake rfl rfl rfl (ctlOpen_noJob hjob)
  obtain ⟨-, -, -, -, -, -, -, hclause, -⟩ := h { chip := stripeTaker } 0 0 rfl (by decide) (by decide)
  have hclaim := hclause 0 0 os d (.inr ⟨rfl, hopen⟩)
  rw [Chip.ctl_noJob hjob'] at hclaim
  have hnone : d.ing.stripes = [] := by rw [← hmodel.unique hclaim]; rfl
  simp [hnone] at hadds

end Sys2Proof

/-! ### DECIDE, the buckets' pages and compression jobs (R198, R205, R206, R214 to R217, R228 to R233, R447) -/

namespace Sys2Proof.Machine

/-! #### DECIDE (R205, Table 7-1) -/

section
variable {c : Chip} {q : Query} {l : List FpCompare}

/-- R205 step 1: the chunks of a class that does not deduplicate are UNIQUE. -/
theorem Chip.decideChunk_plain (h : bitOf (c.layoutOf q.cls).opts 1 = false) :
    c.decideChunk q l = ((c.countChunk q).answerChunk { q with fp := 0 } .unique).tellEngine q 0 0 1 0 := by
  simp [Chip.decideChunk, h]

variable (ho : bitOf (c.layoutOf q.cls).opts 1 = true)
include ho

theorem Chip.decideChunk_unasked (ha : c.asksFor q = false) : c.decideChunk q l = c := by
  simp [Chip.decideChunk, ho, ha]

variable (ha : c.asksFor q = true)
include ha

/-- R206: a fingerprint that the filter rules out is UNIQUE at step 2. -/
theorem Chip.decideChunk_ruledOut (hf : c.rulesOut q.fp = true) :
    c.decideChunk q l = (c.bump R.CMP_DD_RULED_OUT_RULED_OUT 1).answerUnique q 2 := by
  simp [Chip.decideChunk, ho, ha, hf]

section
variable (hf : c.rulesOut q.fp = false) {d : Chip} {rest : List FpCompare}
include hf

/-- R217: with no in-flight record that matches, the bucket is looked up. -/
theorem Chip.decideChunk_looksUp (hr : c.compareEach ((c.inflightFor q).map (·.place)) l = (d, none, rest)) :
    c.decideChunk q l = d.lookUp q rest := by
  simp [Chip.decideChunk, ho, ha, hf, hr]

theorem Chip.decideChunk_faulted (hr : c.compareEach ((c.inflightFor q).map (·.place)) l = (d, some none, rest)) :
    c.decideChunk q l = d.answerUnique q 3 := by
  simp [Chip.decideChunk, ho, ha, hf, hr]

theorem Chip.decideChunk_matched {place : Nat}
    (hr : c.compareEach ((c.inflightFor q).map (·.place)) l = (d, some (some place), rest)) :
    c.decideChunk q l = d.answerDuplicate q 3 place (inflightChunk place).isSome := by
  simp [Chip.decideChunk, ho, ha, hf, hr]

end
end

section
variable {c : Chip} {q : Query} {l : List FpCompare}

theorem dedupDecide_noJob (h : c.catJob q = none) :
    dedupDecide q.eng q.chunk q.dom q.cls q.blocks q.fp l c = c.decideChunk q l := by
  simp [dedupDecide, h]

variable {j : PortJob} (h : c.catJob q = some j)
include h

/-- Table 13-16: an engine asks only for the tenants of its pool. -/
theorem dedupDecide_denied
    (ht : (c.tenantOf (leNat ((j.body.drop 4).take 2))).valid = false ∨
      (c.tenantOf (leNat ((j.body.drop 4).take 2))).pool ≠ c.poolOf (q.eng / 8)) :
    dedupDecide q.eng q.chunk q.dom q.cls q.blocks q.fp l c = c.tellEngine q statusDenied 0 0 0 := by
  rcases ht with ht | ht <;> simp [dedupDecide, h, ht]

theorem dedupDecide_ofTenant (hv : (c.tenantOf (leNat ((j.body.drop 4).take 2))).valid = true)
    (hp : (c.tenantOf (leNat ((j.body.drop 4).take 2))).pool = c.poolOf (q.eng / 8)) :
    dedupDecide q.eng q.chunk q.dom q.cls q.blocks q.fp l c =
      c.decideChunk { q with dom := (c.tenantOf (leNat ((j.body.drop 4).take 2))).dom } l := by
  simp [dedupDecide, h, hv, hp]

end

/-! #### BUCKET_READ_DONE (R214) -/

/-- The decisions that wait for a bucket. -/
def Chip.waitingFor (c : Chip) (b : Nat) : List DdWait := c.dd.waiting.filter (fun w => w.bucket == b)

/-- The domain of the first decision that waits for a bucket, which the event of a lost bucket names. -/
def Chip.firstWaitDom (c : Chip) (b : Nat) : Nat := ((c.waitingFor b).headD ⟨0, 0, 0, 0, 0, 0, 0, 0⟩).dom

/-- Whether a good copy of a bucket's page came from a catalogue shelf that is up. -/
def Chip.copyCame (c : Chip) (k0 k1 : Bool) : Bool := (k0 && c.ing.cat0Up) || (k1 && c.ing.cat1Up)

/-- The chip with a bucket's pages counted as read. -/
def Chip.bucketRead (c : Chip) (b : Nat) : Chip := c.bump R.CMP_DD_SHELF_READS_SHELF_READS (chainPages (c.bucket_ b))

/-- The chip with a bucket written afresh, its content lost in both copies. -/
def Chip.bucketLost (c : Chip) (b dom : Nat) : Chip :=
  ((c.setBucketEntries b []).bump R.CMP_DD_LOST_LOST 1).event 0x181 dom b 0 0 0

/-- The chip with a bucket's copies mended: a bad one from the good one, or two bad ones by the bucket's owner. -/
def Chip.bucketMended (c : Chip) (b dom : Nat) (good both : Bool) : Chip :=
  if good then (if both then c else c.setBucketEntries b (c.bucket_ b))
  else if c.ownsBucket b then c.bucketLost b dom else c

/-- The chip with no decision waiting for a bucket, which the cache holds where its page has come. -/
def Chip.bucketReleased (c : Chip) (b : Nat) (cached : Bool) : Chip :=
  { c with dd := { c.dd with
    waiting := c.dd.waiting.filter (fun w => w.bucket != b), cached := if cached then b :: c.dd.cached else c.dd.cached } }

/-- The chip with decisions made, in turn, from a bucket that has come. -/
def Chip.decidedFrom (c : Chip) (b : Nat) (mine : List DdWait) (l : List FpCompare) : Chip :=
  (mine.foldl (fun p w => p.1.searchBucket w.query 5 p.2) (c.bucketReleased b true, l)).1

/-- The chip with decisions answered as false positives of the filter. -/
def Chip.decidedFalse (c : Chip) (b : Nat) (mine : List DdWait) : Chip :=
  mine.foldl (fun d w => (d.bump R.CMP_DD_FALSE_POS_FALSE_POS 1).answerUnique w.query 6) (c.bucketReleased b false)

@[simp] theorem Chip.bucketRead_bucket (c : Chip) (b : Nat) : (c.bucketRead b).bucket_ b = c.bucket_ b := by
  simp [Chip.bucketRead, Chip.bucket_]

/-- R212: who owns a bucket rests on the peer link and on the head's position alone. -/
theorem Chip.ownsBucket_congr {c d : Chip} (hz : d.zbl = c.zbl) (hp : d.pos = c.pos) (b : Nat) : d.ownsBucket b = c.ownsBucket b := by
  simp [Chip.ownsBucket, Chip.ownsAll, hz, hp]

@[simp] theorem Chip.bucketRead_owns (c : Chip) (b : Nat) : (c.bucketRead b).ownsBucket b = c.ownsBucket b :=
  Chip.ownsBucket_congr (Chip.bump_zbl ..) (Chip.get_set_ne _ _ (by decide)) b

@[simp] theorem Chip.bucketLost_owns (c : Chip) (b dom : Nat) : (c.bucketLost b dom).ownsBucket b = c.ownsBucket b := by
  refine Chip.ownsBucket_congr ?_ ?_ b
  · simp [Chip.bucketLost, Chip.setBucketEntries]
  · exact (Chip.event_get ..).trans (Chip.get_set_ne _ _ (by decide))

section
variable {c : Chip} {b : Nat} {k0 k1 : Bool} (l : List FpCompare)

/-- R214: a page that no decision waits for, that no shelf serves, or that may still come from the other shelf, has no effect. -/
theorem bucketReadDone_ignored (h : c.waitingFor b = [] ∨ c.catServes = false ∨
    (c.copyCame k0 k1 = false ∧ (c.ing.cat0Up && c.ing.cat1Up) = false)) : bucketReadDone b k0 k1 l c = c := by
  unfold Chip.waitingFor Chip.copyCame at h
  refine if_pos ?_
  rcases h with h | h | ⟨h, hu⟩
  · simp [h]
  · simp [h]
  · simp only [h, hu]; simp

section
variable (hw : c.waitingFor b ≠ []) (hs : c.catServes = true)
include hw hs

/-- A page awaited and served is counted and its copies are mended; what waits is decided from it, or answered as false positives where
the bucket is lost and the other head's. -/
theorem bucketReadDone_served (hg : c.copyCame k0 k1 = true ∨ (c.ing.cat0Up && c.ing.cat1Up) = true) :
    let d := (c.bucketRead b).bucketMended b (c.firstWaitDom b) (c.copyCame k0 k1) (k0 && k1)
    bucketReadDone b k0 k1 l c =
      if c.copyCame k0 k1 || d.ownsBucket b then
        ((c.waitingFor b).foldl (fun p w => p.1.searchBucket w.query 5 p.2)
          (d.bucketReleased b (c.copyCame k0 k1 || d.ownsBucket b), l)).1
      else (c.waitingFor b).foldl (fun d w => (d.bump R.CMP_DD_FALSE_POS_FALSE_POS 1).answerUnique w.query 6)
        (d.bucketReleased b (c.copyCame k0 k1 || d.ownsBucket b)) := by
  have hrow : ¬ ((c.waitingFor b).isEmpty || !c.catServes || (!c.copyCame k0 k1 && !(c.ing.cat0Up && c.ing.cat1Up))) = true := by
    rcases hg with hg | hg <;> simp [hw, hs, hg]
  exact if_neg hrow

theorem bucketReadDone_good (hg : c.copyCame k0 k1 = true) : bucketReadDone b k0 k1 l c =
    (if k0 && k1 then c.bucketRead b else (c.bucketRead b).setBucketEntries b (c.bucket_ b)).decidedFrom b (c.waitingFor b) l := by
  simp [bucketReadDone_served l hw hs (.inl hg), hg, Chip.bucketMended, Chip.decidedFrom]

section
variable (hg : c.copyCame k0 k1 = false) (hu : (c.ing.cat0Up && c.ing.cat1Up) = true)
include hg hu

theorem bucketReadDone_lost (ho : c.ownsBucket b = true) : bucketReadDone b k0 k1 l c =
    ((c.bucketRead b).bucketLost b (c.firstWaitDom b)).decidedFrom b (c.waitingFor b) l := by
  simp [bucketReadDone_served l hw hs (.inr hu), hg, ho, Chip.bucketMended, Chip.decidedFrom]

theorem bucketReadDone_falsePositives (ho : c.ownsBucket b = false) :
    bucketReadDone b k0 k1 l c = (c.bucketRead b).decidedFalse b (c.waitingFor b) := by
  simp [bucketReadDone_served l hw hs (.inr hu), hg, ho, Chip.bucketMended, Chip.decidedFalse]

end
end
end

/-! #### Jobs queued (R229, R231, R447) -/

/-- The job that a compression descriptor of an issuer asks for. -/
def CmpDesc.job (d : CmpDesc) (i : Issuer) (pool handle : Nat) : CmpJob :=
  { handle := handle, op := d.op, noFallback := d.noFallback, pool := pool, srcLen := d.srcLen, srcAddr := d.srcAddr
    dstAddr := d.dstAddr, dstCap := d.dstCap, cpeJob := d.cpeJob, engine := i.engine, ticket := i.ticket, resAddr := i.resAddr
    held := i.held }

section
variable {c : Chip} {i : Issuer} {pool : Nat} {d : CmpDesc}

theorem Chip.submitCmp_full (h : c.cmpRoom pool d.op = false) : c.submitCmp i pool d = c := by simp [Chip.submitCmp, h]

variable (h : c.cmpRoom pool d.op = true)
include h

theorem Chip.submitCmp_denied (ha : c.cmpAllowed i.engine d = false) : c.submitCmp i pool d = c.deny i 3 := by
  simp [Chip.submitCmp, h, ha]

theorem Chip.submitCmp_queues (ha : c.cmpAllowed i.engine d = true) : c.submitCmp i pool d = { c with cmp := { c.cmp with
    nextHandle := c.cmp.nextHandle + 1, jobs := c.cmp.jobs ++ [d.job i pool c.cmp.nextHandle] } } := by
  simp [Chip.submitCmp, h, ha, CmpDesc.job]

end

/-! #### Jobs ended (R226 to R230, R254, R492) -/

section
variable {c : Chip} {n : Nat} {out : CmpOutcome}

theorem cmpJobEnd_unknown (h : c.cmp.jobs.find? (·.handle == n) = none) : cmpJobEnd n out c = c := by simp [cmpJobEnd, h]

variable {j : CmpJob} (h : c.cmp.jobs.find? (·.handle == n) = some j)
include h

/-- R449: a job that is held or has no core does not end. -/
theorem cmpJobEnd_waits (hj : j.held = true ∨ j.core = none) : cmpJobEnd n out c = c := by
  rcases hj with hj | hj <;> simp [cmpJobEnd, h, hj]

section
variable (hh : j.held = false) (hc : j.core ≠ none)
include hh hc

theorem cmpJobEnd_limit {st : Nat} (hl : j.limit = some st) : cmpJobEnd n out c = c.failCmp j st := by
  simp [cmpJobEnd, h, hh, hc, hl]

variable (hl : j.limit = none)
include hl

theorem cmpJobEnd_poisoned (hp : c.poisonedAt j.srcAddr j.srcLen = true) : cmpJobEnd n out c = c.failCmp j 9 := by
  simp [cmpJobEnd, h, hh, hc, hl, hp]

variable (hp : c.poisonedAt j.srcAddr j.srcLen = false)
include hp

theorem cmpJobEnd_busError : cmpJobEnd n .busError c = c.failCmp j 9 := by
  simp [cmpJobEnd, h, hh, hc, hl, hp]

/-- R226: bytes that are no frame of a core end nothing. -/
theorem cmpJobEnd_noFrame {bytes : List Byte} (hf : frameMade j.srcLen bytes = false) : cmpJobEnd n (.frame bytes) c = c := by
  simp [cmpJobEnd, h, hh, hc, hl, hp, hf]

theorem cmpJobEnd_frame {bytes : List Byte} (hf : frameMade j.srcLen bytes = true) (ho : compresses j.op = true) :
    cmpJobEnd n (.frame bytes) c = c.endCompress j bytes := by
  simp [cmpJobEnd, h, hh, hc, hl, hp, hf, ho]

theorem cmpJobEnd_content {found used : Nat} {bytes : List Byte} (ho : compresses j.op = false) :
    cmpJobEnd n (.content found bytes used) c = c.endDecompress j found bytes used := by
  simp [cmpJobEnd, h, hh, hc, hl, hp, ho]

end
end

/-- The chip with stored bytes claimed by the cipher job that a job of OP 2 names (R254). -/
def Chip.streamed (c : Chip) (j : CmpJob) (stored : Nat × List Byte) : Chip :=
  let jobs := modifyFirst (claimable j) (fun x => { x with claimed := true, stream := some stored }) c.cpe.jobs
  { c with cpe := { c.cpe with jobs := jobs } }

section
variable {c : Chip} {j : CmpJob} {bytes : List Byte}

section
variable (ho : j.op = 1)
include ho

theorem Chip.endCompress_tooLong (h : j.dstCap < (c.chosenForm j bytes).2.length) :
    c.endCompress j bytes = c.endCmp j 1 (c.chosenForm j bytes).1 0 j.srcLen := by
  simp [Chip.endCompress, ho, h]

theorem Chip.endCompress_stores (h : (c.chosenForm j bytes).2.length ≤ j.dstCap) : c.endCompress j bytes =
    ((c.store j.dstAddr (c.chosenForm j bytes).2).countCmp j (c.chosenForm j bytes).1 (c.chosenForm j bytes).2.length).endCmp j 0
      (c.chosenForm j bytes).1 (c.chosenForm j bytes).2.length j.srcLen := by
  simp [Chip.endCompress, ho, not_lt.2 h]

end

section
variable (ho : j.op = 2)
include ho

theorem Chip.endCompress_unclaimed (h : c.cpe.jobs.any (claimable j) = false) : c.endCompress j bytes = c.endCmp j 0x0B 0 0 0 := by
  simp [Chip.endCompress, ho, h]

/-- R254: the bytes of a job of OP 2 stream into the cipher job that it names. -/
theorem Chip.endCompress_streams (h : c.cpe.jobs.any (claimable j) = true) : c.endCompress j bytes =
    ((c.streamed j (c.chosenForm j bytes)).countCmp j (c.chosenForm j bytes).1 (c.chosenForm j bytes).2.length).endCmp j 0
      (c.chosenForm j bytes).1 (c.chosenForm j bytes).2.length j.srcLen := by
  simp [Chip.endCompress, Chip.streamed, ho, h]

end
end

/-- Two of CMP's counters that lie at one place are one counter. -/
theorem cmpCounters_distinct : ∀ f ∈ cmpCounters, ∀ g ∈ cmpCounters, f.key = g.key → f = g := by decide

end Sys2Proof.Machine

namespace Sys2Proof
open Sys2Proof.Machine

/-- A command that submits a compression job waits for room in its queue, is denied by its port, or queues the job. -/
theorem Yields.ofSubmitCmp {s : State} {i : Instr} {eng pool res : Nat} {d : CmpDesc} (ha : s.chip.awake = true)
    (hx : exec i s = s.runAwake true (fun c => c.submitCmp (issuerOf eng res) (c.stampPool eng pool) d)) :
    let c := s.chip
    let p := c.stampPool eng pool
    let u := issuerOf eng res
    (c.cmpRoom p d.op = false → Yields i s c) ∧
    (c.cmpRoom p d.op = true → c.cmpAllowed u.engine d = false → Yields i s (c.deny u 3)) ∧
    (c.cmpRoom p d.op = true → c.cmpAllowed u.engine d = true → Yields i s { c with cmp := { c.cmp with
      nextHandle := c.cmp.nextHandle + 1, jobs := c.cmp.jobs ++ [d.job u p c.cmp.nextHandle] } }) :=
  ⟨fun hr => Yields.awake ha hx rfl (Chip.submitCmp_full hr),
    fun hr hd => Yields.awake ha hx rfl (Chip.submitCmp_denied hr hd),
    fun hr hd => Yields.awake ha hx rfl (Chip.submitCmp_queues hr hd)⟩

/-- Settles O28: DECIDE by the step of Table 7-1 that answers, a bucket's page by its copies, a submission by its queue and its port, and a
job's end by the first thing that ends it. -/
theorem dedupAndCompressionComplete : Obligations.DedupAndCompressionComplete := by
  intro s ha c
  refine ⟨fun eng chunk dom cls blocks fp l => ⟨fun j hj => ⟨fun ht => ?_, fun hv hp => ?_⟩,
      fun hj => ⟨fun ho => ?_, fun ho hq => ?_, fun ho hq => ⟨fun hf => ?_, fun hf => ⟨fun hr => ?_, fun hr => ?_, fun place hr => ?_⟩⟩⟩⟩,
    fun b k0 k1 l =>
      ⟨fun h => ?_, fun hw hs => ⟨fun hg h0 h1 => ?_, fun hg hk => ?_, fun hg hu ho => ?_, fun hg hu ho => ?_⟩⟩,
    fun eng pool nofb len src dst cap res cpeJob => ?_, fun n => ⟨?_, ?_, ?_, ?_, ?_⟩,
    fun n hn out => ?_, fun n j hn hj out => ?_,
    fun n j hn hh hc => ⟨fun st out hl => ?_, fun hl hp out => ?_, fun hl hp => ⟨?_, fun bytes hf => ?_,
      fun bytes hf ho => ⟨fun hlen => ?_, fun hlen => ?_⟩, fun bytes hf ho => ⟨fun hcl => ?_, fun hcl => ?_⟩,
      fun found bytes used ho => ?_⟩⟩,
    fun hs => ?_⟩
  · exact Yields.awake ha rfl rfl (dedupDecide_denied hj ht)
  · exact Yields.awake ha rfl rfl (dedupDecide_ofTenant hj hv hp)
  · exact Yields.awake ha rfl rfl ((dedupDecide_noJob hj).trans (Chip.decideChunk_plain ho))
  · exact Yields.awake ha rfl rfl ((dedupDecide_noJob hj).trans (Chip.decideChunk_unasked ho hq))
  · exact Yields.awake ha rfl rfl ((dedupDecide_noJob hj).trans (Chip.decideChunk_ruledOut ho hq hf))
  · exact Yields.awake ha rfl rfl ((dedupDecide_noJob hj).trans (Chip.decideChunk_looksUp ho hq hf (Prod.ext rfl (Prod.ext hr rfl))))
  · exact Yields.awake ha rfl rfl ((dedupDecide_noJob hj).trans (Chip.decideChunk_faulted ho hq hf (Prod.ext rfl (Prod.ext hr rfl))))
  · exact Yields.awake ha rfl rfl ((dedupDecide_noJob hj).trans (Chip.decideChunk_matched ho hq hf (Prod.ext rfl (Prod.ext hr rfl))))
  · exact Yields.awake ha rfl rfl (bucketReadDone_ignored l h)
  · exact Yields.awake ha rfl rfl ((bucketReadDone_good l hw hs hg).trans (by rw [h0, h1]; rfl))
  · have hbad : (k0 && k1) = false := by rcases hk with hk | hk <;> simp [hk]
    exact Yields.awake ha rfl rfl ((bucketReadDone_good l hw hs hg).trans (by rw [hbad]; rfl))
  · exact Yields.awake ha rfl rfl (bucketReadDone_lost l hw hs hg hu ho)
  · exact Yields.awake ha rfl rfl (bucketReadDone_falsePositives l hw hs hg hu ho)
  · exact List.forall_mem_cons.2 ⟨Yields.ofSubmitCmp ha rfl, List.forall_mem_cons.2 ⟨Yields.ofSubmitCmp ha rfl,
      List.forall_mem_singleton.2 (Yields.ofSubmitCmp ha rfl)⟩⟩
  iterate 5 exact Yields.awake ha rfl rfl rfl
  · exact Yields.awake ha rfl rfl (cmpJobEnd_unknown hn)
  · exact Yields.awake ha rfl rfl (cmpJobEnd_waits hn hj)
  · exact Yields.awake ha rfl rfl (cmpJobEnd_limit hn hh hc hl)
  · exact Yields.awake ha rfl rfl (cmpJobEnd_poisoned hn hh hc hl hp)
  · exact Yields.awake ha rfl rfl (cmpJobEnd_busError hn hh hc hl hp)
  · exact Yields.awake ha rfl rfl (cmpJobEnd_noFrame hn hh hc hl hp hf)
  · exact Yields.awake ha rfl rfl ((cmpJobEnd_frame hn hh hc hl hp hf (by rw [ho]; rfl)).trans (Chip.endCompress_tooLong ho hlen))
  · exact Yields.awake ha rfl rfl ((cmpJobEnd_frame hn hh hc hl hp hf (by rw [ho]; rfl)).trans (Chip.endCompress_stores ho hlen))
  · exact Yields.awake ha rfl rfl ((cmpJobEnd_frame hn hh hc hl hp hf (by rw [ho]; rfl)).trans (Chip.endCompress_unclaimed ho hcl))
  · exact Yields.awake ha rfl rfl ((cmpJobEnd_frame hn hh hc hl hp hf (by rw [ho]; rfl)).trans (Chip.endCompress_streams ho hcl))
  · exact Yields.awake ha rfl rfl (cmpJobEnd_content hn hh hc hl hp (by rw [ho]; rfl))
  · refine completes_of_next (f := cmpCntClr) (State.runBar2_served rfl hs) ⟨?_, ?_, ?_⟩
    · exact Chip.clearAll_get cmpCounters s.chip cmpCounters_distinct
    · exact Chip.clearAll_regsSame cmpCounters (RegsSame.of_regs rfl _) (fun _ hf => hf)
    · apply Chip.eq_of_fields <;> simp [cmpCntClr, c]

end Sys2Proof

/-! ### A reply that answers no operation (R305, R509) -/

namespace Sys2Proof.Machine

/-- After a reply that answers no operation every Sleep under way goes on as far as it can, as after any other. -/
theorem mediaResponse_unknown {c : Chip} {tag : Nat} (h : c.ftm.ops.find? (fun o => o.tag == tag) = none) (status corr : Nat)
    (hdr : Option PageHdr) (data : List Byte) : mediaResponse tag status corr hdr data c = c.sleepSteps := by
  simp [mediaResponse, h]

/-- A head in Day with no operation on its way, whose cohort 0 is in Sleep and not yet closed (R509). -/
def sleeper : Chip := { pwr := { mode := .day }, ing := { sleeping := [0] } }

/-- R509: no operation is queued to the cohort's shelves, so the Sleep goes on to close the cohort. -/
theorem sleeper_closes : sleeper.sleepSteps.ing.closing = [0] := rfl

end Sys2Proof.Machine

namespace Sys2Proof
open Sys2Proof.Machine

/-- Refutes O30: its clause of a reply that answers no operation says that nothing changes, but the model's Sleeps go on after every reply
(R509). In `sleeper` such a reply closes cohort 0. -/
theorem not_mediaCommandsAct : ¬ Obligations.MediaCommandsAct := by
  intro h
  obtain ⟨-, -, hclocked⟩ := h { chip := sleeper }
  obtain ⟨hunknown, -⟩ := hclocked rfl
  have hclaim : Yields (.mediaResponse 0 0 0 none []) { chip := sleeper } sleeper := (hunknown 0 rfl).1 0 0 none []
  have hmodel : Yields (.mediaResponse 0 0 0 none []) { chip := sleeper } sleeper.sleepSteps :=
    Yields.awake rfl rfl rfl (mediaResponse_unknown rfl 0 0 none [])
  have hclosing : [] = [0] := (congrArg (·.ing.closing) (hclaim.unique hmodel)).trans sleeper_closes
  cases hclosing

end Sys2Proof

/-! ### Scrub, DIMMs, ways and the training of memory (R210, R474 to R481, R489 to R495) -/

namespace Sys2Proof.Machine

/-! #### The patrol scrub (R493) -/

/-- The chip with the scrub at another line. What the scrub leaves alone is proved for any line: at the next line the kernel would count up to
the size of DRAM. -/
def Chip.scrubTo (c : Chip) (line : Nat) : Chip := { c with mem := { c.mem with scrubAt := line } }

/-- The chip with the scrub moved on to the next line of DRAM. -/
def Chip.scrubMoved (c : Chip) : Chip := c.scrubTo ((c.mem.scrubAt + 1) % max 1 (c.dramSize / 64))

/-- The chip with what the scrub finds in an unpoisoned line counted. -/
def Chip.scrubFinds (c : Chip) (line : Nat) : EccIn → Chip
  | .clean => c
  | .corrected => c.dramCe line false
  | .uncorrectable => c.dramUe line true

@[simp] theorem Chip.scrubTo_poisoned (c : Chip) (line : Nat) : (c.scrubTo line).mem.poisoned = c.mem.poisoned := rfl

@[simp] theorem Chip.scrubMoved_poisoned (c : Chip) : c.scrubMoved.mem.poisoned = c.mem.poisoned := c.scrubTo_poisoned _

section
variable {c : Chip} (found : EccIn)

theorem patrolScrub_ignored (h : c.isDay = false ∨ c.mem.opened = false) : patrolScrub found c = c := by
  rcases h with h | h <;> simp [patrolScrub, h]

section
variable (hd : c.isDay = true) (ho : c.mem.opened = true)
include hd ho

theorem patrolScrub_reads : patrolScrub found c =
    if c.scrubMoved.mem.poisoned.contains c.mem.scrubAt then c.scrubMoved else c.scrubMoved.scrubFinds c.mem.scrubAt found := by
  unfold patrolScrub
  rw [if_neg (by simp [hd, ho])]
  cases found <;> rfl

theorem patrolScrub_movesOn (h : c.mem.scrubAt ∈ c.mem.poisoned ∨ found = .clean) : patrolScrub found c = c.scrubMoved := by
  rcases h with h | rfl
  · simp [patrolScrub_reads found hd ho, h]
  · simp [patrolScrub_reads .clean hd ho, Chip.scrubFinds]

theorem patrolScrub_finds (h : c.mem.scrubAt ∉ c.mem.poisoned) :
    patrolScrub found c = c.scrubMoved.scrubFinds c.mem.scrubAt found := by
  simp [patrolScrub_reads found hd ho, h]

end
end

/-! #### Readings and hours of a channel (R477, R491) -/

section
variable {c : Chip} {ch : Nat}

theorem dimmTemperatureReading_shows (ha : c.awake = true) (h : ch < 12) (t : Nat) : dimmTemperatureReading ch t c =
    (c.set (R.MEM_CH_STATUS_TEMP ch) t).setFlag (R.MEM_CH_STATUS_HOT ch) (decide (85 ≤ t)) := by
  simp [dimmTemperatureReading, ha, h]

theorem dimmTemperatureReading_noChannel (h : 12 ≤ ch) (t : Nat) : dimmTemperatureReading ch t c = c := by
  simp [dimmTemperatureReading, not_lt.2 h]

theorem ceHourWindow_clears (h : ch < 12) (hl : c.ceCount ch < c.get R.MEM_CTRL_CE_LIMIT) :
    ceHourWindow ch c = c.set (R.MEM_CH_STATUS_CE_HIGH ch) 0 := by
  simp [ceHourWindow, h, hl]

theorem ceHourWindow_ignored (h : 12 ≤ ch ∨ c.get R.MEM_CTRL_CE_LIMIT ≤ c.ceCount ch) : ceHourWindow ch c = c := by
  rcases h with h | h <;> simp [ceHourWindow, not_lt.2 h]

end

/-! #### Way commands (R489, R490, R494) -/

section
variable {c : Chip} {way : Nat} {byHost : Bool}

theorem wayPowerDown_noWay (h : 16 ≤ way) : wayPowerDown way byHost c = c := if_pos (by simp [h])

theorem wayPowerUp_noWay (h : 16 ≤ way) : wayPowerUp way byHost c = c := if_pos (by simp [h])

section
variable (hw : way < 16) (hu : c.wayCmdUp byHost = true)
include hw hu

/-- POWER_DOWN of a way that the head has, from a register that is served: the order of its answers. -/
theorem wayPowerDown_acts : wayPowerDown way byHost c =
    if c.on R.MEM_WAY_STATUS_ACTIVE || c.keptWays.contains way then c.wayRefuse
    else if c.bit R.MEM_WAY_STATUS_FAULTY way then (c.startOp R.MEM_WAY_RESULT_VALID).wayEnd way 2
    else if !c.bit R.MEM_STATUS_WAYS_ON way then (c.startOp R.MEM_WAY_RESULT_VALID).wayEnd way 1
    else c.sweep way true :=
  if_neg (by simp [hu, hw])

theorem wayPowerUp_acts : wayPowerUp way byHost c =
    if c.on R.MEM_WAY_STATUS_ACTIVE then c.wayRefuse
    else if c.bit R.MEM_WAY_STATUS_FAULTY way then (c.startOp R.MEM_WAY_RESULT_VALID).wayEnd way 2
    else if c.bit R.MEM_STATUS_WAYS_ON way then (c.startOp R.MEM_WAY_RESULT_VALID).wayEnd way 1
    else ((c.startOp R.MEM_WAY_RESULT_VALID).raise R.MEM_STATUS_WAYS_ON way).wayEnd way 0 :=
  if_neg (by simp [hu, hw])

theorem wayPowerDown_refused (h : c.on R.MEM_WAY_STATUS_ACTIVE = true ∨ way ∈ c.keptWays) :
    wayPowerDown way byHost c = c.wayRefuse :=
  (wayPowerDown_acts hw hu).trans (if_pos (by simpa using h))

theorem wayPowerUp_refused (h : c.on R.MEM_WAY_STATUS_ACTIVE = true) : wayPowerUp way byHost c = c.wayRefuse :=
  (wayPowerUp_acts hw hu).trans (if_pos h)

section
variable (hi : c.on R.MEM_WAY_STATUS_ACTIVE = false)
include hi

section
variable (hk : way ∉ c.keptWays)
include hk

theorem wayPowerDown_faulty (hf : c.bit R.MEM_WAY_STATUS_FAULTY way = true) :
    wayPowerDown way byHost c = (c.startOp R.MEM_WAY_RESULT_VALID).wayEnd way 2 := by
  simp [wayPowerDown_acts hw hu, hi, hk, hf]

theorem wayPowerDown_alreadyOff (hf : c.bit R.MEM_WAY_STATUS_FAULTY way = false) (ho : c.bit R.MEM_STATUS_WAYS_ON way = false) :
    wayPowerDown way byHost c = (c.startOp R.MEM_WAY_RESULT_VALID).wayEnd way 1 := by
  simp [wayPowerDown_acts hw hu, hi, hk, hf, ho]

theorem wayPowerDown_sweeps (hf : c.bit R.MEM_WAY_STATUS_FAULTY way = false) (ho : c.bit R.MEM_STATUS_WAYS_ON way = true) :
    wayPowerDown way byHost c = c.sweep way true := by
  simp [wayPowerDown_acts hw hu, hi, hk, hf, ho]

end

theorem wayPowerUp_faulty (hf : c.bit R.MEM_WAY_STATUS_FAULTY way = true) :
    wayPowerUp way byHost c = (c.startOp R.MEM_WAY_RESULT_VALID).wayEnd way 2 := by
  simp [wayPowerUp_acts hw hu, hi, hf]

theorem wayPowerUp_alreadyOn (hf : c.bit R.MEM_WAY_STATUS_FAULTY way = false) (ho : c.bit R.MEM_STATUS_WAYS_ON way = true) :
    wayPowerUp way byHost c = (c.startOp R.MEM_WAY_RESULT_VALID).wayEnd way 1 := by
  simp [wayPowerUp_acts hw hu, hi, hf, ho]

theorem wayPowerUp_powers (hf : c.bit R.MEM_WAY_STATUS_FAULTY way = false) (ho : c.bit R.MEM_STATUS_WAYS_ON way = false) :
    wayPowerUp way byHost c = ((c.startOp R.MEM_WAY_RESULT_VALID).raise R.MEM_STATUS_WAYS_ON way).wayEnd way 0 := by
  simp [wayPowerUp_acts hw hu, hi, hf, ho]

end
end
end

/-! #### The end of a sweep (R490, R494) -/

/-- The chip with the lines of a way written back. -/
def Chip.wayWrittenBack (c : Chip) (way : Nat) (sn : List (Nat × List Byte)) : Chip :=
  (c.mem.sets.flatMap (fun x => x.2.filter (fun l => l.way == way))).foldl (fun d l => d.evictLine l sn false) c

/-- The chip with no sweep under way and a way's power gone. -/
def Chip.wayOff (c : Chip) (way : Nat) : Chip :=
  (({ c with mem := { c.mem with sweeping := none, sweepCmd := false } } : Chip).lower R.MEM_STATUS_WAYS_ON way).setAll
    [(R.MEM_WAY_STATUS_ACTIVE, 0), (R.MEM_WAY_STATUS_DRAINING, 0)]

/-- The chip with the sweep begun of the first way that is faulty and still powered, if there is one. -/
def Chip.sweepFaulty (c : Chip) : Chip :=
  match (List.range 16).find? (fun w => c.bit R.MEM_WAY_STATUS_FAULTY w && c.bit R.MEM_STATUS_WAYS_ON w) with
  | some w => c.sweep w false
  | none => c

theorem Chip.sweepFaulty_eq (c : Chip) : c.sweepFaulty =
    ((List.range 16).find? (fun w => c.bit R.MEM_WAY_STATUS_FAULTY w && c.bit R.MEM_STATUS_WAYS_ON w)).elim c (fun w => c.sweep w false) := by
  unfold Chip.sweepFaulty
  split
  case h_1 w h => rw [h]; rfl
  case h_2 h => rw [h]; rfl

section
variable {c : Chip} {way : Nat} (sn : List (Nat × List Byte))

theorem waySweepDone_ignored (h : c.mem.sweeping ≠ some way) : waySweepDone way sn c = c := if_pos h

theorem waySweepDone_ends (h : c.mem.sweeping = some way) :
    let d := (c.wayWrittenBack way sn).wayOff way
    waySweepDone way sn c = (if c.mem.sweepCmd then d.wayEnd way 0 else d).sweepFaulty :=
  if_neg (not_not.2 h)

end

/-! #### The training of memory (R210, R474, R476, R478 to R481) -/

/-- The chip with the channels shown that trained. -/
def Chip.channelsUp (c : Chip) (l : List Nat) : Chip :=
  c.set R.MEM_STATUS_CH_UP (maskOf ((List.range 12).filter (fun ch => l.contains ch)))

/-- The channels that did not train, or whose DIMM R474 does not allow. -/
def badChannels (l : List Nat) (ds : List DimmId) : List Nat :=
  (List.range 12).filter (fun ch => !l.contains ch || !dimmOk ds ch)

/-- The chip loader-only after a training with bad channels, an event for each of them (R476). -/
def Chip.trainingFailed (c : Chip) (fail : List Nat) : Chip :=
  let x := fail.foldl (fun d ch => d.event 0x2C2 ch 0 0 0 0) (c.set R.MEM_STATUS_TRAIN_FAIL 1)
  ({ x with pwr := { x.pwr with dawnStep := 4 } } : Chip).enterLoaderOnly 3 0

/-- The chip with memory open, made of the DIMMs `ds` at the rate `ddr` of the clock plan. -/
def Chip.memoryOpened (c : Chip) (ds : List DimmId) (ddr : Nat) : Chip :=
  let g := (ds.headD ⟨0, 0, 0⟩).gib
  let e := c.setAll [(R.MEM_INFO_CH_GIB, g), (R.MEM_INFO_RANKS, (ds.headD ⟨0, 0, 0⟩).ranks), (R.MEM_INFO_MTS, ddr), (R.MEM_INFO_TOTAL_GIB, 12 * g)]
  { e with
    pwr := { e.pwr with dawnStep := 4 }
    mem := { e.mem with gib := 12 * g, opened := true, contentKept := true, dimms := ds, selfRefresh := false } }

/-- The chip with no image staged by a LOAD (R210). -/
def Chip.unstaged (c : Chip) : Chip :=
  if c.kcf.valid.isSome then (({ c with kcf := {} } : Chip).set R.KCF_STATUS_STATE 0).set R.KCF_SERIAL_STAGED_SERIAL 0 else c

/-- The chip with memory initialised and its content marked lost (R479 to R481). -/
def Chip.memoryInitialised (c : Chip) (bad : List Nat) : Chip :=
  let x : Chip := { c.unstaged with dram := [], mem := { c.unstaged.mem with poisoned := [] } }
  ((x.set R.MEM_STATUS_CONTENT_LOST 1).emptyFilter).event 0x2C4 (bad.headD 0) 0 0 0 0

@[simp] theorem Chip.channelsUp_pwr (c : Chip) (l : List Nat) : (c.channelsUp l).pwr = c.pwr := Chip.set_pwr ..

@[simp] theorem Chip.channelsUp_mem (c : Chip) (l : List Nat) : (c.channelsUp l).mem = c.mem := Chip.set_mem ..

section
variable {c : Chip} {l : List Nat} {ds : List DimmId} {bad : List Nat}

theorem dramTrainingDone_ignored (h : c.pwr.mode ≠ .dawn ∨ c.pwr.dawnStep ≠ 3) : dramTrainingDone l ds bad c = c :=
  if_pos (by simpa using h)

section
variable (hm : c.pwr.mode = .dawn) (h3 : c.pwr.dawnStep = 3)
include hm h3

/-- At step 3 of Dawn a bad channel decides first, then whether the content is lost. -/
theorem dramTrainingDone_dawn :
    let d := c.channelsUp l
    dramTrainingDone l ds bad c =
      if !(badChannels l ds).isEmpty then d.trainingFailed (badChannels l ds)
      else if d.pwr.coldDawn || !d.mem.contentKept || d.mem.dimms != ds || !bad.isEmpty then
        (d.memoryOpened ds d.pwr.plan.ddr).memoryInitialised bad
      else d.memoryOpened ds d.pwr.plan.ddr :=
  if_neg (by simp [hm, h3])

theorem dramTrainingDone_fails (hf : badChannels l ds ≠ []) :
    dramTrainingDone l ds bad c = (c.channelsUp l).trainingFailed (badChannels l ds) := by
  simp [dramTrainingDone_dawn hm h3, hf]

variable (hf : badChannels l ds = [])
include hf

theorem dramTrainingDone_keeps (h : ¬ (c.pwr.coldDawn = true ∨ c.mem.contentKept = false ∨ c.mem.dimms ≠ ds ∨ bad ≠ [])) :
    dramTrainingDone l ds bad c = (c.channelsUp l).memoryOpened ds c.pwr.plan.ddr := by
  obtain ⟨hcold, hkept, hdimms, hbad⟩ := by simpa using h
  simp [dramTrainingDone_dawn hm h3, hf, hcold, hkept, hdimms, hbad]

theorem dramTrainingDone_initialises (h : c.pwr.coldDawn = true ∨ c.mem.contentKept = false ∨ c.mem.dimms ≠ ds ∨ bad ≠ []) :
    dramTrainingDone l ds bad c = ((c.channelsUp l).memoryOpened ds c.pwr.plan.ddr).memoryInitialised bad := by
  rcases h with h | h | h | h <;> simp [dramTrainingDone_dawn hm h3, hf, h]

end
end

/-- Two of MEM's counters that lie at one place are one counter. -/
theorem memCounters_distinct : ∀ f ∈ memCounters, ∀ g ∈ memCounters, f.key = g.key → f = g := by decide

end Sys2Proof.Machine

namespace Sys2Proof
open Sys2Proof.Machine

/-- A way command, given by the host through BAR2 or by the head's own power control. -/
theorem Yields.wayCommand {i : Instr} {s : State} {byHost : Bool} {f : Chip → Chip} {d : Chip}
    (hs : if byHost then Served s else s.chip.awake = true) (hx : exec i s = s.runBar2 true byHost R.MEM_WAY_CMD_CMD f)
    (hd : f s.chip = d) : Yields i s d := by
  cases byHost with
  | false => exact hd ▸ hx.trans (State.runBar2_next rfl hs nofun)
  | true => exact Yields.served hs hx rfl hd

/-- R558: where a way command is served, its register can be written. -/
theorem wayCmdUp_of_served {s : State} {byHost : Bool} (hs : if byHost then Served s else s.chip.awake = true) :
    s.chip.wayCmdUp byHost = true := by
  cases byHost with
  | false => simpa [Chip.wayCmdUp] using hs
  | true =>
    obtain ⟨hawake, -, hloader⟩ := hs
    simp [Chip.wayCmdUp, hawake, hloader]

/-- Settles O43: the scrub, the readings and the way commands by the case that the state picks, training by its bad channels and by what of the
content is left. -/
theorem memoryIsKeptInOrder : Obligations.MemoryIsKeptInOrder := by
  intro s c
  refine ⟨?_, fun ha => ⟨fun found h => ?_, fun hd ho => ⟨fun found h => ?_, fun hp => ⟨?_, ?_⟩⟩, fun ch t h => ?_, fun ch t h => ?_,
      fun ch h hl => ?_, fun ch h => ?_, fun way sn h => ?_, fun way sn h => ?_, fun h l ds bad => ?_,
      fun hm h3 l ds bad => ⟨fun hf => ?_, fun hf => ⟨fun h => ?_, fun h => ?_⟩⟩⟩,
    fun way byHost hw hs _ => ?_, fun way byHost hw hs => ⟨?_, ?_⟩, fun hs => ?_⟩
  · exact Yields.run rfl rfl rfl
  · exact Yields.awake ha rfl rfl (patrolScrub_ignored found h)
  · exact Yields.awake ha rfl rfl (patrolScrub_movesOn found hd ho h)
  · exact Yields.awake ha rfl rfl (patrolScrub_finds .corrected hd ho hp)
  · exact Yields.awake ha rfl rfl (patrolScrub_finds .uncorrectable hd ho hp)
  · exact Yields.awake ha rfl rfl (dimmTemperatureReading_shows ha h t)
  · exact Yields.awake ha rfl rfl (dimmTemperatureReading_noChannel h t)
  · exact Yields.awake ha rfl rfl (ceHourWindow_clears h hl)
  · exact Yields.awake ha rfl rfl (ceHourWindow_ignored h)
  · exact Yields.awake ha rfl rfl (waySweepDone_ignored sn h)
  · exact Yields.awake ha rfl rfl ((waySweepDone_ends sn h).trans (Chip.sweepFaulty_eq _))
  · exact Yields.awake ha rfl rfl (dramTrainingDone_ignored h)
  · exact Yields.awake ha rfl rfl (dramTrainingDone_fails hm h3 hf)
  · exact Yields.awake ha rfl rfl (dramTrainingDone_keeps hm h3 hf h)
  · exact Yields.awake ha rfl rfl (dramTrainingDone_initialises hm h3 hf h)
  · have hu : c.wayCmdUp byHost = true := wayCmdUp_of_served hs
    refine ⟨fun h => ⟨?_, ?_⟩, fun h => ?_, fun hi => ⟨fun hk => ⟨fun hf => ?_, fun hf ho => ?_, fun hf ho => ?_⟩,
      fun hf => ?_, fun hf ho => ?_, fun hf ho => ?_⟩⟩
    · exact Yields.wayCommand hs rfl (wayPowerDown_refused hw hu (.inl h))
    · exact Yields.wayCommand hs rfl (wayPowerUp_refused hw hu h)
    · exact Yields.wayCommand hs rfl (wayPowerDown_refused hw hu (.inr h))
    · exact Yields.wayCommand hs rfl (wayPowerDown_faulty hw hu hi hk hf)
    · exact Yields.wayCommand hs rfl (wayPowerDown_alreadyOff hw hu hi hk hf ho)
    · exact Yields.wayCommand hs rfl (wayPowerDown_sweeps hw hu hi hk hf ho)
    · exact Yields.wayCommand hs rfl (wayPowerUp_faulty hw hu hi hf)
    · exact Yields.wayCommand hs rfl (wayPowerUp_alreadyOn hw hu hi hf ho)
    · exact Yields.wayCommand hs rfl (wayPowerUp_powers hw hu hi hf ho)
  · exact Yields.wayCommand hs rfl (wayPowerDown_noWay hw)
  · exact Yields.wayCommand hs rfl (wayPowerUp_noWay hw)
  · refine completes_of_next (f := memCntClr) (State.runBar2_served rfl hs) ⟨?_, ?_, ?_⟩
    · exact Chip.clearAll_get memCounters s.chip memCounters_distinct
    · exact Chip.clearAll_regsSame memCounters (RegsSame.of_regs rfl _) (fun _ hf => hf)
    · apply Chip.eq_of_fields <;> simp [memCntClr, c]

end Sys2Proof

/-! ### Cipher and digest jobs, and the nonce incarnation (R234, R235, R246 to R258, R260 to R269, R447, R492) -/

namespace Sys2Proof.Machine

/-! #### Cipher jobs queued (R252, R254, R447) -/

/-- The job that a cipher descriptor of an issuer asks for. -/
def CipherJob.ofDesc (d : CipherDesc) (i : Issuer) (op pool handle : Nat) : CipherJob :=
  { handle := handle, op := op, pool := pool, slot := d.slot, tenant := d.tenant, srcLen := d.srcLen, dstCap := d.dstCap
    srcAddr := d.srcAddr, dstAddr := d.dstAddr, hdrAddr := d.hdrAddr, form := d.form, engine := i.engine, ticket := i.ticket
    resAddr := i.resAddr, held := i.held }

section
variable {c : Chip} {i : Issuer} {op pool : Nat} {d : CipherDesc}

theorem Chip.submitCipher_full (h : c.newHandle pool = none) : c.submitCipher i op pool d = c := by simp [Chip.submitCipher, h]

variable {entry handle : Nat} (h : c.newHandle pool = some (entry, handle))
include h

theorem Chip.submitCipher_denied (ha : c.cipherAllowed i.engine op d = false) : c.submitCipher i op pool d = c.deny i 2 := by
  simp [Chip.submitCipher, h, ha]

theorem Chip.submitCipher_queues (ha : c.cipherAllowed i.engine op d = true) :
    c.submitCipher i op pool d = { c with cpe := { c.cpe with
      entrySeqs := Sparse.modify 0 c.cpe.entrySeqs (pool * 256 + entry) (· + 1)
      jobs := c.cpe.jobs ++ [.ofDesc d i op pool handle] } } := by
  simp [Chip.submitCipher, h, ha, CipherJob.ofDesc]

end

/-! #### Cipher jobs ended (R252 to R258, R492) -/

section
variable {c : Chip} {n : Nat} {b : Bool} {o : CmpOutcome}

theorem cipherJobEnd_unknown (h : c.cpe.jobs.find? (·.handle == n) = none) : cipherJobEnd n b o c = c := by
  simp [cipherJobEnd, h]

variable {j : CipherJob} (h : c.cpe.jobs.find? (·.handle == n) = some j) (hh : j.held = false)
include h hh

/-- A job that its checks stopped before it took a nonce ends with what stopped it. -/
theorem cipherJobEnd_early {st : Nat} (he : j.early = some st) : cipherJobEnd n b o c = c.endCipher j st 0 0 0 := by
  simp [cipherJobEnd, h, hh, he]

variable (he : j.early = none) (hc : j.core ≠ none)
include he hc

/-- A job that reads poisoned data or meets a bus error burns the nonce that it has (R251). -/
theorem cipherJobEnd_poisoned (hp : b = true ∨ c.cipherPoison j = true) :
    cipherJobEnd n b o c = (if j.nonce.isSome then c.burn j.engine else c).endCipher j 9 0 0 0 := by
  have hbad : (b || c.cipherPoison j) = true := by simpa using hp
  simp only [cipherJobEnd, h, hh, he, hbad]
  simp [hc]

variable (hp : c.cipherPoison j = false)
include hp

section
variable (ho : j.op ≤ 2) {nonce : Nat} (hn : j.nonce = some nonce)
include ho hn

theorem cipherJobEnd_encryptNoKey (hk : c.jobKey j = none) :
    cipherJobEnd n false o c = (c.burn j.engine).endCipher j 2 0 0 0 := by
  simp [cipherJobEnd, h, hh, he, hc, hp, ho, hn, hk]

theorem cipherJobEnd_encrypts {key : Nat} (hk : c.jobKey j = some key) :
    cipherJobEnd n false o c = c.finishEncrypt j nonce key := by
  simp [cipherJobEnd, h, hh, he, hc, hp, ho, hn, hk]

end

section
variable (ho : j.op = 3 ∨ j.op = 4)
include ho

theorem cipherJobEnd_decryptStopped {st : Nat} (hs : c.decryptCheck j (c.load j.hdrAddr 64) = some st) :
    cipherJobEnd n false o c = c.endCipher j st 0 0 0 := by
  rcases ho with ho | ho <;> simp [cipherJobEnd, h, hh, he, hc, hp, ho, hs]

variable (hs : c.decryptCheck j (c.load j.hdrAddr 64) = none)
include hs

theorem cipherJobEnd_decryptNoKey (hk : c.jobKey j = none) : cipherJobEnd n false o c = c.endCipher j 2 0 0 0 := by
  rcases ho with ho | ho <;> simp [cipherJobEnd, h, hh, he, hc, hp, ho, hs, hk]

theorem cipherJobEnd_decrypts {key : Nat} (hk : c.jobKey j = some key) :
    cipherJobEnd n false o c = c.finishDecrypt j key (c.load j.hdrAddr 64) o := by
  rcases ho with ho | ho <;> simp [cipherJobEnd, h, hh, he, hc, hp, ho, hs, hk]

end
end

/-! #### The nonce incarnation (R248 to R250) -/

/-- The incarnation that INST_TAKE finds next: one more than the largest of the sealed store's, the shelves' and the head's own. -/
def Chip.nextInst (c : Chip) (shelfMax : Nat) : Nat := max c.sealedInst (max shelfMax c.cpe.shelfInst) + 1

/-- The chip that takes an incarnation: the sealed store and a shelf hold it, the counters start again, and nonces are ready. -/
def Chip.withInst (c : Chip) (new : Nat) : Chip :=
  let sealed := Sparse.set 0 c.root.mono.inst (c.get R.GLB_HEAD_HEAD_ID) new
  (({ c with
    root := { c.root with mono := { c.root.mono with inst := sealed }, writes := c.root.writes + 1 }
    cpe := { c.cpe with shelfInst := new, instPending := false, counters := [] } } : Chip).set
      R.CPE_NONCE_INST_INST new).set R.CPE_STATUS_NONCE_READY 1

/-- An incarnation of 18 bits is shown whole. -/
theorem Chip.withInst_inst (c : Chip) {new : Nat} (h : new ≤ 0x3FFFF) : (c.withInst new).get R.CPE_NONCE_INST_INST = new := by
  have hne : R.CPE_NONCE_INST_INST.key ≠ R.CPE_STATUS_NONCE_READY.key := by decide
  have hw : R.CPE_NONCE_INST_INST.width = 18 := rfl
  rw [Chip.withInst, Chip.get_set_ne _ _ hne, Chip.get_set_same, hw, trunc]
  omega

theorem Chip.withInst_ready (c : Chip) (new : Nat) : (c.withInst new).get R.CPE_STATUS_NONCE_READY = 1 :=
  Chip.get_set_same ..

theorem Chip.withInst_regsSame (c : Chip) (new : Nat) :
    RegsSame c (c.withInst new) [R.CPE_NONCE_INST_INST, R.CPE_STATUS_NONCE_READY] :=
  ((RegsSame.of_regs rfl _).then_set new (by simp)).then_set 1 (by simp)

theorem Chip.withInst_frame (c : Chip) (new : Nat) : c.withInst new = { c with
    regs := (c.withInst new).regs
    cpe := { c.cpe with shelfInst := new, instPending := false, counters := [] }
    root := { c.root with
      writes := c.root.writes + 1
      mono := { c.root.mono with inst := Sparse.set 0 c.root.mono.inst (c.get R.GLB_HEAD_HEAD_ID) new } } } := by
  apply Chip.eq_of_fields <;> simp [Chip.withInst]

section
variable {c : Chip} {m : Nat} {w : Bool}

/-- R249: a head that holds an incarnation takes none. -/
theorem instTake_holds (hr : c.on R.CPE_STATUS_NONCE_READY = true) : instTake m w c = c := by simp [instTake, hr]

variable (hr : c.on R.CPE_STATUS_NONCE_READY = false)
include hr

/-- R249: after Night the head goes on with the incarnation that it had. -/
theorem instTake_goesOn (hi : c.cpe.instPending = false) :
    instTake m w c = (c.set R.CPE_NONCE_INST_INST c.sealedInst).set R.CPE_STATUS_NONCE_READY 1 := by
  simp [instTake, hr, hi]

variable (hi : c.cpe.instPending = true)
include hi

theorem instTake_exhausted (hn : 0x3FFFF < c.nextInst m) : instTake m w c =
    ((c.set R.CPE_STATUS_INST_EXHAUSTED 1).set R.CPE_STATUS_NONCE_READY 0).event 0x142 0 0 0 0 0 := by
  unfold Chip.nextInst at hn
  simp only [instTake, hr, hi, hn]; rfl

theorem instTake_noShelf (hn : c.nextInst m ≤ 0x3FFFF) : instTake m false c =
    ({ c.set R.CPE_STATUS_NONCE_READY 0 with cpe := { c.cpe with instPending := true } } : Chip).event 0x142 0 0 1 0 0 := by
  have hn' := not_lt.2 hn
  unfold Chip.nextInst at hn'
  simp [instTake, hr, hi, hn']

/-- R250: below nine tenths of the incarnations the head takes the next one without a warning. -/
theorem instTake_takes (hn : c.nextInst m < 235929) : instTake m true c = c.withInst (c.nextInst m) := by
  have hmax : ¬ 0x3FFFF < c.nextInst m := by omega
  have hwarn : ¬ 235929 ≤ c.nextInst m := by omega
  unfold Chip.nextInst at hmax hwarn
  simp [instTake, hr, hi, hmax, hwarn, Chip.withInst, Chip.nextInst]

end

/-! #### Digest jobs queued (R260, R447) -/

section
variable {c : Chip} {i : Issuer} {op pool : Nat} {d : DigestDesc}

theorem Chip.submitDigest_full (h : 256 ≤ (c.digestQueued pool).length) : c.submitDigest i op pool d = c := if_pos h

variable (h : (c.digestQueued pool).length < 256)
include h

theorem Chip.submitDigest_denied (ha : c.digestAllowed (c.digestJob i op pool d) = false) :
    c.submitDigest i op pool d = c.deny i 1 := by
  simp [Chip.submitDigest, not_le.2 h, ha]

theorem Chip.submitDigest_queues (ha : c.digestAllowed (c.digestJob i op pool d) = true) :
    c.submitDigest i op pool d = { c with dge := { c.dge with
      jobs := c.dge.jobs ++ [c.digestJob i op pool d], nextHandle := c.dge.nextHandle + 1 } } := by
  simp [Chip.submitDigest, not_le.2 h, ha]

end

/-! #### Digest jobs ended (R261 to R267, R492) -/

section
variable {c : Chip} {n : Nat} {b : Bool} {f : Option Bool} {j : DigestJob} (h : c.dge.jobs.find? (·.handle == n) = some j)
include h

/-- R449: a job that is held or has no core does not end. -/
theorem digestJobEnd_waits (hj : j.held = true ∨ j.core = none) : digestJobEnd n b f c = c := by
  rcases hj with hj | hj <;> simp [digestJobEnd, h, hj]

variable (hh : j.held = false) (hc : j.core ≠ none)
include hh hc

theorem digestJobEnd_hash (ho : j.op = 1) : digestJobEnd n b f c = c.endHash j b f := by
  simp [digestJobEnd, h, hh, hc, ho]

section
variable (ho : j.op = 2)
include ho

theorem digestJobEnd_comparePoisoned (hp : b = true ∨ c.digestPoison j = true) :
    digestJobEnd n b f c = c.endDigest j 9 0 0 [] := by
  simp [digestJobEnd, h, hh, hc, ho, hp]

theorem digestJobEnd_compares (hp : c.digestPoison j = false) :
    digestJobEnd n false f c = c.endCompare j 0 (c.load j.srcAddr 32) (c.load j.cmpAddr 32) f := by
  simp [digestJobEnd, h, hh, hc, ho, hp]

end
end

section
variable {c : Chip} {j : DigestJob} {b : Bool} {f : Option Bool}

theorem Chip.endHash_setupPoisoned (hp : c.digestSetupPoison j = true) : c.endHash j b f = c.endDigest j 9 0 0 [] := if_pos hp

variable (hp : c.digestSetupPoison j = false)
include hp

theorem Chip.endHash_limit {st : Nat} (hl : c.digestLimit j = some st) : c.endHash j b f = c.endDigest j st 0 0 [] := by
  simp [Chip.endHash, hp, hl]

variable (hl : c.digestLimit j = none)
include hl

/-- R264: a saved state that fails its checks. -/
theorem Chip.endHash_stateBad (hs : c.digestStart j = none) : c.endHash j b f = c.endDigest j 2 0 0 [] := by
  simp [Chip.endHash, hp, hl, hs]

/-- R261: the last part of a message, neither saved nor checked, gives the digest of the whole. -/
theorem Chip.endHash_final {p : DigestPos} (hs : c.digestStart j = some p) (hd : c.digestPoison j = false)
    (hr : (c.fragments j).any (fun g => !c.jobReach j.engine j.ticket g.1 g.2 false) = false)
    (hfinal : j.final = true) (hsave : j.save = false) (hcheck : j.check = false) :
    let msg := (c.fragments j).flatMap (fun g => c.load g.1 g.2)
    let whole := msg.length / digestBlock j.alg * digestBlock j.alg
    let total := p.total + msg.length
    c.endHash j false f = (c.bump R.DGE_CNT_BYTES_BYTES (ceilDiv (sumOf ((c.fragments j).map (·.2))) 64)).endDigest j 0 0 total
      (digestFinal j.alg total (digestAbsorb j.alg p.st (msg.take whole)) (msg.drop whole)) := by
  have hgood : (false || (c.fragments j).any (fun g => !c.jobReach j.engine j.ticket g.1 g.2 false) || c.digestPoison j) = false := by
    rw [hr, hd]; rfl
  simp only [Chip.endHash, hp, hl, hs, hgood, hfinal, hsave, hcheck]; rfl

end

/-- Two of CPE's counters that lie at one place are one counter. -/
theorem cpeCounters_distinct : ∀ f ∈ cpeCounters, ∀ g ∈ cpeCounters, f.key = g.key → f = g := by decide

/-- Two of DGE's counters that lie at one place are one counter. -/
theorem dgeCounters_distinct : ∀ f ∈ dgeCounters, ∀ g ∈ dgeCounters, f.key = g.key → f = g := by decide

end Sys2Proof.Machine

namespace Sys2Proof
open Sys2Proof.Machine

section
variable {s : State} {i : Instr} {eng op pool : Nat} (ha : s.chip.awake = true)
include ha

/-- A command that submits a cipher job waits for an entry of its queue, is denied by its port, or queues the job under the entry's handle. -/
theorem Yields.ofSubmitCipher {d : CipherDesc}
    (hx : exec i s = s.runAwake true (fun c => c.submitCipher (issuerOf eng d.resAddr) op (c.stampPool eng pool) d)) :
    let c := s.chip
    let p := c.stampPool eng pool
    let u := issuerOf eng d.resAddr
    (c.newHandle p = none → Yields i s c) ∧
    (∀ n h, c.newHandle p = some (n, h) →
      (c.cipherAllowed u.engine op d = false → Yields i s (c.deny u 2)) ∧
      (c.cipherAllowed u.engine op d = true → Yields i s { c with cpe := { c.cpe with
        entrySeqs := Sparse.modify 0 c.cpe.entrySeqs (p * 256 + n) (· + 1)
        jobs := c.cpe.jobs ++ [.ofDesc d u op p h] } })) :=
  ⟨fun hn => Yields.awake ha hx rfl (Chip.submitCipher_full hn),
    fun _ _ hn => ⟨fun hd => Yields.awake ha hx rfl (Chip.submitCipher_denied hn hd),
      fun hd => Yields.awake ha hx rfl (Chip.submitCipher_queues hn hd)⟩⟩

/-- A command that submits a digest job waits for room in its queue, is denied by its port, or queues the job. -/
theorem Yields.ofSubmitDigest {d : DigestDesc}
    (hx : exec i s = s.runAwake true (fun c => c.submitDigest (issuerOf eng d.resAddr) op (c.stampPool eng pool) d)) :
    let c := s.chip
    let p := c.stampPool eng pool
    let u := issuerOf eng d.resAddr
    (256 ≤ (c.digestQueued p).length → Yields i s c) ∧
    ((c.digestQueued p).length < 256 →
      (c.digestAllowed (c.digestJob u op p d) = false → Yields i s (c.deny u 1)) ∧
      (c.digestAllowed (c.digestJob u op p d) = true → Yields i s { c with dge := { c.dge with
        jobs := c.dge.jobs ++ [c.digestJob u op p d], nextHandle := c.dge.nextHandle + 1 } })) :=
  ⟨fun hr => Yields.awake ha hx rfl (Chip.submitDigest_full hr),
    fun hr => ⟨fun hd => Yields.awake ha hx rfl (Chip.submitDigest_denied hr hd),
      fun hd => Yields.awake ha hx rfl (Chip.submitDigest_queues hr hd)⟩⟩

end

/-- A clear of counters that lie at different places sets each of them to 0 and leaves the rest. -/
theorem Completes.ofClearAll {s : State} {i : Instr} {reg : Fld} {l : List Fld} (hs : Served s)
    (hx : exec i s = s.runBar2 true true reg (·.clearAll l)) (hl : ∀ f ∈ l, ∀ g ∈ l, f.key = g.key → f = g) :
    Completes i s (fun d => (∀ f ∈ l, d.get f = 0) ∧ RegsSame s.chip d l ∧ d = { s.chip with regs := d.regs }) := by
  refine completes_of_next (f := (·.clearAll l)) (hx.trans (State.runBar2_served rfl hs)) ⟨?_, ?_, ?_⟩
  · exact Chip.clearAll_get l s.chip hl
  · exact Chip.clearAll_regsSame l (RegsSame.of_regs rfl _) (fun _ hf => hf)
  · apply Chip.eq_of_fields <;> simp

/-- Settles O29: a submission by its queue and its port, a job's end by the first thing that ends it, INST_TAKE by what the head holds and by
the incarnation that comes next. -/
theorem cipherAndDigestComplete : Obligations.CipherAndDigestComplete := by
  intro s ha c
  refine ⟨fun eng pool d => ?_,
    fun n j hn hh => ⟨fun st b o he => ?_, fun he hc => ⟨fun b o hp => ?_,
      fun o nonce hp ho hj => ⟨fun hk => ?_, fun key hk => ?_⟩,
      fun o hp ho => ⟨fun st hs => ?_, fun hs hk => ?_, fun key hs hk => ?_⟩⟩⟩,
    fun n hn b o => ?_,
    fun m w => ⟨fun hr => ?_, fun hr hi => ?_, fun ⟨hr, hi⟩ hn => ?_, fun ⟨hr, hi⟩ hn hw => ?_, fun ⟨hr, hi⟩ hn hw => ?_⟩,
    fun eng pool d => ?_,
    fun n j hn => ⟨fun hj b f => ?_, fun hh hc => ⟨fun ho b f hp => ?_, fun ho hp f => ?_, fun ho hp b f => ?_,
      fun ho hp b f st hl => ?_, fun ho hp b f hl hs => ?_, fun ho hp hd p f hl hs hfinal hsave hcheck hr => ?_⟩⟩,
    fun hs => ⟨?_, ?_⟩⟩
  · exact List.forall_mem_cons.2 ⟨Yields.ofSubmitCipher ha rfl, List.forall_mem_cons.2 ⟨Yields.ofSubmitCipher ha rfl,
      List.forall_mem_cons.2 ⟨Yields.ofSubmitCipher ha rfl, List.forall_mem_singleton.2 (Yields.ofSubmitCipher ha rfl)⟩⟩⟩
  · exact Yields.awake ha rfl rfl (cipherJobEnd_early hn hh he)
  · exact Yields.awake ha rfl rfl (cipherJobEnd_poisoned hn hh he hc hp)
  · exact Yields.awake ha rfl rfl (cipherJobEnd_encryptNoKey hn hh he hc hp ho hj hk)
  · exact Yields.awake ha rfl rfl (cipherJobEnd_encrypts hn hh he hc hp ho hj hk)
  · exact Yields.awake ha rfl rfl (cipherJobEnd_decryptStopped hn hh he hc hp ho hs)
  · exact Yields.awake ha rfl rfl (cipherJobEnd_decryptNoKey hn hh he hc hp ho hs hk)
  · exact Yields.awake ha rfl rfl (cipherJobEnd_decrypts hn hh he hc hp ho hs hk)
  · exact Yields.awake ha rfl rfl (cipherJobEnd_unknown hn)
  · exact Yields.awake ha rfl rfl (instTake_holds hr)
  · exact Yields.awake ha rfl rfl (instTake_goesOn hr hi)
  · exact Yields.awake ha rfl rfl (instTake_exhausted hr hi hn)
  · subst hw
    exact Yields.awake ha rfl rfl (instTake_noShelf hr hi hn)
  · subst hw
    have hnext : Yields (.instTake m true) s (c.withInst (c.nextInst m)) := Yields.awake ha rfl rfl (instTake_takes hr hi hn)
    exact ⟨_, hnext, c.withInst_inst (hn.le.trans (by decide)), c.withInst_ready _, c.withInst_regsSame _, c.withInst_frame _⟩
  · exact List.forall_mem_cons.2 ⟨Yields.ofSubmitDigest ha rfl, List.forall_mem_singleton.2 (Yields.ofSubmitDigest ha rfl)⟩
  · exact Yields.awake ha rfl rfl (digestJobEnd_waits hn hj)
  · exact Yields.awake ha rfl rfl (digestJobEnd_comparePoisoned hn hh hc ho hp)
  · exact Yields.awake ha rfl rfl (digestJobEnd_compares hn hh hc ho hp)
  · exact Yields.awake ha rfl rfl ((digestJobEnd_hash hn hh hc ho).trans (Chip.endHash_setupPoisoned hp))
  · exact Yields.awake ha rfl rfl ((digestJobEnd_hash hn hh hc ho).trans (Chip.endHash_limit hp hl))
  · exact Yields.awake ha rfl rfl ((digestJobEnd_hash hn hh hc ho).trans (Chip.endHash_stateBad hp hl hs))
  · exact Yields.awake ha rfl rfl ((digestJobEnd_hash hn hh hc ho).trans (Chip.endHash_final hp hl hs hd hr hfinal hsave hcheck))
  · exact Completes.ofClearAll hs rfl cpeCounters_distinct
  · exact Completes.ofClearAll hs rfl dgeCounters_distinct

end Sys2Proof

/-! ### Full scan, compaction, rebuild, repair, scrub and the jobs of RDE (R294, R301, R302, R318 to R338) -/

namespace Sys2Proof.Machine

/-! #### Full scan and compaction (R294, R301, R302) -/

section
variable {c : Chip} {sh : Nat}

theorem fullScanRebuild_scans (hs : (c.shelf sh).state = 4) (hn : c.nandServes sh = true) :
    fullScanRebuild sh c = (c.fullScan sh).enterService sh := by
  simp [fullScanRebuild, hs, hn]

theorem fullScanRebuild_idle (h : (c.shelf sh).state ≠ 4 ∨ c.nandServes sh = false) : fullScanRebuild sh c = c := by
  rcases h with h | h <;> simp [fullScanRebuild, h]

theorem bandCompaction_idle
    (h : c.cohortAwake (c.shelfEnt sh).cohort = false ∨ c.ownsStr (c.strOf sh) = false ∨ (c.shelf sh).state ≠ 3) :
    bandCompaction sh c = c := by
  rcases h with h | h | h <;> simp [bandCompaction, h]

section
variable (hw : c.cohortAwake (c.shelfEnt sh).cohort = true) (ho : c.ownsStr (c.strOf sh) = true) (hs : (c.shelf sh).state = 3)
include hw ho hs

theorem bandCompaction_noBand (hb : c.bandToCompact sh = none) : bandCompaction sh c = c := by
  simp [bandCompaction, hw, ho, hs, hb]

theorem bandCompaction_empties {b : Nat} (hb : c.bandToCompact sh = some b) :
    bandCompaction sh c = c.usedFor 1 (fun d => d.compactBand sh b) := by
  simp [bandCompaction, hw, ho, hs, hb]

end
end

section
variable {c : Chip} {k : Nat}

theorem stripeCompaction_asleep (h : c.cohortAwake k = false) : stripeCompaction k c = c := by simp [stripeCompaction, h]

theorem stripeCompaction_noStripe (hw : c.cohortAwake k = true) (hl : leastLive (c.compactable k) = none) :
    stripeCompaction k c = c := by
  simp [stripeCompaction, hw, hl]

/-- The chip with a stripe marked as taken by compaction (R301). -/
def Chip.compacts (c : Chip) (k : Nat) (x : StripeEnt) : Chip := c.modStripe k x.seid (fun y => { y with compacting := true })

/-- The chip with the live records of a stripe copied to where a new record of its class goes (R301). -/
def Chip.recsCopied (c : Chip) (x : StripeEnt) (cohort : Option Nat) : Chip :=
  x.liveRecs.foldl (fun d r => d.copyRec x r x.cls cohort 0) c

theorem stripeCompaction_copies (hw : c.cohortAwake k = true) {x : StripeEnt} (hl : leastLive (c.compactable k) = some x) :
    let d := c.compacts k x
    stripeCompaction k c = (d.recsCopied x none).bump R.FTM_CNT_GC_RECORDS_GC_RECORDS
      ((d.recsCopied x none).ftm.copies.length - d.ftm.copies.length) := by
  simp only [stripeCompaction, hw, hl]
  rfl

end

/-! #### The end of the grace (R324) -/

/-- Whether a sealed stripe names a strip on a shelf that is no zero strip (R298, R324). -/
def Chip.holdsStrip (c : Chip) (sh : Nat) (x : StripeEnt) : Bool :=
  x.cohort == (c.shelfEnt sh).cohort && x.state == 2 && (match x.map.idxOf? (c.strOf sh) with
    | some j => !c.zeroStrip x j
    | none => false)

/-- The chip in which a shelf's strips are missing and its rebuild begins (R324). -/
def Chip.graceOver (c : Chip) (sh : Nat) : Chip :=
  let ss := modifyAll (c.holdsStrip sh)
    (fun x => { x with missing := setBit x.missing ((x.map.idxOf? (c.strOf sh)).getD 0) }) c.ftm.stripes
  (((({ c with ftm := { c.ftm with stripes := ss } } : Chip).modShelf sh (fun x => { x with rebuilding := true })).set
    R.RDE_REBUILD_PROG_TOTAL (c.ftm.stripes.filter (fun x => c.holdsStrip sh x && c.tends x.seid)).length).set
    R.RDE_REBUILD_PROG_DONE 0).setDegraded

section
variable {c : Chip} {sh : Nat}

theorem rebuildGraceTimeout_present (h : (c.shelf sh).absentSince = none) : rebuildGraceTimeout sh c = c := by
  simp [rebuildGraceTimeout, h]

variable {t : Nat} (h : (c.shelf sh).absentSince = some t)
include h

theorem rebuildGraceTimeout_early
    (hw : (c.shelf sh).rebuilding = true ∨ c.now < t + c.rdeCtl R.RDE_REBUILD_CTRL_GRACE_S * 1000000000) :
    rebuildGraceTimeout sh c = c := by
  rcases hw with hw | hw <;> simp [rebuildGraceTimeout, h, hw]

theorem rebuildGraceTimeout_begins (hr : (c.shelf sh).rebuilding = false)
    (hd : t + c.rdeCtl R.RDE_REBUILD_CTRL_GRACE_S * 1000000000 ≤ c.now) : rebuildGraceTimeout sh c = c.graceOver sh := by
  have hover : ¬ c.now < t + c.rdeCtl R.RDE_REBUILD_CTRL_GRACE_S * 1000000000 := not_lt.2 hd
  simp only [rebuildGraceTimeout, h, hr, hover]
  rfl

end

/-! #### Rebuild (R325 to R330) -/

/-- The chip that rebuilds a strip of a stripe on a shelf: what cannot be recovered is given up, and the strip is written and recorded. -/
def Chip.stripRebuilt (c : Chip) (x : StripeEnt) (j sh str : Nat) : Chip :=
  let g := (List.range (c.layoutOf x.cls).pages).foldl (fun d i => if d.offsetLost x i then d.losePages x i 1 else d)
    (c.set R.RDE_STATUS_WAITING 0)
  g.usedFor (if g.margin x = 0 then 4 else 3) (fun d => match d.writeStrip sh x (fun i => d.stripContent x j i) with
    | some e => e.recordRebuilt x j str
    | none => d)

section
variable {c : Chip} {k seid : Nat}

theorem rebuildStripe_noStripe (h : c.stripe k seid = none) : rebuildStripe k seid c = c := by simp [rebuildStripe, h]

variable {x : StripeEnt} (h : c.stripe k seid = some x)
include h

theorem rebuildStripe_whole (hm : c.missingStrip x = none) : rebuildStripe k seid c = c := by simp [rebuildStripe, h, hm]

/-- R326, R330: a strip is rebuilt in Day, when its stripe can be and its turn has come. -/
theorem rebuildStripe_later (hw : c.isDay = false ∨ c.rebuildable x = false ∨ c.rebuildTurn x = false) :
    rebuildStripe k seid c = c := by
  cases hm : c.missingStrip x with
  | none => exact rebuildStripe_whole h hm
  | some j => rcases hw with hw | hw | hw <;> simp [rebuildStripe, h, hm, hw]

variable {j : Nat} (hm : c.missingStrip x = some j) (hd : c.isDay = true) (hr : c.rebuildable x = true) (hu : c.rebuildTurn x = true)
include hm hd hr hu

theorem rebuildStripe_waits (ht : c.rebuildTarget x j = .none) :
    rebuildStripe k seid c = (c.set R.RDE_STATUS_WAITING 1).askEvacuation x := by
  simp [rebuildStripe, h, hm, hd, hr, hu, ht]

theorem rebuildStripe_evacuates {k2 : Nat} (ht : c.rebuildTarget x j = .evacuate k2) :
    rebuildStripe k seid c =
      ((c.set R.RDE_STATUS_WAITING 0).modStripe k seid (fun y => { y with compacting := true })).recsCopied x (some k2) := by
  simp only [rebuildStripe, h, hm, hd, hr, hu, ht]
  rfl

theorem rebuildStripe_rebuilds {sh str : Nat} (ht : c.rebuildTarget x j = .shelf sh str) :
    rebuildStripe k seid c = c.stripRebuilt x j sh str := by
  simp only [rebuildStripe, h, hm, hd, hr, hu, ht]
  rfl

end

/-! #### Repair (R334) -/

section
variable {c : Chip} {k seid strip page : Nat}

theorem repairPage_noStripe (h : c.stripe k seid = none) :
    repairPage k seid strip page c = c.dropRepair (k, seid, strip * 1024 + page) := by
  simp [repairPage, h]

variable {x : StripeEnt} (h : c.stripe k seid = some x)
include h

theorem repairPage_idle (hw : c.rde.repairs.contains (k, seid, strip * 1024 + page) = false ∨ c.cohortAwake k = false) :
    repairPage k seid strip page c = c := by
  rcases hw with hw | hw <;> simp only [repairPage, h, hw] <;> simp

/-- A page whose right content is not to be had stays reported. -/
theorem repairPage_stays (hl : c.offsetLost x page = false) (hr : c.repaired x strip page = none) :
    repairPage k seid strip page c = c := by
  simp [repairPage, h, hl, hr]

variable (he : c.rde.repairs.contains (k, seid, strip * 1024 + page) = true) (hw : c.cohortAwake k = true)
include he hw

theorem repairPage_lost (hl : c.offsetLost x page = true) :
    repairPage k seid strip page c = (c.losePages x page 2).dropRepair (k, seid, strip * 1024 + page) := by
  simp only [repairPage, h, he, hw, hl]
  rfl

theorem repairPage_rewrites (hl : c.offsetLost x page = false) {data : List Byte} (hr : c.repaired x strip page = some data) :
    repairPage k seid strip page c = ((c.usedFor 3 (fun d => d.rewrite x strip page data)).bump
      R.RDE_CNT_REPAIRED_PAGES 1).dropRepair (k, seid, strip * 1024 + page) := by
  simp only [repairPage, h, he, hw, hl, hr]
  rfl

end

/-! #### Scrub (R335 to R338) -/

/-- The stripes of a cohort that the pass under way has yet to read. -/
def Chip.toScrub (c : Chip) (k : Nat) : List StripeEnt :=
  c.ftm.stripes.filter (fun x => x.cohort == k && x.state == 2 && c.tends x.seid && decide ((c.scrubOf k).1 ≤ x.seid))

/-- The pages of a stripe that a scrub finds bad, with their strips. -/
def Chip.badPages (c : Chip) (x : StripeEnt) : List (Nat × Nat) :=
  (List.range (c.stripeWidth x)).flatMap (fun j =>
    ((List.range (c.layoutOf x.cls).pages).filter (fun i => c.getPage x j i == .gone && !bitOf x.missing j)).map (fun i => (j, i)))

/-- The chip that has read a stripe: its bad pages reported, its offsets compared, its worn pages refreshed (R335 to R337). -/
def Chip.stripeScrubbed (c : Chip) (k : Nat) (x : StripeEnt) : Chip :=
  let w := c.stripeWidth x
  let n := (c.layoutOf x.cls).pages
  let d := (c.badPages x).foldl (fun d e => d.report k x.seid e.1 e.2) (c.bump R.FTM_CNT_READS_READS (w * n))
  (d.usedFor 5 (fun d => (List.range w).foldl (fun d j => d.refreshPages x j)
    ((List.range n).foldl (fun d i => d.scrubOffset x (c.recordFails x) i) d))).bump R.RDE_CNT_SCRUBBED_SCRUBBED 1

section
variable {c : Chip} {k : Nat}

theorem scrubStripe_asleep (h : c.cohortAwake k = false) : scrubStripe k c = c := by simp [scrubStripe, h]

/-- R335: with no stripe left the pass ends. -/
theorem scrubStripe_passEnds (hw : c.cohortAwake k = true) (hm : c.toScrub k = []) : scrubStripe k c = c.setScrub k 0 c.now := by
  unfold Chip.toScrub at hm
  simp [scrubStripe, hw, hm]

/-- R335: with the last stripe read the pass ends. -/
theorem scrubStripe_last (hw : c.cohortAwake k = true) {x : StripeEnt} (hm : c.toScrub k = [x]) :
    scrubStripe k c = (c.stripeScrubbed k x).setScrub k 0 (c.stripeScrubbed k x).now := by
  unfold Chip.toScrub at hm
  simp only [scrubStripe, hw, hm, List.foldl_cons, List.foldl_nil]
  rfl

theorem scrubAgeRequest_notDue
    (h : c.rdeCtl R.RDE_SCRUB_CTRL_MAX_DAYS = 0 ∨ c.cohortAwake k = true ∨
      c.now ≤ (c.scrubOf k).2 + c.rdeCtl R.RDE_SCRUB_CTRL_MAX_DAYS * 86400000000000) : scrubAgeRequest k c = c := by
  rcases h with h | h | h <;> simp [scrubAgeRequest, h]

theorem scrubAgeRequest_asks (hd : c.rdeCtl R.RDE_SCRUB_CTRL_MAX_DAYS ≠ 0) (hw : c.cohortAwake k = false) (hs : c.cohortShelves k ≠ [])
    (ht : (c.scrubOf k).2 + c.rdeCtl R.RDE_SCRUB_CTRL_MAX_DAYS * 86400000000000 < c.now) : scrubAgeRequest k c = c.askCohort k 2 := by
  simp [scrubAgeRequest, hd, hw, hs, not_le.2 ht]

end

/-! #### Jobs of RDE submitted (R318 to R320, R447) -/

/-- The job that a descriptor asks for (R318). -/
def rdeJobFor (d : RdeDesc) (i : Issuer) (op pool handle : Nat) : RdeJob :=
  { handle := handle, op := op, desc := d, pool := pool, engine := i.engine, ticket := i.ticket, held := i.held }

section
variable {c : Chip} {i : Issuer} {op pool : Nat} {d : RdeDesc}

/-- While its pool's queue is full an engine's job waits at the port. -/
theorem Chip.submitRde_full (h : i.engine ≠ none ∧ 256 ≤ (c.rdeQueued pool).length) : c.submitRde i op pool d = c := by
  obtain ⟨he, hl⟩ := h
  simp [Chip.submitRde, Option.isSome_iff_ne_none.2 he, hl]

variable (h : ¬ (i.engine ≠ none ∧ 256 ≤ (c.rdeQueued pool).length))
include h

theorem Chip.submitRde_denied (ha : c.rdeAllowed i.engine op d = false) : c.submitRde i op pool d = c.deny i 4 := by
  have hroom : (i.engine.isSome && decide (256 ≤ (c.rdeQueued pool).length)) = false := by
    simpa [Option.isSome_iff_ne_none] using h
  simp [Chip.submitRde, hroom, ha]

theorem Chip.submitRde_queues (ha : c.rdeAllowed i.engine op d = true) : c.submitRde i op pool d = { c with rde := { c.rde with
    jobs := c.rde.jobs ++ [rdeJobFor d i op pool c.rde.nextHandle], nextHandle := c.rde.nextHandle + 1 } } := by
  have hroom : (i.engine.isSome && decide (256 ≤ (c.rdeQueued pool).length)) = false := by
    simpa [Option.isSome_iff_ne_none] using h
  simp only [Chip.submitRde, hroom, ha]
  rfl

end

/-! #### Jobs of RDE ended (R318 to R320, R492) -/

/-- The chip with free values where a job would have written its strips. -/
def Chip.spoilOutput (c : Chip) (j : RdeJob) : Chip :=
  (c.store j.desc.dst (natLe c.freeNow (rdeOutputs j.desc j.op * j.desc.len))).useFree

section
variable {c : Chip} {n : Nat} {b : Bool} {j : RdeJob} (h : c.rde.jobs.find? (·.handle == n) = some j)
include h

/-- R449: a job that is held or has no unit does not end. -/
theorem rdeJobEnd_waits (hj : j.held = true ∨ j.unit = none) : rdeJobEnd n b c = c := by
  rcases hj with hj | hj <;> simp [rdeJobEnd, h, hj]

variable (hh : j.held = false) (hu : j.unit ≠ none)
include hh hu

theorem rdeJobEnd_limit {st : Nat} (hl : j.limit = some st) : rdeJobEnd n b c = c.endRdePlain j st := by
  simp [rdeJobEnd, h, hh, hu, hl]

variable (hl : j.limit = none)
include hl

section
variable (hp : b = true ∨ c.rdePoison j = true)
include hp

theorem rdeJobEnd_verifyPoisoned (ho : j.op = 4) : rdeJobEnd n b c = c.endRdePlain j 9 := by
  rcases hp with hp | hp <;> simp [rdeJobEnd, h, hh, hu, hl, hp, ho]

/-- R320: after a bus error the outputs are not to be relied on. -/
theorem rdeJobEnd_poisoned (ho : j.op ≠ 4) : rdeJobEnd n b c = (c.spoilOutput j).endRdePlain j 9 := by
  rcases hp with hp | hp <;> simp [rdeJobEnd, h, hh, hu, hl, hp, ho, Chip.spoilOutput]

end

section
variable (hr : c.listReach j = true) (hp : c.rdePoison j = false)
include hr hp

theorem rdeJobEnd_verifies (ho : j.op = 4) : rdeJobEnd n false c = c.endVerify j := by
  simp [rdeJobEnd, h, hh, hu, hl, hr, hp, ho]

theorem rdeJobEnd_writes (ho : j.op ≠ 4) :
    rdeJobEnd n false c = (c.store j.desc.dst ((c.rdeOutput j).flatMap stripOut)).endRdePlain j 0 := by
  simp [rdeJobEnd, h, hh, hu, hl, hr, hp, ho]

end
end

end Sys2Proof.Machine

namespace Sys2Proof
open Sys2Proof.Machine

/-- A command that submits an RDE job waits for room in its queue, is denied by its port, or queues the job. -/
theorem Yields.ofSubmitRde {s : State} {i : Instr} {eng op pool : Nat} {d : RdeDesc} (ha : s.chip.awake = true)
    (hx : exec i s = s.runAwake true (fun c => c.submitRde (issuerOf eng d.resAddr) op (c.stampPool eng pool) d)) :
    let c := s.chip
    let p := c.stampPool eng pool
    let u := issuerOf eng d.resAddr
    let full := u.engine ≠ none ∧ 256 ≤ (c.rdeQueued p).length
    (full → Yields i s c) ∧
    (¬ full → c.rdeAllowed u.engine op d = false → Yields i s (c.deny u 4)) ∧
    (¬ full → c.rdeAllowed u.engine op d = true → Yields i s { c with rde := { c.rde with
      nextHandle := c.rde.nextHandle + 1, jobs := c.rde.jobs ++ [rdeJobFor d u op p c.rde.nextHandle] } }) :=
  ⟨fun hf => Yields.awake ha hx rfl (Chip.submitRde_full hf),
    fun hf hd => Yields.awake ha hx rfl (Chip.submitRde_denied hf hd),
    fun hf hd => Yields.awake ha hx rfl (Chip.submitRde_queues hf hd)⟩

/-- Settles O31: each command by what its shelf, its stripe or its page shows; a submission by its queue and its port, a job's end by the first
thing that ends it. -/
theorem redundancyCommandsAct : Obligations.RedundancyCommandsAct := by
  intro s ha c
  refine ⟨fun sh hsh => ⟨fun hs hn => ?_, fun hs => ?_, fun hw ho hs => ⟨fun hb => ?_, fun b hb => ?_⟩, fun hi => ?_, fun ht => ?_,
      fun t ht => ⟨fun hw => ?_, fun hr hd => ?_⟩⟩,
    fun k hk => ⟨fun hw => ⟨?_, ?_⟩, fun hw hl => ?_, fun x hw hl => ?_, fun seid hx => ?_,
      fun seid x hx => ⟨fun hw => ?_, fun j hm hd hr hu => ⟨fun ht => ?_, fun k2 ht => ?_, fun sh str ht => ?_⟩⟩,
      fun seid strip page => ⟨fun hx => ?_,
        fun x hx => ⟨fun hw => ?_, fun he hw => ⟨fun hl => ?_, fun hl hr => ?_, fun data hl hr => ?_⟩⟩⟩,
      fun hw hm => ?_, fun hn => ?_, fun hd hw hs ht => ?_⟩,
    fun k x hk hw hm => ?_,
    fun eng pool d => ?_,
    fun n j hn => ⟨fun hj b => ?_, fun hh hu => ⟨fun st b hl => ?_, fun hl ho b hp => ?_, fun hl ho b hp => ?_,
      fun hl hr hp => ⟨fun ho => ?_, fun ho => ?_⟩⟩⟩⟩
  · exact Yields.awake ha rfl (decide_eq_true hsh) (fullScanRebuild_scans hs hn)
  · exact Yields.awake ha rfl (decide_eq_true hsh) (fullScanRebuild_idle hs)
  · exact Yields.awake ha rfl (decide_eq_true hsh) (bandCompaction_noBand hw ho hs hb)
  · exact Yields.awake ha rfl (decide_eq_true hsh) (bandCompaction_empties hw ho hs hb)
  · exact Yields.awake ha rfl (decide_eq_true hsh) (bandCompaction_idle hi)
  · exact Yields.awake ha rfl (decide_eq_true hsh) (rebuildGraceTimeout_present ht)
  · exact Yields.awake ha rfl (decide_eq_true hsh) (rebuildGraceTimeout_early ht hw)
  · exact Yields.awake ha rfl (decide_eq_true hsh) (rebuildGraceTimeout_begins ht hr hd)
  · exact Yields.awake ha rfl (decide_eq_true hk) (stripeCompaction_asleep hw)
  · exact Yields.awake ha rfl (decide_eq_true hk) (scrubStripe_asleep hw)
  · exact Yields.awake ha rfl (decide_eq_true hk) (stripeCompaction_noStripe hw hl)
  · exact Yields.awake ha rfl (decide_eq_true hk) (stripeCompaction_copies hw hl)
  · exact Yields.awake ha rfl (decide_eq_true hk) (rebuildStripe_noStripe hx)
  · exact Yields.awake ha rfl (decide_eq_true hk) (hw.elim (rebuildStripe_whole hx) (rebuildStripe_later hx))
  · exact Yields.awake ha rfl (decide_eq_true hk) (rebuildStripe_waits hx hm hd hr hu ht)
  · exact Yields.awake ha rfl (decide_eq_true hk) (rebuildStripe_evacuates hx hm hd hr hu ht)
  · exact Yields.awake ha rfl (decide_eq_true hk) (rebuildStripe_rebuilds hx hm hd hr hu ht)
  · exact Yields.awake ha rfl (decide_eq_true hk) (repairPage_noStripe hx)
  · exact Yields.awake ha rfl (decide_eq_true hk) (repairPage_idle hx hw)
  · exact Yields.awake ha rfl (decide_eq_true hk) (repairPage_lost hx he hw hl)
  · exact Yields.awake ha rfl (decide_eq_true hk) (repairPage_stays hx hl hr)
  · exact Yields.awake ha rfl (decide_eq_true hk) (repairPage_rewrites hx he hw hl hr)
  · exact Yields.awake ha rfl (decide_eq_true hk) (scrubStripe_passEnds hw hm)
  · exact Yields.awake ha rfl (decide_eq_true hk) (scrubAgeRequest_notDue hn)
  · exact Yields.awake ha rfl (decide_eq_true hk) (scrubAgeRequest_asks hd hw hs ht)
  · exact Yields.awake ha rfl (decide_eq_true hk) (scrubStripe_last hw hm)
  · exact List.forall_mem_cons.2 ⟨Yields.ofSubmitRde ha rfl, List.forall_mem_cons.2 ⟨Yields.ofSubmitRde ha rfl,
      List.forall_mem_cons.2 ⟨Yields.ofSubmitRde ha rfl, List.forall_mem_singleton.2 (Yields.ofSubmitRde ha rfl)⟩⟩⟩
  · exact Yields.awake ha rfl rfl (rdeJobEnd_waits hn hj)
  · exact Yields.awake ha rfl rfl (rdeJobEnd_limit hn hh hu hl)
  · exact Yields.awake ha rfl rfl (rdeJobEnd_verifyPoisoned hn hh hu hl hp ho)
  · exact Yields.awake ha rfl rfl (rdeJobEnd_poisoned hn hh hu hl hp ho)
  · exact Yields.awake ha rfl rfl (rdeJobEnd_verifies hn hh hu hl hr hp ho)
  · exact Yields.awake ha rfl rfl (rdeJobEnd_writes hn hh hu hl hr hp ho)

end Sys2Proof

/-! ### Agreements, leases, map walks and STATE (R197, R287, R395, R396, R401 to R403, R414, R420, R421) -/

namespace Sys2Proof.Machine

/-! #### ANSWER (R401 step 3) -/

/-- What an accepted ANSWER does. -/
def Chip.takeAnswer (d : Chip) (opid : Nat) (res : AnswerRes) : Chip :=
  let g := d.dropRequest opid
  match g.zbl.proposals.find? (fun a => a.opid == opid && !a.committed) with
  | none => g
  | some a => match res with
    | .accept => if a.at_ + 5000000 < g.now then g else
        let l := modifyFirst (fun (x : Agreement) => x.opid == a.opid) (fun x => { x with accepted := true, committed := true }) g.zbl.proposals
        (({ g with zbl := { g.zbl with proposals := l } } : Chip).peerAsk (.commit a.opid (kindOf a.body))).applyOwn a
    | .refuse r => g.failProposal a (some r)
    | .malformed => g.failProposal a none
    | .stale => g.failProposal a none

theorem answer_receives (h : PeerHdr) (res : AnswerRes) (c : Chip) :
    answer h res c = c.receive h (.answer res) (fun d => d.takeAnswer h.opid res) := by
  cases res <;> rfl

section
variable {d : Chip} {opid : Nat}

theorem Chip.takeAnswer_noProposal
    (h : (d.dropRequest opid).zbl.proposals.find? (fun a => a.opid == opid && !a.committed) = none) (res : AnswerRes) :
    d.takeAnswer opid res = d.dropRequest opid := by
  simp only [Chip.takeAnswer, h]

variable {a : Agreement} (h : (d.dropRequest opid).zbl.proposals.find? (fun a => a.opid == opid && !a.committed) = some a)
include h

/-- An acceptance within 5 ms commits the proposal, and it takes effect here. -/
theorem Chip.takeAnswer_commits (ht : (d.dropRequest opid).now ≤ a.at_ + 5000000) :
    let g := d.dropRequest opid
    let l := modifyFirst (fun (x : Agreement) => x.opid == a.opid) (fun x => { x with accepted := true, committed := true }) g.zbl.proposals
    d.takeAnswer opid .accept =
      (({ g with zbl := { g.zbl with proposals := l } } : Chip).peerAsk (.commit a.opid (kindOf a.body))).applyOwn a := by
  simp only [Chip.takeAnswer, h, not_lt.2 ht, if_false]

theorem Chip.takeAnswer_late (ht : a.at_ + 5000000 < (d.dropRequest opid).now) :
    d.takeAnswer opid .accept = d.dropRequest opid := by
  simp only [Chip.takeAnswer, h, ht, if_true]

theorem Chip.takeAnswer_refused (r : Nat) : d.takeAnswer opid (.refuse r) = (d.dropRequest opid).failProposal a (some r) := by
  simp only [Chip.takeAnswer, h]

theorem Chip.takeAnswer_stale : d.takeAnswer opid .stale = (d.dropRequest opid).failProposal a none := by
  simp only [Chip.takeAnswer, h]

theorem Chip.takeAnswer_malformed : d.takeAnswer opid .malformed = (d.dropRequest opid).failProposal a none := by
  simp only [Chip.takeAnswer, h]

end

/-! #### DONE (R401 step 4, R414) -/

/-- The operation that caused an agreement, ended by the peer's DONE. -/
def Chip.agreementDone (d : Chip) (opid : Nat) : Proposal → Chip
  | .keyLoad .. | .keyErase _ => d.keyOpDone opid
  | .owner k q => if q != d.pos && d.ownsStr k then d.modStrg k (fun x => { x with releaseIn := 3 }) else d
  | _ => d

/-- What an accepted DONE does. -/
def Chip.takeDone (d : Chip) (opid p : Nat) : Chip :=
  let g := d.dropRequest opid
  match g.zbl.proposals.find? (fun a => a.opid == p && a.committed) with
  | none => g
  | some a => (g.dropProposal p).agreementDone p a.body

theorem doneMsg_receives (h : PeerHdr) (p st : Nat) (c : Chip) :
    doneMsg h p st c = c.receive h (.done p st) (fun d => d.takeDone h.opid p) := rfl

section
variable {d : Chip} {opid p : Nat}

theorem Chip.takeDone_noProposal (h : (d.dropRequest opid).zbl.proposals.find? (fun a => a.opid == p && a.committed) = none) :
    d.takeDone opid p = d.dropRequest opid := by
  simp only [Chip.takeDone, h]

variable {a : Agreement} (h : (d.dropRequest opid).zbl.proposals.find? (fun a => a.opid == p && a.committed) = some a)
include h

theorem Chip.takeDone_erases {k : Nat} (hb : a.body = .keyErase k) :
    d.takeDone opid p = ((d.dropRequest opid).dropProposal p).keyOpDone p := by
  simp only [Chip.takeDone, h, hb, Chip.agreementDone]

/-- R414: the string's old owner will release it. -/
theorem Chip.takeDone_releases {k q : Nat} (hb : a.body = .owner k q) (hq : q ≠ ((d.dropRequest opid).dropProposal p).pos)
    (ho : ((d.dropRequest opid).dropProposal p).ownsStr k = true) :
    d.takeDone opid p = ((d.dropRequest opid).dropProposal p).modStrg k (fun x => { x with releaseIn := 3 }) := by
  have hc : (q != ((d.dropRequest opid).dropProposal p).pos && ((d.dropRequest opid).dropProposal p).ownsStr k) = true := by
    simp [hq, ho]
  simp only [Chip.takeDone, h, hb, Chip.agreementDone, hc, if_true]

end

/-! #### The lapse of a proposal (R401) -/

section
variable {c : Chip} {opid : Nat}

theorem proposalLapse_noProposal (h : c.zbl.proposals.find? (fun a => a.opid == opid && !a.committed) = none) :
    proposalLapse opid c = c := by
  simp only [proposalLapse, h]

variable {a : Agreement} (h : c.zbl.proposals.find? (fun a => a.opid == opid && !a.committed) = some a)
include h

theorem proposalLapse_due (ht : a.at_ + 5000000 ≤ c.now) : proposalLapse opid c = c.failProposal a none := by
  simp only [proposalLapse, h, ht, if_true]

theorem proposalLapse_early (ht : c.now < a.at_ + 5000000) : proposalLapse opid c = c := by
  simp only [proposalLapse, h, not_le.2 ht, if_false]

end

/-! #### LEASE (R287, R402, R403) -/

/-- What this head grants of the kind asked: granules, reserve granules or bands. -/
def Chip.leaseGranted (d : Chip) (what n tenant sh : Nat) : List Nat :=
  if what = 0 then d.grantGranules n else if what = 1 then d.grantReserve n tenant else d.grantBands n sh

/-- A request is granted what its kind allows, where it keeps the limits of Table 12-12. -/
theorem lease_requests (h : PeerHdr) (what n tenant sh : Nat) (c : Chip) :
    lease h (.request what n tenant sh) c = c.request h (.lease (.request what n tenant sh))
      (decide (what < 3) && decide (n ≤ (if what = 2 then 16 else 64)) && decide (tenant < 1024) && decide (sh < 128))
      (.lease (.response 0xFF [])) (.lease (.response 0xFE [])) (fun d =>
        let l := d.leaseGranted what n tenant sh
        (d.lend what sh l).peerReply h.opid (.lease (.response 0 l))) := by
  match what with
  | 0 => rfl
  | 1 => rfl
  | _ + 2 => rfl

theorem lease_requested {what n tenant sh : Nat} (hw : what < 3) (hn : n ≤ if what = 2 then 16 else 64) (ht : tenant < 1024)
    (hs : sh < 128) (h : PeerHdr) (c : Chip) :
    lease h (.request what n tenant sh) c =
      c.request h (.lease (.request what n tenant sh)) true (.lease (.response 0xFF [])) (.lease (.response 0xFE [])) (fun d =>
        let l := d.leaseGranted what n tenant sh
        (d.lend what sh l).peerReply h.opid (.lease (.response 0 l))) := by
  rw [lease_requests, decide_eq_true hw, decide_eq_true hn, decide_eq_true ht, decide_eq_true hs]
  simp only [Bool.and_self]

/-- The chip that no longer waits for a lease of granules. -/
def Chip.leaseAnswered (d : Chip) (what : Nat) : Chip :=
  if what = 0 then { d with zbl := { d.zbl with leaseOut := false } } else d

/-- What an accepted LEASE response does. -/
def Chip.takeLease (d : Chip) (opid st : Nat) (l : List Nat) : Chip :=
  match d.zbl.requests.find? (fun r => r.opid == opid) with
  | none => d
  | some r => match r.msg with
    | .lease (.request what _ _ sh) =>
      let g := (d.dropRequest opid).leaseAnswered what
      if st = 0 then g.borrow what sh l else g
    | _ => d.dropRequest opid

theorem lease_responded (h : PeerHdr) (st : Nat) (l : List Nat) (c : Chip) :
    lease h (.response st l) c = c.receive h (.lease (.response st l)) (fun d => d.takeLease h.opid st l) := rfl

section
variable {d : Chip} {opid : Nat} {l : List Nat}

theorem Chip.takeLease_noRequest (h : d.zbl.requests.find? (fun r => r.opid == opid) = none) (st : Nat) : d.takeLease opid st l = d := by
  simp only [Chip.takeLease, h]

variable {r : OpenReq} {what n tenant sh : Nat} (h : d.zbl.requests.find? (fun r => r.opid == opid) = some r)
  (hr : r.msg = .lease (.request what n tenant sh))
include h hr

theorem Chip.takeLease_granted :
    d.takeLease opid 0 l = ((d.dropRequest opid).leaseAnswered what).borrow what sh l := by
  simp only [Chip.takeLease, h, hr, if_true]

theorem Chip.takeLease_refused {st : Nat} (hst : st ≠ 0) : d.takeLease opid st l = (d.dropRequest opid).leaseAnswered what := by
  simp only [Chip.takeLease, h, hr, hst, if_false]

end

/-! #### MAPWALK (R197) -/

theorem mapwalk_requested {n : Nat} (h1 : 1 ≤ n) (h512 : n ≤ 512) (h : PeerHdr) (nsid slba : Nat) (c : Chip) :
    mapwalk h (.request nsid slba n) c =
      c.request h (.walk (.request nsid slba n)) true (.walk (.response 0xFF [])) (.walk (.response 0xFE [])) (fun d =>
        if (d.nsOf nsid).present then
          d.peerReply h.opid (.walk (.response 0 ((joinWalk ((upFrom slba n).map (fun b => d.walkBlock nsid b))).take 173)))
        else d.peerReply h.opid (.walk (.response 1 []))) := by
  simp only [mapwalk, h1, h512, decide_true, Bool.and_self]
  congr 1
  funext d
  cases (d.nsOf nsid).present <;> rfl

/-- The read that a walk of `nsid` from `slba` on resolves. -/
def Chip.walkReader (d : Chip) (nsid slba : Nat) : Option ReadCmd :=
  d.ing.reads.find? (fun r => r.walking && r.nsid == nsid && r.slba + r.srcs.length == slba)

/-- The chip without a read of its list. -/
def Chip.withoutRead (d : Chip) (r : ReadCmd) : Chip := { d with ing := { d.ing with reads := d.ing.reads.filter (fun x => x.id != r.id) } }

/-- A read goes on with what a walk of its blocks from `slba` on found: it is resolved here where that is nothing, and asks again where it is
not all. -/
def Chip.walkTaken (g : Chip) (r : ReadCmd) (nsid slba n : Nat) (got : List BlockSrc) : Chip :=
  let x : ReadCmd := { r with srcs := r.srcs ++ got }
  if got.isEmpty then (g.withoutRead r).resolveHere x
  else if x.walking then
    ({ g with ing := { g.ing with reads := g.ing.reads.filter (fun x => x.id != r.id) ++ [x] } } : Chip).peerAsk
      (.walk (.request nsid (slba + got.length) (n - got.length)))
  else (g.withoutRead r).beginRead x

/-- What an accepted MAPWALK response does. -/
def Chip.takeWalk (d : Chip) (opid st : Nat) (es : List WalkEntry) : Chip :=
  match d.zbl.requests.find? (fun r => r.opid == opid) with
  | none => d
  | some q =>
    let g := d.dropRequest opid
    match q.msg with
    | .walk (.request nsid slba n) => match g.walkReader nsid slba with
      | none => g
      | some r => g.walkTaken r nsid slba n (if st = 0 then g.walked nsid slba n es else [])
    | _ => g

theorem mapwalk_responded (h : PeerHdr) (st : Nat) (es : List WalkEntry) (c : Chip) :
    mapwalk h (.response st es) c = c.receive h (.walk (.response st es)) (fun d => d.takeWalk h.opid st es) := rfl

section
variable {d : Chip} {opid : Nat} {es : List WalkEntry}

theorem Chip.takeWalk_noRequest (h : d.zbl.requests.find? (fun r => r.opid == opid) = none) (st : Nat) : d.takeWalk opid st es = d := by
  simp only [Chip.takeWalk, h]

variable {q : OpenReq} {nsid slba n : Nat} {r : ReadCmd} (h : d.zbl.requests.find? (fun r => r.opid == opid) = some q)
  (hq : q.msg = .walk (.request nsid slba n)) (hr : (d.dropRequest opid).walkReader nsid slba = some r)
include h hq hr

/-- A walk that fails or finds nothing leaves the read to this head. -/
theorem Chip.takeWalk_nothing {st : Nat} (hn : st ≠ 0 ∨ (d.dropRequest opid).walked nsid slba n es = []) :
    d.takeWalk opid st es = ((d.dropRequest opid).withoutRead r).resolveHere { r with srcs := r.srcs ++ [] } := by
  have hgot : (if st = 0 then (d.dropRequest opid).walked nsid slba n es else []) = [] := by
    rcases hn with hn | hn <;> simp [hn]
  simp only [Chip.takeWalk, h, hq, hr, hgot]
  rfl

/-- A walk that completes the read's sources lets it begin. -/
theorem Chip.takeWalk_all (hn : (d.dropRequest opid).walked nsid slba n es ≠ [])
    (hw : ({ r with srcs := r.srcs ++ (d.dropRequest opid).walked nsid slba n es } : ReadCmd).walking = false) :
    d.takeWalk opid 0 es = ((d.dropRequest opid).withoutRead r).beginRead
      { r with srcs := r.srcs ++ (d.dropRequest opid).walked nsid slba n es } := by
  have hsome : ((d.dropRequest opid).walked nsid slba n es).isEmpty = false := by simpa using hn
  simp only [Chip.takeWalk, h, hq, hr, if_true, Chip.walkTaken, hsome, hw]
  rfl

end

/-! #### A readmission refused (R421) -/

section
variable {c : Chip}

theorem Chip.refuseReadmission_ends (h : ∃ r, c.zbl.rejoin = some r ∧ r.survivor = true ∧ r.admitted = false) :
    let d := c.endJoining.set R.ZBL_STATUS_REFUSED 1
    c.refuseReadmission = { d with zbl := { d.zbl with retryAt := d.now + 10000000000 } } := by
  obtain ⟨r, hr, hs, ha⟩ := h
  simp [Chip.refuseReadmission, hr, hs, ha]

theorem Chip.refuseReadmission_idle (h : ∀ r, c.zbl.rejoin = some r → r.survivor = false ∨ r.admitted = true) :
    c.refuseReadmission = c := by
  have hnone : c.zbl.rejoin.any (fun r => r.survivor && !r.admitted) = false := by
    cases hr : c.zbl.rejoin with
    | none => rfl
    | some r => rcases h r hr with hs | hs <;> simp [hs]
  simp only [Chip.refuseReadmission, hnone]
  rfl

end

end Sys2Proof.Machine

namespace Sys2Proof
open Sys2Proof.Machine

/-- Settles O37: each frame by what receives it, what it then does by the proposal, request or read that waits for it, and each lapse by its
time. -/
theorem agreementsAreMade : Obligations.AgreementsAreMade := by
  intro s h ha c
  refine ⟨fun p t => ?_,
    ⟨fun res d => d.takeAnswer h.opid res, fun res => ?_, fun d => ⟨fun res hn => Chip.takeAnswer_noProposal hn res,
      fun a hp => ⟨Chip.takeAnswer_commits hp, Chip.takeAnswer_late hp, Chip.takeAnswer_refused hp, Chip.takeAnswer_stale hp,
        Chip.takeAnswer_malformed hp⟩⟩⟩,
    fun p kind => ?_,
    ⟨fun p d => d.takeDone h.opid p, fun p st => ?_, fun d p => ⟨Chip.takeDone_noProposal,
      fun a hp => ⟨fun k hb => Chip.takeDone_erases hp hb, fun k q hb hq ho => Chip.takeDone_releases hp hb hq ho⟩⟩⟩,
    fun opid hn => ?_, fun opid a hp => ⟨fun ht => ?_, fun ht => ?_⟩, fun opid => ?_,
    fun what n tenant sh hw hn ht hs => ?_,
    ⟨fun st l d => d.takeLease h.opid st l, fun st l => ?_, fun d st l => ⟨fun hn => Chip.takeLease_noRequest hn st,
      fun r what n tenant sh hr hm => ⟨Chip.takeLease_granted hr hm, Chip.takeLease_refused hr hm⟩⟩⟩,
    fun nsid slba n h1 h512 => ?_,
    ⟨fun st es d => d.takeWalk h.opid st es, fun st es => ?_, fun d st es => ⟨fun hn => Chip.takeWalk_noRequest hn st,
      fun q nsid slba n r hq hm hr => ⟨Chip.takeWalk_nothing hq hm hr, Chip.takeWalk_all hq hm hr⟩⟩⟩,
    fun last items => ?_, fun st => ?_,
    fun d => ⟨Chip.refuseReadmission_ends, Chip.refuseReadmission_idle⟩⟩
  · exact Yields.awake ha rfl rfl rfl
  · exact Yields.awake ha rfl rfl (answer_receives h res c)
  · exact Yields.awake ha rfl rfl rfl
  · exact Yields.awake ha rfl rfl (doneMsg_receives h p st c)
  · exact Yields.awake ha rfl rfl (proposalLapse_noProposal hn)
  · exact Yields.awake ha rfl rfl (proposalLapse_due hp ht)
  · exact Yields.awake ha rfl rfl (proposalLapse_early hp ht)
  · exact Yields.awake ha rfl rfl rfl
  · exact Yields.awake ha rfl rfl (lease_requested hw hn ht hs h c)
  · exact Yields.awake ha rfl rfl (lease_responded h st l c)
  · exact Yields.awake ha rfl rfl (mapwalk_requested h1 h512 h nsid slba c)
  · exact Yields.awake ha rfl rfl (mapwalk_responded h st es c)
  · exact Yields.awake ha rfl rfl rfl
  · exact Yields.awake ha rfl rfl rfl

end Sys2Proof

/-! ### Strings: hub, training, beacons, slots, holdover and contention (R347 to R368, R384) -/

namespace Sys2Proof.Machine

/-! #### What an update of a string leaves -/

@[simp] theorem Chip.strg_modStrg_same (c : Chip) (k : Nat) (f : Strg → Strg) : (c.modStrg k f).strg k = f (c.strg k) :=
  Sparse.get_set_same _ _ _ _

theorem Chip.strg_modStrg_ne (c : Chip) {j k : Nat} (h : j ≠ k) (f : Strg → Strg) : (c.modStrg k f).strg j = c.strg j :=
  Sparse.get_set_ne _ _ _ _ h

@[simp] theorem Chip.strg_set (c : Chip) (f : Fld) (v j : Nat) : (c.set f v).strg j = c.strg j := by
  simp only [Chip.strg, Chip.set_isf]

@[simp] theorem Chip.modStrg_regs (c : Chip) (k : Nat) (f : Strg → Strg) : (c.modStrg k f).regs = c.regs := rfl

@[simp] theorem Chip.modStrg_get (c : Chip) (k : Nat) (f : Strg → Strg) (r : Fld) : (c.modStrg k f).get r = c.get r := rfl

/-! #### The hub and training (R347, R351, R352) -/

section
variable {k : Nat} {ports : List HubIn} {c : Chip}

theorem hubCodeword_forwards (h : ∀ a mis, hubForward ports ≠ .collide a mis) :
    hubCodeword k ports c =
      (c.modStrg k (fun x => { x with hubOut := hubForward ports })).emit (.hubSend k (hubForward ports)) := by
  unfold hubCodeword
  cases hout : hubForward ports with
  | idle => rfl
  | codeword bs => rfl
  | collide a mis => exact absurd hout (h a mis)

/-- The attachments whose ports report a misalignment are trained no more; this head's own trains again. -/
theorem hubCodeword_collides {a mis : Nat} (h : hubForward ports = .collide a mis) :
    let t := ((c.modStrg k (fun x => { x with hubOut := hubForward ports })).emit (.hubSend k (hubForward ports))).modStrg k
      (fun x => { x with trained := x.trained.filter (fun a => !bitOf mis a) })
    hubCodeword k ports c =
      if bitOf mis t.att then (t.set (R.ISF_STR_STATUS_STATE k) 1).emit (.strTrain k t.att) else t := by
  unfold hubCodeword
  generalize hubForward ports = out at h ⊢
  subst h
  rfl

end

section
variable {k att lanes : Nat} {echoes : List Nat} {c : Chip}

theorem attachmentTraining_other (ha : att ≠ c.att) :
    attachmentTraining k att lanes echoes c = c.modStrg k (fun x => { x with
      trained := x.trained.filter (· != att) ++ (if lanes % 16 == 15 && decide (64 ≤ echoes.length) then [att] else []) }) :=
  if_pos ha

/-- R527: a lifecycle state without links trains no string. -/
theorem attachmentTraining_unused (h : c.usesLinks = false) : attachmentTraining k c.att lanes echoes c = c := by
  simp [attachmentTraining, h]

theorem attachmentTraining_own (hu : c.usesLinks = true) (hl : lanes % 16 = 15) (he : 64 ≤ echoes.length) :
    let loop := (echoes.take 64).foldl min (echoes.headD 0)
    attachmentTraining k c.att lanes echoes c =
      (((((c.modStrg k (fun x => { x with trained := x.trained.filter (· != c.att) ++ [c.att] })).set (R.ISF_STR_STATUS_LANES k) lanes).set
        (R.ISF_STR_LOOP_ROUND k) loop).modStrg k (fun x => { x with loopPs := loop })).strUp k) := by
  simp [attachmentTraining, hu, hl, he]

end

/-! #### BEACON_TRANSMIT (R359, R360, R363, R365) -/

theorem beaconTransmit_silent {k : Nat} {c : Chip} (h : (c.strg k).beaconing = false ∨ c.trainedOn k = false) (collides : Bool) :
    beaconTransmit k collides c = c := by
  rcases h with h | h <;> simp [beaconTransmit, h]

/-- The bridges of a string whose shelves are due to wake. -/
def Chip.wakeDue (c : Chip) (k : Nat) : List Nat :=
  (c.topology.filter (fun e => e.2.str == k && (match (c.shelf e.1).wakeAt with
    | some t => decide (t ≤ c.now) && (c.shelf e.1).state == 1
    | none => false))).map (·.2.pos)

/-- A string at the start of its owner's next cycle. -/
def Strg.turned (g : Strg) (due : List Nat) (now : Nat) : Strg :=
  { g with
    grants := g.nextGrants
    spent := []
    wakeList := due
    beaconTxc := g.beaconTxc + 1
    lastBeaconAt := now
    beacons := g.beacons + 1
    release := g.release || g.releaseIn == 1
    releaseIn := g.releaseIn - 1
    views := g.views.map (fun v => if v.2.state = 3 then (v.1, { v.2 with silentCycles := v.2.silentCycles + 1 }) else v) }

/-- A cycle counted, and its grant map in force. -/
def Chip.turned (c : Chip) (k : Nat) : Chip :=
  let d := c.bump (R.ISF_STR_CYCLE_CYCLE k) 1
  d.modStrg k (fun g => g.turned (d.wakeDue k) d.now)

/-- The string's beacon with the grant map `next`. -/
def Chip.ownBeacon (c : Chip) (k : Nat) (next : List Nat) : Beacon :=
  let g := c.strg k
  ⟨c.get (R.ISF_STR_CYCLE_CYCLE k), c.get (R.ISF_STR_STATUS_OWNER_GEN k), g.pf, g.fence8, g.fence9, g.release, g.wakeList, g.quarantine,
    g.cack1, g.cack2, next, c.get (R.ISF_STR_STATUS_KEYGEN k), g.beaconTxc, c.att⟩

/-- A string whose beacon has been sent. -/
def Strg.sent (g : Strg) (collides : Bool) : Strg :=
  { g with
    cack1 := 15
    cack2 := 15
    outAt := none
    fenceCycles := if g.fence8 || g.fence9 then g.fenceCycles + (if collides then 0 else 1) else 0 }

/-- The grant map of the next cycle made. -/
def Chip.mapMade (c : Chip) (k : Nat) : Chip :=
  let next := c.nextGrants k
  c.modStrg k (fun g => { g with nextGrants := next })

/-- The beacon with the grant map `next` on the wire, under the string key. -/
def Chip.beaconOut (c : Chip) (k : Nat) (next : List Nat) (collides : Bool) : Chip :=
  let b := c.ownBeacon k next
  (c.emit (.beacon k b (b.wire (c.strg k).key))).modStrg k (·.sent collides)

/-- The grant map made, the beacon that carries it sent, and the string shown as this head's. -/
def Chip.beaconSent (c : Chip) (k : Nat) (collides : Bool) : Chip :=
  (((c.mapMade k).beaconOut k (c.nextGrants k) collides).set (R.ISF_STR_STATUS_STATE k) 3).set
    (R.ISF_STR_STATUS_PF k) (flag ((c.mapMade k).strg k).pf)

/-- A beaconing head sends the next cycle's beacon, then answers a collision, or the end of its ownership: what `beaconTransmit` does past its
gate is a cycle turned, the map made and the beacon sent. -/
theorem beaconTransmit_sends {k : Nat} {c : Chip} (ha : c.awake = true) (hb : (c.strg k).beaconing = true) (ht : c.trainedOn k = true)
    (collides : Bool) :
    let d := (c.turned k).beaconSent k collides
    beaconTransmit k collides c =
      if collides then d.ownershipConflict k else if (c.strg k).release || (c.strg k).releaseIn == 1 then d.disownString k else d := by
  intro d
  have hs : ((c.bump (R.ISF_STR_CYCLE_CYCLE k) 1).strg k) = c.strg k := Chip.strg_set _ _ _ _
  have hr : (((c.turned k).mapMade k).strg k).release = ((c.strg k).release || (c.strg k).releaseIn == 1) := by
    simp [Chip.mapMade, Chip.turned, Strg.turned, hs]
  rw [← hr]
  have hgo : ¬ (!(c.strg k).beaconing || !c.trainedOn k || !c.awake) = true := by simp [ha, hb, ht]
  exact if_neg hgo

section
variable (c : Chip) (k : Nat) (collides : Bool)

@[simp] theorem Chip.now_set_isfCycle (v : Nat) : (c.set (R.ISF_STR_CYCLE_CYCLE k) v).now = c.now :=
  Chip.now_set_ne c v (by simp only [Fld.key, R.GLB_TIME_TIME, R.ISF_STR_CYCLE_CYCLE]; omega)

@[simp] theorem Chip.att_set_isfCycle (v : Nat) : (c.set (R.ISF_STR_CYCLE_CYCLE k) v).att = c.att :=
  congrArg (8 + ·) (Chip.get_set_ne c v (by simp only [Fld.key, R.GLB_HEAD_POS, R.ISF_STR_CYCLE_CYCLE]; omega))

@[simp] theorem Chip.keygen_set_isfCycle (v : Nat) :
    (c.set (R.ISF_STR_CYCLE_CYCLE k) v).get (R.ISF_STR_STATUS_KEYGEN k) = c.get (R.ISF_STR_STATUS_KEYGEN k) :=
  Chip.get_set_ne c v (by simp only [Fld.key, R.ISF_STR_STATUS_KEYGEN, R.ISF_STR_CYCLE_CYCLE]; omega)

theorem Chip.turned_strg : (c.turned k).strg k = (c.strg k).turned ((c.bump (R.ISF_STR_CYCLE_CYCLE k) 1).wakeDue k) c.now := by
  simp [Chip.turned, Chip.bump]

theorem Chip.turned_strg_ne {j : Nat} (h : j ≠ k) : (c.turned k).strg j = c.strg j := by
  simp [Chip.turned, Chip.bump, Chip.strg_modStrg_ne _ h]

theorem Chip.turned_att : (c.turned k).att = c.att := Chip.att_set_isfCycle c k _

theorem Chip.turned_keygen : (c.turned k).get (R.ISF_STR_STATUS_KEYGEN k) = c.get (R.ISF_STR_STATUS_KEYGEN k) :=
  Chip.keygen_set_isfCycle c k _

theorem Chip.turned_cycle : (c.turned k).get (R.ISF_STR_CYCLE_CYCLE k) =
    trunc (R.ISF_STR_CYCLE_CYCLE k).width (c.get (R.ISF_STR_CYCLE_CYCLE k) + 1) := Chip.get_set_same c _ _

theorem Chip.beaconSent_strg : (c.beaconSent k collides).strg k = { (c.strg k).sent collides with nextGrants := c.nextGrants k } := by
  have hemit (d : Chip) (m : OutMsg) : (d.emit m).strg k = d.strg k := rfl
  simp only [Chip.beaconSent, Chip.beaconOut, Chip.mapMade, Chip.strg_set, Chip.strg_modStrg_same, hemit]
  rfl

theorem Chip.beaconSent_strg_ne {j : Nat} (h : j ≠ k) : (c.beaconSent k collides).strg j = c.strg j := by
  have hemit (d : Chip) (m : OutMsg) : (d.emit m).strg j = d.strg j := rfl
  simp only [Chip.beaconSent, Chip.beaconOut, Chip.mapMade, Chip.strg_set, Chip.strg_modStrg_ne _ h, hemit]

theorem Chip.beaconSent_state : (c.beaconSent k collides).get (R.ISF_STR_STATUS_STATE k) = 3 := by
  rw [Chip.beaconSent, Chip.get_set_ne _ _ (by simp [Fld.key, R.ISF_STR_STATUS_STATE, R.ISF_STR_STATUS_PF]), Chip.get_set_same]
  rfl

theorem Chip.beaconOut_regs (next : List Nat) : ((c.mapMade k).beaconOut k next collides).regs = c.regs := by
  simp only [Chip.beaconOut, Chip.mapMade, Chip.modStrg_regs, Chip.emit_regs]

/-- The cycle stays the one that the beacon names. -/
theorem Chip.beaconSent_cycle : (c.beaconSent k collides).get (R.ISF_STR_CYCLE_CYCLE k) = c.get (R.ISF_STR_CYCLE_CYCLE k) := by
  rw [Chip.beaconSent, Chip.get_set_ne, Chip.get_set_ne]
  · exact Chip.get_of_regs (c.beaconOut_regs k collides _) _
  · simp only [Fld.key, R.ISF_STR_STATUS_STATE, R.ISF_STR_CYCLE_CYCLE]; omega
  · simp only [Fld.key, R.ISF_STR_STATUS_PF, R.ISF_STR_CYCLE_CYCLE]; omega

/-- The beacon names the map of the next cycle by itself. -/
theorem Chip.mapMade_ownBeacon (next : List Nat) : (c.mapMade k).ownBeacon k next = c.ownBeacon k next := by
  have hatt (f : Strg → Strg) : (c.modStrg k f).att = c.att := rfl
  simp only [Chip.ownBeacon, Chip.mapMade, Chip.strg_modStrg_same, Chip.modStrg_get, hatt]

theorem Chip.beaconSent_out :
    let b := c.ownBeacon k (c.nextGrants k)
    (c.beaconSent k collides).out = .beacon k b (b.wire (c.strg k).key) :: c.out := by
  have hkey : ((c.mapMade k).strg k).key = (c.strg k).key := by simp only [Chip.mapMade, Chip.strg_modStrg_same]
  simp only [Chip.beaconSent, Chip.set_out, ← hkey, ← c.mapMade_ownBeacon k (c.nextGrants k)]
  rfl

theorem Chip.turned_regsSame {l : List Fld} (h : R.ISF_STR_CYCLE_CYCLE k ∈ l) : RegsSame c (c.turned k) l :=
  (RegsSame.set c _ _ h).then_regs rfl

theorem Chip.beaconSent_regsSame {l : List Fld} (hs : R.ISF_STR_STATUS_STATE k ∈ l) (hp : R.ISF_STR_STATUS_PF k ∈ l) :
    RegsSame c (c.beaconSent k collides) l := by
  have hout := RegsSame.of_regs (c.beaconOut_regs k collides (c.nextGrants k)) l
  unfold Chip.beaconSent
  exact (hout.then_set 3 hs).then_set _ hp

/-- A cycle turned and its beacon sent change registers, strings and the wire alone. -/
theorem Chip.beaconTurned_frame :
    let d := (c.turned k).beaconSent k collides
    d = { c with regs := d.regs, isf := d.isf, out := d.out } := by
  apply Chip.eq_of_fields <;> simp [Chip.beaconSent, Chip.beaconOut, Chip.mapMade, Chip.turned, Chip.modStrg]

end

/-! #### Slots (R353 to R355, R358, R368, R386) -/

theorem dataSlotTransmit_outside {k att slot : Nat} {c : Chip} (h : slot < 3 ∨ 64 ≤ slot) : dataSlotTransmit k att slot c = c := by
  rcases h with h | h <;> simp [dataSlotTransmit, h]

theorem dataSlotTransmit_bridge {k att slot : Nat} {c : Chip} (h3 : 3 ≤ slot) (h64 : slot < 64) (ha : att < 8)
    (hg : (let b := c.bridge k att
      b.present && !b.parked && !b.holdover && b.gotBeacon && b.grants.getD (slot - 3) 15 == att) = true) :
    let b := c.bridge k att
    dataSlotTransmit k att slot c =
      (c.emit (.sos k att slot (min 4095 (b.end8.demand + b.end9.demand)))).bridgeFrames k att := by
  exact (if_neg (by simp [h3, h64])).trans ((if_pos ha).trans (if_pos hg))

theorem dataSlotTransmit_head {k slot : Nat} {c : Chip} (h3 : 3 ≤ slot) (h64 : slot < 64) (ha : c.awake = true)
    (ht : c.trainedOn k = true) (hg : (c.strg k).grants.getD (slot - 3) 15 = c.att) :
    dataSlotTransmit k c.att slot c = (c.emit (.sos k c.att slot (c.ownDemand k))).headFrames k := by
  have hatt : ¬ c.att < 8 := by simp [Chip.att]
  have hown : (c.att == c.att && c.awake && c.trainedOn k && (c.strg k).grants.getD (slot - 3) 15 == c.att) = true := by
    simp only [beq_self_eq_true, ha, ht, hg, Bool.and_self]
  exact (if_neg (by simp [h3, h64])).trans ((if_neg hatt).trans (if_pos hown))

section
variable {k slot : Nat} {fr : List RxFrame} {n u : Nat} {c : Chip}

theorem slotReceive_untrained (ht : c.trainedOn k = false) (sos : Option (Nat × Nat × Nat)) (l : List Nat) :
    slotReceive k c.att slot sos fr n u l c = c := by
  simp [slotReceive, ht]

/-- A good slot whose sender is not quarantined is a sign of life, and its frames are heard. -/
theorem slotReceive_hears {src dem : Nat} (ha : c.awake = true) (ht : c.trainedOn k = true) (hf : c.slotFrom k c.att slot src = true)
    (hq : ((c.countCodewords k src n u).strg k).quarantine.contains src = false) :
    slotReceive k c.att slot (some (slot, src, dem)) fr n u [] c =
      fr.foldl (fun d r => d.headHears k src r) ((c.countCodewords k src n u).signOfLife k src dem) := by
  simp only [slotReceive, ha, ht, hf, hq, Option.map_some, Option.getD_some, beq_self_eq_true, List.isEmpty_nil, Bool.and_self,
    Bool.not_true, Bool.or_self, if_true, Bool.false_eq_true, if_false]

end

/-! #### Contention and dark strings (R366, R384) -/

section
variable {k pos : Nat} {c : Chip}

/-- A bridge that is absent or backs off does not contend. -/
theorem contentionAttempt_waits (h : (c.bridge k pos).present = false ∨ ∃ t, (c.bridge k pos).backoff = some t ∧ c.now < t)
    (slot2 : Bool) (r : Option Nat) : contentionAttempt k pos slot2 r c = c := by
  rcases h with h | ⟨t, h, ht⟩
  · simp [contentionAttempt, h]
  · simp [contentionAttempt, h, ht]

/-- What a bridge that contends in `slot` is. -/
def Bridge.contends (b : Bridge) (slot reason : Nat) : Bridge := { b with contending := some (slot, reason), slotUsed := slot }

theorem contentionAttempt_contends (hp : (c.bridge k pos).present = true) (hq : (c.bridge k pos).quarantined = false)
    (hc : (c.bridge k pos).contending = none) (hb : ∀ t, (c.bridge k pos).backoff = some t → t ≤ c.now) (slot2 : Bool) (r : Option Nat)
    (hr : (c.bridge k pos).parked = false ∨ r.isSome = true) :
    let slot := if slot2 then 2 else 1
    contentionAttempt k pos slot2 r c =
      (c.modBridge k pos (·.contends slot (r.getD 0))).emit (match r with
        | some r => .strWake k slot pos r
        | none => .strEnrol k slot pos) := by
  intro slot
  have hback : (c.bridge k pos).backoff.any (fun t => decide (c.now < t)) = false := by
    cases h : (c.bridge k pos).backoff with
    | none => rfl
    | some t => simpa using hb t h
  have hpark : ((c.bridge k pos).parked && r.isNone) = false := by
    rcases hr with h | h <;> simp [h, Option.isNone_eq_false_iff.2]
  have hgo : ¬ (!(c.bridge k pos).present || (c.bridge k pos).quarantined || (c.bridge k pos).contending.isSome ||
      (c.bridge k pos).backoff.any (fun t => decide (c.now < t)) || ((c.bridge k pos).parked && r.isNone)) = true := by
    simp only [hp, hq, hc, hback, hpark]; decide
  refine (if_neg hgo).trans ?_
  cases r <;> rfl

theorem stringDark_lit (h : c.now < (c.strg k).lastBeaconAt + 1000000000) : stringDark k c = c := if_pos h

theorem stringDark_dark (h : (c.strg k).lastBeaconAt + 1000000000 ≤ c.now) :
    stringDark k c = (c.modStrg k (fun x => { x with grants := [], nextGrants := [] })).set (R.ISF_STR_STATUS_STATE k) 0 :=
  if_neg (not_lt.2 h)

end

end Sys2Proof.Machine

namespace Sys2Proof
open Sys2Proof.Machine

/-- Settles O33: training by whose attachment it is, a beacon by what is sent, a slot by who is granted it, and each timer by its time. -/
theorem stringSlotsAct : Obligations.StringSlotsAct := by
  intro s k hk c g
  have runs {i : Instr} {f : Chip → Chip} {d : Chip} (hx : exec i s = s.run (decide (k < 16)) f) (hd : f c = d) : Yields i s d :=
    Yields.run hx (decide_eq_true hk) hd
  refine ⟨fun ports => ⟨fun h => ?_, fun a mis h => ⟨fun hm => ?_, fun hm => ?_⟩⟩, fun att lanes echoes ha => ⟨fun ok => ?_, fun ok => ?_⟩,
    fun hu lanes echoes => ?_, fun lanes echoes hu hl he => ?_, fun ha h collides => ?_, fun ha hb ht collides => ?_,
    fun att b ok ha => ?_, fun b ok ha => ?_, fun att b ok h8 ha => ?_, fun att slot h => ?_, fun att slot h3 h64 ha hg => ?_,
    fun slot h3 h64 _ ha ht hg => ?_, fun slot sos fr n u l ht => ?_, fun slot src dem fr n u ha ht hf hq => ?_,
    fun pos hp => ?_, fun h => ?_, fun h => ?_⟩
  · exact runs rfl (hubCodeword_forwards h)
  · exact runs rfl ((hubCodeword_collides h).trans (if_neg (ne_true_of_eq_false hm)))
  · exact runs rfl ((hubCodeword_collides h).trans (if_pos hm))
  · exact runs rfl ((attachmentTraining_other ha).trans (by simp [ok.1, ok.2]))
  · have hok : (lanes % 16 == 15 && decide (64 ≤ echoes.length)) = false := by simpa using ok
    exact runs rfl ((attachmentTraining_other ha).trans (by rw [hok]; rfl))
  · exact runs rfl (attachmentTraining_unused hu)
  · exact runs rfl (attachmentTraining_own hu hl he)
  · exact Yields.awake ha rfl (decide_eq_true hk) (beaconTransmit_silent h collides)
  · refine ⟨(c.turned k).beaconSent k collides, Yields.awake ha rfl (decide_eq_true hk) (beaconTransmit_sends ha hb ht collides), ?_⟩
    have hstrg := (c.turned k).beaconSent_strg k collides
    rw [c.turned_strg] at hstrg
    have hout := (c.turned k).beaconSent_out k collides
    rw [c.turned_strg] at hout
    have htxc : ((c.turned k).strg k).beaconTxc = g.beaconTxc + 1 := by rw [c.turned_strg]; rfl
    rw [hstrg]
    refine ⟨(c.turned k).beaconSent_state k collides, rfl, rfl, rfl, rfl, rfl,
      ⟨(c.turned k).ownBeacon k ((c.turned k).nextGrants k), ?_, ?_, ?_, rfl, htxc, ?_⟩, fun j hj => ?_, ?_, ?_, ?_⟩
    · exact hout
    · exact c.turned_att k
    · exact ((c.turned k).beaconSent_cycle k collides).symm
    · exact c.turned_keygen k
    · rw [Chip.beaconSent_strg_ne _ _ _ hj, Chip.turned_strg_ne _ _ hj]
    · rw [Chip.beaconSent_cycle, Chip.turned_cycle]
    · exact (c.turned_regsSame k (by simp)).trans ((c.turned k).beaconSent_regsSame k collides (by simp) (by simp))
    · exact Chip.beaconTurned_frame c k collides
  · exact runs rfl (if_pos ha)
  · exact runs rfl ((if_neg (not_lt.2 ha)).trans (if_pos rfl))
  · exact runs rfl ((if_neg (not_lt.2 h8)).trans (if_neg ha))
  · exact runs rfl (dataSlotTransmit_outside h)
  · exact runs rfl (dataSlotTransmit_bridge h3 h64 ha hg)
  · exact runs rfl (dataSlotTransmit_head h3 h64 ha ht hg)
  · exact runs rfl (slotReceive_untrained ht sos l)
  · exact runs rfl (slotReceive_hears ha ht hf hq)
  · have known : (decide (k < 16) && decide (pos < 8)) = true := by rw [decide_eq_true hk, decide_eq_true hp]; rfl
    refine ⟨Yields.run rfl known rfl, Yields.run rfl known rfl, Yields.run rfl known rfl,
      fun slot2 hpr hq hc hb => ⟨fun hpk => ?_, fun r => ?_⟩, fun slot2 r h => ?_⟩
    · exact Yields.run rfl known (contentionAttempt_contends hpr hq hc hb slot2 none (.inl hpk))
    · exact Yields.run rfl known (contentionAttempt_contends hpr hq hc hb slot2 (some r) (.inr rfl))
    · exact Yields.run rfl known (contentionAttempt_waits h slot2 r)
  · exact runs rfl (stringDark_lit h)
  · exact runs rfl (stringDark_dark h)

end Sys2Proof

/-! ### Bridges: enrolment, sessions, keys, parking and waking (R357, R358, R369 to R384, R509, R510) -/

namespace Sys2Proof.Machine

/-! #### Frames with SESSION 0 (R357, R358) -/

section
variable {k pos type : Nat} {bs : List Byte} {hdr : CrcHdr} {c : Chip} {f : Chip → Chip}

theorem Chip.takeCrc_elsewhere (h : hdr.dst ≠ c.att) (h15 : hdr.dst ≠ 15) : c.takeCrc k pos type bs hdr f = c := by
  simp [Chip.takeCrc, h, h15]

variable (h : hdr.dst = c.att ∨ hdr.dst = 15)
include h

theorem Chip.takeCrc_bad (hv : hdr.verifies pos type bs = false) : c.takeCrc k pos type bs hdr f = c.dropFrame k pos := by
  rcases h with h | h <;> simp [Chip.takeCrc, h, hv]

theorem Chip.takeCrc_good (hv : hdr.verifies pos type bs = true) : c.takeCrc k pos type bs hdr f = f c := by
  rcases h with h | h <;> simp [Chip.takeCrc, h, hv]

end

/-- A frame whose CRC verifies is taken, or is for another head. -/
theorem Chip.takeCrc_keeps {k pos type : Nat} {bs : List Byte} {hdr : CrcHdr} {c : Chip} {f : Chip → Chip}
    (hv : hdr.verifies pos type bs = true) (hf : f c = c) : c.takeCrc k pos type bs hdr f = c := by
  by_cases h : hdr.dst = c.att ∨ hdr.dst = 15
  · exact (Chip.takeCrc_good h hv).trans hf
  · exact Chip.takeCrc_elsewhere (fun e => h (.inl e)) (fun e => h (.inr e))

/-! #### Enrolment (R375 to R378) -/

section
variable {k pos : Nat} {c : Chip}

theorem enrol_ignored {s2 bl : Bool} {ven m fw tag : Nat} {hdr : CrcHdr} (hd : hdr.dst = c.att ∨ hdr.dst = 15)
    (hv : hdr.verifies pos 7 (enrolBytes pos bl ven m fw tag) = true)
    (h : (c.strg k).beaconing = false ∨ (c.strg k).quarantine.contains pos = true ∨ (c.view k pos).state = 3) :
    enrol k s2 pos bl ven m fw tag hdr c = c := by
  refine (Chip.takeCrc_good hd hv).trans (if_pos ?_)
  rcases h with h | h | h
  · simp only [h, Bool.not_false, Bool.true_or]
  · simp only [h, Bool.or_true, Bool.true_or]
  · simp only [h, decide_true, Bool.or_true]

theorem enrol_queued {s2 bl : Bool} {ven m fw tag : Nat} {hdr : CrcHdr} (hd : hdr.dst = c.att ∨ hdr.dst = 15)
    (hv : hdr.verifies pos 7 (enrolBytes pos bl ven m fw tag) = true) (hb : (c.strg k).beaconing = true)
    (hq : (c.strg k).quarantine.contains pos = false) (hs : (c.view k pos).state ≠ 3) :
    enrol k s2 pos bl ven m fw tag hdr c = (c.cack k pos s2).wantEnrol k pos := by
  refine (Chip.takeCrc_good hd hv).trans (if_neg ?_)
  simp only [hb, hq, hs, decide_false, Bool.not_true, Bool.or_self, Bool.false_eq_true, not_false_eq_true]

theorem enrolmentTimeout_none (h : (c.strg k).enrolling = none) : enrolmentTimeout k c = c := by
  simp only [enrolmentTimeout, h]

theorem Chip.takeSpdm_none (h : (c.strg k).enrolling = none) (m : SpdmMsg) : c.takeSpdm k pos m = c := by
  simp only [Chip.takeSpdm, h]

variable {e : Enrolling} (h : (c.strg k).enrolling = some e)
include h

theorem enrolmentTimeout_due (ht : e.since + 300000000 ≤ c.now ∨ e.askedAt + 100000000 ≤ c.now) :
    enrolmentTimeout k c = c.enrolFailed k e.pos 32 := by
  simp only [enrolmentTimeout, h]
  exact if_pos (by simpa using ht)

theorem enrolmentTimeout_early (hs : c.now < e.since + 300000000) (ha : c.now < e.askedAt + 100000000) : enrolmentTimeout k c = c := by
  simp only [enrolmentTimeout, h]
  exact if_neg (by simp [hs, ha])

theorem Chip.takeSpdm_other (hp : e.pos ≠ pos) (m : SpdmMsg) : c.takeSpdm k pos m = c := by
  simp only [Chip.takeSpdm, h]
  exact if_pos hp

variable (hp : e.pos = pos)
include hp

theorem Chip.takeSpdm_version (hs : e.step = 0) : c.takeSpdm k pos .version = c.enrolStep k pos 1 id := by
  simp [Chip.takeSpdm, h, hp, hs]

theorem Chip.takeSpdm_capabilities (hs : e.step = 1) : c.takeSpdm k pos .capabilities = c.enrolStep k pos 2 id := by
  simp [Chip.takeSpdm, h, hp, hs]

theorem Chip.takeSpdm_algorithms (hs : e.step = 2) : c.takeSpdm k pos (.algorithms true) = c.enrolStep k pos 3 id := by
  simp [Chip.takeSpdm, h, hp, hs]

theorem Chip.takeSpdm_digests_new (hs : e.step = 3) {d : Nat} (hd : (c.view k pos).cachedDigest = 0 ∨ (c.view k pos).cachedDigest ≠ d) :
    c.takeSpdm k pos (.digests d) = c.enrolStep k pos 4 id := by
  rcases hd with hd | hd <;> simp [Chip.takeSpdm, h, hp, hs, hd]

/-- The certificate behind a digest known is not asked for. -/
theorem Chip.takeSpdm_digests_known (hs : e.step = 3) (hd : (c.view k pos).cachedDigest ≠ 0) :
    c.takeSpdm k pos (.digests (c.view k pos).cachedDigest) =
      c.enrolStep k pos 5 (fun e => { e with rootOk := true, fp := (c.view k pos).fp }) := by
  simp [Chip.takeSpdm, h, hp, hs, hd]

theorem Chip.takeSpdm_certificate (hs : e.step = 4) (fp d : Nat) : c.takeSpdm k pos (.certificate true fp d) =
    (c.modView k pos (fun v => { v with cachedDigest := d, fp := fp })).enrolStep k pos 5 (fun e => { e with rootOk := true, fp := fp }) := by
  simp [Chip.takeSpdm, h, hp, hs]

theorem Chip.takeSpdm_keyExchange (hs : e.step = 5) : c.takeSpdm k pos (.keyExchangeRsp true) = c.enrolStep k pos 6 id := by
  simp [Chip.takeSpdm, h, hp, hs]

theorem Chip.takeSpdm_encapsulated (hs : e.step = 6) : c.takeSpdm k pos .encapsulatedRequest = c.enrolStep k pos 7 id := by
  simp [Chip.takeSpdm, h, hp, hs]

theorem Chip.takeSpdm_admits (hs : e.step = 7) {hv : Bool} (hc : c.admitCheck k e hv = none) (rq rp : Nat) :
    c.takeSpdm k pos (.finishRsp hv rq rp) = c.enrolAdmit k pos e.fp rq rp := by
  simp [Chip.takeSpdm, h, hp, hs, hc]

theorem Chip.takeSpdm_notAdmitted (hs : e.step = 7) {hv : Bool} {n : Nat} (hc : c.admitCheck k e hv = some n) (rq rp : Nat) :
    c.takeSpdm k pos (.finishRsp hv rq rp) = c.enrolFailed k pos n := by
  simp [Chip.takeSpdm, h, hp, hs, hc]

/-- VERSION out of its turn ends the enrolment. -/
theorem Chip.takeSpdm_version_late (hs : e.step ≠ 0) : c.takeSpdm k pos .version = c.enrolFailed k pos (16 + e.step) := by
  simp [Chip.takeSpdm, h, hp, hs]

end

section
variable {k pos : Nat} {c : Chip}

theorem quarantineExpiry_waits (h : (c.strg k).quarantine.contains pos = false ∨
    c.now < (c.view k pos).quarantineAt + c.get R.ISF_TIMERS_QUARANTINE_S * 1000000000) : quarantineExpiry k pos c = c := by
  refine if_pos ?_
  rcases h with h | h
  · simp only [h, Bool.not_false, Bool.true_or]
  · simp only [decide_eq_true h, Bool.or_true]

theorem quarantineExpiry_ends (hq : (c.strg k).quarantine.contains pos = true)
    (ht : (c.view k pos).quarantineAt + c.get R.ISF_TIMERS_QUARANTINE_S * 1000000000 ≤ c.now) :
    quarantineExpiry k pos c = (c.modStrg k (fun x => { x with quarantine := x.quarantine.filter (· != pos) })).modView k pos
      (fun v => { v with state := if v.state = 5 then 0 else v.state }) := by
  refine if_neg ?_
  simp only [hq, decide_eq_false (not_lt.2 ht), Bool.not_true, Bool.or_self, Bool.false_eq_true, not_false_eq_true]

end

/-! #### Acknowledgements and repeats (R369) -/

section
variable {k pos : Nat} {c : Chip} {val : Nat}

theorem isfAck_toBridge (h : Nat) : isfAck k pos true h val c = c.modBridge k pos (fun b => b.modEnd h (fun l =>
    if l.ackInRange val then (l.acked val c.now).getD l else l)) := rfl

theorem isfAck_elsewhere {h : Nat} (hh : h ≠ c.att) : isfAck k pos false h val c = c := by
  simp [isfAck, hh]

theorem isfAck_noSession (hs : (c.view k pos).lend.session = 0) : isfAck k pos false c.att val c = c := by
  simp [isfAck, hs]

theorem isfAck_bad (hs : (c.view k pos).lend.session ≠ 0) (hr : (c.view k pos).lend.ackInRange val = false) :
    isfAck k pos false c.att val c = c.bump (R.ISF_STR_CNT_ACKBAD_ACKBAD k) 1 := by
  simp [isfAck, hs, hr]

theorem isfAck_covers (hs : (c.view k pos).lend.session ≠ 0) (hr : (c.view k pos).lend.ackInRange val = true) :
    isfAck k pos false c.att val c =
      (c.modView k pos (fun v => { v with
        lend := ((c.view k pos).lend.acked val c.now).getD (c.view k pos).lend, silentCycles := 0 })).keysAcked k pos := by
  simp [isfAck, hs, hr]

end

section
variable {k pos : Nat} {c : Chip}

theorem isfRetxTimeout_early (h : (c.view k pos).lend.retxDue (c.get R.ISF_TIMERS_RETX_CYC) c.now = false) :
    isfRetxTimeout k pos true c.att c = c := by
  simp [isfRetxTimeout, h]

theorem isfRetxTimeout_breaks (h : (c.view k pos).lend.retxDue (c.get R.ISF_TIMERS_RETX_CYC) c.now = true)
    (hw : (c.view k pos).lend.worn = true) : isfRetxTimeout k pos true c.att c = c.sessionBroken k pos := by
  simp [isfRetxTimeout, h, hw]

theorem isfRetxTimeout_resends (h : (c.view k pos).lend.retxDue (c.get R.ISF_TIMERS_RETX_CYC) c.now = true)
    (hw : (c.view k pos).lend.worn = false) :
    let r := (c.view k pos).lend.resend c.now
    isfRetxTimeout k pos true c.att c =
      ((c.modView k pos (fun x => { x with lend := r.1 })).emitFrames k (c.view k pos).lend.txKey r.2).bump
        (R.ISF_STR_CNT_RETX_RETX k) r.2.length := by
  simp [isfRetxTimeout, h, hw]

theorem isfRetxTimeout_bridge {h : Nat} (hd : ((c.bridge k pos).endOf h).retxDue (c.get R.ISF_TIMERS_RETX_CYC) c.now = true)
    (hw : ((c.bridge k pos).endOf h).worn = false) :
    let r := ((c.bridge k pos).endOf h).resend c.now
    isfRetxTimeout k pos false h c =
      (c.modBridge k pos (fun x => x.modEnd h (fun _ => r.1))).emitFrames k ((c.bridge k pos).endOf h).txKey r.2 := by
  simp [isfRetxTimeout, hd, hw]

end

/-! #### CTRL at a bridge (R371, R373, R380, R381) -/

section
variable {k pos h : Nat} {c : Chip}

section
variable (hp : (c.bridge k pos).present = true) (hk : (c.bridge k pos).parked = false)
include hp hk

theorem sessionStart_begins {ses : Nat} (hs : ses ≠ 0) (opid : Nat) (keep : Bool) (rq rp : Nat) :
    sessionStart k pos h ses opid keep rq rp c = c.modBridge k pos (fun b => b.startSession h ses opid keep rq rp) := by
  simp [sessionStart, hp, hk, hs]

theorem keys_taken (gen key : Nat) :
    keys k pos gen key c = c.modBridge k pos (fun b => b.takeKey gen key (c.get (R.ISF_STR_CYCLE_CYCLE k))) := by
  simp [keys, hp, hk]

variable (hs : ((c.bridge k pos).endOf h).session ≠ 0)
include hs

theorem park_parks : park k pos h c = (c.modBridge k pos (fun b => { b with parkBy := h })).parkNow k pos := by
  simp [park, hp, hk, hs]

theorem echo_answers (data : List Byte) :
    echo k pos h data c = c.modBridge k pos (fun b => b.modEnd h (fun e => { e with queue := e.queue ++ [(0, .echoReply data)] })) := by
  simp [echo, hp, hk, hs]

end

variable (hp : (c.bridge k pos).present = false)
include hp

theorem sessionStart_absent (ses opid : Nat) (keep : Bool) (rq rp : Nat) : sessionStart k pos h ses opid keep rq rp c = c := by
  simp [sessionStart, hp]

theorem keys_absent (gen key : Nat) : keys k pos gen key c = c := by
  simp [keys, hp]

theorem park_absent : park k pos h c = c := by
  simp [park, hp]

theorem echo_absent (data : List Byte) : echo k pos h data c = c := by
  simp [echo, hp]

end

/-! #### Waking (R382 to R384, R510) -/

section
variable {k pos : Nat} {c : Chip}

theorem bridgeNandPowered_wakes (hk : (c.bridge k pos).parked = true) (hw : 4 ≤ (c.bridge k pos).wakeSeen) :
    let n := 1 + c.freeNow % 2
    bridgeNandPowered k pos c = (c.useFree.modBridge k pos (fun b => { b with
      parked := false, nandOff := false, wakeSeen := 0, contending := some (n, 1), slotUsed := n })).emit (.strWake k n pos 1) :=
  if_pos (by rw [hk, decide_eq_true hw]; rfl)

theorem bridgeNandPowered_waits (h : (c.bridge k pos).parked = false ∨ (c.bridge k pos).wakeSeen < 4) :
    bridgeNandPowered k pos c = c := by
  refine if_neg ?_
  rcases h with h | h
  · simp only [h, Bool.false_and, Bool.false_eq_true, not_false_eq_true]
  · simp only [decide_eq_false (not_le.2 h), Bool.and_false, Bool.false_eq_true, not_false_eq_true]

section
variable {s2 : Bool} {r d : Nat} {hdr : CrcHdr} (hd : hdr.dst = c.att ∨ hdr.dst = 15) (hv : hdr.verifies pos 6 (wakeBytes pos r d) = true)
include hd hv

/-- Only the owner takes a WAKE. -/
theorem bridgeWake_notOwner (hb : (c.strg k).beaconing = false) : bridgeWake k s2 pos r d hdr c = c := by
  refine (Chip.takeCrc_good hd hv).trans (if_pos ?_)
  simp [hb]

variable (hb : (c.strg k).beaconing = true)
include hb

theorem bridgeWake_enrols (hr : r = 2 ∨ r = 4) :
    bridgeWake k s2 pos r d hdr c = ((c.cack k pos s2).strEvent 0x245 k pos d r).wantEnrol k pos := by
  refine (Chip.takeCrc_good hd hv).trans ((if_neg (by simp [hb])).trans ?_)
  rcases hr with rfl | rfl <;> rfl

theorem bridgeWake_recorded (hr : r ∉ [1, 2, 4]) : bridgeWake k s2 pos r d hdr c = (c.cack k pos s2).strEvent 0x245 k pos d r := by
  have h1 : r ≠ 1 := fun e => hr (by simp [e])
  have h2 : r ≠ 2 := fun e => hr (by simp [e])
  have h4 : r ≠ 4 := fun e => hr (by simp [e])
  refine (Chip.takeCrc_good hd hv).trans ((if_neg (by simp [hb])).trans ?_)
  simp [h1, h2, h4]

/-- A bridge that is ready ends the wait for its shelf. -/
theorem bridgeWake_ready (hr : r = 1) {sh : Nat} (hs : ((c.cack k pos s2).strEvent 0x245 k pos d 1).shelfAt k pos = some sh) :
    bridgeWake k s2 pos r d hdr c = (((c.cack k pos s2).strEvent 0x245 k pos d 1).modShelf sh
      (fun x => if x.wakeAt.isSome && x.state = 1 then { x with state := 2 } else x)).wantEnrol k pos := by
  subst hr
  refine (Chip.takeCrc_good hd hv).trans ((if_neg (by simp [hb])).trans ?_)
  simp only [if_true, hs, decide_true, Bool.true_or]

end

theorem bridgeWakeTone_sends (hp : (c.bridge k pos).present = true) (hs : c.get (R.ISF_STR_STATUS_STATE k) = 0)
    (ht : (c.bridge k pos).toneAt.any (fun t => decide (c.now < t + 10000000000)) = false) :
    bridgeWakeTone k pos c = (c.modBridge k pos (fun b => { b with toneAt := some c.now })).emit (.strTone k) := by
  refine if_neg ?_
  simp only [hp, hs, ht]
  decide

theorem bridgeWakeTone_silent (h : (c.bridge k pos).present = false ∨ c.get (R.ISF_STR_STATUS_STATE k) ≠ 0) :
    bridgeWakeTone k pos c = c := by
  refine if_pos ?_
  rcases h with h | h <;> simp [h]

end

end Sys2Proof.Machine

namespace Sys2Proof
open Sys2Proof.Machine

/-- Settles O34: a message by its CRC and the enrolment's step, an acknowledgement by its range, a repeat by its time, CTRL by the bridge that
takes it, a WAKE by its reason. -/
theorem bridgeSessionsAct : Obligations.BridgeSessionsAct := by
  intro s k pos hk hp c g b v
  have known : (decide (k < 16) && decide (pos < 8)) = true := by rw [decide_eq_true hk, decide_eq_true hp]; rfl
  have runs {i : Instr} {f : Chip → Chip} {d : Chip} (hx : exec i s = s.run (decide (k < 16) && decide (pos < 8)) f) (hd : f c = d) :
      Yields i s d := Yields.run hx known hd
  refine ⟨fun ha => ?_, fun h val => runs rfl (isfAck_toBridge h), fun h val hh => runs rfl (isfAck_elsewhere hh),
    fun val hs => runs rfl (isfAck_noSession hs), fun val hs hr => runs rfl (isfAck_bad hs hr),
    fun val hs hr => runs rfl (isfAck_covers hs hr),
    ⟨fun h => runs rfl (isfRetxTimeout_early h), fun h hw => runs rfl (isfRetxTimeout_breaks h hw),
      fun h hw => runs rfl (isfRetxTimeout_resends h hw), fun h hd hw => runs rfl (isfRetxTimeout_bridge hd hw)⟩,
    fun h ses opid keep rq rp hb hpk hs => runs rfl (sessionStart_begins hb hpk hs opid keep rq rp),
    fun gen key hb hpk => runs rfl (keys_taken hb hpk gen key),
    fun h hb hpk hs => ⟨runs rfl (park_parks hb hpk hs), fun data => runs rfl (echo_answers hb hpk hs data)⟩,
    fun hb h ses opid keep rq rp gen key data => ⟨runs rfl (sessionStart_absent hb ses opid keep rq rp), runs rfl (keys_absent hb gen key),
      runs rfl (park_absent hb), runs rfl (echo_absent hb data)⟩,
    fun data => runs rfl rfl, fun hpk hw => runs rfl (bridgeNandPowered_wakes hpk hw), fun h => runs rfl (bridgeNandPowered_waits h),
    fun s2 r d hdr hd => ⟨fun hv => runs rfl (Chip.takeCrc_bad hd hv), fun hv => ⟨fun hb => runs rfl (bridgeWake_notOwner hd hv hb),
      fun hb => ⟨fun hr => runs rfl (bridgeWake_enrols hd hv hb hr), fun hr => runs rfl (bridgeWake_recorded hd hv hb hr),
        fun sh hr hs => runs rfl (bridgeWake_ready hd hv hb hr hs)⟩⟩⟩,
    fun hb hs ht => runs rfl (bridgeWakeTone_sends hb hs ht), fun h => runs rfl (bridgeWakeTone_silent h)⟩
  have wakes {i : Instr} {f : Chip → Chip} {d : Chip} (hx : exec i s = s.runAwake (decide (k < 16) && decide (pos < 8)) f) (hd : f c = d) :
      Yields i s d := Yields.awake ha hx known hd
  have times {d : Chip} (hd : enrolmentTimeout k c = d) : Yields (.enrolmentTimeout k) s d := Yields.awake ha rfl (decide_eq_true hk) hd
  refine ⟨fun s2 bl ven m fw tag hdr => ⟨fun h h15 => wakes rfl (Chip.takeCrc_elsewhere h h15), fun hd =>
      ⟨fun hv => wakes rfl (Chip.takeCrc_bad hd hv), fun hv => ⟨fun h => wakes rfl (enrol_ignored hd hv h),
        fun hb hq hs => wakes rfl (enrol_queued hd hv hb hq hs)⟩⟩⟩,
    fun h => times (enrolmentTimeout_none h), fun hdr bs m hd hv => wakes rfl (Chip.takeCrc_bad hd hv),
    fun h hdr bs m hv => wakes rfl (Chip.takeCrc_keeps hv (Chip.takeSpdm_none h m)),
    fun e h => ⟨fun ht => times (enrolmentTimeout_due h ht), fun hs ht => times (enrolmentTimeout_early h hs ht), fun hdr bs hd hv => ?_⟩,
    ⟨fun h => wakes rfl (quarantineExpiry_waits h), fun hq ht => wakes rfl (quarantineExpiry_ends hq ht)⟩, wakes rfl rfl⟩
  have takes {m : SpdmMsg} {d : Chip} (hm : c.takeSpdm k pos m = d) : Yields (.stringSpdm k pos hdr bs m) s d :=
    wakes rfl ((Chip.takeCrc_good hd hv).trans hm)
  exact ⟨fun hp m => takes (Chip.takeSpdm_other h hp m), fun hp => ⟨fun hs => takes (Chip.takeSpdm_version h hp hs),
    fun hs => takes (Chip.takeSpdm_capabilities h hp hs), fun hs => takes (Chip.takeSpdm_algorithms h hp hs),
    fun hs d hd => takes (Chip.takeSpdm_digests_new h hp hs hd), fun hs hd => takes (Chip.takeSpdm_digests_known h hp hs hd),
    fun hs fp d => takes (Chip.takeSpdm_certificate h hp hs fp d), fun hs => takes (Chip.takeSpdm_keyExchange h hp hs),
    fun hs => takes (Chip.takeSpdm_encapsulated h hp hs), fun hs hv rq rp hc => takes (Chip.takeSpdm_admits h hp hs hc rq rp),
    fun hs hv rq rp n hc => takes (Chip.takeSpdm_notAdmitted h hp hs hc rq rp), fun hs => takes (Chip.takeSpdm_version_late h hp hs)⟩⟩

end Sys2Proof

/-! ### Strings and bridges lost, and the peer link (R386 to R389, R394 to R400, R412, R589) -/

namespace Sys2Proof.Machine

/-! #### Bridges and strings lost and found (R386, R387) -/

section
variable {k pos : Nat} {c : Chip}

theorem bridgeLost_alive (h : (c.view k pos).state ≠ 3 ∨ (c.view k pos).silentCycles < 64) : bridgeLost k pos c = c := by
  refine if_pos ?_
  rcases h with h | h <;> simp [h]

section
variable (hs : (c.view k pos).state = 3) (hq : 64 ≤ (c.view k pos).silentCycles)
include hs hq

theorem bridgeLost_noShelf (h : ((c.dropView k pos 0).strEvent 0x246 k pos 0 0).shelfAt k pos = none) :
    bridgeLost k pos c = (c.dropView k pos 0).strEvent 0x246 k pos 0 0 := by
  refine (if_neg (by simp [hs, hq])).trans ?_
  simp only [h]

theorem bridgeLost_shelf {sh : Nat} (h : ((c.dropView k pos 0).strEvent 0x246 k pos 0 0).shelfAt k pos = some sh) :
    bridgeLost k pos c = (((c.dropView k pos 0).strEvent 0x246 k pos 0 0).leaveService sh).wakeProgress := by
  refine (if_neg (by simp [hs, hq])).trans ?_
  simp only [h]

end

theorem stringOutOfService_serves (h : c.get (R.ISF_STR_STATUS_STATE k) = 5 ∨
    c.trainedOn k = true ∧ c.now < (c.strg k).lastBeaconAt + 1000000000) : stringOutOfService k c = c := by
  refine if_pos ?_
  rcases h with h | ⟨ht, hb⟩
  · simp [h]
  · simp [ht, hb]

theorem stringOutOfService_leaves (h5 : c.get (R.ISF_STR_STATUS_STATE k) ≠ 5)
    (hf : ¬ (c.trainedOn k = true ∧ c.now < (c.strg k).lastBeaconAt + 1000000000)) :
    let d := (c.modStrg k (fun x => { x with outAt := some c.now, grants := [], nextGrants := [] })).set (R.ISF_STR_STATUS_STATE k) 5
    stringOutOfService k c = ((d.topology.filter (fun e => e.2.str == k)).foldl (fun d e => d.leaveService e.1) d).wakeProgress := by
  refine if_neg ?_
  simpa [h5] using hf

theorem stringRetrainRetry_inService (h : (c.strg k).outAt = none) (ok : Bool) : stringRetrainRetry k ok c = c := by
  simp only [stringRetrainRetry, h]

section
variable {t : Nat} (h : (c.strg k).outAt = some t)
include h

theorem stringRetrainRetry_early (ht : c.now < t + 10000000000) (ok : Bool) : stringRetrainRetry k ok c = c := by
  simp only [stringRetrainRetry, h, ht, if_true]

variable (ht : t + 10000000000 ≤ c.now)
include ht

theorem stringRetrainRetry_fails : stringRetrainRetry k false c = c.modStrg k (fun x => { x with outAt := some c.now }) := by
  simp only [stringRetrainRetry, h, not_lt.2 ht, if_false, Bool.not_false, if_true]

theorem stringRetrainRetry_returns :
    let d := (c.modStrg k (fun x => { x with
      outAt := none, lastBeaconAt := c.now, trained := x.trained.filter (· != c.att) ++ [c.att] })).strUp k
    stringRetrainRetry k true c = (d.topology.filter (fun e => e.2.str == k)).foldl (fun d e =>
      if (d.view k e.2.pos).state = 3 then d.modShelf e.1 (fun x => { x with state := 2 }) else d) d := by
  simp only [stringRetrainRetry, h, not_lt.2 ht, if_false, Bool.not_true, Bool.false_eq_true]

end

end

/-- The counters of a string lie one behind the other (Table 11-13): the one at place `i`. -/
def isfCounterAt (k i : Nat) : Fld := ⟨0xb00100 + 8 * i + 0x1000 * k, 0, 64, .ro, 0, true, false, false, []⟩

theorem isfCounters_places (k : Nat) : isfCounters k = (List.range 12).map (isfCounterAt k) := rfl

theorem isfCounters_distinct (k : Nat) : ∀ f ∈ isfCounters k, ∀ g ∈ isfCounters k, f.key = g.key → f = g := by
  rw [isfCounters_places]
  intro f hf g hg hkey
  obtain ⟨i, -, rfl⟩ := List.mem_map.1 hf
  obtain ⟨j, -, rfl⟩ := List.mem_map.1 hg
  have hij : i = j := by simp only [Fld.key, isfCounterAt] at hkey; omega
  rw [hij]

/-! #### Quads (R389) -/

section
variable {c : Chip}

theorem laneFailed_unused {lane : Nat} (h : c.bit R.ZBL_STATUS_QUADS (lane / 4) = false) : laneFailed lane c = c := by
  simp [laneFailed, h]

theorem laneFailed_leaves {lane : Nat} (h : c.bit R.ZBL_STATUS_QUADS (lane / 4) = true) :
    let q := clearBit (c.get R.ZBL_STATUS_QUADS) (lane / 4)
    laneFailed lane c = ((({ c with zbl := { c.zbl with
      failedQuads := c.zbl.failedQuads.filter (· != lane / 4) ++ [lane / 4] } } : Chip).bump R.ZBL_CNT_REWIDTH_REWIDTH 1).emit (.peerRewidth q)).setQuads q := by
  simp [laneFailed, h]

section
variable {q : Nat} (hq : c.get R.ZBL_STATUS_QUADS ≠ 0)
include hq

theorem rewidth_same (h : q % 16 = c.get R.ZBL_STATUS_QUADS) : rewidth q c = c.emit (.peerRewidth (q % 16)) :=
  (if_neg hq).trans (if_pos h)

theorem rewidth_switches (h : q % 16 ≠ c.get R.ZBL_STATUS_QUADS) :
    rewidth q c = ((c.emit (.peerRewidth (q % 16))).bump R.ZBL_CNT_REWIDTH_REWIDTH 1).setQuads (q % 16) :=
  (if_neg hq).trans (if_neg h)

theorem quadRetrain_returns {k : Nat} (hk : c.zbl.failedQuads.contains k = true) :
    let q := setBit (c.get R.ZBL_STATUS_QUADS) k
    quadRetrain k true c = ((({ c with zbl := { c.zbl with
      failedQuads := c.zbl.failedQuads.filter (· != k) } } : Chip).bump R.ZBL_CNT_REWIDTH_REWIDTH 1).emit (.peerRewidth q)).setQuads q := by
  refine if_neg ?_
  simp only [hk, hq, decide_false, Bool.not_true, Bool.or_self, Bool.false_eq_true, not_false_eq_true]

end

end

/-! #### The bring-up and the wake tone (R397, R398) -/

section
variable {c : Chip}

section
variable (h : c.mayLink = false ∨ c.linkUp = true)
include h

theorem zblBringup_idle (q : Nat) (a : Bool) (n tk rk : Nat) : zblBringup q a n tk rk c = c := by
  rcases h with h | h <;> simp [zblBringup, h]

theorem zblWakeToneSend_idle : zblWakeToneSend c = c := by
  rcases h with h | h <;> simp [zblWakeToneSend, h]

end

theorem zblWakeToneSend_waits (h : c.zbl.training = true ∨ c.zbl.lastTone ≠ 0 ∧ c.now < c.zbl.lastTone + 1000000) :
    zblWakeToneSend c = c := by
  rcases h with h | ⟨h0, h⟩
  · simp [zblWakeToneSend, h]
  · simp [zblWakeToneSend, h0, h]

variable (hm : c.mayLink = true) (hl : c.linkUp = false)
include hm hl

theorem zblWakeToneSend_sends (ht : c.zbl.training = false) (h : c.zbl.lastTone = 0 ∨ c.zbl.lastTone + 1000000 ≤ c.now) :
    zblWakeToneSend c = { c with zbl := { c.zbl with lastTone := c.now }, out := .peerTone :: c.out } := by
  refine if_pos ?_
  rcases h with h | h <;> simp [hm, hl, ht, h]

/-- A bring-up is tried where the link may come up and is not up. -/
theorem zblBringup_tried : ¬ (!c.mayLink || c.linkUp) = true := by
  simp [hm, hl]

theorem zblBringup_trains {q : Nat} (hq : q % 16 = 0) (a : Bool) (n tk rk : Nat) :
    zblBringup q a n tk rk c = ({ c with zbl := { c.zbl with training := true } } : Chip).set R.ZBL_STATUS_STATE 1 :=
  (if_neg (zblBringup_tried hm hl)).trans (if_pos hq)

variable {q : Nat} (hq : q % 16 ≠ 0)
include hq

theorem zblBringup_refused {a : Bool} {n : Nat} (h : a = false ∨ n % 256 = 0) (tk rk : Nat) :
    zblBringup q a n tk rk c = c.refusePeer 6 0x280 := by
  refine (if_neg (zblBringup_tried hm hl)).trans ((if_neg hq).trans (if_pos ?_))
  rcases h with h | h <;> simp [h]

theorem zblBringup_opens {n : Nat} (hn : n % 256 ≠ 0) (tk rk : Nat) :
    let d := c.breakSession
    let d : Chip := { d with zbl := { d.zbl with
      session := n % 256, txKey := tk, rxKey := rk, training := false, helloSent := true, nextOpid := 1, rxOpid := 0, requests := []
      failedQuads := (List.range 4).filter (fun i => !bitOf q i), lastHbRx := d.now, lastHbTx := 0, hbTxAt := 0 } }
    let d := d.setAll [(R.ZBL_STATUS_QUADS, q), (R.ZBL_STATUS_STATE, 2)]
    zblBringup q true n tk rk c = d.peerSend 0 0 (.hello d.helloOf) :=
  (if_neg (zblBringup_tried hm hl)).trans ((if_neg hq).trans (if_neg (by simp [hn])))

end

/-! #### A head alone, its heartbeat and the repeats (R394, R395, R400, R412) -/

section
variable {c : Chip}

theorem aloneTimeout_waits (h : c.isDay = false ∨ c.usesLinks = false ∨ c.zbl.state ≠ .alone ∨
    c.now < c.pwr.dayAt + c.get R.ZBL_CTRL_ALONE_S * 1000000000) : aloneTimeout c = c := by
  refine if_pos ?_
  rcases h with h | h | h | h <;> simp [h]

section
variable (hd : c.isDay = true) (hu : c.usesLinks = true) (hs : c.zbl.state = .alone)
  (ht : c.pwr.dayAt + c.get R.ZBL_CTRL_ALONE_S * 1000000000 ≤ c.now)
include hd hu hs ht

theorem aloneTimeout_due : ¬ (!c.isDay || !c.usesLinks || c.zbl.state ≠ .alone ||
    decide (c.now < c.pwr.dayAt + c.get R.ZBL_CTRL_ALONE_S * 1000000000)) = true := by
  simp [hd, hu, hs, ht]

theorem aloneTimeout_takes (hp : c.peerPresent = false ∨ c.pos ≠ 1) :
    aloneTimeout c = ((c.takeStrings 0xFFFF true).allGranules).soleNow := by
  refine (if_neg (aloneTimeout_due hd hu hs ht)).trans (if_neg ?_)
  rcases hp with hp | hp <;> simp [hp]

theorem aloneTimeout_yields (hp : c.peerPresent = true) (h1 : c.pos = 1) : aloneTimeout c = c.yieldNow :=
  (if_neg (aloneTimeout_due hd hu hs ht)).trans (if_pos (by simp [hp, h1]))

end

theorem heartbeatSend_waits (h : c.linkUp = false ∨ c.zbl.lapsed = true ∨ c.zbl.hbTxAt ≠ 0 ∧ c.now < c.zbl.hbTxAt + 50000) :
    heartbeatSend c = c := by
  refine if_pos ?_
  rcases h with h | h | ⟨h0, h⟩
  · simp [h]
  · simp [h]
  · simp [h0, h]

theorem heartbeatSend_sends (ha : c.awake = true) (hl : c.linkUp = true) (hw : c.zbl.lapsed = false)
    (ht : c.zbl.hbTxAt = 0 ∨ c.zbl.hbTxAt + 50000 ≤ c.now) :
    let d := ({ c with zbl := { c.zbl with hbTxAt := c.now } } : Chip).stepTxc
    heartbeatSend c = d.emit (.peerHb d.zbl.txc d.now d.zbl.lastHbTx d.zbl.lastHbRx d.hbState
      (d.peerWire none 0 false false (.hb d.now d.zbl.lastHbTx d.zbl.lastHbRx d.hbState))) := by
  refine if_neg ?_
  rcases ht with ht | ht <;> simp [ha, hl, hw, ht]

section
variable {ch : Nat}

theorem zblRetxTimeout_waits (h : c.linkUp = false ∨ (c.zch ch).unacked = [] ∨
    c.now < (c.zch ch).sentAt + c.get R.ZBL_TIMERS_RETX_US * 1000) : zblRetxTimeout ch c = c := by
  refine if_pos ?_
  rcases h with h | h | h <;> simp [h]

theorem zblRetxTimeout_due (hl : c.linkUp = true) (hu : (c.zch ch).unacked ≠ [])
    (ht : (c.zch ch).sentAt + c.get R.ZBL_TIMERS_RETX_US * 1000 ≤ c.now) :
    zblRetxTimeout ch c = c.resendOrBreak ch := by
  refine if_neg ?_
  simp [hl, hu, ht]

end

section
variable {opid : Nat}

theorem opRetryTimeout_noRequest (h : c.zbl.requests.find? (fun r => r.opid == opid) = none) : opRetryTimeout opid c = c := by
  simp only [opRetryTimeout, h]

variable {r : OpenReq} (h : c.zbl.requests.find? (fun r => r.opid == opid) = some r)
include h

theorem opRetryTimeout_waits (hw : c.linkUp = false ∨ c.now < r.sentAt + c.get R.ZBL_TIMERS_OP_TMO_US * 1000) :
    opRetryTimeout opid c = c := by
  simp only [opRetryTimeout, h]
  refine if_pos ?_
  rcases hw with hw | hw <;> simp [hw]

theorem opRetryTimeout_repeats (hl : c.linkUp = true) (ht : r.sentAt + c.get R.ZBL_TIMERS_OP_TMO_US * 1000 ≤ c.now) :
    opRetryTimeout opid c = ({ c with zbl := { c.zbl with
      requests := modifyFirst (fun x => x.opid == opid) (fun x => { x with sentAt := c.now }) c.zbl.requests } } : Chip).peerSend 1 opid r.msg := by
  simp only [opRetryTimeout, h]
  refine if_neg ?_
  simp [hl, ht]

end

end

end Sys2Proof.Machine

namespace Sys2Proof
open Sys2Proof.Machine

/-- Settles O35: bridges, strings and repeats by their times, the link by whether it may come up and is up, a quad by the set in use. -/
theorem stringLossAndPeerLinkAct : Obligations.StringLossAndPeerLinkAct := by
  intro s ha c z
  have wakes {i : Instr} {f : Chip → Chip} {d : Chip} (hx : exec i s = s.runAwake true f) (hd : f c = d) : Yields i s d :=
    Yields.awake ha hx rfl hd
  refine ⟨fun k pos hk hp => ?_, fun k hk => ?_, fun lane h => wakes rfl (laneFailed_unused h), fun lane h => wakes rfl (laneFailed_leaves h),
    fun q hq => ⟨fun h => wakes rfl (rewidth_same hq h), fun h => wakes rfl (rewidth_switches hq h)⟩, fun k => wakes rfl rfl,
    fun k hk hq => wakes rfl (quadRetrain_returns hq hk),
    fun h => ⟨fun q a n tk rk => wakes rfl (zblBringup_idle h q a n tk rk), wakes rfl (zblWakeToneSend_idle h)⟩,
    fun hm hl => ⟨fun q a n tk rk hq => wakes rfl (zblBringup_trains hm hl hq a n tk rk),
      fun q a n tk rk hq h => wakes rfl (zblBringup_refused hm hl hq h tk rk), fun q n tk rk hq hn => wakes rfl (zblBringup_opens hm hl hq hn tk rk),
      fun ht h => wakes rfl (zblWakeToneSend_sends hm hl ht h), fun h => wakes rfl (zblWakeToneSend_waits h)⟩,
    ⟨fun h => wakes rfl (aloneTimeout_waits h), fun hd hu hs ht => ⟨fun hp => wakes rfl (aloneTimeout_takes hd hu hs ht hp),
      fun hp h1 => wakes rfl (aloneTimeout_yields hd hu hs ht hp h1)⟩⟩,
    fun h => wakes rfl (heartbeatSend_waits h), fun hl hw ht => wakes rfl (heartbeatSend_sends ha hl hw ht),
    wakes rfl (if_pos ha),
    fun ch => ⟨fun h => wakes rfl (zblRetxTimeout_waits h), fun hl hu ht =>
      ⟨fun h => wakes rfl ((zblRetxTimeout_due hl hu ht).trans (if_pos h)),
        fun h => wakes rfl ((zblRetxTimeout_due hl hu ht).trans (if_neg (ne_true_of_eq_false h)))⟩⟩,
    fun opid h => wakes rfl (opRetryTimeout_noRequest h),
    fun opid r h => ⟨fun hw => wakes rfl (opRetryTimeout_waits h hw), fun hl ht => wakes rfl (opRetryTimeout_repeats h hl ht)⟩⟩
  · have known : (decide (k < 16) && decide (pos < 8)) = true := by rw [decide_eq_true hk, decide_eq_true hp]; rfl
    have loses {d : Chip} (hd : bridgeLost k pos c = d) : Yields (.bridgeLost k pos) s d := Yields.awake ha rfl known hd
    exact ⟨fun h => loses (bridgeLost_alive h), fun hs hq => ⟨fun h => loses (bridgeLost_noShelf hs hq h),
      fun sh h => loses (bridgeLost_shelf hs hq h)⟩⟩
  · have runs {i : Instr} {f : Chip → Chip} {d : Chip} (hx : exec i s = s.runAwake (decide (k < 16)) f) (hd : f c = d) : Yields i s d :=
      Yields.awake ha hx (decide_eq_true hk) hd
    exact ⟨fun h => runs rfl (stringOutOfService_serves h), fun h5 hf => runs rfl (stringOutOfService_leaves h5 hf),
      fun h ok => runs rfl (stringRetrainRetry_inService h ok),
      fun t h => ⟨fun ht ok => runs rfl (stringRetrainRetry_early h ht ok),
        fun ht => ⟨runs rfl (stringRetrainRetry_fails h ht), runs rfl (stringRetrainRetry_returns h ht)⟩⟩,
      fun hs => Completes.ofClearAll hs
        (congrArg (fun known => s.runBar2 known true (R.ISF_STR_CNT_CLR_CLR k) (isfStrCntClr k)) (decide_eq_true hk)) (isfCounters_distinct k)⟩

end Sys2Proof

/-! ### Waiting commands -/

namespace Sys2Proof.Machine

/-- A command has one effect on the chip, whatever waits, and runs where `known` holds. -/
def RunsWhere (i : Instr) (known : Bool) : Prop := ∃ f : Chip → Chip, ∀ s : State, exec i s = s.run known f

section
variable {i : Instr} {k : Bool} {f : Chip → Chip}

theorem RunsWhere.run (h : ∀ s, exec i s = s.run k f) : RunsWhere i k := ⟨f, h⟩

theorem RunsWhere.awake (h : ∀ s, exec i s = s.runAwake k f) : RunsWhere i k := ⟨_, h⟩

theorem RunsWhere.bar {fn : Nat} (h : ∀ s, exec i s = s.runBar k fn f) : RunsWhere i k := .awake h

theorem RunsWhere.cfg {fn : Nat} (h : ∀ s, exec i s = s.runCfg k fn f) : RunsWhere i k := .awake h

theorem RunsWhere.bar2 {host : Bool} {reg : Fld} (h : ∀ s, exec i s = s.runBar2 k host reg f) : RunsWhere i k := .awake h

end

/-- Every command runs just where its operands name units of the head: by the gate that its row passes. -/
theorem exec_runsWhere_wf (i : Instr) : RunsWhere i i.wf := by
  cases i with
  | nightwatchTick | porNAssert | crystalRunning | headSelSample | sysRstNAssert | pwrgdRise | pwrgdFall | perstDeassert | perstAssert
    | holdupNFall | holdupNRise | mediaRead | mediaReadHdr | mediaProgram | mediaErase | mediaCopy | mediaBlockInfo | mediaRetire
    | mediaGeometry | mediaRootGet | mediaRootSet | hubCodeword | attachmentTraining | beaconReceive | dataSlotTransmit | slotReceive
    | holdoverEntry | holdoverTimeout | stringDark | contentionAttempt | backoffExpiry | isfAck | isfRetxTimeout | sessionStart | keys
    | park | echo | echoReply | bridgeNandPowered | bridgeWake | bridgeWakeTone | wakeNLow | zblWakeTone | isfWakeTone | nightWakeTimer
    | i3cPrivateWrite | nightwatchSensorCheck | jtagBypass | jtagIdcode | jtagSamplePreload | jtagExtest | jtagClamp | jtagHighz
    | dbgChallenge | dbgToken | dbgStatus | dbgAccess | nightwatchSupplyLoss | dimmSupplyLoss => exact .run fun _ => rfl
  | msixMessageWrite | ccEnSet | ccEnClear | normalShutdown | abruptShutdown | sqTailDoorbell | cqHeadDoorbell => exact .bar fun _ => rfl
  | deviceControlWrite | numvfsWrite | systemPageSizeWrite | vfEnableSet | vfEnableClear | vfFlr | pfFlr | busMasterEnableWrite
    | msixEnableWrite | epcClrCnt => exact .cfg fun _ => rfl
  | kcfLoad | kcfValidate | kcfActivate | kcfAbort | kcfRetry | cmpCntClr | cpeCntClr | dgeCntClr | reshapeStart | reshapeAbort
    | rdeCntClr | isfStrCntClr | zblCntClr | engHalt | engResume | engineLoad | cancelAll | clusterOffline | clusterOnline
    | cancelLogRelease | secClCntClr | secEngCntClr | dmaStart | dmaPause | dmaResume | dmaAbort | dmaDoorbell | busStopClear
    | hwinLenWrite | dmaCntClr | wayPowerDown | wayPowerUp | memCntClr | pwrDusk | pwrCancel | pwrCntClr | getChallenge | clearMailbox
    | debugOpen | provision | deploy | service | returnToken | retire | fuseOwner | revokeOwner | trustAdd | trustRemove | revokeFwKey
    | secRootCntClr | bootConfirm | resetWarm | saveBoard | bootCntClr | evrFreeze | evrThaw | clearFb | evrCPtrWrite | evrCntClr => exact .bar2 fun _ => rfl
  | _ => exact .awake fun _ => rfl

/-- What a command makes of the chip, whatever waits behind it; a command that stops leaves it. -/
def effectOf (i : Instr) (c : Chip) : Chip :=
  match exec i { chip := c } with
  | .next t => t.chip
  | _ => c

theorem exec_eq_run (i : Instr) (s : State) : exec i s = s.run i.wf (effectOf i) := by
  obtain ⟨f, h⟩ := exec_runsWhere_wf i
  cases hw : i.wf with
  | false => simp only [h, hw, State.run_unknown]
  | true =>
    have : effectOf i s.chip = f s.chip := by simp only [effectOf, h, hw, State.run_known]
    simp only [h, hw, State.run_known, this]

theorem exec_of_wf {i : Instr} (h : i.wf = true) (s : State) : exec i s = .next { s with chip := effectOf i s.chip } := by
  rw [exec_eq_run, h, State.run_known]

theorem exec_of_not_wf {i : Instr} (h : i.wf = false) (s : State) : exec i s = .fault .noSuchUnit := by
  rw [exec_eq_run, h, State.run_unknown]

theorem step_nil {s : State} (h : s.pending = []) : step s = .next { s with chip := s.chip.tick } := by rw [step, h]

theorem step_cons {s : State} {c : Instr} {rest : List Instr} (h : s.pending = c :: rest) :
    step s = exec c { s with pending := rest } := by rw [step, h]

theorem step_of_wf {s : State} {c : Instr} {rest : List Instr} (h : s.pending = c :: rest) (hc : c.wf = true) :
    step s = .next { chip := effectOf c s.chip, pending := rest } := (step_cons h).trans (exec_of_wf hc _)

/-- A step of well-formed waiting commands goes on, and what still waits is well formed. -/
theorem step_of_wellFormed {s : State} (h : s.wellFormed) : ∃ t, step s = .next t ∧ t.wellFormed := by
  unfold State.wellFormed at h
  cases hp : s.pending with
  | nil => exact ⟨_, step_nil hp, h⟩
  | cons c rest =>
    rw [hp, List.forall_mem_cons] at h
    obtain ⟨hc, hrest⟩ := h
    exact ⟨_, step_of_wf hp hc, hrest⟩

theorem State.after_succ {s t u : State} {n : Nat} (h : s.after n = some t) (hs : step t = .next u) : s.after (n + 1) = some u := by
  simp only [State.after, h, hs]

/-- The first `n` waiting commands, where they are well formed, act in their order and leave the rest waiting. -/
theorem State.after_acts (s : State) (n : Nat) (hn : n ≤ s.pending.length) (h : ∀ x ∈ s.pending.take n, x.wf = true) :
    s.after n = some { chip := (s.pending.take n).foldl (fun d c => effectOf c d) s.chip, pending := s.pending.drop n } := by
  induction n with
  | zero => rfl
  | succ n ih =>
    have hlt : n < s.pending.length := hn
    rw [List.take_succ_eq_append_getElem hlt] at h ⊢
    obtain ⟨hpre, hc⟩ := List.forall_mem_append.1 h
    rw [State.after_succ (ih hlt.le hpre) (step_of_wf (List.drop_eq_getElem_cons hlt) (hc _ (List.mem_singleton_self _))), List.foldl_append]
    rfl

end Sys2Proof.Machine

namespace Sys2Proof
open Sys2Proof.Machine

/-- Settles O51: the step takes the front command by its definition. -/
theorem stepRunsTheFrontCommand : Obligations.StepRunsTheFrontCommand := fun _ _ _ => step_cons rfl

/-- Settles O54: the table's decoder knows no word. -/
theorem noWordSpellsACommand : Obligations.NoWordSpellsACommand := fun _ _ _ => ⟨rfl, rfl⟩

/-- Settles O58: every command is a run where its operands name units. -/
theorem commandsAnswerOrNameNoUnit : Obligations.CommandsAnswerOrNameNoUnit :=
  fun _ s => ⟨fun h => ⟨_, exec_of_wf h s⟩, fun h => exec_of_not_wf h s⟩

/-- Settles O59, with the effect of each command: by induction on the steps, each of which takes the next command of the queue. -/
theorem waitingCommandsActInOrder : Obligations.WaitingCommandsActInOrder := by
  refine ⟨⟨effectOf, fun c s h => exec_of_wf h s, fun s h n hn => s.after_acts n hn fun x hx => h x (List.mem_of_mem_take hx)⟩,
    fun s t h hs => ?_, fun s pre rest c hpre hc hp => ?_⟩
  · obtain ⟨u, hu, hw⟩ := step_of_wellFormed h
    obtain rfl : u = t := by simpa [hu] using hs
    obtain ⟨v, hv, -⟩ := step_of_wellFormed hw
    exact ⟨hw, v, hv⟩
  · have hpre' : s.pending.take pre.length = pre := by rw [hp, List.take_left]
    have hrest : s.pending.drop pre.length = c :: rest := by rw [hp, List.drop_left]
    exact ⟨_, s.after_acts pre.length (by simp [hp]) (by rwa [hpre']), (step_cons hrest).trans (exec_of_not_wf hc _)⟩

end Sys2Proof

/-! ### Instructions of the stream engines that commit or trap by their plan (R429 to R437, R442, R443) -/

namespace Sys2Proof.Machine

@[simp] theorem Eng.setReg_flags (g : Eng) (r : Nat) (v : Word64) : (g.setReg r v).flags = g.flags := by
  unfold Eng.setReg; split <;> rfl

@[simp] theorem Eng.setReg_zero (g : Eng) (v : Word64) : g.setReg 0 v = g := rfl

@[simp] theorem Eng.applyAll_nil (g : Eng) : g.applyAll [] = g := rfl

@[simp] theorem Eng.applyAll_cons (g : Eng) (x : Effect) (l : List Effect) : g.applyAll (x :: l) = (g.apply x).applyAll l := rfl

theorem bitsOf_lt (v lsb width : Nat) : bitsOf v lsb width < 2 ^ width := Nat.mod_lt _ (Nat.two_pow_pos _)

theorem zext_toNat (w : Word32) {n : Nat} (hn : n ≤ 64) : (zext w n).toNat = fld w 0 n :=
  (BitVec.toNat_ofNat _ _).trans (Nat.mod_eq_of_lt ((bitsOf_lt _ 0 n).trans_le (Nat.pow_le_pow_right (by decide) hn)))

/-- The effects of a result: the register, and the flags where they are written (R431); a division by zero writes them. -/
theorem Eng.applyAll_aluPlan (g : Eng) (pc xd : Nat) (r : AluRes) (writes : Bool) (hd : r.divZero = true → writes = true) :
    g.applyAll (aluPlan g pc xd r writes).effects =
      { g.setReg xd r.val with flags := if writes then g.flags.after r else g.flags } := by
  cases writes with
  | true => rfl
  | false =>
    have : r.divZero = false := by simpa using hd
    simp only [aluPlan, this, Bool.or_false, Bool.false_eq_true, if_false, List.append_nil]
    show g.setReg xd r.val = _
    rw [← g.setReg_flags xd r.val]

theorem aluPlan_own (g : Eng) (pc xd : Nat) (r : AluRes) (writes : Bool) :
    (aluPlan g pc xd r writes).effects.all Effect.own = true ∧ (aluPlan g pc xd r writes).effects.any storesImem = false := by
  unfold aluPlan; dsimp only; split <;> exact ⟨rfl, rfl⟩

end Sys2Proof.Machine

namespace Sys2Proof
open Sys2Proof.Machine

section
variable {i : Instr} {s : State} {n e : Nat} {w : Word32} {ok : Bool} {srcs : List Nat} {plan : Eng → Nat → Plan} {p : Plan}
  (h : Fetched s n e w) (hl : legalWord w = true) (hok : ok = true)
  (hx : Yields i s (s.chip.row n e w ok srcs plan))
  (hp : plan (s.chip.engAt (engKey n e)) (s.chip.engAt (engKey n e)).pc = p) (hload : p.load = none)
include h hl hok hx hp hload

/-- A row whose plan waits for nothing and raises nothing commits the plan's effects on its engine. -/
theorem Fetched.commits (hexc : p.exc = none) (hown : p.effects.all Effect.own = true)
    (him : p.effects.any storesImem = false) {f : Eng → Eng}
    (hf : (s.chip.engAt (engKey n e)).applyAll p.effects = f (s.chip.engAt (engKey n e))) :
    Completes i s (fun d => Commits s.chip d n e f p.next) := by
  have hc := Chip.row_commits h hok hl srcs plan hp hload hexc hown
  rw [him] at hc
  exact ⟨_, hx, Chip.commits_of_engAt hc hf⟩

/-- A row whose plan raises an exception takes it. -/
theorem Fetched.raises {cause addr : Nat} (hexc : p.exc = some (cause, addr)) :
    Completes i s (fun d => Raises s.chip d n e cause (s.chip.engAt (engKey n e)).pc addr) :=
  ⟨_, hx, Chip.row_raises h hok hl srcs plan hp hload hexc⟩

end

section
variable {i : Instr} {s : State} {n e : Nat} {w : Word32} {ok : Bool} {srcs : List Nat} {plan : Eng → Nat → Plan}
  (h : Fetched s n e w) (hl : legalWord w = true) (hok : ok = true)
  (hx : Yields i s (s.chip.row n e w ok srcs plan))
include h hl hok hx

/-- A row whose plan is an arithmetic result writes the result and its flags. -/
theorem Fetched.commits_result {r : AluRes} {writes : Bool} (hd : r.divZero = true → writes = true)
    (hp : plan (s.chip.engAt (engKey n e)) (s.chip.engAt (engKey n e)).pc =
      aluPlan (s.chip.engAt (engKey n e)) (s.chip.engAt (engKey n e)).pc (xdOf w) r writes) :
    Completes i s (fun d => Commits s.chip d n e (fun g =>
      { g.setReg (xdOf w) r.val with flags := if writes then g.flags.after r else g.flags }) ((s.chip.engAt (engKey n e)).pc + 4)) :=
  h.commits hl hok hx hp rfl rfl (aluPlan_own _ _ _ _ _).1 (aluPlan_own _ _ _ _ _).2 (Eng.applyAll_aluPlan _ _ _ _ _ hd)

/-- A row whose plan writes a register alone. -/
theorem Fetched.commits_reg {r : Nat} {v : Word64} {next miss : Nat}
    (hp : plan (s.chip.engAt (engKey n e)) (s.chip.engAt (engKey n e)).pc = { effects := [.reg r v], next := next, miss := miss }) :
    Completes i s (fun d => Commits s.chip d n e (fun g => g.setReg r v) next) := h.commits hl hok hx hp rfl rfl rfl rfl rfl

/-- A row whose plan only moves the PC. -/
theorem Fetched.commits_next {next miss : Nat}
    (hp : plan (s.chip.engAt (engKey n e)) (s.chip.engAt (engKey n e)).pc = { next := next, miss := miss }) :
    Completes i s (fun d => Commits s.chip d n e (fun g => g) next) := h.commits hl hok hx hp rfl rfl rfl rfl rfl

end

/-- Settles O1: each row commits its result, which is the row's case of the immediate results. -/
theorem engineImmediateInstructionsCommit : Obligations.EngineImmediateInstructionsCommit := by
  intro s n e w h hl g a i z did
  have hz : z.toNat = fld w 0 15 := zext_toNat w (by decide)
  have commits {x : Instr} {op : Nat} {r : AluRes} (ho : opOf w = op) (hr : immRes w a = r) (hd : r.divZero = false)
      (hx : Yields x s (s.chip.row n e w (opOf w == op) [xaOf w] (immOf w))) :
      Completes x s (fun d => Commits s.chip d n e (fun g =>
        { g.setReg (xdOf w) r.val with flags := if sImm w then g.flags.after r else g.flags }) (g.pc + 4)) :=
    h.commits_result hl (beq_iff_eq.2 ho) hx (by simp [hd]) (congrArg (fun r => aluPlan g g.pc (xdOf w) r (sImm w)) hr)
  have results {x : Instr} {op : Nat} {r : AluRes} (ho : opOf w = op) (hr : immRes w a = r) (hd : r.divZero = false)
      (hx : Yields x s (s.chip.row n e w (opOf w == op) [xaOf w] (immOf w))) :
      Completes x s (did r.val r.k r.v) := by
    obtain ⟨d, hd', hc⟩ := commits ho hr hd hx
    exact ⟨d, hd', Chip.commits_of_engAt hc (by simp only [EFlags.after, hd, Bool.or_false])⟩
  refine ⟨fun ho => results (r := aluAdd a i) ho (by simp only [immRes, ho]; rfl) rfl (h.yields rfl rfl),
    fun ho => results (r := { val := a &&& z }) ho (by simp only [immRes, ho]; rfl) rfl (h.yields rfl rfl),
    fun ho => results (r := { val := a ||| z }) ho (by simp only [immRes, ho]; rfl) rfl (h.yields rfl rfl),
    fun ho => results (r := { val := a ^^^ z }) ho (by simp only [immRes, ho]; rfl) rfl (h.yields rfl rfl),
    fun ho => results (r := { val := aluSll a z.toNat }) ho (by simp only [immRes, ho, hz]) rfl (h.yields rfl rfl),
    fun ho => results (r := { val := aluSrl a z.toNat }) ho (by simp only [immRes, ho, hz]) rfl (h.yields rfl rfl),
    fun ho => results (r := { val := aluSra a z.toNat }) ho (by simp only [immRes, ho, hz]) rfl (h.yields rfl rfl),
    fun ho => results (r := aluMul a i) ho (by simp only [immRes, ho]; rfl) rfl (h.yields rfl rfl), fun ho => ?_⟩
  have hlegal : xdOf w = 0 ∧ sImm w = true := by simpa [legalWord, ho] using hl
  obtain ⟨d, hd, hc⟩ := commits (x := .cmpi n e w) (r := aluSub a i) ho (by simp only [immRes, ho]; rfl) rfl (h.yields rfl rfl)
  exact ⟨d, hd, Chip.commits_of_engAt hc (by simp [hlegal, EFlags.after, aluSub])⟩

/-- ALU with a result that does not trap (R430 to R433). -/
theorem Fetched.alu_commits {s : State} {n e : Nat} {w : Word32} (h : Fetched s n e w) (hl : legalWord w = true) (ho : opOf w = 0x01)
    {fn : Nat} (hf : fnOf w = fn) {r : AluRes}
    (hr : aluFn fn ((s.chip.engAt (engKey n e)).reg (xaOf w)) ((s.chip.engAt (engKey n e)).reg (xbOf w)) = some r)
    (hd : r.divZero = true → alwaysFlags fn = true ∧ (s.chip.engAt (engKey n e)).flags.dze = false) :
    Completes (.alu n e w) s (fun d => Commits s.chip d n e (fun g => { g.setReg (xdOf w) r.val with
      flags := if sOf w || alwaysFlags fn then g.flags.after r else g.flags }) ((s.chip.engAt (engKey n e)).pc + 4)) := by
  subst hf
  refine h.commits_result hl (beq_iff_eq.2 ho) (h.yields rfl rfl) (fun hz => by simp [hd hz]) ?_
  have ht : (r.divZero && (s.chip.engAt (engKey n e)).flags.dze) = false := by
    cases hz : r.divZero with
    | false => rfl
    | true => exact (hd hz).2
  simp only [aluOf, hr, ht, Bool.false_eq_true, if_false]

/-- R433: with DZE a division by zero takes DIV_ZERO. -/
theorem Fetched.alu_traps {s : State} {n e : Nat} {w : Word32} (h : Fetched s n e w) (hl : legalWord w = true) (ho : opOf w = 0x01)
    {fn : Nat} (hf : fnOf w = fn) {r : AluRes} (hr : aluFn fn ((s.chip.engAt (engKey n e)).reg (xaOf w)) ((s.chip.engAt (engKey n e)).reg (xbOf w)) = some r)
    (hd : r.divZero = true) (hz : (s.chip.engAt (engKey n e)).flags.dze = true) :
    Completes (.alu n e w) s (fun d => Raises s.chip d n e 0x06 (s.chip.engAt (engKey n e)).pc 0) :=
  h.raises hl (beq_iff_eq.2 ho) (h.yields rfl rfl) (p := .raise (s.chip.engAt (engKey n e)).pc 0x06 0) (by simp [aluOf, hf, hr, hd, hz]) rfl rfl

/-- Settles O2: each FN by its result; a division by zero by DZE. -/
theorem engineAluFunctionsCommit : Obligations.EngineAluFunctionsCommit := by
  intro s n e w h hl ho g a b did trap
  have does {fn : Nat} {r : AluRes} (hf : fnOf w = fn) (hr : aluFn fn a b = some r)
      (hd : r.divZero = true → alwaysFlags fn = true ∧ g.flags.dze = false) : did r.val (alwaysFlags fn) r.k r.v r.divZero :=
    h.alu_commits hl ho hf hr hd
  have plain {fn : Nat} {v : Word64} (hf : fnOf w = fn) (hr : aluFn fn a b = some { val := v }) : did v (alwaysFlags fn) false false false :=
    does hf hr nofun
  refine ⟨fun hf => does (r := aluAdd a b) hf rfl nofun, fun hf => does (r := aluSub a b) hf rfl nofun,
    fun hf => plain hf rfl, fun hf => plain hf rfl, fun hf => plain hf rfl, fun hf => plain hf rfl, fun hf => plain hf rfl,
    fun hf => plain hf rfl, fun hf => plain hf rfl, fun hf => plain hf rfl, fun hf => does (r := aluMul a b) hf rfl nofun,
    fun hf => plain hf rfl, fun hf => plain hf rfl, fun hf => does (r := aluSub 0 a) hf rfl nofun, fun hf => plain hf rfl, fun hf => plain hf rfl,
    fun hf => plain hf rfl, fun hf => plain hf ?_, fun hf => plain hf ?_, fun hf => plain hf ?_, fun hf => plain hf ?_,
    fun hb => ?_, fun hb hz => ?_, fun hb hz h0 h1 => ?_⟩
  · simp [aluFn, BitVec.ult]
  · simp [aluFn, BitVec.ult]
  · simp [aluFn, BitVec.slt]
  · simp [aluFn, BitVec.slt]
  · exact ⟨fun hf => plain hf (congrArg some (if_neg hb)), fun hf => does hf (congrArg some (if_neg hb)) nofun,
      fun hf => plain hf (congrArg some (if_neg hb)), fun hf => does hf (congrArg some (if_neg hb)) nofun⟩
  · have byZero {fn : Nat} {v : Word64} (hf : fnOf w = fn) (ha : alwaysFlags fn = true) (hr : aluFn fn a b = some ⟨v, false, false, true⟩) :
        did v true false false true := ha ▸ does hf hr fun _ => ⟨ha, hz⟩
    exact ⟨fun hf => hf.elim (fun hf => byZero hf rfl (congrArg some (if_pos hb))) (fun hf => byZero hf rfl (congrArg some (if_pos hb))),
      fun hf => hf.elim (fun hf => byZero hf rfl (congrArg some (if_pos hb))) (fun hf => byZero hf rfl (congrArg some (if_pos hb)))⟩
  · have traps {fn : Nat} {v : Word64} (hf : fnOf w = fn) (hr : aluFn fn a b = some ⟨v, false, false, true⟩) : trap :=
      h.alu_traps hl ho hf hr rfl hz
    obtain hf | hf | hf | hf : fnOf w = 0x018 ∨ fnOf w = 0x019 ∨ fnOf w = 0x01A ∨ fnOf w = 0x01B := by omega
    · exact traps hf (congrArg some (if_pos hb))
    · exact traps hf (congrArg some (if_pos hb))
    · exact traps hf (congrArg some (if_pos hb))
    · exact traps hf (congrArg some (if_pos hb))

/-- Settles O3: each row by the plan that its definition gives. -/
theorem engineMovesAndJumpsCommit : Obligations.EngineMovesAndJumpsCommit := by
  intro s n e w h hl g pc dest goes writes
  refine ⟨fun ho => h.commits_reg hl (beq_iff_eq.2 ho) (h.yields rfl rfl) rfl, fun ho => h.commits_reg hl (beq_iff_eq.2 ho) (h.yields rfl rfl) rfl, fun ho => ?_,
    fun ho => ?_, fun ho => ?_, fun ho => h.commits_reg hl (beq_iff_eq.2 ho) (h.yields rfl rfl) rfl,
    fun ho => h.commits_reg hl (beq_iff_eq.2 ho) (h.yields rfl rfl) rfl, fun ho hf => h.commits_next hl (by simp [ho, hf]) (h.yields rfl rfl) rfl⟩
  · intro f holds
    have branch {cond : Nat} (hc : fld w 22 4 = cond) {p : Bool} (hp : condHolds f cond = p) : holds p :=
      h.commits_next (next := if p then dest (sext w 22) else pc + 4) hl (beq_iff_eq.2 ho) (h.yields rfl rfl) (by subst hc hp; rfl)
    exact ⟨fun hc => branch hc rfl, fun hc => branch hc rfl, fun hc => branch hc rfl, fun hc => branch hc rfl, fun hc => branch hc rfl,
      fun hc => branch hc rfl, fun hc => branch hc rfl, fun hc => branch hc rfl, fun hc => branch hc rfl, fun hc => branch hc rfl,
      fun hc => branch hc rfl, fun hc => branch hc rfl, fun hc => branch hc (by simp [condHolds]),
      fun hc => branch hc (by simp [condHolds, bne]), fun hc => branch hc (by simp [condHolds, bne])⟩
  · simpa only [beq_iff_eq] using h.commits_next (i := .brz n e w) (next := if g.reg (xdOf w) == 0 then dest (sext w 21) else pc + 4)
      hl (beq_iff_eq.2 ho) (h.yields rfl rfl) rfl
  · simpa only [bne_iff_ne, ne_eq, ite_not] using h.commits_next (i := .brnz n e w)
      (next := if g.reg (xdOf w) != 0 then dest (sext w 21) else pc + 4) hl (beq_iff_eq.2 ho) (h.yields rfl rfl) rfl

section
variable {s : State} {n e : Nat} {w : Word32} (h : Fetched s n e w) (hl : legalWord w = true) (ho : opOf w = 0x38)
include h hl ho

theorem Fetched.mfs_reads (hf : fn11 w = 6) {num : Nat} (hb : xbOf w = num) {v : Word64}
    (hv : s.chip.sysReg (engKey n e) num (s.chip.engAt (engKey n e)) = some v) :
    Completes (.mfs n e w) s (fun d => Commits s.chip d n e (fun g => g.setReg (xdOf w) v) ((s.chip.engAt (engKey n e)).pc + 4)) :=
  h.commits_reg hl (by simp [ho, hf]) (h.yields rfl rfl) (miss := 0) (by subst hb; simp only [hv]; rfl)

theorem Fetched.mfs_illegal (hf : fn11 w = 6) (hb : xbOf w = 6 ∨ xbOf w = 7 ∨ 13 < xbOf w) :
    Completes (.mfs n e w) s (fun d => Raises s.chip d n e 0x01 (s.chip.engAt (engKey n e)).pc 0) := by
  have hnone : s.chip.sysReg (engKey n e) (xbOf w) (s.chip.engAt (engKey n e)) = none := by
    unfold Chip.sysReg
    split
    case h_13 => rfl
    all_goals omega
  exact h.raises hl (by simp [ho, hf]) (h.yields rfl rfl) (p := .raise (s.chip.engAt (engKey n e)).pc 0x01 0) (by simp only [hnone]) rfl rfl

theorem Fetched.mts_writes (hf : fn11 w = 7) {num : Nat} (hb : xbOf w = num) (hw : sysWritable num = true) :
    Completes (.mts n e w) s (fun d => Commits s.chip d n e (fun g => g.setSys num (g.reg (xaOf w)))
      ((s.chip.engAt (engKey n e)).pc + 4)) := by
  subst hb
  exact h.commits hl (p := { effects := [.sys (xbOf w) ((s.chip.engAt (engKey n e)).reg (xaOf w))], next := pcNext (s.chip.engAt (engKey n e)).pc })
    (by simp [ho, hf]) (h.yields rfl rfl) (if_pos hw) rfl rfl rfl rfl rfl

theorem Fetched.mts_illegal (hf : fn11 w = 7) (hw : sysWritable (xbOf w) = false) :
    Completes (.mts n e w) s (fun d => Raises s.chip d n e 0x01 (s.chip.engAt (engKey n e)).pc 0) :=
  h.raises hl (by simp [ho, hf]) (h.yields rfl rfl) (p := .raise (s.chip.engAt (engKey n e)).pc 0x01 0) (if_neg (by simp [hw])) rfl rfl

theorem Fetched.fence_commits (hf : fn11 w = 1) :
    Completes (.fence n e w) s (fun d => Commits s.chip d n e (fun g => g) ((s.chip.engAt (engKey n e)).pc + 4)) := by
  refine ⟨_, h.yields rfl (Chip.oldest_fetched h hl (by simp [ho, hf]) 2 _), ?_⟩
  obtain ⟨-, he, -, -, hq⟩ := h
  exact s.chip.issue_commits he _ 0 hq rfl rfl rfl

/-- R441: IFENCE commits, and then drops the old copies of words that stores replaced. -/
theorem Fetched.ifence_commits (hf : fn11 w = 2) :
    Completes (.ifence n e w) s (fun d => Commits s.chip d n e (fun g => { g with stale := [] })
      ((s.chip.engAt (engKey n e)).pc + 4)) := by
  refine ⟨_, h.yields rfl (Chip.oldest_fetched h hl (by simp [ho, hf]) 4 _), ?_⟩
  obtain ⟨-, he, -, -, hq⟩ := h
  obtain ⟨hown, hothers, hcount, hregs, hclus, hwait, hframe⟩ := s.chip.issue_commits he
    ⟨(s.chip.engAt (engKey n e)).pc, pcNext (s.chip.engAt (engKey n e)).pc, none, none, []⟩ 3 hq rfl rfl rfl
  refine ⟨?_, fun j hj => (Chip.engAt_modEng_ne _ _ hj).trans (hothers j hj), hcount, hregs.then_regs rfl, hclus, hwait, ?_⟩
  · rw [Chip.engAt_modEng_same, hown]
    rfl
  · rw [hframe]
    rfl

end

/-- Settles O4: each register by its number, each other row by its plan. -/
theorem engineSystemInstructionsCommit : Obligations.EngineSystemInstructionsCommit := by
  intro s n e w h hl ho g pc reads writes
  refine ⟨fun hf => ?_, fun hf => ?_, fun hf => ?_, fun hf => h.fence_commits hl ho hf, fun hf => h.ifence_commits hl ho hf⟩
  · have he : e < 8 := h.2.1
    have hq : g.queue = [] := h.2.2.2.2
    have reg {num v : Nat} (hb : xbOf w = num) (hv : s.chip.sysReg (engKey n e) num g = some (BitVec.ofNat 64 v)) : reads v :=
      h.mfs_reads hl ho hf hb hv
    exact ⟨fun hb => reg hb rfl, fun hb => reg hb rfl, fun hb => reg hb rfl, fun hb => reg hb rfl, fun hb => reg hb rfl,
      fun hb => reg hb rfl, fun hb => reg hb (by simp only [Chip.sysReg, engKey_div he, engKey_mod he]), fun hb => reg hb rfl,
      fun hb => reg hb (by simp only [Chip.sysReg, hq, List.length_nil, Nat.add_zero]), fun hb => reg hb rfl, fun hb => reg hb rfl,
      fun hb => reg hb rfl, fun hb => h.mfs_illegal hl ho hf hb⟩
  · exact ⟨fun hb => h.mts_writes hl ho hf hb rfl, fun hb => h.mts_writes hl ho hf hb rfl, fun hb => h.mts_writes hl ho hf hb rfl,
      fun h0 h1 h4 => h.mts_illegal hl ho hf (by simp [sysWritable, h0, h1, h4])⟩
  · exact h.commits hl (p := { effects := [.leaveHandler], next := g.epc }) (by simp [ho, hf]) (h.yields rfl rfl) rfl rfl rfl rfl rfl rfl

/-- Settles O5: BRK by its plan; a word that is no instruction, and a PC that cannot be fetched from, by what is issued in its place. -/
theorem engineExceptionsAreTaken : Obligations.EngineExceptionsAreTaken := by
  intro s n e g
  refine ⟨fun w h => ⟨fun hl ho hf => ?_, fun hl => ?_⟩, fun hn he ha hs hq hpc => ?_⟩
  · exact h.raises hl (by simp [ho, hf]) (h.yields rfl rfl) rfl rfl rfl
  · have hd : illegalInstruction n e w s.chip = s.chip.issue (engKey n e) ⟨g.pc, g.pc, none, some (0x01, 0), []⟩ 0 := by
      obtain ⟨-, -, -, hr, hq⟩ := h
      simp [illegalInstruction, hl, Chip.execWord, hr, hq, Eng.fetchPc_of_empty hq, Plan.raise, g]
    have hy := h.yields (i := .illegalInstruction n e w) rfl hd
    obtain ⟨-, he, -, -, hq⟩ := h
    exact ⟨_, hy, s.chip.issue_raises he _ 0 hq rfl rfl⟩
  · have hd : fetchFault n e s.chip = s.chip.issue (engKey n e) ⟨g.pc, g.pc, none, some (0x02, 0), []⟩ 0 := by
      have hrun : (g.state == .running || g.state == .stalled) = true := by simpa using hs
      have hbad : goodPc g.pc = false := by simp [goodPc]; omega
      simp only [fetchFault, Eng.fetchPc_of_empty hq, hrun, hbad, g]
      rfl
    exact ⟨_, Yields.awake ha rfl (by simp [hn, he]) hd, s.chip.issue_raises he _ 0 hq rfl rfl⟩

end Sys2Proof

/-! ### Loads and stores of the stream engines (R425 to R427, R439, R441, R442) -/

namespace Sys2Proof.Machine

/-! #### Regions of the engine address map (Table 13-1) -/

theorem regionOf_imem {a n : Nat} (h : a + n ≤ 0x8000) : regionOf a n = .imem := if_pos h

theorem regionOf_ecr {a n : Nat} (h : 0x80000 ≤ a) (he : a + n ≤ 0x80100) : regionOf a n = .ecr := by
  have hi : ¬ a + n ≤ 0x8000 := by omega
  have hd : ¬ a + n ≤ 0x30000 := by omega
  simp [regionOf, hi, hd, h, he]

theorem regionOf_aperture {a n : Nat} (h : 0x100000000000 ≤ a) (he : a + n ≤ 0x200000000000) : regionOf a n = .aperture := by
  have hi : ¬ a + n ≤ 0x8000 := by omega
  have hd : ¬ a + n ≤ 0x30000 := by omega
  have hr : ¬ a + n ≤ 0x80100 := by omega
  simp [regionOf, hi, hd, hr, h, he]

theorem regionOf_outside {a n : Nat} (hr : ¬ (a + n ≤ 0x8000 ∨ 0x10000 ≤ a ∧ a + n ≤ 0x30000)) (he : ¬ (0x80000 ≤ a ∧ a + n ≤ 0x80100))
    (ha : ¬ (0x100000000000 ≤ a ∧ a + n ≤ 0x200000000000)) : regionOf a n = .outside := by
  rw [not_or] at hr
  obtain ⟨hi, hd⟩ := hr
  simp [regionOf, hi, hd, he, ha]

/-! #### The plan of a load, by its address -/

section
variable {w : Word32} {ecc : EccIn} {g : Eng} {pc : Nat}

theorem loadOf_misaligned (h : memAddr w g % memSize (opOf w) ≠ 0) : loadOf w ecc g pc = .raise pc 0x03 (memAddr w g) :=
  if_pos (by simpa using h)

variable (ha : memAddr w g % memSize (opOf w) = 0)
include ha

theorem loadOf_outside (hr : regionOf (memAddr w g) (memSize (opOf w)) = .outside) :
    loadOf w ecc g pc = .raise pc 0x04 (memAddr w g) := by
  simp [loadOf, ha, hr]

theorem loadOf_denied (hr : regionOf (memAddr w g) (memSize (opOf w)) = .aperture)
    (hw : windowsAllow g.windows (dramOf (memAddr w g)) (memSize (opOf w)) false = false) :
    loadOf w ecc g pc = .raise pc 0x04 (memAddr w g) := by
  simp [loadOf, ha, hr, hw]

theorem loadOf_aperture (hr : regionOf (memAddr w g) (memSize (opOf w)) = .aperture)
    (hw : windowsAllow g.windows (dramOf (memAddr w g)) (memSize (opOf w)) false = true) :
    loadOf w ecc g pc = { next := pc + 4, load := some ⟨xdOf w, dramOf (memAddr w g), memSize (opOf w), memSigned (opOf w)⟩ } := by
  simp [loadOf, ha, hr, hw, pcNext]

/-- What a load from the engine's own memory or its ECR does. -/
def loadPlan (w : Word32) (g : Eng) (pc : Nat) : Plan :=
  { effects := [.reg (xdOf w) (extendLoad (memSize (opOf w)) (memSigned (opOf w)) (leNat (g.readMem (memAddr w g) (memSize (opOf w)))))],
    next := pc + 4 }

theorem loadOf_own (hr : regionOf (memAddr w g) (memSize (opOf w)) ∈ [.imem, .dmem, .ecr]) (he : ecc ≠ .uncorrectable) :
    loadOf w ecc g pc = loadPlan w g pc := by
  simp only [List.mem_cons, List.not_mem_nil, or_false] at hr
  rcases hr with hr | hr | hr <;> simp [loadOf, loadPlan, ha, hr, he, pcNext]

theorem loadOf_uncorrectable (hr : regionOf (memAddr w g) (memSize (opOf w)) ∈ [.imem, .dmem]) :
    loadOf w .uncorrectable g pc = .raise pc 0x0A (memAddr w g) := by
  simp only [List.mem_cons, List.not_mem_nil, or_false] at hr
  rcases hr with hr | hr <;> simp [loadOf, ha, hr]

end

theorem memSize_load {op : Nat} (h : 0x10 ≤ op) (h' : op ≤ 0x16) : memSize op =
    if op = 0x10 ∨ op = 0x14 then 1 else if op = 0x11 ∨ op = 0x15 then 2 else if op = 0x12 ∨ op = 0x16 then 4 else 8 := by
  interval_cases op <;> rfl

/-! #### The plan of a store, by its address -/

section
variable {w : Word32} {busError : Bool} {g : Eng} {pc : Nat}

theorem storeOf_misaligned (h : memAddr w g % memSize (opOf w) ≠ 0) : storeOf w busError g pc = .raise pc 0x03 (memAddr w g) :=
  if_pos (by simpa using h)

variable (ha : memAddr w g % memSize (opOf w) = 0)
include ha

theorem storeOf_access (hr : regionOf (memAddr w g) (memSize (opOf w)) ∈ [.outside, .ecr]) :
    storeOf w busError g pc = .raise pc 0x04 (memAddr w g) := by
  simp only [List.mem_cons, List.not_mem_nil, or_false] at hr
  rcases hr with hr | hr <;> simp [storeOf, ha, hr]

theorem storeOf_own (hr : regionOf (memAddr w g) (memSize (opOf w)) ∈ [.imem, .dmem]) :
    storeOf w busError g pc =
      { effects := [.mem (memAddr w g) (natLe (g.reg (xdOf w)).toNat (memSize (opOf w)))], next := pc + 4 } := by
  simp only [List.mem_cons, List.not_mem_nil, or_false] at hr
  rcases hr with hr | hr <;> simp [storeOf, ha, hr, pcNext]

variable (hr : regionOf (memAddr w g) (memSize (opOf w)) = .aperture)
include hr

theorem storeOf_denied (hw : windowsAllow g.windows (dramOf (memAddr w g)) (memSize (opOf w)) true = false) :
    storeOf w busError g pc = .raise pc 0x04 (memAddr w g) := by
  simp [storeOf, ha, hr, hw]

theorem storeOf_busError (hw : windowsAllow g.windows (dramOf (memAddr w g)) (memSize (opOf w)) true = true) :
    storeOf w true g pc = .raise pc 0x05 (memAddr w g) := by
  simp [storeOf, ha, hr, hw]

theorem storeOf_dram (hw : windowsAllow g.windows (dramOf (memAddr w g)) (memSize (opOf w)) true = true) :
    storeOf w false g pc =
      { effects := [.dram (dramOf (memAddr w g)) (natLe (g.reg (xdOf w)).toNat (memSize (opOf w)))], next := pc + 4 } := by
  simp [storeOf, ha, hr, hw, pcNext]

end

theorem memSize_store {op : Nat} (h : 0x18 ≤ op) (h' : op ≤ 0x1B) :
    memSize op = if op = 0x18 then 1 else if op = 0x19 then 2 else if op = 0x1A then 4 else 8 := by
  interval_cases op <;> rfl

theorem Eng.writeMem_imem (g : Eng) {a : Nat} {bs : List Byte} (h : a + bs.length ≤ 0x8000) :
    g.writeMem a bs = { g with imem := Mem.write g.imem a bs, stale := (g.writeMem a bs).stale } := by
  simp only [Eng.writeMem, regionOf_imem h]

theorem Eng.writeMem_stale (g : Eng) {a : Nat} {bs : List Byte} (h : a + bs.length ≤ 0x8000) :
    (a / 4 * 4, g.wordAt (a / 4 * 4)) ∈ (g.writeMem a bs).stale ∧ ∀ y ∈ g.stale, y ∈ (g.writeMem a bs).stale := by
  simp only [Eng.writeMem, regionOf_imem h]
  exact ⟨List.mem_append_left _ List.mem_cons_self, fun y hy => List.mem_append_right _ hy⟩

/-- What a store to IMEM leaves: the words replaced kept with those kept before, and every other byte (R441). -/
theorem Chip.imemStore_leaves {c d : Chip} {n e a next : Nat} {bs : List Byte} {latch : Option (Nat × List Word32)}
    (h : a + bs.length ≤ 0x8000) (hc : CommitsLatch c d n e (fun g => g.writeMem a bs) next latch) :
    CommitsLatch c d n e (fun g => { g with imem := Mem.write g.imem a bs, stale := (d.engAt (engKey n e)).stale }) next latch ∧
    (a / 4 * 4, (c.engAt (engKey n e)).wordAt (a / 4 * 4)) ∈ (d.engAt (engKey n e)).stale ∧
    (∀ y ∈ (c.engAt (engKey n e)).stale, y ∈ (d.engAt (engKey n e)).stale) ∧
    ∀ x, x < a ∨ a + bs.length ≤ x → Mem.byte (d.engAt (engKey n e)).imem x = Mem.byte (c.engAt (engKey n e)).imem x := by
  obtain ⟨hengine, hrest⟩ := hc
  have hstale : (d.engAt (engKey n e)).stale = ((c.engAt (engKey n e)).writeMem a bs).stale := by rw [hengine]
  have himem : (d.engAt (engKey n e)).imem = Mem.write (c.engAt (engKey n e)).imem a bs :=
    (congrArg Eng.imem hengine).trans (congrArg Eng.imem (Eng.writeMem_imem _ h))
  obtain ⟨hold, hkept⟩ := (c.engAt (engKey n e)).writeMem_stale h
  refine ⟨⟨?_, hrest⟩, hstale ▸ hold, fun y hy => hstale ▸ hkept y hy, fun x hx => himem ▸ Mem.byte_write_out _ _ _ _ hx⟩
  rw [hstale]
  beta_reduce
  rw [← Eng.writeMem_imem _ h]
  exact hengine

/-! #### What enters an empty commit queue -/

@[simp] theorem Chip.useFree_engAt (c : Chip) (k : Nat) : c.useFree.engAt k = c.engAt k := rfl

/-- A load through the aperture enters an empty commit queue and waits there (R439). -/
theorem Chip.issue_waits (c : Chip) {k : Nat} (hq : (c.engAt k).queue = []) {pc next : Nat} (l : DramLoad) (miss : Nat) :
    let d := c.issue k ⟨pc, next, some l, none, []⟩ miss
    d.engAt k = { c.engAt k with
      state := .running, stall := 0, latched := none, cyc := (d.engAt k).cyc, queue := [⟨pc, next, some l, none, []⟩] } ∧
    (∀ j, j ≠ k → d.engAt j = c.engAt j) ∧ d.sec.clusters = c.sec.clusters ∧ d.sec.waiting = c.sec.waiting ∧
    d = { c with sec := d.sec, freeCount := c.freeCount + 1 } := by
  set y := (c.engAt k).cyc.spend c.freeNow 0 miss with hy
  set c1 := c.modEng k (fun g => g.started y) with hc1
  have hempty : (c1.engAt k).queue = [] := by rw [hc1, Chip.engAt_modEng_same]; exact hq
  have hd : c.issue k ⟨pc, next, some l, none, []⟩ miss =
      (c.modEng k (fun g => { g.started y with queue := [⟨pc, next, some l, none, []⟩] })).useFree := by
    have : c.issue k ⟨pc, next, some l, none, []⟩ miss = c1.useFree.drain k ((c1.engAt k).queue ++ [⟨pc, next, some l, none, []⟩]) := rfl
    rw [this, hempty]
    exact congrArg Chip.useFree (c.modEng_modEng k (fun g => g.started y) (fun g => { g with queue := [⟨pc, next, some l, none, []⟩] }))
  rw [hd]
  simp only [Chip.useFree_engAt]
  exact ⟨by rw [Chip.engAt_modEng_same]; rfl, fun j hj => Chip.engAt_modEng_ne c _ hj, rfl, rfl, rfl⟩

/-- A store to DRAM that enters an empty commit queue takes place, and commits over the memory it leaves (R439). -/
theorem Chip.issue_store (c : Chip) {k : Nat} (hq : (c.engAt k).queue = []) (pc next a : Nat) (bs : List Byte) (miss : Nat) :
    c.issue k ⟨pc, next, none, none, [.dram a bs]⟩ miss = (c.store a bs).issue k ⟨pc, next, none, none, []⟩ miss := by
  set y := (c.engAt k).cyc.spend c.freeNow 0 miss with hy
  set c1 : Chip := (c.modEng k (fun g => g.started y)).useFree with hc1
  have hempty : (c1.engAt k).queue = [] := by
    show ((c.modEng k (fun g => g.started y)).engAt k).queue = []
    rw [Chip.engAt_modEng_same]
    exact hq
  have hleft : c.issue k ⟨pc, next, none, none, [.dram a bs]⟩ miss = (c1.store a bs).drain k [⟨pc, next, none, none, []⟩] := by
    have : c.issue k ⟨pc, next, none, none, [.dram a bs]⟩ miss = c1.drain k ((c1.engAt k).queue ++ [⟨pc, next, none, none, [.dram a bs]⟩]) := rfl
    rw [this, hempty]
    rfl
  have hstore : ((c.store a bs).modEng k (fun g => g.started y)).useFree = c1.store a bs := by
    rw [hc1]
    refine Eq.trans ?_ (c.store_sec { c.sec with engs := Sparse.set {} c.sec.engs k ((c.engAt k).started y) } (c.freeCount + 1) a bs).symm
    rw [c.store_frame a bs]
    rfl
  have hright : (c.store a bs).issue k ⟨pc, next, none, none, []⟩ miss =
      ((c.store a bs).modEng k (fun g => g.started y)).useFree.drain k
        ((((c.store a bs).modEng k (fun g => g.started y)).useFree.engAt k).queue ++ [⟨pc, next, none, none, []⟩]) := by
    have hy' : ((c.store a bs).engAt k).cyc.spend (c.store a bs).freeNow 0 miss = y := by
      rw [Chip.store_engAt, hy, Chip.freeNow, c.store_frame a bs]
      rfl
    rw [← hy']
    rfl
  rw [hleft, hright, hstore, Chip.store_engAt, hempty]
  rfl

/-- The engine running again, as a reply makes it. -/
def Eng.resumed (g : Eng) : Eng := { g with state := .running, stall := 0 }

theorem Eng.resumed_setReg (g : Eng) (r : Nat) (v : Word64) : g.resumed.setReg r v = (g.setReg r v).resumed := by
  unfold Eng.setReg; split <;> rfl

section
variable {c : Chip} {n e : Nat} (he : e < 8)
include he

/-- The reply's value is written, and the load commits (R439). -/
theorem Chip.drain_resumed_commits (pc next r : Nat) (v : Word64) :
    Commits c ((c.modEng (engKey n e) Eng.resumed).drain (engKey n e) [⟨pc, next, none, none, [.reg r v]⟩]).useFree n e
      (fun g => { g.setReg r v with queue := [] }) next := by
  obtain ⟨hown, hothers, hcount, hregs, hclus, hwait, hframe⟩ :=
    (c.modEng (engKey n e) Eng.resumed).drain_one (n := n) he ⟨pc, next, none, none, [.reg r v]⟩ rfl rfl rfl
  refine ⟨?_, fun j hj => (hothers j hj).trans (Chip.engAt_modEng_ne _ _ hj), hcount, (RegsSame.of_regs rfl _).trans hregs, hclus, hwait, ?_⟩
  · rw [Chip.useFree_engAt, hown, Chip.engAt_modEng_same, Eng.applyAll_cons, Eng.applyAll_nil]
    simp only [Eng.apply, Eng.resumed_setReg]
    rfl
  · rw [hframe]
    rfl

/-- A load whose access failed raises its exception when the reply comes (R442). -/
theorem Chip.drain_resumed_raises (pc next cause addr : Nat) :
    Raises c ((c.modEng (engKey n e) Eng.resumed).drain (engKey n e) [⟨pc, next, none, some (cause, addr), []⟩]).useFree n e cause pc addr := by
  obtain ⟨hown, hothers, hhandled, hfaulted, hclus, hwait, hframe⟩ :=
    (c.modEng (engKey n e) Eng.resumed).drain_raises (n := n) he ⟨pc, next, none, some (cause, addr), []⟩ rfl rfl
  rw [Chip.engAt_modEng_same] at hown hhandled hfaulted
  exact ⟨hown, fun j hj => (hothers j hj).trans (Chip.engAt_modEng_ne _ _ hj), fun hh => (RegsSame.of_regs rfl _).trans (hhandled hh),
    fun hh => ⟨(RegsSame.of_regs rfl _).trans (hfaulted hh).1, (hfaulted hh).2⟩, hclus, hwait, hframe⟩

end

end Sys2Proof.Machine

namespace Sys2Proof
open Sys2Proof.Machine

section
variable {s : State} {n e : Nat} {w : Word32} (h : Fetched s n e w) (hl : legalWord w = true)
include h hl

section
variable (ho : 0x10 ≤ opOf w) (ho' : opOf w ≤ 0x16)
include ho ho'

omit hl in
/-- A load, with no store ahead of it, is a row over the chip that has counted a corrected error (R426). -/
theorem Fetched.load_row (ecc : EccIn) :
    Yields (.loadInstruction n e w ecc) s ((s.chip.engEcc (engKey n e) w ecc).row n e w true [xaOf w] (loadOf w ecc)) := by
  have hempty : (s.chip.engAt (engKey n e)).lineBusy (dramOf (memAddr w (s.chip.engAt (engKey n e)))) = false := by
    simp [Eng.lineBusy, h.2.2.2.2]
  refine h.yields rfl ?_
  simp [loadInstruction, ho, ho', Eng.view_of_empty h.2.2.2.2, hempty]

omit hl in
theorem Fetched.load_row_uncorrected {ecc : EccIn} (hc : ecc ≠ .corrected) :
    Yields (.loadInstruction n e w ecc) s (s.chip.row n e w true [xaOf w] (loadOf w ecc)) :=
  Chip.engEcc_uncorrected s.chip (engKey n e) w hc ▸ h.load_row ho ho' ecc

theorem Fetched.load_raises {ecc : EccIn} (hc : ecc ≠ .corrected) {cause addr : Nat}
    (hp : loadOf w ecc (s.chip.engAt (engKey n e)) (s.chip.engAt (engKey n e)).pc = .raise (s.chip.engAt (engKey n e)).pc cause addr) :
    Completes (.loadInstruction n e w ecc) s (fun d => Raises s.chip d n e cause (s.chip.engAt (engKey n e)).pc addr) :=
  h.raises hl rfl (h.load_row_uncorrected ho ho' hc) hp rfl rfl

end

theorem Fetched.store_raises (ho : 0x18 ≤ opOf w) (ho' : opOf w ≤ 0x1B) {busError : Bool} {cause addr : Nat}
    (hp : storeOf w busError (s.chip.engAt (engKey n e)) (s.chip.engAt (engKey n e)).pc = .raise (s.chip.engAt (engKey n e)).pc cause addr) :
    Completes (.storeInstruction n e w busError) s (fun d => Raises s.chip d n e cause (s.chip.engAt (engKey n e)).pc addr) :=
  h.raises hl (by simp [ho, ho']) (h.yields rfl rfl) hp rfl rfl

end

/-- Settles O6: a load by the region of its address and what its read found, a reply by what it brings. -/
theorem engineLoadsCommitOrTrap : Obligations.EngineLoadsCommitOrTrap := by
  refine ⟨?_, ?_⟩
  · intro s n e w ecc h hl ho ho'
    rw [← memSize_load ho ho']
    intro g pc a size sg ram ecr aperture loads traps
    have own (hr : ram ∨ ecr) : regionOf a size ∈ [.imem, .dmem, .ecr] := by
      rcases hr with (hr | hr) | hr
      · simp [regionOf_imem hr]
      · simp [regionOf_dmem hr.1 hr.2]
      · simp [regionOf_ecr hr.1 hr.2]
    refine ⟨fun ha hr hc => ?_, fun ha hr hc => ?_, fun ha hr hc => ?_, fun ha hr hc hw => ?_, fun hc ha => ?_, fun hc ha hr hw => ?_,
      fun hc ha hr he hp => ?_⟩
    · subst hc
      exact h.commits hl rfl (h.load_row_uncorrected ho ho' (by decide)) (loadOf_own ha (own hr) (by decide)) rfl rfl rfl rfl rfl
    · subst hc
      have hcount : s.chip.engEcc (engKey n e) w .corrected = s.chip.bump (R.SEC_ENG_CNT_ECC_ECC n e) 1 := by
        obtain ⟨-, he, -, hready, -⟩ := h
        simp [Chip.engEcc, hready, engKey_div he, engKey_mod he]
      have hbump : (s.chip.bump (R.SEC_ENG_CNT_ECC_ECC n e) 1).engAt (engKey n e) = g := Chip.bump_engAt _ _ _ _
      have hcounted : Fetched { s with chip := s.chip.bump (R.SEC_ENG_CNT_ECC_ECC n e) 1 } n e w := by
        obtain ⟨hn, he, ha, hready, hq⟩ := h
        exact ⟨hn, he, by simpa [Chip.awake, Chip.inService] using ha, hbump ▸ hready, hbump ▸ hq⟩
      have hc := Chip.row_commits hcounted rfl hl [xaOf w] (loadOf w .corrected) (p := loadPlan w g pc)
        (by rw [hbump]; exact loadOf_own ha (own (.inl hr)) (by decide)) rfl rfl rfl
      exact ⟨_, hcount ▸ h.load_row ho ho' .corrected, Chip.commits_of_engAt hc (by rw [hbump]; rfl)⟩
    · subst hc
      have hram : regionOf a size ∈ [.imem, .dmem] := by
        rcases hr with hr | hr
        · simp [regionOf_imem hr]
        · simp [regionOf_dmem hr.1 hr.2]
      exact h.load_raises hl ho ho' (by decide) (loadOf_uncorrectable ha hram)
    · subst hc
      have hp := loadOf_aperture (w := w) (ecc := .clean) (pc := pc) ha (regionOf_aperture hr.1 hr.2) hw
      refine ⟨_, h.load_row_uncorrected ho ho' (by decide), ?_⟩
      rw [Chip.row_issue h rfl hl _ _ hp]
      exact s.chip.issue_waits h.2.2.2.2 _ 0
    · subst hc
      exact h.load_raises hl ho ho' (by decide) (loadOf_misaligned ha)
    · subst hc
      exact h.load_raises hl ho ho' (by decide) (loadOf_denied ha (regionOf_aperture hr.1 hr.2) hw)
    · subst hc
      exact h.load_raises hl ho ho' (by decide) (loadOf_outside ha (regionOf_outside hr he hp))
  · intro s n e busError pc next l g hn he ha hs hq
    have hrun : (g.state == .running || g.state == .stalled) = true := by simpa using hs
    have hy {d : Chip} (hd : dramLoadReply n e busError s.chip = d) : Yields (.dramLoadReply n e busError) s d :=
      Yields.awake ha rfl (by simp [hn, he]) hd
    refine ⟨fun hb hp => ⟨_, hy (d := ((s.chip.modEng (engKey n e) Eng.resumed).drain (engKey n e)
      [⟨pc, next, none, none, [.reg l.dest (extendLoad l.size l.signed (s.chip.loadNat l.addr l.size))]⟩])) ?_,
        s.chip.drain_resumed_commits he pc next _ _⟩,
      fun hb => ⟨_, hy (d := ((s.chip.modEng (engKey n e) Eng.resumed).drain (engKey n e)
        [⟨pc, next, none, some (0x05, apertureOf l.addr), []⟩])) ?_, s.chip.drain_resumed_raises he pc next _ _⟩⟩
    · simp only [dramLoadReply, g] at hrun hq ⊢
      simp only [hrun, hq, if_true, resolveLoad, hb, hp, Bool.or_false, Bool.false_eq_true, if_false]
      rfl
    · have hfail : (busError || s.chip.poisonedAt l.addr l.size) = true := by simpa using hb
      simp only [dramLoadReply, g] at hrun hq ⊢
      simp only [hrun, hq, if_true, resolveLoad, hfail]
      rfl

/-- Settles O7: a store by the region of its address. -/
theorem engineStoresCommitOrTrap : Obligations.EngineStoresCommitOrTrap := by
  intro s n e w busError h hl ho ho'
  rw [← memSize_store ho ho']
  intro g pc a size bytes imem dmem aperture traps
  have hlen : bytes.length = size := natLe_length _ _
  have hrow : (decide (0x18 ≤ opOf w) && decide (opOf w ≤ 0x1B)) = true := by simp [ho, ho']
  have hyield : Yields (.storeInstruction n e w busError) s (s.chip.row n e w
    (decide (0x18 ≤ opOf w) && decide (opOf w ≤ 0x1B)) [xaOf w, xdOf w] (storeOf w busError)) := h.yields rfl rfl
  refine ⟨fun ha hr => ?_, fun ha hr => ?_, fun ha hr hw hb => ?_, fun ha hr hw hb => ?_, fun ha hr hw => ?_, fun ha hi hd hp => ?_,
    fun ha => ?_⟩
  · have hreg : regionOf a size = .dmem := regionOf_dmem hr.1 hr.2
    have hown : regionOf a size ∈ [.imem, .dmem] := by simp [hreg]
    have hany : [Effect.mem a bytes].any storesImem = false := by simp [storesImem, hlen, hreg]
    obtain ⟨d, hd, hc⟩ := h.commits hl hrow hyield (storeOf_own ha hown) (f := fun g => { g with dmem := Mem.write g.dmem a bytes })
      rfl rfl rfl hany (g.writeMem_dmem hr.1 (hlen ▸ hr.2))
    exact ⟨d, hd, hc, fun x hx => by rw [hc.1]; exact Mem.byte_write_out _ _ _ _ (hlen.symm ▸ hx)⟩
  · have hreg : regionOf a size = .imem := regionOf_imem hr
    have hown : regionOf a size ∈ [.imem, .dmem] := by simp [hreg]
    have hany : [Effect.mem a bytes].any storesImem = true := by simp [storesImem, hlen, hreg]
    have hfits : a + bytes.length ≤ 0x8000 := hlen.symm ▸ hr
    have hc : CommitsLatch s.chip _ n e (fun g => g.writeMem a bytes) (pc + 4)
        (if [Effect.mem a bytes].any storesImem then some (pc + 4, g.copiesAt (pc + 4)) else none) :=
      Chip.row_commits h hrow hl [xaOf w, xdOf w] (storeOf w busError) (storeOf_own ha hown) rfl rfl rfl
    rw [if_pos hany] at hc
    have hstored := Chip.imemStore_leaves hfits hc
    rw [hlen] at hstored
    exact ⟨_, hyield, hstored⟩
  · subst hb
    have hreg := regionOf_aperture hr.1 hr.2
    refine ⟨_, hyield, ?_⟩
    rw [Chip.row_issue h hrow hl _ _ (storeOf_dram ha hreg hw), Chip.issue_store _ h.2.2.2.2]
    have hempty : ((s.chip.store (dramOf a) bytes).engAt (engKey n e)).queue = [] := by rw [Chip.store_engAt]; exact h.2.2.2.2
    exact (s.chip.store (dramOf a) bytes).issue_commits h.2.1 _ _ hempty rfl rfl rfl
  · subst hb
    exact h.store_raises hl ho ho' (storeOf_busError ha (regionOf_aperture hr.1 hr.2) hw)
  · exact h.store_raises hl ho ho' (storeOf_denied ha (regionOf_aperture hr.1 hr.2) hw)
  · have hreg : regionOf a size ∈ [.outside, .ecr] := by
      by_cases he : 0x80000 ≤ a ∧ a + size ≤ 0x80100
      · simp [regionOf_ecr he.1 he.2]
      · simp [regionOf_outside (not_or.2 ⟨hi, hd⟩) he hp]
    exact h.store_raises hl ho ho' (storeOf_access ha hreg)
  · exact h.store_raises hl ho ho' (storeOf_misaligned ha)

end Sys2Proof

/-! ### Accelerator instructions and WFW (R445, R447 to R451) -/

namespace Sys2Proof.Machine

/-! #### Registers, lists and stalls -/

theorem Eng.reg_setReg_same (g : Eng) {r : Nat} (h : r ≠ 0) (v : Word64) : (g.setReg r v).reg r = v := by
  simp [Eng.setReg, Eng.reg, h, Sparse.get_set_same]

theorem Eng.reg_setReg_ne (g : Eng) {r q : Nat} (h : q ≠ r) (v : Word64) : (g.setReg r v).reg q = g.reg q := by
  unfold Eng.setReg
  split
  · rfl
  · simp [Eng.reg, Sparse.get_set_ne _ _ _ _ h]

theorem modifyFirst_append_single {α : Type} {p : α → Bool} {f : α → α} {l : List α} (hl : ∀ x ∈ l, p x = false) {x : α} (hx : p x = true) :
    modifyFirst p f (l ++ [x]) = l ++ [f x] := by
  induction l with
  | nil => simp [modifyFirst, hx]
  | cons a l ih =>
    rw [List.forall_mem_cons] at hl
    simp [modifyFirst, hl.1, ih hl.2]

/-- An engine that waits in a row of Table 13-10: nothing else moves (log entry 12). -/
theorem Chip.stallEng_leaves (c : Chip) (k row : Nat) :
    let d := c.stallEng k row
    d.engAt k = { c.engAt k with state := .stalled, stall := row, cyc := (d.engAt k).cyc } ∧ (∀ i, i ≠ k → d.engAt i = c.engAt i) ∧
    d = { c with sec := d.sec, freeCount := c.freeCount + 1 } := by
  simp only [Chip.stallEng, Chip.useFree_engAt]
  exact ⟨by rw [Chip.engAt_modEng_same], fun i hi => Chip.engAt_modEng_ne c _ hi, rfl⟩

/-! #### A job sent and released at its commit (R447 to R449) -/

/-- Two chips whose registers, engines and clusters are the same. -/
def SameCore (c d : Chip) : Prop := d.regs = c.regs ∧ d.sec = c.sec

theorem Chip.sendJob_core {c : Chip} {i : Issuer} {cls pool : Nat} {d : List Byte} (h : c.portAllows i cls pool d = true) :
    SameCore c (c.sendJob i cls pool d) := by
  unfold Chip.portAllows at h
  unfold Chip.sendJob
  split at h
  · unfold Chip.submitDigest
    split
    · exact ⟨rfl, rfl⟩
    · rw [if_pos h]; exact ⟨rfl, rfl⟩
  · unfold Chip.submitCipher
    split
    · exact ⟨rfl, rfl⟩
    · rw [if_neg (by simp [h])]; exact ⟨rfl, rfl⟩
  · unfold Chip.submitCmp
    split
    · exact ⟨rfl, rfl⟩
    · rw [if_neg (by simp [h])]; exact ⟨rfl, rfl⟩
  · unfold Chip.submitRde
    split
    · exact ⟨rfl, rfl⟩
    · rw [if_neg (by simp [h])]; exact ⟨rfl, rfl⟩
  · exact ⟨rfl, rfl⟩

theorem Chip.unhold_core (c : Chip) (cls handle : Nat) : SameCore c (c.unhold cls handle) := by
  unfold Chip.unhold; split <;> exact ⟨rfl, rfl⟩

/-- The oldest instruction releases its job first, and then has its other effects. -/
theorem Chip.drain_release (c : Chip) (k pc next port entry : Nat) {l : List Effect} (him : l.any storesImem = false) :
    c.drain k [⟨pc, next, none, none, .release port entry :: l⟩] = (c.releaseJob k port entry).drain k [⟨pc, next, none, none, l⟩] := by
  have hall : (Effect.release port entry :: l).any storesImem = false := by rw [List.any_cons, him]; rfl
  simp only [Chip.drain, Chip.commitOne, List.foldl_cons, hall, him, Bool.and_false, Bool.false_eq_true, if_false]
  rfl

section
variable {c : Chip} {k port entry : Nat} {j : PortJob}
  (hj : (c.clusAt (k / 8)).jobs.find? (fun j => j.port == port && j.entry == entry) = some j) (hs : j.status ≠ statusDenied)
include hj hs

/-- R449: the release of a job that its port has not denied. -/
theorem Chip.releaseJob_released : c.releaseJob k port entry =
    ((c.modJob (k / 8) port entry (fun x => { x with state := .committed, windows := (c.engAt k).windows })).unhold j.cls j.handle).bump
      (R.SEC_ENG_CNT_JOBS_JOBS (k / 8) (k % 8)) 1 := by
  simp [Chip.releaseJob, hj, hs]

theorem Chip.releaseJob_engAt (i : Nat) : (c.releaseJob k port entry).engAt i = c.engAt i := by
  rw [Chip.releaseJob_released hj hs, Chip.bump_engAt]
  exact Chip.engAt_of_engs (by rw [(Chip.unhold_core _ _ _).2]; rfl) i

theorem Chip.releaseJob_clusters : (c.releaseJob k port entry).sec.clusters =
    (c.modJob (k / 8) port entry (fun x => { x with state := .committed, windows := (c.engAt k).windows })).sec.clusters := by
  rw [Chip.releaseJob_released hj hs, Chip.bump_sec, (Chip.unhold_core _ _ _).2]

theorem Chip.releaseJob_jobs : (c.releaseJob k port entry).get (R.SEC_ENG_CNT_JOBS_JOBS (k / 8) (k % 8)) =
    trunc (R.SEC_ENG_CNT_JOBS_JOBS (k / 8) (k % 8)).width (c.get (R.SEC_ENG_CNT_JOBS_JOBS (k / 8) (k % 8)) + 1) := by
  rw [Chip.releaseJob_released hj hs, Chip.bump, Chip.get_set_same, Chip.get_of_regs (Chip.unhold_core _ _ _).1]
  rfl

/-- A release goes the same way where the engine has been set running and a free value used up. -/
theorem Chip.releaseJob_started (y : Cycles) : ((c.modEng k (fun g => g.started y)).useFree).releaseJob k port entry =
    ((c.releaseJob k port entry).modEng k (fun g => g.started y)).useFree := by
  have hw : (((c.modEng k (fun g => g.started y)).useFree).engAt k).windows = (c.engAt k).windows := by
    rw [Chip.useFree_engAt, Chip.engAt_modEng_same]; rfl
  rw [Chip.releaseJob_released (c := (c.modEng k (fun g => g.started y)).useFree) hj hs, hw, Chip.releaseJob_released hj hs]
  unfold Chip.unhold
  split <;> rfl

/-- A release that enters an empty commit queue takes place, and what follows it commits over what it leaves. -/
theorem Chip.issue_release (hq : (c.engAt k).queue = []) (pc next : Nat) {l : List Effect} (him : l.any storesImem = false) (miss : Nat) :
    c.issue k ⟨pc, next, none, none, .release port entry :: l⟩ miss = (c.releaseJob k port entry).issue k ⟨pc, next, none, none, l⟩ miss := by
  set y := (c.engAt k).cyc.spend c.freeNow 0 miss with hy
  have hfree : (c.releaseJob k port entry).freeCount = c.freeCount := by
    rw [Chip.releaseJob_released hj hs, Chip.bump_freeCount]
    unfold Chip.unhold
    split <;> rfl
  have hy' : ((c.releaseJob k port entry).engAt k).cyc.spend (c.releaseJob k port entry).freeNow 0 miss = y := by
    rw [Chip.releaseJob_engAt hj hs, Chip.freeNow, hfree, hy, Chip.freeNow]
  have hempty : (((c.modEng k (fun g => g.started y)).useFree).engAt k).queue = [] := by
    rw [Chip.useFree_engAt, Chip.engAt_modEng_same]; exact hq
  have hleft : c.issue k ⟨pc, next, none, none, .release port entry :: l⟩ miss =
      (c.modEng k (fun g => g.started y)).useFree.drain k
        ((((c.modEng k (fun g => g.started y)).useFree).engAt k).queue ++ [⟨pc, next, none, none, .release port entry :: l⟩]) := rfl
  have hright : (c.releaseJob k port entry).issue k ⟨pc, next, none, none, l⟩ miss =
      ((c.releaseJob k port entry).modEng k (fun g => g.started y)).useFree.drain k
        ((((c.releaseJob k port entry).modEng k (fun g => g.started y)).useFree.engAt k).queue ++ [⟨pc, next, none, none, l⟩]) := by
    rw [← hy']; rfl
  have hempty' : ((((c.releaseJob k port entry).modEng k (fun g => g.started y)).useFree).engAt k).queue = [] := by
    rw [Chip.useFree_engAt, Chip.engAt_modEng_same, Chip.releaseJob_engAt hj hs]; exact hq
  rw [hleft, hright, hempty, hempty', ← Chip.releaseJob_started hj hs]
  exact Chip.drain_release _ k pc next port entry him

end

section
variable (c : Chip) (k port entry desc res cls : Nat)

/-- The body of a job's descriptor, its pool stamped in (R447). -/
def Chip.aissBody : List Byte :=
  ((c.engAt k).readMem desc (descBytes cls)).take 2 ++ natLe (c.poolOf (k / 8)) 1 ++ ((c.engAt k).readMem desc (descBytes cls)).drop 3

/-- The next sequence number of a port's entry (R448). -/
def Chip.aissSeq : Nat := (Sparse.get 0 (c.clusAt (k / 8)).seqs (port * 64 + entry) + 1) % 0x1000000

/-- The ticket of a job that takes a port's entry next (R448). -/
def Chip.aissTicket : Nat := port + 4 * entry + 256 * c.aissSeq k port entry

/-- The port's job of an AISS that its port lets pass. -/
def Chip.aissJob : PortJob :=
  { port := port, entry := entry, seq := c.aissSeq k port entry, eng := k, cls := cls, handle := c.nextHandleOf cls (c.poolOf (k / 8))
    resAddr := res, workId := ((c.engAt k).item.map (·.workId)).getD 0, state := .held, status := 0
    body := if 5 ≤ cls then c.aissBody k desc cls else [] }

/-- The chip with the job of an AISS at its unit and in its cluster, held. -/
def Chip.aissHeld : Chip :=
  (c.sendJob ⟨some k, c.aissTicket k port entry, res, true⟩ cls (c.poolOf (k / 8)) (c.aissBody k desc cls)).modClus (k / 8) (fun cl =>
    { cl with
      jobs := cl.jobs.filter (fun x => !(x.port == port && x.entry == entry)) ++ [c.aissJob k port entry desc res cls]
      seqs := Sparse.set 0 cl.seqs (port * 64 + entry) (c.aissSeq k port entry) })

variable {c k port entry desc res cls}
  (hp : c.portAllows ⟨some k, c.aissTicket k port entry, res, true⟩ cls (c.poolOf (k / 8)) (c.aissBody k desc cls) = true)
include hp

theorem Chip.aissSend_issues (hq : (c.engAt k).queue = []) (pc : Nat) (w : Word32) :
    ∃ v, c.aissSend k pc w cls port entry desc res = (c.aissHeld k port entry desc res cls).issue k
        ⟨pc, pcNext pc, none, none, [.release port entry, .reg (xdOf w) v]⟩ 0 ∧
      ((cls ≠ 2 ∨ bsNat (c.aissBody k desc cls) 0 1 ≠ 2) → v = BitVec.ofNat 64 (c.aissTicket k port entry)) := by
  refine ⟨BitVec.ofNat 64 (c.aissTicket k port entry + if cls == 2 && bsNat (c.aissBody k desc cls) 0 1 == 2 then
    c.nextHandleOf cls (c.poolOf (k / 8)) % 2 ^ 32 * 2 ^ 32 else 0), ?_, fun hv => ?_⟩
  · unfold Chip.aissTicket Chip.aissBody Chip.aissSeq at hp
    unfold Chip.aissSend Chip.aissHeld Chip.aissJob Chip.aissTicket Chip.aissBody Chip.aissSeq
    rw [Eng.view_of_empty hq]
    simp only [hp, if_true]
  · rw [if_neg (by simpa [imp_iff_not_or] using hv), Nat.add_zero]

/-- R447 to R449: an AISS that its port lets pass commits its ticket over a chip in which its job stands committed with the engine's windows. -/
theorem Chip.aissSend_commits {n e : Nat} (hk : k = engKey n e) (he : e < 8) (hq : (c.engAt k).queue = []) (w : Word32) :
    ∃ c' v, Commits c' (c.aissSend k (c.engAt k).pc w cls port entry desc res) n e (fun g => g.setReg (xdOf w) v) ((c.engAt k).pc + 4) ∧
      ((cls ≠ 2 ∨ bsNat (c.aissBody k desc cls) 0 1 ≠ 2) → v = BitVec.ofNat 64 (c.aissTicket k port entry)) ∧
      (∀ i, c'.engAt i = c.engAt i) ∧
      { c.aissJob k port entry desc res cls with state := .committed, windows := (c.engAt k).windows } ∈ (c'.clusAt n).jobs ∧
      c'.get (R.SEC_ENG_CNT_JOBS_JOBS n e) = trunc (R.SEC_ENG_CNT_JOBS_JOBS n e).width (c.get (R.SEC_ENG_CNT_JOBS_JOBS n e) + 1) := by
  obtain ⟨hregs, hsec⟩ := Chip.sendJob_core hp
  set held := c.aissHeld k port entry desc res cls with hheld
  have heng (i : Nat) : held.engAt i = c.engAt i := Chip.engAt_of_engs (congrArg Sec.engs hsec) i
  have hjobs : (held.clusAt (k / 8)).jobs = (c.clusAt (k / 8)).jobs.filter (fun x => !(x.port == port && x.entry == entry)) ++
      [c.aissJob k port entry desc res cls] := by
    rw [hheld, Chip.aissHeld, Chip.clusAt_modClus_same, Chip.clusAt, hsec]
    rfl
  have hfree : ∀ x ∈ (c.clusAt (k / 8)).jobs.filter (fun x => !(x.port == port && x.entry == entry)),
      (x.port == port && x.entry == entry) = false := fun x hx => (Bool.not_eq_true' _).to_iff.1 (List.mem_filter.1 hx).2
  have hmine : ((c.aissJob k port entry desc res cls).port == port && (c.aissJob k port entry desc res cls).entry == entry) = true := by
    simp [Chip.aissJob]
  have hfind : (held.clusAt (k / 8)).jobs.find? (fun j => j.port == port && j.entry == entry) = some (c.aissJob k port entry desc res cls) := by
    rw [hjobs, List.find?_append, List.find?_eq_none.2 (fun x hx => by simp [hfree x hx])]
    simp [hmine]
  have hs : (c.aissJob k port entry desc res cls).status ≠ statusDenied := by simp [Chip.aissJob, statusDenied]
  obtain ⟨v, hd, hv⟩ := Chip.aissSend_issues hp hq (c.engAt k).pc w
  have hempty : (held.engAt k).queue = [] := by rw [heng]; exact hq
  refine ⟨held.releaseJob k port entry, v, ?_, hv, fun i => (Chip.releaseJob_engAt hfind hs i).trans (heng i), ?_, ?_⟩
  · rw [hd, Chip.issue_release hfind hs hempty _ _ rfl]
    subst hk
    have hpc : ((held.releaseJob (engKey n e) port entry).engAt (engKey n e)).pc = (c.engAt (engKey n e)).pc := by
      rw [Chip.releaseJob_engAt hfind hs, heng]
    rw [← hpc]
    exact Chip.issue_setReg_commits he _ (by rw [Chip.releaseJob_engAt hfind hs]; exact hempty) _ _
  · have hn : k / 8 = n := by rw [hk, engKey_div he]
    rw [Chip.clusAt, Chip.releaseJob_clusters hfind hs, ← hn]
    show _ ∈ ((held.modJob (k / 8) port entry _).clusAt (k / 8)).jobs
    rw [Chip.modJob, Chip.clusAt_modClus_same, hjobs, modifyFirst_append_single hfree hmine, heng]
    simp
  · have hn : k / 8 = n := by rw [hk, engKey_div he]
    have hm : k % 8 = e := by rw [hk, engKey_mod he]
    have hcount := Chip.releaseJob_jobs hfind hs
    rw [hn, hm] at hcount
    rw [hcount]
    exact congrArg (fun x => trunc _ (x + 1)) (Chip.get_of_regs hregs _)

end

/-- An engine that takes an item has it in its ECR, and KIND in its register (R445). -/
theorem Chip.takeItem_commits {c : Chip} {n e : Nat} (he : e < 8) (hq : (c.engAt (engKey n e)).queue = []) (r : Nat) (i : WorkItem) :
    Commits { c with sec := { c.sec with waiting := c.sec.waiting.filter (fun x => x.workId != i.workId) } }
      ((c.modEng (engKey n e) (fun g => { g with item := none, doneSent := false, wfwDest := r })).takeItem (engKey n e) i) n e
      (fun g => { g.setReg r (BitVec.ofNat 64 i.kind) with item := some i, doneSent := false, queued := none, wfwDest := r })
      ((c.engAt (engKey n e)).pc + 4) := by
  set d : Chip := { c with sec := { c.sec with waiting := c.sec.waiting.filter (fun x => x.workId != i.workId) } } with hd
  set f : Eng → Eng := fun g => { g with item := some i, doneSent := false, queued := none, wfwDest := r } with hf
  have hown : (d.modEng (engKey n e) f).engAt (engKey n e) = f (c.engAt (engKey n e)) := Chip.engAt_modEng_same d _ f
  have htake : (c.modEng (engKey n e) (fun g => { g with item := none, doneSent := false, wfwDest := r })).takeItem (engKey n e) i =
      (d.modEng (engKey n e) f).issue (engKey n e) ⟨(c.engAt (engKey n e)).pc, pcNext (c.engAt (engKey n e)).pc, none, none,
        [.reg r (BitVec.ofNat 64 i.kind)]⟩ 0 := by
    unfold Chip.takeItem
    rw [Chip.modEng_modEng]
    change (d.modEng (engKey n e) f).issue (engKey n e) ⟨((d.modEng (engKey n e) f).engAt (engKey n e)).pc,
      pcNext ((d.modEng (engKey n e) f).engAt (engKey n e)).pc, none, none,
      [.reg ((d.modEng (engKey n e) f).engAt (engKey n e)).wfwDest (BitVec.ofNat 64 i.kind)]⟩ 0 = _
    rw [hown]
  rw [htake]
  have hc := Chip.issue_commits (d.modEng (engKey n e) f) he ⟨(c.engAt (engKey n e)).pc, pcNext (c.engAt (engKey n e)).pc, none, none,
        [.reg r (BitVec.ofNat 64 i.kind)]⟩ 0 (by rw [hown]; exact hq) rfl rfl rfl
  refine Chip.commits_of_engAt (Chip.commits_of_modEng hc rfl) ?_
  show (f (c.engAt (engKey n e))).setReg r (BitVec.ofNat 64 i.kind) = _
  unfold Eng.setReg
  split <;> rfl

/-- An engine whose item has ended has none to dispose of. -/
theorem Chip.dropItem_over {c : Chip} {k : Nat} (h : (c.engAt k).item = none ∨ (c.engAt k).doneSent = true) :
    c.dropItem k = c.modEng k (fun g => { g with item := none, doneSent := false }) := by
  unfold Chip.dropItem
  dsimp only
  split
  case h_1 i hi => exact if_pos (h.resolve_left (by simp [hi]))
  case h_2 => rfl

end Sys2Proof.Machine

namespace Sys2Proof
open Sys2Proof.Machine

section
variable {s : State} {n e : Nat} {w : Word32} (h : Fetched s n e w) (hl : legalWord w = true)
include h hl

section
variable (ho : opOf w = 0x30)
include ho

theorem Fetched.aiss_denied (hf : fld w 0 3 = 0) (hp : bitOf (s.chip.engAt (engKey n e)).ports (fld w 3 2) = false ∨ fld w 5 4 = 0 ∨ 6 < fld w 5 4) :
    Completes (.aiss n e w) s (fun d => Raises s.chip d n e 0x07 (s.chip.engAt (engKey n e)).pc 0) := by
  have hexc (desc res : Nat) : aissExc (s.chip.engAt (engKey n e)) (fld w 5 4) (fld w 3 2) desc res = some (0x07, 0) :=
    if_pos (by simpa [or_assoc] using hp)
  have hd : aiss n e w s.chip = s.chip.issue (engKey n e)
      ⟨(s.chip.engAt (engKey n e)).pc, (s.chip.engAt (engKey n e)).pc, none, some (0x07, 0), []⟩ 0 := by
    obtain ⟨-, -, -, hr, hq⟩ := h
    simp [aiss, ho, hf, hl, hr, hq, Eng.awaits_of_empty hq, Eng.view_of_empty hq, Eng.fetchPc_of_empty hq, hexc]
  have hy := h.yields (i := .aiss n e w) rfl hd
  obtain ⟨-, he, -, -, hq⟩ := h
  exact ⟨_, hy, s.chip.issue_raises he _ 0 hq rfl rfl⟩

theorem Fetched.aiss_sends (hf : fld w 0 3 = 0) {entry desc res : Nat} (hdesc : ((s.chip.engAt (engKey n e)).reg (xaOf w)).toNat = desc)
    (hres : ((s.chip.engAt (engKey n e)).reg (xbOf w)).toNat = res)
    (hx : aissExc (s.chip.engAt (engKey n e)) (fld w 5 4) (fld w 3 2) desc res = none)
    (hentry : s.chip.freeEntry n (fld w 3 2) = some entry) (hheld : (s.chip.jobsHeld (engKey n e)).length < 8)
    (hroom : s.chip.unitRoom (fld w 5 4) (s.chip.poolOf n) ((s.chip.engAt (engKey n e)).readMem desc (descBytes (fld w 5 4))) = true) :
    Yields (.aiss n e w) s
      (s.chip.aissSend (engKey n e) (s.chip.engAt (engKey n e)).pc w (fld w 5 4) (fld w 3 2) entry desc res) := by
  subst hdesc hres
  refine h.yields rfl ?_
  obtain ⟨-, -, -, hr, hq⟩ := h
  have hstores : (s.chip.engAt (engKey n e)).storesPending = false := by simp [Eng.storesPending, hq]
  simp [aiss, ho, hf, hl, hr, hq, Eng.awaits_of_empty hq, Eng.view_of_empty hq, Eng.fetchPc_of_empty hq, hx, hentry, not_le.2 hheld, hroom,
    hstores]

/-- AWAIT, by the job that its ticket names (R448). -/
theorem Fetched.await_answers (hf : fld w 0 3 = 1) : Yields (.await n e w) s
    (match s.chip.jobOf (engKey n e) (((s.chip.engAt (engKey n e)).reg (xaOf w)).toNat % 2 ^ 32) with
      | none => s.chip.issue (engKey n e) ⟨(s.chip.engAt (engKey n e)).pc, pcNext (s.chip.engAt (engKey n e)).pc, none, none,
          [.reg (xdOf w) 0xFF]⟩ 0
      | some j => if j.state = .ended then s.chip.issue (engKey n e)
          ⟨(s.chip.engAt (engKey n e)).pc, pcNext (s.chip.engAt (engKey n e)).pc, none, none, [.reg (xdOf w) (BitVec.ofNat 64 j.status)]⟩ 0
        else s.chip.stallEng (engKey n e) 7) := by
  refine h.yields rfl ?_
  obtain ⟨-, -, -, hr, hq⟩ := h
  simp [await, ho, hf, hl, hr, hq, Eng.awaits_of_empty hq, Eng.view_of_empty hq, Eng.fetchPc_of_empty hq] <;> rfl

/-- ACAN cancels the job that its ticket names, and commits over what that leaves (R451). -/
theorem Fetched.acan_commits (hf : fld w 0 3 = 2)
    (hq : ((s.chip.cancelJob (engKey n e) (((s.chip.engAt (engKey n e)).reg (xaOf w)).toNat % 2 ^ 32)).engAt (engKey n e)).queue = []) :
    Completes (.acan n e w) s (fun d =>
      Commits (s.chip.cancelJob (engKey n e) (((s.chip.engAt (engKey n e)).reg (xaOf w)).toNat % 2 ^ 32)) d n e (fun g => g)
        ((s.chip.engAt (engKey n e)).pc + 4)) :=
  ⟨_, h.yields rfl (Chip.oldest_fetched h hl (by simp [ho, hf]) 7 _), Chip.issue_commits _ h.2.1 _ 0 hq rfl rfl rfl⟩

theorem Fetched.afence_answers (hf : fld w 0 3 = 3) : Yields (.afence n e w) s
    (if (s.chip.jobsOut (engKey n e)).isEmpty then s.chip.issue (engKey n e)
        ⟨(s.chip.engAt (engKey n e)).pc, pcNext (s.chip.engAt (engKey n e)).pc, none, none, []⟩ 0
      else s.chip.stallEng (engKey n e) 7) :=
  h.yields rfl (Chip.oldest_fetched h hl (by simp [ho, hf]) 7 _)

end

/-- R445: WFW takes the item held ready, or waits; the engine's own item is gone. -/
theorem Fetched.wfw_answers (ho : opOf w = 0x38) (hf : fn11 w = 3)
    (hi : (s.chip.engAt (engKey n e)).item = none ∨ (s.chip.engAt (engKey n e)).doneSent = true) : Yields (.wfw n e w) s
    (match (s.chip.engAt (engKey n e)).queued with
      | some i => (s.chip.modEng (engKey n e) (fun g => { g with item := none, doneSent := false, wfwDest := xdOf w })).takeItem (engKey n e) i
      | none => (s.chip.modEng (engKey n e) (fun g => { g with
          item := none, doneSent := false, wfwDest := xdOf w, state := .waiting, stall := 0
          cyc := g.cyc.spend s.chip.freeNow 8 0 })).useFree) := by
  have hdrop : (s.chip.dropItem (engKey n e)).modEng (engKey n e) (fun g => { g with wfwDest := xdOf w }) =
      s.chip.modEng (engKey n e) (fun g => { g with item := none, doneSent := false, wfwDest := xdOf w }) := by
    rw [Chip.dropItem_over hi, Chip.modEng_modEng]
  refine h.yields rfl ((Chip.oldest_fetched h hl (by simp [ho, hf]) 8 _).trans ?_)
  dsimp only
  rw [hdrop]
  cases (s.chip.engAt (engKey n e)).queued with
  | some i => rfl
  | none =>
    dsimp only
    rw [Chip.modEng_modEng]
    rfl

end

/-- Settles O9: each row by what its port, its ticket or its engine's items show. -/
theorem engineAcceleratorInstructionsRun : Obligations.EngineAcceleratorInstructionsRun := by
  intro s n e w h hl k g pc
  have he : e < 8 := h.2.1
  have hq : g.queue = [] := h.2.2.2.2
  have hk : k / 8 = n := engKey_div he
  refine ⟨fun ho hf => ?_, fun ho hf => ?_, fun ho hf d0 hd0 => ?_, fun ho hf => ?_, fun ho hf hi => ?_⟩
  · intro port cls desc res raw pool body
    refine ⟨fun hp => h.aiss_denied hl ho hf hp, fun entry hx hentry hheld hroom => ?_⟩
    intro seq ticket hp
    have hticket : s.chip.aissTicket k port entry = ticket := by unfold Chip.aissTicket Chip.aissSeq; rw [hk]
    have hbody : s.chip.aissBody k desc cls = body := by unfold Chip.aissBody; rw [hk]
    have hallowed : s.chip.portAllows ⟨some k, s.chip.aissTicket k port entry, res, true⟩ cls (s.chip.poolOf (k / 8))
        (s.chip.aissBody k desc cls) = true := by rw [hticket, hbody, hk]; exact hp
    obtain ⟨c', v, ⟨hown, hothers, -, hregs, hclus, -, -⟩, hv, heng, hjob, hcount⟩ := Chip.aissSend_commits hallowed rfl he hq w
    rw [heng] at hown
    refine ⟨_, h.aiss_sends hl ho hf rfl rfl hx hentry hheld hroom, by rw [hown], ?_, by rw [hown], fun hx0 hplain => ?_, fun r hr => ?_,
      ⟨{ s.chip.aissJob k port entry desc res cls with state := .committed, windows := g.windows }, ?_, rfl, rfl, ?_, rfl, rfl, rfl, rfl, rfl⟩, ?_, fun i hi => (hothers i hi).trans (heng i)⟩
    · rw [hown]
      exact (Eng.setReg_queue _ _ _).trans hq
    · rw [hown]
      exact (Eng.reg_setReg_same g hx0 v).trans (hticket ▸ hv (hbody ▸ hplain))
    · rw [hown]
      exact Eng.reg_setReg_ne g hr v
    · rw [Chip.clusAt, hclus]
      exact hjob
    · show s.chip.aissSeq k port entry = seq
      rw [Chip.aissSeq, hk]
    · exact (hregs.1 _ (by simp [Fld.key, R.SEC_ENG_CNT_JOBS_JOBS, R.SEC_ENG_CNT_INSTRET_INSTRET])).trans hcount
  · intro ticket
    have hy := h.await_answers hl ho hf
    refine ⟨fun hj => ?_, fun j hj hend => ?_, fun j hj hend => ?_⟩
    · rw [hj] at hy
      exact ⟨_, hy, s.chip.issue_setReg_commits he hq _ _⟩
    · rw [hj] at hy
      dsimp only at hy
      rw [if_pos hend] at hy
      exact ⟨_, hy, s.chip.issue_setReg_commits he hq _ _⟩
    · rw [hj] at hy
      dsimp only at hy
      rw [if_neg hend] at hy
      exact ⟨_, hy, s.chip.stallEng_leaves k 7⟩
  · subst hd0
    refine ⟨fun hj => ?_, fun hempty => h.acan_commits hl ho hf hempty⟩
    have hkept : s.chip.cancelJob k ((g.reg (xaOf w)).toNat % 2 ^ 32) = s.chip := by unfold Chip.cancelJob; rw [hj]
    have hc := h.acan_commits hl ho hf (hkept.symm ▸ hq)
    rwa [hkept] at hc
  · have hy := h.afence_answers hl ho hf
    refine ⟨fun hj => ?_, fun hj => ?_⟩
    · rw [if_pos (List.isEmpty_iff.2 hj)] at hy
      exact ⟨_, hy, s.chip.issue_commits he _ 0 hq rfl rfl rfl⟩
    · rw [if_neg (by simpa using hj)] at hy
      exact ⟨_, hy, s.chip.stallEng_leaves k 7⟩
  · have hy := h.wfw_answers hl ho hf hi
    refine ⟨fun hi' => ?_, fun i hi' => ?_⟩
    · rw [show (s.chip.engAt (engKey n e)).queued = none from hi'] at hy
      refine ⟨_, hy, ?_⟩
      simp only [Chip.useFree_engAt]
      exact ⟨by rw [Chip.engAt_modEng_same], fun i hi => Chip.engAt_modEng_ne _ _ hi, rfl, rfl, rfl⟩
    · rw [show (s.chip.engAt (engKey n e)).queued = some i from hi'] at hy
      exact ⟨_, hy, Chip.takeItem_commits he hq (xdOf w) i⟩

end Sys2Proof

namespace Sys2Proof.Machine

/-! ### Engine and cluster commands: what leaves the fields that show results -/

theorem Chip.get_of_vol {c d : Chip} (h : d.regs.vol = c.regs.vol) {f : Fld} (hf : f.kept = false) : d.get f = c.get f := by
  simp [Chip.get, hf, h]

theorem Chip.set_vol (c : Chip) {f : Fld} (hf : f.kept = true) (v : Nat) : (c.set f v).regs.vol = c.regs.vol := by
  simp [Chip.set, hf]

theorem Chip.bump_vol (c : Chip) {f : Fld} (hf : f.kept = true) (v : Nat) : (c.bump f v).regs.vol = c.regs.vol := c.set_vol hf _

theorem Chip.failUpstream_frame (c : Chip) (h : Nat) : c.failUpstream h = { c with cpe := (c.failUpstream h).cpe } := by
  unfold Chip.failUpstream
  split <;> rfl

/-- Steps that each leave the fields that show results leave them together. -/
theorem Chip.foldl_vol {α : Type} (l : List α) {f : Chip → α → Chip} (h : ∀ d, ∀ a ∈ l, (f d a).regs.vol = d.regs.vol) (c : Chip) :
    (l.foldl f c).regs.vol = c.regs.vol :=
  List.foldlRecOn (motive := fun d : Chip => d.regs.vol = c.regs.vol) l f rfl (fun d hd a ha => (h d a ha).trans hd)

/-- A job taken from its unit, but for the nonce that it burns. -/
theorem Chip.dropJob_core (c : Chip) (cls handle : Nat) :
    (c.dropJob cls handle).regs.vol = c.regs.vol ∧ (c.dropJob cls handle).sec = c.sec := by
  have hup : ((if cls = 3 then c.failUpstream handle else c).regs.vol = c.regs.vol) ∧
      (if cls = 3 then c.failUpstream handle else c).sec = c.sec := by
    split
    · rw [c.failUpstream_frame handle]; exact ⟨rfl, rfl⟩
    · exact ⟨rfl, rfl⟩
  obtain ⟨hvol, hsec⟩ := hup
  unfold Chip.dropJob
  generalize (if cls = 3 then c.failUpstream handle else c) = d at hvol hsec
  have hburn : (if d.jobNonce cls handle = 0 then d else d.bump R.CPE_CNT_BURNED_BURNED 1).regs.vol = c.regs.vol ∧
      (if d.jobNonce cls handle = 0 then d else d.bump R.CPE_CNT_BURNED_BURNED 1).sec = c.sec := by
    split
    · exact ⟨hvol, hsec⟩
    · exact ⟨(d.bump_vol rfl 1).trans hvol, (Chip.bump_sec d _ 1).trans hsec⟩
  dsimp only
  generalize (if d.jobNonce cls handle = 0 then d else d.bump R.CPE_CNT_BURNED_BURNED 1) = b at hburn
  split <;> exact hburn

theorem Chip.logCancel_core (c : Chip) (n : Nat) (x : CLogEntry) :
    (c.logCancel n x).regs.vol = c.regs.vol ∧ (c.logCancel n x).sec.engs = c.sec.engs := by
  unfold Chip.logCancel
  dsimp only
  split
  · exact ⟨c.bump_vol rfl 1, congrArg Sec.engs (Chip.bump_sec c _ 1)⟩
  · exact ⟨rfl, rfl⟩

/-- The nonce of a cancelled job and the job counted (R450, R451). -/
def Chip.countCancel (c : Chip) (n nonce : Nat) : Chip :=
  (if nonce = 0 then c else c.bump (R.SEC_CL_CNT_BURNED_BURNED n) 1).bump (R.SEC_CL_CNT_CANCEL_CANCELLED n) 1

theorem Chip.countCancel_core (c : Chip) (n nonce : Nat) :
    (c.countCancel n nonce).regs.vol = c.regs.vol ∧ (c.countCancel n nonce).sec = c.sec := by
  unfold Chip.countCancel
  refine ⟨(Chip.bump_vol _ rfl 1).trans ?_, (Chip.bump_sec _ _ 1).trans ?_⟩
  · split
    · rfl
    · exact c.bump_vol rfl 1
  · split
    · rfl
    · exact Chip.bump_sec c _ 1

theorem Chip.squashJob_core (c : Chip) (k port entry : Nat) :
    (c.squashJob k port entry).regs.vol = c.regs.vol ∧ (c.squashJob k port entry).sec.engs = c.sec.engs := by
  unfold Chip.squashJob
  dsimp only
  split
  · exact ⟨rfl, rfl⟩
  case h_2 j _ =>
    obtain ⟨hdv, hds⟩ := c.dropJob_core j.cls j.handle
    obtain ⟨hcv, hcs⟩ := (c.dropJob j.cls j.handle).countCancel_core (k / 8) (c.jobNonce j.cls j.handle)
    constructor
    · exact (Chip.logCancel_core _ _ _).1.trans (hcv.trans hdv)
    · exact (Chip.logCancel_core _ _ _).2.trans (congrArg Sec.engs hcs |>.trans (congrArg Sec.engs hds))

theorem Chip.squashJobs_core (c : Chip) (k : Nat) (qs : List QEntry) :
    (c.squashJobs k qs).regs.vol = c.regs.vol ∧ (c.squashJobs k qs).sec.engs = c.sec.engs := by
  unfold Chip.squashJobs
  refine List.foldlRecOn (motive := fun d : Chip => d.regs.vol = c.regs.vol ∧ d.sec.engs = c.sec.engs) qs _ ⟨rfl, rfl⟩ (fun d hd q _ => ?_)
  refine List.foldlRecOn (motive := fun d : Chip => d.regs.vol = c.regs.vol ∧ d.sec.engs = c.sec.engs) q.effects _ hd (fun e he x _ => ?_)
  split
  · exact ⟨(e.squashJob_core k _ _).1.trans he.1, (e.squashJob_core k _ _).2.trans he.2⟩
  · exact he

/-- R442, R452: squashing leaves the fields that show results, and empties the queue of its engine alone. -/
theorem Chip.squash_core (c : Chip) (k : Nat) (qs : List QEntry) :
    (c.squash k qs).regs.vol = c.regs.vol ∧ ∀ j, j ≠ k → (c.squash k qs).engAt j = c.engAt j := by
  obtain ⟨hv, he⟩ := c.squashJobs_core k qs
  have hmod (j : Nat) (hj : j ≠ k) : ((c.squashJobs k qs).modEng k (fun e => { e with queue := [] })).engAt j = c.engAt j :=
    (Chip.engAt_modEng_ne _ _ hj).trans (Chip.engAt_of_engs he j)
  unfold Chip.squash
  dsimp only
  split
  · exact ⟨hv, hmod⟩
  · exact ⟨(Chip.bump_vol _ rfl _).trans hv, fun j hj => (Chip.bump_engAt _ _ _ j).trans (hmod j hj)⟩

theorem Chip.squash_nil (c : Chip) (k : Nat) : c.squash k [] = c.modEng k (fun e => { e with queue := [] }) := rfl

/-- An engine halted, by whether it is live. -/
theorem Chip.haltEng_live {c : Chip} {k : Nat} (h : (c.engAt k).state ∈ [.running, .stalled, .waiting, .halting]) :
    c.haltEng k = (match (c.engAt k).queued with
      | some i => (c.squash k (c.engAt k).queue).keepItem i
      | none => c.squash k (c.engAt k).queue).modEng k
        (fun x => { x with state := .halted, stall := 0, queued := none, latched := none }) :=
  if_pos (by simpa [or_assoc] using h)

theorem Chip.haltEng_other {c : Chip} {k : Nat} (h : (c.engAt k).state ∉ [.running, .stalled, .waiting, .halting]) : c.haltEng k = c :=
  if_neg (by simpa [or_assoc] using h)

theorem Chip.haltEng_engs {c : Chip} {k : Nat} (h : (c.engAt k).state ∈ [.running, .stalled, .waiting, .halting]) :
    ((c.haltEng k).engAt k).state = .halted ∧ ∀ j, j ≠ k → (c.haltEng k).engAt j = c.engAt j := by
  rw [Chip.haltEng_live h]
  refine ⟨by rw [Chip.engAt_modEng_same], fun j hj => (Chip.engAt_modEng_ne _ _ hj).trans ?_⟩
  split <;> exact (c.squash_core k _).2 j hj

theorem Chip.haltEng_vol (c : Chip) (k : Nat) : (c.haltEng k).regs.vol = c.regs.vol := by
  by_cases h : (c.engAt k).state ∈ [.running, .stalled, .waiting, .halting]
  · rw [Chip.haltEng_live h]
    show (match (c.engAt k).queued with
      | some i => (c.squash k (c.engAt k).queue).keepItem i
      | none => c.squash k (c.engAt k).queue).regs.vol = c.regs.vol
    split <;> exact (c.squash_core k _).1
  · rw [Chip.haltEng_other h]

theorem Chip.endPortJob_regs (c : Chip) (k ticket st : Nat) (r : List Byte) : (c.endPortJob k ticket st r).regs = c.regs := by
  unfold Chip.endPortJob
  split <;> rfl

theorem Chip.cancelJob_vol (c : Chip) (k ticket : Nat) : (c.cancelJob k ticket).regs.vol = c.regs.vol := by
  unfold Chip.cancelJob
  split
  · rfl
  case h_2 j _ =>
    split
    · exact (congrArg RegFile.vol (Chip.endPortJob_regs _ _ _ _ _)).trans
        (((c.dropJob j.cls j.handle).countCancel_core (k / 8) (c.jobNonce j.cls j.handle)).1.trans (c.dropJob_core j.cls j.handle).1)
    · rfl

theorem Chip.cancelJobs_vol (c : Chip) (k : Nat) : (c.cancelJobs k).regs.vol = c.regs.vol :=
  Chip.foldl_vol _ (fun d j _ => d.cancelJob_vol k j.ticket) c

theorem Chip.returnItem_regs (c : Chip) (k : Nat) : (c.returnItem k).regs = c.regs := by
  unfold Chip.returnItem
  dsimp only
  split
  · split <;> rfl
  · rfl

theorem Chip.stopCluster_vol (c : Chip) (n : Nat) : (c.stopCluster n).regs.vol = c.regs.vol := by
  have hone (d : Chip) (k : Nat) : (((d.haltEng k).cancelJobs k).returnItem k).regs.vol = d.regs.vol := by
    rw [Chip.returnItem_regs, Chip.cancelJobs_vol, Chip.haltEng_vol]
  unfold Chip.stopCluster
  exact Chip.foldl_vol (engsOf n) (fun d k _ => hone d k) c

theorem Chip.clearAll_vol (c : Chip) (l : List Fld) (h : ∀ f ∈ l, f.kept = true) : (c.clearAll l).regs.vol = c.regs.vol :=
  Chip.foldl_vol l (fun d f hf => d.set_vol (h f hf) 0) c

theorem engCounters_kept (n e : Nat) : ∀ f ∈ engCounters n e, f.kept = true :=
  List.all_eq_true.1 (show (engCounters n e).all (·.kept) = true from rfl)

theorem Chip.loadProgram_vol (c : Chip) (k : Nat) (p : Program) : (c.loadProgram k p).regs.vol = c.regs.vol :=
  Chip.clearAll_vol _ _ (engCounters_kept _ _)

theorem Chip.startCluster_vol (c : Chip) (n : Nat) : (c.startCluster n).1.regs.vol = c.regs.vol := by
  unfold Chip.startCluster
  dsimp only
  split
  all_goals
    split
    · exact Chip.foldl_vol (engsOf n) (fun d k _ => rfl) _
    · split
      · rfl
      case h_2 p _ =>
        have hload := Chip.foldl_vol (engsOf n) (f := fun d k => (d.loadProgram k p).modEng k (fun e => { e with state := .running }))
          (fun d k _ => d.loadProgram_vol k p)
        exact hload (c.modClus n (fun cl => { cl with jobs := [], faultTimes := [], hostDrain := false }))

end Sys2Proof.Machine

namespace Sys2Proof.Machine

/-! ### Engine and cluster commands: acceptance and result -/

theorem Chip.offline_eq_true {c : Chip} {n : Nat} (h : (c.clusAt n).state = .offline) : c.offline n = true := by simp [Chip.offline, h]

theorem Chip.offline_eq_false {c : Chip} {n : Nat} (h : (c.clusAt n).state ≠ .offline) : c.offline n = false := by simp [Chip.offline, h]

/-- R12: a chip that shows, by VALID 0, no result posts one of CODE 0. -/
theorem Chip.postResult_code {c : Chip} {valid code : Fld} (hz : c.get valid = 0) (hk : valid ≠ R.KCF_RESULT_VALID) (hp : valid ≠ R.PWR_RESULT_VALID) :
    c.postResult valid [(code, 0)] = (c.set code 0).set valid 1 :=
  Chip.postResult_shown (by simp [Chip.on, hz]) hk hp _

theorem Chip.clEnd_of_zero {c : Chip} {n : Nat} (h : c.get (R.SEC_CL_RESULT_VALID n) = 0) :
    c.clEnd n = (c.set (R.SEC_CL_RESULT_CODE n) 0).set (R.SEC_CL_RESULT_VALID n) 1 :=
  Chip.postResult_code h
    (by simp only [R.SEC_CL_RESULT_VALID, R.KCF_RESULT_VALID, ne_eq, Fld.mk.injEq]; omega)
    (by simp only [R.SEC_CL_RESULT_VALID, R.PWR_RESULT_VALID, ne_eq, Fld.mk.injEq]; omega)

theorem Chip.clEnd_of_vol {c d : Chip} {n : Nat} (h : d.regs.vol = (c.set (R.SEC_CL_RESULT_VALID n) 0).regs.vol) :
    d.clEnd n = (d.set (R.SEC_CL_RESULT_CODE n) 0).set (R.SEC_CL_RESULT_VALID n) 1 :=
  Chip.clEnd_of_zero ((Chip.get_of_vol h rfl).trans (Chip.get_set_same _ _ _))

theorem Chip.engEnd_of_vol {c d : Chip} {n e : Nat} (h : d.regs.vol = (c.set (R.SEC_ENG_RESULT_VALID n e) 0).regs.vol) :
    d.engEnd n e = (d.set (R.SEC_ENG_RESULT_CODE n e) 0).set (R.SEC_ENG_RESULT_VALID n e) 1 :=
  Chip.postResult_code ((Chip.get_of_vol h rfl).trans (Chip.get_set_same _ _ _))
    (by simp only [R.SEC_ENG_RESULT_VALID, R.KCF_RESULT_VALID, ne_eq, Fld.mk.injEq]; omega)
    (by simp only [R.SEC_ENG_RESULT_VALID, R.PWR_RESULT_VALID, ne_eq, Fld.mk.injEq]; omega)

/-- What is read of a chip whose VALID and CODE have been posted. -/
theorem Chip.posted_get (c : Chip) {valid code : Fld} (hv : valid.width = 1) (hne : code.key ≠ valid.key) :
    ((c.set code 0).set valid 1).get valid = 1 ∧ ((c.set code 0).set valid 1).get code = 0 := by
  constructor
  · rw [Chip.get_set_same, hv]; rfl
  · rw [Chip.get_set_ne _ _ hne, Chip.get_set_same]; exact Nat.zero_mod _

theorem engResult_keys (n e : Nat) : (R.SEC_ENG_RESULT_CODE n e).key ≠ (R.SEC_ENG_RESULT_VALID n e).key := by
  simp only [Fld.key, R.SEC_ENG_RESULT_CODE, R.SEC_ENG_RESULT_VALID]; omega

theorem clResult_keys (n : Nat) : (R.SEC_CL_RESULT_CODE n).key ≠ (R.SEC_CL_RESULT_VALID n).key := by
  simp only [Fld.key, R.SEC_CL_RESULT_CODE, R.SEC_CL_RESULT_VALID]; omega

/-- A result posted over a chip of the registers of the accepted command. -/
theorem Chip.posted_regsSame {c d : Chip} {valid code : Fld} (h : d.regs = (c.set valid 0).regs) :
    RegsSame c ((d.set code 0).set valid 1) [valid, code] :=
  (((RegsSame.set c valid 0 (by simp)).then_regs h).then_set 0 (by simp)).then_set 1 (by simp)

/-- HALT of a running engine that has nothing in flight. -/
theorem Chip.haltEng_idle {c : Chip} {k : Nat} (hst : (c.engAt k).state = .running) (hq : (c.engAt k).queue = [])
    (hi : (c.engAt k).queued = none) :
    c.haltEng k = c.modEng k (fun x => { x with queue := [], state := .halted, stall := 0, queued := none, latched := none }) := by
  rw [Chip.haltEng_live (by rw [hst]; simp), hq, hi, Chip.squash_nil]
  exact Chip.modEng_modEng _ _ _ _

theorem Chip.clearAll_engAt (c : Chip) (l : List Fld) (k : Nat) : (c.clearAll l).engAt k = c.engAt k :=
  Chip.engAt_of_engs (congrArg Sec.engs (Chip.clearAll_sec c l)) k

theorem Chip.clusAt_of_clusters {c d : Chip} (h : d.sec.clusters = c.sec.clusters) (n : Nat) : d.clusAt n = c.clusAt n := by
  simp [Chip.clusAt, h]

theorem Fld.distinct_of_keys {l : List Fld} (h : (l.map Fld.key).Nodup) : ∀ f ∈ l, ∀ g ∈ l, f.key = g.key → f = g :=
  fun _ hf _ hg hkey => List.inj_on_of_nodup_map h hf hg hkey

theorem engCounters_distinct (n e : Nat) : ∀ f ∈ engCounters n e, ∀ g ∈ engCounters n e, f.key = g.key → f = g := by
  apply Fld.distinct_of_keys
  simp [engCounters, Fld.key, R.SEC_ENG_CNT_INSTRET_INSTRET, R.SEC_ENG_CNT_SQUASHED_SQUASHED, R.SEC_ENG_CNT_JOBS_JOBS,
    R.SEC_ENG_CNT_STREAM_STREAM_BYTES, R.SEC_ENG_CNT_ECC_ECC]

theorem Chip.modClus_regs (c : Chip) (n : Nat) (f : Clus → Clus) : (c.modClus n f).regs = c.regs := rfl

theorem Chip.set_jobsOut (c : Chip) (f : Fld) (v k : Nat) : (c.set f v).jobsOut k = c.jobsOut k := by
  simp [Chip.jobsOut]

theorem Chip.loadProgram_engAt_same (c : Chip) (k : Nat) (p : Program) : (c.loadProgram k p).engAt k =
    { state := .halted, pc := p.entry, progId := p.id, ports := p.ports, entry := p.entry
      faultCause := (c.engAt k).faultCause, faultEpc := (c.engAt k).faultEpc, faultAddr := (c.engAt k).faultAddr
      imem := memImage 0 p.imem, dmem := memImage 0x10000 p.dmem } :=
  (Chip.clearAll_engAt _ _ _).trans (Chip.engAt_modEng_same _ _ _)

theorem Chip.loadProgram_engAt_ne (c : Chip) {j k : Nat} (h : j ≠ k) (p : Program) : (c.loadProgram k p).engAt j = c.engAt j :=
  (Chip.clearAll_engAt _ _ _).trans (Chip.engAt_modEng_ne _ _ h)

theorem Chip.loadProgram_instret (c : Chip) {n e : Nat} (he : e < 8) (p : Program) :
    (c.loadProgram (engKey n e) p).get (R.SEC_ENG_CNT_INSTRET_INSTRET n e) = 0 := by
  unfold Chip.loadProgram
  rw [engKey_div he, engKey_mod he]
  exact Chip.clearAll_get _ _ (engCounters_distinct n e) _ List.mem_cons_self

/-- The counters of a cluster (Table 13-22). -/
def clCounters (n : Nat) : List Fld :=
  [R.SEC_CL_CNT_FAULTS_FAULTS n, R.SEC_CL_CNT_CANCEL_CANCELLED n, R.SEC_CL_CNT_BURNED_BURNED n, R.SEC_CL_CNT_CLOG_LOST_CLOG_LOST n]

theorem clCounters_distinct (n : Nat) : ∀ f ∈ clCounters n, ∀ g ∈ clCounters n, f.key = g.key → f = g := by
  apply Fld.distinct_of_keys
  simp [clCounters, Fld.key, R.SEC_CL_CNT_FAULTS_FAULTS, R.SEC_CL_CNT_CANCEL_CANCELLED, R.SEC_CL_CNT_BURNED_BURNED,
    R.SEC_CL_CNT_CLOG_LOST_CLOG_LOST]

end Sys2Proof.Machine

namespace Sys2Proof
open Sys2Proof.Machine

section
variable {s : State} {n e : Nat} (hn : n < 24) (he : e < 8) (hs : Served s)
include hn he hs

theorem engHalt_refused (h : (s.chip.clusAt n).state ≠ .offline) : Yields (.engHalt n e) s (s.chip.engRefuse n e 1) :=
  Yields.served hs rfl (by simp [hn, he]) (if_pos (by simp [Chip.offline_eq_false h]))

theorem engResume_refused (h : (s.chip.clusAt n).state ≠ .offline) : Yields (.engResume n e) s (s.chip.engRefuse n e 1) :=
  Yields.served hs rfl (by simp [hn, he]) (if_pos (by simp [Chip.offline_eq_false h]))

theorem engineLoad_refused (h : (s.chip.clusAt n).state ≠ .offline) (p : Nat) : Yields (.engineLoad n e p) s (s.chip.engRefuse n e 1) :=
  Yields.served hs rfl (by simp [hn, he]) (if_pos (by simp [Chip.offline_eq_false h]))

theorem cancelAll_refused (h : (s.chip.clusAt n).state ≠ .offline) : Yields (.cancelAll n e) s (s.chip.engRefuse n e 1) :=
  Yields.served hs rfl (by simp [hn, he]) (if_pos (by simp [Chip.offline_eq_false h]))

section
variable (hoff : (s.chip.clusAt n).state = .offline)
include hoff

/-- HALT of an engine of an OFFLINE cluster, which is halted thereby. -/
theorem engHalt_ends (hfree : NoneWaits s.chip (R.SEC_ENG_RESULT_VALID n e)) {d : Chip}
    (hd : (s.chip.set (R.SEC_ENG_RESULT_VALID n e) 0).haltEng (engKey n e) = d) (hh : (d.engAt (engKey n e)).state = .halted) :
    Yields (.engHalt n e) s ((d.set (R.SEC_ENG_RESULT_CODE n e) 0).set (R.SEC_ENG_RESULT_VALID n e) 1) := by
  refine Yields.served hs rfl (by simp [hn, he]) ?_
  have hvol : d.regs.vol = (s.chip.set (R.SEC_ENG_RESULT_VALID n e) 0).regs.vol := hd ▸ Chip.haltEng_vol _ _
  rw [← Chip.engEnd_of_vol hvol]
  simp [engHalt, Chip.offline_eq_true hoff, Chip.engAccept, hfree.startOp, hd, hh]

theorem engResume_ends (hfree : NoneWaits s.chip (R.SEC_ENG_RESULT_VALID n e)) (hh : (s.chip.engAt (engKey n e)).state = .halted) :
    Yields (.engResume n e) s ((((s.chip.set (R.SEC_ENG_RESULT_VALID n e) 0).modEng (engKey n e) (fun g => { g with state := .running })).set
      (R.SEC_ENG_RESULT_CODE n e) 0).set (R.SEC_ENG_RESULT_VALID n e) 1) := by
  refine Yields.served hs rfl (by simp [hn, he]) ?_
  rw [← Chip.engEnd_of_vol (c := s.chip) (by rw [Chip.modEng_regs])]
  simp [engResume, Chip.offline_eq_true hoff, Chip.engAccept, hfree.startOp, hh]

theorem engResume_unhalted (hh : (s.chip.engAt (engKey n e)).state ≠ .halted) : Yields (.engResume n e) s (s.chip.engRefuse n e 2) := by
  refine Yields.served hs rfl (by simp [hn, he]) ?_
  simp [engResume, Chip.offline_eq_true hoff, hh]

theorem engineLoad_ends (hfree : NoneWaits s.chip (R.SEC_ENG_RESULT_VALID n e)) {prog : Nat} {p : Program}
    (hst : (s.chip.engAt (engKey n e)).state ∈ [.halted, .faulted, .gated]) (hj : s.chip.jobsOut (engKey n e) = [])
    (hp : s.chip.program prog = some p) :
    Yields (.engineLoad n e prog) s ((((s.chip.set (R.SEC_ENG_RESULT_VALID n e) 0).loadProgram (engKey n e) p).set
      (R.SEC_ENG_RESULT_CODE n e) 0).set (R.SEC_ENG_RESULT_VALID n e) 1) := by
  refine Yields.served hs rfl (by simp [hn, he]) ?_
  rw [← Chip.engEnd_of_vol (Chip.loadProgram_vol _ _ _)]
  simp only [List.mem_cons, List.not_mem_nil, or_false] at hst
  rcases hst with h | h | h <;> simp [engineLoad, Chip.offline_eq_true hoff, Chip.engAccept, hfree.startOp, hj, hp, h]

theorem engineLoad_live (prog : Nat) (hst : (s.chip.engAt (engKey n e)).state ∉ [.halted, .faulted, .gated]) :
    Yields (.engineLoad n e prog) s (s.chip.engRefuse n e 2) := by
  refine Yields.served hs rfl (by simp [hn, he]) ?_
  simp only [List.mem_cons, List.not_mem_nil, or_false, not_or] at hst
  obtain ⟨hhalt, hfault, hgate⟩ := hst
  simp [engineLoad, Chip.offline_eq_true hoff, hhalt, hfault, hgate]

theorem engineLoad_busy (prog : Nat) (hst : (s.chip.engAt (engKey n e)).state = .halted) (hj : s.chip.jobsOut (engKey n e) ≠ []) :
    Yields (.engineLoad n e prog) s (s.chip.engRefuse n e 3) := by
  refine Yields.served hs rfl (by simp [hn, he]) ?_
  simp [engineLoad, Chip.offline_eq_true hoff, hst, hj]

theorem engineLoad_unknown {prog : Nat} (hst : (s.chip.engAt (engKey n e)).state = .halted) (hj : s.chip.jobsOut (engKey n e) = [])
    (hp : s.chip.program prog = none) : Yields (.engineLoad n e prog) s (s.chip.engRefuse n e 4) := by
  refine Yields.served hs rfl (by simp [hn, he]) ?_
  simp [engineLoad, Chip.offline_eq_true hoff, hst, hj, hp]

theorem cancelAll_answers (hst : (s.chip.engAt (engKey n e)).state = .halted ∨ (s.chip.engAt (engKey n e)).state = .faulted) :
    Yields (.cancelAll n e) s (((s.chip.startOp (R.SEC_ENG_RESULT_VALID n e)).cancelJobs (engKey n e)).postResult (R.SEC_ENG_RESULT_VALID n e)
      [(R.SEC_ENG_RESULT_CODE n e, 0)]) := by
  refine Yields.served hs rfl (by simp [hn, he]) ?_
  rcases hst with h | h <;> simp [cancelAll, Chip.offline_eq_true hoff, h, Chip.engAccept, Chip.engEnd]

theorem cancelAll_ends (hfree : NoneWaits s.chip (R.SEC_ENG_RESULT_VALID n e))
    (hst : (s.chip.engAt (engKey n e)).state = .halted ∨ (s.chip.engAt (engKey n e)).state = .faulted) :
    Yields (.cancelAll n e) s ((((s.chip.set (R.SEC_ENG_RESULT_VALID n e) 0).cancelJobs (engKey n e)).set (R.SEC_ENG_RESULT_CODE n e) 0).set
      (R.SEC_ENG_RESULT_VALID n e) 1) := by
  have hy := cancelAll_answers hn he hs hoff hst
  rw [hfree.startOp] at hy
  exact (Chip.engEnd_of_vol (Chip.cancelJobs_vol _ (engKey n e))) ▸ hy

theorem cancelAll_live (hh : (s.chip.engAt (engKey n e)).state ≠ .halted) (hf : (s.chip.engAt (engKey n e)).state ≠ .faulted) :
    Yields (.cancelAll n e) s (s.chip.engRefuse n e 2) := by
  refine Yields.served hs rfl (by simp [hn, he]) ?_
  simp [cancelAll, Chip.offline_eq_true hoff, hh, hf]

end

end

section
variable {s : State} {n : Nat} (hn : n < 24) (hs : Served s)
include hn hs

theorem clusterOffline_activating (h : s.chip.get R.KCF_STATUS_STATE = 7) : Yields (.clusterOffline n) s (s.chip.clRefuse n 5) :=
  Yields.served hs rfl (by simp [hn]) (if_pos h)

theorem clusterOnline_activating (h : s.chip.get R.KCF_STATUS_STATE = 7) : Yields (.clusterOnline n) s (s.chip.clRefuse n 5) :=
  Yields.served hs rfl (by simp [hn]) (if_pos h)

section
variable (hst : s.chip.get R.KCF_STATUS_STATE ≠ 7)
include hst

theorem clusterOffline_spare (h : (s.chip.clusAt n).state = .spare) : Yields (.clusterOffline n) s (s.chip.clRefuse n 6) :=
  Yields.served hs rfl (by simp [hn]) ((if_neg hst).trans (if_pos h))

theorem clusterOnline_spare (h : (s.chip.clusAt n).state = .spare) : Yields (.clusterOnline n) s (s.chip.clRefuse n 6) :=
  Yields.served hs rfl (by simp [hn]) ((if_neg hst).trans (if_pos h))

theorem clusterOnline_answers (h : (s.chip.clusAt n).state ≠ .spare) :
    Yields (.clusterOnline n) s
      (if (((s.chip.startOp (R.SEC_CL_RESULT_VALID n)).stopCluster n).startCluster n).2
        then ((((s.chip.startOp (R.SEC_CL_RESULT_VALID n)).stopCluster n).startCluster n).1.lower R.KCF_CLUSTER_FAIL_FAIL n).clEnd n
        else ((((s.chip.startOp (R.SEC_CL_RESULT_VALID n)).stopCluster n).startCluster n).1.failCluster n).checkPools.clEnd n) := by
  refine Yields.served hs rfl (by simp [hn]) ?_
  unfold clusterOnline
  rw [if_neg hst, if_neg h]
  dsimp only
  split
  case h_1 d hd => rw [hd, if_pos rfl]
  case h_2 d hd => rw [hd, if_neg Bool.false_ne_true]

section
variable (hfree : NoneWaits s.chip (R.SEC_CL_RESULT_VALID n))
include hfree

theorem clusterOffline_drains (h : (s.chip.clusAt n).state = .inService) (hb : s.chip.clusterBusy n = true) :
    Yields (.clusterOffline n) s ((s.chip.set (R.SEC_CL_RESULT_VALID n) 0).modClus n (fun cl => { cl with
      state := .quiescing, hostDrain := true, drainAt := s.chip.now, drainTmo := s.chip.get R.KCF_QUIESCE_TMO_QUIESCE_TMO })) := by
  have hne : (s.chip.clusAt n).state ≠ .spare := by rw [h]; decide
  refine Yields.served hs rfl (by simp [hn]) ((if_neg hst).trans ((if_neg hne).trans ?_))
  have hbusy : (s.chip.set (R.SEC_CL_RESULT_VALID n) 0).clusterBusy n = true := by
    rw [← hb]
    simp only [Chip.clusterBusy, Chip.jobsOut, Chip.set_engAt, Chip.set_clusAt]
  have htime : (s.chip.set (R.SEC_CL_RESULT_VALID n) 0).now = s.chip.now :=
    Chip.get_set_ne _ _ (by simp only [Fld.key, R.GLB_TIME_TIME, R.SEC_CL_RESULT_VALID]; omega)
  have htmo : (s.chip.set (R.SEC_CL_RESULT_VALID n) 0).get R.KCF_QUIESCE_TMO_QUIESCE_TMO = s.chip.get R.KCF_QUIESCE_TMO_QUIESCE_TMO :=
    Chip.get_set_ne _ _ (by simp only [Fld.key, R.KCF_QUIESCE_TMO_QUIESCE_TMO, R.SEC_CL_RESULT_VALID]; omega)
  simp [hfree.startOp, Chip.offline, h, hbusy, htime, htmo]

theorem clusterOffline_idle (h : (s.chip.clusAt n).state = .inService) (hb : s.chip.clusterBusy n = false) :
    Yields (.clusterOffline n) s ((((s.chip.set (R.SEC_CL_RESULT_VALID n) 0).stopCluster n).modClus n (fun cl => { cl with
      state := .offline, hostDrain := false })).clEnd n) := by
  have hne : (s.chip.clusAt n).state ≠ .spare := by rw [h]; decide
  refine Yields.served hs rfl (by simp [hn]) ((if_neg hst).trans ((if_neg hne).trans ?_))
  have hbusy : (s.chip.set (R.SEC_CL_RESULT_VALID n) 0).clusterBusy n = false := by
    rw [← hb]
    simp only [Chip.clusterBusy, Chip.jobsOut, Chip.set_engAt, Chip.set_clusAt]
  simp [hfree.startOp, Chip.offline, h, hbusy, Chip.goOffline]

theorem clusterOffline_offline (h : (s.chip.clusAt n).state = .offline) :
    Yields (.clusterOffline n) s ((s.chip.set (R.SEC_CL_RESULT_VALID n) 0).clEnd n) := by
  have hne : (s.chip.clusAt n).state ≠ .spare := by rw [h]; decide
  refine Yields.served hs rfl (by simp [hn]) ((if_neg hst).trans ((if_neg hne).trans ?_))
  simp [hfree.startOp, Chip.offline, h]

end

end

end

/-- Settles O10: each command by whether it is refused, and its result by the fields that engines and clusters leave as they are. -/
theorem engineAndClusterCommandsComplete : Obligations.EngineAndClusterCommandsComplete := by
  intro s n e hn he hs c k g off free clFree refused clRefused posted
  have hkeys := engResult_keys n e
  refine ⟨⟨fun h => ⟨?_, ?_, fun p => ?_, ?_⟩, fun h hf hst => ?_, fun hst => Chip.haltEng_engs hst, fun h hf hst hq hi => ?_, fun h hf hst => ?_,
    fun h hf hst => ?_, fun h hst => ?_, fun prog p h hf hst hj hp => ?_, fun prog h hst => ?_, fun prog h hst hj => ?_, fun prog h hst hj hp => ?_,
    fun h hf hst => ?_, fun h hst => cancelAll_answers hn he hs h hst, fun h hh hf => ⟨_, cancelAll_live hn he hs h hh hf, rfl⟩, ?_⟩,
    fun h => ⟨?_, ?_⟩, fun h hsp => ⟨?_, ?_⟩, fun h hf hst hb => ?_, fun h hf hst hb => ?_, fun h hf hst => ⟨?_, fun d0 hd0 => ?_⟩,
    fun h hsp => clusterOnline_answers hn hs h hsp, fun head hh => ?_, ?_⟩
  · exact ⟨_, engHalt_refused hn he hs h, rfl⟩
  · exact ⟨_, engResume_refused hn he hs h, rfl⟩
  · exact ⟨_, engineLoad_refused hn he hs h p, rfl⟩
  · exact ⟨_, cancelAll_refused hn he hs h, rfl⟩
  · exact engHalt_ends hn he hs h hf rfl (Chip.haltEng_engs (by rwa [Chip.set_engAt])).1
  · have hd := Chip.haltEng_idle (c := c.set (R.SEC_ENG_RESULT_VALID n e) 0) (k := k) (by rw [Chip.set_engAt]; exact hst)
      (by rw [Chip.set_engAt]; exact hq) (by rw [Chip.set_engAt]; exact hi)
    refine ⟨_, engHalt_ends hn he hs h hf hd (by rw [Chip.engAt_modEng_same]), ⟨(Chip.posted_get _ rfl hkeys).1, (Chip.posted_get _ rfl hkeys).2,
      Chip.posted_regsSame (Chip.modEng_regs _ _ _)⟩, ?_, ?_, fun j hj => ?_⟩
    · apply Chip.eq_of_fields <;> simp
    · rw [Chip.set_engAt, Chip.set_engAt, Chip.engAt_modEng_same, Chip.set_engAt, ← hq, ← hi]
    · rw [Chip.set_engAt, Chip.set_engAt, Chip.engAt_modEng_ne _ _ hj, Chip.set_engAt]
  · have hd : (c.set (R.SEC_ENG_RESULT_VALID n e) 0).haltEng k = c.set (R.SEC_ENG_RESULT_VALID n e) 0 :=
      Chip.haltEng_other (by rw [Chip.set_engAt, hst]; simp)
    exact engHalt_ends hn he hs h hf hd (by rw [Chip.set_engAt]; exact hst)
  · refine ⟨_, engResume_ends hn he hs h hf hst, ⟨(Chip.posted_get _ rfl hkeys).1, (Chip.posted_get _ rfl hkeys).2,
      Chip.posted_regsSame (Chip.modEng_regs _ _ _)⟩, ?_, ?_, fun j hj => ?_⟩
    · apply Chip.eq_of_fields <;> simp [c]
    · rw [Chip.set_engAt, Chip.set_engAt, Chip.engAt_modEng_same, Chip.set_engAt]
    · rw [Chip.set_engAt, Chip.set_engAt, Chip.engAt_modEng_ne _ _ hj, Chip.set_engAt]
  · exact ⟨_, engResume_unhalted hn he hs h hst, rfl⟩
  · refine ⟨_, engineLoad_ends hn he hs h hf hst hj hp, (Chip.posted_get _ rfl hkeys).1, (Chip.posted_get _ rfl hkeys).2, ?_, ?_, ?_, fun j hj => ?_⟩
    · rw [Chip.get_set_ne _ _ (by simp only [Fld.key, R.SEC_ENG_CNT_INSTRET_INSTRET, R.SEC_ENG_RESULT_VALID]; omega),
        Chip.get_set_ne _ _ (by simp only [Fld.key, R.SEC_ENG_CNT_INSTRET_INSTRET, R.SEC_ENG_RESULT_CODE]; omega)]
      exact Chip.loadProgram_instret _ he p
    · apply Chip.eq_of_fields <;> simp [c, Chip.loadProgram]
    · rw [Chip.set_engAt, Chip.set_engAt, Chip.loadProgram_engAt_same, Chip.set_engAt]
      rfl
    · rw [Chip.set_engAt, Chip.set_engAt, Chip.loadProgram_engAt_ne _ hj, Chip.set_engAt]
  · exact ⟨_, engineLoad_live hn he hs h prog hst, rfl⟩
  · exact ⟨_, engineLoad_busy hn he hs h prog hst hj, rfl⟩
  · exact ⟨_, engineLoad_unknown hn he hs h hst hj hp, rfl⟩
  · refine ⟨_, cancelAll_ends hn he hs h hf hst, (Chip.posted_get _ rfl hkeys).1, (Chip.posted_get _ rfl hkeys).2, fun hj => ?_, fun j hj => ?_⟩
    · have hnone : (c.set (R.SEC_ENG_RESULT_VALID n e) 0).cancelJobs k = c.set (R.SEC_ENG_RESULT_VALID n e) 0 := by
        rw [Chip.cancelJobs, Chip.set_jobsOut, hj]; rfl
      rw [show s.chip = c from rfl, hnone]
      refine ⟨⟨(Chip.posted_get _ rfl hkeys).1, (Chip.posted_get _ rfl hkeys).2, Chip.posted_regsSame rfl⟩, ?_⟩
      apply Chip.eq_of_fields <;> simp [c]
    · have hone : (c.set (R.SEC_ENG_RESULT_VALID n e) 0).cancelJobs k = (c.set (R.SEC_ENG_RESULT_VALID n e) 0).cancelJob k j.ticket := by
        rw [Chip.cancelJobs, Chip.set_jobsOut, hj]; rfl
      rw [← hone]
  · refine ⟨_, Yields.served hs rfl (by simp [hn, he]) rfl, ?_, fun j hj => ?_, ?_, ?_, ?_⟩
    · exact (Chip.engAt_modEng_same _ _ _).trans (by rw [Chip.clearAll_engAt])
    · exact (Chip.engAt_modEng_ne _ _ hj).trans (Chip.clearAll_engAt _ _ _)
    · exact Chip.clearAll_get (engCounters n e) c (engCounters_distinct n e)
    · exact (Chip.clearAll_regsSame (engCounters n e) (RegsSame.of_regs rfl _) (fun _ hf => hf)).then_regs rfl
    · apply Chip.eq_of_fields <;> simp [c, secEngCntClr]
  · exact ⟨_, clusterOffline_activating hn hs h, rfl⟩
  · exact ⟨_, clusterOnline_activating hn hs h, rfl⟩
  · exact ⟨_, clusterOffline_spare hn hs h hsp, rfl⟩
  · exact ⟨_, clusterOnline_spare hn hs h hsp, rfl⟩
  · refine ⟨_, clusterOffline_drains hn hs h hf hst hb, Chip.get_set_same _ _ _, RegsSame.set _ _ _ (by simp), ?_, fun j => ?_, ?_⟩
    · rw [Chip.clusAt_modClus_same, Chip.set_clusAt]
    · exact Chip.set_engAt _ _ _ _
    · apply Chip.eq_of_fields <;> simp [c, Chip.modClus]
  · refine ⟨_, clusterOffline_idle hn hs h hf hst hb, ?_⟩
    rw [Chip.clEnd_of_vol (c := c) (by rw [Chip.modClus_regs, Chip.stopCluster_vol])]
    refine ⟨?_, (Chip.posted_get _ rfl (clResult_keys n)).1, (Chip.posted_get _ rfl (clResult_keys n)).2⟩
    rw [Chip.set_clusAt, Chip.set_clusAt, Chip.clusAt_modClus_same]
  · refine ⟨_, clusterOffline_offline hn hs h hf hst, ?_⟩
    rw [Chip.clEnd_of_vol (c := c) rfl]
    refine ⟨(Chip.posted_get _ rfl (clResult_keys n)).1, (Chip.posted_get _ rfl (clResult_keys n)).2, Chip.posted_regsSame rfl, ?_⟩
    apply Chip.eq_of_fields <;> simp [c]
  · have hne : (c.clusAt n).state ≠ .spare := by rw [show (c.clusAt n).state = .offline from hst]; decide
    have hy := clusterOnline_answers hn hs h hne
    rw [show s.chip = c from rfl, hf.startOp, hd0, if_pos rfl] at hy
    have hvol : (d0.lower R.KCF_CLUSTER_FAIL_FAIL n).get (R.SEC_CL_RESULT_VALID n) = 0 := by
      have hstart : d0.regs.vol = (c.set (R.SEC_CL_RESULT_VALID n) 0).regs.vol := by
        have := Chip.startCluster_vol ((c.set (R.SEC_CL_RESULT_VALID n) 0).stopCluster n) n
        rw [hd0, Chip.stopCluster_vol] at this
        exact this
      rw [Chip.lower, Chip.get_set_ne _ _ (by simp only [Fld.key, R.KCF_CLUSTER_FAIL_FAIL, R.SEC_CL_RESULT_VALID]; omega),
        Chip.get_of_vol hstart rfl, Chip.get_set_same]
      rfl
    exact ⟨_, hy, Chip.clEnd_of_zero hvol⟩
  · have hd : cancelLogRelease n head c = (c.set (R.SEC_CL_CLOG_HEAD n) (head % 256)).modClus n (fun cl => { cl with clogFull := false }) :=
      if_neg hh
    refine ⟨_, Yields.served hs rfl (by simp [hn]) hd, ?_, RegsSame.set _ _ _ (by simp), ?_, fun j => Chip.set_engAt _ _ _ _, ?_⟩
    · rw [Chip.modClus_get, Chip.get_set_same]
      exact Nat.mod_mod head 256
    · rw [Chip.clusAt_modClus_same, Chip.set_clusAt]
    · apply Chip.eq_of_fields <;> simp [c, Chip.modClus]
  · refine ⟨_, Yields.served hs rfl (by simp [hn]) rfl, Chip.clearAll_get (clCounters n) c (clCounters_distinct n),
      Chip.clearAll_regsSame (clCounters n) (RegsSame.of_regs rfl _) (fun _ hf => hf), ?_⟩
    apply Chip.eq_of_fields <;> simp [c, secClCntClr]

end Sys2Proof

namespace Sys2Proof.Machine

/-! ### The recorder: a FREEZE that shows a result which waited (R15, R578) -/

/-- A head in Day whose BARs are open, and whose recorder's waiting result names GLB_TIME. No rule makes such a result; the statement speaks of
every state. -/
def lateFreezer : Chip :=
  { pwr := { mode := .day }
    regs := { vol := (({} : Chip).set (R.CFG_COMMAND_MSE 0) 1).regs.vol, kept := (({} : Chip).set (R.CFG_COMMAND_MSE 0) 1).regs.kept
              later := [(R.EVR_RESULT_VALID, [(R.GLB_TIME_TIME, 1)])] } }

theorem lateFreezer_served : Served { chip := lateFreezer } := ⟨rfl, rfl, rfl⟩

theorem lateFreezer_now : lateFreezer.now = 0 := rfl

/-- The model takes the time of the freeze after the result that waited is shown. -/
theorem lateFreezer_freezes : (evrFreeze lateFreezer).evr.freezeAt = 1 := rfl

end Sys2Proof.Machine

namespace Sys2Proof
open Sys2Proof.Machine

/-- Refutes O50: its clause of FREEZE dates the freeze with the time before the command, in every state. The model first shows the result that
waits behind VALID (R15), and in `lateFreezer` that result sets GLB_TIME: the freeze is dated 1, not 0. -/
theorem not_recorderCommandsAct : ¬ Obligations.RecorderCommandsAct := by
  intro h
  obtain ⟨-, hserved⟩ := h { chip := lateFreezer }
  obtain ⟨-, hfreeze, -⟩ := hserved lateFreezer_served
  have hclaim := hfreeze rfl rfl
  have hmodel : Yields .evrFreeze { chip := lateFreezer } (evrFreeze lateFreezer) := Yields.served lateFreezer_served rfl rfl rfl
  have hdates : lateFreezer.now = 1 := (congrArg (fun d : Chip => d.evr.freezeAt) (hclaim.unique hmodel)).trans lateFreezer_freezes
  exact absurd (lateFreezer_now.symm.trans hdates) (by decide)

end Sys2Proof

namespace Sys2Proof.Machine

/-! ### Tokens (R529, R530, R546) and the JTAG instructions (R541, R554) -/

section
variable {c : Chip}

theorem Chip.rootCommand_requested (h : c.root.debug = .requested) (f : Chip → Chip) :
    c.rootCommand f = (c.set R.SEC_ROOT_STATUS_REFUSED 1).refusedCommand R.SEC_ROOT_CMD_CMD := if_pos h

theorem Chip.rootCommand_taken (h : c.root.debug ≠ .requested) (f : Chip → Chip) : c.rootCommand f = f c := if_neg h

/-- The chip whose challenge has served (R529). -/
def Chip.challengeUsed (c : Chip) : Chip := { c with root := { c.root with challenge := none } }

/-- The first failing check of the token that a source holds (R530). -/
def Chip.sourceCheck (c : Chip) (src : TokenSrc) : Nat :=
  c.challengeUsed.tokenCheck (c.tokenBytes src) (if c.chalValid then c.root.challenge else none)

variable {src : TokenSrc} {cmd : Nat}

theorem Chip.submit_otherCommand (hf : tokenForm (c.tokenBytes src) = true) (hc : tkCommand (c.tokenBytes src) ≠ cmd)
    (act : List Byte → Chip → Chip) : c.submit src cmd act = c := if_pos (by simp [hf, hc])

variable (hm : tokenForm (c.tokenBytes src) = false ∨ tkCommand (c.tokenBytes src) = cmd)
include hm

theorem Chip.submit_own (act : List Byte → Chip → Chip) : c.submit src cmd act = c.rootCommand (fun c =>
    match c.challengeUsed.tokenCheck (c.tokenBytes src) (if c.chalValid then c.root.challenge else none) with
    | 0 => act (c.tokenBytes src) c.challengeUsed
    | k => c.challengeUsed.tokenEnd (c.tokenBytes src) k) := by
  refine (if_neg ?_).trans ?_
  · rcases hm with h | h <;> simp [h]
  · unfold Chip.rootCommand
    split <;> rfl

theorem Chip.submit_refused (h : c.root.debug = .requested) (act : List Byte → Chip → Chip) :
    c.submit src cmd act = (c.set R.SEC_ROOT_STATUS_REFUSED 1).refusedCommand R.SEC_ROOT_CMD_CMD :=
  (Chip.submit_own hm act).trans (Chip.rootCommand_requested h _)

variable (h : c.root.debug ≠ .requested)
include h

theorem Chip.submit_fails (hk : c.sourceCheck src ≠ 0) (act : List Byte → Chip → Chip) :
    c.submit src cmd act = c.challengeUsed.tokenEnd (c.tokenBytes src) (c.sourceCheck src) := by
  rw [Chip.submit_own hm, Chip.rootCommand_taken h]
  change (match c.sourceCheck src with
    | 0 => act (c.tokenBytes src) c.challengeUsed
    | k => c.challengeUsed.tokenEnd (c.tokenBytes src) k) = _
  generalize c.sourceCheck src = k at hk
  cases k with
  | zero => exact absurd rfl hk
  | succ k => rfl

theorem Chip.submit_acts (hk : c.sourceCheck src = 0) (act : List Byte → Chip → Chip) :
    c.submit src cmd act = act (c.tokenBytes src) c.challengeUsed := by
  rw [Chip.submit_own hm, Chip.rootCommand_taken h]
  change (match c.sourceCheck src with
    | 0 => act (c.tokenBytes src) c.challengeUsed
    | k => c.challengeUsed.tokenEnd (c.tokenBytes src) k) = _
  rw [hk]
  rfl

end

theorem Chip.scanAllowed_iff (c : Chip) : c.scanAllowed = true ↔ c.lifecycle = 0 ∨ c.root.debug = .opened := by simp [Chip.scanAllowed]

/-- A token shifted in through the debug port is acted on by its command (R541). -/
def Chip.jtagToken (c : Chip) (src : TokenSrc) (ok : Bool) : Nat → Chip
  | 2 => provision src ok c
  | 3 => deploy src ok c
  | 4 => service src ok c
  | 5 => returnToken src ok c
  | 6 => retire src ok c
  | 7 => fuseOwner src ok c
  | 8 => revokeOwner src ok c
  | 9 => trustAdd src c
  | 10 => trustRemove src c
  | 11 => revokeFwKey src ok c
  | _ => debugOpen src c

theorem Chip.jtagToken_open (c : Chip) (src : TokenSrc) (ok : Bool) {cmd : Nat} (h : cmd < 2 ∨ 11 < cmd) :
    c.jtagToken src ok cmd = debugOpen src c := by
  unfold Chip.jtagToken
  split
  case h_11 => rfl
  all_goals omega

theorem rootCounters_distinct : ∀ f ∈ [R.SEC_ROOT_CNT_TOKENS_OK_TOKENS_OK, R.SEC_ROOT_CNT_TOKENS_BAD_TOKENS_BAD],
    ∀ g ∈ [R.SEC_ROOT_CNT_TOKENS_OK_TOKENS_OK, R.SEC_ROOT_CNT_TOKENS_BAD_TOKENS_BAD], f.key = g.key → f = g := by decide

end Sys2Proof.Machine

namespace Sys2Proof
open Sys2Proof.Machine

section
variable {s : State} {src : TokenSrc} (hs : if src = .mailbox then Served s else s.chip.awake = true)
include hs

/-- A command of a token reaches the head from the mailbox through BAR2, and from the debug port while the head is clocked. -/
theorem Yields.ofSource {i : Instr} {f : Chip → Chip} {d : Chip}
    (hx : exec i s = s.runBar2 true (src == .mailbox) R.SEC_ROOT_CMD_CMD f) (hd : f s.chip = d) : Yields i s d := by
  cases src with
  | mailbox =>
    rw [if_pos rfl] at hs
    exact Yields.served hs hx rfl hd
  | jtag bs =>
    have hawake : s.chip.awake = true := by simpa using hs
    subst hd
    exact hx.trans (State.runBar2_next rfl hawake (fun hb => absurd hb (by simp)))

variable {i : Instr} {cmd : Nat} {act : List Byte → Chip → Chip}
  (hx : exec i s = s.runBar2 true (src == .mailbox) R.SEC_ROOT_CMD_CMD (fun c => c.submit src cmd act))
include hx

/-- R530: a token under a command of its own, by whether debug is requested and which check fails first. -/
theorem Yields.ofToken (hm : tokenForm (s.chip.tokenBytes src) = false ∨ tkCommand (s.chip.tokenBytes src) = cmd) :
    (s.chip.root.debug = .requested → Yields i s ((s.chip.set R.SEC_ROOT_STATUS_REFUSED 1).refusedCommand R.SEC_ROOT_CMD_CMD)) ∧
    (s.chip.root.debug ≠ .requested → s.chip.sourceCheck src ≠ 0 →
      Yields i s (s.chip.challengeUsed.tokenEnd (s.chip.tokenBytes src) (s.chip.sourceCheck src))) ∧
    (s.chip.root.debug ≠ .requested → s.chip.sourceCheck src = 0 → Yields i s (act (s.chip.tokenBytes src) s.chip.challengeUsed)) :=
  ⟨fun h => Yields.ofSource hs hx (Chip.submit_refused hm h act), fun h hk => Yields.ofSource hs hx (Chip.submit_fails hm h hk act),
    fun h hk => Yields.ofSource hs hx (Chip.submit_acts hm h hk act)⟩

/-- A well-formed token of another command is none of this row's business. -/
theorem Yields.ofOtherToken (hf : tokenForm (s.chip.tokenBytes src) = true) (hc : tkCommand (s.chip.tokenBytes src) ≠ cmd) : Yields i s s.chip :=
  Yields.ofSource hs hx (Chip.submit_otherCommand hf hc act)

end

/-- Settles O46: a row of Table 17-5 is a submission under its command, and a submission is refused, ends with its first failing check, or acts. -/
theorem tokensAreSubmitted : Obligations.TokensAreSubmitted := by
  intro s c refused
  refine ⟨fun hs => ⟨fun h => ⟨?_, ?_⟩, fun h => ⟨?_, ?_⟩, ?_⟩, fun ha => ⟨fun h => ?_, fun h => ?_⟩, fun src ok hs => ?_⟩
  · exact Yields.served hs rfl rfl (Chip.rootCommand_requested h _)
  · exact Yields.served hs rfl rfl (Chip.rootCommand_requested h _)
  · exact Yields.served hs rfl rfl (Chip.rootCommand_taken h _)
  · exact Yields.served hs rfl rfl (Chip.rootCommand_taken h _)
  · obtain ⟨d, hd, hzero, hregs, hframe⟩ := Completes.ofClearAll (i := .secRootCntClr) hs rfl rootCounters_distinct
    exact ⟨d, hd, hzero _ (by simp), hzero _ (by simp), hregs, hframe⟩
  · exact Yields.awake (f := challengeExpiry) ha rfl rfl (if_pos h)
  · exact Yields.awake (f := challengeExpiry) ha rfl rfl (if_neg (by rw [h]; exact Bool.false_ne_true))
  · intro bs cmd challenge d check t arg rows
    refine ⟨fun r hr => ?_, fun h hk => ⟨fun hc => ?_, fun hc => ?_, fun hc => ?_, fun hc => ?_, fun hc => ?_, fun hc => ?_, fun hc => ?_,
      fun hc => ?_, fun hc => ?_, fun hc => ?_, fun hc => ?_⟩⟩
    · have hrow : ∃ act, exec r.2 s = s.runBar2 true (src == .mailbox) R.SEC_ROOT_CMD_CMD (fun c => c.submit src r.1 act) := by
        simp only [rows, List.mem_cons, List.not_mem_nil, or_false] at hr
        rcases hr with rfl | rfl | rfl | rfl | rfl | rfl | rfl | rfl | rfl | rfl | rfl <;> exact ⟨_, rfl⟩
      obtain ⟨act, hx⟩ := hrow
      refine ⟨fun hf hc => Yields.ofOtherToken hs hx hf hc, fun hm => ?_⟩
      obtain ⟨hrefused, hfails, -⟩ := Yields.ofToken hs hx hm
      exact ⟨hrefused, hfails⟩
    · exact (Yields.ofToken hs (i := .provision src ok) rfl (.inr hc)).2.2 h hk
    · exact (Yields.ofToken hs (i := .deploy src ok) rfl (.inr hc)).2.2 h hk
    · exact (Yields.ofToken hs (i := .service src ok) rfl (.inr hc)).2.2 h hk
    · exact (Yields.ofToken hs (i := .returnToken src ok) rfl (.inr hc)).2.2 h hk
    · exact (Yields.ofToken hs (i := .retire src ok) rfl (.inr hc)).2.2 h hk
    · exact (Yields.ofToken hs (i := .fuseOwner src ok) rfl (.inr hc)).2.2 h hk
    · exact (Yields.ofToken hs (i := .revokeOwner src ok) rfl (.inr hc)).2.2 h hk
    · exact (Yields.ofToken hs (i := .trustAdd src) rfl (.inr hc)).2.2 h hk
    · exact (Yields.ofToken hs (i := .trustRemove src) rfl (.inr hc)).2.2 h hk
    · exact (Yields.ofToken hs (i := .revokeFwKey src ok) rfl (.inr hc)).2.2 h hk
    · obtain ⟨-, -, hact⟩ := Yields.ofToken hs (i := .debugOpen src) rfl (.inr hc)
      have hy := hact h hk
      refine ⟨fun hnone => ?_, fun x hx => ?_⟩
      · rw [show d = s.chip.challengeUsed from rfl] at hnone
        dsimp only at hnone hy
        rw [hnone] at hy
        exact hy
      · rw [show d = s.chip.challengeUsed from rfl] at hx
        dsimp only at hx hy
        rw [hx] at hy
        exact hy

section
variable {s : State}

/-- R541: what a JTAG instruction does on a head that is clocked, and on one that is not. -/
theorem Yields.jtag {i : Instr} {f : Chip → Chip} (hx : exec i s = s.run true (·.jtagOn f)) (ha : s.chip.awake = true) :
    Yields i s (f s.chip) := Yields.run hx rfl (if_pos ha)

theorem Yields.jtagOff {i : Instr} {f : Chip → Chip} (hx : exec i s = s.run true (·.jtagOn f)) (ha : s.chip.awake = false) :
    Yields i s s.chip := Yields.run hx rfl (if_neg (by rw [ha]; exact Bool.false_ne_true))

theorem dbgToken_yields (ha : s.chip.awake = true) (b : List Byte) (ok : Bool) :
    Yields (.dbgToken b ok) s ((s.chip.jtagSelect .dbgToken .functional).jtagToken (.jtag b) ok
      (tkCommand ((s.chip.jtagSelect .dbgToken .functional).tokenBytes (.jtag b)))) := by
  have hy := Yields.jtag (i := .dbgToken b ok) (s := s) rfl ha
  exact hy

end

/-- Settles O48: each instruction is what the port does under power, by the gate of Table 17-9 or of R541. -/
theorem jtagInstructionsAct : Obligations.JtagInstructionsAct := by
  intro s c bypass
  refine ⟨fun ha => ⟨fun l => ⟨?_, ?_, ?_⟩, ?_, fun x y => ⟨?_, ?_⟩, ?_, fun b ok => ?_, fun a n w => ?_, fun h => ?_⟩, fun h => ?_,
    fun ha => ⟨fun l => ?_, ?_, fun x y => ?_, fun h => ⟨fun x y => ?_, fun l => ?_, fun l => ?_⟩, fun hl hd => ⟨fun x y => ?_, fun l => ?_, fun l => ?_⟩,
      ⟨fun h => ?_, fun h => ?_⟩, fun b ok => ?_, fun a n w => ⟨fun h => ?_, fun h => ?_⟩⟩⟩
  · exact Yields.jtagOff rfl ha
  · exact Yields.jtagOff rfl ha
  · exact Yields.jtagOff rfl ha
  · exact Yields.jtagOff rfl ha
  · exact Yields.jtagOff rfl ha
  · exact Yields.jtagOff rfl ha
  · exact Yields.jtagOff rfl ha
  · exact Yields.jtagOff rfl ha
  · exact Yields.jtagOff rfl ha
  · refine Yields.run (f := dbgStatus) rfl rfl (if_neg ?_)
    have ha' : s.chip.awake = false := ha
    rcases h with h | h <;> simp_all [c]
  · refine Yields.run (f := dbgStatus) rfl rfl (if_pos ?_)
    simpa using h
  · exact Yields.jtag (i := .jtagBypass l) rfl ha
  · exact Yields.jtag (i := .jtagIdcode) rfl ha
  · exact Yields.jtag (i := .jtagSamplePreload x y) rfl ha
  · have hy := Yields.jtag (i := .jtagExtest x y) (s := s) rfl ha
    rwa [if_pos ((Chip.scanAllowed_iff c).2 h)] at hy
  · have hy := Yields.jtag (i := .jtagClamp l) (s := s) rfl ha
    rwa [if_pos ((Chip.scanAllowed_iff c).2 h)] at hy
  · have hy := Yields.jtag (i := .jtagHighz l) (s := s) rfl ha
    rwa [if_pos ((Chip.scanAllowed_iff c).2 h)] at hy
  · have hy := Yields.jtag (i := .jtagExtest x y) (s := s) rfl ha
    rwa [if_neg (mt (Chip.scanAllowed_iff c).1 (not_or.2 ⟨hl, hd⟩))] at hy
  · have hy := Yields.jtag (i := .jtagClamp l) (s := s) rfl ha
    rwa [if_neg (mt (Chip.scanAllowed_iff c).1 (not_or.2 ⟨hl, hd⟩))] at hy
  · have hy := Yields.jtag (i := .jtagHighz l) (s := s) rfl ha
    rwa [if_neg (mt (Chip.scanAllowed_iff c).1 (not_or.2 ⟨hl, hd⟩))] at hy
  · have hy := Yields.jtag (i := .dbgChallenge) (s := s) rfl ha
    rwa [Chip.rootCommand_requested (c := s.chip.jtagSelect .dbgChallenge .functional) h] at hy
  · have hy := Yields.jtag (i := .dbgChallenge) (s := s) rfl ha
    rwa [Chip.rootCommand_taken (c := s.chip.jtagSelect .dbgChallenge .functional) h] at hy
  · have hy := dbgToken_yields ha b ok
    intro d src cmd
    refine ⟨fun h => ?_, fun h => ?_, fun h => ?_, fun h => ?_, fun h => ?_, fun h => ?_, fun h => ?_, fun h => ?_, fun h => ?_, fun h => ?_,
      fun h => ?_⟩
    case refine_11 => exact (Chip.jtagToken_open _ _ _ h) ▸ hy
    all_goals
      rw [show tkCommand (Chip.tokenBytes _ _) = _ from h] at hy
      exact hy
  · have hy := Yields.jtag (i := .dbgAccess a n w) (s := s) rfl ha
    rwa [if_pos h] at hy
  · have hy := Yields.jtag (i := .dbgAccess a n w) (s := s) rfl ha
    rwa [if_neg h] at hy

end Sys2Proof

namespace Sys2Proof.Machine

/-! ### The firmware slot: confirmation, the board record and recovery through the peer (R551, R565, R567, R568) -/

section
variable {c : Chip}

theorem bootConfirm_idle (h : c.boot.running = none) : bootConfirm c = c.bootRefuse := if_pos (by simp [h])

theorem bootConfirm_pending (h : c.boot.running ≠ none) (hp : c.on R.BOOT_STATUS_FW_PENDING = true) : bootConfirm c = c.confirmFw.bootEnd 0 :=
  (if_neg (by simp [h])).trans (if_pos hp)

theorem bootConfirm_settled (h : c.boot.running ≠ none) (hp : c.on R.BOOT_STATUS_FW_PENDING = false) : bootConfirm c = c.bootEnd 1 :=
  (if_neg (by simp [h])).trans (if_neg (by simp [hp]))

theorem saveBoard_refused (h : c.lifecycle = 4 ∨ c.root.debug ≠ .closed) (ok : Bool) : saveBoard ok c = c.bootRefuse :=
  if_pos (by simpa using h)

theorem saveBoard_open (hl : c.lifecycle ≠ 4) (hd : c.root.debug = .closed) (ok : Bool) : saveBoard ok c =
    if ok then ({ c with boot := { c.boot with
      boardRec := some ⟨c.get R.BOOT_BOARD_SSVID, c.get R.BOOT_BOARD_SSID, c.get R.BOOT_BOARD_SERIAL_SERIAL⟩ } } : Chip).bootEnd 0
    else (({ c with boot := { c.boot with boardRec := none } } : Chip).event 0x381 0 0 0 0 0).bootEnd 2 :=
  if_neg (by simp [hl, hd])

/-- R567: what a FW_REQ that acts makes of the head. -/
def Chip.answerFwReq (empty : Bool) (c : Chip) : Chip :=
  let loader := c.zbl.peer.any (fun m => m.state == 5)
  let may := (c.zbl.state == .sole || c.zbl.state == .alone) && c.on R.BOOT_CTRL_HEAL_PEER && c.boot.fwState == 2 && c.boot.confirmed
  if empty || !loader || !may || c.on R.GLB_STATUS_LOADER_ONLY then c
  else
    let n := c.boot.fwHeader.length
    let c := (List.range (ceilDiv n 4096)).foldl (fun d i =>
      d.peerSend 1 0 (.fwData (4096 * i) (Mem.read d.boot.fwSlot (4096 * i) (min 4096 (n - 4096 * i))))) c
    c.peerSend 1 0 (.fwEnd n c.boot.fwSerial)

theorem fwReq_receives (h : PeerHdr) (floor awg : Nat) (empty : Bool) (c : Chip) :
    fwReq h floor awg empty c = c.receive h (.fwReq floor awg empty) (Chip.answerFwReq empty) := rfl

theorem Chip.answerFwReq_empty : c.answerFwReq true = c := rfl

/-- The peer whose FW_REQ is answered is a loader, and this head heals its peer (R567). -/
def Chip.healsPeer (c : Chip) : Prop :=
  (∃ m, c.zbl.peer = some m ∧ m.state = 5) ∧ ((c.zbl.state = .sole ∨ c.zbl.state = .alone) ∧ c.on R.BOOT_CTRL_HEAL_PEER = true ∧
    c.boot.fwState = 2 ∧ c.boot.confirmed = true ∧ c.on R.GLB_STATUS_LOADER_ONLY = false)

theorem Chip.healsPeer_iff : c.healsPeer ↔ ¬ (false || !(c.zbl.peer.any (fun m => m.state == 5)) ||
    !((c.zbl.state == .sole || c.zbl.state == .alone) && c.on R.BOOT_CTRL_HEAL_PEER && c.boot.fwState == 2 && c.boot.confirmed) ||
    c.on R.GLB_STATUS_LOADER_ONLY) = true := by
  simp only [Chip.healsPeer, Bool.false_or, Bool.or_eq_true, Bool.not_eq_true', not_or, Bool.not_eq_false, Option.any_eq_true, Bool.and_eq_true,
    beq_iff_eq, Bool.not_eq_true, and_assoc]

theorem Chip.answerFwReq_unmet (h : ¬ c.healsPeer) : c.answerFwReq false = c := if_pos (not_not.1 (mt Chip.healsPeer_iff.2 h))

theorem Chip.answerFwReq_sends (h : c.healsPeer) : c.answerFwReq false =
    ((List.range (ceilDiv c.boot.fwHeader.length 4096)).foldl (fun d i => d.peerSend 1 0 (.fwData (4096 * i)
      (Mem.read d.boot.fwSlot (4096 * i) (min 4096 (c.boot.fwHeader.length - 4096 * i))))) c).peerSend 1 0
      (.fwEnd c.boot.fwHeader.length ((List.range (ceilDiv c.boot.fwHeader.length 4096)).foldl (fun d i => d.peerSend 1 0 (.fwData (4096 * i)
      (Mem.read d.boot.fwSlot (4096 * i) (min 4096 (c.boot.fwHeader.length - 4096 * i))))) c).boot.fwSerial) :=
  if_neg (Chip.healsPeer_iff.1 h)

/-- R567: what a FW_DATA that acts makes of the head. -/
def Chip.takeFwData (ofs : Nat) (data : List Byte) (c : Chip) : Chip :=
  if !c.healing then c
  else if c.boot.writer.isSome then c.endHeal
  else if 4096 < data.length || decide (0x2000000 < ofs + data.length) then c
  else { c with boot := { c.boot with healBuf := Mem.write c.boot.healBuf ofs data, healPieces := (ofs, data.length) :: c.boot.healPieces } }

theorem fwData_receives (h : PeerHdr) (ofs : Nat) (data : List Byte) (c : Chip) :
    fwData h ofs data c = c.receive h (.fwData ofs data) (Chip.takeFwData ofs data) := rfl

/-- R568: what a FW_END that acts makes of the head. -/
def Chip.takeFwEnd (length serial : Nat) (c : Chip) : Chip :=
  if !c.healing then c
  else if c.boot.writer.isSome then c.endHeal
  else
    let bs := Mem.read c.boot.healBuf 0 (min length 0x2000000)
    let whole := covers c.boot.healPieces length && numAt bs 8 4 == length
    let c := { c with boot := { c.boot with healBuf := [], healPieces := [] } }
    match c.checkFw bs whole with
    | 0 => c.beginSlotWrite .heal bs
    | k => ({ (c.verifyFailed k 2) with boot := { c.boot with healBad := some serial } } : Chip).set R.BOOT_STATUS_HEALING 0

theorem fwEnd_receives (h : PeerHdr) (length serial : Nat) (c : Chip) :
    fwEnd h length serial c = c.receive h (.fwEnd length serial) (Chip.takeFwEnd length serial) := by
  unfold fwEnd
  rfl

variable {ofs n k : Nat} {l : List Byte}

theorem Chip.takeFwData_unhealed (h : c.healing = false) : c.takeFwData ofs l = c := if_pos (by simp [h])
theorem Chip.takeFwEnd_unhealed (h : c.healing = false) : c.takeFwEnd n k = c := if_pos (by simp [h])

variable (h : c.healing = true)
include h

theorem Chip.takeFwData_written (hw : c.boot.writer ≠ none) : c.takeFwData ofs l = c.endHeal :=
  (if_neg (by simp [h])).trans (if_pos (Option.isSome_iff_ne_none.2 hw))

theorem Chip.takeFwEnd_written (hw : c.boot.writer ≠ none) : c.takeFwEnd n k = c.endHeal :=
  (if_neg (by simp [h])).trans (if_pos (Option.isSome_iff_ne_none.2 hw))

variable (hw : c.boot.writer = none)
include hw

theorem Chip.takeFwData_bad (hl : 4096 < l.length ∨ 0x2000000 < ofs + l.length) : c.takeFwData ofs l = c :=
  (if_neg (by simp [h])).trans ((if_neg (by simp [hw])).trans (if_pos (by simpa using hl)))

theorem Chip.takeFwData_kept (hl : l.length ≤ 4096) (ho : ofs + l.length ≤ 0x2000000) : c.takeFwData ofs l =
    { c with boot := { c.boot with healBuf := Mem.write c.boot.healBuf ofs l, healPieces := (ofs, l.length) :: c.boot.healPieces } } :=
  (if_neg (by simp [h])).trans ((if_neg (by simp [hw])).trans (if_neg (by simp [hl, ho])))

/-- The check of the image that FW_END completes (R553, R568). -/
def Chip.healCheck (c : Chip) (n : Nat) : Nat :=
  ({ c with boot := { c.boot with healBuf := [], healPieces := [] } } : Chip).checkFw (Mem.read c.boot.healBuf 0 (min n 0x2000000))
    (covers c.boot.healPieces n && numAt (Mem.read c.boot.healBuf 0 (min n 0x2000000)) 8 4 == n)

theorem Chip.takeFwEnd_good (hc : c.healCheck n = 0) : c.takeFwEnd n k =
    ({ c with boot := { c.boot with healBuf := [], healPieces := [] } } : Chip).beginSlotWrite .heal (Mem.read c.boot.healBuf 0 (min n 0x2000000)) := by
  refine (if_neg (by simp [h])).trans ((if_neg (by simp [hw])).trans ?_)
  unfold Chip.healCheck at hc
  dsimp only at hc ⊢
  rw [hc]
  rfl

theorem Chip.takeFwEnd_bad (hc : c.healCheck n ≠ 0) : c.takeFwEnd n k =
    ({ (({ c with boot := { c.boot with healBuf := [], healPieces := [] } } : Chip).verifyFailed (c.healCheck n) 2) with
      boot := { c.boot with healBuf := [], healPieces := [], healBad := some k } } : Chip).set R.BOOT_STATUS_HEALING 0 := by
  refine (if_neg (by simp [h])).trans ((if_neg (by simp [hw])).trans ?_)
  unfold Chip.healCheck at hc ⊢
  dsimp only at hc ⊢
  split
  case h_1 hz => exact absurd hz hc
  case h_2 => rfl

end

end Sys2Proof.Machine

namespace Sys2Proof
open Sys2Proof.Machine

/-- Settles O49: CONFIRM and SAVE_BOARD by what refuses them, and each frame of a heal by what this head is to it. -/
theorem firmwareIsConfirmedAndHealed : Obligations.FirmwareIsConfirmedAndHealed := by
  intro s c refused
  refine ⟨fun hs => ⟨fun h => ?_, fun h hp => ?_, fun h hp => ?_, fun ok h => ?_, fun hl hd => ⟨?_, ?_⟩, ?_⟩, fun ha => ⟨⟨fun h => ?_, fun h => ?_⟩,
    ⟨fun _ _ empty => Chip.answerFwReq empty, fun h floor awg e => Yields.awake ha rfl rfl (fwReq_receives h floor awg e c),
      fun _ _ d => ⟨Chip.answerFwReq_empty, fun h => Chip.answerFwReq_unmet h, fun hl hm => Chip.answerFwReq_sends ⟨hl, hm⟩⟩⟩,
    ⟨Chip.takeFwData, fun h ofs l => Yields.awake ha rfl rfl (fwData_receives h ofs l c), fun ofs l d => ⟨Chip.takeFwData_unhealed,
      Chip.takeFwData_written, Chip.takeFwData_bad, Chip.takeFwData_kept⟩⟩,
    ⟨Chip.takeFwEnd, fun h n k => Yields.awake ha rfl rfl (fwEnd_receives h n k c), fun n k d => ⟨Chip.takeFwEnd_unhealed, Chip.takeFwEnd_written,
      fun h hw => ⟨Chip.takeFwEnd_good h hw, Chip.takeFwEnd_bad h hw⟩⟩⟩⟩⟩
  · exact Yields.served hs rfl rfl (bootConfirm_idle h)
  · exact Yields.served hs rfl rfl (bootConfirm_pending h hp)
  · exact Yields.served hs rfl rfl (bootConfirm_settled h hp)
  · exact Yields.served hs rfl rfl (saveBoard_refused h ok)
  · exact Yields.served hs rfl rfl (saveBoard_open hl hd true)
  · exact Yields.served hs rfl rfl (saveBoard_open hl hd false)
  · exact Completes.ofClearAll hs rfl (by decide)
  · exact Yields.awake (f := confirmTimeout) ha rfl rfl (if_pos (by simpa [and_assoc] using h))
  · exact Yields.awake (f := confirmTimeout) ha rfl rfl (if_neg (by simpa [and_assoc] using h))

end Sys2Proof

namespace Sys2Proof.Machine

/-! ### Firmware download, commit and the end of a slot write (R559 to R562, R568) -/

section
variable {c : Chip} {ofs n : Nat}

theorem Chip.downloadCheck_busy (hb : c.boot.writer.isSome = true ∨ c.boot.commitWaiting.isSome = true) :
    c.downloadCheck ofs n = some ⟨0, 0x0C, true⟩ := if_pos (by simpa using hb)

variable (hb : ¬ (c.boot.writer.isSome = true ∨ c.boot.commitWaiting.isSome = true))
include hb

theorem Chip.downloadCheck_odd (ho : n = 0 ∨ n % 4096 ≠ 0 ∨ ofs % 4096 ≠ 0 ∨ 0x2000000 < ofs + n) :
    c.downloadCheck ofs n = some ⟨0, 0x02, true⟩ :=
  (if_neg (by simpa using hb)).trans (if_pos (by simpa [or_assoc] using ho))

variable (ho : ¬ (n = 0 ∨ n % 4096 ≠ 0 ∨ ofs % 4096 ≠ 0 ∨ 0x2000000 < ofs + n))
include ho

theorem Chip.downloadCheck_meets (hm : c.boot.pieces.any (rangesMeet (ofs, n)) = true) : c.downloadCheck ofs n = some ⟨1, 0x14, true⟩ :=
  (if_neg (by simpa using hb)).trans ((if_neg (by simpa [or_assoc] using ho)).trans (if_pos hm))

theorem Chip.downloadCheck_passes (hm : c.boot.pieces.any (rangesMeet (ofs, n)) = false) : c.downloadCheck ofs n = none :=
  (if_neg (by simpa using hb)).trans ((if_neg (by simpa [or_assoc] using ho)).trans (if_neg (by simp [hm])))

end

theorem Chip.downloadCheck_pos {c : Chip} {ofs n : Nat} (h : c.downloadCheck ofs n = none) : n ≠ 0 := by
  intro hn
  by_cases hb : c.boot.writer.isSome = true ∨ c.boot.commitWaiting.isSome = true
  · rw [Chip.downloadCheck_busy hb] at h; cases h
  · rw [Chip.downloadCheck_odd hb (.inl hn)] at h; cases h

/-- What a commit that has begun makes of the head (R560 to R562). -/
def Chip.commits (c : Chip) (id : CmdId) (ca fs : Nat) (peerUnconfirmed : Bool) : Chip :=
  if ca != 1 && ca != 2 then c.finish id stField
  else if 1 < fs then c.finish id (stat 1 0x06 true)
  else if ca = 2 then
    if c.otherImage then c.finish id (stat 1 0x0B true)
    else if c.boot.fwState = 2 then c.finish id stOk
    else c.finish id (stat 1 0x07 true)
  else if c.commitProhibited peerUnconfirmed then c.finish id (stat 1 0x13 false)
  else if c.boot.writer.isSome || c.boot.commitWaiting.isSome then c.finish id (stat 0 0x0C true)
  else if c.kcfState = 9 then { c with boot := { c.boot with commitWaiting := some id } }
  else c.runCommit id

theorem firmwareCommit_executes (id : CmdId) (ca fs : Nat) (u : Bool) (c : Chip) :
    firmwareCommit id ca fs u c = c.execute id true 0x10 (fun _ c => c.commits id ca fs u) := rfl

section
variable {c : Chip} {id : CmdId} {ca fs : Nat} {u : Bool}

theorem Chip.commits_badAction (h1 : ca ≠ 1) (h2 : ca ≠ 2) : c.commits id ca fs u = c.finish id ⟨0, 0x02, true⟩ := if_pos (by simp [h1, h2])

theorem Chip.commits_badSlot (h : ca = 1 ∨ ca = 2) (hf : 1 < fs) : c.commits id ca fs u = c.finish id ⟨1, 0x06, true⟩ :=
  (if_neg (by rcases h with rfl | rfl <;> simp)).trans (if_pos hf)

theorem Chip.commits_activate (h : ca = 2) (hf : fs ≤ 1) : c.commits id ca fs u =
    if c.otherImage then c.finish id ⟨1, 0x0B, true⟩ else if c.boot.fwState = 2 then c.finish id ⟨0, 0, false⟩ else c.finish id ⟨1, 0x07, true⟩ := by
  subst h
  exact (if_neg (by simp)).trans ((if_neg (not_lt.2 hf)).trans (if_pos rfl))

theorem Chip.commits_write (h : ca = 1) (hf : fs ≤ 1) : c.commits id ca fs u =
    if c.commitProhibited u then c.finish id ⟨1, 0x13, false⟩
    else if c.boot.writer.isSome || c.boot.commitWaiting.isSome then c.finish id ⟨0, 0x0C, true⟩
    else if c.kcfState = 9 then { c with boot := { c.boot with commitWaiting := some id } }
    else c.runCommit id := by
  subst h
  exact (if_neg (by simp)).trans ((if_neg (not_lt.2 hf)).trans (if_neg (by decide)))

end

/-- The chip whose slot has been read back, for a heal or for a commit (R561). -/
def Chip.slotRead (c : Chip) (ok heal : Bool) : Chip :=
  let d := (c.setFlag R.BOOT_STATUS_WRITING (c.kcfState == 9)).set R.BOOT_STATUS_HEALING 0
  let d := if ok then
      (d.slotTable (fun b => { b with
        fwState := 2, fwSerial := b.newHeader.serial, attempts := 0, confirmed := heal, fwSlot := b.newBytes, fwHeader := b.newHeader })).bump
        R.BOOT_CNT_COMMITS_COMMITS 1
    else d.event 0x381 0 0 0 0 0
  ({ d with boot := { d.boot with writer := none, newBytes := [], newHeader := {} } } : Chip).showPending

section
variable {c : Chip} {j : CmdId}

theorem fwSlotWriteDone_idle (h : c.boot.writer = none) (ok : Bool) : fwSlotWriteDone ok c = c := by
  unfold fwSlotWriteDone
  rw [h]

theorem fwSlotWriteDone_commit (h : c.boot.writer = some (.commit j)) (ok : Bool) :
    fwSlotWriteDone ok c = (c.slotRead ok false).finish j (if ok then ⟨1, 0x0B, true⟩ else ⟨1, 0x07, true⟩) := by
  unfold fwSlotWriteDone
  rw [h]
  dsimp only
  rw [show (FwWriter.commit j == FwWriter.heal) = false from rfl]
  cases ok <;> rfl

theorem fwSlotWriteDone_healed (h : c.boot.writer = some .heal) :
    fwSlotWriteDone true c = ((c.slotRead true true).bump R.BOOT_CNT_HEALS_HEALS 1).warmReset := by
  unfold fwSlotWriteDone
  rw [h]
  dsimp only
  rw [show (FwWriter.heal == FwWriter.heal) = true from rfl, if_pos rfl, if_pos rfl]
  rfl

theorem fwSlotWriteDone_unhealed (h : c.boot.writer = some .heal) :
    fwSlotWriteDone false c = { c.slotRead false true with boot := { (c.slotRead false true).boot with healOff := true } } := by
  unfold fwSlotWriteDone
  rw [h]
  rfl

end

end Sys2Proof.Machine

namespace Sys2Proof
open Sys2Proof.Machine

/-- Settles O23: a download by its check, a commit by its action and what prohibits it, and the end of a slot write by its writer. -/
theorem firmwareCommandsComplete : Obligations.FirmwareCommandsComplete := by
  intro s id i c e done writing
  refine ⟨fun ofs n st h hc => ?_, fun ofs n slot h hc hs => ?_, fun ofs n => ⟨Chip.downloadCheck_busy, Chip.downloadCheck_odd,
    Chip.downloadCheck_meets, Chip.downloadCheck_passes⟩, fun ofs n slot h => ?_, fun h ca fs u => ?_, fun ha => ⟨fun hw ok => ?_, fun j hw => ⟨?_, ?_⟩,
    fun hw => ⟨?_, ?_⟩⟩⟩
  · exact Yields.awake h.1.1 rfl (decide_eq_true h.1.2.1) (h.ends (by rw [show s.chip.downloadCheck ofs n = some st from hc]; rfl) _)
  · exact Yields.awake h.1.1 rfl (decide_eq_true h.1.2.1)
      (h.begins (Chip.downloadCheck_pos hc) (by rw [show s.chip.downloadCheck ofs n = none from hc]; rfl) hs _)
  · intro e
    have hy : Yields (.firmwareImageDownload id ofs n) s _ := Yields.awake h.1 rfl (decide_eq_true h.2.1) (h.executes n _ _)
    refine ⟨fun st hc => ?_, fun hc => ?_⟩
    · dsimp only at hy
      rw [show (s.chip.taken id).downloadCheck ofs n = some st from hc] at hy
      exact hy
    · dsimp only at hy
      rw [show (s.chip.taken id).downloadCheck ofs n = none from hc] at hy
      exact hy
  · intro row
    have hy : Yields row s (e.commits id ca fs u) := Yields.fetching h rfl (decide_eq_true h.2.1) (firmwareCommit_executes id ca fs u c) rfl
    refine ⟨fun h1 h2 => ?_, fun h hf => ?_, fun h hf => ?_, fun h hf => ?_⟩
    · rwa [Chip.commits_badAction h1 h2] at hy
    · rwa [Chip.commits_badSlot h hf] at hy
    · rw [Chip.commits_activate h hf] at hy
      refine ⟨fun ho => ?_, fun ho hw => ?_, fun ho hw => ?_⟩
      · rwa [if_pos ho] at hy
      · rwa [if_neg (by rw [ho]; exact Bool.false_ne_true), if_pos hw] at hy
      · rwa [if_neg (by rw [ho]; exact Bool.false_ne_true), if_neg hw] at hy
    · rw [Chip.commits_write h hf] at hy
      refine ⟨fun hp => ?_, fun hp hw => ?_, fun hp hw hk => ?_, fun hp hw hk => ?_⟩
      · rwa [if_pos hp] at hy
      · rwa [if_neg (by rw [hp]; exact Bool.false_ne_true), if_pos (by simpa [writing] using hw)] at hy
      · rwa [if_neg (by rw [hp]; exact Bool.false_ne_true), if_neg (by simpa [writing] using hw), if_pos hk] at hy
      · rwa [if_neg (by rw [hp]; exact Bool.false_ne_true), if_neg (by simpa [writing] using hw), if_neg hk] at hy
  · exact Yields.awake ha rfl rfl (fwSlotWriteDone_idle hw ok)
  · exact Yields.awake ha rfl rfl (fwSlotWriteDone_commit hw true)
  · exact Yields.awake ha rfl rfl (fwSlotWriteDone_commit hw false)
  · exact Yields.awake ha rfl rfl (fwSlotWriteDone_healed hw)
  · exact Yields.awake ha rfl rfl (fwSlotWriteDone_unhealed hw)

end Sys2Proof

namespace Sys2Proof.Machine

/-! ### Commands of the DMA channels (R457, R462, R469, Table 14-5) -/

theorem Chip.modChan_congr {c : Chip} {ch : Nat} {f g : DmaChan → DmaChan} (h : f (c.chan ch) = g (c.chan ch)) : c.modChan ch f = c.modChan ch g := by
  simp [Chip.modChan, h]

section
variable {c : Chip} {ch : Nat}

theorem Chip.chanOrder_foreign {byHost : Bool} (h : ¬ (byHost = false ∨ hostOwned ch = true)) (code : Nat) :
    c.chanOrder ch code byHost = c.event 0x014 3 (R.DMA_CH_CMD_CMD ch).addr 0 ch 0 := if_pos (by simpa using h)

section
variable {byHost : Bool} (h : byHost = false ∨ hostOwned ch = true)
include h

theorem Chip.not_foreign : ¬ (byHost && !hostOwned ch) = true := by rcases h with h | h <;> simp [h]

/-- R469: a command that comes while a burst runs waits for its end. -/
theorem Chip.chanOrder_bursting (hr : (c.chan ch).state = .running) (hb : (c.chan ch).bursting = true) (code : Nat) :
    c.chanOrder ch code byHost = c.modChan ch (fun x => { x with later := x.later ++ [code] }) :=
  (if_neg (Chip.not_foreign h)).trans (if_pos (by simp [hr, hb]))

theorem Chip.chanOrder_taken (hb : (c.chan ch).state ≠ .running ∨ (c.chan ch).bursting = false) (code : Nat) :
    c.chanOrder ch code byHost = c.chanCommand ch code :=
  (if_neg (Chip.not_foreign h)).trans (if_neg (by rcases hb with hb | hb <;> simp [hb]))

end

theorem Chip.chanCommand_start : c.chanCommand ch 1 =
    if ((c.chan ch).state == .idle || (c.chan ch).state == .error) && !c.on R.DMA_STATUS_BUS_STOP then c.chanStart ch
    else c.set (R.DMA_CH_STATUS_REFUSED ch) 1 := by simp [Chip.chanCommand]

theorem Chip.chanCommand_pause : c.chanCommand ch 2 =
    if (c.chan ch).state ∈ [.running, .waitReq, .waitLink, .waitDesc] then
      c.modChan ch (fun y => { y with state := .paused, left := (c.chan ch).state })
    else c.set (R.DMA_CH_STATUS_REFUSED ch) 1 := by
  rw [Chip.modChan_congr (g := fun y => { y with state := .paused, left := y.state }) rfl]
  simp [Chip.chanCommand, or_assoc]

theorem Chip.chanCommand_resume : c.chanCommand ch 3 =
    if (c.chan ch).state ∈ [.paused, .stopped] ∧ c.on R.DMA_STATUS_BUS_STOP = false then c.chanReturn ch
    else c.set (R.DMA_CH_STATUS_REFUSED ch) 1 := by simp [Chip.chanCommand]

theorem Chip.chanCommand_abort : c.chanCommand ch 4 =
    if (c.chan ch).state ≠ .idle then c.chanAbort ch false else c.set (R.DMA_CH_STATUS_REFUSED ch) 1 := by simp [Chip.chanCommand]

theorem Chip.chanAbort_loud : c.chanAbort ch false =
    ((if (c.chan ch).inDesc && (c.chan ch).state != .stopped then c.endDesc ch 0x0A 0 (c.chan ch).moved noDiff else c).chanDropReads ch).modChan ch
      (fun x => { x with state := .idle, desc := none, later := [] }) := by simp [Chip.chanAbort]

/-- A channel as START finds it: at HEAD, with nothing done (Table 14-5). -/
def Chip.atHead (c : Chip) (ch : Nat) : Chip :=
  c.modChan ch (fun x => { x with
    diffStop := false, cur := c.get (R.DMA_CH_HEAD_HEAD ch), space := c.get (R.DMA_CH_CTRL_CHAIN_SPACE ch), desc := none, moved := 0, remain := 0 })

theorem Chip.chanStart_bad (h : c.get (R.DMA_CH_HEAD_HEAD ch) % 64 ≠ 0 ∨
      (c.atHead ch).chanMay ch (c.get (R.DMA_CH_CTRL_CHAIN_SPACE ch)) (c.get (R.DMA_CH_HEAD_HEAD ch)) 64 = false) :
    c.chanStart ch = ((((c.atHead ch).modChan ch (fun x => { x with state := .error })).set (R.DMA_CH_STATUS_RESULT ch) 0x04).chanErr ch) :=
  if_pos (by simpa [Chip.atHead] using h)

theorem Chip.chanStart_begins (h : c.get (R.DMA_CH_HEAD_HEAD ch) % 64 = 0)
    (hm : (c.atHead ch).chanMay ch (c.get (R.DMA_CH_CTRL_CHAIN_SPACE ch)) (c.get (R.DMA_CH_HEAD_HEAD ch)) 64 = true) :
    c.chanStart ch = (c.atHead ch).chanRead ch .fetching :=
  if_neg (by simpa [Chip.atHead] using And.intro h hm)

end

/-! ### The window of the host region (R458, R473) -/

/-- The length that HWIN_LEN takes: the high half written over the low half that is held, or is written with it (R9). -/
def Chip.windowLen (c : Chip) (low : Option Word32) (high : Word32) : Nat :=
  high.toNat * 0x100000000 + low.elim (c.lowHalf R.DMA_HWIN_LEN_LEN) (fun w => w.toNat)

/-- Whether a window may be taken: aligned, and empty or within a region of type 6. -/
def Chip.windowFits (c : Chip) (base len : Nat) : Bool :=
  len % 0x200000 == 0 && base % 0x200000 == 0 && (len == 0 ||
    (c.carve 6).any (fun r => decide (r.base ≤ base) && decide (base + len ≤ r.base + r.size)))

theorem Chip.windowFits_iff (c : Chip) (base len : Nat) : c.windowFits base len = true ↔
    len % 0x200000 = 0 ∧ base % 0x200000 = 0 ∧ (len = 0 ∨ ∃ r ∈ c.carve 6, r.base ≤ base ∧ base + len ≤ r.base + r.size) := by
  simp [Chip.windowFits, and_assoc]

/-- The chip with the half of HWIN_LEN that is held used up (R10). -/
def Chip.halfUsed (c : Chip) : Chip := { c with regs := { c.regs with held := Sparse.set none c.regs.held R.DMA_HWIN_LEN_LEN.addr none } }

theorem hwinLenWrite_eq (low : Option Word32) (high : Word32) (c : Chip) :
    hwinLenWrite low high c =
      if c.windowFits (c.get R.DMA_HWIN_BASE_BASE) (c.windowLen low high) then
        { c.halfUsed.set R.DMA_HWIN_LEN_LEN (c.windowLen low high) with
          dma := { c.dma with hwBase := c.get R.DMA_HWIN_BASE_BASE, hwLen := c.windowLen low high } }
      else (c.halfUsed.set R.DMA_HWIN_BASE_BASE c.dma.hwBase).invalidEncoding R.DMA_HWIN_LEN_LEN (c.windowLen low high) := by
  cases low <;> rfl

end Sys2Proof.Machine

namespace Sys2Proof
open Sys2Proof.Machine

section
variable {s : State} {ch : Nat} {byHost : Bool} (hch : ch < 32) (hs : if byHost then Served s else s.chip.awake = true)
include hch hs

/-- A channel's command reaches it from the host through BAR2, and from the firmware while the head is clocked. -/
theorem Yields.ofChannel {i : Instr} {reg : Fld} {f : Chip → Chip} {d : Chip} (hx : exec i s = s.runBar2 (decide (ch < 32)) byHost reg f)
    (hd : f s.chip = d) : Yields i s d := by
  cases byHost with
  | true => exact Yields.served (by simpa using hs) hx (decide_eq_true hch) hd
  | false =>
    subst hd
    exact hx.trans (State.runBar2_next (decide_eq_true hch) (by simpa using hs) (fun hb => absurd hb Bool.false_ne_true))

end

/-- Settles O40: a command by its owner, by whether a burst runs, and by the channel's state. -/
theorem dmaCommandsAct : Obligations.DmaCommandsAct := by
  intro s c
  refine ⟨fun ch byHost hch hs => ?_, fun hs h => ?_, fun hs h => ?_, fun ha => ⟨fun h ht => ?_, fun h => ?_⟩, fun hs low high => ?_, fun hs => ?_⟩
  · intro x allowed stop refuse
    have horder {i : Instr} {code : Nat} {d : Chip}
        (hx : exec i s = s.runBar2 (decide (ch < 32)) byHost (R.DMA_CH_CMD_CMD ch) (·.chanOrder ch code byHost))
        (hd : c.chanOrder ch code byHost = d) : Yields i s d := Yields.ofChannel hch hs hx hd
    refine ⟨fun h => ⟨?_, ?_, ?_, ?_, ?_⟩, fun h hr hb => ⟨?_, ?_, ?_, ?_⟩, fun h hb => ?_, fun h => ⟨fun ho hstop => ?_, fun ho => ?_⟩⟩
    · exact horder rfl (Chip.chanOrder_foreign h 1)
    · exact horder rfl (Chip.chanOrder_foreign h 2)
    · exact horder rfl (Chip.chanOrder_foreign h 3)
    · exact horder rfl (Chip.chanOrder_foreign h 4)
    · exact Yields.ofChannel hch hs (f := dmaDoorbell ch byHost) rfl (if_pos (by simpa [allowed] using h))
    · exact horder rfl (Chip.chanOrder_bursting h hr hb 1)
    · exact horder rfl (Chip.chanOrder_bursting h hr hb 2)
    · exact horder rfl (Chip.chanOrder_bursting h hr hb 3)
    · exact horder rfl (Chip.chanOrder_bursting h hr hb 4)
    · have hstart : Yields (.dmaStart ch byHost) s _ := horder rfl ((Chip.chanOrder_taken h hb 1).trans Chip.chanCommand_start)
      have hpause : Yields (.dmaPause ch byHost) s _ := horder rfl ((Chip.chanOrder_taken h hb 2).trans Chip.chanCommand_pause)
      have hresume : Yields (.dmaResume ch byHost) s _ := horder rfl ((Chip.chanOrder_taken h hb 3).trans Chip.chanCommand_resume)
      have habort : Yields (.dmaAbort ch byHost) s _ := horder rfl ((Chip.chanOrder_taken h hb 4).trans Chip.chanCommand_abort)
      refine ⟨fun hst => ?_, fun hst hstop => ?_, fun hst => ?_, fun hst => ?_, fun hst hstop => ?_, fun hst => ?_, fun hst => ?_, fun hst => ?_⟩
      · rwa [if_neg (by simpa [imp_iff_not_or, not_or] using hst)] at hstart
      · have hcan : (((c.chan ch).state == .idle || (c.chan ch).state == .error) && !c.on R.DMA_STATUS_BUS_STOP) = true := by
          simpa using And.intro hst hstop
        rw [if_pos hcan] at hstart
        refine ⟨fun hbad => ?_, fun ha hm => ?_⟩
        · rwa [Chip.chanStart_bad hbad] at hstart
        · rwa [Chip.chanStart_begins ha hm] at hstart
      · rwa [if_pos hst] at hpause
      · rwa [if_neg hst] at hpause
      · rwa [if_pos ⟨hst, hstop⟩] at hresume
      · rwa [if_neg (by rw [not_and_or]; exact hst.imp id (fun h => by simpa using h))] at hresume
      · rwa [if_neg (not_not.2 hst)] at habort
      · rwa [if_pos hst, Chip.chanAbort_loud] at habort
    · refine Yields.ofChannel hch hs (f := dmaDoorbell ch byHost) rfl ((if_neg (Chip.not_foreign h)).trans (if_pos ?_))
      exact Bool.and_eq_true_iff.2 ⟨ho, by rw [Bool.not_eq_true']; exact hstop⟩
    · refine Yields.ofChannel hch hs (f := dmaDoorbell ch byHost) rfl ((if_neg (Chip.not_foreign h)).trans (if_neg ?_))
      rw [Bool.and_eq_true_iff, not_and_or, Bool.not_eq_true, Bool.not_eq_true, Bool.not_eq_false']
      exact ho
  · exact Yields.served (f := busStopClear) hs rfl rfl (if_pos h)
  · exact Yields.served (f := busStopClear) hs rfl rfl (if_neg (by rw [h]; exact Bool.false_ne_true))
  · exact Yields.awake (f := busStopTimeout) ha rfl rfl (if_pos (by simpa using And.intro h ht))
  · exact Yields.awake (f := busStopTimeout) ha rfl rfl (if_neg (by simpa [imp_iff_not_or] using h))
  · intro f len base ok d
    have hy : Yields (.hwinLenWrite low high) s _ := Yields.served hs rfl rfl (hwinLenWrite_eq low high c)
    refine ⟨fun hok => ?_, fun hok => ?_⟩
    · rwa [if_pos ((Chip.windowFits_iff c (c.get R.DMA_HWIN_BASE_BASE) (c.windowLen low high)).2 hok)] at hy
    · rwa [if_neg (mt (Chip.windowFits_iff c (c.get R.DMA_HWIN_BASE_BASE) (c.windowLen low high)).1 hok)] at hy
  · exact Completes.ofClearAll hs rfl (by decide)

end Sys2Proof

namespace Sys2Proof.Machine

/-! ### Transfers of the DMA channels (R459 to R471) -/

section
variable {c : Chip} {ch : Nat} {t : DmaDesc}

/-! #### Descriptors and links (R460, R462) -/

/-- A channel that waits for its descriptor has it (R460). -/
def Chip.descFetched (c : Chip) (ch : Nat) : Prop :=
  (c.chan ch).state = .running ∧ (c.chan ch).phase = .fetching ∧ (c.chan ch).has (c.chan ch).space .descriptor = true ∧ c.chanHeld ch = false

/-- A channel that waits for its LINK word has it (R462). -/
def Chip.linkFetched (c : Chip) (ch : Nat) : Prop :=
  (c.chan ch).state = .running ∧ (c.chan ch).phase = .linking ∧ (c.chan ch).has (c.chan ch).space .link = true ∧ c.chanHeld ch = false

/-- The chip with what the channel has read used. -/
def Chip.readUsed (c : Chip) (ch : Nat) : Chip := c.modChan ch (fun x => { x with got := [] })

/-- The bytes of the descriptor that a channel has read. -/
def Chip.descBytes (c : Chip) (ch : Nat) : List Byte := c.load (if (c.chan ch).space = 1 then c.chanBuf ch .descriptor else (c.chan ch).cur) 64

/-- The LINK word that a channel has read. -/
def Chip.linkWord (c : Chip) (ch : Nat) : Nat := c.loadNat (if (c.chan ch).space = 1 then c.chanBuf ch .link else (c.chan ch).cur + 0x28) 8

/-- A descriptor taken into its channel. -/
def Chip.withDesc (c : Chip) (ch : Nat) (t : DmaDesc) : Chip :=
  c.modChan ch (fun x => { x with phase := .moving, desc := some t, moved := 0, half := false, remain := t.len })

theorem descriptorReadReply_absent (h : ¬ c.descFetched ch) : descriptorReadReply ch c = c :=
  if_neg (by simpa [Chip.descFetched, and_assoc] using h)

theorem linkReadReply_absent (h : ¬ c.linkFetched ch) : linkReadReply ch c = c :=
  if_neg (by simpa [Chip.linkFetched, and_assoc] using h)

section
variable (h : c.descFetched ch)
include h

theorem descriptorReadReply_poisoned (hb : (c.chan ch).space = 0 ∧ c.poisonedAt (c.chan ch).cur 64 = true) :
    descriptorReadReply ch c = c.busError ch 3 0 (c.chan ch).cur 0 :=
  (if_pos (by simpa [Chip.descFetched, and_assoc] using h)).trans (if_pos (by simpa using hb))

theorem descriptorReadReply_read (hb : ¬ ((c.chan ch).space = 0 ∧ c.poisonedAt (c.chan ch).cur 64 = true)) : descriptorReadReply ch c =
    if bitOf ((c.descBytes ch).getD 0x30 0).toNat 0 then
      if (c.chan ch).dbPending then (c.readUsed ch).chanReread ch else (c.readUsed ch).modChan ch (fun x => { x with state := .waitDesc })
    else
      let d := (c.readUsed ch).withDesc ch (parseDesc (c.descBytes ch))
      let r := d.checkDesc ch (parseDesc (c.descBytes ch))
      if r != 0 then d.descError ch r 0
      else if (parseDesc (c.descBytes ch)).paced then d.modChan ch (fun x => { x with state := .waitReq })
      else d :=
  (if_pos (by simpa [Chip.descFetched, and_assoc] using h)).trans (if_neg (by simpa using hb))

end

section
variable (h : c.linkFetched ch)
include h

theorem linkReadReply_poisoned (hb : (c.chan ch).space = 0 ∧ c.poisonedAt ((c.chan ch).cur + 0x28) 8 = true) :
    linkReadReply ch c = c.busError ch 3 0 ((c.chan ch).cur + 0x28) 0 :=
  (if_pos (by simpa [Chip.linkFetched, and_assoc] using h)).trans (if_pos (by simpa using hb))

theorem linkReadReply_read (hb : ¬ ((c.chan ch).space = 0 ∧ c.poisonedAt ((c.chan ch).cur + 0x28) 8 = true)) : linkReadReply ch c =
    if bitOf (c.linkWord ch) 0 then
      if (c.readUsed ch).chanFollows ch (c.chan ch).space (c.linkWord ch / 64 * 64) then
        ((c.readUsed ch).modChan ch (fun x => { x with cur := c.linkWord ch / 64 * 64 })).chanRead ch .fetching
      else
        ((((c.readUsed ch).putSpace (c.chan ch).space ((c.chan ch).cur + 0x31) (natLe 0x04 1)).set (R.DMA_CH_STATUS_RESULT ch) 0x04).chanErr ch).modChan
          ch (fun x => { x with state := .error, desc := none })
    else if (c.chan ch).dbPending then (c.readUsed ch).chanReread ch
    else (c.readUsed ch).modChan ch (fun x => { x with state := .waitLink }) :=
  (if_pos (by simpa [Chip.linkFetched, and_assoc] using h)).trans (if_neg (by simpa using hb))

end

/-! #### Bursts (R459, R463, R464, R468) -/

theorem Chip.sound_clean (h : c.chanPoison ch t = none) (f : Chip → Chip) : c.sound ch t f = f c := by
  unfold Chip.sound
  rw [h]

theorem Chip.sound_poisoned {a : Nat} (h : c.chanPoison ch t = some a) (f : Chip → Chip) :
    c.sound ch t f = c.busError ch 3 0 a (c.chan ch).moved := by
  unfold Chip.sound
  rw [h]

theorem Chip.chanBusy_op {op : Nat} (h : c.chanBusy ch op = some t) : t.op = op := by
  unfold Chip.chanBusy at h
  split at h
  · simpa using (Option.filter_eq_some_iff.1 h).2
  · cases h

/-- A COPY reads poison in its source alone, where that lies in head DRAM. -/
theorem Chip.chanPoison_copy (ho : t.op = 1) (hs : t.srcSpace = 1) : c.chanPoison ch t = none := by
  simp [Chip.chanPoison, ho, hs]

theorem DmaChan.has_iff (x : DmaChan) (space : Nat) (what : ChRead) : x.has space what = true ↔ (space = 1 → what ∈ x.got) := by
  simp [DmaChan.has, imp_iff_not_or]

theorem dmaCopy_idle (h : c.chanBusy ch 1 = none) : dmaCopy ch c = c := by unfold dmaCopy; rw [h]
theorem dmaFill_idle (h : c.chanBusy ch 2 = none) : dmaFill ch c = c := by unfold dmaFill; rw [h]
theorem dmaCompare_idle (h : c.chanBusy ch 3 = none) : dmaCompare ch c = c := by unfold dmaCompare; rw [h]

theorem dmaCopy_busy (h : c.chanBusy ch 1 = some t) : dmaCopy ch c =
    if (c.chan ch).has t.srcSpace .source then (c.served ch).sound ch t (·.copyNow ch t)
    else (c.served ch).chanHostRead ch .source (t.src + (c.chan ch).moved) ((c.chan ch).burstLen t) := by
  unfold dmaCopy
  rw [h]

theorem dmaFill_busy (h : c.chanBusy ch 2 = some t) : dmaFill ch c = (c.served ch).burst ch t
    ((upFrom (c.chan ch).moved ((c.chan ch).burstLen t)).map (fun i => (natLe t.src 8).getD (i % 8) 0)) := by
  unfold dmaFill
  rw [h]

theorem dmaCompare_busy (h : c.chanBusy ch 3 = some t) : dmaCompare ch c =
    if (c.chan ch).has t.srcSpace .source && (c.chan ch).has t.dstSpace .second then (c.served ch).sound ch t (·.compareNow ch t)
    else
      let d := if (c.chan ch).has t.srcSpace .source then c.served ch
        else (c.served ch).chanHostRead ch .source (t.src + (c.chan ch).moved) ((c.chan ch).burstLen t)
      if (c.chan ch).has t.dstSpace .second then d else d.chanHostRead ch .second (t.dst + (c.chan ch).moved) ((c.chan ch).burstLen t) := by
  unfold dmaCompare
  rw [h]

/-- The source of a burst that is read at once, or has been read. -/
theorem Chip.copyNow_dram (hs : t.srcSpace ≠ 1) :
    c.copyNow ch t = c.burst ch t (c.load (t.src + (c.chan ch).moved) ((c.chan ch).burstLen t)) := by
  simp [Chip.copyNow, Chip.chanBytes, hs]

theorem Chip.copyNow_host (hs : t.srcSpace = 1) : c.copyNow ch t = c.burst ch t (c.load (c.chanBuf ch .source) ((c.chan ch).burstLen t)) := by
  simp [Chip.copyNow, Chip.chanBytes, hs]

/-- The first difference of the operands that a COMPARE has read (R464). -/
def Chip.operandDiff (c : Chip) (ch : Nat) (t : DmaDesc) : Option Nat :=
  firstDiff (c.chanBytes ch t.srcSpace (t.src + (c.chan ch).moved) ((c.chan ch).burstLen t) .source)
    (c.chanBytes ch t.dstSpace (t.dst + (c.chan ch).moved) ((c.chan ch).burstLen t) .second) (c.chan ch).moved

/-- R464: a difference ends the COMPARE after the line that holds it. -/
theorem Chip.compareNow_differs {ofs : Nat} (h : c.operandDiff ch t = some ofs) :
    let done := min t.len ((ofs / 64 + 1) * 64)
    let d := (c.readUsed ch).chanMoved ch (done - (c.chan ch).moved)
    c.compareNow ch t = (if bitOf t.flags 2 then
      ((d.endDesc ch 0 0 done ofs).modChan ch (fun x => { x with diffStop := true, state := .idle, desc := none })).chanErr ch
      else d.descDone ch 0 done ofs).burstEnds ch := by
  unfold Chip.operandDiff at h
  unfold Chip.compareNow
  dsimp only
  rw [h]
  rfl

theorem Chip.compareNow_agrees (h : c.operandDiff ch t = none) : c.compareNow ch t =
    (if (c.chan ch).moved + (c.chan ch).burstLen t = t.len then ((c.readUsed ch).chanMoved ch ((c.chan ch).burstLen t)).descDone ch 1 t.len noDiff
      else (c.readUsed ch).chanMoved ch ((c.chan ch).burstLen t)).burstEnds ch := by
  unfold Chip.operandDiff at h
  unfold Chip.compareNow
  dsimp only
  rw [h]
  rfl

/-! #### Paced bursts (R466, R467) -/

/-- The bytes of a paced burst's source. -/
def Chip.pacedBytes (c : Chip) (ch : Nat) (src : List Byte) (t : DmaDesc) : List Byte :=
  if t.line = 0 then c.exportBytes ((c.chan ch).burstLen t) EvRecord.bytes
  else if t.srcSpace = 2 then src.take ((c.chan ch).burstLen t)
  else c.chanBytes ch t.srcSpace (t.src + (c.chan ch).moved) ((c.chan ch).burstLen t) .source

/-- Whether a request of its line starts a burst of a channel. -/
def Chip.pacedStarts (c : Chip) (ch : Nat) (src : List Byte) (t : DmaDesc) : Bool :=
  (c.chan ch).state == .waitReq && c.lineReady t.line ((c.chan ch).burstLen t) && (c.pacedBytes ch src t).length == (c.chan ch).burstLen t

/-- Whether a channel goes on with a burst whose source it has read. -/
def Chip.pacedAgain (c : Chip) (ch : Nat) : Bool := (c.chan ch).state == .running && (c.chan ch).phase == .moving && (c.chan ch).out.isEmpty

theorem Chip.pacedStarts_iff (src : List Byte) : c.pacedStarts ch src t = true ↔ (c.chan ch).state = .waitReq ∧
    c.lineReady t.line ((c.chan ch).burstLen t) = true ∧ (c.pacedBytes ch src t).length = (c.chan ch).burstLen t := by
  simp [Chip.pacedStarts, and_assoc]

theorem Chip.pacedAgain_iff : c.pacedAgain ch = true ↔
    (c.chan ch).state = .running ∧ (c.chan ch).phase = .moving ∧ (c.chan ch).out = [] := by
  simp [Chip.pacedAgain, and_assoc]

theorem pacedBurst_held (h : (c.chan ch).desc = none ∨ c.chanHeld ch = true ∨ c.on R.DMA_STATUS_BUS_STOP = true) (src : List Byte) :
    pacedBurst ch src c = c := by
  have hnone : (c.chan ch).desc.filter (fun d => d.paced && !c.chanHeld ch && !c.on R.DMA_STATUS_BUS_STOP) = none := by
    rcases h with h | h | h <;> simp [h]
  unfold pacedBurst Chip.pacedBurst
  dsimp only
  rw [hnone]

theorem pacedBurst_unpaced (hd : (c.chan ch).desc = some t) (hp : t.paced = false) (src : List Byte) : pacedBurst ch src c = c := by
  have hnone : (c.chan ch).desc.filter (fun d => d.paced && !c.chanHeld ch && !c.on R.DMA_STATUS_BUS_STOP) = none := by simp [hd, hp]
  unfold pacedBurst Chip.pacedBurst
  dsimp only
  rw [hnone]

theorem pacedBurst_paced (hd : (c.chan ch).desc = some t) (hp : t.paced = true) (hh : c.chanHeld ch = false)
    (hb : c.on R.DMA_STATUS_BUS_STOP = false) (src : List Byte) : pacedBurst ch src c =
    if c.pacedStarts ch src t || c.pacedAgain ch then
      let d := if c.pacedStarts ch src t then c.consumeLine t.line ((c.chan ch).burstLen t) else c
      if (c.chan ch).has t.srcSpace .source then d.sound ch t (·.burst ch t (c.pacedBytes ch src t))
      else (d.modChan ch (fun x => { x with state := .running })).chanHostRead ch .source (t.src + (c.chan ch).moved) ((c.chan ch).burstLen t)
    else c := by
  have hsome : (c.chan ch).desc.filter (fun d => d.paced && !c.chanHeld ch && !c.on R.DMA_STATUS_BUS_STOP) = some t := by simp [hd, hp, hh, hb]
  unfold pacedBurst Chip.pacedBurst
  dsimp only
  rw [hsome]
  rfl

/-- A burst that neither starts nor goes on leaves the chip. -/
theorem pacedBurst_unmet (hd : (c.chan ch).desc = some t) {src : List Byte} (hs : c.pacedStarts ch src t = false) (ha : c.pacedAgain ch = false) :
    pacedBurst ch src c = c := by
  by_cases hh : c.chanHeld ch = true
  · exact pacedBurst_held (.inr (.inl hh)) src
  by_cases hb : c.on R.DMA_STATUS_BUS_STOP = true
  · exact pacedBurst_held (.inr (.inr hb)) src
  cases hp : t.paced with
  | false => exact pacedBurst_unpaced hd hp src
  | true => rw [pacedBurst_paced hd hp (Bool.eq_false_iff.2 hh) (Bool.eq_false_iff.2 hb), if_neg (by simp [hs, ha])]

/-! #### Bus errors (R471) -/

/-- The channel's read of host memory that is out or waits, with the transfer it belongs to. -/
def Chip.chanRequest (c : Chip) (ch : Nat) : Option (ReadReq × Xfer) :=
  c.epc.reqs.findSome? (fun r => (c.epc.xfers.find? (fun y => y.id == r.xfer && (match y.purpose with
    | .dmaChannel k _ => k == ch
    | _ => false))).map (fun y => (r, y)))

section
variable {kind : BusErr} (hk : ∀ why, kind ≠ .hostRead why) (space addr done : Nat)
include hk

theorem dmaBusError_quiet (h : (c.chan ch).accessing = false) : dmaBusError ch kind space addr done c = c := by
  cases kind with
  | hostRead why => exact absurd rfl (hk why)
  | _ => exact if_pos (by rw [h]; rfl)

theorem dmaBusError_fails (h : (c.chan ch).accessing = true) : dmaBusError ch kind space addr done c = c.busError ch (busErrCode kind) space addr
    (max (c.chan ch).moved (min done ((c.chan ch).moved + ((c.chan ch).desc.map (c.chan ch).burstLen).getD 0))) := by
  cases kind with
  | hostRead why => exact absurd rfl (hk why)
  | _ => exact if_neg (by rw [h]; exact Bool.false_ne_true)

end

section
variable (why : ReadFail) (space addr done : Nat)

theorem dmaBusError_host : dmaBusError ch (.hostRead why) space addr done c = (match c.chanRequest ch with
    | none => c
    | some (r, y) =>
      if r.tag.isNone || (why == .timeout && decide (c.now < r.sentAt + c.ctoNs 0)) then c else (c.readFailed y r.addr why).sendReads) := rfl

theorem dmaBusError_noRead (h : c.chanRequest ch = none) : dmaBusError ch (.hostRead why) space addr done c = c := by
  rw [dmaBusError_host, h]

theorem dmaBusError_read {r : ReadReq} {y : Xfer} (h : c.chanRequest ch = some (r, y)) : dmaBusError ch (.hostRead why) space addr done c =
    if r.tag.isNone || (why == .timeout && decide (c.now < r.sentAt + c.ctoNs 0)) then c else (c.readFailed y r.addr why).sendReads := by
  rw [dmaBusError_host, h]

end

end

end Sys2Proof.Machine

namespace Sys2Proof
open Sys2Proof.Machine

/-- Settles O41: each row by what its channel has read, by what its burst meets, and by the access or request that fails. -/
theorem dmaTransfersAct : Obligations.DmaTransfersAct := by
  intro s ch ha hch c x
  have hrow {i : Instr} {f : Chip → Chip} {d : Chip} (hx : exec i s = s.runAwake (decide (ch < 32)) f) (hd : f c = d) : Yields i s d :=
    Yields.awake ha hx (decide_eq_true hch) hd
  refine ⟨?_, ?_, fun h => hrow rfl (dmaCopy_idle h), fun t h => ?_, fun h => hrow rfl (dmaFill_idle h), fun t h => hrow rfl (dmaFill_busy h),
    fun h => hrow rfl (dmaCompare_idle h), fun t h => ?_, fun src h => hrow rfl (pacedBurst_held h src), fun t hd src => ?_,
    fun h => Yields.awake (f := paceTick) ha rfl rfl (if_pos h), fun h => Yields.awake (f := paceTick) ha rfl rfl (if_neg h),
    fun kind space addr done hk => ?_, fun why space addr done => ?_⟩
  · intro fetched bs u bad
    refine ⟨fun h => hrow rfl (descriptorReadReply_absent h), fun h hb => hrow rfl (descriptorReadReply_poisoned h hb), fun h hb => ?_⟩
    have heq := descriptorReadReply_read (c := c) (ch := ch) h hb
    refine ⟨fun hdone => ⟨fun hp => ?_, fun hp => ?_⟩, fun hdone => ⟨fun hr => ?_, fun hr hp => ?_, fun hr hp => ?_⟩⟩
    · exact hrow rfl (heq.trans ((if_pos hdone).trans (if_pos hp)))
    · exact hrow rfl (heq.trans ((if_pos hdone).trans (if_neg (Bool.eq_false_iff.1 hp))))
    · exact hrow rfl (heq.trans ((if_neg (Bool.eq_false_iff.1 hdone)).trans (if_pos (bne_iff_ne.2 hr))))
    · exact hrow rfl (heq.trans ((if_neg (Bool.eq_false_iff.1 hdone)).trans ((if_neg (mt bne_iff_ne.1 (not_not.2 hr))).trans (if_pos hp))))
    · exact hrow rfl (heq.trans ((if_neg (Bool.eq_false_iff.1 hdone)).trans
        ((if_neg (mt bne_iff_ne.1 (not_not.2 hr))).trans (if_neg (Bool.eq_false_iff.1 hp)))))
  · intro linked w u bad
    refine ⟨fun h => hrow rfl (linkReadReply_absent h), fun h hb => hrow rfl (linkReadReply_poisoned h hb), fun h hb => ?_⟩
    have heq := linkReadReply_read (c := c) (ch := ch) h hb
    refine ⟨fun hn hf => ?_, fun hn hf => ?_, fun hn hp => ?_, fun hn hp => ?_⟩
    · exact hrow rfl (heq.trans ((if_pos hn).trans (if_pos hf)))
    · exact hrow rfl (heq.trans ((if_pos hn).trans (if_neg (Bool.eq_false_iff.1 hf))))
    · exact hrow rfl (heq.trans ((if_neg (Bool.eq_false_iff.1 hn)).trans (if_pos hp)))
    · exact hrow rfl (heq.trans ((if_neg (Bool.eq_false_iff.1 hn)).trans (if_neg (Bool.eq_false_iff.1 hp))))
  · have heq := dmaCopy_busy h
    refine ⟨fun hs hg => ?_, fun hs hg => ?_, fun a hs hp => ?_, fun hs hp => ?_⟩
    · have hhas : x.has t.srcSpace .source = true := (DmaChan.has_iff _ _ _).2 (fun _ => hg)
      have hsound := Chip.sound_clean (Chip.chanPoison_copy (c := c.served ch) (ch := ch) (Chip.chanBusy_op h) hs) (·.copyNow ch t)
      exact hrow rfl (heq.trans ((if_pos hhas).trans (hsound.trans (Chip.copyNow_host hs))))
    · have hhas : ¬ x.has t.srcSpace .source = true := fun hh => hg ((DmaChan.has_iff _ _ _).1 hh hs)
      exact hrow rfl (heq.trans (if_neg hhas))
    · have hhas : x.has t.srcSpace .source = true := (DmaChan.has_iff _ _ _).2 (fun h1 => absurd h1 hs)
      exact hrow rfl (heq.trans ((if_pos hhas).trans (Chip.sound_poisoned hp _)))
    · have hhas : x.has t.srcSpace .source = true := (DmaChan.has_iff _ _ _).2 (fun h1 => absurd h1 hs)
      exact hrow rfl (heq.trans ((if_pos hhas).trans ((Chip.sound_clean hp _).trans (Chip.copyNow_dram hs))))
  · have heq := dmaCompare_busy h
    intro n u hasA hasB
    refine ⟨fun ha hb => ?_, fun ha hb => ?_, fun ha hb => ?_, fun a ha hb hp => ?_, fun ha hb hp => ⟨fun ofs hd => ⟨fun hf => ?_, fun hf => ?_⟩,
      fun hd => ⟨fun hl => ?_, fun hl => ?_⟩⟩⟩
    · exact hrow rfl (heq.trans ((if_neg (fun hh => ha (Bool.and_eq_true_iff.1 hh).1)).trans ((if_pos hb).trans (if_neg ha))))
    · exact hrow rfl (heq.trans ((if_neg (fun hh => hb (Bool.and_eq_true_iff.1 hh).2)).trans ((if_neg hb).trans
        (congrArg (fun d : Chip => d.chanHostRead ch .second (t.dst + x.moved) n) (if_pos ha)))))
    · exact hrow rfl (heq.trans ((if_neg (fun hh => hb (Bool.and_eq_true_iff.1 hh).2)).trans ((if_neg hb).trans
        (congrArg (fun d : Chip => d.chanHostRead ch .second (t.dst + x.moved) n) (if_neg ha)))))
    · exact hrow rfl (heq.trans ((if_pos (Bool.and_eq_true_iff.2 ⟨ha, hb⟩)).trans (Chip.sound_poisoned hp _)))
    all_goals have hcompare := heq.trans ((if_pos (Bool.and_eq_true_iff.2 ⟨ha, hb⟩)).trans (Chip.sound_clean hp _))
    · exact hrow rfl (hcompare.trans ((Chip.compareNow_differs (c := u) hd).trans (congrArg (fun d : Chip => d.burstEnds ch) (if_pos hf))))
    · exact hrow rfl (hcompare.trans ((Chip.compareNow_differs (c := u) hd).trans
        (congrArg (fun d : Chip => d.burstEnds ch) (if_neg (Bool.eq_false_iff.1 hf)))))
    · exact hrow rfl (hcompare.trans ((Chip.compareNow_agrees (c := u) hd).trans (congrArg (fun d : Chip => d.burstEnds ch) (if_pos hl))))
    · exact hrow rfl (hcompare.trans ((Chip.compareNow_agrees (c := u) hd).trans (congrArg (fun d : Chip => d.burstEnds ch) (if_neg hl))))
  · intro n bs starts again ask
    have hstarts : c.pacedStarts ch src t = true ↔ starts := Chip.pacedStarts_iff src
    have hagain : c.pacedAgain ch = true ↔ again := Chip.pacedAgain_iff
    refine ⟨fun h => ?_, fun hp hh hb => ?_⟩
    · rcases h with h | ⟨h1, h2⟩
      · exact hrow rfl (pacedBurst_unpaced hd h src)
      · exact hrow rfl (pacedBurst_unmet hd (Bool.eq_false_iff.2 (mt hstarts.1 h1)) (Bool.eq_false_iff.2 (mt hagain.1 h2)))
    · have heq := pacedBurst_paced hd hp hh hb src
      have hexcl : again → c.pacedStarts ch src t = false := fun h2 => Bool.eq_false_iff.2 (fun h1 => by
        obtain ⟨hrun, -⟩ := h2
        obtain ⟨hwait, -⟩ := hstarts.1 h1
        rw [hrun] at hwait
        cases hwait)
      refine ⟨fun h1 hx => ?_, fun h1 hx => ?_, fun h2 hx => ?_, fun h2 hx => ?_⟩
      · simp only [hstarts.2 h1, Bool.true_or, reduceIte] at heq
        exact hrow rfl (heq.trans (if_pos hx))
      · simp only [hstarts.2 h1, Bool.true_or, reduceIte] at heq
        exact hrow rfl (heq.trans (if_neg (Bool.eq_false_iff.1 hx)))
      · simp only [hexcl h2, hagain.2 h2, Bool.or_true, Bool.false_eq_true, reduceIte] at heq
        exact hrow rfl (heq.trans (if_pos hx))
      · simp only [hexcl h2, hagain.2 h2, Bool.or_true, Bool.false_eq_true, reduceIte] at heq
        exact hrow rfl (heq.trans (if_neg (Bool.eq_false_iff.1 hx)))
  · refine ⟨fun hx => hrow rfl (dmaBusError_quiet hk space addr done hx), fun hx => ?_⟩
    intro bytes
    have hbytes : max x.moved (min bytes (x.moved + (x.desc.map x.burstLen).getD 0)) = bytes := by
      show max x.moved (min (max x.moved (min done (x.moved + (x.desc.map x.burstLen).getD 0))) _) = max x.moved (min done _)
      omega
    have hy : Yields (.dmaBusError ch kind space addr bytes) s (c.busError ch (busErrCode kind) space addr
        (max x.moved (min bytes (x.moved + (x.desc.map x.burstLen).getD 0)))) := hrow rfl (dmaBusError_fails hk space addr bytes hx)
    rw [hbytes] at hy
    unfold Chip.busError at hy
    exact hy
  · intro own found
    refine ⟨fun h => hrow rfl (dmaBusError_noRead why space addr done h), fun r y h => ?_⟩
    have heq := dmaBusError_read why space addr done h
    refine ⟨fun hw => ?_, fun htag hw ht => ?_, fun htag hw => ?_⟩
    · exact hrow rfl (heq.trans (if_pos (by simpa using hw)))
    · exact hrow rfl (heq.trans (if_neg (by simp [htag, ht])))
    · exact hrow rfl (heq.trans (if_neg (by simp [htag, hw])))

end Sys2Proof

namespace Sys2Proof.Machine

/-! ### Accesses through the system cache (R482 to R488, R494) -/

section
variable {c : Chip} {who : MemAgent} {acc : MemAccess} {ofs line : Nat} {l : CLine}

/-! #### A request that a line serves (R484, R486, R487) -/

theorem Chip.serve_read (h : c.lineAt line = some l) (n : Nat) : c.serve line who (.read n) ofs =
    (let d := (coreOf who).elim c (fun k => c.modLine line (fun x => { x with cores := k :: x.cores.filter (· != k) }))
     { d with mem := { d.mem with reply := some (l.poison, (l.data.drop ofs).take n) } }) := by
  unfold Chip.serve
  rw [h]
  cases coreOf who <;> rfl

theorem Chip.serve_write (h : c.lineAt line = some l) (bs : List Byte) : c.serve line who (.write bs) ofs =
    (c.bump R.MEM_CNT_SNOOP_SNOOP (l.cores.filter (fun j => coreOf who != some j)).length).modLine line (fun x => { x with
      data := patchLine x.data ofs bs, dirty := true, poison := x.poison && !(ofs == 0 && decide (64 ≤ bs.length)),
      cores := (coreOf who).toList, owner := coreOf who }) := by
  unfold Chip.serve
  rw [h]

section
variable {sn : List (Nat × List Byte)} {cr : Bool}

theorem Chip.serveHit_clean (h : l.dirtyElsewhere who = none) : c.serveHit l who acc ofs sn cr = c.serve l.line who acc ofs := by
  unfold Chip.serveHit
  rw [h]

variable {j : Nat} (h : l.dirtyElsewhere who = some j)
include h

theorem Chip.serveHit_crossed : c.serveHit l who acc ofs sn true =
    { c.bump R.MEM_CNT_SNOOP_SNOOP 1 with mem := { (c.bump R.MEM_CNT_SNOOP_SNOOP 1).mem with
      snoops := (c.bump R.MEM_CNT_SNOOP_SNOOP 1).mem.snoops ++ [⟨l.line, j, who, acc, ofs, false⟩] } } := by
  unfold Chip.serveHit
  rw [h]
  rfl

theorem Chip.serveHit_withoutData (hs : sn.find? (fun s => s.1 == j) = none) : c.serveHit l who acc ofs sn false =
    ((c.bump R.MEM_CNT_SNOOP_SNOOP 1).modLine l.line (fun x => { x with owner := none, cores := coresLeft acc j x.cores })).serve l.line who acc ofs := by
  unfold Chip.serveHit
  rw [h]
  dsimp only
  rw [hs]
  rfl

theorem Chip.serveHit_withData {b : Nat × List Byte} (hs : sn.find? (fun s => s.1 == j) = some b) : c.serveHit l who acc ofs sn false =
    ((c.bump R.MEM_CNT_SNOOP_SNOOP 1).modLine l.line (fun x => { x with
      data := patchLine b.2 64 [], dirty := true, owner := none, cores := coresLeft acc j x.cores })).serve l.line who acc ofs := by
  unfold Chip.serveHit
  rw [h]
  dsimp only
  rw [hs]
  rfl

end

/-! #### An access by its region and by the line it finds -/

section
variable {a q : Nat} {sn : List (Nat × List Byte)} {cr : Bool} {dr sr pf : EccIn}

theorem cacheAccess_closed (h : c.mem.opened = false ∨ c.regionOf a = 0 ∨ c.regionOf a = 10) : cacheAccess who acc a sn cr q dr sr pf c = c :=
  if_pos (by simpa [or_assoc] using h)

variable (ho : c.mem.opened = true) (h0 : c.regionOf a ≠ 0) (h10 : c.regionOf a ≠ 10)
include ho h0 h10

theorem cacheAccess_streamed (hr : cachedRegion (c.regionOf a) = false) : cacheAccess who acc a sn cr q dr sr pf c = c.stream acc a dr :=
  (if_neg (by simp [ho, h0, h10])).trans (if_pos (by rw [hr]; rfl))

variable (hr : cachedRegion (c.regionOf a) = true)
include hr

theorem cacheAccess_missed (hl : c.lineAt (a / 64) = none) :
    cacheAccess who acc a sn cr q dr sr pf c = c.miss (a / 64) who acc (a % 64) sn cr q dr pf := by
  refine (if_neg (by simp [ho, h0, h10])).trans ((if_neg (by rw [hr]; exact Bool.false_ne_true)).trans ?_)
  dsimp only
  rw [hl]

variable (hl : c.lineAt (a / 64) = some l)
include hl

theorem cacheAccess_swept (hw : c.mem.sweeping = some l.way) :
    cacheAccess who acc a sn cr q dr sr pf c = (c.evictLine l sn cr).miss (a / 64) who acc (a % 64) [] false q dr pf := by
  refine (if_neg (by simp [ho, h0, h10])).trans ((if_neg (by rw [hr]; exact Bool.false_ne_true)).trans ?_)
  dsimp only
  rw [hl]
  exact if_pos hw

variable (hw : c.mem.sweeping ≠ some l.way)
include hw

theorem cacheAccess_clean : cacheAccess who acc a sn cr q dr .clean pf c = (c.hit l).serveHit l who acc (a % 64) sn cr := by
  refine (if_neg (by simp [ho, h0, h10])).trans ((if_neg (by rw [hr]; exact Bool.false_ne_true)).trans ?_)
  dsimp only
  rw [hl]
  exact if_neg hw

theorem cacheAccess_corrected : cacheAccess who acc a sn cr q dr .corrected pf c =
    ((c.hit l).bump R.MEM_CNT_SRAM_CE_SRAM_CE 1).serveHit l who acc (a % 64) sn cr := by
  refine (if_neg (by simp [ho, h0, h10])).trans ((if_neg (by rw [hr]; exact Bool.false_ne_true)).trans ?_)
  dsimp only
  rw [hl]
  exact if_neg hw

theorem cacheAccess_uncorrectable : cacheAccess who acc a sn cr q dr .uncorrectable pf c =
    if l.dirty then ((((((c.sramUe l.way).hit l).modLine (a / 64) (fun x => { x with poison := true })).logUe 15 (c.regionOf a) (a / 64) false).actUe
      (c.regionOf a) a).serveHit l who acc (a % 64) sn cr)
    else
      let d := (c.sramUe l.way).bump R.MEM_CNT_SNOOP_SNOOP l.cores.length
      (d.putSet (a / 64) ((Sparse.get [] d.mem.sets (a / 64 % 98304)).filter (fun x => x.line != a / 64))).miss (a / 64) who acc (a % 64) sn cr q dr pf := by
  refine (if_neg (by simp [ho, h0, h10])).trans ((if_neg (by rw [hr]; exact Bool.false_ne_true)).trans ?_)
  dsimp only
  rw [hl]
  exact if_neg hw

end

end

/-! #### Writebacks, crossings and the eviction buffer (R487, R488) -/

section
variable {c : Chip} {core line : Nat} {data : List Byte}

/-- A line that its core has written back (R487). -/
def Chip.writtenBack (c : Chip) (core line : Nat) (data : List Byte) : Chip :=
  c.modLine line (fun l => { l with
    data := patchLine data 64 [], dirty := true, cores := l.cores.filter (· != core), owner := if l.owner = some core then none else l.owner })

theorem coreWritebackArrive_unasked (h : c.mem.snoops.find? (fun x => x.line == line && x.core == core && !x.answered) = none) :
    coreWritebackArrive core line data c = c.writtenBack core line data := by
  unfold coreWritebackArrive
  dsimp only
  rw [show (c.modLine line _).mem.snoops.find? _ = none from h]
  rfl

theorem coreWritebackArrive_answers {x : Snoop} (h : c.mem.snoops.find? (fun x => x.line == line && x.core == core && !x.answered) = some x) :
    coreWritebackArrive core line data c = ({ c.writtenBack core line data with mem := { (c.writtenBack core line data).mem with
      snoops := modifyFirst (fun y => y == x) (fun y => { y with answered := true }) (c.writtenBack core line data).mem.snoops } } : Chip).serve line x.who
        x.acc x.ofs := by
  unfold coreWritebackArrive
  dsimp only
  rw [show (c.modLine line _).mem.snoops.find? _ = some x from h]
  rfl

theorem snoopWb_unasked (h : c.mem.snoops.find? (fun x => x.line == line && x.core == core && x.answered) = none) : snoopWb core line c = c := by
  unfold snoopWb
  rw [h]

theorem snoopWb_crosses {x : Snoop} (h : c.mem.snoops.find? (fun x => x.line == line && x.core == core && x.answered) = some x) :
    snoopWb core line c = ({ c with mem := { c.mem with snoops := c.mem.snoops.erase x } } : Chip).bump R.MEM_CNT_XWB_XWB 1 := by
  unfold snoopWb
  rw [h]

theorem evictionWriteAccepted_absent (h : c.mem.evict.reverse.find? (fun e => e.line == line) = none) : evictionWriteAccepted line c = c := by
  unfold evictionWriteAccepted
  rw [h]

theorem evictionWriteAccepted_oldest {e : Evicted} (h : c.mem.evict.reverse.find? (fun e => e.line == line) = some e) :
    evictionWriteAccepted line c = { c with
      dram := Mem.write c.dram (line * 64) e.data
      mem := { c.mem with
        evict := (c.mem.evict.reverse.erase e).reverse
        poisoned := if e.poison then line :: c.mem.poisoned.filter (· != line) else c.mem.poisoned.filter (· != line) } } := by
  unfold evictionWriteAccepted
  rw [h]

end

end Sys2Proof.Machine

namespace Sys2Proof
open Sys2Proof.Machine

/-- Settles O42: an access by its region, the line it finds and what the cache's SRAM shows; a request by the core that holds its line dirty. -/
theorem cacheServesAccesses : Obligations.CacheServesAccesses := by
  intro s ha c
  refine ⟨fun who acc a sn cr q dr sr pf => ?_, fun l who acc ofs sn cr => ⟨fun h => Chip.serveHit_clean h, fun j h => ?_⟩,
    fun line who ofs l h => ⟨fun n hw => ?_, fun n k hw => ?_, fun bs => Chip.serve_write h bs⟩,
    fun core line data => ⟨fun h => Yields.awake ha rfl rfl (coreWritebackArrive_unasked h), fun x h => Yields.awake ha rfl rfl (coreWritebackArrive_answers h)⟩,
    fun core line => ⟨fun h => Yields.awake ha rfl rfl (snoopWb_unasked h), fun x h => Yields.awake ha rfl rfl (snoopWb_crosses h)⟩,
    fun line => ⟨fun h => Yields.awake ha rfl rfl (evictionWriteAccepted_absent h), fun e h => Yields.awake ha rfl rfl (evictionWriteAccepted_oldest h)⟩⟩
  · intro r line ofs
    refine ⟨fun h => Yields.awake ha rfl rfl (cacheAccess_closed h), fun ho h0 h10 => ⟨fun hr => ⟨fun bs hacc => ?_, fun n hacc => ?_⟩,
      fun hr => ⟨fun hl => Yields.awake ha rfl rfl (cacheAccess_missed ho h0 h10 hr hl), fun l hl => ⟨fun hw => ?_, fun hw => ⟨fun hsr => ?_, fun hsr => ?_,
        fun hsr hd => ?_, fun hsr hd => ?_⟩⟩⟩⟩⟩
    · subst hacc
      exact Yields.awake ha rfl rfl (cacheAccess_streamed ho h0 h10 hr)
    · subst hacc
      exact Yields.awake ha rfl rfl (cacheAccess_streamed ho h0 h10 hr)
    · exact Yields.awake ha rfl rfl (cacheAccess_swept ho h0 h10 hr hl hw)
    · subst hsr
      exact Yields.awake ha rfl rfl (cacheAccess_clean ho h0 h10 hr hl hw)
    · subst hsr
      exact Yields.awake ha rfl rfl (cacheAccess_corrected ho h0 h10 hr hl hw)
    · subst hsr
      exact Yields.awake ha rfl rfl ((cacheAccess_uncorrectable ho h0 h10 hr hl hw).trans (if_pos hd))
    · subst hsr
      exact Yields.awake ha rfl rfl ((cacheAccess_uncorrectable ho h0 h10 hr hl hw).trans (if_neg (Bool.eq_false_iff.1 hd)))
  · intro d
    refine ⟨fun hc => ?_, fun hc hs => ?_, fun b hc hs => ?_⟩
    · subst hc
      exact Chip.serveHit_crossed h
    · subst hc
      exact Chip.serveHit_withoutData h hs
    · subst hc
      exact Chip.serveHit_withData h hs
  · rw [Chip.serve_read h n, hw]
    rfl
  · rw [Chip.serve_read h n, hw]
    rfl

end Sys2Proof

namespace Sys2Proof.Machine

/-! ### Clocks, heat and power (R512 to R519, R547, R548, R593) -/

section
variable {c : Chip}

/-! #### Gating (R515) -/

section
variable {k : Nat}

theorem clusterGateIdle_working (h : c.domainIdle k = false) :
    clusterGateIdle k c = { c with pwr := { c.pwr with idleAt := c.pwr.idleAt.filter (·.1 != k) } } := if_pos (by rw [h]; rfl)

variable (h : c.domainIdle k = true)
include h

theorem clusterGateIdle_gated (hg : k ∈ c.pwr.gated) : clusterGateIdle k c = c :=
  (if_neg (by rw [h]; exact Bool.false_ne_true)).trans (if_pos (by simpa using hg))

variable (hg : k ∉ c.pwr.gated)
include hg

theorem clusterGateIdle_found (hf : c.pwr.idleAt.find? (·.1 == k) = none) :
    clusterGateIdle k c = { c with pwr := { c.pwr with idleAt := (k, c.now) :: c.pwr.idleAt } } := by
  refine (if_neg (by rw [h]; exact Bool.false_ne_true)).trans ((if_neg (by simpa using hg)).trans ?_)
  rw [hf]

theorem clusterGateIdle_waits {e : Nat × Nat} (hf : c.pwr.idleAt.find? (·.1 == k) = some e) : clusterGateIdle k c =
    if c.now < e.2 + c.get R.PWR_CTRL_GATE_US * 1000 then c else { c with pwr := { c.pwr with gated := k :: c.pwr.gated } } := by
  refine (if_neg (by rw [h]; exact Bool.false_ne_true)).trans ((if_neg (by simpa using hg)).trans ?_)
  rw [hf]

end

/-! #### Temperature (R123, R516, R517) -/

/-- The highest of a sample's temperatures. -/
def hottest (t : Int) (rest : List Int) : Int := rest.foldl max t

/-- Whether a temperature has reached the limit that warns. -/
def Chip.warns (c : Chip) (high : Int) : Bool := decide ((c.get R.PWR_THERM_CTRL_WARN : Int) ≤ high)

/-- The chip that shows a sample, with its warning. -/
def Chip.tempShown (c : Chip) (t : Int) (rest : List Int) : Chip :=
  let high := hottest t rest
  let sensor := (t :: rest).idxOf high
  let d := ({ c with pwr := { c.pwr with highest := high } } : Chip).setAll [(R.PWR_THERM_TEMP, (BitVec.ofInt 9 high).toNat), (R.PWR_THERM_SENSOR, sensor)]
  if c.warns high && !c.pwr.warned then d.event 0x300 sensor 0 0 0 0 else d

/-- The chip that has told its functions of the thresholds that a sample crosses, and noted when 150 degrees were passed. -/
def Chip.tempNoted (c : Chip) (t : Int) (rest : List Int) : Chip :=
  let d := c.tempShown t rest
  let d := ((d.nvm.ctrls.map (·.1)).filter (fun fn => d.tempCrossed fn c.kelvin d.kelvin)).foldl (fun d fn => d.asyncEvent fn 1 1 2) d
  { d with pwr := { d.pwr with
    warned := c.warns (hottest t rest), hotSince := if 150 < hottest t rest then some (d.pwr.hotSince.getD d.now) else none } }

/-- The chip whose caps are stepped now. -/
def Chip.capStep (c : Chip) : Chip := { c with pwr := { c.pwr with capAt := c.now } }

/-- The chip whose thermal cap is stepped as its highest temperature asks. -/
def Chip.thermalCapped (c : Chip) (high : Int) : Chip :=
  if decide (135 < high) && decide (c.pwr.capAt + 1000000 ≤ c.now) then c.capStep.setCap (capDown c.pwr.thermalCap) c.pwr.powerCap
  else if decide (high ≤ 132) && decide (c.pwr.capAt + 10000000 ≤ c.now) then
    c.capStep.setCap (capUp c.pwr.thermalCap c.pwr.plan.cluster) c.pwr.powerCap
  else c.setCap c.pwr.thermalCap c.pwr.powerCap

theorem thermalSample_cons (t : Int) (rest : List Int) :
    thermalSample (t :: rest) c = (c.tempNoted t rest).thermalCapped (hottest t rest) := rfl

section
variable {high : Int}

theorem Chip.thermalCapped_down (h : 135 < high) (hc : c.pwr.capAt + 1000000 ≤ c.now) :
    c.thermalCapped high = c.capStep.setCap (capDown c.pwr.thermalCap) c.pwr.powerCap := if_pos (by simp [h, hc])

theorem Chip.thermalCapped_up (h : high ≤ 132) (hc : c.pwr.capAt + 10000000 ≤ c.now) :
    c.thermalCapped high = c.capStep.setCap (capUp c.pwr.thermalCap c.pwr.plan.cluster) c.pwr.powerCap := by
  have hot : ¬ 135 < high := by omega
  unfold Chip.thermalCapped
  rw [if_neg (by simp [hot]), if_pos (by simp [h, hc])]

theorem Chip.thermalCapped_stays (h : 132 < high ∧ high ≤ 135 ∨ 135 < high ∧ c.now < c.pwr.capAt + 1000000 ∨
    high ≤ 132 ∧ c.now < c.pwr.capAt + 10000000) : c.thermalCapped high = c.setCap c.pwr.thermalCap c.pwr.powerCap := by
  have down : ¬ (135 < high ∧ c.pwr.capAt + 1000000 ≤ c.now) := by omega
  have up : ¬ (high ≤ 132 ∧ c.pwr.capAt + 10000000 ≤ c.now) := by omega
  unfold Chip.thermalCapped
  rw [if_neg (by simpa using down), if_neg (by simpa using up)]

end

theorem thermalTrip_idle (h : c.pwr.tripped = true ∨ c.pwr.hotSince = none) : thermalTrip c = c :=
  if_pos (by rcases h with h | h <;> simp [h])

theorem thermalTrip_early {t : Nat} (ht : c.pwr.hotSince = some t) (h : c.now < t + 10000000) : thermalTrip c = c := by
  unfold thermalTrip
  rw [ht, Option.any_some, decide_eq_false (Nat.not_le.2 h), Bool.not_false, Bool.or_true, if_pos rfl]

/-- The chip that has recorded its trip. -/
def Chip.tripNoted (c : Chip) : Chip :=
  let d := c.writeNow (c.record 0x301 (c.get R.PWR_THERM_SENSOR) 0 0 0 0)
  { d with pwr := { d.pwr with tripped := true } }

theorem thermalTrip_due {t : Nat} (ht : c.pwr.hotSince = some t) (h : t + 10000000 ≤ c.now) (h0 : c.pwr.tripped = false) :
    thermalTrip c = if c.tripNoted.mayFlush then c.tripNoted.startFlush 2 else c.tripNoted.holdReset .trip true := by
  unfold thermalTrip
  rw [ht, Option.any_some, decide_eq_true h, h0, Bool.not_true, Bool.or_false, if_neg Bool.false_ne_true]
  rfl

/-! #### The power estimate (R518) -/

section
variable {w : Nat}

theorem powerEstimate_off (h : c.get R.PWR_CTRL_PCAP_W = 240) : powerEstimate w c = c.setCap c.pwr.thermalCap 2000 := if_pos h

variable (h : c.get R.PWR_CTRL_PCAP_W ≠ 240)
include h

theorem powerEstimate_down (hw : c.get R.PWR_CTRL_PCAP_W < w) (hc : c.pwr.powerAt + 1000000 ≤ c.now) :
    powerEstimate w c = ({ c with pwr := { c.pwr with powerAt := c.now } } : Chip).setCap c.pwr.thermalCap (capDown c.pwr.powerCap) :=
  (if_neg h).trans (if_pos (by simp [hw, hc]))

theorem powerEstimate_up (hw : w ≤ c.get R.PWR_CTRL_PCAP_W) (hl : w * 100 < c.get R.PWR_CTRL_PCAP_W * 95)
    (hc : c.pwr.powerAt + 10000000 ≤ c.now) :
    powerEstimate w c =
      ({ c with pwr := { c.pwr with powerAt := c.now } } : Chip).setCap c.pwr.thermalCap (capUp c.pwr.powerCap c.pwr.plan.cluster) :=
  (if_neg h).trans ((if_neg (by simp; omega)).trans (if_pos (by simp [hl, hc])))

theorem powerEstimate_stays (hd : c.get R.PWR_CTRL_PCAP_W < w → c.now < c.pwr.powerAt + 1000000)
    (hu : w * 100 < c.get R.PWR_CTRL_PCAP_W * 95 → c.now < c.pwr.powerAt + 10000000) : powerEstimate w c = c :=
  (if_neg h).trans ((if_neg (by simp; omega)).trans (if_neg (by simp; omega)))

end

/-- A power above the limit is not below 95 percent of it. -/
theorem below_limit {limit w : Nat} (h : limit < w) : ¬ w * 100 < limit * 95 := by omega

/-! #### The PLLs (R512, R513, R593) -/

section
variable {k : Nat}

theorem pllLocked_ignored (h : 10 ≤ k ∨ c.pwr.dawnStep < 2 ∨ c.bit R.PWR_PLL_LOCK k = true ∨ c.bit R.PWR_PLL_FAIL k = true) :
    pllLocked k c = c := if_pos (by simpa [or_assoc] using h)

theorem pllLocked_new (hk : k < 10) (hs : 2 ≤ c.pwr.dawnStep) (hl : c.bit R.PWR_PLL_LOCK k = false) (hf : c.bit R.PWR_PLL_FAIL k = false) :
    pllLocked k c = (c.raise R.PWR_PLL_LOCK k).clocksSettled.adoptIfLocked := if_neg (by simp [hl, hf]; omega)

theorem pllLossOfLock_ignored (h : c.inService = false ∨ 10 ≤ k ∨ c.bit R.PWR_PLL_LOCK k = false) : pllLossOfLock k c = c :=
  if_pos (by simpa [or_assoc] using h)

section
variable (hs : c.inService = true) (hk : k < 10) (hl : c.bit R.PWR_PLL_LOCK k = true)
include hs hk hl

theorem pllLossOfLock_core (h : k < 2 ∨ 5 < k) : pllLossOfLock k c = ((c.lower R.PWR_PLL_LOCK k).event 0x302 k 0 0 0 0).ownFault :=
  (if_neg (by simp [hs, hl]; omega)).trans (if_neg (by simp; omega))

theorem pllLossOfLock_cluster (h2 : 2 ≤ k) (h5 : k ≤ 5) :
    let d := (c.lower R.PWR_PLL_LOCK k).event 0x302 k 0 0 0 0
    let e := ((upFrom (6 * (k - 2)) 6).foldl (fun d n => if (d.clusAt n).state == .inService then (d.stopCluster n).failCluster n else d) d).checkPools
    pllLossOfLock k c = { e with pwr := { e.pwr with
      pllAt := Sparse.set 0 e.pwr.pllAt k e.now, pllTries := Sparse.set 0 e.pwr.pllTries k 0 } } := by
  unfold pllLossOfLock
  rw [if_neg (by simp [hs, hl]; omega), if_pos (by simp [h2, h5])]

end

end

end

end Sys2Proof.Machine

namespace Sys2Proof
open Sys2Proof.Machine

/-- Settles O45: each row's function has one lemma per case of its condition. -/
theorem clocksHeatAndPowerAct : Obligations.ClocksHeatAndPowerAct := by
  intro s c p
  refine ⟨Yields.run rfl rfl rfl, fun hs hd => Yields.served (f := resetWarm) hs rfl rfl (if_pos hd),
    fun hs hd => Yields.served (f := resetWarm) hs rfl rfl (if_neg (Bool.eq_false_iff.1 hd)),
    fun hs => Completes.ofClearAll hs rfl (by decide), fun ha => ?_⟩
  refine ⟨fun cause alive => Yields.awake ha rfl rfl rfl, fun k => ?gate, Yields.awake ha rfl rfl rfl, ?sample,
    fun h => Yields.awake ha rfl rfl (thermalTrip_idle h), fun t ht h => Yields.awake ha rfl rfl (thermalTrip_early ht h),
    fun t ht h h0 => Yields.awake ha rfl rfl (thermalTrip_due ht h h0), ?power,
    fun k h => Yields.awake ha rfl rfl (pllLocked_ignored h),
    fun k hk hs hl hf => Yields.awake ha rfl rfl (pllLocked_new hk hs hl hf),
    fun k h => Yields.awake ha rfl rfl (pllLossOfLock_ignored h), fun k hs hk hl => ?_⟩
  case gate =>
    refine ⟨fun h => Yields.awake ha rfl rfl (clusterGateIdle_working h),
      fun h hg => Yields.awake ha rfl rfl (clusterGateIdle_gated h hg), fun h hg => ⟨fun hf => ?_, fun e he => ⟨fun hn => ?_, fun hn => ?_⟩⟩⟩
    · exact Yields.awake ha rfl rfl (clusterGateIdle_found h hg hf)
    · exact Yields.awake ha rfl rfl ((clusterGateIdle_waits h hg he).trans (if_neg (by omega)))
    · exact Yields.awake ha rfl rfl ((clusterGateIdle_waits h hg he).trans (if_pos hn))
  case sample =>
    intro t rest
    exact ⟨fun h hc => Yields.awake ha rfl rfl ((thermalSample_cons t rest).trans (Chip.thermalCapped_down h hc)),
      fun h hc => Yields.awake ha rfl rfl ((thermalSample_cons t rest).trans (Chip.thermalCapped_up h hc)),
      fun h => Yields.awake ha rfl rfl ((thermalSample_cons t rest).trans (Chip.thermalCapped_stays h))⟩
  case power =>
    intro w limit stepped
    refine ⟨fun h => Yields.awake ha rfl rfl (powerEstimate_off h), fun h => ⟨fun hw hc => ?_, fun hw hl hc => ?_, fun hw hc => ?_,
      fun hw hl => ?_, fun hw hc => ?_⟩⟩
    · exact Yields.awake ha rfl rfl (powerEstimate_down h hw hc)
    · exact Yields.awake ha rfl rfl (powerEstimate_up h hw hl hc)
    · exact Yields.awake ha rfl rfl (powerEstimate_stays h (fun _ => hc) (fun hu => absurd hu (below_limit hw)))
    · exact Yields.awake ha rfl rfl (powerEstimate_stays h (fun hd => absurd hd (Nat.not_lt.2 hw)) (fun hu => absurd hu (Nat.not_lt.2 hl)))
    · exact Yields.awake ha rfl rfl (powerEstimate_stays h (fun hd => absurd hd (Nat.not_lt.2 hw)) (fun _ => hc))
  · refine ⟨fun h => Yields.awake ha rfl rfl (pllLossOfLock_core hs hk hl h), ?_⟩
    intro h2 h5
    refine Yields.awake (f := pllLossOfLock k) ha rfl rfl ?_
    have key := pllLossOfLock_cluster hs hk hl h2 h5
    dsimp only at key ⊢
    exact key

end Sys2Proof

namespace Sys2Proof.Machine

/-! ### Frames of the peer (R391, R393, R394, R406 to R409, R412, R413, R415, R417) -/

section
variable {c : Chip}

/-! #### Reception (R391, R393) -/

/-- The chip that has counted the codewords of a frame. -/
def Chip.frameCounted (c : Chip) (h : PeerHdr) : Chip :=
  (c.bump R.ZBL_CNT_CORR_CORR h.corrected).bump R.ZBL_CNT_UNCORR_UNCORR h.uncorrectable

/-- The chip that has accepted a frame's TXC, and the acknowledgement that the frame carries. -/
def Chip.frameAccepted (c : Chip) (h : PeerHdr) (m : PeerMsg) : Chip :=
  let moved : Chip := { c with zbl := { c.zbl with rxTxc := h.txc } }
  match h.ack with
  | some a => moved.takeAck m.ch a true
  | none => moved

theorem Chip.genuine_iff {h : PeerHdr} {m : PeerMsg} : c.genuine h m = true ↔ h.session = c.zbl.session ∧ c.zbl.rxTxc < h.txc ∧
    h.trailer = trailerOf (m.wire c.zbl.rxKey h.session h.src h.seq h.ack h.opid h.txc h.retx h.replay) := by
  unfold Chip.genuine Chip.peerSent
  simp [and_assoc]

section
variable {h : PeerHdr} {m : PeerMsg} {f : Chip → Chip}

theorem Chip.receive_down (hd : c.linkUp = false ∨ c.awake = false) : c.receive h m f = c :=
  if_pos (by rcases hd with hd | hd <;> simp [hd])

section
variable (hl : c.linkUp = true) (ha : c.awake = true)
include hl ha

theorem Chip.receive_up : ¬ (!c.linkUp || !c.awake) = true := by simp [hl, ha]

theorem Chip.receive_corrupt (hu : h.uncorrectable ≠ 0) : c.receive h m f = c.frameCounted h :=
  (if_neg (Chip.receive_up hl ha)).trans (if_pos hu)

variable (hu : h.uncorrectable = 0)
include hu

theorem Chip.receive_foreign (hg : ¬ (c.frameCounted h).genuine h m = true) :
    c.receive h m f = (c.frameCounted h).bump R.ZBL_CNT_TAG_TAG 1 :=
  (if_neg (Chip.receive_up hl ha)).trans ((if_neg (not_not.2 hu)).trans (if_pos (congrArg (!·) (Bool.eq_false_iff.2 hg))))

variable (hg : (c.frameCounted h).genuine h m = true)
include hg

theorem Chip.receive_genuine : c.receive h m f =
    if m.seqd then ((c.frameCounted h).frameAccepted h m).inTurn h m.ch f
    else f (((c.frameCounted h).frameAccepted h m).bump R.ZBL_CNT_RX_RX 1) :=
  (if_neg (Chip.receive_up hl ha)).trans ((if_neg (not_not.2 hu)).trans (if_neg (fun foreign => Bool.false_ne_true ((congrArg (!·) hg).symm.trans foreign))))

theorem Chip.receive_unsequenced (hs : m.seqd = false) :
    c.receive h m f = f (((c.frameCounted h).frameAccepted h m).bump R.ZBL_CNT_RX_RX 1) :=
  (Chip.receive_genuine hl ha hu hg).trans (if_neg (by rw [hs]; exact Bool.false_ne_true))

theorem Chip.receive_sequenced (hs : m.seqd = true) : c.receive h m f = ((c.frameCounted h).frameAccepted h m).inTurn h m.ch f :=
  (Chip.receive_genuine hl ha hu hg).trans (if_pos hs)

end

end

/-! #### A sequenced frame's turn (R393) -/

theorem Chip.modZch_congr {ch : Nat} {f g : Channel → Channel} (h : f (c.zch ch) = g (c.zch ch)) : c.modZch ch f = c.modZch ch g := by
  match ch with
  | 0 => unfold Chip.modZch; exact congrArg (fun x : Channel => { c with zbl := { c.zbl with chC := x } }) h
  | 1 => unfold Chip.modZch; exact congrArg (fun x : Channel => { c with zbl := { c.zbl with chM := x } }) h
  | _ + 2 => unfold Chip.modZch; exact congrArg (fun x : Channel => { c with zbl := { c.zbl with chB := x } }) h

/-- How far behind the number a channel expects next a frame's sequence number lies. -/
def Chip.seqBehind (c : Chip) (h : PeerHdr) (ch : Nat) : Nat := ((c.zch ch).expect + 2 ^ 32 - h.seq) % 2 ^ 32

section
variable {h : PeerHdr} {ch : Nat} {f : Chip → Chip}

theorem Chip.inTurn_next (hb : c.seqBehind h ch = 0) : c.inTurn h ch f = f ((c.modZch ch (fun x => { x with
    expect := (x.expect + 1) % 2 ^ 32, ackOwed := true, nakSent := none })).bump R.ZBL_CNT_RX_RX 1) := if_pos hb

theorem Chip.inTurn_duplicate (h1 : 1 ≤ c.seqBehind h ch) (hb : c.seqBehind h ch ≤ 2 ^ 31) :
    c.inTurn h ch f = (c.bump R.ZBL_CNT_DUP_DUP 1).sendAck 0 := (if_neg (Nat.one_le_iff_ne_zero.1 h1)).trans (if_pos hb)

section
variable (hb : 2 ^ 31 < c.seqBehind h ch)
include hb

theorem Chip.inTurn_ahead : c.inTurn h ch f =
    if (c.zch ch).nakSent = some (c.zch ch).expect then c
    else ((c.modZch ch (fun x => { x with nakSent := some x.expect })).bump R.ZBL_CNT_NAK_NAK 1).sendAck (2 ^ ch) :=
  (if_neg (Nat.ne_zero_of_lt hb)).trans (if_neg (Nat.not_le.2 hb))

theorem Chip.inTurn_naked (hn : (c.zch ch).nakSent = some (c.zch ch).expect) : c.inTurn h ch f = c :=
  (Chip.inTurn_ahead hb).trans (if_pos hn)

theorem Chip.inTurn_nak (hn : (c.zch ch).nakSent ≠ some (c.zch ch).expect) : c.inTurn h ch f =
    ((c.modZch ch (fun y => { y with nakSent := some (c.zch ch).expect })).bump R.ZBL_CNT_NAK_NAK 1).sendAck (2 ^ ch) := by
  rw [Chip.inTurn_ahead hb, if_neg hn, Chip.modZch_congr (f := fun x => { x with nakSent := some x.expect })
    (g := fun y => { y with nakSent := some (c.zch ch).expect }) rfl]

end

end

/-! #### What the messages do -/

/-- A heartbeat's effect: the arrival is stamped with the time before the offset and the peer's state are shown. -/
theorem heartbeatReceive_takes (h : PeerHdr) (tx etx erx : Nat) (st : HbState) :
    heartbeatReceive h tx etx erx st c = c.receive h (.hb tx etx erx st) (fun d =>
      let ofs := (((erx : Int) - etx) - ((d.now : Int) - tx)) / 2
      let g := (d.set R.GLB_PEER_TIME_OFS_OFS (ofInt64 ofs)).set R.GLB_STATUS_PEER_UP 1
      let g : Chip := { g with zbl := { g.zbl with lastHbTx := tx, lastHbRx := d.now, peerHb := some st } }
      g.sleepSteps.takeAwake st.awake) := by
  refine congrArg (c.receive h (.hb tx etx erx st)) (funext fun d => ?_)
  have hnow (v : Nat) : ((d.set R.GLB_PEER_TIME_OFS_OFS v).set R.GLB_STATUS_PEER_UP 1).now = d.now :=
    (Chip.now_set_ne _ _ (by decide)).trans (Chip.now_set_ne _ _ (by decide))
  simp only [hnow]

theorem depart_takes (h : PeerHdr) (strs t : Nat) : depart h strs t c = c.receive h (.notice 4 strs t) (fun d =>
    if d.zbl.state = .inService then
      let g := (d.takePeersShare).takeStrings strs false
      ({ g with zbl := { g.zbl with departed := true }, ing := { g.ing with
        peerVaultSuperseded := g.ing.peerVaultSuperseded || d.zbl.pfailSeen } } : Chip).breakSession.soleNow
    else d) :=
  congrArg (c.receive h (.notice 4 strs t)) (funext fun d => ite_not (d.zbl.state = .inService) _ _)

theorem mnClose_takes (h : PeerHdr) (e n last dig eff : Nat) : mnClose h e n last dig eff c = c.receive h (.mnClose e n last dig eff) (fun d =>
    let x := d.epochEx e
    if x.recs.length = n ∧ beNat (sha256 x.image) = dig then
      (d.modEpoch e (fun x => { x with effective := eff, confirmSent := true })).peerSend 1 0 (.mnConfirm e dig)
    else if x.mismatches = 0 then d.modEpoch e (fun x => { x with recs := [], image := [], mismatches := 1 })
    else d.breakSession) := by
  refine congrArg (c.receive h (.mnClose e n last dig eff)) (funext fun d => ?_)
  simp only [Bool.and_eq_true, decide_eq_true_eq, beq_iff_eq]

end

end Sys2Proof.Machine

namespace Sys2Proof
open Sys2Proof.Machine

/-- Settles O36: reception has one lemma per fate of a frame, and each message's row is `Chip.receive` with the message's effect. -/
theorem peerFramesAreReceived : Obligations.PeerFramesAreReceived := by
  refine ⟨fun c h m f => ⟨fun hd => Chip.receive_down hd, fun hl ha => ⟨fun hu => Chip.receive_corrupt hl ha hu,
    fun hu hg => Chip.receive_foreign hl ha hu (mt Chip.genuine_iff.1 hg), fun hu hg => ?_⟩⟩, fun s h ha => ?_⟩
  · have real : (c.frameCounted h).genuine h m = true := Chip.genuine_iff.2 hg
    refine ⟨fun hs => Chip.receive_unsequenced hl ha hu real hs, fun hs => ?_⟩
    have turn := Chip.receive_sequenced (f := f) hl ha hu real hs
    exact ⟨fun hb => turn.trans (Chip.inTurn_next hb), fun h1 hb => turn.trans (Chip.inTurn_duplicate h1 hb),
      fun hb hn => turn.trans (Chip.inTurn_naked hb hn), fun hb hn => turn.trans (Chip.inTurn_nak hb hn)⟩
  · intro c
    have acts {i : Instr} {f : Chip → Chip} {d : Chip} (hx : exec i s = s.runAwake true f) (hd : f c = d) : Yields i s d :=
      Yields.awake ha hx rfl hd
    exact ⟨fun msg => acts rfl rfl, fun tx etx erx st => acts rfl (heartbeatReceive_takes h tx etx erx st), fun acks wins nak => acts rfl rfl,
      fun t => acts rfl rfl, fun t => acts rfl rfl, fun strs t => acts rfl rfl, fun strs t => acts rfl (depart_takes h strs t),
      fun t => acts rfl rfl, fun t e shift => acts rfl rfl, fun rsn e image body => acts rfl rfl,
      fun e n last dig eff => acts rfl (mnClose_takes h e n last dig eff), fun e dig => acts rfl rfl⟩

end Sys2Proof

namespace Sys2Proof.Machine

/-! ### The mirror, epoch boundaries and the loss of the peer (R393, R398, R404 to R409, R416 to R422) -/

section
variable {c : Chip}

/-! #### Mirror frames (R404) -/

/-- The chip that holds a piece of mirror data, counted against its granule. -/
def Chip.mirrorStored (c : Chip) (ofs : Nat) (data : List Byte) : Chip :=
  let g := (c.store (c.wbBase + ofs) data).modGranule (ofs / 0x400000) (fun g =>
    { g with used := max g.used (ofs % 0x400000 + data.length), live := g.live + data.length })
  { g with ing := { g.ing with peerUsed := g.ing.peerUsed + data.length } }

/-- The write of the peer that its first mirror data begins. -/
def mirrorWrite (wid base n : Nat) : WrBuf :=
  { wid := wid, id := ⟨0, 0, 0⟩, own := false, fn := 0, nsid := 0, slba := 0, nlb := 0, base := base, bytes := n,
    mbase := base, ext := false, metaBytes := 0, pr := ⟨true, 0, 0, 0, 0⟩, cls := 0, keyGen := 0, zeroes := false }

/-- What mirror data does once it is received. -/
def Chip.takeMirrorData (c : Chip) (wid ofs : Nat) (data : List Byte) : Chip :=
  if c.zbl.total * 0x400000 < ofs + data.length then c
  else match (c.mirrorStored ofs data).wr wid with
    | some _ => (c.mirrorStored ofs data).modWr wid (fun w => { w with base := min w.base (c.wbBase + ofs), bytes := w.bytes + data.length })
    | none => { c.mirrorStored ofs data with ing := { (c.mirrorStored ofs data).ing with
        writes := (c.mirrorStored ofs data).ing.writes ++ [mirrorWrite wid (c.wbBase + ofs) data.length] } }

theorem mirrorData_takes (h : PeerHdr) (wid ofs : Nat) (data : List Byte) :
    mirrorData h wid ofs data c = c.receive h (.mirrorData wid ofs data) (fun d => d.takeMirrorData wid ofs data) := rfl

section
variable {wid ofs : Nat} {data : List Byte}

theorem Chip.takeMirrorData_beyond (h : c.zbl.total * 0x400000 < ofs + data.length) : c.takeMirrorData wid ofs data = c := if_pos h

variable (h : ofs + data.length ≤ c.zbl.total * 0x400000)
include h

theorem Chip.takeMirrorData_more {w : WrBuf} (hw : (c.mirrorStored ofs data).wr wid = some w) : c.takeMirrorData wid ofs data =
    (c.mirrorStored ofs data).modWr wid (fun w => { w with base := min w.base (c.wbBase + ofs), bytes := w.bytes + data.length }) := by
  refine (if_neg (Nat.not_lt.2 h)).trans ?_
  rw [hw]

theorem Chip.takeMirrorData_first (hw : (c.mirrorStored ofs data).wr wid = none) : c.takeMirrorData wid ofs data =
    { c.mirrorStored ofs data with ing := { (c.mirrorStored ofs data).ing with
      writes := (c.mirrorStored ofs data).ing.writes ++ [mirrorWrite wid (c.wbBase + ofs) data.length] } } := by
  refine (if_neg (Nat.not_lt.2 h)).trans ?_
  rw [hw]

end

/-- What a mirror's end does once it is received. -/
def Chip.takeMirrorEnd (c : Chip) (wid tenant nsid slba nlb len : Nat) : Chip :=
  let n := c.nsOf nsid
  let bare := len == nlb * 4096
  let sep := if bare || n.ext then 0 else len - nlb * 4096
  let seq := c.ing.postSeq + 1
  let gen := (c.slot n.keySlot).gen
  ({ c with ing := { c.ing with postSeq := seq } } : Chip).modWr wid (fun w =>
    if w.own then w
    else { w with
      fn := tenant, nsid := nsid, slba := slba, nlb := nlb, bytes := w.bytes - sep, metaBytes := sep, mbase := w.base + (w.bytes - sep),
      ext := n.ext, pr := ⟨bare, 0, slba, 0, 0⟩, cls := n.cls, keyGen := gen, arrived := true, passed := true, mirrored := true,
      completed := some seq, pieces := piecesOf slba nlb })

theorem mirrorEnd_takes (h : PeerHdr) (wid ten nsid slba nlb len : Nat) : mirrorEnd h wid ten nsid slba nlb len c =
    c.receive h (.mirrorEnd wid ten nsid slba nlb len) (fun d => d.takeMirrorEnd wid ten nsid slba nlb len) := rfl

/-- A mirror's end of data alone: no separate metadata. -/
theorem Chip.takeMirrorEnd_bare (wid ten nsid slba nlb : Nat) :
    let n := c.nsOf nsid
    let seq := c.ing.postSeq + 1
    c.takeMirrorEnd wid ten nsid slba nlb (nlb * 4096) = ({ c with ing := { c.ing with postSeq := seq } } : Chip).modWr wid (fun w =>
      if w.own then w else
      { w with fn := ten, nsid := nsid, slba := slba, nlb := nlb, metaBytes := 0, mbase := w.base + w.bytes, ext := n.ext
               pr := ⟨true, 0, slba, 0, 0⟩, cls := n.cls, keyGen := (c.slot n.keySlot).gen, arrived := true, passed := true
               mirrored := true, completed := some seq, pieces := piecesOf slba nlb }) := by
  intro n seq
  unfold Chip.takeMirrorEnd
  simp only [beq_self_eq_true, Bool.true_or, if_true, Nat.sub_zero]
  rfl

/-! #### Boundaries and Midnights (R406, R409) -/

theorem epochBoundary_due (hs : c.inService = true) (ht : c.boundaryAt c.nextEpoch ≤ c.now) : epochBoundary c = c.openEpoch c.nextEpoch :=
  if_neg (by rw [hs]; simpa using ht)

theorem epochBoundary_early (h : c.inService = false ∨ c.now < c.boundaryAt c.nextEpoch) : epochBoundary c = c :=
  if_pos (by rcases h with h | h <;> simp [h])

section
variable {e : Nat}

theorem midnightComplete_none (h : c.zbl.epochs.find? (fun x => x.epoch == e) = none) : midnightComplete e c = c := by
  unfold midnightComplete
  rw [h]

theorem midnightComplete_some {x : EpochEx} (h : c.zbl.epochs.find? (fun x => x.epoch == e) = some x) :
    midnightComplete e c = if c.mayComplete_ x then c.completeMn e else c := by
  unfold midnightComplete
  rw [h]

end

/-! #### The sync edge (R407) -/

/-- The boundaries near the present: the last that took place and the next two. -/
def Chip.nearBoundaries (c : Chip) : List (Nat × Nat) :=
  [(c.epoch, c.get R.ZBL_ANCHOR_TIME), (c.nextEpoch, c.boundaryAt c.nextEpoch), (c.nextEpoch + 1, c.boundaryAt (c.nextEpoch + 1))]

/-- How far a boundary lies from a time. -/
def boundaryDist (te : Nat) (p : Nat × Nat) : Nat := (te - p.2) + (p.2 - te)

/-- A list searched for its nearest boundary, from one already found. -/
def nearest (te : Nat) (best : Nat × Nat) (l : List (Nat × Nat)) : Nat × Nat :=
  l.foldl (fun best p => if boundaryDist te p < boundaryDist te best then p else best) best

theorem nearest_eq {te : Nat} {b : Nat × Nat} (l : List (Nat × Nat)) (best : Nat × Nat) (hb : b = best ∨ b ∈ l)
    (h : ∀ p ∈ best :: l, p = b ∨ boundaryDist te b < boundaryDist te p) : nearest te best l = b := by
  induction l generalizing best with
  | nil => exact hb.elim (fun e => e.symm) (fun hb => absurd hb List.not_mem_nil)
  | cons p l ih =>
    have hbest := h best List.mem_cons_self
    have hp := h p (List.mem_cons_of_mem _ List.mem_cons_self)
    have tail {q : Nat × Nat} (hq : q = b ∨ boundaryDist te b < boundaryDist te q) :
        ∀ r ∈ q :: l, r = b ∨ boundaryDist te b < boundaryDist te r := fun r hr =>
      (List.mem_cons.1 hr).elim (fun hrq => hrq ▸ hq) (fun hr => h r (List.mem_cons_of_mem _ (List.mem_cons_of_mem _ hr)))
    change nearest te (if boundaryDist te p < boundaryDist te best then p else best) l = b
    split
    next hlt =>
      refine ih p ?_ (tail hp)
      rcases hb with rfl | hb
      · exact hp.elim (fun e => .inl e.symm) (fun hlt' => absurd hlt (Nat.lt_asymm hlt'))
      · exact (List.mem_cons.1 hb)
    next hge =>
      refine ih best ?_ (tail hbest)
      rcases hb with rfl | hb
      · exact .inl rfl
      · rcases List.mem_cons.1 hb with rfl | hb
        · exact hbest.elim (fun e => .inl e.symm) (fun hlt => absurd hlt hge)
        · exact .inr hb

/-- Where the sync edge at `te` puts boundary `b`: itself, or the one after it where `b` has taken place. -/
def Chip.syncMove (c : Chip) (te : Nat) (b : Nat × Nat) : Nat × Nat :=
  if te ≤ b.2 then (te, b.1) else (te + c.epochNs, if b.1 = c.epoch then c.nextEpoch else b.1 + 1)

/-- The chip whose boundary `b` the sync edge at `te` has moved. -/
def Chip.syncMoved (c : Chip) (te : Nat) (b : Nat × Nat) : Chip :=
  ((({ c with zbl := { c.zbl with msyncUsedEpoch := some c.epoch } } : Chip).set R.ZBL_MSYNC_LAST_SHIFT
    (ofInt64 ((te : Int) - b.2))).moveBoundary (c.syncMove te b).1 (c.syncMove te b).2)

theorem midnightSyncEdge_ignored (h : c.inService = false ∨ c.msync = false ∨ c.timekeeper = false) : midnightSyncEdge c = c :=
  if_pos (by rcases h with h | h | h <;> simp [h])

section
variable (hs : c.inService = true) (hm : c.msync = true) (hk : c.timekeeper = true)
include hs hm hk

theorem midnightSyncEdge_seen : ¬ (!c.inService || !c.msync || !c.timekeeper) = true := by simp [hs, hm, hk]

theorem midnightSyncEdge_twice (hu : c.zbl.msyncUsedEpoch = some c.epoch) :
    midnightSyncEdge c = c.bump R.ZBL_CNT_MSYNC_IGN_MSYNC_IGN 1 :=
  (if_neg (midnightSyncEdge_seen hs hm hk)).trans (if_pos (Bool.or_eq_true_iff.2 (.inr (decide_eq_true hu))))

variable {b : Nat × Nat} (hb : nearest (c.now + 100000) (c.epoch, c.get R.ZBL_ANCHOR_TIME) c.nearBoundaries = b)
include hb

theorem midnightSyncEdge_far (hd : 2000000 < boundaryDist (c.now + 100000) b) :
    midnightSyncEdge c = c.bump R.ZBL_CNT_MSYNC_IGN_MSYNC_IGN 1 := by
  refine (if_neg (midnightSyncEdge_seen hs hm hk)).trans (if_pos ?_)
  subst hb
  exact Bool.or_eq_true_iff.2 (.inl (decide_eq_true hd))

theorem midnightSyncEdge_near (hu : c.zbl.msyncUsedEpoch ≠ some c.epoch) (hd : boundaryDist (c.now + 100000) b ≤ 2000000) :
    let te := c.now + 100000
    midnightSyncEdge c = if (c.syncMoved te b).paired then
      (c.syncMoved te b).peerSend 0 0 (.mnSync (c.syncMove te b).1 (c.syncMove te b).2 ((te : Int) - b.2)) else c.syncMoved te b := by
  intro te
  subst hb
  refine (if_neg (midnightSyncEdge_seen hs hm hk)).trans (if_neg ?_)
  intro hor
  rcases Bool.or_eq_true_iff.1 hor with h | h
  · exact absurd (of_decide_eq_true h) (Nat.not_lt.2 hd)
  · exact hu (of_decide_eq_true h)

end

theorem Chip.moveBoundary_paired (t e : Nat) : (c.moveBoundary t e).paired = c.paired := by
  unfold Chip.moveBoundary
  split <;> rfl

theorem Chip.set_paired (f : Fld) (v : Nat) : (c.set f v).paired = c.paired := by
  unfold Chip.set
  split <;> rfl

theorem Chip.syncMoved_paired (te : Nat) (b : Nat × Nat) : (c.syncMoved te b).paired = c.paired :=
  (Chip.moveBoundary_paired _ _).trans (Chip.set_paired _ _)

/-! #### The silent peer and the fence (R416 to R418) -/

theorem peerSilent_ignored (h : c.silent = false ∨ c.zbl.lapsed = true) : peerSilent c = c :=
  if_pos (by rcases h with h | h <;> simp [h])

section
variable (ha : c.awake = true) (hs : c.silent = true) (hl : c.zbl.lapsed = false)
include ha hs hl

theorem peerSilent_acts : peerSilent c =
    if c.zbl.state = .inService then if c.zbl.pfailSeen || !c.peerPresent || c.pos = 0 then c.takeOver else c.yieldNow
    else if c.zbl.state = .joining || c.zbl.state = .sole then c.endJoining
    else c.set R.GLB_STATUS_PEER_UP 0 := if_neg (by simp [ha, hs, hl])

theorem peerSilent_takesOver (hz : c.zbl.state = .inService) (h : c.zbl.pfailSeen = true ∨ c.peerPresent = false ∨ c.pos = 0) :
    peerSilent c = c.takeOver :=
  (peerSilent_acts ha hs hl).trans ((if_pos hz).trans (if_pos (by rcases h with h | h | h <;> simp [h])))

theorem peerSilent_yields (hz : c.zbl.state = .inService) (hf : c.zbl.pfailSeen = false) (hp : c.peerPresent = true) (h0 : c.pos ≠ 0) :
    peerSilent c = c.yieldNow :=
  (peerSilent_acts ha hs hl).trans ((if_pos hz).trans (if_neg (by simp [hf, hp, h0])))

theorem peerSilent_endsJoining (hz : c.zbl.state = .joining ∨ c.zbl.state = .sole) : peerSilent c = c.endJoining :=
  (peerSilent_acts ha hs hl).trans ((if_neg (by rcases hz with h | h <;> simp [h])).trans (if_pos (by rcases hz with h | h <;> simp [h])))

theorem peerSilent_shows (hi : c.zbl.state ≠ .inService) (hj : c.zbl.state ≠ .joining) (ho : c.zbl.state ≠ .sole) :
    peerSilent c = c.set R.GLB_STATUS_PEER_UP 0 :=
  (peerSilent_acts ha hs hl).trans ((if_neg hi).trans (if_neg (by simp [hj, ho])))

end

theorem fenceComplete_waits (h : c.zbl.fencing = false ∨ ¬ ((List.range 16).filter c.trainedOn).all c.fenced = true) : fenceComplete c = c :=
  if_pos (by rcases h with h | h <;> simp [h])

theorem fenceComplete_sole (hf : c.zbl.fencing = true) (h : ((List.range 16).filter c.trainedOn).all c.fenced = true) : fenceComplete c =
    ({ c.set R.ZBL_STATUS_LOST 1 with ing := { c.ing with peerVaultSuperseded := true } } : Chip).soleNow :=
  if_neg (by simp [hf, h])

/-! #### Bring-up and acknowledgements (R393, R398, R421) -/

theorem bringupRetry_waits (h : c.mayLink = false ∨ c.linkUp = true ∨ c.zbl.retryAt = 0 ∨ c.now < c.zbl.retryAt) : bringupRetry c = c :=
  if_neg (by rcases h with h | h | h | h <;> simp [h])

theorem bringupRetry_due (hm : c.mayLink = true) (hl : c.linkUp = false) (h0 : c.zbl.retryAt ≠ 0) (ht : c.zbl.retryAt ≤ c.now) :
    bringupRetry c = ({ c with zbl := { c.zbl with
      retryAt := c.now + if c.zbl.state = .yielded ∧ c.on R.ZBL_STATUS_REFUSED = false then 1000000000 else 10000000000 } } : Chip).trainPeer := by
  refine (if_pos (by simp [hm, hl, h0, ht])).trans ?_
  simp only [Bool.and_eq_true, decide_eq_true_eq, Bool.not_eq_true']

theorem zblTrainingRestart_trains (hm : c.mayLink = true) (hl : c.linkUp = false) (ht : c.zbl.training = true) :
    zblTrainingRestart c = c.trainPeer := if_pos (by simp [hm, hl, ht])

theorem zblTrainingRestart_idle (h : c.mayLink = false ∨ c.linkUp = true ∨ c.zbl.training = false) : zblTrainingRestart c = c :=
  if_neg (by rcases h with h | h | h <;> simp [h])

section
variable {ch : Nat}

theorem standaloneAck_owed (hl : c.linkUp = true) (ho : (c.zch ch).ackOwed = true) : standaloneAck ch c = c.sendAck 0 :=
  if_pos (by simp [hl, ho])

theorem standaloneAck_idle (h : c.linkUp = false ∨ (c.zch ch).ackOwed = false) : standaloneAck ch c = c :=
  if_neg (by rcases h with h | h <;> simp [h])

end

end

end Sys2Proof.Machine

namespace Sys2Proof
open Sys2Proof.Machine

/-- Settles O38: mirror frames by what they do once received, the rest by one lemma per case; the sync edge's nearest boundary is the one
the model's search finds (`nearest_eq`). -/
theorem mirrorAndTakeoverAct : Obligations.MirrorAndTakeoverAct := by
  intro s ha c z
  have acts {i : Instr} {f : Chip → Chip} {d : Chip} (hx : exec i s = s.runAwake true f) (hd : f c = d) : Yields i s d :=
    Yields.awake ha hx rfl hd
  refine ⟨⟨fun wid ofs data d => d.takeMirrorData wid ofs data, fun h wid ofs data => acts rfl (mirrorData_takes h wid ofs data),
      fun wid ofs data d => ⟨fun h => Chip.takeMirrorData_beyond h, fun h => ⟨fun w hw => Chip.takeMirrorData_more h hw,
        fun hw => ⟨_, Chip.takeMirrorData_first h hw, rfl, rfl, rfl, rfl, rfl, rfl⟩⟩⟩⟩,
    ⟨fun wid ten nsid slba nlb len d => d.takeMirrorEnd wid ten nsid slba nlb len,
      fun h wid ten nsid slba nlb len => acts rfl (mirrorEnd_takes h wid ten nsid slba nlb len),
      fun wid ten nsid slba nlb d => Chip.takeMirrorEnd_bare wid ten nsid slba nlb⟩,
    fun h wid => acts rfl rfl, fun hs ht => acts rfl (epochBoundary_due hs ht), fun h => acts rfl (epochBoundary_early h),
    fun e h => acts rfl (midnightComplete_none h), fun e x h => ?_, fun h => acts rfl (midnightSyncEdge_ignored h),
    fun hs hm hk hu => acts rfl (midnightSyncEdge_twice hs hm hk hu), fun hs hm hk hu => ?sync,
    fun h => acts rfl (peerSilent_ignored h), fun hs hl => ?_,
    ⟨fun h => acts rfl (fenceComplete_waits h), fun hf h => acts rfl (fenceComplete_sole hf h)⟩,
    fun h => acts rfl (bringupRetry_waits h), fun hm hl h0 ht => acts rfl (bringupRetry_due hm hl h0 ht),
    fun hm hl ht => acts rfl (zblTrainingRestart_trains hm hl ht), fun h => acts rfl (zblTrainingRestart_idle h),
    fun ch hl ho => acts rfl (standaloneAck_owed hl ho), fun ch h => acts rfl (standaloneAck_idle h),
    fun hs => Completes.ofClearAll hs rfl (by decide)⟩
  · have heq := midnightComplete_some h
    exact ⟨fun hm => acts rfl (heq.trans (if_pos hm)), fun hm => acts rfl (heq.trans (if_neg (Bool.eq_false_iff.1 hm)))⟩
  case sync =>
    intro te n near dist b hb hmin
    have hnear : nearest te (c.epoch, c.get R.ZBL_ANCHOR_TIME) c.nearBoundaries = b :=
      nearest_eq c.nearBoundaries _ (.inr hb) (fun p hp => (List.mem_cons.1 hp).elim (fun e => hmin p (e ▸ List.mem_cons_self)) (hmin p))
    refine ⟨fun hd => acts rfl (midnightSyncEdge_far hs hm hk hnear hd), fun hd => ?_⟩
    have heq := midnightSyncEdge_near hs hm hk hnear hu hd
    have hpair := Chip.syncMoved_paired (c := c) te b
    exact ⟨fun hp => acts rfl (heq.trans (if_neg (Bool.eq_false_iff.1 (hpair.trans hp)))),
      fun hp => acts rfl (heq.trans (if_pos (hpair.trans hp)))⟩
  · exact ⟨fun hz h => acts rfl (peerSilent_takesOver ha hs hl hz h), fun hz hf hp h0 => acts rfl (peerSilent_yields ha hs hl hz hf hp h0),
      fun hz => acts rfl (peerSilent_endsJoining ha hs hl hz), fun hi hj ho => acts rfl (peerSilent_shows ha hs hl hi hj ho)⟩

end Sys2Proof
